-- ==== Sys2Proof/Word.lean ====
section
/-! DEFINITION. The word types of the NX9620 model and their plainest arithmetic: register words, lines
(R33), line numbers, modular windows (R259, R284). -/

namespace Sys2Proof

/-- A 32-bit register word (R483). -/
abbrev Word := BitVec 32
/-- The 64 bytes of one line (R33), byte `b` in bits `8b+7:8b`. -/
abbrev LineData := BitVec 512
/-- One byte. -/
abbrev Byte := BitVec 8

/-- `a` reaches or passes `b` on a clock of `w` bits, compared in a window of half its range (R196, R252, R259). -/
def atOrAfter (w a b : Nat) : Bool := (a + 2 ^ w - b % 2 ^ w) % 2 ^ w < 2 ^ (w - 1)

/-- `a / b` rounded up. -/
def ceilDiv (a b : Nat) : Nat := (a + b - 1) / b

/-- Number of set bits among the low `n` bits of `x`. -/
def popCount (n x : Nat) : Nat := ((List.range n).filter fun i => x.testBit i).length

/-- The positions of the set bits among the low `n` bits of `x`, ascending. -/
def setBits (n x : Nat) : List Nat := (List.range n).filter fun i => x.testBit i

/-- `x` with bit `i` set. -/
def withBit (x i : Nat) : Nat := x ||| 2 ^ i

/-- The word with the listed bits set. -/
def bitsOf (l : List Nat) : Nat := l.foldl withBit 0

/-- `x` with bit `i` cleared. -/
def withoutBit (x i : Nat) : Nat := if x.testBit i then x - 2 ^ i else x

/-- The two words of a 64-bit value, and a bit of a word. -/
def loW (v : Nat) : Nat := v % 2 ^ 32
def hiW (v : Nat) : Nat := v / 2 ^ 32 % 2 ^ 32
def flagAt (b : Bool) (n : Nat) : Nat := if b then 2 ^ n else 0

end Sys2Proof
end

