-- ==== Sys2Proof/Machine/Store.lean ====
section
/-! DEFINITION. Sparse tables, the one container of the state: a list of key and value pairs in one
canonical form, keys strictly rising. -/

namespace Sys2Proof.Machine

/-- A sparse table: pairs of a key and a value, keys strictly rising. -/
structure Tab (α : Type) where
  list : List (Nat × α)
  deriving DecidableEq, Repr

/-- The table with no entry. -/
def Tab.empty {α : Type} : Tab α := ⟨[]⟩

/-- The keys of a pair list rise strictly and all lie at or above `lo`. -/
def Tab.risingFrom {α : Type} (lo : Nat) : List (Nat × α) → Bool
  | [] => true
  | (k, _) :: r => decide (lo ≤ k) && Tab.risingFrom (k + 1) r

/-- The canonical form: keys strictly rising. -/
def Tab.wf {α : Type} (t : Tab α) : Bool := Tab.risingFrom 0 t.list

/-- The value listed first for a key. -/
def Tab.find {α : Type} (k : Nat) : List (Nat × α) → Option α
  | [] => none
  | (j, v) :: r => if j = k then some v else Tab.find k r

/-- What the table holds at a key. -/
def Tab.get? {α : Type} (t : Tab α) (k : Nat) : Option α := Tab.find k t.list

/-- Whether the table holds the key. -/
def Tab.has {α : Type} (t : Tab α) (k : Nat) : Bool := (t.get? k).isSome

/-- The pair list with `v` at `k`, order kept. -/
def Tab.insert {α : Type} (k : Nat) (v : α) : List (Nat × α) → List (Nat × α)
  | [] => [(k, v)]
  | (j, w) :: r =>
    if k < j then (k, v) :: (j, w) :: r
    else if k = j then (k, v) :: r
    else (j, w) :: Tab.insert k v r

/-- The pair list without the key. -/
def Tab.erase {α : Type} (k : Nat) : List (Nat × α) → List (Nat × α)
  | [] => []
  | (j, w) :: r => if j = k then Tab.erase k r else (j, w) :: Tab.erase k r

/-- The table with `v` at `k`. -/
def Tab.put {α : Type} (t : Tab α) (k : Nat) (v : α) : Tab α := ⟨Tab.insert k v t.list⟩

/-- The table without `k`. -/
def Tab.del {α : Type} (t : Tab α) (k : Nat) : Tab α := ⟨Tab.erase k t.list⟩

/-- What a table whose unlisted entries read `d` holds at `k`. -/
def Tab.getD {α : Type} (t : Tab α) (k : Nat) (d : α) : α := (t.get? k).getD d

/-- Store into a table whose unlisted entries read `d`: a value equal to `d` is not listed. -/
def Tab.putD {α : Type} [DecidableEq α] (t : Tab α) (k : Nat) (v d : α) : Tab α :=
  if v = d then t.del k else t.put k v

/-- Change the entry at `k`, if there is one. -/
def Tab.upd {α : Type} (t : Tab α) (k : Nat) (f : α → α) : Tab α :=
  match t.get? k with
  | some v => t.put k (f v)
  | none => t

/-- The entries whose key and value satisfy `p`. -/
def Tab.filter {α : Type} (t : Tab α) (p : Nat → α → Bool) : Tab α := ⟨t.list.filter fun e => p e.1 e.2⟩

/-- Change every value. -/
def Tab.map {α : Type} (t : Tab α) (f : Nat → α → α) : Tab α := ⟨t.list.map fun e => (e.1, f e.1 e.2)⟩

/-- The keys, ascending. -/
def Tab.keys {α : Type} (t : Tab α) : List Nat := t.list.map Prod.fst

/-- The values, in key order. -/
def Tab.vals {α : Type} (t : Tab α) : List α := t.list.map Prod.snd

/-- Number of entries. -/
def Tab.size {α : Type} (t : Tab α) : Nat := t.list.length

/-- The lowest natural number not below `lo` that is no key of the rising pair list. -/
def Tab.firstFreeFrom {α : Type} (lo : Nat) : List (Nat × α) → Nat
  | [] => lo
  | (k, _) :: r => if lo < k then lo else if lo = k then Tab.firstFreeFrom (lo + 1) r else Tab.firstFreeFrom lo r

/-- The lowest number that is no key of the table. -/
def Tab.firstFree {α : Type} (t : Tab α) : Nat := Tab.firstFreeFrom 0 t.list

/-- A list put in order by insertion: `before` says which of two elements stands first. -/
def insertBy {α : Type} (before : α → α → Bool) (x : α) : List α → List α
  | [] => [x]
  | y :: r => if before x y then x :: y :: r else y :: insertBy before x r
def sortBy {α : Type} (before : α → α → Bool) (l : List α) : List α := l.foldr (insertBy before) []

end Sys2Proof.Machine
end

