-- ==== Sys2Proof/Machine/MemTypes.lean ====
section
/-! DEFINITION. The state of the memory path: lines, frames, maps, line cache, dirty set, flash medium,
drives, error history, DRAM channels, cipher classes, tenants and regions (chapters Memory Model to Tiers). -/

namespace Sys2Proof.Machine

/-- State of a line of a resident frame, STATE[7:6] of its metadata (R38). -/
inductive LineState | absent | clean | dirty | poison
  deriving DecidableEq, Repr

/-- A line with its metadata entry, as O, L or N holds it (R25, R38, R163). -/
structure Ln where
  /-- STATE[7:6] -/
  st : LineState := .absent
  /-- TAGGED[5] -/
  tagged : Bool := false
  /-- KEY_EPOCH[4:0] -/
  epoch : BitVec 5 := 0
  /-- TAG[63:8] -/
  tag : BitVec 56 := 0
  /-- the 64 data bytes -/
  data : LineData := 0
  deriving DecidableEq, Repr

/-- Where a line of the line cache sits (R93, R94). -/
inductive LcPlace | accept | install | array | evict
  deriving DecidableEq, Repr

/-- A line of the line cache (R92, R94, R219). -/
structure CacheLn where
  ln : Ln
  /-- where in its slice the line sits: write-accept buffer, waiting for a way, array, or eviction buffer (R93, R94) -/
  place : LcPlace := .array
  /-- the way's touch bit -/
  touch : Bool := false
  /-- order stamp of the last use, or of the entry into the buffer -/
  used : Nat := 0
  deriving DecidableEq, Repr

/-- TIER of a frame-map entry (R212). -/
inductive Tier | F | L | N | staged
  deriving DecidableEq, Repr

/-- A frame-map entry (R212). -/
structure FmEntry where
  ew : Bool := false
  tslot : Bool := false
  tslotKnown : Bool := false
  pin : Bool := false
  pend : Bool := false
  cnt : Bool := false
  tier : Tier := .F
  age : Nat := 0
  /-- frame number, loan index or staging entry -/
  loc : Nat := 0
  deriving DecidableEq, Repr

/-- FSTATE of a reverse-map entry (R215). -/
inductive FState | free | inUse | lent
  deriving DecidableEq, Repr

/-- A reverse-map entry (R215); `owned = false` is the unknown owner of R235. -/
structure RmEntry where
  gran : Nat := 0
  tenant : Nat := 0
  pin : Bool := false
  cnt : Bool := false
  fstate : FState := .free
  owned : Bool := true
  deriving DecidableEq, Repr

/-- A loan back-map entry (R216). -/
structure LbmEntry where
  gran : Nat := 0
  member : Nat := 0
  lslot : Nat := 0
  valid : Bool := false
  deriving DecidableEq, Repr

/-- A demotion staging entry: the granule and its 64 lines (R225). -/
structure Staged where
  gran : Nat
  /-- loan index -/
  loan : Nat
  lines : Tab Ln
  /-- the demotion WRITE: association, PSN and loan generation -/
  assoc : Nat
  psn : Nat
  gen : Nat
  deriving DecidableEq, Repr

/-- A counted granule of the dirty set (R52, R196, R203). -/
structure DirtyGran where
  /-- FCLK count of the first dirty line -/
  first : Nat
  /-- FCLK count of the last write -/
  lastWrite : Nat
  /-- a write arrived between snapshot and completion (R28) -/
  redirty : Bool := false
  /-- a destage is in flight -/
  inFlight : Bool := false
  /-- rescue slot reserved: drive slot and slot number -/
  rescue : Option (Nat × Nat) := none
  /-- no rescue slot could be reserved (R203) -/
  stuck : Bool := false
  /-- a line of the granule has become DIRTY since it is counted: before, an admitted write alone counts it (R52) -/
  lines : Bool := false
  deriving DecidableEq, Repr

/-- Step a destage stands at (R198). -/
inductive DestageStep | merge | learn | tags | data | map
  deriving DecidableEq, Repr

/-- A destage in flight (R28, R198). -/
structure Destage where
  step : DestageStep
  /-- the merged lines to be written, by line number -/
  lines : Tab Ln
  /-- the DIRTY lines of the snapshot -/
  snap : List Nat
  /-- snapshotted lines written since -/
  rewritten : List Nat := []
  /-- lines ABSENT at the snapshot -/
  absent : List Nat := []
  /-- drive slot of the data write -/
  drive : Nat
  /-- rescue slot, if the granule goes to one -/
  rescue : Option Nat := none
  /-- tag slot written -/
  slot : Bool := false
  /-- the merge read failed, and the standby's copy is awaited (R201 Case A) -/
  standby : Bool := false
  /-- waits for tokens since this FCLK count, and EV 0x194 has been raised for the wait (R197) -/
  wait : Option Nat := none
  waitTold : Bool := false
  deriving DecidableEq, Repr

/-- One line of a data LBA with its metadata byte (R190). -/
structure FlashLn where
  poison : Bool := false
  tagged : Bool := false
  epoch : BitVec 5 := 0
  data : LineData := 0
  deriving DecidableEq, Repr

/-- A data LBA or rescue slot of namespace 1 with the AUX bits of its metadata (R190). -/
structure FlashGran where
  lines : Tab FlashLn := ⟨[]⟩
  tslot : Bool := false
  rescue : Bool := false
  gran : Nat := 0
  rebuildGen : Nat := 0
  deriving DecidableEq, Repr

/-- A tag slot of namespace 2: the tags by line, and REBUILD_GEN (R190, R207). -/
structure TagSlot where
  tags : Tab (BitVec 56) := ⟨[]⟩
  rebuildGen : Nat := 0
  deriving DecidableEq, Repr

/-- A copy of the image header as a drive holds it (R193). -/
structure ImgHeader where
  /-- bytes 7:0 and 9:8 -/
  magic : Nat := 0x313030474D49584E
  version : Nat := 1
  imageId : Nat := 0
  /-- SHAKE256-256 of the device identity public key: DEVICE_HASH -/
  devHash : Nat := 0
  seq : Nat := 0
  slot : Nat := 0
  n : Nat := 0
  g : Nat := 0
  r : Nat := 0
  clean : Bool := false
  rescueUsed : Bool := false
  poisonOvf : Bool := false
  inService : Nat := 0
  dsc : Nat := 0
  cfgDigest : Nat := 0
  time : Nat := 0
  rebuilding : Nat := 0
  rebuildGen : Nat := 0
  cursor : Nat := 0
  /-- the KMAC256 of the copy -/
  tag : Nat := 0
  /-- written before a device zeroisation: it verifies under no later key (R385) -/
  lost : Bool := false
  deriving DecidableEq, Repr

/-- An entry of the poison index (R122, R499); the key is DPA[45:6]. -/
structure PoisonEntry where
  cls : Nat
  inj : Bool := false
  deriving DecidableEq, Repr

/-- What a drive's medium holds (R190, R191): survives every reset. -/
structure Medium where
  header0 : Option ImgHeader := none
  header1 : Option ImgHeader := none
  /-- the poison-index area -/
  poison : Tab PoisonEntry := ⟨[]⟩
  /-- the ever-written map: set indices -/
  map : Tab Unit := ⟨[]⟩
  /-- data LBAs by index on the home drive -/
  data : Tab FlashGran := ⟨[]⟩
  /-- rescue slots by number -/
  rescue : Tab FlashGran := ⟨[]⟩
  /-- tag slots of namespace 2 by LBA -/
  tags : Tab TagSlot := ⟨[]⟩
  /-- namespace-1 and namespace-2 LBAs the drive offers -/
  cap1 : Nat := 0
  cap2 : Nat := 0
  deriving DecidableEq, Repr

/-- A drive as NVH sees it beside its DRV register (R189, R197). -/
structure Drive where
  /-- tokens of the endurance bucket, in 1/(8,640,000 × 2·10^9) bytes: what one FCLK brings per DWPD_CENTI × byte of
  capacity (R197) -/
  tokens : Nat := 0
  /-- bytes written beyond the budget and not yet counted as a KiB -/
  excess : Nat := 0
  /-- FCLK count of the last refill -/
  refilled : Nat := 0
  /-- rescue slots taken: slot to granule -/
  rescueUsed : Tab Nat := ⟨[]⟩
  /-- a header write waits for tokens (R197) -/
  headerWait : Bool := false
  /-- Flush outstanding -/
  flushing : Bool := false
  flushed : Bool := false
  deriving DecidableEq, Repr

/-- A rebuild in progress (R205, R207). -/
structure Rebuild where
  drive : Nat
  cursor : Nat := 0
  gen : Nat := 0
  /-- indices written directly by destages: the rebuild bitmap -/
  written : Tab Unit := ⟨[]⟩
  /-- it goes on from a header's cursor: each index is read first (R207) -/
  resumed : Bool := false
  /-- granules that the standby has sent and that are not installed above (R203, R205), by granule -/
  fetched : Tab (Tab Ln) := ⟨[]⟩
  deriving DecidableEq, Repr

/-- Class of a fill in the tier-miss queue (R223). -/
inductive FillClass | demand | stitch | background
  deriving DecidableEq, Repr

/-- Where a fill is served from (R26, R41). -/
inductive FillSrc | F | N | standby
  deriving DecidableEq, Repr

/-- Where a request comes from: a host's CXL.mem channel, the mailbox command Clear Poison (R87), or line `idx` of the
COPY `job` (R404). -/
inductive Via | host | mailbox | copy (job idx : Nat)
  deriving DecidableEq, Repr

/-- A request of a host on a line, waiting for its data (R24, R26). -/
structure HostReq where
  head : Nat
  gld : Nat
  tag : Nat
  line : Nat
  /-- `none` for a read; byte enables and data of a partial write -/
  write : Option (BitVec 64 × LineData) := none
  /-- the write carried the poison indication -/
  poisoned : Bool := false
  /-- resets the head had seen at arrival: an older request's completion is dropped (R71 Case A) -/
  epoch : Nat := 0
  via : Via := .host
  /-- idle latency so far in 1/3696 ns, the head's additions included -/
  lat : Nat := 0
  /-- admission has let the request pass (R52, R54) -/
  admitted : Bool := false
  /-- a twin-acked write was admitted in this stay in lockstep (R45); the stays are counted by `Mirror.stay` -/
  stay : Option Nat := none
  /-- its lookup in the line cache has been counted (R96) -/
  looked : Bool := false
  /-- its lookup has missed the metadata cache (R98) -/
  mdMiss : Bool := false
  /-- bit errors with which DRAM returns its frame-map line and its metadata line, where it reads them (R111, R117) -/
  noise : BitVec 640 × BitVec 640 := (0, 0)
  deriving DecidableEq, Repr

/-- What the checks of one cipher job report (R168, R177–R179): the lane that runs it, and whether its two cores disagree; the lane of the
retry, likewise; the Keccak core of a tag, and whether it miscomputes; that of the second computation, likewise; whether the slot's
material no longer gives its check value at delivery. -/
structure Check where
  lane : Nat := 0
  bad : Bool := false
  retry : Nat := 1
  badRetry : Bool := false
  core : Nat := 0
  badTag : Bool := false
  second : Nat := 1
  badSecond : Bool := false
  slotBad : Bool := false
  deriving DecidableEq, Repr

/-- A request in RNT's queue (R175): its class, whether it is sweep work of class SEAL, and its GCM blocks (0 = a line job). -/
structure RntJob where
  cls : Nat
  sweep : Bool
  blocks : Nat
  deriving DecidableEq, Repr

/-- RNT beside its registers (R173–R178). -/
structure Rnt where
  /-- reports of the checks of jobs to come, the model's own; with none the checks agree -/
  checks : List Check := []
  /-- the request queue, oldest first; and requests that wait in their source because their class is full -/
  queue : List RntJob := []
  waiting : List RntJob := []
  /-- busy lanes: class and, in fourteenths of an FCLK, the time until which -/
  lanes : Tab (Nat × Nat) := ⟨[]⟩
  /-- FCLK of the last dispatch, and the dispatches in it; the class whose turn it is in pass 2, and what it has taken -/
  at_ : Nat := 0
  count : Nat := 0
  turn : Nat := 0
  taken : Nat := 0
  /-- FCLK count of the last wait for a full class -/
  fullAt : Option Nat := none
  /-- units sent to a known-answer test: lanes, and 128 + Keccak core -/
  kats : Tab Unit := ⟨[]⟩
  deriving DecidableEq, Repr

/-- A request that waits on the CXL link of its head, whose queue or port's hold queue has no room (R55, R107). -/
structure LinkReq where
  head : Nat
  ld : Nat
  hpa : Nat
  tag : Nat
  write : Option (BitVec 64 × LineData)
  poisoned : Bool
  /-- bit errors of its map and metadata reads, as the request has them -/
  noise : BitVec 640 × BitVec 640
  deriving DecidableEq, Repr

/-- A granule of a Stitcher stream accounted with a fill (R251, R260). -/
structure StiGran where
  engine : Nat
  slot : Nat
  stream : Nat
  dl : Nat
  lt : Nat
  pc : Nat
  ageBias : Nat
  prio : Nat
  issued : Nat
  deriving DecidableEq, Repr

/-- A fill queued or in flight (R223, R224). -/
structure Fill where
  cls : FillClass
  src : FillSrc := .F
  /-- the tenant charged -/
  tenant : Nat
  /-- the frame allocated; `none` while the allocation waits (R222) -/
  frame : Option Nat := none
  /-- requests that joined -/
  waiters : List HostReq := []
  sti : List StiGran := []
  /-- TNOW at which the first host request joined -/
  hostJoin : Option Nat := none
  /-- the data has arrived: the 64 lines -/
  data : Option (Tab Ln) := none
  /-- loan index an N fill reads, and the FCLK count at which its READ left -/
  loan : Option Nat := none
  readAt : Nat := 0
  /-- a standby fetch waits for this PSN of the granule's lane (R315) -/
  after : Option Nat := none
  /-- order of queueing -/
  order : Nat := 0
  /-- the granule of a lost channel's frame comes from the standby: its lines become DIRTY in every state (R236 Case B) -/
  settle : Bool := false
  deriving DecidableEq, Repr

/-- Why a write waits in its port's admission hold queue (R46, R54, R59, R199, R203). -/
inductive HoldReason | budget | lag | learning | rescue | flush
  deriving DecidableEq, Repr

/-- A held write (R55). -/
structure Held where
  req : HostReq
  reason : HoldReason
  deriving DecidableEq, Repr

/-- What a DRAM read is for. -/
inductive ReadFor
  | host (r : HostReq)
  | background
  deriving DecidableEq, Repr

/-- How a page stood when a DRAM read's first command was issued (R98). -/
inductive PageState | hit | closed | conflict
  deriving DecidableEq, Repr

/-- A read queued in a channel front end, or on its way back (R140). -/
structure DramRead where
  chan : Nat
  line : Nat
  fn : Nat
  /-- line number inside the channel -/
  cl : Nat
  /-- class: 2 demand, 3 background -/
  cls : Nat := 2
  /-- FCLK count of the arrival, and its place in the order of arrivals -/
  arrived : Nat
  seq : Nat
  promoted : Bool := false
  /-- the line as its frame held it when the read was queued (R233) -/
  ln : Ln := {}
  /-- time of its column command in 1/3696 ns; `none` = it waits in the front end -/
  issued : Option Nat := none
  /-- its data comes from the write queue (R142) -/
  fwd : Bool := false
  /-- a write to its line has entered the write queue since the read was issued (R120) -/
  overtaken : Bool := false
  /-- how it met its page (R98) -/
  page : PageState := .hit
  /-- the channel line of the metadata that is fetched behind it, and whether it met an open row (R98) -/
  md : Option Nat := none
  mdOpen : Bool := false
  what : ReadFor
  deriving DecidableEq, Repr

/-- A line write queued in a channel front end, by channel line (R140–R142). Its data stands in the frames already, as every read of the
line meets it there. -/
structure DramWrite where
  arrived : Nat
  seq : Nat
  promoted : Bool := false
  deriving DecidableEq, Repr

/-- A request that has waited AGE_MAX at channel `n` (R140): read number `no`, or the write of channel line `cl`. -/
inductive AgedReq | read (n no : Nat) | write (n cl : Nat)
  deriving DecidableEq, Repr

/-- A DDR5 command as the replay log keeps it (R154). -/
inductive DramCmd | precharge | activate | read (no : Option Nat) | write
  deriving DecidableEq, Repr

/-- An entry of the replay log: time in 1/3696 ns, command, channel line. -/
structure CmdLog where
  time : Nat
  cmd : DramCmd
  cl : Nat
  deriving DecidableEq, Repr

/-- An error-history entry (R113, R123). -/
structure HistEntry where
  device : Nat
  syndrome : BitVec 32
  inj : Bool := false
  real : Bool := false
  hits : Nat := 0
  /-- order stamp of the last hit -/
  used : Nat := 0
  /-- the injected mask of the codeword -/
  mask : BitVec 160 := 0
  deriving DecidableEq, Repr

/-- A DIMM as its SPD describes it (R132): 1 RDIMM, 2 MRDIMM; ×4 with ECC; device density in Gb; not stacked; ranks; whether it answers;
and its timings in ps, in the order of *Default DRAM timings*: CL, tRCD, tRP, tRAS, tWR, tRFC1, tRFCsb. -/
structure Dimm where
  kind : Nat
  x4 : Bool := true
  density : Nat := 32
  mono : Bool := true
  ranks : Nat := 1
  answers : Bool := true
  spd : List Nat := []
  deriving DecidableEq, Repr

/-- What the training steps of one rank bring back (R149): for T2 the tap chosen; for T3 the gate and for T5 the levelled point of each of
the 20 DQS groups; for T4 and T6 the sweep of each of the 80 lanes, by Vref point the set of passing taps (bit k = k − 64 taps from the
gate or levelled point); for T7 the first lane that fails. `none` = the step found nothing that works. -/
structure TrainRank where
  t2 : Option Nat := none
  t3 : List (Option Nat) := []
  t4 : List (List (Nat × Nat)) := []
  t5 : List (Option Nat) := []
  t6 : List (List (Nat × Nat)) := []
  t7 : Option Nat := none
  deriving DecidableEq, Repr

/-- One DRAM channel beside its registers (R113–R120, R140–R157). -/
structure Channel where
  /-- error history by codeword address (line address * 4 + codeword) -/
  hist : Tab HistEntry := ⟨[]⟩
  /-- device counters by pair * 10 + device, and those whose threshold has been acted on: 1 = Case C, 2 = Case A or B (R114) -/
  devCtr : Tab Nat := ⟨[]⟩
  devTold : Tab Nat := ⟨[]⟩
  /-- FCLK count of the last leak -/
  leaked : Nat := 0
  /-- next line patrol reads, and FCLK count of the pass's start -/
  patrol : Nat := 0
  passStart : Nat := 0
  /-- INTERVAL_H as the pass in progress follows it: what stood in the register when the pass began (R31); 0 = no pass has begun -/
  interval : Nat := 0
  /-- the last patrol pass has completed without the poison index having become full during it (R122) -/
  cleanPass : Bool := false
  /-- the index has become full during the pass in progress -/
  passFull : Bool := false
  /-- the patrol read waiting has been promoted (R119) -/
  patrolPromoted : Bool := false
  /-- patrol reads queued by demand scrub (R120): channel line, and FCLK count since which it waits -/
  extra : List (Nat × Nat) := []
  /-- the write queue, by channel line, and whether it is being drained (R140–R142) -/
  writes : Tab DramWrite := ⟨[]⟩
  draining : Bool := false
  /-- by subchannel: the time, in 1/3696 ns, from which it can take a further command (R140) -/
  slot : Tab Nat := ⟨[]⟩
  /-- open rows by bank key (R143), and the time of the last access to each bank -/
  openRows : Tab Nat := ⟨[]⟩
  accessed : Tab Nat := ⟨[]⟩
  /-- times of a rank's activations, newest first (R157) -/
  acts : Tab (List Nat) := ⟨[]⟩
  /-- time until which a rank, or (4 + rank * 4 + bank index) a bank of all its groups, is being refreshed or calibrated (R144, R151) -/
  busy : Tab Nat := ⟨[]⟩
  /-- commands sent on a subchannel in the last 64 DCLK, newest first (R154) -/
  cmdLog : Tab (List CmdLog) := ⟨[]⟩
  /-- pairs in precharge power-down (R147) -/
  powerDown : Tab Unit := ⟨[]⟩
  /-- refreshes postponed per rank, their bank indices, oldest first; and the time of the rank's next refresh (R144, R145) -/
  postponed : Tab (List Nat) := ⟨[]⟩
  refreshAt : Tab Nat := ⟨[]⟩
  /-- the refresh interval is halved, and the polls since without cause (R146) -/
  halved : Bool := false
  quietPolls : Nat := 0
  /-- consecutive failed sensor reads per slot (R157) -/
  sensorFail : Tab Nat := ⟨[]⟩
  /-- a DIMM is treated as at TS_CRIT because its sensor is unreadable -/
  critBySensor : Bool := false
  /-- cumulative drift per rank in taps (R151), and drift waiting for the rank's refresh -/
  drift : Tab Int := ⟨[]⟩
  driftPending : Tab Int := ⟨[]⟩
  /-- trained delays: by rank * 128 + lane, read + 2^16 * write; by rank * 32 + group, gate, read Vref and write Vref
  (R149–R153) -/
  lanes : Tab Nat := ⟨[]⟩
  groups : Tab (Nat × Nat × Nat) := ⟨[]⟩
  /-- T1's tap by pin (in fixed-delay mode pin 0 takes CS_DLY, pin 1 CA_DLY), T2's by rank, and T5's levelled point by
  rank * 32 + group (R149, R152) -/
  pins : Tab Nat := ⟨[]⟩
  rankCa : Tab Nat := ⟨[]⟩
  levels : Tab Nat := ⟨[]⟩
  /-- timing registers that firmware has written: 0 TIM0, 1 TIM1, 2 TREFI; the others follow RATE and D64 (R139, R158) -/
  timWritten : Tab Unit := ⟨[]⟩
  /-- FCLK count at which the fill began (R127) -/
  fillFrom : Nat := 0
  /-- subchannels in parity retry, with the commands being replayed, oldest first, and how many they are (R154) -/
  retry : Tab (List CmdLog × Nat) := ⟨[]⟩
  /-- sideband bus switched to I3C -/
  i3c : Bool := false
  deriving DecidableEq, Repr

/-- A region of the region table (R34). -/
structure Region where
  base : Nat
  size : Nat
  tenant : Nat
  /-- key slot; `none` = PLAINTEXT -/
  slot : Option Nat
  twin : Bool
  mirror : Bool
  policy : Nat
  gen : Nat
  draining : Bool := false
  home : Bool := true
  /-- attached global LDs -/
  attached : List Nat := []
  /-- attachments made through a share grant: GLD and tenant -/
  viaShare : List (Nat × Nat) := []
  deriving DecidableEq, Repr

/-- A share grant: tenant and whether it may write (R375). -/
structure Share where
  tenant : Nat
  write : Bool
  deriving DecidableEq, Repr

/-- Quotas and counts of one tenant (R228). -/
structure TenantQuota where
  lQuota : Nat := 0
  lMax : Nat := 0x7FFFFFFF
  nQuota : Nat := 0
  pinQuota : Nat := 0
  /-- TEN_EVICT with its sticky bit -/
  evict : Nat := 0
  evictSat : Bool := false
  deriving DecidableEq, Repr

/-- A running rekey sweep (R171). -/
structure Sweep where
  slot : Nat
  /-- granules still to visit -/
  next : Nat
  visited : Nat := 0
  deriving DecidableEq, Repr

end Sys2Proof.Machine
end

