-- ==== Sys2Proof/Machine/LinkTypes.lean ====
section
/-! DEFINITION. The state of the host ports, the Stitcher engines, the Twinset transport, mirroring and
leases, and the Round (chapters CXL Host Ports, Stitcher, Twinset, Mirroring, Round). -/

namespace Sys2Proof.Machine

/-- Issuer of a ring command: function (GLD 0–63, 64 management), local ring, TAG, FLAGS.IRQ. -/
structure Issuer where
  func : Nat
  ring : Nat
  tag : Nat
  irq : Bool := false
  deriving DecidableEq, Repr

/-- An HDM decoder of an LD (R73). -/
structure Decoder where
  hpaBase : Nat := 0
  size : Nat := 0
  skip : Nat := 0
  ways : Nat := 1
  /-- interleave granularity in bytes -/
  gran : Nat := 256
  lock : Bool := false
  committed : Bool := false
  error : Bool := false
  /-- DPA at which the decoder's range starts -/
  dpaBase : Nat := 0
  deriving DecidableEq, Repr

/-- Kind of a record in an LD's event logs (R79, R80, R87, R88). -/
inductive LdRecordKind
  | addCapacity (sharable : Bool)
  | releaseCapacity
  | forcedRelease
  | injectPoison
  deriving DecidableEq, Repr

/-- A record of an LD's event logs: what it reports and the region or line concerned. -/
structure LdRecord where
  kind : LdRecordKind
  region : Nat
  gen : Nat
  tenant : Nat
  dpa : Nat
  len : Nat
  deriving DecidableEq, Repr

/-- Who waits for the end of an offer or a release (R79, R80). -/
inductive DcIssuer
  | ring (i : Issuer)
  | fm
  | revoke
  | none
  deriving DecidableEq, Repr

/-- An open offer of a region to an LD (R79); the key of its table is the region number. -/
structure Offer where
  gen : Nat
  opened : Nat
  issuer : DcIssuer
  deriving DecidableEq, Repr

/-- A pending release request (R80 Cases B and D). -/
structure PendingRelease where
  gen : Nat
  opened : Nat
  /-- removal is forced at the end of the wait -/
  forced : Bool
  /-- Case D: the attachment has already ended -/
  lost : Bool := false
  issuer : DcIssuer := .none
  deriving DecidableEq, Repr

/-- A logical device (R66, R68, R73–R88). -/
structure Ld where
  /-- decoders by index 0–7 -/
  decoders : Tab Decoder := ⟨[]⟩
  /-- the event records, oldest first -/
  events : List LdRecord := []
  /-- event interrupt policy bytes -/
  policy : Nat := 0
  shutdownState : Nat := 0
  /-- DC extent list: region number to generation (R77) -/
  extents : Tab Nat := ⟨[]⟩
  offers : Tab Offer := ⟨[]⟩
  releases : Tab PendingRelease := ⟨[]⟩
  /-- share and cap of head bandwidth, in 1/256 (R88) -/
  qosAlloc : Nat := 0
  qosLimit : Nat := 0
  deriving DecidableEq, Repr

/-- A DOE instance (R86): the words of the object being written, those of the answer not yet read, and its error bit. -/
structure Doe where
  req : List Nat := []
  rsp : List Nat := []
  err : Bool := false
  deriving DecidableEq, Repr

/-- A structure of a CDAT (R84): the memory of a DC region with its NonVolatile flag; its EFI memory type, Specific Purpose; and a figure
of its latency or bandwidth, by kind: 0 access, 1 read and 2 write latency, 4 read and 5 write bandwidth. -/
inductive CdatEntry
  | dsmas (handle : Nat) (nonVolatile : Bool) (base len : Nat)
  | dsemts (handle base len : Nat)
  | dslbis (handle kind value : Nat)
  deriving DecidableEq, Repr

/-- State of an IDE key set of a head (R82). -/
structure KeySet where
  rx : Bool := false
  tx : Bool := false
  deriving DecidableEq, Repr

/-- A head beside its LINK_STS register (R65–R83). -/
structure Head where
  /-- key sets 0 and 1 as programmed -/
  set0 : KeySet := {}
  set1 : KeySet := {}
  current : Nat := 0
  /-- MAC epoch length the host has set, 1–5 flits -/
  epochLen : Nat := 1
  /-- the head stays in Detect until the device restarts (R72) -/
  detect : Bool := false
  /-- rate and width last trained -/
  rate : Nat := 0
  width : Nat := 0
  /-- containment mode and epoch length of the stream as the CDAT last counted them; `none` = IDE off (R84) -/
  cdatIde : Option (Bool × Nat) := none
  /-- AER has logged a Poisoned TLP Received (R76) -/
  aerPoisoned : Bool := false
  /-- head resets and link losses so far: completions of requests admitted before the last are dropped (R71 Case A) -/
  resets : Nat := 0
  deriving DecidableEq, Repr

/-- A Stitcher stream (R250). -/
structure Stream where
  id : Nat
  /-- `none` = FETCH; a HINT's ACT -/
  act : Option Nat
  urg : Bool
  pin : Bool
  ageBias : Nat
  region : Nat
  gen : Nat
  next : Nat
  stop : Nat
  lt : Nat
  dl : Nat
  pc : Nat
  /-- granule refused by a full queue, and the FCLK count of its reissue (R252) -/
  retry : Option (Nat × Nat) := none
  deriving DecidableEq, Repr

/-- An address watch (R257). -/
structure Watch where
  region : Nat
  gen : Nat
  first : Nat
  stop : Nat
  armed : Bool
  fired : Bool
  /-- FCLK count of the admission that fired it -/
  at_ : Nat := 0
  deriving DecidableEq, Repr

/-- A Stitcher engine beside its registers (R240). -/
structure Engine where
  pattern : Tab (BitVec 64) := ⟨[]⟩
  /-- general registers G0–G7 -/
  g : Tab (BitVec 64) := ⟨[]⟩
  fifo : List Nat := []
  watches : Tab Watch := ⟨[]⟩
  streams : Tab Stream := ⟨[]⟩
  /-- generations captured since PATTERN_START, by region (R250) -/
  gens : Tab Nat := ⟨[]⟩
  /-- TNOW at which the waiting stitch started, and its timeout -/
  waitFrom : Nat := 0
  waitTimeout : Nat := 0
  waitMask : Nat := 0
  waitReg : Nat := 0
  waitTarget : Nat := 0
  /-- the loading LD's binding is set -/
  bound : Bool := false
  /-- kinds of deadline miss already recorded, by stream: LATE 1, DEMAND 2, ISSUE 4 -/
  missed : Tab Nat := ⟨[]⟩
  /-- streams created so far: the number the next one takes -/
  made : Nat := 0
  /-- FCLK counts from which the next stitch and the next granule of a stream may issue (R247, R251) -/
  ready : Nat := 0
  issueAt : Nat := 0
  deriving DecidableEq, Repr

/-- One record of a replay lane (R270, R306). -/
structure MirRecord where
  line : Nat
  gen : Nat
  ln : Ln
  /-- a host's completion waits for its acknowledgement (R44) -/
  waiter : Option HostReq := none
  deriving DecidableEq, Repr

/-- The material of one epoch of a memory slot (R167, R376). -/
structure KeyMat where
  k1 : BitVec 256
  k2 : BitVec 256
  ktag : BitVec 256
  deriving DecidableEq, Repr

/-- What a signed operation asks for (R373): the body after the signed header. -/
inductive SignedBody
  | takeOwnership (key : Nat)
  | transfer (key : Nat)
  | tenantEnrol (tenant key : Nat)
  | tenantBind (tenant : Nat) (glds : List Nat)
  | tenantUnbind (tenant : Nat) (glds : List Nat)
  | tenantRemove (tenant : Nat)
  | regionShare (region gen tenant access : Nat)
  | keyInstall (slot : Nat) (epoch : BitVec 5) (mat : Option KeyMat) (prev : Option KeyMat)
  | keyRotate (slot : Nat) (epoch : BitVec 5) (mat : Option KeyMat)
  | keyRemove (slot : Nat)
  | zeroise (scope slot tenant : Nat)
  | secretInstall (slot : Nat) (secret : Option (BitVec 256))
  | refereeSet (host : Bool) (member : Nat) (key : Option (BitVec 256))
  | fwActivate (target : Nat)
  | logClear
  | debugUnlock (challenge level : Nat)
  deriving DecidableEq, Repr

/-- A state-changing command as forwarded (R307, R308). -/
inductive FwdCmd
  | regionCreate (region : Nat) (r : Region) (fingerprint : BitVec 64)
  | regionDestroy (region gen : Nat)
  | regionAttach (region gen gld : Nat)
  | regionRevoke (region gen : Nat) (gld : Option Nat)
  | signed (cred seq : Nat) (hash8 : BitVec 64) (body : SignedBody)
  | keyRotate (slot epoch : Nat) (fingerprint : BitVec 64)
  | sweepDone (slot epoch : Nat)
  deriving DecidableEq, Repr

/-- Lease message of CTRL class 1 (R319). -/
structure LeaseMsg where
  subtype : Nat
  epoch : Nat
  rseq : Nat
  pairId : Nat
  stbyOk : Bool := false
  running : Bool := false
  clean : Bool := false
  force : Bool := false
  drained : Bool := false
  reason : Nat := 0
  holder : Nat := 0
  deriving DecidableEq, Repr

/-- A pair entry of the token (R339). -/
structure PairEntry where
  pairId : Nat
  member : Nat
  epoch : Nat
  deriving DecidableEq, Repr

/-- The membership token (R339). -/
structure Token where
  epoch : Nat
  seq : Nat
  origin : Nat
  minVer : Nat
  hops : Nat := 0
  members : Nat
  add : Nat := 0
  remove : Nat := 0
  digest : Nat
  refTime : Nat := 0
  refStamped : Bool := false
  pairs : Tab PairEntry := ⟨[]⟩
  deriving DecidableEq, Repr

/-- A JOIN of a candidate (R345). -/
structure JoinMsg where
  member : Nat
  version : Nat
  digest : Nat
  time : Nat
  pairId : Nat
  role : Nat
  leaseEpoch : Nat
  onewayPred : Nat
  onewaySucc : Nat
  deriving DecidableEq, Repr

/-- A loan message of CTRL class 3 (R350). -/
structure LoanMsg where
  subtype : Nat
  reason : Nat := 0
  loan : Nat := 0
  gen : Nat := 0
  avail : Nat := 0
  rseq : Nat := 0
  deriving DecidableEq, Repr

/-- A region-table entry of a TABLE message (R332). -/
structure TableEntry where
  region : Nat
  r : Region
  epoch : Nat
  fingerprint : BitVec 64
  deriving DecidableEq, Repr

/-- What a Twinset packet carries after its base header (R268–R272, R279, R290). -/
inductive Payload
  | hello (nonce idHash : Nat) (secret aepoch mac : Nat)
  | helloRsp (nonce idHash : Nat) (secret aepoch mac : Nat)
  | open (cid : Nat) (relaxed : Bool) (purpose window lane prio psn : Nat)
  | openRsp (cid : Nat) (relaxed : Bool) (purpose window lane prio psn status : Nat)
  | close (cid : Nat)
  | keepalive
  | rekey (nonce : Nat)
  | laneRec (lane : Nat) (recs : List MirRecord)
  | cmdFwd (frag : Nat) (last : Bool) (cmd : FwdCmd)
  | fence
  | read (loan : Bool) (target gen : Nat) (granule : Bool) (count addr tag : Nat)
  | readResp (loan : Bool) (target gen : Nat) (granule : Bool) (count addr tag : Nat) (duplicate : Bool) (poison valid service tgtGen : Nat)
      (lines : Tab Ln)
  | write (loan : Bool) (target gen : Nat) (granule : Bool) (count addr tag : Nat) (lines : Tab Ln)
  | ack (psn sack ceCnt pktCnt tsEcho : Nat)
  | nak (psn code rnrUs target gen tsEcho : Nat)
  | lease (m : LeaseMsg)
  | table (entries : List TableEntry) (last joined : Bool)
  | divrun (runs : List (Nat × Nat)) (last : Bool)
  | keyWait (region : Nat)
  | loanMsg (m : LoanMsg)
  | token (t : Token)
  | join (j : JoinMsg)
  | joinRsp (member reason : Nat)
  deriving DecidableEq, Repr

/-- The READ that a READ_RESP answers, as it repeats it (R270). -/
structure ReadAsk where
  loan : Bool
  target : Nat
  gen : Nat
  granule : Bool
  count : Nat
  addr : Nat
  tag : Nat
  deriving DecidableEq, Repr

/-- The READ_RESP to a READ: `served` is its SERVICE_NS and its target's generation (R270). -/
def ReadAsk.answer (a : ReadAsk) (duplicate : Bool) (poison valid : Nat) (served : Nat × Nat) (lines : Tab Ln) : Payload :=
  .readResp a.loan a.target a.gen a.granule a.count a.addr a.tag duplicate poison valid served.1 served.2 lines

/-- Flags of a packet's base header (R268). -/
structure TxFlags where
  ar : Bool := false
  fence : Bool := false
  retx : Bool := false
  deriving DecidableEq, Repr

/-- Base header of a packet sent (R268) with its port and priority class, and the frame's bytes on the wire from the Ethernet header to the
ICV. -/
structure TxHdr where
  flags : TxFlags
  kph : Bool
  txSeq : Nat
  una : Nat
  port : Nat
  prio : Nat
  dstCid : Nat
  ts : Nat
  src : Nat
  dst : Nat
  aepoch : Nat
  frame : List Nat
  deriving DecidableEq, Repr

/-- What a received frame is (R266): a Twinset packet, one of the kinds that the device does not run, or none of these. -/
inductive FrameKind
  | twinset
  | arp
  | ndp
  | macsec
  | fragment
  | ipv4Options
  | ipv6Extension
  | other
  deriving DecidableEq, Repr

/-- A received frame's base header (R268) with what its receipt shows beside it: the port, the receive buffer's fill and the
share of the packet's priority in KiB (R298, R300), its kind and its checksum (R266, R267), its ICV, and what the checks of R271 find. -/
structure RxHdr where
  /-- SRC_MEMBER -/
  src : Nat
  /-- DST_CID -/
  cid : Nat
  /-- SRC_CID and DST_MEMBER -/
  srcCid : Nat := 0
  dst : Nat := 0
  psn : Nat
  una : Nat
  /-- TS: the sender's transmit time in ns -/
  ts : Nat
  txSeq : Nat
  kph : Bool := false
  aepoch : Nat
  ar : Bool := false
  fence : Bool := false
  retx : Bool := false
  port : Nat := 0
  /-- 802.1Q priority -/
  pcp : Nat := 0
  /-- IP ECN = CE -/
  ce : Bool := false
  buffer : Nat := 0
  share : Nat := 0
  /-- for a token: one-way times of the hops since its time stamp, in ns (R344) -/
  hopNs : Nat := 0
  /-- the 16 bytes of the ICV, the first one lowest; what the lanes' checks report on opening the packet -/
  icv : Nat := 0
  checks : List Check := []
  kind : FrameKind := .twinset
  /-- the UDP checksum is right; `none` = it is zero -/
  udpSum : Option Bool := some true
  /-- a reserved bit is set, or the operation header contradicts LEN (R271) -/
  badOp : Bool := false
  deriving DecidableEq, Repr

/-- A packet whose priority is paused (R300). -/
structure TxHeld where
  assoc : Nat
  cid : Nat
  psn : Nat
  payload : Payload
  flags : TxFlags
  prio : Nat
  /-- DST_CID where no connection of this end gives it -/
  reply : Option Nat := none
  deriving DecidableEq, Repr

/-- A request sent on a connection and not resolved (R283, R291). -/
structure Sent where
  payload : Payload
  fence : Bool := false
  ar : Bool := false
  /-- FCLK count of the last transmission -/
  at_ : Nat
  timeouts : Nat := 0
  /-- marked in a SACK -/
  sacked : Bool := false
  /-- answered RNR: FCLK count after which it is sent again -/
  rnr : Option Nat := none
  /-- waits for the window, the OPEN_RSP or a refill: not yet transmitted -/
  unsent : Bool := false
  deriving DecidableEq, Repr

/-- A connection's context (R278–R280, R284, R288, R297). -/
structure Conn where
  peerCid : Nat := 0
  relaxed : Bool := false
  purpose : Nat := 0
  window : Nat := 64
  lane : Nat := 0
  prio : Nat := 0
  /-- 1 OPEN, 2 ERROR, 3 CLOSING; 0 = waiting for OPEN_RSP -/
  state : Nat := 1
  /-- this end opened it and waits for OPEN_RSP -/
  opening : Bool := false
  /-- context number (R280) -/
  context : Nat := 0
  /-- the context is on chip -/
  cached : Bool := true
  /-- order stamp of the last use -/
  used : Nat := 0
  /-- sender's space -/
  nextPsn : Nat := 0
  una : Nat := 0
  sent : Tab Sent := ⟨[]⟩
  /-- receiver's space; `expOpen`: the initial PSN is not known yet (CID 0) -/
  exp : Nat := 0
  expOpen : Bool := false
  executed : Tab Unit := ⟨[]⟩
  /-- a SEQ_ERR was sent for this EXP_PSN (R284 Case A) -/
  seqErr : Option Nat := none
  /-- refusal list: PSN to code (R288) -/
  refusals : Tab Nat := ⟨[]⟩
  /-- packets held behind a FENCE (R292), by PSN -/
  fenceHeld : Tab (RxHdr × Payload) := ⟨[]⟩
  /-- executed requests whose answer is not due yet: no ACK covers them -/
  deferred : Tab Unit := ⟨[]⟩
  /-- executions since the last ACK, and FCLK count of the first -/
  unacked : Nat := 0
  unackedSince : Nat := 0
  ceCnt : Nat := 0
  pktCnt : Nat := 0
  lastTs : Nat := 0
  /-- a refill is in flight, with its waiting packets, oldest first -/
  refill : Bool := false
  refillAt : Nat := 0
  refillHeld : List (RxHdr × Payload) := []
  /-- rate state of R299: R_C and R_T in Mb/s, alpha in 1/65,536 -/
  rc : Nat := 0
  rt : Nat := 0
  alpha : Nat := 65536
  tDec : Nat := 0
  steps : Nat := 0
  /-- FCLK count of the last decrease or recovery step -/
  stepAt : Nat := 0
  /-- FCLK count since which the connection is at R_MIN -/
  minSince : Option Nat := none
  /-- command fragments held in order (R272) -/
  frags : Nat := 0
  deriving DecidableEq, Repr

/-- An association beside its PA registers (R274–R277). -/
structure Assoc where
  member : Nat := 0
  secret : Bool := false
  portMask : Nat := 15
  /-- PA_CFG.OPEN and REKEY as set (R10) -/
  openSet : Bool := false
  rekeySet : Bool := false
  mac : Nat := 0
  ip : Nat := 0
  /-- 0 DOWN, 1 HELLO, 2 UP, 3 REKEY -/
  state : Nat := 0
  kph : Bool := false
  aepoch : Nat := 0
  /-- stored epoch for the peer -/
  storedEpoch : Nat := 0
  /-- keys installed per phase -/
  phase0 : Bool := false
  phase1 : Bool := false
  /-- this end sent the HELLO; the secret that the keys in use come from is the Round's (R274, R276) -/
  initiator : Bool := false
  byRound : Bool := false
  /-- own nonce of the HELLO or REKEY sent -/
  nonce : Option Nat := none
  rekeySent : Option Nat := none
  rekeyGot : Option Nat := none
  /-- FCLK count since which the old phase retires -/
  retire : Option Nat := none
  lastRx : Nat := 0
  lastTx : Nat := 0
  /-- next TXSEQ of the transmit key; by phase, the highest TXSEQ verified; seen TXSEQs as TXSEQ * 2 + phase -/
  txSeq : Nat := 0
  rxHigh : Tab Nat := ⟨[]⟩
  rxSeen : Tab Unit := ⟨[]⟩
  conns : Tab Conn := ⟨[]⟩
  /-- one-way time to the peer in ns, smoothed (R345); and the largest sample of the running 1 ms window (R354) -/
  oneway : Option Nat := none
  worst : Option Nat := none
  deriving DecidableEq, Repr

/-- A replay lane of the active (R310–R314). -/
structure Lane where
  /-- records built and not yet packed -/
  queue : List MirRecord := []
  /-- records sent, by PSN -/
  pending : Tab (List MirRecord) := ⟨[]⟩
  /-- FCLK count of the last advance of acknowledgement -/
  advanced : Nat := 0
  /-- records of packets that the standby refused -/
  refused : List MirRecord := []
  deriving DecidableEq, Repr

/-- What waits for a FENCE on all 16 lanes, or for acknowledgements (R311, R313). -/
inductive FenceFor
  | persist (i : Issuer)
  | gpf (head : Nat)
  | command (cmd : FwdCmd)
  deriving DecidableEq, Repr

/-- A fence over the lanes: lanes still to acknowledge, as PSN by lane. -/
structure LaneFence where
  what : FenceFor
  waiting : Tab Nat
  deriving DecidableEq, Repr

/-- A forwarded command waiting for its acknowledgement (R309). -/
structure FwdWait where
  cmd : FwdCmd
  /-- the issuer's ring, if a ring command waits, and the results of its success -/
  issuer : Option Issuer
  result0 : Nat := 0
  result1 : Nat := 0
  /-- the SPDM instance whose signed operation waits instead -/
  spdm : Option Nat := none
  deriving DecidableEq, Repr

/-- A READ of the twin that waits for a fill: where it came from, its MEX and the DPA line (R293, R315). -/
structure TwinRead where
  assoc : Nat
  cid : Nat
  psn : Nat
  region : Nat
  granule : Bool
  count : Nat
  line : Nat
  tag : Nat
  gen : Nat
  /-- FCLK count of its receipt -/
  at_ : Nat
  deriving DecidableEq, Repr

/-- A PERSIST_FENCE that waits for the local condition: issuer, whether the pair was in lockstep at admission, whether a mirrored
region is in its scope, and the writes admitted before that LC has not accepted (R47). -/
structure PersistWait where
  issuer : Issuer
  /-- the stay in lockstep in which it was admitted (R47) -/
  stay : Option Nat
  mirrored : Bool
  writes : List HostReq
  /-- regions in scope on which a command was still in progress -/
  regions : List Nat := []
  deriving DecidableEq, Repr

/-- Lease and mirror state beside the MIR registers (R303–R333). -/
structure Mirror where
  lanes : Tab Lane := ⟨[]⟩
  /-- the model's own count of the changes of role and pair state: it names a stay in lockstep (R45, R47) -/
  stay : Nat := 0
  fences : List LaneFence := []
  fwd : Tab FwdWait := ⟨[]⟩
  /-- commands that wait for their fences, in order -/
  fwdQueue : List FwdWait := []
  /-- lease end, in OCLK counts; `none` when no lease is held -/
  leaseEnd : Option Nat := none
  /-- lease requests sent and not answered, newest first, at most 64: OCLK send time and message -/
  requests : List (Nat × LeaseMsg) := []
  rseq : Nat := 0
  /-- OCLK time of the last RENEW or ACQUIRE -/
  lastRenew : Nat := 0
  /-- OCLK time of the last self-fence, and whether DRAIN runs -/
  fencedAt : Nat := 0
  draining : Bool := false
  /-- divergence bits: granules -/
  div : Tab Unit := ⟨[]⟩
  /-- restore took Case A -/
  clean : Bool := false
  /-- SWITCHOVER in progress, with its issuer -/
  switchover : Option Issuer := none
  /-- MIRROR_CTL DETACH, and LEASE_CTL FORCE_ACQUIRE, in progress -/
  detachIssuer : Option Issuer := none
  forceIssuer : Option Issuer := none
  /-- resync progress: 0 none, 1 table, 2 divergence, 3 copy, 4 join -/
  resyncStep : Nat := 0
  copied : Nat := 0
  total : Nat := 0
  /-- FCLK count from which the next copy may leave: RESYNC.RATE per ms -/
  copyAt : Nat := 0
  /-- TABLE messages not yet acknowledged, by PSN; joining side: regions the active has listed so far -/
  tables : Tab Unit := ⟨[]⟩
  listed : List Nat := []
  /-- copies wait for a key (R333) -/
  keyWait : Bool := false
  /-- records were discarded at DRAIN since the device fenced (R323) -/
  discarded : Bool := false
  /-- granules copied and not yet acknowledged: PSN to granule -/
  copies : Tab Nat := ⟨[]⟩
  /-- READs of the twin that wait for a fill (R315) -/
  serving : List TwinRead := []
  /-- GPF requests in phase 1: head, and the writes admitted before that LC has not accepted (R48) -/
  gpf : List (Nat × List HostReq) := []
  /-- PERSIST_FENCEs that wait (R47) -/
  persist : List PersistWait := []
  /-- lease messages for a host referee (R406) -/
  toHostRef : List LeaseMsg := []
  hostRefSeq : Nat := 0
  /-- smoothed twin round trip in ns (R85) -/
  rtt : Option Nat := none
  deriving DecidableEq, Repr

/-- A record of the referee state log (R322); survives every reset. -/
structure RefLog where
  slot : Nat
  pairId : Nat
  epoch : Nat
  holder : Nat
  stbyOk : Bool
  seq : Nat
  /-- its KMAC256 under internal slot 1 -/
  tag : Nat := 0
  deriving DecidableEq, Repr

/-- A refereed pair (R321, R322); times in OCLK counts of this device. -/
structure RefPair where
  pairId : Nat := 0
  memberA : Nat := 0
  memberB : Nat := 0
  en : Bool := false
  epoch : Nat := 0
  /-- 0 = A, 1 = B -/
  holder : Nat := 0
  stbyOk : Bool := false
  end_ : Nat := 0
  /-- held ACQUIREs: member and message -/
  held : List (Nat × LeaseMsg) := []
  /-- state-log records being programmed, oldest first, with the answers that each covers: member and message -/
  waiting : List (RefLog × List (Nat × LeaseMsg)) := []
  deriving DecidableEq, Repr

/-- An entry of the lend table (R348). -/
structure Lend where
  gen : Nat := 0
  /-- member it is lent to; `none` = FREE -/
  member : Option Nat := none
  /-- first frame of the run -/
  frame : Nat := 0
  /-- grant order -/
  order : Nat := 0
  deriving DecidableEq, Repr

/-- An entry of the borrow table (R348); the key is member * 1024 + entry. -/
structure Borrow where
  loan : Nat
  gen : Nat
  /-- FCLK count since which every slot is free -/
  idleSince : Option Nat
  deriving DecidableEq, Repr

/-- Round state beside the RND registers (R336–R355). -/
structure Round where
  /-- last token accepted -/
  last : Option Token := none
  lastAt : Nat := 0
  /-- a change proposed for the next token -/
  add : Nat := 0
  remove : Nat := 0
  minVer : Nat := 1
  /-- the token sent on and not yet acknowledged: member, association, PSN, token and FCLK count (R340) -/
  forwarded : Option (Nat × Nat × Nat × Token × Nat) := none
  /-- leader: FCLK count at which the token left, last eight circuits, cast-ons stopped, circuits within budget in a row -/
  sentAt : Option Nat := none
  circuits : List Nat := []
  stopped : Bool := false
  goodCircuits : Nat := 0
  seq : Nat := 0
  /-- configuration: permitted members, and their identity hashes -/
  permitted : Nat := 0
  idHashes : Tab Nat := ⟨[]⟩
  digest : Nat := 0
  lend : Tab Lend := ⟨[]⟩
  borrow : Tab Borrow := ⟨[]⟩
  grants : Nat := 0
  /-- last OFFER heard, by member -/
  avail : Tab Nat := ⟨[]⟩
  /-- last AVAIL offered, and the FCLK count of the OFFER -/
  offered : Option (Nat × Nat) := none
  /-- REQUESTs outstanding: RSEQ to member -/
  requests : Tab Nat := ⟨[]⟩
  rseq : Nat := 0
  /-- windows over budget (positive) or within (negative) in a row, and SLOW marks, by member -/
  windows : Tab Int := ⟨[]⟩
  slow : Tab Unit := ⟨[]⟩
  /-- LEAVE in progress with its issuer; JOIN in progress with its issuer -/
  leaving : Option Issuer := none
  joining : Option Issuer := none
  deriving DecidableEq, Repr

end Sys2Proof.Machine
end

