-- ==== Sys2Proof/Machine/SecTypes.lean ====
section
/-! DEFINITION. The state of the security island, the command rings and the skein queues (chapters
Security, Command Rings). -/

namespace Sys2Proof.Machine

/-- State of a key slot (R169). -/
inductive SlotState | empty | active | zeroised
  deriving DecidableEq, Repr

/-- A memory key slot (R167–R171). -/
structure MemSlot where
  st : SlotState := .empty
  epoch : BitVec 5 := 0
  tenant : Nat := 0
  cur : Option KeyMat := none
  /-- previous epoch held: PREV_VALID is its presence -/
  prev : Option KeyMat := none
  /-- staged next epoch and its epoch number (R377) -/
  next : Option (BitVec 5 × KeyMat) := none
  /-- the check value over the material, taken when it was installed (R168) -/
  check : BitVec 64 := 0
  deriving DecidableEq, Repr

/-- A link key slot (R167): its AES-256 key, its salt, and its direction bit, 0 receive, 1 transmit. -/
structure LinkSlot where
  key : BitVec 256
  salt : BitVec 32
  dir : Nat
  deriving DecidableEq, Repr

/-- What IDE_KM programs (R82): a transmit or receive key, with its salt. -/
structure IdeKey where
  tx : Bool
  key : BitVec 256
  salt : BitVec 32
  deriving DecidableEq, Repr

/-- A credential: the public key and LAST_SEQ (R371). -/
structure Cred where
  key : Nat
  lastSeq : Nat
  deriving DecidableEq, Repr

/-- How an operation reaches the island (R373). -/
inductive Channel2
  | ring (i : Issuer)
  | spdm (func : Nat)
  deriving DecidableEq, Repr

/-- A firmware image as its manifest describes it (R364). -/
structure FwImage where
  version : Nat := 0
  wsvn : Nat := 0
  asvn : Nat := 0
  /-- M_W and the digest of the application firmware -/
  warden : Nat := 0
  app : Nat := 0
  /-- manifest signature and certificate verify up to ROOT_HASH -/
  signed : Bool := true
  /-- warden digest verifies; remaining digests verify -/
  wardenOk : Bool := true
  appOk : Bool := true
  deriving DecidableEq, Repr

/-- A configuration record (R381): `data` and a record of an unknown type by the bytes of their value. -/
inductive CfgRecord
  | writes (w : List (Nat × Word))
  | program (steps : List Word)
  | members (m : List (Nat × Nat × Nat × Nat))
  | params (minVer roundUs nUs periodMs timeRef : Nat)
  | data (bytes : List Nat)
  | unknown (type : Nat) (bytes : List Nat)
  deriving DecidableEq, Repr

/-- A configuration block (R381): its header's fields, its records, and its KMAC256. -/
structure CfgBlock where
  magic : Nat := 0
  version : Nat := 0
  length : Nat := 0
  seq : Nat := 0
  records : List CfgRecord := []
  tag : Nat := 0
  /-- tagged before a device zeroisation: it verifies under no later key (R385) -/
  lost : Bool := false
  deriving DecidableEq, Repr

/-- A signed operation: header, body and the key its signature verifies under (R372). -/
structure SignedOp where
  device : Nat
  cred : Nat
  seq : Nat
  /-- public key under which the signature verifies; `none` = it verifies under no key -/
  signer : Option Nat
  body : SignedBody
  /-- first 8 bytes of SHAKE256-256 of header and body -/
  hash8 : BitVec 64 := 0
  deriving DecidableEq, Repr

/-- A signed operation that passed its checks and waits for its key-store record (R373). -/
structure PendingOp where
  op : SignedOp
  chan : Channel2
  deriving DecidableEq, Repr

/-- A signed operation as it comes (R372, R373, R405): its channel, its header and signature; over a ring, its buffer, whether LEN
is what the body needs, and the host address at which the read of the buffer failed. -/
structure SignedHdr where
  chan : Channel2
  device : Nat
  cred : Nat
  seq : Nat
  signer : Option Nat
  hash8 : BitVec 64 := 0
  ptr : Nat := 0
  lenOk : Bool := true
  dmaAt : Option Nat := none
  deriving DecidableEq, Repr

/-- An SPDM session (R368). -/
structure Session where
  /-- 0 handshake, 1 established -/
  phase : Nat
  lastBeat : Nat
  keyGen : Nat := 0
  deriving DecidableEq, Repr

/-- An SPDM responder instance: LD DOE, FM-owned LD, management function, or MCTP (R368). -/
structure SpdmInst where
  /-- 0 none, 1 version, 2 capabilities, 3 algorithms negotiated -/
  phase : Nat := 0
  sessions : Tab Session := ⟨[]⟩
  /-- a large message being received: handle, next sequence number, bytes -/
  chunkIn : Option (Nat × Nat × Nat) := none
  /-- a large response being sent: handle, next sequence number, bytes left -/
  chunkOut : Option (Nat × Nat × Nat) := none
  deriving DecidableEq, Repr

/-- The persistent key store (R384): survives every reset. -/
structure KeyStore where
  slots : Tab MemSlot := ⟨[]⟩
  /-- internal slots 4 and 5 -/
  secret4 : Option (BitVec 256) := none
  secret5 : Option (BitVec 256) := none
  owner : Option Cred := none
  tenants : Tab Cred := ⟨[]⟩
  /-- bindings: GLD to tenant -/
  bind : Tab Nat := ⟨[]⟩
  /-- share grants: region to its grants -/
  shares : Tab (List Share) := ⟨[]⟩
  refKey : Option (BitVec 256) := none
  bootSel : Bool := false
  /-- OWNER_NONCE (R366) -/
  nonce : BitVec 256 := 0
  /-- half in use, its generation, records in it; the other half holds a COMPLETE record -/
  half : Bool := false
  halfGen : Nat := 0
  records : Nat := 0
  otherComplete : Bool := false
  /-- compaction: 0 none, 1 other half erased and being written, 2 COMPLETE programmed -/
  compact : Nat := 0
  /-- device zeroisation erased both halves: the next boot finds no slot (R385) -/
  erased : Bool := false
  deriving DecidableEq, Repr

/-- What the warden reads of the key store at boot (R384): every record verifies; some are skipped, which leaves what the others
give; the whole store fails. -/
inductive KsRead
  | whole
  | partly (skipped : Nat) (left : KeyStore)
  | failed
  deriving DecidableEq, Repr

/-- Security island state beside the KSL registers. -/
structure Island where
  /-- device identity: DEVICE_HASH -/
  deviceHash : Nat := 0
  imageA : FwImage := {}
  imageB : FwImage := {}
  cfg0 : Option CfgBlock := none
  cfg1 : Option CfgBlock := none
  /-- configuration in force since boot; staging area -/
  cfgRun : Option CfgBlock := none
  cfgStage : Option CfgBlock := none
  store : KeyStore := {}
  /-- link key slots in use (R167) -/
  links : Tab LinkSlot := ⟨[]⟩
  /-- the image booted, and boot's progress: 0 ROM, 1 warden, 2 released -/
  phase : Nat := 0
  bootTries : Nat := 0
  running : FwImage := {}
  /-- island reset in progress, and FCLK counts of the recent excursions -/
  reloading : Bool := false
  excursions : List Nat := []
  /-- operation whose key-store record is being programmed, and operations queued behind it -/
  pending : Option PendingOp := none
  queued : List PendingOp := []
  /-- debug challenge: value and FCLK count of its issue -/
  challenge : Option (Nat × Nat) := none
  challenges : Nat := 0
  spdm : Tab SpdmInst := ⟨[]⟩
  /-- MGC mailbox handed to the island -/
  mailbox : Bool := false
  /-- slots whose EV 0x077 has been raised since their last change: region numbers (R169) -/
  warned : Tab Unit := ⟨[]⟩
  /-- device zeroisation runs and a chip reset follows -/
  zeroising : Bool := false
  deriving DecidableEq, Repr

/-- A command taken from a ring and not completed. -/
structure Taken where
  tag : Nat
  opcode : Nat
  irq : Bool
  fence : Bool
  order : Nat
  /-- what its descriptor names device-wide (R400) -/
  wants : List Nat := []
  /-- the command has started, and what it holds device-wide (R400) -/
  started : Bool := false
  holds : List Nat := []
  /-- region, engine, member or loan named, for the record (R414) -/
  named : Nat := 0xFFFF
  /-- 0 changes state, 1 reads only, 2 carries a signed operation (R414) -/
  kind : Nat := 0
  /-- its ring was reset after it was taken: no completion is written (R389) -/
  mute : Bool := false
  deriving DecidableEq, Repr

/-- A completion entry as written (R395). -/
structure CqEntry where
  tag : Nat
  sqHead : Nat
  status : Nat
  detail : Nat
  gring : Nat
  result0 : Nat
  result1 : Nat
  tnow : Nat
  phase : Bool
  deriving DecidableEq, Repr

/-- A ring pair with its registers (R388–R398). -/
structure Ring where
  sqBase : Nat := 0
  cqBase : Nat := 0
  sqLog2 : Nat := 4
  cqLog2 : Nat := 4
  enable : Bool := false
  msix : Nat := 0
  irqEn : Bool := false
  /-- 0 DISABLED, 1 RUNNING, 2 DRAINING, 3 ERROR -/
  state : Nat := 0
  gring : Nat := 0
  err : Nat := 0
  coalCnt : Nat := 0
  coalTime : Nat := 0
  /-- indices -/
  tail : Nat := 0
  sqHead : Nat := 0
  cqTail : Nat := 0
  cqHead : Nat := 0
  phase : Bool := true
  taken : List Taken := []
  /-- unsignalled completions and the FCLK count of the first -/
  unsignalled : Nat := 0
  firstUnsig : Nat := 0
  /-- completions are no longer written (R389, R393) -/
  mute : Bool := false
  deriving DecidableEq, Repr

/-- A skein queue software can see or that carries messages (R407–R412). -/
structure Skein where
  items : List (BitVec 64) := []
  /-- read and write pointers; the second copies of both (R409) -/
  rd : Nat := 0
  wr : Nat := 0
  rd2 : Nat := 0
  wr2 : Nat := 0
  fullMode : Bool := false
  level : Nat := 0
  dropping : Bool := false
  resets : Nat := 0
  resetsSat : Bool := false
  drops : Nat := 0
  dropsSat : Bool := false
  deriving DecidableEq, Repr

/-- A REGION_REVOKE in progress (R404); the key of its table is the region. -/
structure Revoke where
  /-- `none` = all GLDs -/
  gld : Option Nat
  issuer : Issuer
  forced : Nat := 0
  deriving DecidableEq, Repr

/-- What a region-log record holds back until it is programmed (R37): a command, forwarded and then completed to its
issuer; a mailbox reply; the acknowledgement of a forwarded command or TABLE message. -/
inductive AfterLog
  | command (cmd : FwdCmd) (who : DcIssuer) (r0 r1 : Nat)
  | mailbox (gld opcode : Nat)
  | ackCmd (assoc cid psn : Nat)
  /-- the answer to whoever asked an LD to release the region -/
  | released (who : DcIssuer)
  deriving DecidableEq, Repr

/-- A region-log record (R37). -/
structure RegionLogRec where
  region : Nat
  /-- `none` = destroyed -/
  entry : Option Region
  gen : Nat
  /-- current epoch and key fingerprint of the region's slot -/
  epoch : Nat := 0
  fingerprint : Nat := 0
  rseq : Nat
  /-- first 8 bytes of the image ID -/
  imageId : Nat
  /-- the KMAC256 -/
  tag : Nat := 0
  /-- written before a device zeroisation: it verifies under no later key (R37, R385) -/
  lost : Bool := false
  deriving DecidableEq, Repr

/-- A half of the region log: its generation, its COMPLETE record, its records in the order of programming (R37, R384). -/
structure LogHalf where
  gen : Nat := 0
  complete : Bool := false
  recs : List RegionLogRec := []
  deriving DecidableEq, Repr

/-- The region log in SPI NOR: two halves of 4 MiB (R37). The log of a new device is its first half, empty and complete. -/
structure RegionLog where
  half0 : LogHalf := { complete := true }
  half1 : LogHalf := {}
  deriving DecidableEq, Repr

/-- A record being programmed, with what waits for it. -/
structure LogWait where
  recd : RegionLogRec
  after : List AfterLog
  deriving DecidableEq, Repr

/-- How a read of descriptors, or a completion write before it, ends (R393). -/
inductive FetchEnd
  | descs (l : List (BitVec 512))
  | readFailed
  | writeFailed (addr : Nat)
  deriving DecidableEq, Repr

/-- What a staging target describes once an FW_STAGE has written its part (R380). -/
inductive StageData
  | image (m : FwImage)
  | config (c : CfgBlock)
  deriving DecidableEq, Repr

/-- A TIER_HINT PROMOTE whose fills are being queued (R231). -/
structure HintJob where
  issuer : Issuer
  next : Nat
  stop : Nat
  done : Nat := 0
  deriving DecidableEq, Repr

/-- A running COPY (R404). -/
structure CopyJob where
  issuer : Issuer
  src : Nat
  dst : Nat
  srcLine : Nat
  dstLine : Nat
  lines : Nat
  /-- next line to be read; lines read and not yet sent as writes (`none` = POISON); lines written -/
  next : Nat := 0
  ready : List (Nat × Option LineData) := []
  done : Nat := 0
  bad : Bool := false
  deriving DecidableEq, Repr

/-- A REGION_DESTROY that waits for in-flight destages and fills (R404). -/
structure Destroy where
  issuer : Issuer
  gen : Nat
  deriving DecidableEq, Repr

end Sys2Proof.Machine
end

