-- ==== Sys2Proof/Machine/EvTypes.lean ====
section
/-! DEFINITION. The state of event reactions, the Row log, power sequencing, clocks and calibration
(chapters Events, Power), and the log of what the device sends. -/

namespace Sys2Proof.Machine

/-- An event as a block raises it (R415): its ID, its syndrome, the record payload, and whether the
source's chapter writes a record. `seq` is the number its record takes, once handed to ROW. -/
structure Ev where
  id : Nat
  synd : BitVec 32 := 0
  payload : BitVec 256 := 0
  writes : Bool := true
  seq : Option Nat := none
  deriving DecidableEq, Repr

/-- A Row-log record (R432) beside its place. `tagOk` = its slot reads as it was programmed; `skip` = a read-back has failed and the slot is
skipped (R436); `lost` = tagged before a device zeroisation, it verifies under no later key (R438). -/
structure RowRec where
  seq : Nat
  id : Nat
  sat : Bool := false
  byLog : Bool := false
  cnt : Nat := 1
  clrgen : Nat := 0
  time : Nat := 0
  lastUs : Nat := 0
  payload : BitVec 256 := 0
  tag : Nat := 0
  tagOk : Bool := true
  skip : Bool := false
  lost : Bool := false
  deriving DecidableEq, Repr

/-- A record in the holding queue: the event with the calendar time it arrived (R431). -/
structure HeldRec where
  ev : Ev
  byLog : Bool
  time : Nat
  deriving DecidableEq, Repr

/-- ROW beside its registers (R431–R440). `slots` is SPI NOR: it survives every reset. -/
structure RowLog where
  slots : Tab RowRec := ⟨[]⟩
  /-- next slot to program -/
  next : Nat := 0
  /-- SEQ of the next record opened -/
  seq : Nat := 0
  open_ : Option RowRec := none
  holding : List HeldRec := []
  /-- the write pointer of the holding queue, skein queue 1, and its LVL_PEND bit (R407, R410) -/
  pushed : Nat := 0
  lvlPend : Bool := false
  /-- records lost since the last EV 0x232, and the cause of the last: 0 holding queue full, 2 stopped (R442) -/
  lostSince : Nat := 0
  lostWhy : Nat := 0
  /-- closed records gathered in the page buffer, and the FCLK count at which the first closed -/
  page : List RowRec := []
  pageSince : Nat := 0
  /-- records being programmed, and whether it is the second attempt (R436 Case B) -/
  programming : List RowRec := []
  second : Bool := false
  /-- block being erased -/
  erasing : Option Nat := none
  /-- last-record mode (R454); POWER_FAIL mode programs at once (R437) -/
  lastRecord : Bool := false
  /-- a LOG_CLEAR's record waits for its program (R440): the record's SEQ, and the channel that waits -/
  clearing : Option (Nat × Channel2) := none
  deriving DecidableEq, Repr

/-- The MSI-X state of a function (R419, R480, R481). -/
structure Msix where
  enable : Bool := false
  fmask : Bool := false
  /-- vectors whose mask bit is clear -/
  unmasked : Tab Unit := ⟨[]⟩
  /-- the PBA -/
  pba : Tab Unit := ⟨[]⟩
  /-- table entries: address and data by vector -/
  entries : Tab (Nat × Nat) := ⟨[]⟩
  deriving DecidableEq, Repr

/-- An MSI-X gap of a (TARGET, VECTOR) pair: FCLK count of the last message, and a message waits (R419). -/
structure Gap where
  last : Nat
  waiting : Bool := false
  /-- the event whose message waits -/
  id : Nat := 0
  deriving DecidableEq, Repr

/-- FCO beside its registers (R416–R430). -/
structure Fco where
  /-- events raised and not yet reacted to, with the FCLK cycle that accepts them, in the order of R416 -/
  inbox : List (Nat × Ev) := []
  /-- functions 0–63 and 64 -/
  msix : Tab Msix := ⟨[]⟩
  /-- gaps by TARGET * 2048 + VECTOR -/
  gaps : Tab Gap := ⟨[]⟩
  /-- FCLK count of the last block reset, by block code -/
  brst : Tab Nat := ⟨[]⟩
  /-- blocks whose reset is in progress -/
  resetting : Tab Unit := ⟨[]⟩
  /-- queue-0 entries lost since the last LOST entry (R421) -/
  evqSince : Nat := 0
  /-- FCLK count of the last event of a kind raised at most once per ms, by event ID -/
  lastAt : Tab Nat := ⟨[]⟩
  /-- FCLK count of the last PULSE edge or restart -/
  pulseAt : Nat := 0
  deriving DecidableEq, Repr

/-- Kind of a flush (R59, R450, R460). -/
inductive FlushKind | powerFail | orderlyOff | preReset
  deriving DecidableEq, Repr

/-- PSQ beside its registers (R443–R455). -/
structure Psq where
  /-- FCLK count at which the step in progress, or the state, began -/
  since : Nat := 0
  /-- power-up attempts failed in a row -/
  tries : Nat := 0
  /-- CTL.CYCLE: power up again whatever the level of PWRON -/
  cycle : Bool := false
  /-- enter FAULT at the end of DOWN -/
  toFault : Bool := false
  /-- an off request waits for the step in progress of UP -/
  abort : Bool := false
  /-- DOWN runs only the steps left after the EARLY steps -/
  earlyDone : Bool := false
  /-- on-die sense of slots 2–4 in mV -/
  sense : Tab Nat := ⟨[]⟩
  /-- running-rail faults in their grace: slot to FCLK count -/
  grace : Tab Nat := ⟨[]⟩
  /-- held events by event ID (R455) -/
  held : Tab Ev := ⟨[]⟩
  /-- a COMMIT waits for VDD_FUSE (R453) -/
  fuse : Bool := false
  /-- the flush that runs, and the FCLK count at which it began -/
  flush : Option FlushKind := none
  flushAt : Nat := 0
  /-- a Flush of the flush did not complete (R204) -/
  flushFailed : Bool := false
  /-- the CXL links have been dropped (R59 step 4) -/
  linksDown : Bool := false
  /-- a chip reset is pending: its RST_CAUSE, and whether it waits for FLUSH_DONE -/
  reset : Option Nat := none
  /-- FCO accepts events (R424, R455) -/
  accepts : Bool := false
  /-- EXTEST is selected: the device is held in reset (R460) -/
  extest : Bool := false
  deriving DecidableEq, Repr

/-- CKS beside its registers: RTC and calendar time (R456–R461). -/
structure Cks where
  /-- RTC count at the FCLK count `rtcAt` -/
  rtc : Nat := 0
  rtcAt : Nat := 0
  /-- calendar time in ns at the FCLK count `calAt` (R459) -/
  calBase : Nat := 0
  calAt : Nat := 0
  /-- a slew toward the referee: ns still to apply, and the RTC awaits its rewrite -/
  slew : Int := 0
  rewrite : Bool := false
  /-- RTC_SET_LO as last written -/
  setLo : Nat := 0
  /-- latched HI words: by LO offset -/
  latched : Tab Nat := ⟨[]⟩
  /-- FCLK count of the last watchdog kick -/
  kicked : Nat := 0
  /-- FCLK count of the last chip reset, where TNOW starts (R259) -/
  tnow0 : Nat := 0
  deriving DecidableEq, Repr

/-- A CAL item's layers 2 and 3 (R462). -/
structure CalItem where
  user : Int := 0
  /-- USER as in force: pads take it at their next update, lanes at their next training -/
  live : Int := 0
  track : Int := 0
  deriving DecidableEq, Repr

/-- The features of *CXL feature support* (R64). -/
inductive CxlFeature
  | io | memHdmH | cache | hdmDb | mld | multiHeaded | dcd | poison | viral | gpf | cdat | doe | ide | flit256Lo | flit68 | fmApi | tsp
  | devLoad
  deriving DecidableEq, Repr

/-- Fields of an HDM decoder's registers (R73). -/
inductive DecoderField | base | size | skip | ways | gran | lock | committed | error
  deriving DecidableEq, Repr

/-- Registers of a function's configuration space and component registers that the spec gives a value (R64, R68, R72, R73, R76), by
name: their places are CXL's. -/
inductive ConfigReg
  | feature (f : CxlFeature)
  | gpfDuration | gpfPower | memActiveTimeout | memActive | aerPoisoned
  | decoder (i : Nat) (f : DecoderField)
  deriving DecidableEq, Repr

/-- Registers of a DOE instance: control, status, write mailbox and read mailbox. -/
inductive DoeReg | control | status | data | read
  deriving DecidableEq, Repr

/-- Where a host's register access goes (R480, R481): BAR0, an LD's BAR2, the management function's BAR4, the message control word of
the function's MSI-X capability, a configuration register, or its DOE instance. -/
inductive RegAddr
  | bar0 (off : Nat)
  | bar2 (off : Nat)
  | bar4 (off : Nat)
  | msixControl
  | config (r : ConfigReg)
  | doe (r : DoeReg)
  deriving DecidableEq, Repr

/-- What SNS reads every 100 µs (R478, R495): sensors in 0.125 °C, rails in mV and 10 mW, dies and device in 10 mW, VBAT in mV, and
the energy used since the last sample in mJ. -/
structure SnsSample where
  temps : List Int
  mv : List Nat := []
  railP : List Nat := []
  dieP : List Nat := []
  pwr : Nat := 0
  vbat : Nat := 0
  mj : Nat := 0
  deriving DecidableEq, Repr

/-- The NVMe commands that NVH uses (R188): of the I/O commands, Write with FUA for header writes only; of the admin commands, Set
Features for Number of Queues, and Create and Delete of an I/O submission and completion queue. -/
inductive NvmeOp
  | read | write | writeFua | flush | writeZeroes | deallocate
  | identify | getFeatures | setFeatures | createQueue | deleteQueue | getLogPage | abort
  deriving DecidableEq, Repr

/-- Something the device sends, in the order it sends it: the log of its outputs. Times are idle latencies
in 1/3696 ns (R4, R97–R105). -/
inductive Output
  /-- answer to a register read by BAR0 address -/
  | regData (addr value : Nat)
  /-- completion of a host read: the line, or `none` = the poison indication -/
  | readData (head gld tag : Nat) (data : Option LineData) (devLoad lat : Nat)
  /-- completion of a host write -/
  | writeDone (head gld tag devLoad lat : Nat)
  /-- GPF phase 2 complete -/
  | gpfDone (head : Nat)
  /-- reply of an LD's mailbox: opcode, return code, fields -/
  | mailbox (gld opcode code : Nat) (body : List Nat)
  /-- reply of the FM API -/
  | fm (opcode code : Nat) (body : List Nat)
  /-- interrupt of an LD's event log policy -/
  | ldInterrupt (gld : Nat)
  /-- MSI-X message -/
  | msix (func vector : Nat)
  /-- completion written to a completion queue -/
  | completion (func ring : Nat) (e : CqEntry)
  /-- words written to host memory -/
  | hostWrite (func ptr : Nat) (words : List (BitVec 64))
  /-- Twinset packet -/
  | packet (assoc cid psn : Nat) (hdr : TxHdr) (p : Payload)
  /-- a PFC PAUSE frame (R300) -/
  | pause (port prio : Nat)
  /-- SPDM, DOE, IDE_KM or MCTP reply: instance, code, fields -/
  | message (inst code : Nat) (body : List Nat)
  /-- CXL.io unsupported request or completer abort -/
  | drop (head gld tag : Nat)
  /-- a PULSE edge to the level -/
  | pulse (level : Bool)
  /-- NVMe command to a drive (R188): namespace, first LBA and number of LBAs -/
  | nvme (drive : Nat) (op : NvmeOp) (nsid lba blocks : Nat)
  /-- lease message with its tag handed to a host referee (R379, R406) -/
  | refBuffer (func ptr : Nat) (m : LeaseMsg) (tag : Nat)
  deriving DecidableEq, Repr

end Sys2Proof.Machine
end

