-- ==== Sys2Proof/Syntax.lean ====
section
/-! DEFINITION. The commands of the device: one constructor per row of the table of operations and events, in the
table's order, each with the operands that the world outside supplies. -/

namespace Sys2Proof

open Machine

/-- A command to, or an event at, the device. -/
inductive Instr
  /-- HOST_READ (R41). -/
  | hostRead (h : Nat) (ld : Nat) (hpa : Nat) (tag : Nat) (fmNoise : BitVec 640) (mdNoise : BitVec 640) (checks : List Check)
  /-- HOST_WRITE (R43). -/
  | hostWrite (h : Nat) (ld : Nat) (hpa : Nat) (tag : Nat) (be : BitVec 64) (data : LineData) (poison : Bool) (noise : BitVec 640 × BitVec 640) (checks : List Check)
  /-- ADMISSION_HOLD_RELEASE (R55). -/
  | admissionHoldRelease (port : Nat)
  /-- DRAM_READ_COMPLETE (R97). -/
  | dramReadComplete (read : Nat) (noise : BitVec 640) (checks : List Check)
  /-- KAT_COMPLETE (R178). -/
  | katComplete (core : Bool) (unit : Nat) (pass : Bool) (powerOn : Bool) (last : Bool)
  /-- FLASH_READ_COMPLETE (R104). -/
  | flashReadComplete (gran : Nat) (flips : List (Nat × LineData)) (ns : Nat)
  /-- FILL_COMPLETE (R224). -/
  | fillComplete (gran : Nat)
  /-- LC_EVICTION_WRITEBACK (R94). -/
  | lcEvictionWriteback (slice : Nat)
  /-- GLOBAL_PERSISTENT_FLUSH (R48). -/
  | globalPersistentFlush (h : Nat)
  /-- HEAD_RESET (R71). -/
  | headReset (h : Nat) (kind : Nat)
  /-- HEAD_LINK_UP (R69). -/
  | headLinkUp (h : Nat) (rate : Nat) (width : Nat) (flit : Nat) (phy : List Nat)
  /-- HEAD_LINK_DOWN (R89). -/
  | headLinkDown (h : Nat)
  /-- PORT_ENABLE_WRITE (R67). -/
  | portEnableWrite (n : Nat)
  /-- HDM_DECODER_COMMIT (R73). -/
  | hdmDecoderCommit (gld : Nat) (dec : Nat) (commit : Bool) (base : Nat) (size : Nat) (ways : Nat) (gran : Nat) (skip : Nat) (lock : Bool)
  /-- IDE_INTEGRITY_FAILURE (R83). -/
  | ideIntegrityFailure (h : Nat) (keyset : Nat)
  /-- IDE_KM_KEY_PROG (R82). -/
  | ideKmKeyProg (h : Nat) (set : Nat) (k : IdeKey)
  /-- K_SET_GO (R82). -/
  | kSetGo (h : Nat) (set : Nat) (cont : Bool) (epochLen : Nat)
  /-- DOE_ABORT (R86). -/
  | doeAbort (inst : Nat)
  /-- IDENTIFY_MEMORY_DEVICE (R87). -/
  | identifyMemoryDevice (gld : Nat)
  /-- GET_PARTITION_INFO (R87). -/
  | getPartitionInfo (gld : Nat)
  /-- GET_EVENT_RECORDS (R87). -/
  | getEventRecords (gld : Nat) (log : Nat)
  /-- CLEAR_EVENT_RECORDS (R87). -/
  | clearEventRecords (gld : Nat) (log : Nat) (n : Nat) (all : Bool)
  /-- GET_EVENT_INTERRUPT_POLICY (R87). -/
  | getEventInterruptPolicy (gld : Nat)
  /-- SET_EVENT_INTERRUPT_POLICY (R87). -/
  | setEventInterruptPolicy (gld : Nat) (policy : Nat)
  /-- GET_SUPPORTED_LOGS (R87). -/
  | getSupportedLogs (gld : Nat)
  /-- GET_LOG (R87). -/
  | getLog (gld : Nat) (cel : Bool) (first : Nat) (count : Nat)
  /-- GET_HEALTH_INFO (R87). -/
  | getHealthInfo (gld : Nat)
  /-- GET_SHUTDOWN_STATE (R87). -/
  | getShutdownState (gld : Nat)
  /-- SET_SHUTDOWN_STATE (R87). -/
  | setShutdownState (gld : Nat) (state : Nat)
  /-- GET_POISON_LIST (R499). -/
  | getPoisonList (gld : Nat) (line : Nat) (lines : Nat)
  /-- INJECT_POISON (R87). -/
  | injectPoison (gld : Nat) (line : Nat)
  /-- CLEAR_POISON (R87). -/
  | clearPoison (gld : Nat) (line : Nat) (data : LineData)
  /-- GET_DC_CONFIGURATION (R77). -/
  | getDcConfiguration (gld : Nat)
  /-- GET_DC_EXTENT_LIST (R77). -/
  | getDcExtentList (gld : Nat)
  /-- ADD_DC_RESPONSE (R79). -/
  | addDcResponse (gld : Nat) (extent : Option (Nat × Nat))
  /-- RELEASE_DC (R80). -/
  | releaseDc (gld : Nat) (dpa : Nat) (len : Nat)
  /-- GET_TIMESTAMP (R87). -/
  | getTimestamp (gld : Nat)
  /-- MAILBOX_UNSUPPORTED (R87). -/
  | mailboxUnsupported (gld : Nat) (opcode : Nat)
  /-- FM_IDENTIFY (R88). -/
  | fmIdentify (src : Nat)
  /-- GET_MULTI_HEADED_INFO (R88). -/
  | getMultiHeadedInfo (src : Nat)
  /-- GET_HEAD_INFO (R88). -/
  | getHeadInfo (src : Nat) (first : Nat) (count : Nat)
  /-- GET_LD_INFO (R88). -/
  | getLdInfo (src : Nat)
  /-- GET_LD_ALLOCATIONS (R88). -/
  | getLdAllocations (src : Nat) (first : Nat) (count : Nat)
  /-- SET_LD_ALLOCATIONS (R88). -/
  | setLdAllocations (src : Nat) (req : List (Nat × Nat × Nat))
  /-- GET_QOS_CONTROL (R88). -/
  | getQosControl (src : Nat)
  /-- SET_QOS_CONTROL (R75). -/
  | setQosControl (src : Nat) (low : Nat) (high : Nat)
  /-- GET_QOS_STATUS (R88). -/
  | getQosStatus (src : Nat)
  /-- GET_QOS_ALLOCATED_BW (R88). -/
  | getQosAllocatedBw (src : Nat) (first : Nat) (count : Nat)
  /-- SET_QOS_ALLOCATED_BW (R88). -/
  | setQosAllocatedBw (src : Nat) (first : Nat) (bw : List Nat)
  /-- GET_QOS_BW_LIMIT (R88). -/
  | getQosBwLimit (src : Nat) (first : Nat) (count : Nat)
  /-- SET_QOS_BW_LIMIT (R88). -/
  | setQosBwLimit (src : Nat) (first : Nat) (bw : List Nat)
  /-- GET_DCD_INFO (R88). -/
  | getDcdInfo (src : Nat)
  /-- GET_HOST_DC_REGION_CONFIGURATION (R88). -/
  | getHostDcRegionConfiguration (src : Nat) (gld : Nat)
  /-- SET_DC_REGION_CONFIGURATION (R77). -/
  | setDcRegionConfiguration (src : Nat) (region : Nat) (block : Nat)
  /-- GET_DC_REGION_EXTENT_LISTS (R88). -/
  | getDcRegionExtentLists (src : Nat) (gld : Nat)
  /-- INITIATE_DYNAMIC_CAPACITY_ADD (R79). -/
  | initiateDynamicCapacityAdd (src : Nat) (gld : Nat) (region : Nat) (gen : Nat) (tenant : Nat)
  /-- INITIATE_DYNAMIC_CAPACITY_RELEASE (R80). -/
  | initiateDynamicCapacityRelease (src : Nat) (gld : Nat) (region : Nat) (gen : Nat) (tenant : Nat) (forced : Bool)
  /-- TUNNEL_MANAGEMENT_COMMAND (R88). -/
  | tunnelManagementCommand (src : Nat) (h : Nat) (inner : Nat)
  /-- FM_API_UNSUPPORTED (R88). -/
  | fmApiUnsupported (src : Nat) (opcode : Nat)
  /-- DCD_OFFER_TIMEOUT (R79). -/
  | dcdOfferTimeout (gld : Nat) (region : Nat)
  /-- DCD_RELEASE_TIMEOUT (R80). -/
  | dcdReleaseTimeout (gld : Nat) (region : Nat)
  /-- PATROL_SCRUB_READ (R118). -/
  | patrolScrubRead (n : Nat) (extra : Bool) (noise : BitVec 512) (parity : BitVec 128)
  /-- PATROL_PROMOTE (R119). -/
  | patrolPromote (n : Nat)
  /-- SCRUB_ENABLE_WRITE (R118). -/
  | scrubEnableWrite (on : Bool)
  /-- DEVICE_COUNTER_LEAK (R114). -/
  | deviceCounterLeak (n : Nat)
  /-- INJ_ARM (R123). -/
  | injArm (n : Nat)
  /-- SRAM_INJ_ARM (R125). -/
  | sramInjArm (target : Nat) (a : Nat) (b : Nat) (two : Bool)
  /-- SRAM_POWER_ON_INIT (R126). -/
  | sramPowerOnInit
  /-- CHANNEL_FILL_COMPLETE (R127). -/
  | channelFillComplete (n : Nat)
  /-- CHANNEL_ENABLE_WRITE (R134). -/
  | channelEnableWrite (n : Nat) (bus : List (Nat × Dimm)) (i3c : Bool)
  /-- TRAINING_COMPLETE (R150). -/
  | trainingComplete (n : Nat) (t1 : List (Option Nat)) (t2 : List (Option Nat)) (t3 : List (List (Option Nat)))
      (t4 : List (List (List (Nat × Nat)))) (t5 : List (List (Option Nat))) (t6 : List (List (List (Nat × Nat)))) (t7 : List (Option Nat))
  /-- REFRESH_DUE (R144). -/
  | refreshDue (n : Nat) (rank : Nat) (bank : Nat)
  /-- REFRESH_POSTPONE_LIMIT (R145). -/
  | refreshPostponeLimit (n : Nat) (rank : Nat) (bank : Nat)
  /-- DIMM_SENSOR_POLL (R157). -/
  | dimmSensorPoll (n : Nat) (temps : List (Option Int)) (mr4 : Bool) (pmic : List Nat)
  /-- DIMM_EVENT_N_ASSERT (R157). -/
  | dimmEventNAssert (n : Nat) (source : Option Nat) (temps : List (Option Int)) (mr4 : Bool) (pmic : List Nat)
  /-- POWER_DOWN_ENTRY (R147). -/
  | powerDownEntry (n : Nat) (pair : Nat)
  /-- PAGE_IDLE_CLOSE (R143). -/
  | pageIdleClose (n : Nat) (bank : Nat)
  /-- REQUEST_AGE_PROMOTE (R140). -/
  | requestAgePromote (req : AgedReq)
  /-- DQS_OSCILLATOR_POLL (R151). -/
  | dqsOscillatorPoll (n : Nat) (rank : Nat) (drift : Int)
  /-- ZQ_CALIBRATION (R151). -/
  | zqCalibration (n : Nat) (rank : Nat)
  /-- CA_PARITY_ALERT (R154). -/
  | caParityAlert (n : Nat) (sub : Nat) (phase : Nat)
  /-- CA_PARITY_RETRY_DONE (R155). -/
  | caParityRetryDone (n : Nat) (sub : Nat) (clean : Bool) (cs : List (Option Nat)) (ca : List (Option Nat)) (inTime : Bool)
  /-- REKEY_SWEEP_STEP (R171). -/
  | rekeySweepStep (slot : Nat)
  /-- DRIVE_PORT_ENABLE (R187). -/
  | drivePortEnable (port : Nat) (link : Nat)
  /-- DRIVE_INIT_COMPLETE (R189). -/
  | driveInitComplete (port : Nat) (ok : Bool) (qpairs : Nat) (cap1 : Nat) (cap2 : Nat)
  /-- IMAGE_CREATE (R195). -/
  | imageCreate
  /-- IMAGE_CREATE_COMPLETE (R195). -/
  | imageCreateComplete
  /-- RESTORE_START (R206). -/
  | restoreStart
  /-- RESTORE_COMPLETE (R62). -/
  | restoreComplete
  /-- DESTAGE_START (R196). -/
  | destageStart
  /-- DESTAGE_TAG_WRITE_DONE (R198). -/
  | destageTagWriteDone (gran : Nat)
  /-- DESTAGE_COMPLETE (R198). -/
  | destageComplete (gran : Nat)
  /-- LEARNING_READ_COMPLETE (R199). -/
  | learningReadComplete (gran : Nat)
  /-- DRIVE_COMMAND_ERROR (R202). -/
  | driveCommandError (drive : Nat) (op : Nat) (gran : Nat) (retryOk : Bool) (status : Nat) (lba : Nat)
  /-- DRIVE_COMMAND_TIMEOUT (R202). -/
  | driveCommandTimeout (drive : Nat)
  /-- DRIVE_LINK_DOWN (R202). -/
  | driveLinkDown (port : Nat)
  /-- TOKEN_BUCKET_REFILL (R197). -/
  | tokenBucketRefill (drive : Nat)
  /-- REBUILD_STEP (R205). -/
  | rebuildStep (drive : Nat)
  /-- DRIVE_FLUSH_COMPLETE (R204). -/
  | driveFlushComplete (drive : Nat)
  /-- AGE_TICK (R219). -/
  | ageTick
  /-- BACKGROUND_EVICTION (R221). -/
  | backgroundEviction
  /-- ALLOCATION_RETRY (R222). -/
  | allocationRetry
  /-- QUOTA_WRITE (R228). -/
  | quotaWrite (which : Nat) (value : Nat)
  /-- FRAME_MAP_LINE_REBUILD (R234). -/
  | frameMapLineRebuild (n : Nat) (k : Nat)
  /-- CHANNEL_LOSS_REBUILD (R236). -/
  | channelLossRebuild
  /-- PATTERN_LOAD (R243). -/
  | patternLoad (iss : Issuer) (engine : Nat) (first : Nat) (count : Nat) (len : Nat) (ptr : Nat) (words : Option (List (BitVec 64)))
  /-- PATTERN_START (R244). -/
  | patternStart (iss : Issuer) (engine : Nat) (prio : Nat) (entry : Nat) (credits : Nat) (g : List (BitVec 64))
  /-- PATTERN_STOP (R246). -/
  | patternStop (iss : Issuer) (engine : Nat)
  /-- NOP (R247). -/
  | nop (engine : Nat) (ecc : Nat)
  /-- HALT (R245). -/
  | halt (engine : Nat) (ecc : Nat)
  /-- SETI (R247). -/
  | seti (engine : Nat) (ecc : Nat)
  /-- ADDI (R247). -/
  | addi (engine : Nat) (ecc : Nat)
  /-- ALU (R247). -/
  | alu (engine : Nat) (ecc : Nat)
  /-- BR (R247). -/
  | br (engine : Nat) (ecc : Nat)
  /-- LOOP (R247). -/
  | loopStitch (engine : Nat) (ecc : Nat)
  /-- TAG (R247). -/
  | tagStitch (engine : Nat) (ecc : Nat)
  /-- DLINE (R247). -/
  | dline (engine : Nat) (ecc : Nat)
  /-- RDT (R247). -/
  | rdt (engine : Nat) (ecc : Nat)
  /-- NOTE (R247). -/
  | note (engine : Nat) (ecc : Nat)
  /-- FETCH (R250). -/
  | fetch (engine : Nat) (ecc : Nat)
  /-- HINT (R255). -/
  | hint (engine : Nat) (ecc : Nat)
  /-- ARMW (R257). -/
  | armw (engine : Nat) (ecc : Nat)
  /-- WAITDB (R256). -/
  | waitdb (engine : Nat) (ecc : Nat)
  /-- WAITW (R257). -/
  | waitw (engine : Nat) (ecc : Nat)
  /-- WAITT (R258). -/
  | waitt (engine : Nat) (ecc : Nat)
  /-- STITCHER_DOORBELL (R256). -/
  | stitcherDoorbell (engine : Nat) (value : Nat) (func : Nat)
  /-- STITCHER_WAKE (R257). -/
  | stitcherWake (engine : Nat)
  /-- STITCHER_WAIT_TIMEOUT (R256). -/
  | stitcherWaitTimeout (engine : Nat)
  /-- STREAM_GRANULE_ISSUE (R251). -/
  | streamGranuleIssue (engine : Nat)
  /-- QFULL_RETRY (R252). -/
  | qfullRetry (engine : Nat) (slot : Nat)
  /-- STI_ENABLE_WRITE (R245). -/
  | stiEnableWrite (on : Bool)
  /-- ASSOCIATION_OPEN (R275). -/
  | associationOpen (assoc : Nat)
  /-- HELLO (R275). -/
  | hello (h : RxHdr) (nonce : Nat) (idHash : Nat) (secret : Nat) (aepoch : Nat) (mac : Nat)
  /-- HELLO_RSP (R276). -/
  | helloRsp (h : RxHdr) (nonce : Nat) (idHash : Nat) (secret : Nat) (aepoch : Nat) (mac : Nat)
  /-- OPEN (R279). -/
  | openReq (h : RxHdr) (cid : Nat) (relaxed : Bool) (purpose : Nat) (window : Nat) (lane : Nat) (prio : Nat) (psn : Nat)
  /-- OPEN_RSP (R279). -/
  | openRsp (h : RxHdr) (cid : Nat) (relaxed : Bool) (purpose : Nat) (window : Nat) (lane : Nat) (prio : Nat) (psn : Nat) (status : Nat)
  /-- CLOSE (R271). -/
  | closePkt (h : RxHdr) (cid : Nat)
  /-- KEEPALIVE (R277). -/
  | keepalive (h : RxHdr)
  /-- KEEPALIVE_TIMER (R277). -/
  | keepaliveTimer (assoc : Nat)
  /-- ASSOCIATION_DOWN_TIMEOUT (R277). -/
  | associationDownTimeout (assoc : Nat)
  /-- PA_CFG_REKEY (R277). -/
  | paCfgRekey (assoc : Nat)
  /-- REKEY (R277). -/
  | rekey (h : RxHdr) (nonce : Nat)
  /-- OLD_KEY_PHASE_RETIRE (R277). -/
  | oldKeyPhaseRetire (assoc : Nat)
  /-- LANE_REC (R312). -/
  | laneRec (h : RxHdr) (lane : Nat) (recs : List MirRecord)
  /-- CMD_FWD (R309). -/
  | cmdFwd (h : RxHdr) (frag : Nat) (last : Bool) (cmd : FwdCmd)
  /-- FENCE (R312). -/
  | fencePkt (h : RxHdr)
  /-- READ (R293). -/
  | readPkt (h : RxHdr) (loan : Bool) (target : Nat) (gen : Nat) (granule : Bool) (count : Nat) (addr : Nat) (tag : Nat)
  /-- READ_RESP (R355). -/
  | readResp (h : RxHdr) (ask : ReadAsk) (duplicate : Bool) (poison : Nat) (valid : Nat) (served : Nat × Nat) (lines : Tab Ln)
  /-- WRITE (R293). -/
  | writePkt (h : RxHdr) (loan : Bool) (target : Nat) (gen : Nat) (granule : Bool) (count : Nat) (addr : Nat) (tag : Nat) (lines : Tab Ln)
  /-- ACK (R290). -/
  | ackPkt (h : RxHdr) (psn : Nat) (sack : Nat) (ceCnt : Nat) (pktCnt : Nat) (tsEcho : Nat)
  /-- NAK (R273). -/
  | nakPkt (h : RxHdr) (psn : Nat) (code : Nat) (rnrUs : Nat) (about : Nat × Nat) (tsEcho : Nat)
  /-- RETRANSMIT_TIMEOUT (R291). -/
  | retransmitTimeout (assoc : Nat) (cid : Nat) (psn : Nat)
  /-- RNR_RETRY (R273). -/
  | rnrRetry (assoc : Nat) (cid : Nat) (psn : Nat)
  /-- ACK_DELAY_EXPIRY (R289). -/
  | ackDelayExpiry (assoc : Nat) (cid : Nat)
  /-- RATE_RECOVERY_TICK (R299). -/
  | rateRecoveryTick (assoc : Nat) (cid : Nat)
  /-- CONTEXT_REFILL_DONE (R282). -/
  | contextRefillDone (assoc : Nat) (cid : Nat) (lost : Bool)
  /-- TWINSET_PORT_UP (R267). -/
  | twinsetPortUp (port : Nat)
  /-- TWINSET_PORT_DOWN (R267). -/
  | twinsetPortDown (port : Nat) (lanes : Nat)
  /-- PFC_PAUSE (R300). -/
  | pfcPause (port : Nat) (prio : Nat) (on : Bool)
  /-- RENEW (R321). -/
  | renew (h : RxHdr) (m : LeaseMsg)
  /-- ACQUIRE (R321). -/
  | acquire (h : RxHdr) (m : LeaseMsg)
  /-- DETACH (R321). -/
  | detach (h : RxHdr) (m : LeaseMsg)
  /-- ATTACH (R321). -/
  | attach (h : RxHdr) (m : LeaseMsg)
  /-- RELEASE (R321). -/
  | releaseMsg (h : RxHdr) (m : LeaseMsg)
  /-- LEASE_GRANT (R320). -/
  | leaseGrant (h : RxHdr) (m : LeaseMsg)
  /-- LEASE_DENY (R323). -/
  | leaseDeny (h : RxHdr) (m : LeaseMsg)
  /-- LEASE_RENEW_TIMER (R320). -/
  | leaseRenewTimer
  /-- LEASE_RETRY_TIMER (R320). -/
  | leaseRetryTimer
  /-- LEASE_FENCE_POINT (R323). -/
  | leaseFencePoint
  /-- DRAIN_EXPIRY (R323). -/
  | drainExpiry
  /-- DETACH_TIMEOUT (R316). -/
  | detachTimeout (lane : Nat)
  /-- REFEREE_LAPSE (R321). -/
  | refereeLapse (slot : Nat)
  /-- REFEREE_HOLD_WAIT (R321). -/
  | refereeHoldWait (slot : Nat)
  /-- MIRROR_CTL_DETACH (R316). -/
  | mirrorCtlDetach (iss : Issuer)
  /-- MIRROR_CTL_RESYNC (R332). -/
  | mirrorCtlResync (iss : Issuer)
  /-- RESYNC_START (R332). -/
  | resyncStart
  /-- TABLE (R332). -/
  | tableMsg (h : RxHdr) (entries : List TableEntry) (last : Bool) (joined : Bool)
  /-- DIVRUN (R332). -/
  | divrun (h : RxHdr) (runs : List (Nat × Nat)) (last : Bool) (keyWait : Option Nat)
  /-- RESYNC_COPY_STEP (R333). -/
  | resyncCopyStep
  /-- LEASE_CTL_SWITCHOVER (R330). -/
  | leaseCtlSwitchover (iss : Issuer)
  /-- LEASE_CTL_FORCE_ACQUIRE (R330). -/
  | leaseCtlForceAcquire (iss : Issuer)
  /-- REF_SEND (R406). -/
  | refSend (iss : Issuer) (ptr : Nat) (answer : Option (LeaseMsg × Nat))
  /-- REF_RECV (R406). -/
  | refRecv (iss : Issuer) (ptr : Nat) (ok : Bool)
  /-- TOKEN_PERIOD_TIMER (R339). -/
  | tokenPeriodTimer
  /-- TOKEN (R340). -/
  | tokenMsg (h : RxHdr) (t : Token)
  /-- LEADER_LOST_TIMEOUT (R342). -/
  | leaderLostTimeout
  /-- ROUND_CTL_JOIN (R345). -/
  | roundCtlJoin (iss : Issuer)
  /-- ROUND_CTL_LEAVE (R347). -/
  | roundCtlLeave (iss : Issuer)
  /-- ROUND_ENABLE_WRITE (R345). -/
  | roundEnableWrite
  /-- JOIN (R345). -/
  | joinMsg (h : RxHdr) (j : JoinMsg)
  /-- JOIN_RSP (R346). -/
  | joinRsp (h : RxHdr) (member : Nat) (reason : Nat)
  /-- OFFER (R350). -/
  | offerMsg (h : RxHdr) (avail : Nat)
  /-- LOAN_REQUEST (R350). -/
  | loanRequest (h : RxHdr) (rseq : Nat)
  /-- LOAN_GRANT (R348). -/
  | loanGrant (h : RxHdr) (loan : Nat) (gen : Nat) (rseq : Nat)
  /-- LOAN_REFUSE (R350). -/
  | loanRefuse (h : RxHdr) (reason : Nat) (rseq : Nat)
  /-- RECLAIM (R352). -/
  | reclaim (h : RxHdr) (loan : Nat) (gen : Nat)
  /-- RETURN (R353). -/
  | loanReturn (h : RxHdr) (loan : Nat) (gen : Nat)
  /-- LOAN_RECLAIM (R351). -/
  | loanReclaim
  /-- LOAN_CTL_RECLAIM (R351). -/
  | loanCtlReclaim (iss : Issuer) (member : Nat) (loan : Nat)
  /-- LOAN_CTL_RETURN (R353). -/
  | loanCtlReturn (iss : Issuer) (member : Nat) (loan : Nat)
  /-- LOAN_IDLE_RETURN (R353). -/
  | loanIdleReturn (key : Nat)
  /-- NEIGHBOUR_WINDOW_TICK (R354). -/
  | neighbourWindowTick
  /-- N_FILL_TIMEOUT (R355). -/
  | nFillTimeout (gran : Nat)
  /-- BOOT (R365). -/
  | boot (ks : KsRead) (stuck : Bool)
  /-- BOOT_TIMEOUT (R365). -/
  | bootTimeout (ks : KsRead) (stuck : Bool)
  /-- ISLAND_EXCURSION (R360). -/
  | islandExcursion
  /-- ISLAND_RELOAD_COMPLETE (R360). -/
  | islandReloadComplete
  /-- BOOT_CTL_COMMIT (R362). -/
  | bootCtlCommit
  /-- TAKE_OWNERSHIP (R371). -/
  | takeOwnership (h : SignedHdr) (key : Nat)
  /-- TRANSFER (R371). -/
  | transfer (h : SignedHdr) (key : Nat)
  /-- TENANT_ENROL (R373). -/
  | tenantEnrol (h : SignedHdr) (tenant : Nat) (key : Nat)
  /-- TENANT_BIND (R374). -/
  | tenantBind (h : SignedHdr) (glds : List Nat)
  /-- TENANT_UNBIND (R374). -/
  | tenantUnbind (h : SignedHdr) (tenant : Nat) (glds : List Nat)
  /-- TENANT_REMOVE (R373). -/
  | tenantRemove (h : SignedHdr) (tenant : Nat)
  /-- REGION_SHARE (R375). -/
  | regionShare (h : SignedHdr) (region : Nat) (gen : Nat) (tenant : Nat) (access : Nat)
  /-- KEY_INSTALL (R376). -/
  | keyInstall (h : SignedHdr) (slot : Nat) (epoch : Nat) (mat : Option KeyMat) (prev : Option KeyMat)
  /-- KEY_ROTATE (R377). -/
  | keyRotate (h : SignedHdr) (slot : Nat) (epoch : Nat) (mat : Option KeyMat)
  /-- KEY_REMOVE (R373). -/
  | keyRemove (h : SignedHdr) (slot : Nat)
  /-- ZEROISE (R385). -/
  | zeroise (h : SignedHdr) (scope : Nat) (slot : Nat) (tenant : Nat)
  /-- SECRET_INSTALL (R378). -/
  | secretInstall (h : SignedHdr) (slot : Nat) (secret : Option (BitVec 256))
  /-- REFEREE_SET (R379). -/
  | refereeSet (h : SignedHdr) (host : Bool) (member : Nat) (key : Option (BitVec 256))
  /-- FW_ACTIVATE (R380). -/
  | fwActivate (h : SignedHdr) (target : Nat)
  /-- LOG_CLEAR (R440). -/
  | logClear (h : SignedHdr)
  /-- DEBUG_UNLOCK (R382). -/
  | debugUnlock (h : SignedHdr) (challenge : Nat) (level : Nat)
  /-- KEY_STORE_RECORD_PERSISTED (R373). -/
  | keyStoreRecordPersisted
  /-- KEY_STORE_COMPACTION (R384). -/
  | keyStoreCompaction
  /-- DEBUG_CHALLENGE (R382). -/
  | debugChallenge (inst : Nat)
  /-- GET_WRAP_CERT (R367). -/
  | getWrapCert (inst : Nat)
  /-- GET_VERSION (R368). -/
  | getVersion (inst : Nat)
  /-- GET_CAPABILITIES (R368). -/
  | getCapabilities (inst : Nat)
  /-- NEGOTIATE_ALGORITHMS (R368). -/
  | negotiateAlgorithms (inst : Nat) (mlDsa : Bool) (mlKem : Bool) (sha3 : Bool) (aes : Bool)
  /-- GET_DIGESTS (R368). -/
  | getDigests (inst : Nat)
  /-- GET_CERTIFICATE (R368). -/
  | getCertificate (inst : Nat) (slot : Nat) (offset : Nat) (len : Nat)
  /-- CHALLENGE (R368). -/
  | challenge (inst : Nat) (slot : Nat) (nonce : Nat)
  /-- GET_MEASUREMENTS (R369). -/
  | getMeasurements (inst : Nat) (index : Nat) (nonce : Nat) (sign : Bool)
  /-- KEY_EXCHANGE (R368). -/
  | keyExchange (inst : Nat) (session : Nat)
  /-- FINISH (R368). -/
  | finish (inst : Nat) (session : Nat) (ok : Bool)
  /-- HEARTBEAT (R368). -/
  | heartbeat (inst : Nat) (session : Nat)
  /-- KEY_UPDATE (R368). -/
  | keyUpdate (inst : Nat) (session : Nat)
  /-- END_SESSION (R368). -/
  | endSession (inst : Nat) (session : Nat)
  /-- CHUNK_SEND (R368). -/
  | chunkSend (inst : Nat) (handle : Nat) (seq : Nat) (len : Nat) (last : Bool)
  /-- CHUNK_GET (R368). -/
  | chunkGet (inst : Nat) (handle : Nat) (seq : Nat)
  /-- REGION_CREATE (R404). -/
  | regionCreate (iss : Issuer) (tenant : Nat) (slot : Nat) (twin : Bool) (mirror : Bool) (policy : Nat) (base : Nat) (size : Nat)
  /-- REGION_DESTROY (R404). -/
  | regionDestroy (iss : Issuer) (region : Nat) (gen : Nat)
  /-- REGION_ATTACH (R79). -/
  | regionAttach (iss : Issuer) (region : Nat) (gen : Nat) (gld : Nat)
  /-- REGION_REVOKE (R404). -/
  | regionRevoke (iss : Issuer) (region : Nat) (gen : Nat) (gld : Nat)
  /-- TIER_HINT_PROMOTE (R231). -/
  | tierHintPromote (iss : Issuer) (region : Nat) (gen : Nat) (first : Nat) (count : Nat)
  /-- TIER_HINT_COLD (R231). -/
  | tierHintCold (iss : Issuer) (region : Nat) (gen : Nat) (first : Nat) (count : Nat)
  /-- TIER_HINT_PIN (R229). -/
  | tierHintPin (iss : Issuer) (region : Nat) (gen : Nat) (first : Nat) (count : Nat)
  /-- TIER_HINT_UNPIN (R229). -/
  | tierHintUnpin (iss : Issuer) (region : Nat) (gen : Nat) (first : Nat) (count : Nat)
  /-- COPY (R404). -/
  | copyLines (iss : Issuer) (src : Nat) (srcGen : Nat) (dst : Nat) (dstGen : Nat) (srcOfs : Nat) (dstOfs : Nat) (lines : Nat)
  /-- PERSIST_FENCE (R47). -/
  | persistFence (iss : Issuer) (region : Nat) (gen : Nat) (scope : Nat)
  /-- EVENT_READ (R420). -/
  | eventRead (iss : Issuer) (max : Nat) (ptr : Nat) (ok : Bool)
  /-- LOG_READ (R439). -/
  | logRead (iss : Issuer) (first : Nat) (count : Nat) (len : Nat) (ptr : Nat) (ok : Bool)
  /-- TELEMETRY_READ (R403). -/
  | telemetryRead (iss : Issuer) (page : Nat) (len : Nat) (ptr : Nat) (ok : Bool)
  /-- ATTEST (R370). -/
  | attest (iss : Issuer) (tenant : Nat) (nonce : Nat) (len : Nat) (ptr : Nat) (ok : Bool)
  /-- FW_STAGE (R403). -/
  | fwStage (iss : Issuer) (target : Nat) (offset : Nat) (len : Nat) (ptr : Nat) (content : Option StageData)
  /-- INVALID_OPCODE (R396). -/
  | invalidOpcode (iss : Issuer)
  /-- SQ_TAIL_WRITE (R392). -/
  | sqTailWrite (func : Nat) (ring : Nat) (tail : Nat)
  /-- DESCRIPTOR_FETCH (R393). -/
  | descriptorFetch (func : Nat) (ring : Nat) (got : FetchEnd)
  /-- CQ_HEAD_WRITE (R393). -/
  | cqHeadWrite (func : Nat) (ring : Nat) (head : Nat)
  /-- RING_ENABLE (R390). -/
  | ringEnable (func : Nat) (ring : Nat)
  /-- RING_DISABLE (R390). -/
  | ringDisable (func : Nat) (ring : Nat)
  /-- COMPLETION_SIGNAL_TIMER (R398). -/
  | completionSignalTimer (func : Nat) (ring : Nat)
  /-- SKQ_POP_READ (R412). -/
  | skqPopRead
  /-- DROP_PKT (R411). -/
  | dropPkt
  /-- SKQ_RESET (R412). -/
  | skqReset
  /-- EVENT_REACTION (R418). -/
  | eventReaction
  /-- INT_GAP_EXPIRY (R419). -/
  | intGapExpiry (target : Nat) (vector : Nat)
  /-- BLOCK_RESET_COMPLETE (R423). -/
  | blockResetComplete (block : Nat)
  /-- FIRST_FAULT_LATCH_CLEAR (R426). -/
  | firstFaultLatchClear (c : Nat)
  /-- PULSE_TOGGLE (R427). -/
  | pulseToggle
  /-- PULSE_RUN_WRITE (R430). -/
  | pulseRunWrite (on : Bool)
  /-- ROW_RECORD_ARRIVAL (R433). -/
  | rowRecordArrival
  /-- ROW_PAGE_FLUSH_TIMER (R436). -/
  | rowPageFlushTimer
  /-- ROW_PROGRAM_DONE (R436). -/
  | rowProgramDone (good : Bool)
  /-- ROW_ERASE_DONE (R434). -/
  | rowEraseDone
  /-- ROW_SCAN (R438). -/
  | rowScan
  /-- PWRON_ASSERT (R447). -/
  | pwronAssert
  /-- PWRON_DEASSERT (R450). -/
  | pwronDeassert
  /-- PFAIL_N_ASSERT (R59). -/
  | pfailNAssert
  /-- PFAIL_N_DEASSERT (R448). -/
  | pfailNDeassert
  /-- FLUSH_LINK_DROP (R59). -/
  | flushLinkDrop
  /-- FLUSH_DONE (R59). -/
  | flushDone
  /-- PORST_N_ASSERT (R460). -/
  | porstNAssert
  /-- RST_CTL_CHIP (R460). -/
  | rstCtlChip
  /-- CHIP_RESET (R460). -/
  | chipReset
  /-- SEQ_PG_CHANGE (R445). -/
  | seqPgChange (slot : Nat) (good : Bool) (mv : Nat)
  /-- SEQUENCER_STEP_TIMER (R445). -/
  | sequencerStepTimer
  /-- OFF_WAIT_EXPIRY (R447). -/
  | offWaitExpiry
  /-- PREFLIGHT_TIMEOUT (R447). -/
  | preflightTimeout
  /-- PSQ_CTL_OFF (R450). -/
  | psqCtlOff
  /-- PSQ_CTL_CYCLE (R450). -/
  | psqCtlCycle
  /-- RUNNING_RAIL_FAULT (R451). -/
  | runningRailFault (slot : Nat) (mv : Nat)
  /-- RAIL_GRACE_EXPIRY (R452). -/
  | railGraceExpiry (slot : Nat)
  /-- VDD_FUSE_REQUEST (R453). -/
  | vddFuseRequest (good : Bool)
  /-- VAON_LOW (R454). -/
  | vaonLow
  /-- VAON_RESET (R460). -/
  | vaonReset (rtcKept : Bool) (fuseOk : Bool)
  /-- XTAL_STOP (R458). -/
  | xtalStop
  /-- PLL_LOCK_LOSS (R456). -/
  | pllLockLoss (pll : Nat)
  /-- PLL_RELOCK (R456). -/
  | pllRelock (pll : Nat)
  /-- RTCX_FAILURE (R456). -/
  | rtcxFailure
  /-- VBAT_LOW (R459). -/
  | vbatLow
  /-- REFCLK_LOSS (R456). -/
  | refclkLoss (host : Bool)
  /-- RTC_SET (R459). -/
  | rtcSet (hi : Nat)
  /-- RTC_SECOND_REWRITE (R459). -/
  | rtcSecondRewrite
  /-- WATCHDOG_KICK (R461). -/
  | watchdogKick
  /-- WATCHDOG_EXPIRY (R461). -/
  | watchdogExpiry
  /-- THERMAL_SAMPLE (R478). -/
  | thermalSample (x : SnsSample)
  /-- LIMIT_EFF_RECOMPUTE (R53). -/
  | limitEffRecompute
  /-- FLUSH_EST_UPDATE (R58). -/
  | flushEstUpdate
  /-- LOCK_ALL_WRITE (R487). -/
  | lockAllWrite (value : Nat)
  /-- COUNTER_LO_READ (R184). -/
  | counterLoRead (func : Nat) (addr : RegAddr) (wide : Bool)
  /-- MBOX_GO (R494). -/
  | mboxGo (len : Nat)
  /-- MBOX_ANSWER (R494). -/
  | mboxAnswer (result : Nat) (words : List Word)
  /-- IRQ_ACK (R494). -/
  | irqAck (id : Nat)
  /-- MCTP_BAR0_READ (R486). -/
  | mctpBar0Read (off : Nat) (count : Nat)
  /-- MCTP_BAR0_WRITE (R486). -/
  | mctpBar0Write (off : Nat) (words : List Word)
  /-- REGISTER_WRITE (R484). -/
  | registerWrite (func : Nat) (addr : RegAddr) (width : Nat) (value : Nat)
  /-- CXL_LINK_ERROR (R491). -/
  | cxlLinkError (h : Nat) (kind : Nat) (replay : Bool)
  /-- POISONED_TLP (R76). -/
  | poisonedTlp (h : Nat)
  /-- FEC_UNCORRECTABLE_CODEWORD (R302). -/
  | fecUncorrectableCodeword (port : Nat)
  /-- PFC_PAUSE_LIMIT (R300). -/
  | pfcPauseLimit (port : Nat) (prio : Nat)
  /-- TOKEN_FORWARD_TIMEOUT (R340). -/
  | tokenForwardTimeout
  /-- LOAN_OFFER_TIMER (R350). -/
  | loanOfferTimer
  /-- DRIVE_LINK_UP (R189). -/
  | driveLinkUp (port : Nat) (wide : Bool)
  /-- CALIBRATION_TRACKING_UPDATE (R462). -/
  | calibrationTrackingUpdate (item : Nat) (track : Int)
  /-- RECOVERY_IMAGE (R365). -/
  | recoveryImage (m : FwImage) (ks : KsRead) (stuck : Bool)
  /-- EXTEST_INSTRUCTION_UPDATE (R460). -/
  | extestInstructionUpdate (selected : Bool)
  /-- REGION_LOG_RECORD_PROGRAMMED (R37). -/
  | regionLogRecordProgrammed
  /-- REFEREE_LOG_RECORD_PROGRAMMED (R322). -/
  | refereeLogRecordProgrammed (slot : Nat)
  /-- VIO_AON_OUT_OF_REGULATION (R429). -/
  | vioAonOutOfRegulation
  /-- MSIX_VECTOR_UNMASK (R419). -/
  | msixVectorUnmask (func : Nat) (vector : Option Nat)
  deriving DecidableEq, Repr

end Sys2Proof
end

