-- ==== Sys2Proof/Decode.lean ====
section
/-! DEFINITION. Reading a command from a table word. The device is no processor: its table gives no row any bits, so
no word spells a command. -/

namespace Sys2Proof

/-- The command a word spells: none, since the table gives its rows no bits. -/
def decodeTableWord (_nbits _w : Nat) : Option Instr := none

end Sys2Proof
end

