-- ==== Sys2Proof/Machine/Crypto.lean ====
section
/-! DEFINITION. AES-256-XTS (IEEE 1619), AES-256-GCM (SP 800-38D), SHAKE256 (FIPS 202) and KMAC256 (SP 800-185) for memory lines, packets
and records (R162, R163, R269); the standards themselves are PRESUMED as published (log entry 4). -/

namespace Sys2Proof.Machine

/-- The four quarters of the S-boxes of FIPS 197. -/
def aesSbox0 : List Nat :=
  [99, 124, 119, 123, 242, 107, 111, 197, 48, 1, 103, 43, 254, 215, 171, 118,
   202, 130, 201, 125, 250, 89, 71, 240, 173, 212, 162, 175, 156, 164, 114, 192,
   183, 253, 147, 38, 54, 63, 247, 204, 52, 165, 229, 241, 113, 216, 49, 21,
   4, 199, 35, 195, 24, 150, 5, 154, 7, 18, 128, 226, 235, 39, 178, 117]
def aesSbox1 : List Nat :=
  [9, 131, 44, 26, 27, 110, 90, 160, 82, 59, 214, 179, 41, 227, 47, 132,
   83, 209, 0, 237, 32, 252, 177, 91, 106, 203, 190, 57, 74, 76, 88, 207,
   208, 239, 170, 251, 67, 77, 51, 133, 69, 249, 2, 127, 80, 60, 159, 168,
   81, 163, 64, 143, 146, 157, 56, 245, 188, 182, 218, 33, 16, 255, 243, 210]
def aesSbox2 : List Nat :=
  [205, 12, 19, 236, 95, 151, 68, 23, 196, 167, 126, 61, 100, 93, 25, 115,
   96, 129, 79, 220, 34, 42, 144, 136, 70, 238, 184, 20, 222, 94, 11, 219,
   224, 50, 58, 10, 73, 6, 36, 92, 194, 211, 172, 98, 145, 149, 228, 121,
   231, 200, 55, 109, 141, 213, 78, 169, 108, 86, 244, 234, 101, 122, 174, 8]
def aesSbox3 : List Nat :=
  [186, 120, 37, 46, 28, 166, 180, 198, 232, 221, 116, 31, 75, 189, 139, 138,
   112, 62, 181, 102, 72, 3, 246, 14, 97, 53, 87, 185, 134, 193, 29, 158,
   225, 248, 152, 17, 105, 217, 142, 148, 155, 30, 135, 233, 206, 85, 40, 223,
   140, 161, 137, 13, 191, 230, 66, 104, 65, 153, 45, 15, 176, 84, 187, 22]

/-- S-box. -/
def aesSbox (b : Nat) : Nat := (aesSbox0 ++ aesSbox1 ++ aesSbox2 ++ aesSbox3).getD b 0

/-- The four quarters of the inverse S-box. -/
def aesInv0 : List Nat :=
  [82, 9, 106, 213, 48, 54, 165, 56, 191, 64, 163, 158, 129, 243, 215, 251,
   124, 227, 57, 130, 155, 47, 255, 135, 52, 142, 67, 68, 196, 222, 233, 203,
   84, 123, 148, 50, 166, 194, 35, 61, 238, 76, 149, 11, 66, 250, 195, 78,
   8, 46, 161, 102, 40, 217, 36, 178, 118, 91, 162, 73, 109, 139, 209, 37]
def aesInv1 : List Nat :=
  [114, 248, 246, 100, 134, 104, 152, 22, 212, 164, 92, 204, 93, 101, 182, 146,
   108, 112, 72, 80, 253, 237, 185, 218, 94, 21, 70, 87, 167, 141, 157, 132,
   144, 216, 171, 0, 140, 188, 211, 10, 247, 228, 88, 5, 184, 179, 69, 6,
   208, 44, 30, 143, 202, 63, 15, 2, 193, 175, 189, 3, 1, 19, 138, 107]
def aesInv2 : List Nat :=
  [58, 145, 17, 65, 79, 103, 220, 234, 151, 242, 207, 206, 240, 180, 230, 115,
   150, 172, 116, 34, 231, 173, 53, 133, 226, 249, 55, 232, 28, 117, 223, 110,
   71, 241, 26, 113, 29, 41, 197, 137, 111, 183, 98, 14, 170, 24, 190, 27,
   252, 86, 62, 75, 198, 210, 121, 32, 154, 219, 192, 254, 120, 205, 90, 244]
def aesInv3 : List Nat :=
  [31, 221, 168, 51, 136, 7, 199, 49, 177, 18, 16, 89, 39, 128, 236, 95,
   96, 81, 127, 169, 25, 181, 74, 13, 45, 229, 122, 159, 147, 201, 156, 239,
   160, 224, 59, 77, 174, 42, 245, 176, 200, 235, 187, 60, 131, 83, 153, 97,
   23, 43, 4, 126, 186, 119, 214, 38, 225, 105, 20, 99, 85, 33, 12, 125]

/-- Inverse S-box. -/
def aesInv (b : Nat) : Nat := (aesInv0 ++ aesInv1 ++ aesInv2 ++ aesInv3).getD b 0

/-- Multiplication by x in GF(2^8) modulo `poly`. -/
def gfDouble (poly a : Nat) : Nat := if 128 ≤ a then Nat.xor (2 * a - 256) (poly - 256) else 2 * a

/-- Product in GF(2^8): the bits of `b` from the lowest, `n` of them. -/
def gfMulAux (poly : Nat) : Nat → Nat → Nat → Nat
  | 0, _, _ => 0
  | n + 1, a, b => Nat.xor (if b % 2 = 1 then a else 0) (gfMulAux poly n (gfDouble poly a) (b / 2))

/-- Product in GF(2^8) modulo `poly`. -/
def gfMul (poly a b : Nat) : Nat := gfMulAux poly 8 a b

/-- XOR of two byte lists. -/
def xorBytes (a b : List Nat) : List Nat := List.zipWith Nat.xor a b

/-- Little-endian bytes of a number, and the number of a byte list. -/
def bytesOf : Nat → Nat → List Nat
  | 0, _ => []
  | n + 1, v => v % 256 :: bytesOf n (v / 256)
def numOf (l : List Nat) : Nat := l.foldr (fun b a => b + 256 * a) 0

/-- One word of the AES-256 key schedule: `i` is its number, `prev` the word before, `back` the word eight before. -/
def aesNext (i : Nat) (prev back : List Nat) : List Nat :=
  let rcon := (List.range (i / 8 - 1)).foldl (fun r _ => gfDouble 0x11B r) 1
  let f := if i % 8 = 0 then xorBytes ((prev.drop 1 ++ prev.take 1).map aesSbox) [rcon, 0, 0, 0]
    else if i % 8 = 4 then prev.map aesSbox else prev
  xorBytes back f

/-- The key schedule, words in order: `n` words still to make. -/
def aesExpand : Nat → List (List Nat) → List (List Nat)
  | 0, w => w
  | n + 1, w => aesExpand n (w ++ [aesNext w.length (w.getD (w.length - 1) []) (w.getD (w.length - 8) [])])

/-- Round keys 0–14 of a 256-bit key, 16 bytes each. -/
def aesKeys (k : BitVec 256) : List (List Nat) :=
  let b := bytesOf 32 k.toNat
  let w := aesExpand 52 ((List.range 8).map fun i => (b.drop (4 * i)).take 4)
  (List.range 15).map fun r => ((w.drop (4 * r)).take 4).flatten

/-- ShiftRows and its inverse on a state of 16 bytes in column order. -/
def aesShift (s : List Nat) : List Nat := (List.range 16).map fun i => s.getD ((i + 4 * (i % 4)) % 16) 0
def aesUnshift (s : List Nat) : List Nat := (List.range 16).map fun i => s.getD ((i + 16 - 4 * (i % 4)) % 16) 0

/-- Multiply each column by a circulant matrix. -/
def aesMix (m : List Nat) (s : List Nat) : List Nat :=
  (List.range 16).map fun i => (List.range 4).foldl
    (fun a j => Nat.xor a (gfMul 0x11B (m.getD ((j + 4 - i % 4) % 4) 0) (s.getD (i / 4 * 4 + j) 0))) 0

/-- AES-256 encryption of one block. -/
def aesEnc (ks : List (List Nat)) (p : List Nat) : List Nat :=
  let s := (List.range 13).foldl
    (fun s r => xorBytes (aesMix [2, 3, 1, 1] (aesShift (s.map aesSbox))) (ks.getD (r + 1) [])) (xorBytes p (ks.getD 0 []))
  xorBytes (aesShift (s.map aesSbox)) (ks.getD 14 [])

/-- AES-256 decryption of one block. -/
def aesDec (ks : List (List Nat)) (c : List Nat) : List Nat :=
  let s := (List.range 13).foldl
    (fun s r => aesMix [14, 11, 13, 9] (xorBytes ((aesUnshift s).map aesInv) (ks.getD (13 - r) []))) (xorBytes c (ks.getD 14 []))
  xorBytes ((aesUnshift s).map aesInv) (ks.getD 0 [])

/-- Tweak of block j: T × α^j, in the byte order of IEEE 1619. -/
def xtsDouble (t : Nat) : Nat := if 2 ^ 127 ≤ t then Nat.xor (2 * t - 2 ^ 128) 0x87 else 2 * t
def xtsTweak : Nat → Nat → Nat
  | 0, t => t
  | j + 1, t => xtsTweak j (xtsDouble t)

/-- A line through XTS under K1, K2 with its byte address as tweak value (R162). -/
def xtsLine (enc : Bool) (k1 k2 : BitVec 256) (line : Nat) (d : LineData) : LineData :=
  let ks := aesKeys k1
  let t := numOf (aesEnc (aesKeys k2) (bytesOf 16 (line * 64)))
  BitVec.ofNat 512 (numOf ((List.range 4).flatMap fun j =>
    let tw := bytesOf 16 (xtsTweak j t)
    let b := xorBytes (bytesOf 16 (d.toNat / 2 ^ (128 * j))) tw
    xorBytes (if enc then aesEnc ks b else aesDec ks b) tw))

/-- Round constants, first and second half, and rotation counts of Keccak-f[1600]. -/
def keccakRc0 : List Nat :=
  [1, 32898, 9223372036854808714, 9223372039002292224, 32907, 2147483649, 9223372039002292353, 9223372036854808585, 138, 136, 2147516425, 2147483658]
def keccakRc1 : List Nat :=
  [2147516555, 9223372036854775947, 9223372036854808713, 9223372036854808579, 9223372036854808578, 9223372036854775936, 32778, 9223372039002259466, 9223372039002292353, 9223372036854808704, 2147483649, 9223372039002292232]
def keccakRot : List Nat :=
  [0, 1, 62, 28, 27, 36, 44, 6, 55, 20, 3, 10, 43, 25, 39, 41, 45, 15, 21, 8, 18, 2, 61, 56, 14]

/-- Rotation of a 64-bit lane. -/
def rot64 (n v : Nat) : Nat := if n = 0 then v else v % 2 ^ (64 - n) * 2 ^ n + v / 2 ^ (64 - n)

/-- One round of Keccak-f[1600] on 25 lanes, lane (x, y) at 5y + x. -/
def keccakRound (rc : Nat) (a : List Nat) : List Nat :=
  let c := (List.range 5).map fun x => (List.range 5).foldl (fun v y => Nat.xor v (a.getD (5 * y + x) 0)) 0
  let d := (List.range 5).map fun x => Nat.xor (c.getD ((x + 4) % 5) 0) (rot64 1 (c.getD ((x + 1) % 5) 0))
  let th := (List.range 25).map fun i => rot64 (keccakRot.getD i 0) (Nat.xor (a.getD i 0) (d.getD (i % 5) 0))
  -- π: lane (y, 2x + 3y) takes lane (x, y), so lane (X, Y) takes lane (X + 3Y, X)
  let pi := (List.range 25).map fun i => th.getD (5 * (i % 5) + (i % 5 + 3 * (i / 5)) % 5) 0
  let ch := (List.range 25).map fun i =>
    let y := 5 * (i / 5)
    Nat.xor (pi.getD i 0) (Nat.land (2 ^ 64 - 1 - pi.getD (y + (i + 1) % 5) 0) (pi.getD (y + (i + 2) % 5) 0))
  match ch with
  | [] => []
  | h :: r => Nat.xor h rc :: r

/-- Keccak-f[1600]. -/
def keccakF (a : List Nat) : List Nat := (keccakRc0 ++ keccakRc1).foldl (fun a rc => keccakRound rc a) a

/-- Absorb `n` blocks of 136 bytes (rate of 256-bit strength). -/
def keccakAbsorb : Nat → List Nat → List Nat → List Nat
  | 0, a, _ => a
  | n + 1, a, m =>
    let b := m.take 136
    keccakAbsorb n (keccakF ((List.range 25).map fun i => Nat.xor (a.getD i 0) (numOf ((b.drop (8 * i)).take 8)))) (m.drop 136)

/-- left_encode and right_encode of values below 65,536, and encode_string and bytepad of SP 800-185. -/
def leftEncode (v : Nat) : List Nat := if v < 256 then [1, v] else [2, v / 256, v % 256]
def rightEncode (v : Nat) : List Nat := if v < 256 then [v, 1] else [v / 256, v % 256, 2]
def encodeString (s : List Nat) : List Nat := leftEncode (8 * s.length) ++ s
def bytepad (x : List Nat) : List Nat :=
  let y := leftEncode 136 ++ x
  y ++ List.replicate (ceilDiv y.length 136 * 136 - y.length) 0

/-- KMAC256(K, X, L, S), output of at most 136 bytes (SP 800-185). -/
def kmac256 (k x : List Nat) (lBits : Nat) (custom : List Nat) : List Nat :=
  let m := bytepad (encodeString [75, 77, 65, 67] ++ encodeString custom) ++ bytepad (encodeString k) ++ x ++ rightEncode lBits
  let n := m.length / 136 + 1
  let pad := 136 * n - m.length
  let p := if pad = 1 then [0x84] else 0x04 :: (List.replicate (pad - 2) 0 ++ [0x80])
  ((keccakAbsorb n (List.replicate 25 0) (m ++ p)).flatMap fun v => bytesOf 8 v).take (lBits / 8)

/-- SHAKE256 of a message, output of at most 136 bytes (FIPS 202). -/
def shake256 (m : List Nat) (bytes : Nat) : List Nat :=
  let n := m.length / 136 + 1
  let pad := 136 * n - m.length
  let p := if pad = 1 then [0x9F] else 0x1F :: (List.replicate (pad - 2) 0 ++ [0x80])
  ((keccakAbsorb n (List.replicate 25 0) (m ++ p)).flatMap fun v => bytesOf 8 v).take bytes

/-- Product in GF(2^128) as GCM takes it (SP 800-38D), the first bit of a block being its most significant: `n` bits of `x` still to go. -/
def ghashMulAux : Nat → Nat → Nat → Nat → Nat
  | 0, _, _, z => z
  | n + 1, x, v, z =>
    ghashMulAux n x (if v % 2 = 1 then Nat.xor (v / 2) (225 * 2 ^ 120) else v / 2) (if x.testBit n then Nat.xor z v else z)
def ghashMul (x h : Nat) : Nat := ghashMulAux 128 x h 0

/-- Number of a byte list whose first byte is the most significant. -/
def beNum (l : List Nat) : Nat := l.foldl (fun a b => a * 256 + b) 0

/-- `n` blocks of 16 bytes, the last one filled up with zeros. -/
def blocks16 : Nat → List Nat → List (List Nat)
  | 0, _ => []
  | n + 1, m => (m.take 16 ++ List.replicate (16 - (m.take 16).length) 0) :: blocks16 n (m.drop 16)
def blocksOf (m : List Nat) : List (List Nat) := blocks16 (ceilDiv m.length 16) m

/-- GHASH of the AAD and the ciphertext with their lengths. -/
def ghash (h : Nat) (aad c : List Nat) : Nat :=
  let lens := (bytesOf 8 (8 * aad.length)).reverse ++ (bytesOf 8 (8 * c.length)).reverse
  (blocksOf aad ++ blocksOf c ++ [lens]).foldl (fun y b => ghashMul (Nat.xor y (beNum b)) h) 0

/-- AES-256-GCM with a 12-byte IV (SP 800-38D): ciphertext and the 16-byte ICV as a number, its first byte lowest. -/
def gcmSeal (key : BitVec 256) (iv aad plain : List Nat) : List Nat × Nat :=
  let ks := aesKeys key
  let block := fun (i : Nat) => aesEnc ks (iv ++ (bytesOf 4 i).reverse)
  let c := (List.range (ceilDiv plain.length 16)).flatMap fun i => xorBytes ((plain.drop (16 * i)).take 16) (block (i + 2))
  let g := ghash (beNum (aesEnc ks (List.replicate 16 0))) aad c
  (c, numOf (xorBytes (bytesOf 16 g).reverse (block 1)))

/-- "NX9620 LINE" (R163). -/
def lineCustom : List Nat := [78, 88, 57, 54, 50, 48, 32, 76, 73, 78, 69]

/-- Tag of a line (R163). -/
def lineTag (ktag : BitVec 256) (line : Nat) (epoch : BitVec 5) (c : LineData) : BitVec 56 :=
  BitVec.ofNat 56 (numOf (kmac256 (bytesOf 32 ktag.toNat)
    (bytesOf 64 c.toNat ++ bytesOf 8 (line % 2 ^ 40) ++ [epoch.toNat]) 56 lineCustom))

/-- "NX9620 KFP" (R308). -/
def kfpCustom : List Nat := [78, 88, 57, 54, 50, 48, 32, 75, 70, 80]

/-- Key fingerprint under the pair secret (R308). -/
def keyFingerprint (secret k1 k2 ktag : BitVec 256) : BitVec 64 :=
  BitVec.ofNat 64 (numOf (kmac256 (bytesOf 32 secret.toNat)
    (bytesOf 32 k1.toNat ++ bytesOf 32 k2.toNat ++ bytesOf 32 ktag.toNat) 64 kfpCustom))

end Sys2Proof.Machine
end

