-- ==== Sys2Proof/Config.lean ====
section
/-! DEFINITION. What the spec leaves open: constants without a body, so that no proof can see a value of one
(log entry 3). -/

namespace Sys2Proof

/-- The free choices of R92, R94, R217, R350 and the like (which way, which frame, which run), by the count of
choices made so far. -/
opaque Config.pick : Nat → Nat

/-- A value the spec does not state, by the count of choices made so far. -/
opaque Config.value : Nat → Nat

/-- A nonce or random value of the island's TRNG, by the count of choices made so far. -/
opaque Config.random : Nat → Nat

/-- The permutation that maps a DPA line to its line-cache set; the spec says only that it is a hash (R92). -/
opaque Config.lcSet : Nat → Nat

/-- The set of the frame-map cache that a frame-map line goes to; the spec gives the sets and no hash (R213). -/
opaque Config.fmSet : Nat → Nat

/-- The JEDEC default of the DRAM VrefDQ code, which the spec names and does not give (R152). -/
opaque Config.vrefDq : Nat

/-- The unique device secret, fused and shown nowhere (R366). -/
opaque Config.uds : BitVec 256

/-- The 64-bit check value of a memory slot's material under a fused key (R168), by the material. -/
opaque Config.slotCheck : List Nat → BitVec 64

/-- How much the retry of a cipher check lengthens its request, in 1/3696 ns (R178), by the count of choices made so far. -/
opaque Config.retryTime : Nat → Nat

/-- Layers 0 and 1 of a CAL item: the built-in default and the factory fuses of the device (R462). -/
opaque Config.calDefault : Nat → Int
opaque Config.calFuse : Nat → Int

/-- The credential hash shown for an owner's public key (R387), by the key. -/
opaque Config.credHash : Nat → Nat

/-- A SHAKE256-256 or certificate digest whose input the spec does not lay out byte by byte, and a signature over such an input,
by the values that go into it. -/
opaque Config.hash256 : List Nat → Nat

/-- An ATTEST report as bytes in host memory (R370), by the values it holds; the spec lays out no report. -/
opaque Config.report : List Nat → List (BitVec 64)

/-- The boot ROM version with ROOT_HASH, as measurement 1 shows them (R369). -/
opaque Config.romValue : Nat

/-- What a register shows that samples a unit whose steps the spec does not give (a core's PC and counters), by the
register's offset in BAR0 and the FCLK count (R493, R494). -/
opaque Config.sample : Nat → Nat → Nat

/-- Where a skein queue's buffer starts in the skein storage (R412), by queue number. -/
opaque Config.skeinBase : Nat → Nat

/-- The size of a skein queue that *Exposed queues* does not name, as its power of two less 4 (R407), by queue number. -/
opaque Config.skeinSize : Nat → Nat

end Sys2Proof
end

