-- ==== Sys2Proof/Machine/RegTypes.lean ====
section
/-! DEFINITION. What a register field is: its place, width, access (R483, R484) and reset value. -/

namespace Sys2Proof.Machine

/-- Access of a register field, as the register tables name it (R10, R484). -/
inductive Acc | ro | rof | rs | rw | rwl | wo | w1s | w1c
  deriving DecidableEq, Repr

/-- A named field: the BAR0 byte offset of its word, its low bit, its width and its reset value. -/
structure Field where
  addr : Nat
  lo : Nat
  width : Nat
  reset : Nat
  deriving DecidableEq, Repr

/-- A field inside a word of a register table; `range` is the closed range its Meaning allows a write (R484). -/
structure RegField where
  lo : Nat
  width : Nat
  acc : Acc
  reset : Nat
  range : Option (Nat × Nat)
  /-- reset value by index, where the table gives one per element of the array -/
  resets : List Nat
  deriving DecidableEq, Repr

/-- A word, or an array of words, of a register table: offset from the block's base, stride and count of
each index (largest stride first), and the fields. -/
structure RegTmpl where
  base : Nat
  dims : List (Nat × Nat)
  fields : List RegField
  deriving DecidableEq, Repr

/-- The key of a field in the register store. -/
def Field.key (f : Field) : Nat := f.addr * 32 + f.lo

end Sys2Proof.Machine
end

