-- ==== Sys2Proof/Machine/RegTable.lean ====
section
/-! DEFINITION. The register tables of the spec: one constant per named field of every register of the
management BAR0 (R482), and per block the list of its words with the access and reset of every field. -/

namespace Sys2Proof.Machine

/-- The built-in step program of R446, as step words: the reset contents of PSQ.PROG (the spec gives none). -/
def regProgReset : List Nat := [268451458, 285228674, 302021890, 318783106, 335560322, 352337538, 369114754, 385891968, 402669184, 1073743424, 0, 0, 0, 0, 0, 0, 0, 0, 0, 0, 0, 0, 0, 0, 0, 0, 0, 0, 0, 0, 0, 0, 671091841, 654314624, 637537408, 620760192, 872447232, 855670016, 838940800, 553651328, 536878912, 0, 0, 0, 0, 0, 0, 0, 0, 0, 0, 0, 0, 0, 0, 0, 0, 0, 0, 0, 0, 0, 0, 0]

/-- Requested limit in granules. A write above 0x300_0000 stores 0x300_0000. [25:0] -/
def Reg.HLD.DIRTY_LIMIT.LIMIT : Field := ⟨0x6c0000, 0, 26, 50331648⟩
/-- Energy available for flush, in J. 0 = not configured (R57). [15:0] -/
def Reg.HLD.HOLD_ENERGY.HOLD_ENERGY_J : Field := ⟨0x6c0004, 0, 16, 0⟩
/-- All DIMMs' power during flush, in W [11:0] -/
def Reg.HLD.FLUSH_LOAD.P_DIMM_W : Field := ⟨0x6c0008, 0, 12, 0⟩
/-- All drives' power during flush, in W [23:12] -/
def Reg.HLD.FLUSH_LOAD.P_DRIVE_W : Field := ⟨0x6c0008, 12, 12, 0⟩
/-- Time from Flush issued until the slowest drive completes, in ms [9:0] -/
def Reg.HLD.PLP_TIME.T_PLP_MS : Field := ⟨0x6c000c, 0, 10, 100⟩
/-- SOFT threshold, % of LIMIT_EFF [6:0] -/
def Reg.HLD.THRESH.SOFT_PCT : Field := ⟨0x6c0010, 0, 7, 75⟩
/-- THROTTLE threshold, %. A write that breaks SOFT_PCT < THROTTLE_PCT < 100 is discarded. [14:8] -/
def Reg.HLD.THRESH.THROTTLE_PCT : Field := ⟨0x6c0010, 8, 7, 90⟩
/-- 1 = the RWL fields of HLD are read-only [0:0] -/
def Reg.HLD.LOCK.LOCK : Field := ⟨0x6c0014, 0, 1, 0⟩
/-- Effective limit (R53) [25:0] -/
def Reg.HLD.LIMIT_EFF.LIMIT_EFF : Field := ⟨0x6c0018, 0, 26, 0⟩
/-- Deciding term: 0 = DIRTY_LIMIT, 1 = energy, 2 = 48 Mi cap, 3 = unconfigured; ties as R497 [27:26] -/
def Reg.HLD.LIMIT_EFF.SRC : Field := ⟨0x6c0018, 26, 2, 3⟩
/-- Dirty granules (R52) [25:0] -/
def Reg.HLD.DIRTY_COUNT.COUNT : Field := ⟨0x6c001c, 0, 26, 0⟩
/-- COUNT × 4,096 / rate + T_PLP_MS, in ms, rounded up to whole ms and saturating at 0xFFFF; 0 [15:0] -/
def Reg.HLD.FLUSH_EST.T_FLUSH_MS : Field := ⟨0x6c0020, 0, 16, 0⟩
/-- Healthy drives in the rate term [19:16] -/
def Reg.HLD.FLUSH_EST.DRIVES : Field := ⟨0x6c0020, 16, 4, 0⟩
/-- 0 RUN, 1 SOFT, 2 THROTTLE, 3 STOP, 4 FLUSH, 5 FLUSH_DONE; other values are reserved (R496, [2:0] -/
def Reg.HLD.STATUS.STATE : Field := ⟨0x6c0024, 0, 3, 3⟩
/-- 1 while HOLD_ENERGY_J = 0 [3:3] -/
def Reg.HLD.STATUS.UNCONFIG : Field := ⟨0x6c0024, 3, 1, 1⟩
/-- Writes held by R54 or R46; saturates [30:0] -/
def Reg.HLD.HELD_CTR.COUNT : Field := ⟨0x6c0028, 0, 31, 0⟩
/-- Sticky saturation. Writing 1 clears SAT and COUNT. [31:31] -/
def Reg.HLD.HELD_CTR.SAT : Field := ⟨0x6c0028, 31, 1, 0⟩
/-- Dirty shutdown count, persisted in the image header; saturates at 0xFFFF_FFFF [31:0] -/
def Reg.HLD.DSC.COUNT : Field := ⟨0x6c002c, 0, 32, 0⟩
/-- 0 = 1×x16, 1 = 2×x8, 2 = 4×x4; 3 reserved, a write of 3 is discarded [1:0] -/
def Reg.HP.PORT_CFG.BIFUR (n : Nat) : Field := ⟨0x40000 + 0x40000 * n, 0, 2, 0⟩
/-- 0 = 64 GT/s, 1 = 32 GT/s, 2 = 16 GT/s; 3 reserved [3:2] -/
def Reg.HP.PORT_CFG.MAX_RATE (n : Nat) : Field := ⟨0x40000 + 0x40000 * n, 2, 2, 0⟩
/-- 1 = lane reversal allowed [4:4] -/
def Reg.HP.PORT_CFG.LANE_REV (n : Nat) : Field := ⟨0x40000 + 0x40000 * n, 4, 1, 1⟩
/-- 1 = train (R67) [5:5] -/
def Reg.HP.PORT_CFG.ENABLE (n : Nat) : Field := ⟨0x40000 + 0x40000 * n, 5, 1, 0⟩
/-- 1 = PORT_CFG and HEAD_CFG are read-only until chip reset [0:0] -/
def Reg.HP.LOCK.LOCK (n : Nat) : Field := ⟨0x40004 + 0x40000 * n, 0, 1, 0⟩
/-- Set when an ENABLE is refused (R67) [0:0] -/
def Reg.HP.PORT_STS.CFG_ERR (n : Nat) : Field := ⟨0x40008 + 0x40000 * n, 0, 1, 0⟩
/-- PERST_Nn sampled level, one copy per head, 1 = asserted [4:1] -/
def Reg.HP.PORT_STS.PERST (n : Nat) : Field := ⟨0x40008 + 0x40000 * n, 1, 4, 0⟩
/-- 0 = head disabled; 1 = SLD; 2–16 = MLD; 17–31 reserved [4:0] -/
def Reg.HP.HEAD_CFG.LD_CNT (n h : Nat) : Field := ⟨0x40010 + 0x40000 * n + 0x4 * h, 0, 5, 0⟩
/-- First global LD, 0–63 [10:5] -/
def Reg.HP.HEAD_CFG.GLD_BASE (n h : Nat) : Field := ⟨0x40010 + 0x40000 * n + 0x4 * h, 5, 6, 0⟩
/-- 1 = host may select skid mode [12:12] -/
def Reg.HP.HEAD_CFG.IDE_SKID_OK (n h : Nat) : Field := ⟨0x40010 + 0x40000 * n + 0x4 * h, 12, 1, 1⟩
/-- 1 = host may select containment mode [13:13] -/
def Reg.HP.HEAD_CFG.IDE_CONT_OK (n h : Nat) : Field := ⟨0x40010 + 0x40000 * n + 0x4 * h, 13, 1, 1⟩
/-- 1 = CXL.mem is not enabled until the IDE stream is Secure (R82) [14:14] -/
def Reg.HP.HEAD_CFG.IDE_REQ (n h : Nat) : Field := ⟨0x40010 + 0x40000 * n + 0x4 * h, 14, 1, 0⟩
/-- 1 = this head carries the management function (R68) [15:15] -/
def Reg.HP.HEAD_CFG.MGMT (n h : Nat) : Field := ⟨0x40010 + 0x40000 * n + 0x4 * h, 15, 1, 0⟩
/-- 0 down, 1 2.5, 2 5.0, 3 8.0, 4 16, 5 32, 6 64 GT/s; 7 reserved [2:0] -/
def Reg.HP.LINK_STS.RATE (n h : Nat) : Field := ⟨0x40020 + 0x40000 * n + 0x4 * h, 0, 3, 0⟩
/-- Lanes: 0, 1, 2, 4, 8 or 16 [7:3] -/
def Reg.HP.LINK_STS.WIDTH (n h : Nat) : Field := ⟨0x40020 + 0x40000 * n + 0x4 * h, 3, 5, 0⟩
/-- 0 non-flit, 1 68B, 2 256B standard, 3 256B latency-optimized [9:8] -/
def Reg.HP.LINK_STS.FLIT (n h : Nat) : Field := ⟨0x40020 + 0x40000 * n + 0x4 * h, 8, 2, 0⟩
/-- CXL.mem enabled [10:10] -/
def Reg.HP.LINK_STS.MEM_EN (n h : Nat) : Field := ⟨0x40020 + 0x40000 * n + 0x4 * h, 10, 1, 0⟩
/-- Memory_Active reported to the host [11:11] -/
def Reg.HP.LINK_STS.MEM_ACTIVE (n h : Nat) : Field := ⟨0x40020 + 0x40000 * n + 0x4 * h, 11, 1, 0⟩
/-- 0 off, 1 Secure, 2 Insecure; 3 reserved [13:12] -/
def Reg.HP.LINK_STS.IDE (n h : Nat) : Field := ⟨0x40020 + 0x40000 * n + 0x4 * h, 12, 2, 0⟩
/-- 0 skid, 1 containment; valid while IDE = 1 [14:14] -/
def Reg.HP.LINK_STS.IDE_CONT (n h : Nat) : Field := ⟨0x40020 + 0x40000 * n + 0x4 * h, 14, 1, 0⟩
/-- 1 = install lines read from tier L [0:0] -/
def Reg.LC.CFG.RD_ALLOC : Field := ⟨0x180000, 0, 1, 1⟩
/-- 1 = install lines answered from N or F [1:1] -/
def Reg.LC.CFG.NF_ALLOC : Field := ⟨0x180000, 1, 1, 0⟩
/-- Maximum DIRTY ways per set, 1–12. A write of 0 or 13–15 is discarded. [5:2] -/
def Reg.LC.CFG.DIRTY_WAYS : Field := ⟨0x180000, 2, 4, 8⟩
/-- DIRTY lines in arrays and buffers [20:0] -/
def Reg.LC.STS.DIRTY_LINES : Field := ⟨0x180004, 0, 21, 0⟩
/-- Read hits, bits 31:0. A read latches HIT_HI. [31:0] -/
def Reg.LC.HIT_LO.COUNT : Field := ⟨0x180010, 0, 32, 0⟩
/-- Read hits, bits 47:32. Wraps and raises EV 0x060. [15:0] -/
def Reg.LC.HIT_HI.COUNT : Field := ⟨0x180014, 0, 16, 0⟩
/-- Read misses, bits 31:0. A read latches MISS_HI. [31:0] -/
def Reg.LC.MISS_LO.COUNT : Field := ⟨0x180018, 0, 32, 0⟩
/-- Read misses, bits 47:32. Wraps and raises EV 0x060. [15:0] -/
def Reg.LC.MISS_HI.COUNT : Field := ⟨0x18001c, 0, 16, 0⟩
/-- Writes accepted, bits 31:0. A read latches WR_HI. [31:0] -/
def Reg.LC.WR_LO.COUNT : Field := ⟨0x180020, 0, 32, 0⟩
/-- Writes accepted, bits 47:32. Wraps and raises EV 0x060. [15:0] -/
def Reg.LC.WR_HI.COUNT : Field := ⟨0x180024, 0, 16, 0⟩
/-- FCLK cycles during which any write waited for a write-accept entry. Saturates. [30:0] -/
def Reg.LC.WAB_STALL.COUNT : Field := ⟨0x180028, 0, 31, 0⟩
/-- Sticky saturation. Writing 1 clears SAT and COUNT. [31:31] -/
def Reg.LC.WAB_STALL.SAT : Field := ⟨0x180028, 31, 1, 0⟩
/-- 1 = patrol scrub runs (R118) [0:0] -/
def Reg.ECS.CFG.SCRUB_EN : Field := ⟨0x580000, 0, 1, 1⟩
/-- 1 = demand scrub write-back (R120) [1:1] -/
def Reg.ECS.CFG.DEMAND_WB : Field := ⟨0x580000, 1, 1, 1⟩
/-- 1 = mark failed devices and decode with erasures (R112) [2:2] -/
def Reg.ECS.CFG.ERASURE_EN : Field := ⟨0x580000, 2, 1, 1⟩
/-- Bit n = channel n filled; set at once for an unpopulated channel [11:0] -/
def Reg.ECS.FILL_STS.CH_DONE : Field := ⟨0x580004, 0, 12, 0⟩
/-- Bit n = channel n failed training or fill (R129) [23:12] -/
def Reg.ECS.FILL_STS.CH_ERR : Field := ⟨0x580004, 12, 12, 0⟩
/-- Every populated channel filled without error [24:24] -/
def Reg.ECS.FILL_STS.ALL_DONE : Field := ⟨0x580004, 24, 1, 0⟩
/-- Lowest channel progress, 0–100 [6:0] -/
def Reg.ECS.FILL_PROG.PCT : Field := ⟨0x580008, 0, 7, 0⟩
/-- Device-counter threshold (R114); 0 = never mark [15:0] -/
def Reg.ECS.DEV_THRESH.THRESH : Field := ⟨0x580010, 0, 16, 64⟩
/-- Seconds per decrement; 0 = no leak [31:16] -/
def Reg.ECS.DEV_THRESH.LEAK_S : Field := ⟨0x580010, 16, 16, 3600⟩
/-- 0 LC, 1 MDC, 2 frame-map cache, 3 skein storage, 4 internal paths; 5–7 reserved, a write o [2:0] -/
def Reg.ECS.SRAM_INJ.TARGET : Field := ⟨0x580014, 0, 3, 0⟩
/-- First bit to flip, 0–136 [10:3] -/
def Reg.ECS.SRAM_INJ.BIT_A : Field := ⟨0x580014, 3, 8, 0⟩
/-- Second bit, used when TWO = 1 [18:11] -/
def Reg.ECS.SRAM_INJ.BIT_B : Field := ⟨0x580014, 11, 8, 0⟩
/-- 1 = flip both bits [19:19] -/
def Reg.ECS.SRAM_INJ.TWO : Field := ⟨0x580014, 19, 1, 0⟩
/-- 1 = apply to the next word; clears on use (R125) [20:20] -/
def Reg.ECS.SRAM_INJ.ARM : Field := ⟨0x580014, 20, 1, 0⟩
/-- SRAM single-bit corrections [30:0] -/
def Reg.ECS.SRAM_CE.COUNT : Field := ⟨0x580018, 0, 31, 0⟩
/-- Sticky saturation [31:31] -/
def Reg.ECS.SRAM_CE.SAT : Field := ⟨0x580018, 31, 1, 0⟩
/-- SRAM uncorrectable words [30:0] -/
def Reg.ECS.SRAM_UE.COUNT : Field := ⟨0x58001c, 0, 31, 0⟩
/-- Sticky saturation [31:31] -/
def Reg.ECS.SRAM_UE.SAT : Field := ⟨0x58001c, 31, 1, 0⟩
/-- Internal path single-bit corrections [30:0] -/
def Reg.ECS.PATH_CE.COUNT : Field := ⟨0x580020, 0, 31, 0⟩
/-- Sticky saturation [31:31] -/
def Reg.ECS.PATH_CE.SAT : Field := ⟨0x580020, 31, 1, 0⟩
/-- Internal path uncorrectable words [30:0] -/
def Reg.ECS.PATH_UE.COUNT : Field := ⟨0x580024, 0, 31, 0⟩
/-- Sticky saturation [31:31] -/
def Reg.ECS.PATH_UE.SAT : Field := ⟨0x580024, 31, 1, 0⟩
/-- Entries in the poison index, 0–65,536 [16:0] -/
def Reg.ECS.POISON_IDX.ENTRIES : Field := ⟨0x580028, 0, 17, 0⟩
/-- Index overflowed (R122) [17:17] -/
def Reg.ECS.POISON_IDX.OVF : Field := ⟨0x580028, 17, 1, 0⟩
/-- Patrol pass interval, 1–255 h; a write of 0 is discarded [7:0] -/
def Reg.ECSC.SCRUB_CFG.INTERVAL_H (n : Nat) : Field := ⟨0x581000 + 0x100 * n, 0, 8, 24⟩
/-- Progress of the current pass [6:0] -/
def Reg.ECSC.SCRUB_STS.PASS_PCT (n : Nat) : Field := ⟨0x581004 + 0x100 * n, 0, 7, 0⟩
/-- A pass ended late (R119) [7:7] -/
def Reg.ECSC.SCRUB_STS.LATE (n : Nat) : Field := ⟨0x581004 + 0x100 * n, 7, 1, 0⟩
/-- Completed passes [23:8] -/
def Reg.ECSC.SCRUB_STS.PASSES (n : Nat) : Field := ⟨0x581004 + 0x100 * n, 8, 16, 0⟩
/-- PASSES saturated [24:24] -/
def Reg.ECSC.SCRUB_STS.SAT (n : Nat) : Field := ⟨0x581004 + 0x100 * n, 24, 1, 0⟩
/-- Current channel address bits 38:12 [26:0] -/
def Reg.ECSC.SCRUB_POS.GRANULE (n : Nat) : Field := ⟨0x581008 + 0x100 * n, 0, 27, 0⟩
/-- This channel's fill progress [6:0] -/
def Reg.ECSC.FILL_PROG.PCT (n : Nat) : Field := ⟨0x58100c + 0x100 * n, 0, 7, 0⟩
/-- Real corrections at new history addresses [30:0] -/
def Reg.ECSC.CE_CTR.COUNT (n : Nat) : Field := ⟨0x581010 + 0x100 * n, 0, 31, 0⟩
/-- Sticky saturation [31:31] -/
def Reg.ECSC.CE_CTR.SAT (n : Nat) : Field := ⟨0x581010 + 0x100 * n, 31, 1, 0⟩
/-- Uncorrectable lines [30:0] -/
def Reg.ECSC.UE_CTR.COUNT (n : Nat) : Field := ⟨0x581014 + 0x100 * n, 0, 31, 0⟩
/-- Sticky saturation [31:31] -/
def Reg.ECSC.UE_CTR.SAT (n : Nat) : Field := ⟨0x581014 + 0x100 * n, 31, 1, 0⟩
/-- EV 0x161 when CE_CTR reaches this value [30:0] -/
def Reg.ECSC.CE_THRESH.THRESH (n : Nat) : Field := ⟨0x581018 + 0x100 * n, 0, 31, 4096⟩
/-- Byte k is pair k (0–3): bit 7 VALID, bits 3:0 device 0–9, bits 6:4 reserved. A VALID byte  [31:0] -/
def Reg.ECSC.FAILED_DEV0.PAIR (n : Nat) : Field := ⟨0x58101c + 0x100 * n, 0, 32, 0⟩
/-- As FAILED_DEV0, for pairs 4–7 [31:0] -/
def Reg.ECSC.FAILED_DEV1.PAIR (n : Nat) : Field := ⟨0x581020 + 0x100 * n, 0, 32, 0⟩
/-- k = 0–4; symbol s = 4k + i in bits 8i + 7:8i [31:0] -/
def Reg.ECSC.INJ_MASK.MASK (n k : Nat) : Field := ⟨0x581024 + 0x100 * n + 0x4 * k, 0, 32, 0⟩
/-- 1 = inject into the next matching write; clears on use [0:0] -/
def Reg.ECSC.INJ_CTL.ARM (n : Nat) : Field := ⟨0x581038 + 0x100 * n, 0, 1, 0⟩
/-- 1 = match INJ_ADDR and LINE only [1:1] -/
def Reg.ECSC.INJ_CTL.ADDR_EN (n : Nat) : Field := ⟨0x581038 + 0x100 * n, 1, 1, 0⟩
/-- Codeword within the line [3:2] -/
def Reg.ECSC.INJ_CTL.CW (n : Nat) : Field := ⟨0x581038 + 0x100 * n, 2, 2, 0⟩
/-- Line within the channel granule [9:4] -/
def Reg.ECSC.INJ_CTL.LINE (n : Nat) : Field := ⟨0x581038 + 0x100 * n, 4, 6, 0⟩
/-- Channel address bits 38:12 [26:0] -/
def Reg.ECSC.INJ_ADDR.GRANULE (n : Nat) : Field := ⟨0x58103c + 0x100 * n, 0, 27, 0⟩
/-- The mask was applied [0:0] -/
def Reg.ECSC.INJ_STS.CONSUMED (n : Nat) : Field := ⟨0x581040 + 0x100 * n, 0, 1, 0⟩
/-- R124 Case A occurred [1:1] -/
def Reg.ECSC.INJ_STS.SEEN (n : Nat) : Field := ⟨0x581040 + 0x100 * n, 1, 1, 0⟩
/-- R124 Case B occurred [2:2] -/
def Reg.ECSC.INJ_STS.REAL (n : Nat) : Field := ⟨0x581040 + 0x100 * n, 2, 1, 0⟩
/-- An arm was refused (R123) [3:3] -/
def Reg.ECSC.INJ_STS.FULL (n : Nat) : Field := ⟨0x581040 + 0x100 * n, 3, 1, 0⟩
/-- 0 = 8800, 1 = 6400, 2 = 5600, 3 = 4800 MT/s [1:0] -/
def Reg.DC.CFG.RATE (n : Nat) : Field := ⟨0x280000 + 0x40000 * n, 0, 2, 0⟩
/-- 0 = native training; 1 = NX5310 fixed-delay mode [2:2] -/
def Reg.DC.CFG.TRN_MODE (n : Nat) : Field := ⟨0x280000 + 0x40000 * n, 2, 1, 0⟩
/-- 1 = drift tracking (R151) [3:3] -/
def Reg.DC.CFG.TRACK (n : Nat) : Field := ⟨0x280000 + 0x40000 * n, 3, 1, 1⟩
/-- 1 = check SPD, train and fill [4:4] -/
def Reg.DC.CFG.ENABLE (n : Nat) : Field := ⟨0x280000 + 0x40000 * n, 4, 1, 0⟩
/-- 1 = RWL fields read-only [0:0] -/
def Reg.DC.LOCK.LOCK (n : Nat) : Field := ⟨0x280004 + 0x40000 * n, 0, 1, 0⟩
/-- 0 none, 1 RDIMM, 2 MRDIMM, 3 unsupported [1:0] -/
def Reg.DC.POP.TYPE (n : Nat) : Field := ⟨0x280008 + 0x40000 * n, 0, 2, 0⟩
/-- 1 = two DIMMs [2:2] -/
def Reg.DC.POP.DPC2 (n : Nat) : Field := ⟨0x280008 + 0x40000 * n, 2, 1, 0⟩
/-- 1 = 2-rank DIMMs [3:3] -/
def Reg.DC.POP.DUAL_RANK (n : Nat) : Field := ⟨0x280008 + 0x40000 * n, 3, 1, 0⟩
/-- 1 = 64 Gb devices [4:4] -/
def Reg.DC.POP.D64 (n : Nat) : Field := ⟨0x280008 + 0x40000 * n, 4, 1, 0⟩
/-- Ranks in the channel, minus 1 [6:5] -/
def Reg.DC.POP.RANKS (n : Nat) : Field := ⟨0x280008 + 0x40000 * n, 5, 2, 0⟩
/-- Channel capacity in GiB [16:7] -/
def Reg.DC.POP.CAP_GIB (n : Nat) : Field := ⟨0x280008 + 0x40000 * n, 7, 10, 0⟩
/-- 0 off, 1 SPD check, 2 training, 3 filling, 4 in service, 5 C/A recovery, 6 offline; 7 rese [2:0] -/
def Reg.DC.STS.STATE (n : Nat) : Field := ⟨0x28000c + 0x40000 * n, 0, 3, 0⟩
/-- 0 none, 1 type or rate, 2 DIMMs differ, 3 not ×4 ECC, 4 capacity or ranks, 5 differs from  [6:3] -/
def Reg.DC.STS.REFUSE (n : Nat) : Field := ⟨0x28000c + 0x40000 * n, 3, 4, 0⟩
/-- At or above TS_HIGH [7:7] -/
def Reg.DC.STS.HOT (n : Nat) : Field := ⟨0x28000c + 0x40000 * n, 7, 1, 0⟩
/-- At or above TS_CRIT [8:8] -/
def Reg.DC.STS.CRIT (n : Nat) : Field := ⟨0x28000c + 0x40000 * n, 8, 1, 0⟩
/-- Frame-area size in 4 KiB units [26:0] -/
def Reg.DC.MAP_FA.FA_TOP (n : Nat) : Field := ⟨0x280010 + 0x40000 * n, 0, 27, 0⟩
/-- Metadata-area base in 4 KiB units [26:0] -/
def Reg.DC.MAP_MD.MD_BASE (n : Nat) : Field := ⟨0x280014 + 0x40000 * n, 0, 27, 0⟩
/-- DCLK; the reset value follows *Default DRAM timings* for RATE [5:0] -/
def Reg.DC.TIM0.CL (n : Nat) : Field := ⟨0x280020 + 0x40000 * n, 0, 6, 22⟩
/-- DCLK [11:6] -/
def Reg.DC.TIM0.TRCD (n : Nat) : Field := ⟨0x280020 + 0x40000 * n, 6, 6, 11⟩
/-- DCLK [17:12] -/
def Reg.DC.TIM0.TRP (n : Nat) : Field := ⟨0x280020 + 0x40000 * n, 12, 6, 11⟩
/-- DCLK [24:18] -/
def Reg.DC.TIM0.TRAS (n : Nat) : Field := ⟨0x280020 + 0x40000 * n, 18, 7, 36⟩
/-- DCLK [31:25] -/
def Reg.DC.TIM0.TWR (n : Nat) : Field := ⟨0x280020 + 0x40000 * n, 25, 7, 33⟩
/-- DCLK; 605 when D64 = 1 [9:0] -/
def Reg.DC.TIM1.TRFC1 (n : Nat) : Field := ⟨0x280024 + 0x40000 * n, 0, 10, 451⟩
/-- DCLK; 275 when D64 = 1 [19:10] -/
def Reg.DC.TIM1.TRFCSB (n : Nat) : Field := ⟨0x280024 + 0x40000 * n, 10, 10, 209⟩
/-- DCLK [23:20] -/
def Reg.DC.TIM1.TXP (n : Nat) : Field := ⟨0x280024 + 0x40000 * n, 20, 4, 9⟩
/-- Drain start, 1–63 [5:0] -/
def Reg.DC.SCHED.WR_HI (n : Nat) : Field := ⟨0x280028 + 0x40000 * n, 0, 6, 48⟩
/-- Drain end. A write making WR_LO ≥ WR_HI is discarded. [13:8] -/
def Reg.DC.SCHED.WR_LO (n : Nat) : Field := ⟨0x280028 + 0x40000 * n, 8, 6, 16⟩
/-- DCLK; 0 = no age promotion [31:16] -/
def Reg.DC.SCHED.AGE_MAX (n : Nat) : Field := ⟨0x280028 + 0x40000 * n, 16, 16, 2048⟩
/-- DCLK; 0 = close after each access [11:0] -/
def Reg.DC.PAGE.IDLE_T (n : Nat) : Field := ⟨0x28002c + 0x40000 * n, 0, 12, 128⟩
/-- 0 = REFab, 1 = REFsb [0:0] -/
def Reg.DC.REF_CTL.MODE (n : Nat) : Field := ⟨0x280030 + 0x40000 * n, 0, 1, 1⟩
/-- 0–4; a write of 5–7 is discarded [3:1] -/
def Reg.DC.REF_CTL.POSTPONE (n : Nat) : Field := ⟨0x280030 + 0x40000 * n, 1, 3, 4⟩
/-- 1 = halved interval [4:4] -/
def Reg.DC.REF_CTL.FORCE_2X (n : Nat) : Field := ⟨0x280030 + 0x40000 * n, 4, 1, 0⟩
/-- DCLK [31:16] -/
def Reg.DC.REF_CTL.TREFI (n : Nat) : Field := ⟨0x280030 + 0x40000 * n, 16, 16, 4290⟩
/-- DCLK idle before power-down (R147) [15:0] -/
def Reg.DC.PD_CTL.IDLE_T (n : Nat) : Field := ⟨0x280034 + 0x40000 * n, 0, 16, 512⟩
/-- 1 = power-down enabled [16:16] -/
def Reg.DC.PD_CTL.EN (n : Nat) : Field := ⟨0x280034 + 0x40000 * n, 16, 1, 1⟩
/-- °C [7:0] -/
def Reg.DC.THERM.TS_HIGH (n : Nat) : Field := ⟨0x280038 + 0x40000 * n, 0, 8, 85⟩
/-- °C [15:8] -/
def Reg.DC.THERM.TS_CRIT (n : Nat) : Field := ⟨0x280038 + 0x40000 * n, 8, 8, 95⟩
/-- Activations per µs per rank at TS_CRIT [23:16] -/
def Reg.DC.THERM.ACT_MAX (n : Nat) : Field := ⟨0x280038 + 0x40000 * n, 16, 8, 64⟩
/-- Slot 0, highest sensor, °C, two's complement [7:0] -/
def Reg.DC.DIMM_TEMP.T0 (n : Nat) : Field := ⟨0x28003c + 0x40000 * n, 0, 8, 0⟩
/-- Slot 1 [15:8] -/
def Reg.DC.DIMM_TEMP.T1 (n : Nat) : Field := ⟨0x28003c + 0x40000 * n, 8, 8, 0⟩
/-- Slot 0: bit 0 power-good lost, 1 over-voltage, 2 under-voltage, 3 over-temperature, 4 curr [4:0] -/
def Reg.DC.PMIC_STS.D0 (n : Nat) : Field := ⟨0x280040 + 0x40000 * n, 0, 5, 0⟩
/-- Slot 1, as D0 [12:8] -/
def Reg.DC.PMIC_STS.D1 (n : Nat) : Field := ⟨0x280040 + 0x40000 * n, 8, 5, 0⟩
/-- Parity errors cleared by retry [30:0] -/
def Reg.DC.CAPAR_OK.COUNT (n : Nat) : Field := ⟨0x280044 + 0x40000 * n, 0, 31, 0⟩
/-- Sticky saturation [31:31] -/
def Reg.DC.CAPAR_OK.SAT (n : Nat) : Field := ⟨0x280044 + 0x40000 * n, 31, 1, 0⟩
/-- Parity errors that survived retry [30:0] -/
def Reg.DC.CAPAR_FAIL.COUNT (n : Nat) : Field := ⟨0x280048 + 0x40000 * n, 0, 31, 0⟩
/-- Sticky saturation [31:31] -/
def Reg.DC.CAPAR_FAIL.SAT (n : Nat) : Field := ⟨0x280048 + 0x40000 * n, 31, 1, 0⟩
/-- Current or last step, 1–7 for T1–T7 [2:0] -/
def Reg.DC.TRN_STS.STEP (n : Nat) : Field := ⟨0x28004c + 0x40000 * n, 0, 3, 0⟩
/-- Training failed [3:3] -/
def Reg.DC.TRN_STS.FAIL (n : Nat) : Field := ⟨0x28004c + 0x40000 * n, 3, 1, 0⟩
/-- Lane 0–79, or 0x7F for a rank-wide or group result [10:4] -/
def Reg.DC.TRN_STS.FAIL_LANE (n : Nat) : Field := ⟨0x28004c + 0x40000 * n, 4, 7, 0⟩
/-- Rank [12:11] -/
def Reg.DC.TRN_STS.FAIL_RANK (n : Nat) : Field := ⟨0x28004c + 0x40000 * n, 11, 2, 0⟩
/-- Narrowest centred run, taps [22:13] -/
def Reg.DC.TRN_STS.MIN_EYE (n : Nat) : Field := ⟨0x28004c + 0x40000 * n, 13, 10, 0⟩
/-- Rank shown in LANE and GRP [1:0] -/
def Reg.DC.TRN_SEL.RANK (n : Nat) : Field := ⟨0x280050 + 0x40000 * n, 0, 2, 0⟩
/-- Minimum centred run, taps [15:8] -/
def Reg.DC.TRN_SEL.EYE_MIN (n : Nat) : Field := ⟨0x280050 + 0x40000 * n, 8, 8, 16⟩
/-- l = 0–79; read delay, taps [9:0] -/
def Reg.DC.LANE.RD_DLY (n l : Nat) : Field := ⟨0x280100 + 0x40000 * n + 0x4 * l, 0, 10, 0⟩
/-- Write delay, taps [25:16] -/
def Reg.DC.LANE.WR_DLY (n l : Nat) : Field := ⟨0x280100 + 0x40000 * n + 0x4 * l, 16, 10, 0⟩
/-- g = 0–19; read gate, taps [9:0] -/
def Reg.DC.GRP.GATE (n g : Nat) : Field := ⟨0x280240 + 0x40000 * n + 0x4 * g, 0, 10, 0⟩
/-- Host Vref code [15:10] -/
def Reg.DC.GRP.RD_VREF (n g : Nat) : Field := ⟨0x280240 + 0x40000 * n + 0x4 * g, 10, 6, 0⟩
/-- DRAM VrefDQ code [22:16] -/
def Reg.DC.GRP.WR_VREF (n g : Nat) : Field := ⟨0x280240 + 0x40000 * n + 0x4 * g, 16, 7, 0⟩
/-- NX5310 layout, legacy units [7:0] -/
def Reg.DC.LDLY.WR_DQS (n g : Nat) : Field := ⟨0x280300 + 0x40000 * n + 0x4 * g, 0, 8, 0⟩
/-- Legacy units [15:8] -/
def Reg.DC.LDLY.RD_DQS (n g : Nat) : Field := ⟨0x280300 + 0x40000 * n + 0x4 * g, 8, 8, 0⟩
/-- Legacy units [23:16] -/
def Reg.DC.LDLY.RD_GATE (n g : Nat) : Field := ⟨0x280300 + 0x40000 * n + 0x4 * g, 16, 8, 0⟩
/-- Host Vref code [29:24] -/
def Reg.DC.LDLY.VREF (n g : Nat) : Field := ⟨0x280300 + 0x40000 * n + 0x4 * g, 24, 6, 0⟩
/-- Legacy units [7:0] -/
def Reg.DC.LDLY_CA.CA_DLY (n : Nat) : Field := ⟨0x280350 + 0x40000 * n, 0, 8, 0⟩
/-- Legacy units [15:8] -/
def Reg.DC.LDLY_CA.CS_DLY (n : Nat) : Field := ⟨0x280350 + 0x40000 * n, 8, 8, 0⟩
/-- Dummy rounds per block, 0–2; a write of 3 is discarded [1:0] -/
def Reg.RNT.CFG.ROUNDS : Field := ⟨0x1c0000, 0, 2, 1⟩
/-- 1 = byte shuffle (R182) [2:2] -/
def Reg.RNT.CFG.SHUFFLE : Field := ⟨0x1c0000, 2, 1, 1⟩
/-- 1 = RWL fields read-only [0:0] -/
def Reg.RNT.LOCK.LOCK : Field := ⟨0x1c0004, 0, 1, 0⟩
/-- Lanes not quarantined [5:0] -/
def Reg.RNT.STS.LANES_OK : Field := ⟨0x1c0008, 0, 6, 48⟩
/-- Keccak cores not quarantined [10:6] -/
def Reg.RNT.STS.KECCAK_OK : Field := ⟨0x1c0008, 6, 5, 24⟩
/-- Power-on known-answer tests passed [11:11] -/
def Reg.RNT.STS.KAT_DONE : Field := ⟨0x1c0008, 11, 1, 0⟩
/-- Bit n = lane n quarantined, lanes 0–31 [31:0] -/
def Reg.RNT.LANE_FAIL_LO.LANES : Field := ⟨0x1c0010, 0, 32, 0⟩
/-- Lanes 32–47 [15:0] -/
def Reg.RNT.LANE_FAIL_HI.LANES : Field := ⟨0x1c0014, 0, 16, 0⟩
/-- Bit n = Keccak core n quarantined [23:0] -/
def Reg.RNT.KECCAK_FAIL.CORES : Field := ⟨0x1c0018, 0, 24, 0⟩
/-- c = 0–7; guaranteed lanes (R176) [5:0] -/
def Reg.RNT.CLS.MIN (c : Nat) : Field := ⟨0x1c0040 + 0x4 * c, 0, 6, ([16, 8, 4, 7, 7, 0, 0, 1].getD c 0)⟩
/-- 1–15; a write of 0 is discarded [11:8] -/
def Reg.RNT.CLS.WEIGHT (c : Nat) : Field := ⟨0x1c0040 + 0x4 * c, 8, 4, ([8, 8, 8, 4, 4, 2, 1, 1].getD c 0)⟩
/-- Queue entries. A write making the sum above 1,024 is discarded. [26:16] -/
def Reg.RNT.CLS.DEPTH (c : Nat) : Field := ⟨0x1c0040 + 0x4 * c, 16, 11, ([256, 256, 128, 128, 128, 64, 48, 16].getD c 0)⟩
/-- Tag failures (R180) [30:0] -/
def Reg.RNT.TAGFAIL.COUNT : Field := ⟨0x1c0060, 0, 31, 0⟩
/-- Sticky saturation [31:31] -/
def Reg.RNT.TAGFAIL.SAT : Field := ⟨0x1c0060, 31, 1, 0⟩
/-- Check mismatches cleared by retry (R178) [30:0] -/
def Reg.RNT.CMP_RETRY.COUNT : Field := ⟨0x1c0064, 0, 31, 0⟩
/-- Sticky saturation [31:31] -/
def Reg.RNT.CMP_RETRY.SAT : Field := ⟨0x1c0064, 31, 1, 0⟩
/-- Sweep granules per ms; 0 = sweep paused [15:0] -/
def Reg.RNT.REKEY.RATE : Field := ⟨0x1c0068, 0, 16, 256⟩
/-- Slot being swept [11:0] -/
def Reg.RNT.REKEY_STS.SLOT : Field := ⟨0x1c006c, 0, 12, 0⟩
/-- A sweep is running [12:12] -/
def Reg.RNT.REKEY_STS.ACTIVE : Field := ⟨0x1c006c, 12, 1, 0⟩
/-- Progress, 0–100 [19:13] -/
def Reg.RNT.REKEY_STS.PCT : Field := ⟨0x1c006c, 13, 7, 0⟩
/-- Jobs of class c, bits 31:0 [31:0] -/
def Reg.RNT.JOBS_LO.COUNT (c : Nat) : Field := ⟨0x1c0080 + 0x8 * c, 0, 32, 0⟩
/-- Bits 47:32; wraps [15:0] -/
def Reg.RNT.JOBS_HI.COUNT (c : Nat) : Field := ⟨0x1c0084 + 0x8 * c, 0, 16, 0⟩
/-- s = 0–4,095; 0 EMPTY, 1 ACTIVE, 2 ZEROISED; 3 reserved [1:0] -/
def Reg.KSL.MSLOT.STATE (s : Nat) : Field := ⟨0x210000 + 0x4 * s, 0, 2, 0⟩
/-- Current epoch e [6:2] -/
def Reg.KSL.MSLOT.CUR_EPOCH (s : Nat) : Field := ⟨0x210000 + 0x4 * s, 2, 5, 0⟩
/-- Epoch e − 1 held (R171) [7:7] -/
def Reg.KSL.MSLOT.PREV_VALID (s : Nat) : Field := ⟨0x210000 + 0x4 * s, 7, 1, 0⟩
/-- Owner tenant bound to the slot [17:8] -/
def Reg.KSL.MSLOT.TENANT (s : Nat) : Field := ⟨0x210000 + 0x4 * s, 8, 10, 0⟩
/-- Regions naming the slot, 0–4,096 [30:18] -/
def Reg.KSL.MSLOT.REGIONS (s : Nat) : Field := ⟨0x210000 + 0x4 * s, 18, 13, 0⟩
/-- s = 0–255; as MSLOT [1:0] -/
def Reg.KSL.LSLOT.STATE (s : Nat) : Field := ⟨0x214000 + 0x4 * s, 0, 2, 0⟩
/-- 0 receive, 1 transmit [2:2] -/
def Reg.KSL.LSLOT.DIR (s : Nat) : Field := ⟨0x214000 + 0x4 * s, 2, 1, 0⟩
/-- s = 0–15; as MSLOT [1:0] -/
def Reg.KSL.ISLOT.STATE (s : Nat) : Field := ⟨0x214400 + 0x4 * s, 0, 2, 0⟩
/-- Bit d = enable root port d [7:0] -/
def Reg.NVH.CFG.PORT_EN : Field := ⟨0x680000, 0, 8, 0⟩
/-- Command timeout, 1–65,535 ms; a write of 0 is discarded [23:8] -/
def Reg.NVH.CFG.TIMEOUT_MS : Field := ⟨0x680000, 8, 16, 100⟩
/-- 1 = RWL fields read-only [0:0] -/
def Reg.NVH.LOCK.LOCK : Field := ⟨0x680004, 0, 1, 0⟩
/-- 1 = create an image (R195); clears when done [0:0] -/
def Reg.NVH.IMG_CTL.CREATE : Field := ⟨0x680008, 0, 1, 0⟩
/-- Ports in the image; N = set bits [7:0] -/
def Reg.NVH.IMG_CFG.DRIVE_MASK : Field := ⟨0x68000c, 0, 8, 0⟩
/-- R in units of 65,536 slots (112 = 7 Mi) [15:8] -/
def Reg.NVH.IMG_CFG.RESCUE_64K : Field := ⟨0x68000c, 8, 8, 112⟩
/-- G / 512; above 0x200_0000 stores 0x200_0000 [25:0] -/
def Reg.NVH.IMG_SIZE.EXTENTS : Field := ⟨0x680010, 0, 26, 0⟩
/-- 0 NONE, 1 CREATING, 2 RESTORING, 3 ONLINE, 4 DEGRADED, 5 REBUILDING, 6 FLUSHING, 7 FLUSHED [2:0] -/
def Reg.NVH.IMG_STS.STATE : Field := ⟨0x680014, 0, 3, 0⟩
/-- 1 = the last restore found CLEAN = 1 [3:3] -/
def Reg.NVH.IMG_STS.CLEAN_RESTORE : Field := ⟨0x680014, 3, 1, 0⟩
/-- Rescue slots hold granules [4:4] -/
def Reg.NVH.IMG_STS.RESCUE_USED : Field := ⟨0x680014, 4, 1, 0⟩
/-- Healthy drives, as counted by R53 [8:5] -/
def Reg.NVH.IMG_STS.DRIVES : Field := ⟨0x680014, 5, 4, 0⟩
/-- d = 0–7; *Drive states* [2:0] -/
def Reg.NVH.DRV.STATE (d : Nat) : Field := ⟨0x680020 + 0x4 * d, 0, 3, 0⟩
/-- 0 none, 1 link, 2 check of R187, 3 foreign image (R200), 4 capacity, 5 write failed, 6 tim [6:3] -/
def Reg.NVH.DRV.REASON (d : Nat) : Field := ⟨0x680020 + 0x4 * d, 3, 4, 0⟩
/-- I/O queue pairs created [13:7] -/
def Reg.NVH.DRV.QPAIRS (d : Nat) : Field := ⟨0x680020 + 0x4 * d, 7, 7, 0⟩
/-- Rebuild progress, 0–100 [20:14] -/
def Reg.NVH.DRV.REBUILD_PCT (d : Nat) : Field := ⟨0x680020 + 0x4 * d, 14, 7, 0⟩
/-- Free rescue slots on drive d [23:0] -/
def Reg.NVH.RESCUE_FREE.SLOTS (d : Nat) : Field := ⟨0x680040 + 0x4 * d, 0, 24, 0⟩
/-- Granules per ms; 0 = paused [15:0] -/
def Reg.NVH.REBUILD.RATE : Field := ⟨0x680060, 0, 16, 2048⟩
/-- Reads cleared by retry [30:0] -/
def Reg.NVH.RD_RETRY.COUNT : Field := ⟨0x680064, 0, 31, 0⟩
/-- Sticky saturation [31:31] -/
def Reg.NVH.RD_RETRY.SAT : Field := ⟨0x680064, 31, 1, 0⟩
/-- Reads failed after retry [30:0] -/
def Reg.NVH.RD_FAIL.COUNT : Field := ⟨0x680068, 0, 31, 0⟩
/-- Sticky saturation [31:31] -/
def Reg.NVH.RD_FAIL.SAT : Field := ⟨0x680068, 31, 1, 0⟩
/-- Commands timed out [30:0] -/
def Reg.NVH.TIMEOUTS.COUNT : Field := ⟨0x68006c, 0, 31, 0⟩
/-- Sticky saturation [31:31] -/
def Reg.NVH.TIMEOUTS.SAT : Field := ⟨0x68006c, 31, 1, 0⟩
/-- Quiet time before eligibility (R196) [9:0] -/
def Reg.CHN.CFG.COALESCE_MS : Field := ⟨0x640000, 0, 10, 50⟩
/-- Drive writes per day × 100; 0 = no pacing [15:0] -/
def Reg.CHN.ENDUR.DWPD_CENTI : Field := ⟨0x640004, 0, 16, 100⟩
/-- Bucket depth in seconds of B [27:16] -/
def Reg.CHN.ENDUR.BURST_S : Field := ⟨0x640004, 16, 12, 60⟩
/-- 1 = RWL fields read-only [0:0] -/
def Reg.CHN.LOCK.LOCK : Field := ⟨0x640008, 0, 1, 0⟩
/-- Destages in flight, 0–4,096 [12:0] -/
def Reg.CHN.STS.INFLIGHT : Field := ⟨0x64000c, 0, 13, 0⟩
/-- Learning reads outstanding (R199) [25:13] -/
def Reg.CHN.STS.LEARN : Field := ⟨0x64000c, 13, 13, 0⟩
/-- Completed destages, bits 31:0 [31:0] -/
def Reg.CHN.DESTAGE_LO.COUNT : Field := ⟨0x640010, 0, 32, 0⟩
/-- Bits 47:32; wraps [15:0] -/
def Reg.CHN.DESTAGE_HI.COUNT : Field := ⟨0x640014, 0, 16, 0⟩
/-- KiB written beyond the endurance budget, bits 31:0 [31:0] -/
def Reg.CHN.OVER_LO.COUNT : Field := ⟨0x640018, 0, 32, 0⟩
/-- Bits 47:32; wraps [15:0] -/
def Reg.CHN.OVER_HI.COUNT : Field := ⟨0x64001c, 0, 16, 0⟩
/-- Bucket level of drive d, MiB [23:0] -/
def Reg.CHN.TOKENS.MIB (d : Nat) : Field := ⟨0x640020 + 0x4 * d, 0, 24, 0⟩
/-- Granules re-dirtied during destage (R28) [30:0] -/
def Reg.CHN.REDIRTY.COUNT : Field := ⟨0x640040, 0, 31, 0⟩
/-- Sticky saturation [31:31] -/
def Reg.CHN.REDIRTY.SAT : Field := ⟨0x640040, 31, 1, 0⟩
/-- Merge reads issued [30:0] -/
def Reg.CHN.MERGE_RD.COUNT : Field := ⟨0x640044, 0, 31, 0⟩
/-- Sticky saturation [31:31] -/
def Reg.CHN.MERGE_RD.SAT : Field := ⟨0x640044, 31, 1, 0⟩
/-- Milliseconds per tick, 1–1,023; a write of 0 is discarded [9:0] -/
def Reg.TMG.CFG.AGE_TICK_MS : Field := ⟨0x5c0000, 0, 10, 16⟩
/-- 1 = demotion to N allowed (R225) [10:10] -/
def Reg.TMG.CFG.N_EN : Field := ⟨0x5c0000, 10, 1, 1⟩
/-- 1 = RWL fields read-only [0:0] -/
def Reg.TMG.LOCK.LOCK : Field := ⟨0x5c0004, 0, 1, 0⟩
/-- Background eviction target (R221) [26:0] -/
def Reg.TMG.FREE_MIN.FRAMES : Field := ⟨0x5c0008, 0, 27, 65536⟩
/-- R228 [0:0] -/
def Reg.TMG.STS.OVERCOMMIT : Field := ⟨0x5c000c, 0, 1, 0⟩
/-- R218 [1:1] -/
def Reg.TMG.STS.SA_SHORT : Field := ⟨0x5c000c, 1, 1, 0⟩
/-- A rebuild of R234 or R236 is running [2:2] -/
def Reg.TMG.STS.REBUILD : Field := ⟨0x5c000c, 2, 1, 0⟩
/-- A channel is offline [3:3] -/
def Reg.TMG.STS.DEGRADED : Field := ⟨0x5c000c, 3, 1, 0⟩
/-- Offline channel; 0xF = none [7:4] -/
def Reg.TMG.STS.LOST_CH : Field := ⟨0x5c000c, 4, 4, 15⟩
/-- Age clock [15:0] -/
def Reg.TMG.AGE_NOW.NOW : Field := ⟨0x5c0010, 0, 16, 0⟩
/-- Frames on in-service channels, less frames lent [30:0] -/
def Reg.TMG.L_FRAMES.COUNT : Field := ⟨0x5c0014, 0, 31, 0⟩
/-- Free frames [30:0] -/
def Reg.TMG.FREE.COUNT : Field := ⟨0x5c0018, 0, 31, 0⟩
/-- Frames lent to other members [30:0] -/
def Reg.TMG.LENT.COUNT : Field := ⟨0x5c001c, 0, 31, 0⟩
/-- Loan indices backed by live loans [27:0] -/
def Reg.TMG.N_SLOTS.COUNT : Field := ⟨0x5c0020, 0, 28, 0⟩
/-- Granules in N or STAGED [27:0] -/
def Reg.TMG.N_USED.COUNT : Field := ⟨0x5c0024, 0, 28, 0⟩
/-- Per channel, rounded up (R218) [23:0] -/
def Reg.TMG.SA_NEED.MIB : Field := ⟨0x5c0028, 0, 24, 0⟩
/-- Per channel, rounded down [23:0] -/
def Reg.TMG.SA_AVAIL.MIB : Field := ⟨0x5c002c, 0, 24, 0⟩
/-- Sum of L_QUOTA [30:0] -/
def Reg.TMG.QSUM_L.COUNT : Field := ⟨0x5c0030, 0, 31, 0⟩
/-- Tenant shown in the TEN fields [9:0] -/
def Reg.TMG.TEN_SEL.TENANT : Field := ⟨0x5c0040, 0, 10, 0⟩
/-- Guaranteed L frames (R228) [30:0] -/
def Reg.TMG.TEN_QL.L_QUOTA : Field := ⟨0x5c0044, 0, 31, 0⟩
/-- Cap on L frames [30:0] -/
def Reg.TMG.TEN_MAXL.L_MAX : Field := ⟨0x5c0048, 0, 31, 2147483647⟩
/-- Guaranteed N slots [27:0] -/
def Reg.TMG.TEN_QN.N_QUOTA : Field := ⟨0x5c004c, 0, 28, 0⟩
/-- Pinned frames allowed [30:0] -/
def Reg.TMG.TEN_QP.PIN_QUOTA : Field := ⟨0x5c0050, 0, 31, 0⟩
/-- USE_L [30:0] -/
def Reg.TMG.TEN_USE_L.COUNT : Field := ⟨0x5c0054, 0, 31, 0⟩
/-- USE_N [27:0] -/
def Reg.TMG.TEN_USE_N.COUNT : Field := ⟨0x5c0058, 0, 28, 0⟩
/-- Pinned granules [30:0] -/
def Reg.TMG.TEN_PINNED.COUNT : Field := ⟨0x5c005c, 0, 31, 0⟩
/-- Evictions of this tenant's frames [30:0] -/
def Reg.TMG.TEN_EVICT.COUNT : Field := ⟨0x5c0060, 0, 31, 0⟩
/-- Sticky saturation [31:31] -/
def Reg.TMG.TEN_EVICT.SAT : Field := ⟨0x5c0060, 31, 1, 0⟩
/-- Fills from F, bits 31:0 [31:0] -/
def Reg.TMG.PROMO_F_LO.COUNT : Field := ⟨0x5c0080, 0, 32, 0⟩
/-- Bits 47:32; wraps [15:0] -/
def Reg.TMG.PROMO_F_HI.COUNT : Field := ⟨0x5c0084, 0, 16, 0⟩
/-- Fills from N, bits 31:0 [31:0] -/
def Reg.TMG.PROMO_N_LO.COUNT : Field := ⟨0x5c0088, 0, 32, 0⟩
/-- Bits 47:32; wraps [15:0] -/
def Reg.TMG.PROMO_N_HI.COUNT : Field := ⟨0x5c008c, 0, 16, 0⟩
/-- Demotions acknowledged, bits 31:0 [31:0] -/
def Reg.TMG.DEMOTE_LO.COUNT : Field := ⟨0x5c0090, 0, 32, 0⟩
/-- Bits 47:32; wraps [15:0] -/
def Reg.TMG.DEMOTE_HI.COUNT : Field := ⟨0x5c0094, 0, 16, 0⟩
/-- L evictions, bits 31:0 [31:0] -/
def Reg.TMG.EVICT_LO.COUNT : Field := ⟨0x5c0098, 0, 32, 0⟩
/-- Bits 47:32; wraps [15:0] -/
def Reg.TMG.EVICT_HI.COUNT : Field := ⟨0x5c009c, 0, 16, 0⟩
/-- Candidates skipped for PEND (R233) [30:0] -/
def Reg.TMG.SKIP_PEND.COUNT : Field := ⟨0x5c00a0, 0, 31, 0⟩
/-- Sticky saturation [31:31] -/
def Reg.TMG.SKIP_PEND.SAT : Field := ⟨0x5c00a0, 31, 1, 0⟩
/-- Allocations that waited (R222) [30:0] -/
def Reg.TMG.ALLOC_WAIT.COUNT : Field := ⟨0x5c00a4, 0, 31, 0⟩
/-- Sticky saturation [31:31] -/
def Reg.TMG.ALLOC_WAIT.SAT : Field := ⟨0x5c00a4, 31, 1, 0⟩
/-- N fills refused by the lender [30:0] -/
def Reg.TMG.N_NAK.COUNT : Field := ⟨0x5c00a8, 0, 31, 0⟩
/-- Sticky saturation [31:31] -/
def Reg.TMG.N_NAK.SAT : Field := ⟨0x5c00a8, 31, 1, 0⟩
/-- Loan-index checks failed (R216) [30:0] -/
def Reg.TMG.N_STALE.COUNT : Field := ⟨0x5c00ac, 0, 31, 0⟩
/-- Sticky saturation [31:31] -/
def Reg.TMG.N_STALE.SAT : Field := ⟨0x5c00ac, 31, 1, 0⟩
/-- Granules poisoned under R236 Case C [30:0] -/
def Reg.TMG.LOST_GRAN.COUNT : Field := ⟨0x5c00b0, 0, 31, 0⟩
/-- Sticky saturation [31:31] -/
def Reg.TMG.LOST_GRAN.SAT : Field := ⟨0x5c00b0, 31, 1, 0⟩
/-- 0 = stop all engines (reason 5) and refuse PATTERN_START [0:0] -/
def Reg.STI.CFG.ENABLE : Field := ⟨0x600000, 0, 1, 1⟩
/-- Microsecond clock (R259) [31:0] -/
def Reg.STI.TNOW.US : Field := ⟨0x600004, 0, 32, 0⟩
/-- Credits of engines that run or still hold fills, 0–3,072 [11:0] -/
def Reg.STI.CREDIT_SUM.CREDITS : Field := ⟨0x600008, 0, 12, 0⟩
/-- Reissue delay (R252), 16–65,535; a write below 16 is discarded [15:0] -/
def Reg.STI.QFULL.RETRY_FCLK : Field := ⟨0x60000c, 0, 16, 256⟩
/-- Bit e = engine e RUNNING or waiting [15:0] -/
def Reg.STI.RUN.ENGINES : Field := ⟨0x600010, 0, 16, 0⟩
/-- From PATTERN_START [1:0] -/
def Reg.ENG.CTL.PRIO (e : Nat) : Field := ⟨0x601000 + 0x100 * e, 0, 2, 0⟩
/-- From PATTERN_START, 1–1,024 [12:2] -/
def Reg.ENG.CTL.CREDITS (e : Nat) : Field := ⟨0x601000 + 0x100 * e, 2, 11, 0⟩
/-- From PATTERN_START [22:13] -/
def Reg.ENG.CTL.ENTRY (e : Nat) : Field := ⟨0x601000 + 0x100 * e, 13, 10, 0⟩
/-- 0 EMPTY, 1 LOADED, 2 RUNNING, 3 WAIT_DB, 4 WAIT_WATCH, 5 WAIT_TIME, 6 DONE, 7 FAULT [2:0] -/
def Reg.ENG.STS.STATE (e : Nat) : Field := ⟨0x601004 + 0x100 * e, 0, 3, 0⟩
/-- *Stop reasons*; 0 = none; 6–15 reserved [6:3] -/
def Reg.ENG.STS.STOP_REASON (e : Nat) : Field := ⟨0x601004 + 0x100 * e, 3, 4, 0⟩
/-- Next stitch [16:7] -/
def Reg.ENG.STS.PC (e : Nat) : Field := ⟨0x601004 + 0x100 * e, 7, 10, 0⟩
/-- Stream slots in use, 0–8 [20:17] -/
def Reg.ENG.STS.STREAMS (e : Nat) : Field := ⟨0x601004 + 0x100 * e, 17, 4, 0⟩
/-- Stitches loaded, 0–1,024 [31:21] -/
def Reg.ENG.STS.LEN (e : Nat) : Field := ⟨0x601004 + 0x100 * e, 21, 11, 0⟩
/-- Bound tenant; 0 when MGMT = 1 [9:0] -/
def Reg.ENG.BIND.TENANT (e : Nat) : Field := ⟨0x601008 + 0x100 * e, 0, 10, 0⟩
/-- Loading LD [15:10] -/
def Reg.ENG.BIND.GLD (e : Nat) : Field := ⟨0x601008 + 0x100 * e, 10, 6, 0⟩
/-- 1 = loaded through the management function [16:16] -/
def Reg.ENG.BIND.MGMT (e : Nat) : Field := ⟨0x601008 + 0x100 * e, 16, 1, 0⟩
/-- Layer tag [15:0] -/
def Reg.ENG.LTAG.LT (e : Nat) : Field := ⟨0x60100c + 0x100 * e, 0, 16, 0⟩
/-- Deadline, TNOW units [31:0] -/
def Reg.ENG.DL.DL (e : Nat) : Field := ⟨0x601010 + 0x100 * e, 0, 32, 0⟩
/-- Fills holding credits, 0–1,024 [10:0] -/
def Reg.ENG.OUTST.FILLS (e : Nat) : Field := ⟨0x601014 + 0x100 * e, 0, 11, 0⟩
/-- Doorbell (R256) [15:0] -/
def Reg.ENG.DBELL.VALUE (e : Nat) : Field := ⟨0x601018 + 0x100 * e, 0, 16, 0⟩
/-- Values in the FIFO, 0–16 [4:0] -/
def Reg.ENG.DB_STS.DEPTH (e : Nat) : Field := ⟨0x60101c + 0x100 * e, 0, 5, 0⟩
/-- A doorbell was discarded on a full FIFO [5:5] -/
def Reg.ENG.DB_STS.OVF (e : Nat) : Field := ⟨0x60101c + 0x100 * e, 5, 1, 0⟩
/-- Bit w = W armed [7:0] -/
def Reg.ENG.WATCH.ARMED (e : Nat) : Field := ⟨0x601020 + 0x100 * e, 0, 8, 0⟩
/-- Bit w = W fired and not yet taken [15:8] -/
def Reg.ENG.WATCH.FIRED (e : Nat) : Field := ⟨0x601020 + 0x100 * e, 8, 8, 0⟩
/-- Last NOTE value [31:0] -/
def Reg.ENG.NOTE.VALUE (e : Nat) : Field := ⟨0x601024 + 0x100 * e, 0, 32, 0⟩
/-- Layer tag of the last DEADLINE_MISS record [15:0] -/
def Reg.ENG.LAST_MISS.LT (e : Nat) : Field := ⟨0x601028 + 0x100 * e, 0, 16, 0⟩
/-- Its lateness, µs [31:16] -/
def Reg.ENG.LAST_MISS.LATE_US (e : Nat) : Field := ⟨0x601028 + 0x100 * e, 16, 16, 0⟩
/-- Last record: 0 LATE, 1 DEMAND, 2 ISSUE; 3 reserved [1:0] -/
def Reg.ENG.MISS_INFO.KIND (e : Nat) : Field := ⟨0x60102c + 0x100 * e, 0, 2, 0⟩
/-- Largest lateness since last written; hardware only raises it [31:16] -/
def Reg.ENG.MISS_INFO.MAX_LATE_US (e : Nat) : Field := ⟨0x60102c + 0x100 * e, 16, 16, 0⟩
/-- R260 Case D [30:0] -/
def Reg.ENG.ON_TIME.COUNT (e : Nat) : Field := ⟨0x601030 + 0x100 * e, 0, 31, 0⟩
/-- Sticky saturation [31:31] -/
def Reg.ENG.ON_TIME.SAT (e : Nat) : Field := ⟨0x601030 + 0x100 * e, 31, 1, 0⟩
/-- R260 Case C [30:0] -/
def Reg.ENG.MISS_LATE.COUNT (e : Nat) : Field := ⟨0x601034 + 0x100 * e, 0, 31, 0⟩
/-- Sticky saturation [31:31] -/
def Reg.ENG.MISS_LATE.SAT (e : Nat) : Field := ⟨0x601034 + 0x100 * e, 31, 1, 0⟩
/-- R260 Case A [30:0] -/
def Reg.ENG.MISS_DEMAND.COUNT (e : Nat) : Field := ⟨0x601038 + 0x100 * e, 0, 31, 0⟩
/-- Sticky saturation [31:31] -/
def Reg.ENG.MISS_DEMAND.SAT (e : Nat) : Field := ⟨0x601038 + 0x100 * e, 31, 1, 0⟩
/-- R260 Case B [30:0] -/
def Reg.ENG.MISS_ISSUE.COUNT (e : Nat) : Field := ⟨0x60103c + 0x100 * e, 0, 31, 0⟩
/-- Sticky saturation [31:31] -/
def Reg.ENG.MISS_ISSUE.SAT (e : Nat) : Field := ⟨0x60103c + 0x100 * e, 31, 1, 0⟩
/-- *FETCH outcome per granule* [30:0] -/
def Reg.ENG.HIT.COUNT (e : Nat) : Field := ⟨0x601040 + 0x100 * e, 0, 31, 0⟩
/-- Sticky saturation [31:31] -/
def Reg.ENG.HIT.SAT (e : Nat) : Field := ⟨0x601040 + 0x100 * e, 31, 1, 0⟩
/-- Never-written, clipped or discarded granules (R250) [30:0] -/
def Reg.ENG.SKIP.COUNT (e : Nat) : Field := ⟨0x601044 + 0x100 * e, 0, 31, 0⟩
/-- Sticky saturation [31:31] -/
def Reg.ENG.SKIP.SAT (e : Nat) : Field := ⟨0x601044 + 0x100 * e, 31, 1, 0⟩
/-- Fills dropped (R253) [30:0] -/
def Reg.ENG.NOFRAME.COUNT (e : Nat) : Field := ⟨0x601048 + 0x100 * e, 0, 31, 0⟩
/-- Sticky saturation [31:31] -/
def Reg.ENG.NOFRAME.SAT (e : Nat) : Field := ⟨0x601048 + 0x100 * e, 31, 1, 0⟩
/-- Fills refused by a full queue (R252) [30:0] -/
def Reg.ENG.QFULL_CTR.COUNT (e : Nat) : Field := ⟨0x60104c + 0x100 * e, 0, 31, 0⟩
/-- Sticky saturation [31:31] -/
def Reg.ENG.QFULL_CTR.SAT (e : Nat) : Field := ⟨0x60104c + 0x100 * e, 31, 1, 0⟩
/-- Pins refused at PIN_QUOTA (R254) [30:0] -/
def Reg.ENG.PIN_REF.COUNT (e : Nat) : Field := ⟨0x601050 + 0x100 * e, 0, 31, 0⟩
/-- Sticky saturation [31:31] -/
def Reg.ENG.PIN_REF.SAT (e : Nat) : Field := ⟨0x601050 + 0x100 * e, 31, 1, 0⟩
/-- Streams or watches refused (R250) [30:0] -/
def Reg.ENG.REFUSED.COUNT (e : Nat) : Field := ⟨0x601054 + 0x100 * e, 0, 31, 0⟩
/-- Sticky saturation [31:31] -/
def Reg.ENG.REFUSED.SAT (e : Nat) : Field := ⟨0x601054 + 0x100 * e, 31, 1, 0⟩
/-- Pattern-memory corrections [30:0] -/
def Reg.ENG.ECC_CE.COUNT (e : Nat) : Field := ⟨0x601058 + 0x100 * e, 0, 31, 0⟩
/-- Sticky saturation [31:31] -/
def Reg.ENG.ECC_CE.SAT (e : Nat) : Field := ⟨0x601058 + 0x100 * e, 31, 1, 0⟩
/-- Granules that took a credit, bits 31:0 [31:0] -/
def Reg.ENG.FILLS_LO.COUNT (e : Nat) : Field := ⟨0x601060 + 0x100 * e, 0, 32, 0⟩
/-- Bits 47:32; wraps [15:0] -/
def Reg.ENG.FILLS_HI.COUNT (e : Nat) : Field := ⟨0x601064 + 0x100 * e, 0, 16, 0⟩
/-- i = 0–7; Gi bits 31:0 [31:0] -/
def Reg.ENG.G_LO.VALUE (e i : Nat) : Field := ⟨0x601080 + 0x100 * e + 0x8 * i, 0, 32, 0⟩
/-- Gi bits 63:32 [31:0] -/
def Reg.ENG.G_HI.VALUE (e i : Nat) : Field := ⟨0x601084 + 0x100 * e + 0x8 * i, 0, 32, 0⟩
/-- Stitch i of engine e, bits 31:0 [31:0] -/
def Reg.STI.PAT_LO.STITCH (e i : Nat) : Field := ⟨0x610000 + 0x2000 * e + 0x8 * i, 0, 32, 0⟩
/-- Bits 63:32 [31:0] -/
def Reg.STI.PAT_HI.STITCH (e i : Nat) : Field := ⟨0x610004 + 0x2000 * e + 0x8 * i, 0, 32, 0⟩
/-- *Port configurations*; a write of 3 is discarded [1:0] -/
def Reg.TWL.CFG.PORTS : Field := ⟨0x700000, 0, 2, 0⟩
/-- 1 = PFC (R300) [2:2] -/
def Reg.TWL.CFG.PFC_EN : Field := ⟨0x700000, 2, 1, 0⟩
/-- 1 = bring up the ports [3:3] -/
def Reg.TWL.CFG.ENABLE : Field := ⟨0x700000, 3, 1, 0⟩
/-- 1 = RWL fields read-only [0:0] -/
def Reg.TWL.LOCK.LOCK : Field := ⟨0x700004, 0, 1, 0⟩
/-- Bit p = PFC on priority p [7:0] -/
def Reg.TWL.PFC.PRI : Field := ⟨0x700008, 0, 8, 32⟩
/-- Per-priority threshold, KiB [23:8] -/
def Reg.TWL.PFC.XOFF_KIB : Field := ⟨0x700008, 8, 16, 512⟩
/-- p = 0–3; 0 down, 1 200, 2 400, 3 800, 4 1,600 Gb/s; 5–7 reserved [2:0] -/
def Reg.TWL.PORT_STS.SPEED (p : Nat) : Field := ⟨0x700010 + 0x4 * p, 0, 3, 0⟩
/-- Bit l = lane l in use [10:3] -/
def Reg.TWL.PORT_STS.LANES (p : Nat) : Field := ⟨0x700010 + 0x4 * p, 3, 8, 0⟩
/-- Port MAC, bits 31:0 [31:0] -/
def Reg.TWL.MAC_LO.MAC (p : Nat) : Field := ⟨0x700020 + 0x8 * p, 0, 32, 0⟩
/-- Bits 47:32 [15:0] -/
def Reg.TWL.MAC_HI.MAC (p : Nat) : Field := ⟨0x700024 + 0x8 * p, 0, 16, 0⟩
/-- Uncorrectable RS(544,514) codewords [30:0] -/
def Reg.TWL.FEC_UE.COUNT (p : Nat) : Field := ⟨0x700040 + 0x4 * p, 0, 31, 0⟩
/-- Sticky saturation [31:31] -/
def Reg.TWL.FEC_UE.SAT (p : Nat) : Field := ⟨0x700040 + 0x4 * p, 31, 1, 0⟩
/-- Destination port [15:0] -/
def Reg.TWT.CFG.UDP_PORT : Field := ⟨0x740000, 0, 16, 47297⟩
/-- 4,800–9,216; other values discard the write [29:16] -/
def Reg.TWT.CFG.MTU : Field := ⟨0x740000, 16, 14, 9216⟩
/-- 1 = IPv6, 0 = IPv4 [30:30] -/
def Reg.TWT.CFG.IPV6 : Field := ⟨0x740000, 30, 1, 1⟩
/-- 1 = 802.1Q tag [31:31] -/
def Reg.TWT.CFG.VLAN_EN : Field := ⟨0x740000, 31, 1, 1⟩
/-- VLAN ID [11:0] -/
def Reg.TWT.TAG.VLAN_ID : Field := ⟨0x740004, 0, 12, 0⟩
/-- PCP of class 0 [14:12] -/
def Reg.TWT.TAG.PCP_DATA : Field := ⟨0x740004, 12, 3, 3⟩
/-- PCP of class 1 [17:15] -/
def Reg.TWT.TAG.PCP_LANE : Field := ⟨0x740004, 15, 3, 5⟩
/-- PCP of class 2, ACK and NAK [20:18] -/
def Reg.TWT.TAG.PCP_CTRL : Field := ⟨0x740004, 18, 3, 6⟩
/-- DSCP of every packet [26:21] -/
def Reg.TWT.TAG.DSCP : Field := ⟨0x740004, 21, 6, 0⟩
/-- 1 = RWL fields read-only [0:0] -/
def Reg.TWT.LOCK.LOCK : Field := ⟨0x740008, 0, 1, 0⟩
/-- 1–4,095; a write of 0 is discarded [11:0] -/
def Reg.TWT.RETX.RTO_US : Field := ⟨0x74000c, 0, 12, 50⟩
/-- Doublings, 0–15 [15:12] -/
def Reg.TWT.RETX.BACKOFF : Field := ⟨0x74000c, 12, 4, 4⟩
/-- 1–15; a write of 0 is discarded [19:16] -/
def Reg.TWT.RETX.RETRY_MAX : Field := ⟨0x74000c, 16, 4, 7⟩
/-- 1–31; a write of 0 is discarded [4:0] -/
def Reg.TWT.ACK.COAL_PKTS : Field := ⟨0x740010, 0, 5, 16⟩
/-- Coalescing delay [15:8] -/
def Reg.TWT.ACK.DELAY_100NS : Field := ⟨0x740010, 8, 8, 10⟩
/-- Offered window, 1–4,096 [12:0] -/
def Reg.TWT.WIN.WINDOW : Field := ⟨0x740014, 0, 13, 1024⟩
/-- i = 0–3; IPv6 bits 32i + 31:32i; IPv4 in i = 0 [31:0] -/
def Reg.TWT.LOCAL_IP.ADDR (i : Nat) : Field := ⟨0x740020 + 0x4 * i, 0, 32, 0⟩
/-- Association 0–47 [5:0] -/
def Reg.TWT.PA_SEL.ASSOC : Field := ⟨0x740040, 0, 6, 0⟩
/-- Peer member [4:0] -/
def Reg.TWT.PA_CFG.MEMBER : Field := ⟨0x740044, 0, 5, 0⟩
/-- 0 = slot 4, 1 = slot 5 [5:5] -/
def Reg.TWT.PA_CFG.SECRET : Field := ⟨0x740044, 5, 1, 0⟩
/-- Ports usable (R267) [9:6] -/
def Reg.TWT.PA_CFG.PORT_MASK : Field := ⟨0x740044, 6, 4, 15⟩
/-- 1 = send HELLO (R275) [10:10] -/
def Reg.TWT.PA_CFG.OPEN : Field := ⟨0x740044, 10, 1, 0⟩
/-- 1 = send REKEY (R277) [11:11] -/
def Reg.TWT.PA_CFG.REKEY : Field := ⟨0x740044, 11, 1, 0⟩
/-- 0 DOWN, 1 HELLO, 2 UP, 3 REKEY [1:0] -/
def Reg.TWT.PA_STS.STATE : Field := ⟨0x740048, 0, 2, 0⟩
/-- Transmit phase [2:2] -/
def Reg.TWT.PA_STS.KPH : Field := ⟨0x740048, 2, 1, 0⟩
/-- Association epoch [18:3] -/
def Reg.TWT.PA_STS.AEPOCH : Field := ⟨0x740048, 3, 16, 0⟩
/-- Next-hop MAC, bits 31:0 [31:0] -/
def Reg.TWT.PA_MAC_LO.MAC : Field := ⟨0x74004c, 0, 32, 0⟩
/-- Bits 47:32 [15:0] -/
def Reg.TWT.PA_MAC_HI.MAC : Field := ⟨0x740050, 0, 16, 0⟩
/-- Peer IP, as LOCAL_IP [31:0] -/
def Reg.TWT.PA_IP.ADDR (i : Nat) : Field := ⟨0x740054 + 0x4 * i, 0, 32, 0⟩
/-- R269 [30:0] -/
def Reg.TWT.ICV_FAIL.COUNT : Field := ⟨0x740080, 0, 31, 0⟩
/-- Sticky saturation [31:31] -/
def Reg.TWT.ICV_FAIL.SAT : Field := ⟨0x740080, 31, 1, 0⟩
/-- R269 [30:0] -/
def Reg.TWT.REPLAY.COUNT : Field := ⟨0x740084, 0, 31, 0⟩
/-- Sticky saturation [31:31] -/
def Reg.TWT.REPLAY.SAT : Field := ⟨0x740084, 31, 1, 0⟩
/-- Duplicates answered (R286) [30:0] -/
def Reg.TWT.DUP_RX.COUNT : Field := ⟨0x740088, 0, 31, 0⟩
/-- Sticky saturation [31:31] -/
def Reg.TWT.DUP_RX.SAT : Field := ⟨0x740088, 31, 1, 0⟩
/-- R284 Case D [30:0] -/
def Reg.TWT.OLD_DROP.COUNT : Field := ⟨0x74008c, 0, 31, 0⟩
/-- Sticky saturation [31:31] -/
def Reg.TWT.OLD_DROP.SAT : Field := ⟨0x74008c, 31, 1, 0⟩
/-- Retransmissions [30:0] -/
def Reg.TWT.RETX_CTR.COUNT : Field := ⟨0x740090, 0, 31, 0⟩
/-- Sticky saturation [31:31] -/
def Reg.TWT.RETX_CTR.SAT : Field := ⟨0x740090, 31, 1, 0⟩
/-- NAKs sent [30:0] -/
def Reg.TWT.NAK_TX.COUNT : Field := ⟨0x740094, 0, 31, 0⟩
/-- Sticky saturation [31:31] -/
def Reg.TWT.NAK_TX.SAT : Field := ⟨0x740094, 31, 1, 0⟩
/-- NAKs received [30:0] -/
def Reg.TWT.NAK_RX.COUNT : Field := ⟨0x740098, 0, 31, 0⟩
/-- Sticky saturation [31:31] -/
def Reg.TWT.NAK_RX.SAT : Field := ⟨0x740098, 31, 1, 0⟩
/-- Malformed, filtered or beyond-window packets [30:0] -/
def Reg.TWT.RX_DROP.COUNT : Field := ⟨0x74009c, 0, 31, 0⟩
/-- Sticky saturation [31:31] -/
def Reg.TWT.RX_DROP.SAT : Field := ⟨0x74009c, 31, 1, 0⟩
/-- 1 = rate control (R299) [0:0] -/
def Reg.CCC.CFG.CC_EN : Field := ⟨0x780000, 0, 1, 1⟩
/-- 1 = count buffer marks (R298) [1:1] -/
def Reg.CCC.CFG.RX_MARK : Field := ⟨0x780000, 1, 1, 1⟩
/-- EWMA gain 2^-G_SHIFT [5:2] -/
def Reg.CCC.CFG.G_SHIFT : Field := ⟨0x780000, 2, 4, 8⟩
/-- Averaging steps before additive increase [9:6] -/
def Reg.CCC.CFG.F_STEPS : Field := ⟨0x780000, 6, 4, 5⟩
/-- Minimum spacing of decreases [7:0] -/
def Reg.CCC.TIMERS.DEC_US : Field := ⟨0x780004, 0, 8, 4⟩
/-- Recovery period; a write of 0 is discarded [15:8] -/
def Reg.CCC.TIMERS.RAI_US : Field := ⟨0x780004, 8, 8, 50⟩
/-- Additive step [15:0] -/
def Reg.CCC.RATES.R_AI_MBPS : Field := ⟨0x780008, 0, 16, 5000⟩
/-- Floor [31:16] -/
def Reg.CCC.RATES.R_MIN_MBPS : Field := ⟨0x780008, 16, 16, 1000⟩
/-- Receive-buffer mark threshold [15:0] -/
def Reg.CCC.RX_KMIN.KIB : Field := ⟨0x78000c, 0, 16, 1024⟩
/-- Contexts cached, both partitions, 0–4,096 [12:0] -/
def Reg.CCC.CACHE_STS.CACHED : Field := ⟨0x780010, 0, 13, 0⟩
/-- Pinned connections open, 0–256 (R280) [21:13] -/
def Reg.CCC.CACHE_STS.PINNED : Field := ⟨0x780010, 13, 9, 0⟩
/-- Refills in flight, 0–32 [27:22] -/
def Reg.CCC.CACHE_STS.REFILLS : Field := ⟨0x780010, 22, 6, 0⟩
/-- Cache misses [30:0] -/
def Reg.CCC.MISS.COUNT : Field := ⟨0x780020, 0, 31, 0⟩
/-- Sticky saturation [31:31] -/
def Reg.CCC.MISS.SAT : Field := ⟨0x780020, 31, 1, 0⟩
/-- R282 [30:0] -/
def Reg.CCC.HOLD_DROP.COUNT : Field := ⟨0x780024, 0, 31, 0⟩
/-- Sticky saturation [31:31] -/
def Reg.CCC.HOLD_DROP.SAT : Field := ⟨0x780024, 31, 1, 0⟩
/-- R281 [30:0] -/
def Reg.CCC.NOWAY.COUNT : Field := ⟨0x780028, 0, 31, 0⟩
/-- Sticky saturation [31:31] -/
def Reg.CCC.NOWAY.SAT : Field := ⟨0x780028, 31, 1, 0⟩
/-- Packets counted as CE [30:0] -/
def Reg.CCC.CE_RX.COUNT : Field := ⟨0x78002c, 0, 31, 0⟩
/-- Sticky saturation [31:31] -/
def Reg.CCC.CE_RX.SAT : Field := ⟨0x78002c, 31, 1, 0⟩
/-- CID of the connection shown [15:0] -/
def Reg.CCC.CID_SEL.CID : Field := ⟨0x780040, 0, 16, 0⟩
/-- Its association, 0–47 (R278) [21:16] -/
def Reg.CCC.CID_SEL.ASSOC : Field := ⟨0x780040, 16, 6, 0⟩
/-- 0 CLOSED, 1 OPEN, 2 ERROR, 3 CLOSING [1:0] -/
def Reg.CCC.CID_STS.STATE : Field := ⟨0x780044, 0, 2, 0⟩
/-- 0 strict, 1 relaxed [2:2] -/
def Reg.CCC.CID_STS.MODE : Field := ⟨0x780044, 2, 1, 0⟩
/-- Context on chip [3:3] -/
def Reg.CCC.CID_STS.CACHED : Field := ⟨0x780044, 3, 1, 0⟩
/-- R281 [4:4] -/
def Reg.CCC.CID_STS.BUSY : Field := ⟨0x780044, 4, 1, 0⟩
/-- Association [10:5] -/
def Reg.CCC.CID_STS.ASSOC : Field := ⟨0x780044, 5, 6, 0⟩
/-- R_C [20:0] -/
def Reg.CCC.CID_RATE.RC_MBPS : Field := ⟨0x780048, 0, 21, 0⟩
/-- α × 65,536, saturating at 65,535 [15:0] -/
def Reg.CCC.CID_ALPHA.ALPHA : Field := ⟨0x78004c, 0, 16, 0⟩
/-- Sender's UNA [31:0] -/
def Reg.CCC.CID_SND.UNA : Field := ⟨0x780050, 0, 32, 0⟩
/-- Receiver's EXP_PSN [31:0] -/
def Reg.CCC.CID_EXP.EXP_PSN : Field := ⟨0x780054, 0, 32, 0⟩
/-- 1 = paired (R303) [0:0] -/
def Reg.MIR.CFG.PAIRED : Field := ⟨0x7c0000, 0, 1, 0⟩
/-- 0 = member referee, 1 = host referee [1:1] -/
def Reg.MIR.CFG.REF_HOST : Field := ⟨0x7c0000, 1, 1, 0⟩
/-- Referee member [6:2] -/
def Reg.MIR.CFG.REF_MEMBER : Field := ⟨0x7c0000, 2, 5, 0⟩
/-- Twin association, 0–47 [12:7] -/
def Reg.MIR.CFG.ASSOC : Field := ⟨0x7c0000, 7, 6, 0⟩
/-- 1 = resync starts itself (R332) [13:13] -/
def Reg.MIR.CFG.AUTO_RESYNC : Field := ⟨0x7c0000, 13, 1, 1⟩
/-- 1 = RWL fields read-only [0:0] -/
def Reg.MIR.LOCK.LOCK : Field := ⟨0x7c0004, 0, 1, 0⟩
/-- Pair identity [15:0] -/
def Reg.MIR.PAIR_ID.ID : Field := ⟨0x7c0008, 0, 16, 0⟩
/-- *Roles*; 7 reserved [2:0] -/
def Reg.MIR.ROLE.ROLE : Field := ⟨0x7c000c, 0, 3, 0⟩
/-- Active only: 0 LOCKSTEP, 1 SOLO, 2 DETACHING, 3 RESYNC [4:3] -/
def Reg.MIR.ROLE.PSTATE : Field := ⟨0x7c000c, 3, 2, 0⟩
/-- Last value the referee reported [5:5] -/
def Reg.MIR.ROLE.STBY_OK : Field := ⟨0x7c000c, 5, 1, 0⟩
/-- R317 [6:6] -/
def Reg.MIR.ROLE.DIV_VALID : Field := ⟨0x7c000c, 6, 1, 0⟩
/-- Lease epoch held or last known, bits 31:0 [31:0] -/
def Reg.MIR.EPOCH_LO.EPOCH : Field := ⟨0x7c0010, 0, 32, 0⟩
/-- Bits 63:32 [31:0] -/
def Reg.MIR.EPOCH_HI.EPOCH : Field := ⟨0x7c0014, 0, 32, 0⟩
/-- Time to lease end − GUARD, µs; 0 when no lease is held [17:0] -/
def Reg.MIR.LEASE_LEFT.US : Field := ⟨0x7c0018, 0, 18, 0⟩
/-- 1–20 ms (R316); a write of 0 or above 20 is discarded [4:0] -/
def Reg.MIR.DETACH.DETACH_MS : Field := ⟨0x7c001c, 0, 5, 5⟩
/-- Unacknowledged record payload, 0–65,536 KiB (R313) [16:0] -/
def Reg.MIR.LAG.KIB : Field := ⟨0x7c0020, 0, 17, 0⟩
/-- Copies per ms; 0 = paused [15:0] -/
def Reg.MIR.RESYNC.RATE : Field := ⟨0x7c0024, 0, 16, 8192⟩
/-- Copy progress, 0–100 [6:0] -/
def Reg.MIR.RSYNC_STS.PCT : Field := ⟨0x7c0028, 0, 7, 0⟩
/-- Paused for keys [7:7] -/
def Reg.MIR.RSYNC_STS.KEY_WAIT : Field := ⟨0x7c0028, 7, 1, 0⟩
/-- Full copy (R332 step 2) [8:8] -/
def Reg.MIR.RSYNC_STS.FULL : Field := ⟨0x7c0028, 8, 1, 0⟩
/-- Divergence bits set, bits 31:0 [31:0] -/
def Reg.MIR.DIV_LO.COUNT : Field := ⟨0x7c002c, 0, 32, 0⟩
/-- Bits 33:32 [1:0] -/
def Reg.MIR.DIV_HI.COUNT : Field := ⟨0x7c0030, 0, 2, 0⟩
/-- Unanswered RENEWs (R320) [30:0] -/
def Reg.MIR.RENEW_FAIL.COUNT : Field := ⟨0x7c0040, 0, 31, 0⟩
/-- Sticky saturation [31:31] -/
def Reg.MIR.RENEW_FAIL.SAT : Field := ⟨0x7c0040, 31, 1, 0⟩
/-- Self-fences [30:0] -/
def Reg.MIR.FENCE_CTR.COUNT : Field := ⟨0x7c0044, 0, 31, 0⟩
/-- Sticky saturation [31:31] -/
def Reg.MIR.FENCE_CTR.SAT : Field := ⟨0x7c0044, 31, 1, 0⟩
/-- Records discarded at DRAIN (R323) [30:0] -/
def Reg.MIR.LANE_DISCARD.COUNT : Field := ⟨0x7c0048, 0, 31, 0⟩
/-- Sticky saturation [31:31] -/
def Reg.MIR.LANE_DISCARD.SAT : Field := ⟨0x7c0048, 31, 1, 0⟩
/-- Lockstep exits [30:0] -/
def Reg.MIR.DETACH_CTR.COUNT : Field := ⟨0x7c004c, 0, 31, 0⟩
/-- Sticky saturation [31:31] -/
def Reg.MIR.DETACH_CTR.SAT : Field := ⟨0x7c004c, 31, 1, 0⟩
/-- l = 0–15; records not yet acknowledged [20:0] -/
def Reg.MIR.LANE_STS.PENDING (l : Nat) : Field := ⟨0x7c0050 + 0x4 * l, 0, 21, 0⟩
/-- Refereed pair slot, 0–15 [3:0] -/
def Reg.MIR.REF_SEL.SLOT : Field := ⟨0x7c0100, 0, 4, 0⟩
/-- Pair refereed [15:0] -/
def Reg.MIR.REF_CFG.PAIR_ID : Field := ⟨0x7c0104, 0, 16, 0⟩
/-- First twin [20:16] -/
def Reg.MIR.REF_CFG.MEMBER_A : Field := ⟨0x7c0104, 16, 5, 0⟩
/-- Second twin [25:21] -/
def Reg.MIR.REF_CFG.MEMBER_B : Field := ⟨0x7c0104, 21, 5, 0⟩
/-- 1 = slot in use [26:26] -/
def Reg.MIR.REF_CFG.EN : Field := ⟨0x7c0104, 26, 1, 0⟩
/-- 0 = A, 1 = B [0:0] -/
def Reg.MIR.REF_STS.HOLDER : Field := ⟨0x7c0108, 0, 1, 0⟩
/-- As held by this referee [1:1] -/
def Reg.MIR.REF_STS.STBY_OK : Field := ⟨0x7c0108, 1, 1, 0⟩
/-- END not yet passed [2:2] -/
def Reg.MIR.REF_STS.LIVE : Field := ⟨0x7c0108, 2, 1, 0⟩
/-- Bits 31:0; a read latches REF_EPOCH_HI [31:0] -/
def Reg.MIR.REF_EPOCH_LO.EPOCH : Field := ⟨0x7c010c, 0, 32, 0⟩
/-- Bits 63:32 [31:0] -/
def Reg.MIR.REF_EPOCH_HI.EPOCH : Field := ⟨0x7c0110, 0, 32, 0⟩
/-- Own member number [4:0] -/
def Reg.RND.CFG.MEMBER : Field := ⟨0x800000, 0, 5, 0⟩
/-- 1 = cast on (R345) [5:5] -/
def Reg.RND.CFG.ENABLE : Field := ⟨0x800000, 5, 1, 0⟩
/-- 1 = lend (R349) [6:6] -/
def Reg.RND.CFG.LEND_EN : Field := ⟨0x800000, 6, 1, 0⟩
/-- 1 = RWL fields read-only [0:0] -/
def Reg.RND.LOCK.LOCK : Field := ⟨0x800004, 0, 1, 0⟩
/-- Protocol version [7:0] -/
def Reg.RND.VER.PROTO : Field := ⟨0x800008, 0, 8, 1⟩
/-- Ring minimum, carried in the token [15:8] -/
def Reg.RND.VER.MIN_VER : Field := ⟨0x800008, 8, 8, 1⟩
/-- Circuit bound (R338) [15:0] -/
def Reg.RND.BUDGET.ROUND_US : Field := ⟨0x80000c, 0, 16, 2000⟩
/-- Neighbour one-way budget (R354) [31:16] -/
def Reg.RND.BUDGET.N_US : Field := ⟨0x80000c, 16, 16, 20⟩
/-- Token period, 10–1,000; other values discard the write [9:0] -/
def Reg.RND.TOKEN.PERIOD_MS : Field := ⟨0x800010, 0, 10, 100⟩
/-- Time referee (R344) [4:0] -/
def Reg.RND.TIMEREF.REF_MEMBER : Field := ⟨0x800014, 0, 5, 0⟩
/-- 0 OUT, 1 CASTING_ON, 2 IN, 3 CASTING_OFF, 4 REFUSED; 5–7 reserved [2:0] -/
def Reg.RND.STS.STATE : Field := ⟨0x800018, 0, 3, 0⟩
/-- Current leader [7:3] -/
def Reg.RND.STS.LEADER : Field := ⟨0x800018, 3, 5, 0⟩
/-- Members in the ring, 0–32 [13:8] -/
def Reg.RND.STS.COUNT : Field := ⟨0x800018, 8, 6, 0⟩
/-- Last refusal (*Cast-on checks*) [17:14] -/
def Reg.RND.STS.REASON : Field := ⟨0x800018, 14, 4, 0⟩
/-- Bit m = member m [31:0] -/
def Reg.RND.RING.MEMBERS : Field := ⟨0x80001c, 0, 32, 0⟩
/-- ROUND_EPOCH, bits 31:0 [31:0] -/
def Reg.RND.EPOCH_LO.EPOCH : Field := ⟨0x800020, 0, 32, 0⟩
/-- Bits 63:32 [31:0] -/
def Reg.RND.EPOCH_HI.EPOCH : Field := ⟨0x800024, 0, 32, 0⟩
/-- µs; leader only [15:0] -/
def Reg.RND.CIRCUIT.LAST : Field := ⟨0x800028, 0, 16, 0⟩
/-- Largest of the last 8 [31:16] -/
def Reg.RND.CIRCUIT.MAX : Field := ⟨0x800028, 16, 16, 0⟩
/-- Calendar offset from the referee, µs, two's complement [31:0] -/
def Reg.RND.TIME_OFS.OFS_US : Field := ⟨0x80002c, 0, 32, 0⟩
/-- i = 0–7; configuration digest [31:0] -/
def Reg.RND.DIGEST.DIGEST (i : Nat) : Field := ⟨0x800030 + 0x4 * i, 0, 32, 0⟩
/-- Lending reserve (R349) [26:0] -/
def Reg.RND.LEND.KEEP_FRAMES : Field := ⟨0x800050, 0, 27, 262144⟩
/-- 0–8,192; above stores 8,192 [13:0] -/
def Reg.RND.BORROW.MAX_LOANS : Field := ⟨0x800054, 0, 14, 8192⟩
/-- Return after idle (R353); 0 = never [23:14] -/
def Reg.RND.BORROW.IDLE_S : Field := ⟨0x800054, 14, 10, 60⟩
/-- R350 [23:0] -/
def Reg.RND.BORROW_SPARE.SLOTS : Field := ⟨0x800058, 0, 24, 16384⟩
/-- R355; a write of 0 is discarded [11:0] -/
def Reg.RND.N_TMO.N_TIMEOUT_US : Field := ⟨0x80005c, 0, 12, 100⟩
/-- Loans lent, 0–32,768 [15:0] -/
def Reg.RND.LOANS.LENT : Field := ⟨0x800060, 0, 16, 0⟩
/-- Loans borrowed, 0–8,192 [29:16] -/
def Reg.RND.LOANS.BORROWED : Field := ⟨0x800060, 16, 14, 0⟩
/-- Member shown in M fields [4:0] -/
def Reg.RND.MSEL.MEMBER : Field := ⟨0x800070, 0, 5, 0⟩
/-- One-way time, saturating [15:0] -/
def Reg.RND.M_STS.ONEWAY_US : Field := ⟨0x800074, 0, 16, 0⟩
/-- R354 [16:16] -/
def Reg.RND.M_STS.SLOW : Field := ⟨0x800074, 16, 1, 0⟩
/-- In MEMBERS [17:17] -/
def Reg.RND.M_STS.IN_RING : Field := ⟨0x800074, 17, 1, 0⟩
/-- Association UP [18:18] -/
def Reg.RND.M_STS.ASSOC_UP : Field := ⟨0x800074, 18, 1, 0⟩
/-- Loans lent to the member [15:0] -/
def Reg.RND.M_LOANS.LENT_TO : Field := ⟨0x800078, 0, 16, 0⟩
/-- Loans borrowed from it, 0–1,024 [26:16] -/
def Reg.RND.M_LOANS.FROM : Field := ⟨0x800078, 16, 11, 0⟩
/-- Joins refused, tokens dropped [30:0] -/
def Reg.RND.REFUSE_CTR.COUNT : Field := ⟨0x800080, 0, 31, 0⟩
/-- Sticky saturation [31:31] -/
def Reg.RND.REFUSE_CTR.SAT : Field := ⟨0x800080, 31, 1, 0⟩
/-- Circuits over budget [30:0] -/
def Reg.RND.CIRC_LATE.COUNT : Field := ⟨0x800084, 0, 31, 0⟩
/-- Sticky saturation [31:31] -/
def Reg.RND.CIRC_LATE.SAT : Field := ⟨0x800084, 31, 1, 0⟩
/-- Loans reclaimed or dropped [30:0] -/
def Reg.RND.RECLAIM_CTR.COUNT : Field := ⟨0x800088, 0, 31, 0⟩
/-- Sticky saturation [31:31] -/
def Reg.RND.RECLAIM_CTR.SAT : Field := ⟨0x800088, 31, 1, 0⟩
/-- R355 [30:0] -/
def Reg.RND.N_TIMEOUT.COUNT : Field := ⟨0x80008c, 0, 31, 0⟩
/-- Sticky saturation [31:31] -/
def Reg.RND.N_TIMEOUT.SAT : Field := ⟨0x80008c, 31, 1, 0⟩
/-- 0 MANUFACTURE, 1 PRODUCTION, 2 RMA; 3 reserved [1:0] -/
def Reg.KSL.LIFECYCLE.STATE : Field := ⟨0x200000, 0, 2, 0⟩
/-- Fuse of R361 [2:2] -/
def Reg.KSL.LIFECYCLE.DBG_OFF : Field := ⟨0x200000, 2, 1, 0⟩
/-- Debug level since chip reset (R382) [4:3] -/
def Reg.KSL.LIFECYCLE.DBG_LEVEL : Field := ⟨0x200000, 3, 2, 0⟩
/-- 0 UNOWNED, 1 OWNED, 2 UNCONFIGURED, 3 ZEROISING [1:0] -/
def Reg.KSL.OWN_STS.STATE : Field := ⟨0x200004, 0, 2, 0⟩
/-- Bit 2 slot 4 installed, bit 3 slot 5 installed, bit 4 referee key held; bits 10:5 zero [10:2] -/
def Reg.KSL.OWN_STS.SECRETS : Field := ⟨0x200004, 2, 9, 0⟩
/-- 0 = A, 1 = B running [0:0] -/
def Reg.KSL.BOOT_STS.IMAGE : Field := ⟨0x200008, 0, 1, 0⟩
/-- R365 [1:1] -/
def Reg.KSL.BOOT_STS.FALLBACK : Field := ⟨0x200008, 1, 1, 0⟩
/-- Both images failed [2:2] -/
def Reg.KSL.BOOT_STS.FAILED : Field := ⟨0x200008, 2, 1, 0⟩
/-- Image for the next boot [3:3] -/
def Reg.KSL.BOOT_STS.BOOT_SEL : Field := ⟨0x200008, 3, 1, 0⟩
/-- 1 = advance the SVN fuses (R362); reads 0 [0:0] -/
def Reg.KSL.BOOT_CTL.COMMIT : Field := ⟨0x20000c, 0, 1, 0⟩
/-- Warden fuse value, 0–64 [6:0] -/
def Reg.KSL.SVN.WSVN : Field := ⟨0x200010, 0, 7, 0⟩
/-- Application fuse value [14:8] -/
def Reg.KSL.SVN.ASVN : Field := ⟨0x200010, 8, 7, 0⟩
/-- Running warden SVN [22:16] -/
def Reg.KSL.SVN.RUN_W : Field := ⟨0x200010, 16, 7, 0⟩
/-- Running application SVN [30:24] -/
def Reg.KSL.SVN.RUN_A : Field := ⟨0x200010, 24, 7, 0⟩
/-- R360 [0:0] -/
def Reg.KSL.ISL_STS.LOCKOUT : Field := ⟨0x200014, 0, 1, 0⟩
/-- Island resets since chip reset, saturating at 15 [4:1] -/
def Reg.KSL.ISL_STS.EXCURSIONS : Field := ⟨0x200014, 1, 4, 0⟩
/-- i = 0–7; DEVICE_HASH [31:0] -/
def Reg.KSL.DEVID.HASH (i : Nat) : Field := ⟨0x200020 + 0x4 * i, 0, 32, 0⟩
/-- i = 0–7; owner credential hash; 0 when UNOWNED [31:0] -/
def Reg.KSL.OWNER.HASH (i : Nat) : Field := ⟨0x200040 + 0x4 * i, 0, 32, 0⟩
/-- Tenant shown [9:0] -/
def Reg.KSL.TEN_SEL.TENANT : Field := ⟨0x200060, 0, 10, 0⟩
/-- Credential installed [0:0] -/
def Reg.KSL.TEN_STS.ENROLLED : Field := ⟨0x200064, 0, 1, 0⟩
/-- Memory slots bound, 0–4,095; saturates [12:1] -/
def Reg.KSL.TEN_STS.SLOTS : Field := ⟨0x200064, 1, 12, 0⟩
/-- Bit n = GLD n bound, 0–31 [31:0] -/
def Reg.KSL.TEN_GLD_LO.GLD : Field := ⟨0x200068, 0, 32, 0⟩
/-- GLDs 32–63 [31:0] -/
def Reg.KSL.TEN_GLD_HI.GLD : Field := ⟨0x20006c, 0, 32, 0⟩
/-- LAST_SEQ bits 31:0; a read latches TEN_SEQ_HI [31:0] -/
def Reg.KSL.TEN_SEQ_LO.SEQ : Field := ⟨0x200070, 0, 32, 0⟩
/-- Bits 63:32 [31:0] -/
def Reg.KSL.TEN_SEQ_HI.SEQ : Field := ⟨0x200074, 0, 32, 0⟩
/-- Signed operations refused at steps 1–3 of R372, and lease tags refused [30:0] -/
def Reg.KSL.SIG_FAIL.COUNT : Field := ⟨0x200080, 0, 31, 0⟩
/-- Sticky saturation [31:31] -/
def Reg.KSL.SIG_FAIL.SAT : Field := ⟨0x200080, 31, 1, 0⟩
/-- Sequence numbers refused [30:0] -/
def Reg.KSL.SEQ_FAIL.COUNT : Field := ⟨0x200084, 0, 31, 0⟩
/-- Sticky saturation [31:31] -/
def Reg.KSL.SEQ_FAIL.SAT : Field := ⟨0x200084, 31, 1, 0⟩
/-- Key-store records skipped (R384) [30:0] -/
def Reg.KSL.KS_ERR.COUNT : Field := ⟨0x200088, 0, 31, 0⟩
/-- Sticky saturation [31:31] -/
def Reg.KSL.KS_ERR.SAT : Field := ⟨0x200088, 31, 1, 0⟩
/-- s = 0–4,095; staged epoch held (R377) [0:0] -/
def Reg.KSL.MSLOT_NEXT.STAGED (s : Nat) : Field := ⟨0x220000 + 0x4 * s, 0, 1, 0⟩
/-- SQ host address bits 31:0; bits 11:0 must be 0 [31:0] -/
def Reg.RING.SQ_BASE_LO.ADDR (r : Nat) : Field := ⟨0x888000 + 0x40 * r, 0, 32, 0⟩
/-- Bits 63:32 [31:0] -/
def Reg.RING.SQ_BASE_HI.ADDR (r : Nat) : Field := ⟨0x888004 + 0x40 * r, 0, 32, 0⟩
/-- CQ host address bits 31:0; bits 11:0 must be 0 [31:0] -/
def Reg.RING.CQ_BASE_LO.ADDR (r : Nat) : Field := ⟨0x888008 + 0x40 * r, 0, 32, 0⟩
/-- Bits 63:32 [31:0] -/
def Reg.RING.CQ_BASE_HI.ADDR (r : Nat) : Field := ⟨0x88800c + 0x40 * r, 0, 32, 0⟩
/-- SQ entries = 2^SQ_LOG2, 4–16 [4:0] -/
def Reg.RING.SIZE.SQ_LOG2 (r : Nat) : Field := ⟨0x888010 + 0x40 * r, 0, 5, 4⟩
/-- CQ entries = 2^CQ_LOG2, SQ_LOG2–16. A write that breaks either range is discarded. [12:8] -/
def Reg.RING.SIZE.CQ_LOG2 (r : Nat) : Field := ⟨0x888010 + 0x40 * r, 8, 5, 4⟩
/-- 1 = run; 0 = stop fetching (R392) [0:0] -/
def Reg.RING.CTL.ENABLE (r : Nat) : Field := ⟨0x888014 + 0x40 * r, 0, 1, 0⟩
/-- MSI-X vector of the owning function [11:1] -/
def Reg.RING.CTL.MSIX (r : Nat) : Field := ⟨0x888014 + 0x40 * r, 1, 11, 0⟩
/-- 1 = signal completions [12:12] -/
def Reg.RING.CTL.IRQ_EN (r : Nat) : Field := ⟨0x888014 + 0x40 * r, 12, 1, 0⟩
/-- 0 DISABLED, 1 RUNNING, 2 DRAINING, 3 ERROR [1:0] -/
def Reg.RING.STS.STATE (r : Nat) : Field := ⟨0x888018 + 0x40 * r, 0, 2, 0⟩
/-- Global ring number while not DISABLED [11:2] -/
def Reg.RING.STS.GRING (r : Nat) : Field := ⟨0x888018 + 0x40 * r, 2, 10, 0⟩
/-- 0 none, 1 descriptor read failed, 2 completion write failed, 3 no ring in the pool or COUN [14:12] -/
def Reg.RING.STS.ERR (r : Nat) : Field := ⟨0x888018 + 0x40 * r, 12, 3, 0⟩
/-- Completions per signal; 0 = every completion [7:0] -/
def Reg.RING.COAL.CNT (r : Nat) : Field := ⟨0x88801c + 0x40 * r, 0, 8, 0⟩
/-- Maximum delay of a signal, µs; 0 = none [15:8] -/
def Reg.RING.COAL.TIME_US (r : Nat) : Field := ⟨0x88801c + 0x40 * r, 8, 8, 0⟩
/-- Commands taken and not yet completed [16:0] -/
def Reg.RING.OUTST.CMDS (r : Nat) : Field := ⟨0x888020 + 0x40 * r, 0, 17, 0⟩
/-- Rings this function may enable (CMD.RQ.COUNT) [4:0] -/
def Reg.RING.RING_CAP.COUNT : Field := ⟨0x887f00, 0, 5, 15⟩
/-- New SQ tail index [15:0] -/
def Reg.DB.SQ_TAIL.TAIL (r : Nat) : Field := ⟨0x890000 + 0x1000 * r, 0, 16, 0⟩
/-- CQ entries consumed up to, not including, HEAD [15:0] -/
def Reg.DB.CQ_HEAD.HEAD (r : Nat) : Field := ⟨0x890004 + 0x1000 * r, 0, 16, 0⟩
/-- Next SQ index the device will fetch [15:0] -/
def Reg.DB.RING.SQ_HEAD (r : Nat) : Field := ⟨0x890008 + 0x1000 * r, 0, 16, 0⟩
/-- As STS.STATE [17:16] -/
def Reg.DB.RING.STATE (r : Nat) : Field := ⟨0x890008 + 0x1000 * r, 16, 2, 0⟩
/-- MIR.ROLE.ROLE (*Roles*) [2:0] -/
def Reg.DB.PAIR_STS.ROLE (r : Nat) : Field := ⟨0x890010 + 0x1000 * r, 0, 3, 0⟩
/-- MIR.ROLE.PSTATE [4:3] -/
def Reg.DB.PAIR_STS.PSTATE (r : Nat) : Field := ⟨0x890010 + 0x1000 * r, 3, 2, 0⟩
/-- MIR lease epoch bits 31:0; a read latches EPOCH_HI [31:0] -/
def Reg.DB.EPOCH_LO.EPOCH (r : Nat) : Field := ⟨0x890018 + 0x1000 * r, 0, 32, 0⟩
/-- Bits 63:32 [31:0] -/
def Reg.DB.EPOCH_HI.EPOCH (r : Nat) : Field := ⟨0x89001c + 0x1000 * r, 0, 32, 0⟩
/-- e = 0–15; Stitcher doorbell (R256) [15:0] -/
def Reg.DB.TRIG.VALUE (r e : Nat) : Field := ⟨0x890800 + 0x1000 * r + 0x4 * e, 0, 16, 0⟩
/-- 0 = fetch from no ring [0:0] -/
def Reg.CMD.CFG.ENABLE : Field := ⟨0x880000, 0, 1, 1⟩
/-- Descriptors per ring per turn, 1–8; other values discard the write [4:1] -/
def Reg.CMD.CFG.BURST : Field := ⟨0x880000, 1, 4, 8⟩
/-- 1 = RWL fields read-only [0:0] -/
def Reg.CMD.LOCK.LOCK : Field := ⟨0x880004, 0, 1, 0⟩
/-- GLD 0–63; 64 = management function [6:0] -/
def Reg.CMD.RQ_SEL.FUNC : Field := ⟨0x880010, 0, 7, 0⟩
/-- Rings the function may hold, 0–16 (R388) [4:0] -/
def Reg.CMD.RQ.COUNT : Field := ⟨0x880014, 0, 5, 15⟩
/-- Sum of COUNT [10:0] -/
def Reg.CMD.RQ_SUM.SUM : Field := ⟨0x880018, 0, 11, 976⟩
/-- Global ring shown [9:0] -/
def Reg.CMD.RING_SEL.GRING : Field := ⟨0x880020, 0, 10, 0⟩
/-- As the ring's STS.STATE [1:0] -/
def Reg.CMD.RING_STS.STATE : Field := ⟨0x880024, 0, 2, 0⟩
/-- Owning function [8:2] -/
def Reg.CMD.RING_STS.FUNC : Field := ⟨0x880024, 2, 7, 0⟩
/-- Local ring number [12:9] -/
def Reg.CMD.RING_STS.LOCAL : Field := ⟨0x880024, 9, 4, 0⟩
/-- Commands outstanding [29:13] -/
def Reg.CMD.RING_STS.OUTST : Field := ⟨0x880024, 13, 17, 0⟩
/-- Commands completed, bits 31:0 [31:0] -/
def Reg.CMD.CMDS_LO.COUNT : Field := ⟨0x880030, 0, 32, 0⟩
/-- Bits 47:32; wraps [15:0] -/
def Reg.CMD.CMDS_HI.COUNT : Field := ⟨0x880034, 0, 16, 0⟩
/-- Completions with STATUS 0x10 or above [30:0] -/
def Reg.CMD.REFUSED.COUNT : Field := ⟨0x880038, 0, 31, 0⟩
/-- Sticky saturation [31:31] -/
def Reg.CMD.REFUSED.SAT : Field := ⟨0x880038, 31, 1, 0⟩
/-- Buffer and ring transfer failures [30:0] -/
def Reg.CMD.DMA_ERR.COUNT : Field := ⟨0x88003c, 0, 31, 0⟩
/-- Sticky saturation [31:31] -/
def Reg.CMD.DMA_ERR.SAT : Field := ⟨0x88003c, 31, 1, 0⟩
/-- Queue shown, 0–511 [8:0] -/
def Reg.SKQ.Q_SEL.QUEUE : Field := ⟨0xa40000, 0, 9, 0⟩
/-- Items = 2^SIZE_LOG2 [4:0] -/
def Reg.SKQ.Q_CFG.SIZE_LOG2 : Field := ⟨0xa40004, 0, 5, 0⟩
/-- First item in skein storage [22:5] -/
def Reg.SKQ.Q_CFG.BASE : Field := ⟨0xa40004, 5, 18, 0⟩
/-- R408 [23:23] -/
def Reg.SKQ.Q_CFG.FULL_MODE : Field := ⟨0xa40004, 23, 1, 0⟩
/-- 1 = software may pop and command (R412) [24:24] -/
def Reg.SKQ.Q_CFG.SW : Field := ⟨0xa40004, 24, 1, 0⟩
/-- R410; 0 = off [16:0] -/
def Reg.SKQ.Q_LEVEL.LEVEL : Field := ⟨0xa40008, 0, 17, 0⟩
/-- Items held [16:0] -/
def Reg.SKQ.Q_STS.FILL : Field := ⟨0xa4000c, 0, 17, 0⟩
/-- R411 [17:17] -/
def Reg.SKQ.Q_STS.DROPPING : Field := ⟨0xa4000c, 17, 1, 0⟩
/-- R411; reads 0 [0:0] -/
def Reg.SKQ.Q_CTL.DROP_PKT : Field := ⟨0xa40010, 0, 1, 0⟩
/-- R412; reads 0 [1:1] -/
def Reg.SKQ.Q_CTL.RESET : Field := ⟨0xa40010, 1, 1, 0⟩
/-- A read pops (SW queues only) and latches POP_HI [31:0] -/
def Reg.SKQ.POP_LO.ITEM : Field := ⟨0xa40014, 0, 32, 0⟩
/-- Bits 63:32 [31:0] -/
def Reg.SKQ.POP_HI.ITEM : Field := ⟨0xa40018, 0, 32, 0⟩
/-- Resets of the shown queue [30:0] -/
def Reg.SKQ.RESETS.COUNT : Field := ⟨0xa4001c, 0, 31, 0⟩
/-- Sticky saturation [31:31] -/
def Reg.SKQ.RESETS.SAT : Field := ⟨0xa4001c, 31, 1, 0⟩
/-- Items discarded on full (R408 Case B) [30:0] -/
def Reg.SKQ.DROPS.COUNT : Field := ⟨0xa40020, 0, 31, 0⟩
/-- Sticky saturation [31:31] -/
def Reg.SKQ.DROPS.SAT : Field := ⟨0xa40020, 31, 1, 0⟩
/-- IDLE-kind pushes refused, all queues [30:0] -/
def Reg.SKQ.REJECTS.COUNT : Field := ⟨0xa40024, 0, 31, 0⟩
/-- Sticky saturation [31:31] -/
def Reg.SKQ.REJECTS.SAT : Field := ⟨0xa40024, 31, 1, 0⟩
/-- i = 0–15; bit b = queue 32i + b crossed its level [31:0] -/
def Reg.SKQ.LVL_PEND.PEND (i : Nat) : Field := ⟨0xa40100 + 0x4 * i, 0, 32, 0⟩
/-- Minimum MSI-X spacing per (TARGET, VECTOR), µs; 0 = none [7:0] -/
def Reg.FCO.CFG.INT_GAP_US : Field := ⟨0x900000, 0, 8, 10⟩
/-- R423; a write of 0 is discarded [15:8] -/
def Reg.FCO.CFG.BRST_HOLD_MS : Field := ⟨0x900000, 8, 8, 10⟩
/-- 1 = toggle (R427, R430) [0:0] -/
def Reg.FCO.PULSE_CTL.RUN : Field := ⟨0x900008, 0, 1, 0⟩
/-- Pin level [0:0] -/
def Reg.FCO.PULSE_STS.LEVEL : Field := ⟨0x90000c, 0, 1, 0⟩
/-- Stopped by an event since the last RUN = 1 [1:1] -/
def Reg.FCO.PULSE_STS.STOPPED : Field := ⟨0x90000c, 1, 1, 0⟩
/-- Queue 0 entries lost (R421) [30:0] -/
def Reg.FCO.EVQ_LOST.COUNT : Field := ⟨0x900010, 0, 31, 0⟩
/-- Sticky saturation [31:31] -/
def Reg.FCO.EVQ_LOST.SAT : Field := ⟨0x900010, 31, 1, 0⟩
/-- Interrupts not sent (R419) [30:0] -/
def Reg.FCO.INT_DROP.COUNT : Field := ⟨0x900014, 0, 31, 0⟩
/-- Sticky saturation [31:31] -/
def Reg.FCO.INT_DROP.SAT : Field := ⟨0x900014, 31, 1, 0⟩
/-- Block resets held back (R423) [30:0] -/
def Reg.FCO.BRST_SUPP.COUNT : Field := ⟨0x900018, 0, 31, 0⟩
/-- Sticky saturation [31:31] -/
def Reg.FCO.BRST_SUPP.SAT : Field := ⟨0x900018, 31, 1, 0⟩
/-- First event ID in class c [9:0] -/
def Reg.FCO.LAT_ID.ID (c : Nat) : Field := ⟨0x900100 + 0x10 * c, 0, 10, 0⟩
/-- 1 = latched; writing 1 clears the latch (R426) [10:10] -/
def Reg.FCO.LAT_ID.VALID (c : Nat) : Field := ⟨0x900100 + 0x10 * c, 10, 1, 0⟩
/-- A later event selected the class [11:11] -/
def Reg.FCO.LAT_ID.OVERFLOW (c : Nat) : Field := ⟨0x900100 + 0x10 * c, 11, 1, 0⟩
/-- Syndrome (R415) [31:0] -/
def Reg.FCO.LAT_SYND.SYND (c : Nat) : Field := ⟨0x900104 + 0x10 * c, 0, 32, 0⟩
/-- Calendar ns, bits 31:0 [31:0] -/
def Reg.FCO.LAT_TIME_LO.TIME (c : Nat) : Field := ⟨0x900108 + 0x10 * c, 0, 32, 0⟩
/-- Bits 63:32 [31:0] -/
def Reg.FCO.LAT_TIME_HI.TIME (c : Nat) : Field := ⟨0x90010c + 0x10 * c, 0, 32, 0⟩
/-- 1 = push an entry to event queue 0 (R420) [0:0] -/
def Reg.FCO.REACT.QUEUE (i : Nat) : Field := ⟨0x901000 + 0x4 * i, 0, 1, 1⟩
/-- 1 = interrupt TARGET on VECTOR (R419) [1:1] -/
def Reg.FCO.REACT.INT (i : Nat) : Field := ⟨0x901000 + 0x4 * i, 1, 1, 0⟩
/-- 1 = non-maskable trap (R422) [2:2] -/
def Reg.FCO.REACT.TRAP (i : Nat) : Field := ⟨0x901000 + 0x4 * i, 2, 1, 0⟩
/-- 1 = reset the source block (R423) [3:3] -/
def Reg.FCO.REACT.BRST (i : Nat) : Field := ⟨0x901000 + 0x4 * i, 3, 1, 0⟩
/-- 1 = chip reset (R424) [4:4] -/
def Reg.FCO.REACT.CRST (i : Nat) : Field := ⟨0x901000 + 0x4 * i, 4, 1, 0⟩
/-- 1 = stop PULSE (R428) [5:5] -/
def Reg.FCO.REACT.PULSE (i : Nat) : Field := ⟨0x901000 + 0x4 * i, 5, 1, 0⟩
/-- 1 = write a Row-log record (R431) [6:6] -/
def Reg.FCO.REACT.LOG (i : Nat) : Field := ⟨0x901000 + 0x4 * i, 6, 1, 0⟩
/-- MSI-X vector [18:8] -/
def Reg.FCO.REACT.VECTOR (i : Nat) : Field := ⟨0x901000 + 0x4 * i, 8, 11, 0⟩
/-- 0-63 GLD, 64 management, 127 management-core IRQ [25:19] -/
def Reg.FCO.REACT.TARGET (i : Nat) : Field := ⟨0x901000 + 0x4 * i, 19, 7, 127⟩
/-- cores that receive the trap [29:26] -/
def Reg.FCO.REACT.CORES (i : Nat) : Field := ⟨0x901000 + 0x4 * i, 26, 4, 1⟩
/-- 0 buffered-flush, 1 per-record-check (R436) [0:0] -/
def Reg.ROW.CFG.MODE : Field := ⟨0x8c0000, 0, 1, 0⟩
/-- 1 = stop instead of wrapping (R434) [1:1] -/
def Reg.ROW.CFG.FULL_STOP : Field := ⟨0x8c0000, 1, 1, 0⟩
/-- 1–255; a write of 0 is discarded [15:8] -/
def Reg.ROW.CFG.FLUSH_MS : Field := ⟨0x8c0000, 8, 8, 10⟩
/-- 1 = RWL fields read-only [0:0] -/
def Reg.ROW.LOCK.LOCK : Field := ⟨0x8c0004, 0, 1, 0⟩
/-- 0 SCANNING, 1 RUN, 2 FROZEN, 3 STOPPED, 4 POWER_FAIL; 5–7 reserved [2:0] -/
def Reg.ROW.STS.STATE : Field := ⟨0x8c0008, 0, 3, 0⟩
/-- R434 [3:3] -/
def Reg.ROW.STS.WRAPPED : Field := ⟨0x8c0008, 3, 1, 0⟩
/-- R436 Case B [4:4] -/
def Reg.ROW.STS.NOR_ERR : Field := ⟨0x8c0008, 4, 1, 0⟩
/-- Current clear generation [15:0] -/
def Reg.ROW.CLRGEN.GEN : Field := ⟨0x8c000c, 0, 16, 0⟩
/-- Oldest readable record, bits 31:0 [31:0] -/
def Reg.ROW.OLDEST_LO.SEQ : Field := ⟨0x8c0010, 0, 32, 0⟩
/-- Bits 47:32 [15:0] -/
def Reg.ROW.OLDEST_HI.SEQ : Field := ⟨0x8c0014, 0, 16, 0⟩
/-- Open record, bits 31:0 [31:0] -/
def Reg.ROW.NEWEST_LO.SEQ : Field := ⟨0x8c0018, 0, 32, 0⟩
/-- Bits 47:32 [15:0] -/
def Reg.ROW.NEWEST_HI.SEQ : Field := ⟨0x8c001c, 0, 16, 0⟩
/-- Row counter of the open record [15:0] -/
def Reg.ROW.OPEN.ROW_CNT : Field := ⟨0x8c0020, 0, 16, 0⟩
/-- A record is open [16:16] -/
def Reg.ROW.OPEN.VALID : Field := ⟨0x8c0020, 16, 1, 0⟩
/-- Records lost (R431, R434) [30:0] -/
def Reg.ROW.LOST.COUNT : Field := ⟨0x8c0024, 0, 31, 0⟩
/-- Sticky saturation [31:31] -/
def Reg.ROW.LOST.SAT : Field := ⟨0x8c0024, 31, 1, 0⟩
/-- Slots failing their tag (R438, R439) [30:0] -/
def Reg.ROW.BAD_TAG.COUNT : Field := ⟨0x8c0028, 0, 31, 0⟩
/-- Sticky saturation [31:31] -/
def Reg.ROW.BAD_TAG.SAT : Field := ⟨0x8c0028, 31, 1, 0⟩
/-- Read-back failures (R436) [30:0] -/
def Reg.ROW.VERIFY_FAIL.COUNT : Field := ⟨0x8c002c, 0, 31, 0⟩
/-- Sticky saturation [31:31] -/
def Reg.ROW.VERIFY_FAIL.SAT : Field := ⟨0x8c002c, 31, 1, 0⟩
/-- *Sequencer states*; 9–15 reserved [3:0] -/
def Reg.PSQ.STS.STATE : Field := ⟨0x940000, 0, 4, 0⟩
/-- Step index in progress [9:4] -/
def Reg.PSQ.STS.STEP : Field := ⟨0x940000, 4, 6, 0⟩
/-- Filtered PWRON [10:10] -/
def Reg.PSQ.STS.PWRON : Field := ⟨0x940000, 10, 1, 0⟩
/-- Filtered PFAIL_N, 1 = asserted [11:11] -/
def Reg.PSQ.STS.PFAIL : Field := ⟨0x940000, 11, 1, 0⟩
/-- R448 Case B [12:12] -/
def Reg.PSQ.STS.PENDING_ON : Field := ⟨0x940000, 12, 1, 0⟩
/-- Orderly off (R450); reads 0 [0:0] -/
def Reg.PSQ.CTL.OFF : Field := ⟨0x940004, 0, 1, 0⟩
/-- Orderly off, then power-up; reads 0 [1:1] -/
def Reg.PSQ.CTL.CYCLE : Field := ⟨0x940004, 1, 1, 0⟩
/-- Minimum off time, 100–65,535; a lower write is discarded [15:0] -/
def Reg.PSQ.TIMES.OFF_MIN_MS : Field := ⟨0x940008, 0, 16, 500⟩
/-- Running-rail grace (R451), 10–65,535 µs [31:16] -/
def Reg.PSQ.TIMES.GRACE_US : Field := ⟨0x940008, 16, 16, 2000⟩
/-- R449 [1:0] -/
def Reg.PSQ.RETRY.UP_RETRY : Field := ⟨0x94000c, 0, 2, 2⟩
/-- 1 = RWL fields read-only [0:0] -/
def Reg.PSQ.LOCK.LOCK : Field := ⟨0x940010, 0, 1, 0⟩
/-- Bit n = SEQ_PGn, filtered [15:0] -/
def Reg.PSQ.RAILS.PG : Field := ⟨0x940014, 0, 16, 0⟩
/-- Bit n = SEQ_ENn [31:16] -/
def Reg.PSQ.RAILS.EN : Field := ⟨0x940014, 16, 16, 0⟩
/-- Slot of the last failure [3:0] -/
def Reg.PSQ.FAIL.SLOT : Field := ⟨0x940018, 0, 4, 0⟩
/-- 0 none, 1 ON timeout, 2 running fault recovered, 3 running fault shut down, 4 threshold ti [6:4] -/
def Reg.PSQ.FAIL.KIND : Field := ⟨0x940018, 4, 3, 0⟩
/-- Writing 1 clears FAIL [7:7] -/
def Reg.PSQ.FAIL.VALID : Field := ⟨0x940018, 7, 1, 0⟩
/-- OFF_V timeouts [30:0] -/
def Reg.PSQ.THR_TMO.COUNT : Field := ⟨0x94001c, 0, 31, 0⟩
/-- Sticky saturation [31:31] -/
def Reg.PSQ.THR_TMO.SAT : Field := ⟨0x94001c, 31, 1, 0⟩
/-- 0 configuration block, 1 built-in (R446) [0:0] -/
def Reg.PSQ.PROG_STS.SRC : Field := ⟨0x940020, 0, 1, 0⟩
/-- First failing step [6:1] -/
def Reg.PSQ.PROG_STS.ERR_STEP : Field := ⟨0x940020, 1, 6, 0⟩
/-- s = 0–15; OFF_V threshold; 0 for timeout slots [7:0] -/
def Reg.PSQ.SLOT_CFG.THRESH_10MV (s : Nat) : Field := ⟨0x940040 + 0x4 * s, 0, 8, ([0, 0, 10, 12, 22, 0, 0, 0, 0, 0, 0, 0, 0, 0, 0, 0].getD s 0)⟩
/-- 1 for slots 2–4 [8:8] -/
def Reg.PSQ.SLOT_CFG.PRIV (s : Nat) : Field := ⟨0x940040 + 0x4 * s, 8, 1, ([0, 0, 1, 1, 1, 0, 0, 0, 0, 0, 0, 0, 0, 0, 0, 0].getD s 0)⟩
/-- i = 0–63; loaded step word [31:0] -/
def Reg.PSQ.PROG.STEP (i : Nat) : Field := ⟨0x940100 + 0x4 * i, 0, 32, (regProgReset.getD i 0)⟩
/-- 1 = FCLK spread from the next chip reset [0:0] -/
def Reg.CKS.SSC.EN : Field := ⟨0x980000, 0, 1, 0⟩
/-- Spread in force [1:1] -/
def Reg.CKS.SSC.ACTIVE : Field := ⟨0x980000, 1, 1, 0⟩
/-- 1 = RWL fields read-only [0:0] -/
def Reg.CKS.LOCK.LOCK : Field := ⟨0x980004, 0, 1, 0⟩
/-- Bits 0 F, 1 S, 2 N, 3 E, 7:4 D0–D3, 11:8 L0–L3; 13:12 reserved [13:0] -/
def Reg.CKS.PLL_STS.LOCKED : Field := ⟨0x980008, 0, 14, 0⟩
/-- R458 Case A [14:14] -/
def Reg.CKS.PLL_STS.HOLDOVER : Field := ⟨0x980008, 14, 1, 0⟩
/-- Bits: 0 XTAL, 1 RTCX, 2 HREFCLK, 3 EREFCLK, 4 backup oscillator in use [4:0] -/
def Reg.CKS.CLK_STS.REF_OK : Field := ⟨0x98000c, 0, 5, 0⟩
/-- R459 [5:5] -/
def Reg.CKS.CLK_STS.VBAT_LOW : Field := ⟨0x98000c, 5, 1, 0⟩
/-- Orderly chip reset; reads 0 [0:0] -/
def Reg.CKS.RST_CTL.CHIP : Field := ⟨0x980010, 0, 1, 0⟩
/-- 0 VAON, 1 cold, 2 PORST_N, 3 CRST, 4 RST_CTL, 5 watchdog, 6 PLL_S, 7 EXTEST, 8 PLL_F (emer [3:0] -/
def Reg.CKS.RST_CAUSE.CAUSE : Field := ⟨0x980014, 0, 4, 0⟩
/-- 0 = off (R461) [15:0] -/
def Reg.CKS.WDT.TIMEOUT_MS : Field := ⟨0x980018, 0, 16, 0⟩
/-- Any write restarts the watchdog [31:0] -/
def Reg.CKS.KICK.KICK : Field := ⟨0x98001c, 0, 32, 0⟩
/-- RTC bits 31:0 [31:0] -/
def Reg.CKS.RTC_LO.COUNT : Field := ⟨0x980020, 0, 32, 0⟩
/-- Bits 47:32 [15:0] -/
def Reg.CKS.RTC_HI.COUNT : Field := ⟨0x980024, 0, 16, 0⟩
/-- R459 [16:16] -/
def Reg.CKS.RTC_HI.VALID : Field := ⟨0x980024, 16, 1, 0⟩
/-- New RTC bits 31:0 [31:0] -/
def Reg.CKS.RTC_SET_LO.COUNT : Field := ⟨0x980028, 0, 32, 0⟩
/-- Bits 47:32; a write applies the pair [15:0] -/
def Reg.CKS.RTC_SET_HI.COUNT : Field := ⟨0x98002c, 0, 16, 0⟩
/-- Calendar time, ns, bits 31:0 [31:0] -/
def Reg.CKS.CAL_NS_LO.TIME : Field := ⟨0x980030, 0, 32, 0⟩
/-- Bits 63:32 [31:0] -/
def Reg.CKS.CAL_NS_HI.TIME : Field := ⟨0x980034, 0, 32, 0⟩
/-- Losses of lock [30:0] -/
def Reg.CKS.PLL_LOST.COUNT : Field := ⟨0x980038, 0, 31, 0⟩
/-- Sticky saturation [31:31] -/
def Reg.CKS.PLL_LOST.SAT : Field := ⟨0x980038, 31, 1, 0⟩
/-- Item shown (*CAL items*) [7:0] -/
def Reg.CAL.SEL.ITEM : Field := ⟨0x9c0000, 0, 8, 0⟩
/-- Layer 1, two's complement [15:0] -/
def Reg.CAL.FUSE.VALUE : Field := ⟨0x9c0004, 0, 16, 0⟩
/-- User limit, magnitude [31:16] -/
def Reg.CAL.FUSE.LIMIT : Field := ⟨0x9c0004, 16, 16, 0⟩
/-- Layer 2, two's complement [15:0] -/
def Reg.CAL.USER.OFS : Field := ⟨0x9c0008, 0, 16, 0⟩
/-- Effective value [15:0] -/
def Reg.CAL.EFF.VALUE : Field := ⟨0x9c000c, 0, 16, 0⟩
/-- Layer 2 or 3 clamped [16:16] -/
def Reg.CAL.EFF.CLAMPED : Field := ⟨0x9c000c, 16, 1, 0⟩
/-- 1 = USER read-only [0:0] -/
def Reg.CAL.LOCK.LOCK : Field := ⟨0x9c0010, 0, 1, 0⟩
/-- Layer-1 CRC passed [0:0] -/
def Reg.CAL.STS.FUSE_OK : Field := ⟨0x9c0014, 0, 1, 0⟩
/-- g = 0–10; 0 = 2 mA, 1 = 4 mA, 2 = 8 mA, 3 = 12 mA [1:0] -/
def Reg.PAD.GRP.DRIVE (g : Nat) : Field := ⟨0xa80000 + 0x4 * g, 0, 2, 1⟩
/-- *Slew settings* [3:2] -/
def Reg.PAD.GRP.SLEW (g : Nat) : Field := ⟨0xa80000 + 0x4 * g, 2, 2, 0⟩
/-- 0 none, 1 down, 2 up; a write of 3 is discarded [5:4] -/
def Reg.PAD.GRP.PULL (g : Nat) : Field := ⟨0xa80000 + 0x4 * g, 4, 2, ([1, 0, 2, 0, 0, 2, 0, 0, 0, 0, 0].getD g 0)⟩
/-- 1 = GRP read-only [0:0] -/
def Reg.PAD.LOCK.LOCK : Field := ⟨0xa80040, 0, 1, 0⟩
/-- °C, 80–105; other writes are discarded [7:0] -/
def Reg.SNS.THERM.THROTTLE_C : Field := ⟨0xa00000, 0, 8, 100⟩
/-- °C, 100–115; other writes are discarded [15:8] -/
def Reg.SNS.THERM.CRIT_C : Field := ⟨0xa00000, 8, 8, 110⟩
/-- 10–100 %; other writes are discarded [22:16] -/
def Reg.SNS.THERM.ADMIT_PCT : Field := ⟨0xa00000, 16, 7, 50⟩
/-- Case A in force [0:0] -/
def Reg.SNS.THROT.ACTIVE : Field := ⟨0xa00004, 0, 1, 0⟩
/-- Current Tj, °C [8:1] -/
def Reg.SNS.THROT.TJ_C : Field := ⟨0xa00004, 1, 8, 0⟩
/-- Hottest sensor, 0–31 [13:9] -/
def Reg.SNS.THROT.HOT : Field := ⟨0xa00004, 9, 5, 0⟩
/-- 1 = RWL fields read-only; cleared by chip reset [0:0] -/
def Reg.SNS.LOCK.LOCK : Field := ⟨0xa00008, 0, 1, 0⟩
/-- Part number [15:0] -/
def Reg.GLB.ID.PART : Field := ⟨0x0, 0, 16, 38432⟩
/-- Stepping [23:16] -/
def Reg.GLB.ID.STEP : Field := ⟨0x0, 16, 8, 177⟩
/-- Nderex family [31:24] -/
def Reg.GLB.ID.FAMILY : Field := ⟨0x0, 24, 8, 78⟩
/-- Boot ROM version [15:0] -/
def Reg.GLB.REV.ROM : Field := ⟨0x4, 0, 16, 0⟩
/-- Device serial, bits 31:0 [31:0] -/
def Reg.GLB.SERIAL_LO.SERIAL : Field := ⟨0x8, 0, 32, 0⟩
/-- Bits 63:32 [31:0] -/
def Reg.GLB.SERIAL_HI.SERIAL : Field := ⟨0xc, 0, 32, 0⟩
/-- CXL ports [2:0] -/
def Reg.GLB.CAP0.PORTS : Field := ⟨0x10, 0, 3, 4⟩
/-- Heads [7:3] -/
def Reg.GLB.CAP0.HEADS : Field := ⟨0x10, 3, 5, 16⟩
/-- Logical devices [14:8] -/
def Reg.GLB.CAP0.LDS : Field := ⟨0x10, 8, 7, 64⟩
/-- DRAM channels [18:15] -/
def Reg.GLB.CAP0.CHANNELS : Field := ⟨0x10, 15, 4, 12⟩
/-- Root ports [22:19] -/
def Reg.GLB.CAP0.DRIVES : Field := ⟨0x10, 19, 4, 8⟩
/-- Twinset lanes [26:23] -/
def Reg.GLB.CAP0.TW_LANES : Field := ⟨0x10, 23, 4, 8⟩
/-- 4,096 regions [4:0] -/
def Reg.GLB.CAP1.REGIONS_LOG2 : Field := ⟨0x14, 0, 5, 12⟩
/-- 1,024 tenants [9:5] -/
def Reg.GLB.CAP1.TENANTS_LOG2 : Field := ⟨0x14, 5, 5, 10⟩
/-- Memory key slots [14:10] -/
def Reg.GLB.CAP1.MSLOT_LOG2 : Field := ⟨0x14, 10, 5, 12⟩
/-- Link key slots [19:15] -/
def Reg.GLB.CAP1.LSLOT_LOG2 : Field := ⟨0x14, 15, 5, 8⟩
/-- Internal key slots [24:20] -/
def Reg.GLB.CAP1.ISLOT_LOG2 : Field := ⟨0x14, 20, 5, 4⟩
/-- Ring pairs [29:25] -/
def Reg.GLB.CAP1.RINGS_LOG2 : Field := ⟨0x14, 25, 5, 10⟩
/-- Stitcher engines [5:0] -/
def Reg.GLB.CAP2.ENGINES : Field := ⟨0x18, 0, 6, 16⟩
/-- Round members [11:6] -/
def Reg.GLB.CAP2.MEMBERS : Field := ⟨0x18, 6, 6, 32⟩
/-- Skein queues [21:12] -/
def Reg.GLB.CAP2.SKQ : Field := ⟨0x18, 12, 10, 512⟩
/-- DPA width [27:22] -/
def Reg.GLB.CAP2.DPA_BITS : Field := ⟨0x18, 22, 6, 46⟩
/-- Line cache [7:0] -/
def Reg.GLB.CAP3.LC_MIB : Field := ⟨0x1c, 0, 8, 96⟩
/-- Metadata cache [15:8] -/
def Reg.GLB.CAP3.MD_MIB : Field := ⟨0x1c, 8, 8, 24⟩
/-- Frame-map cache [23:16] -/
def Reg.GLB.CAP3.FM_MIB : Field := ⟨0x1c, 16, 8, 16⟩
/-- Skein storage [31:24] -/
def Reg.GLB.CAP3.SKQ_MIB : Field := ⟨0x1c, 24, 8, 2⟩
/-- Checked lanes [6:0] -/
def Reg.GLB.CAP4.RNT_LANES : Field := ⟨0x20, 0, 7, 48⟩
/-- Keccak cores [12:7] -/
def Reg.GLB.CAP4.KECCAK : Field := ⟨0x20, 7, 6, 24⟩
/-- AES-256 cores [19:13] -/
def Reg.GLB.CAP4.AES : Field := ⟨0x20, 13, 7, 96⟩
/-- Bit 0 NX5310 training mode, 1 Twinset, 2 Round, 3 IDE, 4 DCD, 5 CXL.cache, 6 back-invalida [7:0] -/
def Reg.GLB.FEAT.FLAGS : Field := ⟨0x24, 0, 8, 31⟩
/-- R482 [12:0] -/
def Reg.GLB.REGCNT.COUNT : Field := ⟨0x28, 0, 13, 6214⟩
/-- ECS.FILL_STS.ALL_DONE [0:0] -/
def Reg.GLB.STATE.FILL_DONE : Field := ⟨0x2c, 0, 1, 0⟩
/-- NVH.IMG_STS.STATE [3:1] -/
def Reg.GLB.STATE.IMG : Field := ⟨0x2c, 1, 3, 0⟩
/-- HLD.STATUS.STATE [6:4] -/
def Reg.GLB.STATE.HLD : Field := ⟨0x2c, 4, 3, 3⟩
/-- MIR.ROLE.ROLE [9:7] -/
def Reg.GLB.STATE.ROLE : Field := ⟨0x2c, 7, 3, 0⟩
/-- ROW.STS.STATE [12:10] -/
def Reg.GLB.STATE.ROW : Field := ⟨0x2c, 10, 3, 0⟩
/-- Bit c = code c implemented [31:0] -/
def Reg.GLB.BLK_LO.PRESENT : Field := ⟨0x30, 0, 32, 4294967295⟩
/-- Bit c = code 32 + c implemented [31:0] -/
def Reg.GLB.BLK_HI.PRESENT : Field := ⟨0x34, 0, 32, 2047⟩
/-- R487 [0:0] -/
def Reg.GLB.LOCK_ALL.LOCK : Field := ⟨0x40, 0, 1, 0⟩
/-- Bit c = block c's LOCK set; 0 for blocks without LOCK [31:0] -/
def Reg.GLB.LOCK_LO.SET : Field := ⟨0x44, 0, 32, 0⟩
/-- Codes 32–63 [31:0] -/
def Reg.GLB.LOCK_HI.SET : Field := ⟨0x48, 0, 32, 0⟩
/-- BAR0 offset of the last discarded write [23:0] -/
def Reg.GLB.WR_DISC.OFFSET : Field := ⟨0x50, 0, 24, 0⟩
/-- 0 no writable target, 1 locked, 2 out of range, 3 width or alignment [26:24] -/
def Reg.GLB.WR_DISC.CAUSE : Field := ⟨0x50, 24, 3, 0⟩
/-- Discarded writes [30:0] -/
def Reg.GLB.WR_DISC_CNT.COUNT : Field := ⟨0x54, 0, 31, 0⟩
/-- Sticky saturation [31:31] -/
def Reg.GLB.WR_DISC_CNT.SAT : Field := ⟨0x54, 31, 1, 0⟩
/-- i = 0–3 [31:0] -/
def Reg.GLB.SCRATCH.VALUE (i : Nat) : Field := ⟨0x60 + 0x4 * i, 0, 32, 0⟩
/-- R79; a write of 0 is discarded [15:0] -/
def Reg.HP.DCD_TIMEOUT.SEC (n : Nat) : Field := ⟨0x40030 + 0x40000 * n, 0, 16, 10⟩
/-- R85 [15:0] -/
def Reg.HP.TWIN_RTT_NS.NS (n : Nat) : Field := ⟨0x40034 + 0x40000 * n, 0, 16, 0⟩
/-- Local event 9 when ERR[h][0] reaches this value [15:0] -/
def Reg.HP.CE_THRESH.THRESH (n : Nat) : Field := ⟨0x40038 + 0x40000 * n, 0, 16, 256⟩
/-- k = 0–7; R85 [1:0] -/
def Reg.HP.DCR_CLASS.CLASS (n k : Nat) : Field := ⟨0x40040 + 0x40000 * n + 0x4 * k, 0, 2, 3⟩
/-- Head h. i: 0 correctable receiver, 1 flit CRC, 2 FEC corrected, 3 replays, 4 FEC uncorrect [30:0] -/
def Reg.HP.ERR.COUNT (n h i : Nat) : Field := ⟨0x40100 + 0x40000 * n + 0x20 * h + 0x4 * i, 0, 31, 0⟩
/-- Sticky saturation [31:31] -/
def Reg.HP.ERR.SAT (n h i : Nat) : Field := ⟨0x40100 + 0x40000 * n + 0x20 * h + 0x4 * i, 31, 1, 0⟩
/-- l = 0–15; transmitter preset in use [3:0] -/
def Reg.HP.LANE.PRESET (n l : Nat) : Field := ⟨0x40400 + 0x40000 * n + 0x4 * l, 0, 4, 0⟩
/-- Polarity inverted [4:4] -/
def Reg.HP.LANE.POL (n l : Nat) : Field := ⟨0x40400 + 0x40000 * n + 0x4 * l, 4, 1, 0⟩
/-- Logical lane [8:5] -/
def Reg.HP.LANE.LOGICAL (n l : Nat) : Field := ⟨0x40400 + 0x40000 * n + 0x4 * l, 5, 4, 0⟩
/-- In the trained width [9:9] -/
def Reg.HP.LANE.ACTIVE (n l : Nat) : Field := ⟨0x40400 + 0x40000 * n + 0x4 * l, 9, 1, 0⟩
/-- Region shown [11:0] -/
def Reg.RTE.REG_SEL.REGION : Field := ⟨0x140000, 0, 12, 0⟩
/-- Base, 2 MiB units [24:0] -/
def Reg.RTE.REG_BASE.EXTENTS : Field := ⟨0x140004, 0, 25, 0⟩
/-- Size, 2 MiB units [25:0] -/
def Reg.RTE.REG_SIZE.EXTENTS : Field := ⟨0x140008, 0, 26, 0⟩
/-- Owner [9:0] -/
def Reg.RTE.REG_ATTR.TENANT : Field := ⟨0x14000c, 0, 10, 0⟩
/-- Ack mode TWIN [10:10] -/
def Reg.RTE.REG_ATTR.TWIN : Field := ⟨0x14000c, 10, 1, 0⟩
/-- Mirror flag [11:11] -/
def Reg.RTE.REG_ATTR.MIRROR : Field := ⟨0x14000c, 11, 1, 0⟩
/-- Tier policy (R230) [15:12] -/
def Reg.RTE.REG_ATTR.POLICY : Field := ⟨0x14000c, 12, 4, 0⟩
/-- State DRAINING [16:16] -/
def Reg.RTE.REG_ATTR.DRAINING : Field := ⟨0x14000c, 16, 1, 0⟩
/-- Region exists [17:17] -/
def Reg.RTE.REG_ATTR.VALID : Field := ⟨0x14000c, 17, 1, 0⟩
/-- This device is HOME (R305) [18:18] -/
def Reg.RTE.REG_ATTR.HOME : Field := ⟨0x14000c, 18, 1, 0⟩
/-- Key slot; 0xFFFF = plaintext [15:0] -/
def Reg.RTE.REG_KEY.SLOT : Field := ⟨0x140010, 0, 16, 0⟩
/-- Generation [31:16] -/
def Reg.RTE.REG_KEY.GEN : Field := ⟨0x140010, 16, 16, 0⟩
/-- In-flight count (R295) [20:0] -/
def Reg.RTE.REG_INFLT.COUNT : Field := ⟨0x140014, 0, 21, 0⟩
/-- Bit n = GLD n attached, 0–31 [31:0] -/
def Reg.RTE.REG_GLD_LO.GLD : Field := ⟨0x140018, 0, 32, 0⟩
/-- GLDs 32–63 [31:0] -/
def Reg.RTE.REG_GLD_HI.GLD : Field := ⟨0x14001c, 0, 32, 0⟩
/-- Requests that waited under R24 [30:0] -/
def Reg.RTE.HAZARD.COUNT : Field := ⟨0x140030, 0, 31, 0⟩
/-- Sticky saturation [31:31] -/
def Reg.RTE.HAZARD.SAT : Field := ⟨0x140030, 31, 1, 0⟩
/-- h = 0–15; request queue entries, 0–512 [9:0] -/
def Reg.RTE.HEADQ.OCC (h : Nat) : Field := ⟨0x140040 + 0x4 * h, 0, 10, 0⟩
/-- R75: 0 Light, 1 Optimal, 2 Moderate, 3 Severe [11:10] -/
def Reg.RTE.HEADQ.DEVLOAD (h : Nat) : Field := ⟨0x140040 + 0x4 * h, 10, 2, 0⟩
/-- p = 0–3; admission hold entries, 0–256 [8:0] -/
def Reg.RTE.HOLDQ.HELD (p : Nat) : Field := ⟨0x140080 + 0x4 * p, 0, 9, 0⟩
/-- g = 0–63; decode misses (R74) [30:0] -/
def Reg.RTE.GLD_MISS.COUNT (g : Nat) : Field := ⟨0x140100 + 0x4 * g, 0, 31, 0⟩
/-- Sticky saturation [31:31] -/
def Reg.RTE.GLD_MISS.SAT (g : Nat) : Field := ⟨0x140100 + 0x4 * g, 31, 1, 0⟩
/-- Metadata cache hits, bits 31:0 [31:0] -/
def Reg.MDC.HIT_LO.COUNT : Field := ⟨0x240000, 0, 32, 0⟩
/-- Bits 47:32; wraps [15:0] -/
def Reg.MDC.HIT_HI.COUNT : Field := ⟨0x240004, 0, 16, 0⟩
/-- Misses, bits 31:0 [31:0] -/
def Reg.MDC.MISS_LO.COUNT : Field := ⟨0x240008, 0, 32, 0⟩
/-- Bits 47:32; wraps [15:0] -/
def Reg.MDC.MISS_HI.COUNT : Field := ⟨0x24000c, 0, 16, 0⟩
/-- Refetches under R116 [30:0] -/
def Reg.MDC.REFETCH.COUNT : Field := ⟨0x240018, 0, 31, 0⟩
/-- Sticky saturation [31:31] -/
def Reg.MDC.REFETCH.SAT : Field := ⟨0x240018, 31, 1, 0⟩
/-- Modified cache words [21:0] -/
def Reg.MDC.DIRTY.WORDS : Field := ⟨0x24001c, 0, 22, 0⟩
/-- n = 0–11; metadata fetches queued, 0–64 [6:0] -/
def Reg.MDC.FETCHQ.OCC (n : Nat) : Field := ⟨0x240040 + 0x4 * n, 0, 7, 0⟩
/-- Bit k = core k released by the warden (R365) [3:0] -/
def Reg.MGC.CORE_EN.EN : Field := ⟨0x840000, 0, 4, 0⟩
/-- Bit k = core k halted under debug [3:0] -/
def Reg.MGC.STS.HALTED : Field := ⟨0x840004, 0, 4, 0⟩
/-- Request words, 1–512 [9:0] -/
def Reg.MGC.MBOX_CTL.LEN_IN : Field := ⟨0x840008, 0, 10, 0⟩
/-- Hand the request to the island; reads 0 [10:10] -/
def Reg.MGC.MBOX_CTL.GO : Field := ⟨0x840008, 10, 1, 0⟩
/-- Island owns the mailbox [0:0] -/
def Reg.MGC.MBOX_STS.BUSY : Field := ⟨0x84000c, 0, 1, 0⟩
/-- Answer ready [1:1] -/
def Reg.MGC.MBOX_STS.DONE : Field := ⟨0x84000c, 1, 1, 0⟩
/-- Answer words [11:2] -/
def Reg.MGC.MBOX_STS.LEN_OUT : Field := ⟨0x84000c, 2, 10, 0⟩
/-- 0 success; other values as the island's answer states [15:12] -/
def Reg.MGC.MBOX_STS.RESULT : Field := ⟨0x84000c, 12, 4, 0⟩
/-- Lowest pending enabled event ID [9:0] -/
def Reg.MGC.IRQ_NEXT.ID : Field := ⟨0x840010, 0, 10, 0⟩
/-- One is pending [10:10] -/
def Reg.MGC.IRQ_NEXT.VALID : Field := ⟨0x840010, 10, 1, 0⟩
/-- Clears that pending bit [9:0] -/
def Reg.MGC.IRQ_ACK.ID : Field := ⟨0x840014, 0, 10, 0⟩
/-- Firmware version, for the BMC [31:0] -/
def Reg.MGC.FW_VER_LO.VER : Field := ⟨0x840018, 0, 32, 0⟩
/-- Bits 63:32 [31:0] -/
def Reg.MGC.FW_VER_HI.VER : Field := ⟨0x84001c, 0, 32, 0⟩
/-- IRQs asserted (TARGET 127) [30:0] -/
def Reg.MGC.IRQ_CNT.COUNT : Field := ⟨0x840020, 0, 31, 0⟩
/-- Sticky saturation [31:31] -/
def Reg.MGC.IRQ_CNT.SAT : Field := ⟨0x840020, 31, 1, 0⟩
/-- k = 0–3; bit 0 running, 1 halted, 2 in trap [2:0] -/
def Reg.MGC.CORE_STS.STATE (k : Nat) : Field := ⟨0x840100 + 0x40 * k, 0, 3, 0⟩
/-- Event of the last trap (R422) [9:0] -/
def Reg.MGC.TRAP_ID.ID (k : Nat) : Field := ⟨0x840104 + 0x40 * k, 0, 10, 0⟩
/-- Trap taken [10:10] -/
def Reg.MGC.TRAP_ID.VALID (k : Nat) : Field := ⟨0x840104 + 0x40 * k, 10, 1, 0⟩
/-- Its syndrome [31:0] -/
def Reg.MGC.TRAP_SYND.SYND (k : Nat) : Field := ⟨0x840108 + 0x40 * k, 0, 32, 0⟩
/-- Hart number [1:0] -/
def Reg.MGC.HARTID.ID (k : Nat) : Field := ⟨0x84010c + 0x40 * k, 0, 2, ([0, 1, 2, 3].getD k 0)⟩
/-- Sampled PC, bits 31:0 [31:0] -/
def Reg.MGC.PC_LO.PC (k : Nat) : Field := ⟨0x840110 + 0x40 * k, 0, 32, 0⟩
/-- Bits 63:32 [31:0] -/
def Reg.MGC.PC_HI.PC (k : Nat) : Field := ⟨0x840114 + 0x40 * k, 0, 32, 0⟩
/-- j: 0 cycles, 1 instructions, 2 traps, 3 interrupts, 4 miss stalls [31:0] -/
def Reg.MGC.CNT_LO.COUNT (k j : Nat) : Field := ⟨0x840118 + 0x40 * k + 0x8 * j, 0, 32, 0⟩
/-- Bits 47:32; wraps [15:0] -/
def Reg.MGC.CNT_HI.COUNT (k j : Nat) : Field := ⟨0x84011c + 0x40 * k + 0x8 * j, 0, 16, 0⟩
/-- i = 0–31; bit b = event 32i + b pending [31:0] -/
def Reg.MGC.IRQ_PEND.PEND (i : Nat) : Field := ⟨0x840400 + 0x4 * i, 0, 32, 0⟩
/-- 1 = the pending bit asserts the IRQ [31:0] -/
def Reg.MGC.IRQ_EN.EN (i : Nat) : Field := ⟨0x840480 + 0x4 * i, 0, 32, 0⟩
/-- w = 0–511 [31:0] -/
def Reg.MGC.MBOX_IN.DATA (w : Nat) : Field := ⟨0x841000 + 0x4 * w, 0, 32, 0⟩
/-- w = 0–511 [31:0] -/
def Reg.MGC.MBOX_OUT.DATA (w : Nat) : Field := ⟨0x841800 + 0x4 * w, 0, 32, 0⟩
/-- Highest Tj since last written [7:0] -/
def Reg.SNS.TJ_PEAK.DEG_C : Field := ⟨0xa0000c, 0, 8, 0⟩
/-- s = 0–31; 0.125 °C, two's complement [15:0] -/
def Reg.SNS.TEMP.VALUE (s : Nat) : Field := ⟨0xa00100 + 0x4 * s, 0, 16, 0⟩
/-- Sensed at the rail's balls [15:0] -/
def Reg.SNS.RAIL_MV.MV (r : Nat) : Field := ⟨0xa00200 + 0x4 * r, 0, 16, 0⟩
/-- Rail power, 10 mW units [15:0] -/
def Reg.SNS.RAIL_P.P_10MW (r : Nat) : Field := ⟨0xa00240 + 0x4 * r, 0, 16, 0⟩
/-- Device power [15:0] -/
def Reg.SNS.PWR.P_10MW : Field := ⟨0xa00280, 0, 16, 0⟩
/-- Highest PWR since last written [15:0] -/
def Reg.SNS.PWR_PEAK.P_10MW : Field := ⟨0xa00284, 0, 16, 0⟩
/-- VBAT [15:0] -/
def Reg.SNS.VBAT.MV : Field := ⟨0xa00288, 0, 16, 0⟩
/-- Energy since chip reset, mJ, bits 31:0 [31:0] -/
def Reg.SNS.ENERGY_LO.MJ : Field := ⟨0xa00290, 0, 32, 0⟩
/-- Bits 63:32 [31:0] -/
def Reg.SNS.ENERGY_HI.MJ : Field := ⟨0xa00294, 0, 32, 0⟩
/-- d: 0 hub, 1–4 tiles T0–T3 [15:0] -/
def Reg.SNS.DIE_P.P_10MW (d : Nat) : Field := ⟨0xa00300 + 0x4 * d, 0, 16, 0⟩

/-- Words of block HLD, part 0. -/
def regWords_HLD_0 : List RegTmpl := [
  ⟨0x0, [], [⟨0, 26, .rw, 50331648, none, []⟩]⟩,
  ⟨0x4, [], [⟨0, 16, .rwl, 0, none, []⟩]⟩,
  ⟨0x8, [], [⟨0, 12, .rwl, 0, none, []⟩, ⟨12, 12, .rwl, 0, none, []⟩]⟩,
  ⟨0xc, [], [⟨0, 10, .rwl, 100, none, []⟩]⟩,
  ⟨0x10, [], [⟨0, 7, .rw, 75, none, []⟩, ⟨8, 7, .rw, 90, none, []⟩]⟩,
  ⟨0x14, [], [⟨0, 1, .w1s, 0, none, []⟩]⟩,
  ⟨0x18, [], [⟨0, 26, .ro, 0, none, []⟩, ⟨26, 2, .ro, 3, none, []⟩]⟩,
  ⟨0x1c, [], [⟨0, 26, .ro, 0, none, []⟩]⟩,
  ⟨0x20, [], [⟨0, 16, .ro, 0, none, []⟩, ⟨16, 4, .ro, 0, none, []⟩]⟩,
  ⟨0x24, [], [⟨0, 3, .ro, 3, none, []⟩, ⟨3, 1, .ro, 1, none, []⟩]⟩,
  ⟨0x28, [], [⟨0, 31, .ro, 0, none, []⟩, ⟨31, 1, .w1c, 0, none, []⟩]⟩,
  ⟨0x2c, [], [⟨0, 32, .ro, 0, none, []⟩]⟩]
/-- Words of block HLD by offset from its base. -/
def regWords_HLD : List RegTmpl := regWords_HLD_0
/-- Words of block HP, part 0. -/
def regWords_HP_0 : List RegTmpl := [
  ⟨0x0, [], [⟨0, 2, .rwl, 0, some (0, 2), []⟩, ⟨2, 2, .rwl, 0, some (0, 2), []⟩, ⟨4, 1, .rwl, 1, none, []⟩, ⟨5, 1, .rwl, 0, none, []⟩]⟩,
  ⟨0x4, [], [⟨0, 1, .w1s, 0, none, []⟩]⟩,
  ⟨0x8, [], [⟨0, 1, .w1c, 0, none, []⟩, ⟨1, 4, .ro, 0, none, []⟩]⟩,
  ⟨0x10, [(0x4, 4)], [⟨0, 5, .rwl, 0, some (0, 16), []⟩, ⟨5, 6, .rwl, 0, none, []⟩, ⟨12, 1, .rwl, 1, none, []⟩, ⟨13, 1, .rwl, 1, none, []⟩, ⟨14, 1, .rwl, 0, none, []⟩, ⟨15, 1, .rwl, 0, none, []⟩]⟩,
  ⟨0x20, [(0x4, 4)], [⟨0, 3, .ro, 0, none, []⟩, ⟨3, 5, .ro, 0, none, []⟩, ⟨8, 2, .ro, 0, none, []⟩, ⟨10, 1, .ro, 0, none, []⟩, ⟨11, 1, .ro, 0, none, []⟩, ⟨12, 2, .ro, 0, none, []⟩, ⟨14, 1, .ro, 0, none, []⟩]⟩,
  ⟨0x30, [], [⟨0, 16, .rw, 10, some (1, 65535), []⟩]⟩,
  ⟨0x34, [], [⟨0, 16, .ro, 0, none, []⟩]⟩,
  ⟨0x38, [], [⟨0, 16, .rw, 256, none, []⟩]⟩,
  ⟨0x40, [(0x4, 8)], [⟨0, 2, .rwl, 3, none, []⟩]⟩,
  ⟨0x100, [(0x20, 4), (0x4, 8)], [⟨0, 31, .ro, 0, none, []⟩, ⟨31, 1, .w1c, 0, none, []⟩]⟩,
  ⟨0x400, [(0x4, 16)], [⟨0, 4, .ro, 0, none, []⟩, ⟨4, 1, .ro, 0, none, []⟩, ⟨5, 4, .ro, 0, none, []⟩, ⟨9, 1, .ro, 0, none, []⟩]⟩]
/-- Words of block HP by offset from its base. -/
def regWords_HP : List RegTmpl := regWords_HP_0
/-- Words of block LC, part 0. -/
def regWords_LC_0 : List RegTmpl := [
  ⟨0x0, [], [⟨0, 1, .rw, 1, none, []⟩, ⟨1, 1, .rw, 0, none, []⟩, ⟨2, 4, .rw, 8, some (1, 12), []⟩]⟩,
  ⟨0x4, [], [⟨0, 21, .ro, 0, none, []⟩]⟩,
  ⟨0x10, [], [⟨0, 32, .ro, 0, none, []⟩]⟩,
  ⟨0x14, [], [⟨0, 16, .ro, 0, none, []⟩]⟩,
  ⟨0x18, [], [⟨0, 32, .ro, 0, none, []⟩]⟩,
  ⟨0x1c, [], [⟨0, 16, .ro, 0, none, []⟩]⟩,
  ⟨0x20, [], [⟨0, 32, .ro, 0, none, []⟩]⟩,
  ⟨0x24, [], [⟨0, 16, .ro, 0, none, []⟩]⟩,
  ⟨0x28, [], [⟨0, 31, .ro, 0, none, []⟩, ⟨31, 1, .w1c, 0, none, []⟩]⟩]
/-- Words of block LC by offset from its base. -/
def regWords_LC : List RegTmpl := regWords_LC_0
/-- Words of block ECS, part 0. -/
def regWords_ECS_0 : List RegTmpl := [
  ⟨0x0, [], [⟨0, 1, .rw, 1, none, []⟩, ⟨1, 1, .rw, 1, none, []⟩, ⟨2, 1, .rw, 1, none, []⟩]⟩,
  ⟨0x4, [], [⟨0, 12, .ro, 0, none, []⟩, ⟨12, 12, .ro, 0, none, []⟩, ⟨24, 1, .ro, 0, none, []⟩]⟩,
  ⟨0x8, [], [⟨0, 7, .ro, 0, none, []⟩]⟩,
  ⟨0x10, [], [⟨0, 16, .rw, 64, none, []⟩, ⟨16, 16, .rw, 3600, none, []⟩]⟩,
  ⟨0x14, [], [⟨0, 3, .rw, 0, some (0, 4), []⟩, ⟨3, 8, .rw, 0, some (0, 136), []⟩, ⟨11, 8, .rw, 0, none, []⟩, ⟨19, 1, .rw, 0, none, []⟩, ⟨20, 1, .rw, 0, none, []⟩]⟩,
  ⟨0x18, [], [⟨0, 31, .ro, 0, none, []⟩, ⟨31, 1, .w1c, 0, none, []⟩]⟩,
  ⟨0x1c, [], [⟨0, 31, .ro, 0, none, []⟩, ⟨31, 1, .w1c, 0, none, []⟩]⟩,
  ⟨0x20, [], [⟨0, 31, .ro, 0, none, []⟩, ⟨31, 1, .w1c, 0, none, []⟩]⟩,
  ⟨0x24, [], [⟨0, 31, .ro, 0, none, []⟩, ⟨31, 1, .w1c, 0, none, []⟩]⟩,
  ⟨0x28, [], [⟨0, 17, .ro, 0, none, []⟩, ⟨17, 1, .ro, 0, none, []⟩]⟩,
  ⟨0x1000, [(0x100, 12)], [⟨0, 8, .rw, 24, some (1, 255), []⟩]⟩,
  ⟨0x1004, [(0x100, 12)], [⟨0, 7, .ro, 0, none, []⟩, ⟨7, 1, .w1c, 0, none, []⟩, ⟨8, 16, .ro, 0, none, []⟩, ⟨24, 1, .w1c, 0, none, []⟩]⟩,
  ⟨0x1008, [(0x100, 12)], [⟨0, 27, .ro, 0, none, []⟩]⟩,
  ⟨0x100c, [(0x100, 12)], [⟨0, 7, .ro, 0, none, []⟩]⟩,
  ⟨0x1010, [(0x100, 12)], [⟨0, 31, .ro, 0, none, []⟩, ⟨31, 1, .w1c, 0, none, []⟩]⟩,
  ⟨0x1014, [(0x100, 12)], [⟨0, 31, .ro, 0, none, []⟩, ⟨31, 1, .w1c, 0, none, []⟩]⟩,
  ⟨0x1018, [(0x100, 12)], [⟨0, 31, .rw, 4096, none, []⟩]⟩,
  ⟨0x101c, [(0x100, 12)], [⟨0, 32, .rw, 0, none, []⟩]⟩,
  ⟨0x1020, [(0x100, 12)], [⟨0, 32, .rw, 0, none, []⟩]⟩,
  ⟨0x1024, [(0x100, 12), (0x4, 5)], [⟨0, 32, .rw, 0, none, []⟩]⟩]
/-- Words of block ECS, part 1. -/
def regWords_ECS_1 : List RegTmpl := [
  ⟨0x1038, [(0x100, 12)], [⟨0, 1, .rw, 0, none, []⟩, ⟨1, 1, .rw, 0, none, []⟩, ⟨2, 2, .rw, 0, none, []⟩, ⟨4, 6, .rw, 0, none, []⟩]⟩,
  ⟨0x103c, [(0x100, 12)], [⟨0, 27, .rw, 0, none, []⟩]⟩,
  ⟨0x1040, [(0x100, 12)], [⟨0, 1, .w1c, 0, none, []⟩, ⟨1, 1, .w1c, 0, none, []⟩, ⟨2, 1, .w1c, 0, none, []⟩, ⟨3, 1, .w1c, 0, none, []⟩]⟩]
/-- Words of block ECS by offset from its base. -/
def regWords_ECS : List RegTmpl := regWords_ECS_0 ++ regWords_ECS_1
/-- Words of block DC, part 0. -/
def regWords_DC_0 : List RegTmpl := [
  ⟨0x0, [], [⟨0, 2, .rwl, 0, none, []⟩, ⟨2, 1, .rwl, 0, none, []⟩, ⟨3, 1, .rw, 1, none, []⟩, ⟨4, 1, .rwl, 0, none, []⟩]⟩,
  ⟨0x4, [], [⟨0, 1, .w1s, 0, none, []⟩]⟩,
  ⟨0x8, [], [⟨0, 2, .ro, 0, none, []⟩, ⟨2, 1, .ro, 0, none, []⟩, ⟨3, 1, .ro, 0, none, []⟩, ⟨4, 1, .ro, 0, none, []⟩, ⟨5, 2, .ro, 0, none, []⟩, ⟨7, 10, .ro, 0, none, []⟩]⟩,
  ⟨0xc, [], [⟨0, 3, .ro, 0, none, []⟩, ⟨3, 4, .ro, 0, none, []⟩, ⟨7, 1, .ro, 0, none, []⟩, ⟨8, 1, .ro, 0, none, []⟩]⟩,
  ⟨0x10, [], [⟨0, 27, .rwl, 0, none, []⟩]⟩,
  ⟨0x14, [], [⟨0, 27, .rwl, 0, none, []⟩]⟩,
  ⟨0x20, [], [⟨0, 6, .rwl, 22, none, []⟩, ⟨6, 6, .rwl, 11, none, []⟩, ⟨12, 6, .rwl, 11, none, []⟩, ⟨18, 7, .rwl, 36, none, []⟩, ⟨25, 7, .rwl, 33, none, []⟩]⟩,
  ⟨0x24, [], [⟨0, 10, .rwl, 451, none, []⟩, ⟨10, 10, .rwl, 209, none, []⟩, ⟨20, 4, .rwl, 9, none, []⟩]⟩,
  ⟨0x28, [], [⟨0, 6, .rw, 48, some (1, 63), []⟩, ⟨8, 6, .rw, 16, none, []⟩, ⟨16, 16, .rw, 2048, none, []⟩]⟩,
  ⟨0x2c, [], [⟨0, 12, .rw, 128, none, []⟩]⟩,
  ⟨0x30, [], [⟨0, 1, .rwl, 1, none, []⟩, ⟨1, 3, .rw, 4, some (0, 4), []⟩, ⟨4, 1, .rw, 0, none, []⟩, ⟨16, 16, .rwl, 4290, none, []⟩]⟩,
  ⟨0x34, [], [⟨0, 16, .rw, 512, none, []⟩, ⟨16, 1, .rw, 1, none, []⟩]⟩,
  ⟨0x38, [], [⟨0, 8, .rw, 85, none, []⟩, ⟨8, 8, .rw, 95, none, []⟩, ⟨16, 8, .rw, 64, none, []⟩]⟩,
  ⟨0x3c, [], [⟨0, 8, .ro, 0, none, []⟩, ⟨8, 8, .ro, 0, none, []⟩]⟩,
  ⟨0x40, [], [⟨0, 5, .w1c, 0, none, []⟩, ⟨8, 5, .w1c, 0, none, []⟩]⟩,
  ⟨0x44, [], [⟨0, 31, .ro, 0, none, []⟩, ⟨31, 1, .w1c, 0, none, []⟩]⟩,
  ⟨0x48, [], [⟨0, 31, .ro, 0, none, []⟩, ⟨31, 1, .w1c, 0, none, []⟩]⟩,
  ⟨0x4c, [], [⟨0, 3, .ro, 0, none, []⟩, ⟨3, 1, .ro, 0, none, []⟩, ⟨4, 7, .ro, 0, none, []⟩, ⟨11, 2, .ro, 0, none, []⟩, ⟨13, 10, .ro, 0, none, []⟩]⟩,
  ⟨0x50, [], [⟨0, 2, .rw, 0, none, []⟩, ⟨8, 8, .rwl, 16, none, []⟩]⟩,
  ⟨0x100, [(0x4, 80)], [⟨0, 10, .ro, 0, none, []⟩, ⟨16, 10, .ro, 0, none, []⟩]⟩]
/-- Words of block DC, part 1. -/
def regWords_DC_1 : List RegTmpl := [
  ⟨0x240, [(0x4, 20)], [⟨0, 10, .ro, 0, none, []⟩, ⟨10, 6, .ro, 0, none, []⟩, ⟨16, 7, .ro, 0, none, []⟩]⟩,
  ⟨0x300, [(0x4, 20)], [⟨0, 8, .rwl, 0, none, []⟩, ⟨8, 8, .rwl, 0, none, []⟩, ⟨16, 8, .rwl, 0, none, []⟩, ⟨24, 6, .rwl, 0, none, []⟩]⟩,
  ⟨0x350, [], [⟨0, 8, .rwl, 0, none, []⟩, ⟨8, 8, .rwl, 0, none, []⟩]⟩]
/-- Words of block DC by offset from its base. -/
def regWords_DC : List RegTmpl := regWords_DC_0 ++ regWords_DC_1
/-- Words of block RNT, part 0. -/
def regWords_RNT_0 : List RegTmpl := [
  ⟨0x0, [], [⟨0, 2, .rwl, 1, some (0, 2), []⟩, ⟨2, 1, .rwl, 1, none, []⟩]⟩,
  ⟨0x4, [], [⟨0, 1, .w1s, 0, none, []⟩]⟩,
  ⟨0x8, [], [⟨0, 6, .ro, 48, none, []⟩, ⟨6, 5, .ro, 24, none, []⟩, ⟨11, 1, .ro, 0, none, []⟩]⟩,
  ⟨0x10, [], [⟨0, 32, .ro, 0, none, []⟩]⟩,
  ⟨0x14, [], [⟨0, 16, .ro, 0, none, []⟩]⟩,
  ⟨0x18, [], [⟨0, 24, .ro, 0, none, []⟩]⟩,
  ⟨0x40, [(0x4, 8)], [⟨0, 6, .rw, 0, none, [16, 8, 4, 7, 7, 0, 0, 1]⟩, ⟨8, 4, .rw, 0, some (1, 15), [8, 8, 8, 4, 4, 2, 1, 1]⟩, ⟨16, 11, .rwl, 0, none, [256, 256, 128, 128, 128, 64, 48, 16]⟩]⟩,
  ⟨0x60, [], [⟨0, 31, .ro, 0, none, []⟩, ⟨31, 1, .w1c, 0, none, []⟩]⟩,
  ⟨0x64, [], [⟨0, 31, .ro, 0, none, []⟩, ⟨31, 1, .w1c, 0, none, []⟩]⟩,
  ⟨0x68, [], [⟨0, 16, .rw, 256, none, []⟩]⟩,
  ⟨0x6c, [], [⟨0, 12, .ro, 0, none, []⟩, ⟨12, 1, .ro, 0, none, []⟩, ⟨13, 7, .ro, 0, none, []⟩]⟩,
  ⟨0x80, [(0x8, 8)], [⟨0, 32, .ro, 0, none, []⟩]⟩,
  ⟨0x84, [(0x8, 8)], [⟨0, 16, .ro, 0, none, []⟩]⟩]
/-- Words of block RNT by offset from its base. -/
def regWords_RNT : List RegTmpl := regWords_RNT_0
/-- Words of block KSL, part 0. -/
def regWords_KSL_0 : List RegTmpl := [
  ⟨0x10000, [(0x4, 4096)], [⟨0, 2, .ro, 0, none, []⟩, ⟨2, 5, .ro, 0, none, []⟩, ⟨7, 1, .ro, 0, none, []⟩, ⟨8, 10, .ro, 0, none, []⟩, ⟨18, 13, .ro, 0, none, []⟩]⟩,
  ⟨0x14000, [(0x4, 256)], [⟨0, 2, .ro, 0, none, []⟩, ⟨2, 1, .ro, 0, none, []⟩]⟩,
  ⟨0x14400, [(0x4, 16)], [⟨0, 2, .ro, 0, none, []⟩]⟩,
  ⟨0x0, [], [⟨0, 2, .rof, 0, none, []⟩, ⟨2, 1, .rof, 0, none, []⟩, ⟨3, 2, .ro, 0, none, []⟩]⟩,
  ⟨0x4, [], [⟨0, 2, .ro, 0, none, []⟩, ⟨2, 9, .ro, 0, none, []⟩]⟩,
  ⟨0x8, [], [⟨0, 1, .ro, 0, none, []⟩, ⟨1, 1, .ro, 0, none, []⟩, ⟨2, 1, .ro, 0, none, []⟩, ⟨3, 1, .ro, 0, none, []⟩]⟩,
  ⟨0xc, [], [⟨0, 1, .w1s, 0, none, []⟩]⟩,
  ⟨0x10, [], [⟨0, 7, .ro, 0, none, []⟩, ⟨8, 7, .ro, 0, none, []⟩, ⟨16, 7, .ro, 0, none, []⟩, ⟨24, 7, .ro, 0, none, []⟩]⟩,
  ⟨0x14, [], [⟨0, 1, .ro, 0, none, []⟩, ⟨1, 4, .ro, 0, none, []⟩]⟩,
  ⟨0x20, [(0x4, 8)], [⟨0, 32, .ro, 0, none, []⟩]⟩,
  ⟨0x40, [(0x4, 8)], [⟨0, 32, .ro, 0, none, []⟩]⟩,
  ⟨0x60, [], [⟨0, 10, .rw, 0, none, []⟩]⟩,
  ⟨0x64, [], [⟨0, 1, .ro, 0, none, []⟩, ⟨1, 12, .ro, 0, none, []⟩]⟩,
  ⟨0x68, [], [⟨0, 32, .ro, 0, none, []⟩]⟩,
  ⟨0x6c, [], [⟨0, 32, .ro, 0, none, []⟩]⟩,
  ⟨0x70, [], [⟨0, 32, .ro, 0, none, []⟩]⟩,
  ⟨0x74, [], [⟨0, 32, .ro, 0, none, []⟩]⟩,
  ⟨0x80, [], [⟨0, 31, .ro, 0, none, []⟩, ⟨31, 1, .w1c, 0, none, []⟩]⟩,
  ⟨0x84, [], [⟨0, 31, .ro, 0, none, []⟩, ⟨31, 1, .w1c, 0, none, []⟩]⟩,
  ⟨0x88, [], [⟨0, 31, .ro, 0, none, []⟩, ⟨31, 1, .w1c, 0, none, []⟩]⟩]
/-- Words of block KSL, part 1. -/
def regWords_KSL_1 : List RegTmpl := [
  ⟨0x20000, [(0x4, 4096)], [⟨0, 1, .ro, 0, none, []⟩]⟩]
/-- Words of block KSL by offset from its base. -/
def regWords_KSL : List RegTmpl := regWords_KSL_0 ++ regWords_KSL_1
/-- Words of block NVH, part 0. -/
def regWords_NVH_0 : List RegTmpl := [
  ⟨0x0, [], [⟨0, 8, .rwl, 0, none, []⟩, ⟨8, 16, .rw, 100, some (1, 65535), []⟩]⟩,
  ⟨0x4, [], [⟨0, 1, .w1s, 0, none, []⟩]⟩,
  ⟨0x8, [], [⟨0, 1, .w1s, 0, none, []⟩]⟩,
  ⟨0xc, [], [⟨0, 8, .rwl, 0, none, []⟩, ⟨8, 8, .rwl, 112, none, []⟩]⟩,
  ⟨0x10, [], [⟨0, 26, .rwl, 0, none, []⟩]⟩,
  ⟨0x14, [], [⟨0, 3, .ro, 0, none, []⟩, ⟨3, 1, .ro, 0, none, []⟩, ⟨4, 1, .ro, 0, none, []⟩, ⟨5, 4, .ro, 0, none, []⟩]⟩,
  ⟨0x20, [(0x4, 8)], [⟨0, 3, .ro, 0, none, []⟩, ⟨3, 4, .ro, 0, none, []⟩, ⟨7, 7, .ro, 0, none, []⟩, ⟨14, 7, .ro, 0, none, []⟩]⟩,
  ⟨0x40, [(0x4, 8)], [⟨0, 24, .ro, 0, none, []⟩]⟩,
  ⟨0x60, [], [⟨0, 16, .rw, 2048, none, []⟩]⟩,
  ⟨0x64, [], [⟨0, 31, .ro, 0, none, []⟩, ⟨31, 1, .w1c, 0, none, []⟩]⟩,
  ⟨0x68, [], [⟨0, 31, .ro, 0, none, []⟩, ⟨31, 1, .w1c, 0, none, []⟩]⟩,
  ⟨0x6c, [], [⟨0, 31, .ro, 0, none, []⟩, ⟨31, 1, .w1c, 0, none, []⟩]⟩]
/-- Words of block NVH by offset from its base. -/
def regWords_NVH : List RegTmpl := regWords_NVH_0
/-- Words of block CHN, part 0. -/
def regWords_CHN_0 : List RegTmpl := [
  ⟨0x0, [], [⟨0, 10, .rw, 50, none, []⟩]⟩,
  ⟨0x4, [], [⟨0, 16, .rwl, 100, none, []⟩, ⟨16, 12, .rw, 60, none, []⟩]⟩,
  ⟨0x8, [], [⟨0, 1, .w1s, 0, none, []⟩]⟩,
  ⟨0xc, [], [⟨0, 13, .ro, 0, none, []⟩, ⟨13, 13, .ro, 0, none, []⟩]⟩,
  ⟨0x10, [], [⟨0, 32, .ro, 0, none, []⟩]⟩,
  ⟨0x14, [], [⟨0, 16, .ro, 0, none, []⟩]⟩,
  ⟨0x18, [], [⟨0, 32, .ro, 0, none, []⟩]⟩,
  ⟨0x1c, [], [⟨0, 16, .ro, 0, none, []⟩]⟩,
  ⟨0x20, [(0x4, 8)], [⟨0, 24, .ro, 0, none, []⟩]⟩,
  ⟨0x40, [], [⟨0, 31, .ro, 0, none, []⟩, ⟨31, 1, .w1c, 0, none, []⟩]⟩,
  ⟨0x44, [], [⟨0, 31, .ro, 0, none, []⟩, ⟨31, 1, .w1c, 0, none, []⟩]⟩]
/-- Words of block CHN by offset from its base. -/
def regWords_CHN : List RegTmpl := regWords_CHN_0
/-- Words of block TMG, part 0. -/
def regWords_TMG_0 : List RegTmpl := [
  ⟨0x0, [], [⟨0, 10, .rwl, 16, some (1, 1023), []⟩, ⟨10, 1, .rw, 1, none, []⟩]⟩,
  ⟨0x4, [], [⟨0, 1, .w1s, 0, none, []⟩]⟩,
  ⟨0x8, [], [⟨0, 27, .rw, 65536, none, []⟩]⟩,
  ⟨0xc, [], [⟨0, 1, .ro, 0, none, []⟩, ⟨1, 1, .ro, 0, none, []⟩, ⟨2, 1, .ro, 0, none, []⟩, ⟨3, 1, .ro, 0, none, []⟩, ⟨4, 4, .ro, 15, none, []⟩]⟩,
  ⟨0x10, [], [⟨0, 16, .ro, 0, none, []⟩]⟩,
  ⟨0x14, [], [⟨0, 31, .ro, 0, none, []⟩]⟩,
  ⟨0x18, [], [⟨0, 31, .ro, 0, none, []⟩]⟩,
  ⟨0x1c, [], [⟨0, 31, .ro, 0, none, []⟩]⟩,
  ⟨0x20, [], [⟨0, 28, .ro, 0, none, []⟩]⟩,
  ⟨0x24, [], [⟨0, 28, .ro, 0, none, []⟩]⟩,
  ⟨0x28, [], [⟨0, 24, .ro, 0, none, []⟩]⟩,
  ⟨0x2c, [], [⟨0, 24, .ro, 0, none, []⟩]⟩,
  ⟨0x30, [], [⟨0, 31, .ro, 0, none, []⟩]⟩,
  ⟨0x40, [], [⟨0, 10, .rw, 0, none, []⟩]⟩,
  ⟨0x44, [], [⟨0, 31, .rw, 0, none, []⟩]⟩,
  ⟨0x48, [], [⟨0, 31, .rw, 2147483647, none, []⟩]⟩,
  ⟨0x4c, [], [⟨0, 28, .rw, 0, none, []⟩]⟩,
  ⟨0x50, [], [⟨0, 31, .rw, 0, none, []⟩]⟩,
  ⟨0x54, [], [⟨0, 31, .ro, 0, none, []⟩]⟩,
  ⟨0x58, [], [⟨0, 28, .ro, 0, none, []⟩]⟩]
/-- Words of block TMG, part 1. -/
def regWords_TMG_1 : List RegTmpl := [
  ⟨0x5c, [], [⟨0, 31, .ro, 0, none, []⟩]⟩,
  ⟨0x60, [], [⟨0, 31, .ro, 0, none, []⟩, ⟨31, 1, .w1c, 0, none, []⟩]⟩,
  ⟨0x80, [], [⟨0, 32, .ro, 0, none, []⟩]⟩,
  ⟨0x84, [], [⟨0, 16, .ro, 0, none, []⟩]⟩,
  ⟨0x88, [], [⟨0, 32, .ro, 0, none, []⟩]⟩,
  ⟨0x8c, [], [⟨0, 16, .ro, 0, none, []⟩]⟩,
  ⟨0x90, [], [⟨0, 32, .ro, 0, none, []⟩]⟩,
  ⟨0x94, [], [⟨0, 16, .ro, 0, none, []⟩]⟩,
  ⟨0x98, [], [⟨0, 32, .ro, 0, none, []⟩]⟩,
  ⟨0x9c, [], [⟨0, 16, .ro, 0, none, []⟩]⟩,
  ⟨0xa0, [], [⟨0, 31, .ro, 0, none, []⟩, ⟨31, 1, .w1c, 0, none, []⟩]⟩,
  ⟨0xa4, [], [⟨0, 31, .ro, 0, none, []⟩, ⟨31, 1, .w1c, 0, none, []⟩]⟩,
  ⟨0xa8, [], [⟨0, 31, .ro, 0, none, []⟩, ⟨31, 1, .w1c, 0, none, []⟩]⟩,
  ⟨0xac, [], [⟨0, 31, .ro, 0, none, []⟩, ⟨31, 1, .w1c, 0, none, []⟩]⟩,
  ⟨0xb0, [], [⟨0, 31, .ro, 0, none, []⟩, ⟨31, 1, .w1c, 0, none, []⟩]⟩]
/-- Words of block TMG by offset from its base. -/
def regWords_TMG : List RegTmpl := regWords_TMG_0 ++ regWords_TMG_1
/-- Words of block STI, part 0. -/
def regWords_STI_0 : List RegTmpl := [
  ⟨0x0, [], [⟨0, 1, .rw, 1, none, []⟩]⟩,
  ⟨0x4, [], [⟨0, 32, .ro, 0, none, []⟩]⟩,
  ⟨0x8, [], [⟨0, 12, .ro, 0, none, []⟩]⟩,
  ⟨0xc, [], [⟨0, 16, .rw, 256, some (16, 65535), []⟩]⟩,
  ⟨0x10, [], [⟨0, 16, .ro, 0, none, []⟩]⟩,
  ⟨0x1000, [(0x100, 16)], [⟨0, 2, .ro, 0, none, []⟩, ⟨2, 11, .ro, 0, none, []⟩, ⟨13, 10, .ro, 0, none, []⟩]⟩,
  ⟨0x1004, [(0x100, 16)], [⟨0, 3, .ro, 0, none, []⟩, ⟨3, 4, .ro, 0, none, []⟩, ⟨7, 10, .ro, 0, none, []⟩, ⟨17, 4, .ro, 0, none, []⟩, ⟨21, 11, .ro, 0, none, []⟩]⟩,
  ⟨0x1008, [(0x100, 16)], [⟨0, 10, .ro, 0, none, []⟩, ⟨10, 6, .ro, 0, none, []⟩, ⟨16, 1, .ro, 0, none, []⟩]⟩,
  ⟨0x100c, [(0x100, 16)], [⟨0, 16, .ro, 0, none, []⟩]⟩,
  ⟨0x1010, [(0x100, 16)], [⟨0, 32, .ro, 0, none, []⟩]⟩,
  ⟨0x1014, [(0x100, 16)], [⟨0, 11, .ro, 0, none, []⟩]⟩,
  ⟨0x1018, [(0x100, 16)], [⟨0, 16, .wo, 0, none, []⟩]⟩,
  ⟨0x101c, [(0x100, 16)], [⟨0, 5, .ro, 0, none, []⟩, ⟨5, 1, .w1c, 0, none, []⟩]⟩,
  ⟨0x1020, [(0x100, 16)], [⟨0, 8, .ro, 0, none, []⟩, ⟨8, 8, .ro, 0, none, []⟩]⟩,
  ⟨0x1024, [(0x100, 16)], [⟨0, 32, .ro, 0, none, []⟩]⟩,
  ⟨0x1028, [(0x100, 16)], [⟨0, 16, .ro, 0, none, []⟩, ⟨16, 16, .ro, 0, none, []⟩]⟩,
  ⟨0x102c, [(0x100, 16)], [⟨0, 2, .ro, 0, none, []⟩, ⟨16, 16, .rw, 0, none, []⟩]⟩,
  ⟨0x1030, [(0x100, 16)], [⟨0, 31, .ro, 0, none, []⟩, ⟨31, 1, .w1c, 0, none, []⟩]⟩,
  ⟨0x1034, [(0x100, 16)], [⟨0, 31, .ro, 0, none, []⟩, ⟨31, 1, .w1c, 0, none, []⟩]⟩,
  ⟨0x1038, [(0x100, 16)], [⟨0, 31, .ro, 0, none, []⟩, ⟨31, 1, .w1c, 0, none, []⟩]⟩]
/-- Words of block STI, part 1. -/
def regWords_STI_1 : List RegTmpl := [
  ⟨0x103c, [(0x100, 16)], [⟨0, 31, .ro, 0, none, []⟩, ⟨31, 1, .w1c, 0, none, []⟩]⟩,
  ⟨0x1040, [(0x100, 16)], [⟨0, 31, .ro, 0, none, []⟩, ⟨31, 1, .w1c, 0, none, []⟩]⟩,
  ⟨0x1044, [(0x100, 16)], [⟨0, 31, .ro, 0, none, []⟩, ⟨31, 1, .w1c, 0, none, []⟩]⟩,
  ⟨0x1048, [(0x100, 16)], [⟨0, 31, .ro, 0, none, []⟩, ⟨31, 1, .w1c, 0, none, []⟩]⟩,
  ⟨0x104c, [(0x100, 16)], [⟨0, 31, .ro, 0, none, []⟩, ⟨31, 1, .w1c, 0, none, []⟩]⟩,
  ⟨0x1050, [(0x100, 16)], [⟨0, 31, .ro, 0, none, []⟩, ⟨31, 1, .w1c, 0, none, []⟩]⟩,
  ⟨0x1054, [(0x100, 16)], [⟨0, 31, .ro, 0, none, []⟩, ⟨31, 1, .w1c, 0, none, []⟩]⟩,
  ⟨0x1058, [(0x100, 16)], [⟨0, 31, .ro, 0, none, []⟩, ⟨31, 1, .w1c, 0, none, []⟩]⟩,
  ⟨0x1060, [(0x100, 16)], [⟨0, 32, .ro, 0, none, []⟩]⟩,
  ⟨0x1064, [(0x100, 16)], [⟨0, 16, .ro, 0, none, []⟩]⟩,
  ⟨0x1080, [(0x100, 16), (0x8, 8)], [⟨0, 32, .ro, 0, none, []⟩]⟩,
  ⟨0x1084, [(0x100, 16), (0x8, 8)], [⟨0, 32, .ro, 0, none, []⟩]⟩,
  ⟨0x10000, [(0x2000, 16), (0x8, 1024)], [⟨0, 32, .ro, 0, none, []⟩]⟩,
  ⟨0x10004, [(0x2000, 16), (0x8, 1024)], [⟨0, 32, .ro, 0, none, []⟩]⟩]
/-- Words of block STI by offset from its base. -/
def regWords_STI : List RegTmpl := regWords_STI_0 ++ regWords_STI_1
/-- Words of block TWL, part 0. -/
def regWords_TWL_0 : List RegTmpl := [
  ⟨0x0, [], [⟨0, 2, .rwl, 0, some (0, 2), []⟩, ⟨2, 1, .rwl, 0, none, []⟩, ⟨3, 1, .rwl, 0, none, []⟩]⟩,
  ⟨0x4, [], [⟨0, 1, .w1s, 0, none, []⟩]⟩,
  ⟨0x8, [], [⟨0, 8, .rwl, 32, none, []⟩, ⟨8, 16, .rw, 512, none, []⟩]⟩,
  ⟨0x10, [(0x4, 4)], [⟨0, 3, .ro, 0, none, []⟩, ⟨3, 8, .ro, 0, none, []⟩]⟩,
  ⟨0x20, [(0x8, 4)], [⟨0, 32, .rwl, 0, none, []⟩]⟩,
  ⟨0x24, [(0x8, 4)], [⟨0, 16, .rwl, 0, none, []⟩]⟩,
  ⟨0x40, [(0x4, 4)], [⟨0, 31, .ro, 0, none, []⟩, ⟨31, 1, .w1c, 0, none, []⟩]⟩]
/-- Words of block TWL by offset from its base. -/
def regWords_TWL : List RegTmpl := regWords_TWL_0
/-- Words of block TWT, part 0. -/
def regWords_TWT_0 : List RegTmpl := [
  ⟨0x0, [], [⟨0, 16, .rwl, 47297, none, []⟩, ⟨16, 14, .rwl, 9216, some (4800, 9216), []⟩, ⟨30, 1, .rwl, 1, none, []⟩, ⟨31, 1, .rwl, 1, none, []⟩]⟩,
  ⟨0x4, [], [⟨0, 12, .rwl, 0, none, []⟩, ⟨12, 3, .rw, 3, none, []⟩, ⟨15, 3, .rw, 5, none, []⟩, ⟨18, 3, .rw, 6, none, []⟩, ⟨21, 6, .rw, 0, none, []⟩]⟩,
  ⟨0x8, [], [⟨0, 1, .w1s, 0, none, []⟩]⟩,
  ⟨0xc, [], [⟨0, 12, .rw, 50, some (1, 4095), []⟩, ⟨12, 4, .rw, 4, none, []⟩, ⟨16, 4, .rw, 7, some (1, 15), []⟩]⟩,
  ⟨0x10, [], [⟨0, 5, .rw, 16, some (1, 31), []⟩, ⟨8, 8, .rw, 10, none, []⟩]⟩,
  ⟨0x14, [], [⟨0, 13, .rw, 1024, some (1, 4096), []⟩]⟩,
  ⟨0x20, [(0x4, 4)], [⟨0, 32, .rwl, 0, none, []⟩]⟩,
  ⟨0x40, [], [⟨0, 6, .rw, 0, some (0, 47), []⟩]⟩,
  ⟨0x44, [], [⟨0, 5, .rw, 0, none, []⟩, ⟨5, 1, .rw, 0, none, []⟩, ⟨6, 4, .rw, 15, none, []⟩, ⟨10, 1, .w1s, 0, none, []⟩, ⟨11, 1, .w1s, 0, none, []⟩]⟩,
  ⟨0x48, [], [⟨0, 2, .ro, 0, none, []⟩, ⟨2, 1, .ro, 0, none, []⟩, ⟨3, 16, .ro, 0, none, []⟩]⟩,
  ⟨0x4c, [], [⟨0, 32, .rw, 0, none, []⟩]⟩,
  ⟨0x50, [], [⟨0, 16, .rw, 0, none, []⟩]⟩,
  ⟨0x54, [(0x4, 4)], [⟨0, 32, .rw, 0, none, []⟩]⟩,
  ⟨0x80, [], [⟨0, 31, .ro, 0, none, []⟩, ⟨31, 1, .w1c, 0, none, []⟩]⟩,
  ⟨0x84, [], [⟨0, 31, .ro, 0, none, []⟩, ⟨31, 1, .w1c, 0, none, []⟩]⟩,
  ⟨0x88, [], [⟨0, 31, .ro, 0, none, []⟩, ⟨31, 1, .w1c, 0, none, []⟩]⟩,
  ⟨0x8c, [], [⟨0, 31, .ro, 0, none, []⟩, ⟨31, 1, .w1c, 0, none, []⟩]⟩,
  ⟨0x90, [], [⟨0, 31, .ro, 0, none, []⟩, ⟨31, 1, .w1c, 0, none, []⟩]⟩,
  ⟨0x94, [], [⟨0, 31, .ro, 0, none, []⟩, ⟨31, 1, .w1c, 0, none, []⟩]⟩,
  ⟨0x98, [], [⟨0, 31, .ro, 0, none, []⟩, ⟨31, 1, .w1c, 0, none, []⟩]⟩]
/-- Words of block TWT, part 1. -/
def regWords_TWT_1 : List RegTmpl := [
  ⟨0x9c, [], [⟨0, 31, .ro, 0, none, []⟩, ⟨31, 1, .w1c, 0, none, []⟩]⟩]
/-- Words of block TWT by offset from its base. -/
def regWords_TWT : List RegTmpl := regWords_TWT_0 ++ regWords_TWT_1
/-- Words of block CCC, part 0. -/
def regWords_CCC_0 : List RegTmpl := [
  ⟨0x0, [], [⟨0, 1, .rw, 1, none, []⟩, ⟨1, 1, .rw, 1, none, []⟩, ⟨2, 4, .rw, 8, none, []⟩, ⟨6, 4, .rw, 5, none, []⟩]⟩,
  ⟨0x4, [], [⟨0, 8, .rw, 4, none, []⟩, ⟨8, 8, .rw, 50, some (1, 255), []⟩]⟩,
  ⟨0x8, [], [⟨0, 16, .rw, 5000, none, []⟩, ⟨16, 16, .rw, 1000, none, []⟩]⟩,
  ⟨0xc, [], [⟨0, 16, .rw, 1024, none, []⟩]⟩,
  ⟨0x10, [], [⟨0, 13, .ro, 0, none, []⟩, ⟨13, 9, .ro, 0, none, []⟩, ⟨22, 6, .ro, 0, none, []⟩]⟩,
  ⟨0x20, [], [⟨0, 31, .ro, 0, none, []⟩, ⟨31, 1, .w1c, 0, none, []⟩]⟩,
  ⟨0x24, [], [⟨0, 31, .ro, 0, none, []⟩, ⟨31, 1, .w1c, 0, none, []⟩]⟩,
  ⟨0x28, [], [⟨0, 31, .ro, 0, none, []⟩, ⟨31, 1, .w1c, 0, none, []⟩]⟩,
  ⟨0x2c, [], [⟨0, 31, .ro, 0, none, []⟩, ⟨31, 1, .w1c, 0, none, []⟩]⟩,
  ⟨0x40, [], [⟨0, 16, .rw, 0, none, []⟩, ⟨16, 6, .rw, 0, some (0, 47), []⟩]⟩,
  ⟨0x44, [], [⟨0, 2, .ro, 0, none, []⟩, ⟨2, 1, .ro, 0, none, []⟩, ⟨3, 1, .ro, 0, none, []⟩, ⟨4, 1, .ro, 0, none, []⟩, ⟨5, 6, .ro, 0, none, []⟩]⟩,
  ⟨0x48, [], [⟨0, 21, .ro, 0, none, []⟩]⟩,
  ⟨0x4c, [], [⟨0, 16, .ro, 0, none, []⟩]⟩,
  ⟨0x50, [], [⟨0, 32, .ro, 0, none, []⟩]⟩,
  ⟨0x54, [], [⟨0, 32, .ro, 0, none, []⟩]⟩]
/-- Words of block CCC by offset from its base. -/
def regWords_CCC : List RegTmpl := regWords_CCC_0
/-- Words of block MIR, part 0. -/
def regWords_MIR_0 : List RegTmpl := [
  ⟨0x0, [], [⟨0, 1, .rwl, 0, none, []⟩, ⟨1, 1, .rwl, 0, none, []⟩, ⟨2, 5, .rwl, 0, none, []⟩, ⟨7, 6, .rwl, 0, some (0, 47), []⟩, ⟨13, 1, .rw, 1, none, []⟩]⟩,
  ⟨0x4, [], [⟨0, 1, .w1s, 0, none, []⟩]⟩,
  ⟨0x8, [], [⟨0, 16, .rwl, 0, none, []⟩]⟩,
  ⟨0xc, [], [⟨0, 3, .ro, 0, none, []⟩, ⟨3, 2, .ro, 0, none, []⟩, ⟨5, 1, .ro, 0, none, []⟩, ⟨6, 1, .ro, 0, none, []⟩]⟩,
  ⟨0x10, [], [⟨0, 32, .ro, 0, none, []⟩]⟩,
  ⟨0x14, [], [⟨0, 32, .ro, 0, none, []⟩]⟩,
  ⟨0x18, [], [⟨0, 18, .ro, 0, none, []⟩]⟩,
  ⟨0x1c, [], [⟨0, 5, .rw, 5, some (1, 20), []⟩]⟩,
  ⟨0x20, [], [⟨0, 17, .ro, 0, none, []⟩]⟩,
  ⟨0x24, [], [⟨0, 16, .rw, 8192, none, []⟩]⟩,
  ⟨0x28, [], [⟨0, 7, .ro, 0, none, []⟩, ⟨7, 1, .ro, 0, none, []⟩, ⟨8, 1, .ro, 0, none, []⟩]⟩,
  ⟨0x2c, [], [⟨0, 32, .ro, 0, none, []⟩]⟩,
  ⟨0x30, [], [⟨0, 2, .ro, 0, none, []⟩]⟩,
  ⟨0x40, [], [⟨0, 31, .ro, 0, none, []⟩, ⟨31, 1, .w1c, 0, none, []⟩]⟩,
  ⟨0x44, [], [⟨0, 31, .ro, 0, none, []⟩, ⟨31, 1, .w1c, 0, none, []⟩]⟩,
  ⟨0x48, [], [⟨0, 31, .ro, 0, none, []⟩, ⟨31, 1, .w1c, 0, none, []⟩]⟩,
  ⟨0x4c, [], [⟨0, 31, .ro, 0, none, []⟩, ⟨31, 1, .w1c, 0, none, []⟩]⟩,
  ⟨0x50, [(0x4, 16)], [⟨0, 21, .ro, 0, none, []⟩]⟩,
  ⟨0x100, [], [⟨0, 4, .rw, 0, none, []⟩]⟩,
  ⟨0x104, [], [⟨0, 16, .rwl, 0, none, []⟩, ⟨16, 5, .rwl, 0, none, []⟩, ⟨21, 5, .rwl, 0, none, []⟩, ⟨26, 1, .rwl, 0, none, []⟩]⟩]
/-- Words of block MIR, part 1. -/
def regWords_MIR_1 : List RegTmpl := [
  ⟨0x108, [], [⟨0, 1, .ro, 0, none, []⟩, ⟨1, 1, .ro, 0, none, []⟩, ⟨2, 1, .ro, 0, none, []⟩]⟩,
  ⟨0x10c, [], [⟨0, 32, .ro, 0, none, []⟩]⟩,
  ⟨0x110, [], [⟨0, 32, .ro, 0, none, []⟩]⟩]
/-- Words of block MIR by offset from its base. -/
def regWords_MIR : List RegTmpl := regWords_MIR_0 ++ regWords_MIR_1
/-- Words of block RND, part 0. -/
def regWords_RND_0 : List RegTmpl := [
  ⟨0x0, [], [⟨0, 5, .rwl, 0, none, []⟩, ⟨5, 1, .rwl, 0, none, []⟩, ⟨6, 1, .rw, 0, none, []⟩]⟩,
  ⟨0x4, [], [⟨0, 1, .w1s, 0, none, []⟩]⟩,
  ⟨0x8, [], [⟨0, 8, .rof, 1, none, []⟩, ⟨8, 8, .rwl, 1, none, []⟩]⟩,
  ⟨0xc, [], [⟨0, 16, .rwl, 2000, none, []⟩, ⟨16, 16, .rw, 20, none, []⟩]⟩,
  ⟨0x10, [], [⟨0, 10, .rwl, 100, some (10, 1000), []⟩]⟩,
  ⟨0x14, [], [⟨0, 5, .rwl, 0, none, []⟩]⟩,
  ⟨0x18, [], [⟨0, 3, .ro, 0, none, []⟩, ⟨3, 5, .ro, 0, none, []⟩, ⟨8, 6, .ro, 0, none, []⟩, ⟨14, 4, .ro, 0, none, []⟩]⟩,
  ⟨0x1c, [], [⟨0, 32, .ro, 0, none, []⟩]⟩,
  ⟨0x20, [], [⟨0, 32, .ro, 0, none, []⟩]⟩,
  ⟨0x24, [], [⟨0, 32, .ro, 0, none, []⟩]⟩,
  ⟨0x28, [], [⟨0, 16, .ro, 0, none, []⟩, ⟨16, 16, .ro, 0, none, []⟩]⟩,
  ⟨0x2c, [], [⟨0, 32, .ro, 0, none, []⟩]⟩,
  ⟨0x30, [(0x4, 8)], [⟨0, 32, .ro, 0, none, []⟩]⟩,
  ⟨0x50, [], [⟨0, 27, .rw, 262144, none, []⟩]⟩,
  ⟨0x54, [], [⟨0, 14, .rw, 8192, none, []⟩, ⟨14, 10, .rw, 60, none, []⟩]⟩,
  ⟨0x58, [], [⟨0, 24, .rw, 16384, none, []⟩]⟩,
  ⟨0x5c, [], [⟨0, 12, .rw, 100, some (1, 4095), []⟩]⟩,
  ⟨0x60, [], [⟨0, 16, .ro, 0, none, []⟩, ⟨16, 14, .ro, 0, none, []⟩]⟩,
  ⟨0x70, [], [⟨0, 5, .rw, 0, none, []⟩]⟩,
  ⟨0x74, [], [⟨0, 16, .ro, 0, none, []⟩, ⟨16, 1, .ro, 0, none, []⟩, ⟨17, 1, .ro, 0, none, []⟩, ⟨18, 1, .ro, 0, none, []⟩]⟩]
/-- Words of block RND, part 1. -/
def regWords_RND_1 : List RegTmpl := [
  ⟨0x78, [], [⟨0, 16, .ro, 0, none, []⟩, ⟨16, 11, .ro, 0, none, []⟩]⟩,
  ⟨0x80, [], [⟨0, 31, .ro, 0, none, []⟩, ⟨31, 1, .w1c, 0, none, []⟩]⟩,
  ⟨0x84, [], [⟨0, 31, .ro, 0, none, []⟩, ⟨31, 1, .w1c, 0, none, []⟩]⟩,
  ⟨0x88, [], [⟨0, 31, .ro, 0, none, []⟩, ⟨31, 1, .w1c, 0, none, []⟩]⟩,
  ⟨0x8c, [], [⟨0, 31, .ro, 0, none, []⟩, ⟨31, 1, .w1c, 0, none, []⟩]⟩]
/-- Words of block RND by offset from its base. -/
def regWords_RND : List RegTmpl := regWords_RND_0 ++ regWords_RND_1
/-- Words of block RING, part 0. -/
def regWords_RING_0 : List RegTmpl := [
  ⟨0x8000, [(0x40, 16)], [⟨0, 32, .rw, 0, none, []⟩]⟩,
  ⟨0x8004, [(0x40, 16)], [⟨0, 32, .rw, 0, none, []⟩]⟩,
  ⟨0x8008, [(0x40, 16)], [⟨0, 32, .rw, 0, none, []⟩]⟩,
  ⟨0x800c, [(0x40, 16)], [⟨0, 32, .rw, 0, none, []⟩]⟩,
  ⟨0x8010, [(0x40, 16)], [⟨0, 5, .rw, 4, some (4, 16), []⟩, ⟨8, 5, .rw, 4, some (4, 16), []⟩]⟩,
  ⟨0x8014, [(0x40, 16)], [⟨0, 1, .rw, 0, none, []⟩, ⟨1, 11, .rw, 0, none, []⟩, ⟨12, 1, .rw, 0, none, []⟩]⟩,
  ⟨0x8018, [(0x40, 16)], [⟨0, 2, .ro, 0, none, []⟩, ⟨2, 10, .ro, 0, none, []⟩, ⟨12, 3, .ro, 0, none, []⟩]⟩,
  ⟨0x801c, [(0x40, 16)], [⟨0, 8, .rw, 0, none, []⟩, ⟨8, 8, .rw, 0, none, []⟩]⟩,
  ⟨0x8020, [(0x40, 16)], [⟨0, 17, .ro, 0, none, []⟩]⟩,
  ⟨0x7f00, [], [⟨0, 5, .ro, 15, none, []⟩]⟩]
/-- Words of block RING by offset from its base. -/
def regWords_RING : List RegTmpl := regWords_RING_0
/-- Words of block DB, part 0. -/
def regWords_DB_0 : List RegTmpl := [
  ⟨0x10000, [(0x1000, 16)], [⟨0, 16, .wo, 0, none, []⟩]⟩,
  ⟨0x10004, [(0x1000, 16)], [⟨0, 16, .wo, 0, none, []⟩]⟩,
  ⟨0x10008, [(0x1000, 16)], [⟨0, 16, .ro, 0, none, []⟩, ⟨16, 2, .ro, 0, none, []⟩]⟩,
  ⟨0x10010, [(0x1000, 16)], [⟨0, 3, .ro, 0, none, []⟩, ⟨3, 2, .ro, 0, none, []⟩]⟩,
  ⟨0x10018, [(0x1000, 16)], [⟨0, 32, .ro, 0, none, []⟩]⟩,
  ⟨0x1001c, [(0x1000, 16)], [⟨0, 32, .ro, 0, none, []⟩]⟩,
  ⟨0x10800, [(0x1000, 16), (0x4, 16)], [⟨0, 16, .wo, 0, none, []⟩]⟩]
/-- Words of block DB by offset from its base. -/
def regWords_DB : List RegTmpl := regWords_DB_0
/-- Words of block CMD, part 0. -/
def regWords_CMD_0 : List RegTmpl := [
  ⟨0x0, [], [⟨0, 1, .rw, 1, none, []⟩, ⟨1, 4, .rw, 8, some (1, 8), []⟩]⟩,
  ⟨0x4, [], [⟨0, 1, .w1s, 0, none, []⟩]⟩,
  ⟨0x10, [], [⟨0, 7, .rw, 0, some (0, 64), []⟩]⟩,
  ⟨0x14, [], [⟨0, 5, .rwl, 15, some (0, 16), []⟩]⟩,
  ⟨0x18, [], [⟨0, 11, .ro, 976, none, []⟩]⟩,
  ⟨0x20, [], [⟨0, 10, .rw, 0, none, []⟩]⟩,
  ⟨0x24, [], [⟨0, 2, .ro, 0, none, []⟩, ⟨2, 7, .ro, 0, none, []⟩, ⟨9, 4, .ro, 0, none, []⟩, ⟨13, 17, .ro, 0, none, []⟩]⟩,
  ⟨0x30, [], [⟨0, 32, .ro, 0, none, []⟩]⟩,
  ⟨0x34, [], [⟨0, 16, .ro, 0, none, []⟩]⟩,
  ⟨0x38, [], [⟨0, 31, .ro, 0, none, []⟩, ⟨31, 1, .w1c, 0, none, []⟩]⟩,
  ⟨0x3c, [], [⟨0, 31, .ro, 0, none, []⟩, ⟨31, 1, .w1c, 0, none, []⟩]⟩]
/-- Words of block CMD by offset from its base. -/
def regWords_CMD : List RegTmpl := regWords_CMD_0
/-- Words of block SKQ, part 0. -/
def regWords_SKQ_0 : List RegTmpl := [
  ⟨0x0, [], [⟨0, 9, .rw, 0, none, []⟩]⟩,
  ⟨0x4, [], [⟨0, 5, .ro, 0, none, []⟩, ⟨5, 18, .ro, 0, none, []⟩, ⟨23, 1, .rw, 0, none, []⟩, ⟨24, 1, .ro, 0, none, []⟩]⟩,
  ⟨0x8, [], [⟨0, 17, .rw, 0, none, []⟩]⟩,
  ⟨0xc, [], [⟨0, 17, .ro, 0, none, []⟩, ⟨17, 1, .ro, 0, none, []⟩]⟩,
  ⟨0x10, [], [⟨0, 1, .w1s, 0, none, []⟩, ⟨1, 1, .w1s, 0, none, []⟩]⟩,
  ⟨0x14, [], [⟨0, 32, .ro, 0, none, []⟩]⟩,
  ⟨0x18, [], [⟨0, 32, .ro, 0, none, []⟩]⟩,
  ⟨0x1c, [], [⟨0, 31, .ro, 0, none, []⟩, ⟨31, 1, .w1c, 0, none, []⟩]⟩,
  ⟨0x20, [], [⟨0, 31, .ro, 0, none, []⟩, ⟨31, 1, .w1c, 0, none, []⟩]⟩,
  ⟨0x24, [], [⟨0, 31, .ro, 0, none, []⟩, ⟨31, 1, .w1c, 0, none, []⟩]⟩,
  ⟨0x100, [(0x4, 16)], [⟨0, 32, .w1c, 0, none, []⟩]⟩]
/-- Words of block SKQ by offset from its base. -/
def regWords_SKQ : List RegTmpl := regWords_SKQ_0
/-- Words of block FCO, part 0. -/
def regWords_FCO_0 : List RegTmpl := [
  ⟨0x0, [], [⟨0, 8, .rw, 10, none, []⟩, ⟨8, 8, .rw, 10, some (1, 255), []⟩]⟩,
  ⟨0x8, [], [⟨0, 1, .rw, 0, none, []⟩]⟩,
  ⟨0xc, [], [⟨0, 1, .ro, 0, none, []⟩, ⟨1, 1, .rs, 0, none, []⟩]⟩,
  ⟨0x10, [], [⟨0, 31, .ro, 0, none, []⟩, ⟨31, 1, .w1c, 0, none, []⟩]⟩,
  ⟨0x14, [], [⟨0, 31, .ro, 0, none, []⟩, ⟨31, 1, .w1c, 0, none, []⟩]⟩,
  ⟨0x18, [], [⟨0, 31, .ro, 0, none, []⟩, ⟨31, 1, .w1c, 0, none, []⟩]⟩,
  ⟨0x100, [(0x10, 5)], [⟨0, 10, .rs, 0, none, []⟩, ⟨10, 1, .w1c, 0, none, []⟩, ⟨11, 1, .rs, 0, none, []⟩]⟩,
  ⟨0x104, [(0x10, 5)], [⟨0, 32, .rs, 0, none, []⟩]⟩,
  ⟨0x108, [(0x10, 5)], [⟨0, 32, .rs, 0, none, []⟩]⟩,
  ⟨0x10c, [(0x10, 5)], [⟨0, 32, .rs, 0, none, []⟩]⟩,
  ⟨0x1000, [(0x4, 1024)], [⟨0, 1, .rw, 1, none, []⟩, ⟨1, 1, .rw, 0, none, []⟩, ⟨2, 1, .rw, 0, none, []⟩, ⟨3, 1, .rw, 0, none, []⟩, ⟨4, 1, .rw, 0, none, []⟩, ⟨5, 1, .rw, 0, none, []⟩, ⟨6, 1, .rw, 0, none, []⟩, ⟨8, 11, .rw, 0, none, []⟩, ⟨19, 7, .rw, 127, none, []⟩, ⟨26, 4, .rw, 1, none, []⟩]⟩]
/-- Words of block FCO by offset from its base. -/
def regWords_FCO : List RegTmpl := regWords_FCO_0
/-- Words of block ROW, part 0. -/
def regWords_ROW_0 : List RegTmpl := [
  ⟨0x0, [], [⟨0, 1, .rwl, 0, none, []⟩, ⟨1, 1, .rwl, 0, none, []⟩, ⟨8, 8, .rw, 10, some (1, 255), []⟩]⟩,
  ⟨0x4, [], [⟨0, 1, .w1s, 0, none, []⟩]⟩,
  ⟨0x8, [], [⟨0, 3, .ro, 0, none, []⟩, ⟨3, 1, .ro, 0, none, []⟩, ⟨4, 1, .w1c, 0, none, []⟩]⟩,
  ⟨0xc, [], [⟨0, 16, .ro, 0, none, []⟩]⟩,
  ⟨0x10, [], [⟨0, 32, .ro, 0, none, []⟩]⟩,
  ⟨0x14, [], [⟨0, 16, .ro, 0, none, []⟩]⟩,
  ⟨0x18, [], [⟨0, 32, .ro, 0, none, []⟩]⟩,
  ⟨0x1c, [], [⟨0, 16, .ro, 0, none, []⟩]⟩,
  ⟨0x20, [], [⟨0, 16, .ro, 0, none, []⟩, ⟨16, 1, .ro, 0, none, []⟩]⟩,
  ⟨0x24, [], [⟨0, 31, .ro, 0, none, []⟩, ⟨31, 1, .w1c, 0, none, []⟩]⟩,
  ⟨0x28, [], [⟨0, 31, .ro, 0, none, []⟩, ⟨31, 1, .w1c, 0, none, []⟩]⟩,
  ⟨0x2c, [], [⟨0, 31, .ro, 0, none, []⟩, ⟨31, 1, .w1c, 0, none, []⟩]⟩]
/-- Words of block ROW by offset from its base. -/
def regWords_ROW : List RegTmpl := regWords_ROW_0
/-- Words of block PSQ, part 0. -/
def regWords_PSQ_0 : List RegTmpl := [
  ⟨0x0, [], [⟨0, 4, .ro, 0, none, []⟩, ⟨4, 6, .ro, 0, none, []⟩, ⟨10, 1, .ro, 0, none, []⟩, ⟨11, 1, .ro, 0, none, []⟩, ⟨12, 1, .ro, 0, none, []⟩]⟩,
  ⟨0x4, [], [⟨0, 1, .w1s, 0, none, []⟩, ⟨1, 1, .w1s, 0, none, []⟩]⟩,
  ⟨0x8, [], [⟨0, 16, .rwl, 500, some (100, 65535), []⟩, ⟨16, 16, .rwl, 2000, some (10, 65535), []⟩]⟩,
  ⟨0xc, [], [⟨0, 2, .rwl, 2, none, []⟩]⟩,
  ⟨0x10, [], [⟨0, 1, .w1s, 0, none, []⟩]⟩,
  ⟨0x14, [], [⟨0, 16, .ro, 0, none, []⟩, ⟨16, 16, .ro, 0, none, []⟩]⟩,
  ⟨0x18, [], [⟨0, 4, .rs, 0, none, []⟩, ⟨4, 3, .rs, 0, none, []⟩, ⟨7, 1, .w1c, 0, none, []⟩]⟩,
  ⟨0x1c, [], [⟨0, 31, .ro, 0, none, []⟩, ⟨31, 1, .w1c, 0, none, []⟩]⟩,
  ⟨0x20, [], [⟨0, 1, .ro, 0, none, []⟩, ⟨1, 6, .ro, 0, none, []⟩]⟩,
  ⟨0x40, [(0x4, 16)], [⟨0, 8, .ro, 0, none, [0, 0, 10, 12, 22, 0, 0, 0, 0, 0, 0, 0, 0, 0, 0, 0]⟩, ⟨8, 1, .ro, 0, none, [0, 0, 1, 1, 1, 0, 0, 0, 0, 0, 0, 0, 0, 0, 0, 0]⟩]⟩,
  ⟨0x100, [(0x4, 64)], [⟨0, 32, .ro, 0, none, regProgReset⟩]⟩]
/-- Words of block PSQ by offset from its base. -/
def regWords_PSQ : List RegTmpl := regWords_PSQ_0
/-- Words of block CKS, part 0. -/
def regWords_CKS_0 : List RegTmpl := [
  ⟨0x0, [], [⟨0, 1, .rwl, 0, none, []⟩, ⟨1, 1, .ro, 0, none, []⟩]⟩,
  ⟨0x4, [], [⟨0, 1, .w1s, 0, none, []⟩]⟩,
  ⟨0x8, [], [⟨0, 14, .ro, 0, none, []⟩, ⟨14, 1, .ro, 0, none, []⟩]⟩,
  ⟨0xc, [], [⟨0, 5, .ro, 0, none, []⟩, ⟨5, 1, .ro, 0, none, []⟩]⟩,
  ⟨0x10, [], [⟨0, 1, .w1s, 0, none, []⟩]⟩,
  ⟨0x14, [], [⟨0, 4, .rs, 0, none, []⟩]⟩,
  ⟨0x18, [], [⟨0, 16, .rwl, 0, none, []⟩]⟩,
  ⟨0x1c, [], [⟨0, 32, .wo, 0, none, []⟩]⟩,
  ⟨0x20, [], [⟨0, 32, .ro, 0, none, []⟩]⟩,
  ⟨0x24, [], [⟨0, 16, .ro, 0, none, []⟩, ⟨16, 1, .ro, 0, none, []⟩]⟩,
  ⟨0x28, [], [⟨0, 32, .wo, 0, none, []⟩]⟩,
  ⟨0x2c, [], [⟨0, 16, .wo, 0, none, []⟩]⟩,
  ⟨0x30, [], [⟨0, 32, .ro, 0, none, []⟩]⟩,
  ⟨0x34, [], [⟨0, 32, .ro, 0, none, []⟩]⟩,
  ⟨0x38, [], [⟨0, 31, .ro, 0, none, []⟩, ⟨31, 1, .w1c, 0, none, []⟩]⟩]
/-- Words of block CKS by offset from its base. -/
def regWords_CKS : List RegTmpl := regWords_CKS_0
/-- Words of block CAL, part 0. -/
def regWords_CAL_0 : List RegTmpl := [
  ⟨0x0, [], [⟨0, 8, .rw, 0, none, []⟩]⟩,
  ⟨0x4, [], [⟨0, 16, .rof, 0, none, []⟩, ⟨16, 16, .rof, 0, none, []⟩]⟩,
  ⟨0x8, [], [⟨0, 16, .rwl, 0, none, []⟩]⟩,
  ⟨0xc, [], [⟨0, 16, .ro, 0, none, []⟩, ⟨16, 1, .ro, 0, none, []⟩]⟩,
  ⟨0x10, [], [⟨0, 1, .w1s, 0, none, []⟩]⟩,
  ⟨0x14, [], [⟨0, 1, .ro, 0, none, []⟩]⟩]
/-- Words of block CAL by offset from its base. -/
def regWords_CAL : List RegTmpl := regWords_CAL_0
/-- Words of block PAD, part 0. -/
def regWords_PAD_0 : List RegTmpl := [
  ⟨0x0, [(0x4, 11)], [⟨0, 2, .rwl, 1, none, []⟩, ⟨2, 2, .rwl, 0, none, []⟩, ⟨4, 2, .rwl, 0, some (0, 2), [1, 0, 2, 0, 0, 2, 0, 0, 0, 0, 0]⟩]⟩,
  ⟨0x40, [], [⟨0, 1, .w1s, 0, none, []⟩]⟩]
/-- Words of block PAD by offset from its base. -/
def regWords_PAD : List RegTmpl := regWords_PAD_0
/-- Words of block SNS, part 0. -/
def regWords_SNS_0 : List RegTmpl := [
  ⟨0x0, [], [⟨0, 8, .rw, 100, some (80, 105), []⟩, ⟨8, 8, .rwl, 110, some (100, 115), []⟩, ⟨16, 7, .rw, 50, some (10, 100), []⟩]⟩,
  ⟨0x4, [], [⟨0, 1, .ro, 0, none, []⟩, ⟨1, 8, .ro, 0, none, []⟩, ⟨9, 5, .ro, 0, none, []⟩]⟩,
  ⟨0x8, [], [⟨0, 1, .w1s, 0, none, []⟩]⟩,
  ⟨0xc, [], [⟨0, 8, .rw, 0, none, []⟩]⟩,
  ⟨0x100, [(0x4, 32)], [⟨0, 16, .ro, 0, none, []⟩]⟩,
  ⟨0x200, [(0x4, 12)], [⟨0, 16, .ro, 0, none, []⟩]⟩,
  ⟨0x240, [(0x4, 12)], [⟨0, 16, .ro, 0, none, []⟩]⟩,
  ⟨0x280, [], [⟨0, 16, .ro, 0, none, []⟩]⟩,
  ⟨0x284, [], [⟨0, 16, .rw, 0, none, []⟩]⟩,
  ⟨0x288, [], [⟨0, 16, .ro, 0, none, []⟩]⟩,
  ⟨0x290, [], [⟨0, 32, .ro, 0, none, []⟩]⟩,
  ⟨0x294, [], [⟨0, 32, .ro, 0, none, []⟩]⟩,
  ⟨0x300, [(0x4, 5)], [⟨0, 16, .ro, 0, none, []⟩]⟩]
/-- Words of block SNS by offset from its base. -/
def regWords_SNS : List RegTmpl := regWords_SNS_0
/-- Words of block GLB, part 0. -/
def regWords_GLB_0 : List RegTmpl := [
  ⟨0x0, [], [⟨0, 16, .rof, 38432, none, []⟩, ⟨16, 8, .rof, 177, none, []⟩, ⟨24, 8, .rof, 78, none, []⟩]⟩,
  ⟨0x4, [], [⟨0, 16, .rof, 0, none, []⟩]⟩,
  ⟨0x8, [], [⟨0, 32, .rof, 0, none, []⟩]⟩,
  ⟨0xc, [], [⟨0, 32, .rof, 0, none, []⟩]⟩,
  ⟨0x10, [], [⟨0, 3, .rof, 4, none, []⟩, ⟨3, 5, .rof, 16, none, []⟩, ⟨8, 7, .rof, 64, none, []⟩, ⟨15, 4, .rof, 12, none, []⟩, ⟨19, 4, .rof, 8, none, []⟩, ⟨23, 4, .rof, 8, none, []⟩]⟩,
  ⟨0x14, [], [⟨0, 5, .rof, 12, none, []⟩, ⟨5, 5, .rof, 10, none, []⟩, ⟨10, 5, .rof, 12, none, []⟩, ⟨15, 5, .rof, 8, none, []⟩, ⟨20, 5, .rof, 4, none, []⟩, ⟨25, 5, .rof, 10, none, []⟩]⟩,
  ⟨0x18, [], [⟨0, 6, .rof, 16, none, []⟩, ⟨6, 6, .rof, 32, none, []⟩, ⟨12, 10, .rof, 512, none, []⟩, ⟨22, 6, .rof, 46, none, []⟩]⟩,
  ⟨0x1c, [], [⟨0, 8, .rof, 96, none, []⟩, ⟨8, 8, .rof, 24, none, []⟩, ⟨16, 8, .rof, 16, none, []⟩, ⟨24, 8, .rof, 2, none, []⟩]⟩,
  ⟨0x20, [], [⟨0, 7, .rof, 48, none, []⟩, ⟨7, 6, .rof, 24, none, []⟩, ⟨13, 7, .rof, 96, none, []⟩]⟩,
  ⟨0x24, [], [⟨0, 8, .rof, 31, none, []⟩]⟩,
  ⟨0x28, [], [⟨0, 13, .rof, 6214, none, []⟩]⟩,
  ⟨0x2c, [], [⟨0, 1, .ro, 0, none, []⟩, ⟨1, 3, .ro, 0, none, []⟩, ⟨4, 3, .ro, 3, none, []⟩, ⟨7, 3, .ro, 0, none, []⟩, ⟨10, 3, .ro, 0, none, []⟩]⟩,
  ⟨0x30, [], [⟨0, 32, .rof, 4294967295, none, []⟩]⟩,
  ⟨0x34, [], [⟨0, 32, .rof, 2047, none, []⟩]⟩,
  ⟨0x40, [], [⟨0, 1, .w1s, 0, none, []⟩]⟩,
  ⟨0x44, [], [⟨0, 32, .ro, 0, none, []⟩]⟩,
  ⟨0x48, [], [⟨0, 32, .ro, 0, none, []⟩]⟩,
  ⟨0x50, [], [⟨0, 24, .ro, 0, none, []⟩, ⟨24, 3, .ro, 0, none, []⟩]⟩,
  ⟨0x54, [], [⟨0, 31, .ro, 0, none, []⟩, ⟨31, 1, .w1c, 0, none, []⟩]⟩,
  ⟨0x60, [(0x4, 4)], [⟨0, 32, .rw, 0, none, []⟩]⟩]
/-- Words of block GLB by offset from its base. -/
def regWords_GLB : List RegTmpl := regWords_GLB_0
/-- Words of block RTE, part 0. -/
def regWords_RTE_0 : List RegTmpl := [
  ⟨0x0, [], [⟨0, 12, .rw, 0, none, []⟩]⟩,
  ⟨0x4, [], [⟨0, 25, .ro, 0, none, []⟩]⟩,
  ⟨0x8, [], [⟨0, 26, .ro, 0, none, []⟩]⟩,
  ⟨0xc, [], [⟨0, 10, .ro, 0, none, []⟩, ⟨10, 1, .ro, 0, none, []⟩, ⟨11, 1, .ro, 0, none, []⟩, ⟨12, 4, .ro, 0, none, []⟩, ⟨16, 1, .ro, 0, none, []⟩, ⟨17, 1, .ro, 0, none, []⟩, ⟨18, 1, .ro, 0, none, []⟩]⟩,
  ⟨0x10, [], [⟨0, 16, .ro, 0, none, []⟩, ⟨16, 16, .ro, 0, none, []⟩]⟩,
  ⟨0x14, [], [⟨0, 21, .ro, 0, none, []⟩]⟩,
  ⟨0x18, [], [⟨0, 32, .ro, 0, none, []⟩]⟩,
  ⟨0x1c, [], [⟨0, 32, .ro, 0, none, []⟩]⟩,
  ⟨0x30, [], [⟨0, 31, .ro, 0, none, []⟩, ⟨31, 1, .w1c, 0, none, []⟩]⟩,
  ⟨0x40, [(0x4, 16)], [⟨0, 10, .ro, 0, none, []⟩, ⟨10, 2, .ro, 0, none, []⟩]⟩,
  ⟨0x80, [(0x4, 4)], [⟨0, 9, .ro, 0, none, []⟩]⟩,
  ⟨0x100, [(0x4, 64)], [⟨0, 31, .ro, 0, none, []⟩, ⟨31, 1, .w1c, 0, none, []⟩]⟩]
/-- Words of block RTE by offset from its base. -/
def regWords_RTE : List RegTmpl := regWords_RTE_0
/-- Words of block MDC, part 0. -/
def regWords_MDC_0 : List RegTmpl := [
  ⟨0x0, [], [⟨0, 32, .ro, 0, none, []⟩]⟩,
  ⟨0x4, [], [⟨0, 16, .ro, 0, none, []⟩]⟩,
  ⟨0x8, [], [⟨0, 32, .ro, 0, none, []⟩]⟩,
  ⟨0xc, [], [⟨0, 16, .ro, 0, none, []⟩]⟩,
  ⟨0x18, [], [⟨0, 31, .ro, 0, none, []⟩, ⟨31, 1, .w1c, 0, none, []⟩]⟩,
  ⟨0x1c, [], [⟨0, 22, .ro, 0, none, []⟩]⟩,
  ⟨0x40, [(0x4, 12)], [⟨0, 7, .ro, 0, none, []⟩]⟩]
/-- Words of block MDC by offset from its base. -/
def regWords_MDC : List RegTmpl := regWords_MDC_0
/-- Words of block MGC, part 0. -/
def regWords_MGC_0 : List RegTmpl := [
  ⟨0x0, [], [⟨0, 4, .ro, 0, none, []⟩]⟩,
  ⟨0x4, [], [⟨0, 4, .ro, 0, none, []⟩]⟩,
  ⟨0x8, [], [⟨0, 10, .rw, 0, some (1, 512), []⟩, ⟨10, 1, .w1s, 0, none, []⟩]⟩,
  ⟨0xc, [], [⟨0, 1, .ro, 0, none, []⟩, ⟨1, 1, .w1c, 0, none, []⟩, ⟨2, 10, .ro, 0, none, []⟩, ⟨12, 4, .ro, 0, none, []⟩]⟩,
  ⟨0x10, [], [⟨0, 10, .ro, 0, none, []⟩, ⟨10, 1, .ro, 0, none, []⟩]⟩,
  ⟨0x14, [], [⟨0, 10, .wo, 0, none, []⟩]⟩,
  ⟨0x18, [], [⟨0, 32, .rw, 0, none, []⟩]⟩,
  ⟨0x1c, [], [⟨0, 32, .rw, 0, none, []⟩]⟩,
  ⟨0x20, [], [⟨0, 31, .ro, 0, none, []⟩, ⟨31, 1, .w1c, 0, none, []⟩]⟩,
  ⟨0x100, [(0x40, 4)], [⟨0, 3, .ro, 0, none, []⟩]⟩,
  ⟨0x104, [(0x40, 4)], [⟨0, 10, .ro, 0, none, []⟩, ⟨10, 1, .w1c, 0, none, []⟩]⟩,
  ⟨0x108, [(0x40, 4)], [⟨0, 32, .ro, 0, none, []⟩]⟩,
  ⟨0x10c, [(0x40, 4)], [⟨0, 2, .ro, 0, none, [0, 1, 2, 3]⟩]⟩,
  ⟨0x110, [(0x40, 4)], [⟨0, 32, .ro, 0, none, []⟩]⟩,
  ⟨0x114, [(0x40, 4)], [⟨0, 32, .ro, 0, none, []⟩]⟩,
  ⟨0x118, [(0x40, 4), (0x8, 5)], [⟨0, 32, .ro, 0, none, []⟩]⟩,
  ⟨0x11c, [(0x40, 4), (0x8, 5)], [⟨0, 16, .ro, 0, none, []⟩]⟩,
  ⟨0x400, [(0x4, 32)], [⟨0, 32, .w1c, 0, none, []⟩]⟩,
  ⟨0x480, [(0x4, 32)], [⟨0, 32, .rw, 0, none, []⟩]⟩,
  ⟨0x1000, [(0x4, 512)], [⟨0, 32, .rw, 0, none, []⟩]⟩]
/-- Words of block MGC, part 1. -/
def regWords_MGC_1 : List RegTmpl := [
  ⟨0x1800, [(0x4, 512)], [⟨0, 32, .ro, 0, none, []⟩]⟩]
/-- Words of block MGC by offset from its base. -/
def regWords_MGC : List RegTmpl := regWords_MGC_0 ++ regWords_MGC_1
/-- The words of the block with a code (R8), and the number of the block's instance (HPn, DCn). -/
def regBlock (code : Nat) : List RegTmpl :=
  if code = 0 then regWords_GLB
  else if 1 ≤ code ∧ code < 5 then regWords_HP
  else if code = 5 then regWords_RTE
  else if code = 6 then regWords_LC
  else if code = 7 then regWords_RNT
  else if code = 8 then regWords_KSL
  else if code = 9 then regWords_MDC
  else if 10 ≤ code ∧ code < 22 then regWords_DC
  else if code = 22 then regWords_ECS
  else if code = 23 then regWords_TMG
  else if code = 24 then regWords_STI
  else if code = 25 then regWords_CHN
  else if code = 26 then regWords_NVH
  else if code = 27 then regWords_HLD
  else if code = 28 then regWords_TWL
  else if code = 29 then regWords_TWT
  else if code = 30 then regWords_CCC
  else if code = 31 then regWords_MIR
  else if code = 32 then regWords_RND
  else if code = 33 then regWords_MGC
  else if code = 34 then regWords_RING ++ regWords_DB ++ regWords_CMD
  else if code = 35 then regWords_ROW
  else if code = 36 then regWords_FCO
  else if code = 37 then regWords_PSQ
  else if code = 38 then regWords_CKS
  else if code = 39 then regWords_CAL
  else if code = 40 then regWords_SNS
  else if code = 41 then regWords_SKQ
  else if code = 42 then regWords_PAD
  else []

end Sys2Proof.Machine
end

