-- ==== Sys2Proof/Machine/State.lean ====
section
/-! DEFINITION. The state of the NX9620: every register, buffer, table, medium and pin the spec gives it, as
plain data, with the queue of waiting commands; the reasons a step can stop; and the state after reset. -/

namespace Sys2Proof.Machine

/-- Why the device stops. No meaning answers with one: every command of the table has an effect in every
state (a command that names something not in progress leaves the state unchanged). -/
inductive Fault
  /-- Raised by nobody: the spec gives no behaviour that stops the device's model. Safe. -/
  | stopped
  deriving DecidableEq, Repr

/-- Why a command has no meaning. -/
inductive Refusal
  /-- Raised by an arm of the dispatcher whose command has no meaning yet; safe. -/
  | notModelled (mnemonic : String)
  deriving DecidableEq, Repr

/-- The device, its security fuses and the queue apart. -/
structure Dev where
  /-- free-running count of FCLK cycles, 0.5 ns (R11): the model's own time base -/
  clock : Nat
  /-- the model's own counter of free choices made: the argument of the free values of Config -/
  fresh : Nat
  /-- the model's own counter of uses, the order stamp of the next: which line, way or entry was used last (R94, R113) -/
  uses : Nat
  /-- fields of the management BAR0 registers that differ from their reset value, by BAR0 offset * 32 + low bit (R10, R482) -/
  regs : Tab Nat
  /-- the line cache, by DPA line (R92) -/
  lc : Tab CacheLn
  /-- DRAM frames with their metadata, by frame number * 64 + line; unlisted = ABSENT zeros (R23, R38) -/
  frames : Tab Ln
  /-- injected masks that DRAM holds, by (channel * 2^33 + channel line) * 4 + codeword (R123) -/
  errors : Tab (BitVec 160)
  /-- frame map, by granule (R212) -/
  fm : Tab FmEntry
  /-- reverse map, by frame number (R215) -/
  rm : Tab RmEntry
  /-- loan back-map, by loan slot index (R216) -/
  lbm : Tab LbmEntry
  /-- demotion staging, by entry (R225) -/
  staged : Tab Staged
  /-- counted granules (R52) -/
  dirty : Tab DirtyGran
  /-- destages in flight, by granule (R198) -/
  destages : Tab Destage
  /-- fills queued or in flight, by granule (R223) -/
  fills : Tab Fill
  /-- admission hold queues, by port, oldest first (R55) -/
  held : Tab (List Held)
  /-- requests waiting in RTE, oldest first (R24, R107) -/
  rteWait : List HostReq
  /-- requests that wait on the CXL links for credit, oldest first (R55, R107) -/
  linkWait : List LinkReq
  /-- DRAM reads in flight, by read number (R140) -/
  reads : Tab DramRead
  /-- poison index, by DPA line (R122) -/
  poison : Tab PoisonEntry
  /-- SRAM words written with flipped bits (R125), by target * 2^44 + place: the one or two bits flipped -/
  flips : Tab (Nat × Option Nat)
  /-- the metadata cache's words, by (frame number * 64 + line) / 2: two entries each; `true` = modified since it was fetched (R3, R116) -/
  mdc : Tab Bool
  /-- frame-map lines in the frame-map cache (R213), and those whose DRAM line is lost and not yet rebuilt (R234) -/
  fmc : Tab Unit
  mapLost : Tab Unit
  /-- DRAM channels beside their registers, by channel (R113) -/
  channels : Tab Channel
  /-- region table, by region number (R34) -/
  regions : Tab Region
  /-- region generations, by region number, kept after destruction (R35) -/
  gens : Tab Nat
  /-- tenant quotas, by tenant (R228) -/
  quotas : Tab TenantQuota
  /-- rekey sweeps, by key slot (R171) -/
  sweeps : Tab Sweep
  /-- media of the drives, by drive slot (R190) -/
  media : Tab Medium
  /-- drives beside their registers, by drive slot (R189) -/
  drives : Tab Drive
  /-- the image in use: the header last written (R193) -/
  image : ImgHeader
  /-- ports of the image's drives, fixed when the image is created or restored (R191, R206); 0 = no image yet -/
  imageMask : Nat
  /-- regions whose ever-written bits on the drive slots listed were not loaded at restore (R192, R194) -/
  lostMaps : Tab (List Nat)
  /-- rebuilds in progress, by drive slot (R205) -/
  rebuild : Tab Rebuild
  /-- region log in SPI NOR (R37) -/
  regionLog : RegionLog
  /-- region-log records being programmed, oldest first (R37) -/
  logWait : List LogWait
  /-- logical devices, by global LD (R66) -/
  lds : Tab Ld
  /-- DOE instances, by function, or 128 + head for an FM-owned LD (R86) -/
  does : Tab Doe
  /-- heads, by port * 4 + head (R65) -/
  heads : Tab Head
  /-- head that carries the management function, until chip reset (R68) -/
  mgmt : Option Nat
  /-- DevLoad occupancy thresholds in % (R75) -/
  loadLow : Nat
  loadHigh : Nat
  /-- allowance of new-dirty writes in THROTTLE (R496) -/
  allowance : Nat
  /-- FCLK count since which a write waits for a write-accept entry (R93, R107) -/
  wabSince : Option Nat
  /-- learning reads outstanding, by granule: drive slot (R199) -/
  learns : Tab Nat
  /-- writes waiting for a frame, oldest first (R222) -/
  allocWait : List HostReq
  /-- granules an allocation waits for (R222) -/
  waits : Tab Unit
  /-- the frame-map lines of the lost channel stand in the spare parts (R236 step 2) -/
  fmsDone : Bool
  /-- RNT's queue, lanes and tests (R173–R178) -/
  rnt : Rnt
  /-- Stitcher engines (R240) -/
  engines : Tab Engine
  /-- FCLK count of the last granules passed to TMG, and their number in that cycle (R251) -/
  stiPass : Nat × Nat
  /-- associations, by association number (R274) -/
  assocs : Tab Assoc
  /-- priorities paused by a peer, by port * 8 + priority: FCLK count (R300); and the packets they hold -/
  paused : Tab Nat
  txHeld : List TxHeld
  /-- mirroring and lease (R303) -/
  mirror : Mirror
  /-- refereed pairs, by slot (R321) -/
  refPairs : Tab RefPair
  /-- referee state log in SPI NOR, oldest first (R322) -/
  refLog : List RefLog
  /-- Round membership, loans lent and borrowed (R336) -/
  round : Round
  /-- security island, SPI NOR images, key store and identity (R358) -/
  island : Island
  /-- ring pairs, by function * 16 + local ring (R388) -/
  rings : Tab Ring
  /-- CMD.RQ.COUNT by function, where it differs from its reset value (R388) -/
  rq : Tab Nat
  /-- count of commands taken, the order stamp of the next -/
  takes : Nat
  /-- REGION_REVOKEs in progress, by region (R404) -/
  revokes : Tab Revoke
  /-- REGION_DESTROYs waiting, by region (R404) -/
  destroys : Tab Destroy
  /-- COPYs running, by order stamp (R404) -/
  copies : Tab CopyJob
  /-- TIER_HINT PROMOTEs whose fills are being queued, by order stamp (R231) -/
  hints : Tab HintJob
  /-- REF_RECV buffers posted, oldest first: issuer, pointer, and whether a write to the buffer succeeds (R397, R406) -/
  refRecv : List (Issuer × Nat × Bool)
  /-- skein queues, by queue number (R407); of the holding queue and the lanes' queues the mode and the level alone stand here -/
  skeins : Tab Skein
  /-- ROW and the Row log (R431) -/
  row : RowLog
  /-- FCO and MSI-X tables (R417) -/
  fco : Fco
  /-- PSQ and the flush in progress (R445) -/
  psq : Psq
  /-- CKS, RTC and calendar time (R456) -/
  cks : Cks
  /-- CAL items, by item (R462) -/
  cal : Tab CalItem
  /-- what the command in progress sends, newest first; empty between commands -/
  out : List Output
  deriving DecidableEq, Repr

/-- The security fuses that any function may show (R361): LIFECYCLE, the anti-rollback versions, DBG_OFF. -/
structure Fuses where
  /-- 0 MANUFACTURE, 1 PRODUCTION, 2 RMA -/
  lifecycle : Nat
  wsvn : Nat
  asvn : Nat
  dbgOff : Bool
  deriving DecidableEq, Repr

/-- The machine: the device, its fuses, everything it has sent (newest first), and the commands that wait, first in, first out. -/
structure State where
  dev : Dev
  fuses : Fuses
  sent : List Output
  pending : List Instr
  deriving DecidableEq, Repr

/-- The device right after its first power (the VAON reset of R460): nothing listed, every register at its
reset value. -/
def Dev.reset : Dev where
  clock := 0
  fresh := 0
  uses := 0
  regs := .empty
  lc := .empty
  frames := .empty
  errors := .empty
  fm := .empty
  rm := .empty
  lbm := .empty
  staged := .empty
  dirty := .empty
  destages := .empty
  fills := .empty
  held := .empty
  rteWait := []
  linkWait := []
  reads := .empty
  poison := .empty
  flips := .empty
  mdc := .empty
  fmc := .empty
  mapLost := .empty
  channels := .empty
  regions := .empty
  gens := .empty
  quotas := .empty
  sweeps := .empty
  media := .empty
  drives := .empty
  image := {}
  imageMask := 0
  lostMaps := .empty
  rebuild := .empty
  regionLog := {}
  logWait := []
  lds := .empty
  does := .empty
  heads := .empty
  mgmt := none
  loadLow := 25
  loadHigh := 75
  allowance := 0
  wabSince := none
  learns := .empty
  allocWait := []
  waits := .empty
  fmsDone := false
  rnt := {}
  engines := .empty
  stiPass := (0, 0)
  assocs := .empty
  paused := .empty
  txHeld := []
  mirror := {}
  refPairs := .empty
  refLog := []
  round := {}
  island := {}
  rings := .empty
  rq := .empty
  takes := 0
  revokes := .empty
  destroys := .empty
  copies := .empty
  hints := .empty
  refRecv := []
  skeins := .empty
  row := {}
  fco := {}
  psq := {}
  cks := {}
  cal := .empty
  out := []

/-- The machine right after its first power. -/
def State.reset : State where
  dev := Dev.reset
  fuses := { lifecycle := 1, wsvn := 0, asvn := 0, dbgOff := false }
  sent := []
  pending := []

end Sys2Proof.Machine
end

