-- ==== Sys2Proof/Machine/Ops.lean ====
section
/-! DEFINITION. The operations every command shares: register fields, time, counters, free choices, raising an
event, and what the device sends. -/

namespace Sys2Proof.Machine

/-- The value of a register field. -/
def Dev.get (s : Dev) (f : Field) : Nat := s.regs.getD f.key f.reset

/-- A one-bit field as a truth value. -/
def Dev.bit (s : Dev) (f : Field) : Bool := s.get f != 0

/-- Hardware writes a register field. -/
def Dev.set (s : Dev) (f : Field) (v : Nat) : Dev :=
  { s with regs := s.regs.putD f.key (v % 2 ^ f.width) f.reset }

/-- Hardware writes a one-bit field. -/
def Dev.setBit (s : Dev) (f : Field) (b : Bool) : Dev := s.set f (if b then 1 else 0)

/-- A free choice among `n`, and the state after it. -/
def Dev.choose (s : Dev) (n : Nat) : Nat × Dev :=
  (Config.pick s.fresh % n, { s with fresh := s.fresh + 1 })

/-- A value the spec does not state, and the state after taking it. -/
def Dev.freeValue (s : Dev) : Nat × Dev :=
  (Config.value s.fresh, { s with fresh := s.fresh + 1 })

/-- A random value of the TRNG. -/
def Dev.random (s : Dev) : Nat × Dev :=
  (Config.random s.fresh, { s with fresh := s.fresh + 1 })

/-- One use more: the order stamp moves on. -/
def Dev.used (s : Dev) : Dev := { s with uses := s.uses + 1 }

/-- FCLK cycles in a µs, a ms and an OCLK period (R11). -/
def fclkUs : Nat := 2000
def fclkMs : Nat := 2000000
def fclkS : Nat := 2000000000
def fclkOclk : Nat := 80

/-- TNOW: µs since chip reset, 32 bits (R259). -/
def Dev.tnow (s : Dev) : Nat := ((s.clock - s.cks.tnow0) / fclkUs) % 2 ^ 32

/-- OCLK count of the device. -/
def Dev.oclk (s : Dev) : Nat := s.clock / fclkOclk

/-- Calendar time in ns: 40 ns per OCLK from its base (R459). -/
def Dev.calNow (s : Dev) : Nat := s.cks.calBase + 40 * ((s.clock - s.cks.calAt) / fclkOclk)

/-- A time-driven command arrives no earlier than its time: the clock stands at `t` or later. -/
def Dev.at (s : Dev) (t : Nat) : Dev := { s with clock := max s.clock t }

/-- Send something. -/
def Dev.send (s : Dev) (o : Output) : Dev := { s with out := o :: s.out }

/-- Bytes of a 32-byte record payload: (first byte, bytes, value) (R432). -/
def packBytes (l : List (Nat × Nat × Nat)) : BitVec 256 :=
  BitVec.ofNat 256 (l.foldl (fun a f => a ||| ((f.2.2 % 256 ^ f.2.1) <<< (8 * f.1))) 0)

/-- An event whose source's chapter defines a record payload: byte 0 the local index, the syndrome in bytes
7:4, and the further fields (R415). -/
def Ev.make (id : Nat) (writes : Bool) (synd : Nat) (l : List (Nat × Nat × Nat)) : Ev :=
  { id, synd := BitVec.ofNat 32 synd, payload := packBytes ((0, 1, id % 16) :: (4, 4, synd) :: l), writes }

/-- An event of a source that defines no record payload (R415). -/
def Ev.plain (id : Nat) : Ev := { id, writes := false }

/-- Two records that repeat each other: event ID, PAYLOAD byte 0 and PAYLOAD bytes 7:4 (R433). -/
def sameRecord (id : Nat) (p : BitVec 256) (r : RowRec) : Bool :=
  id == r.id && p.extractLsb' 0 8 == r.payload.extractLsb' 0 8 && p.extractLsb' 32 32 == r.payload.extractLsb' 32 32

/-- The open record's key and count, and the SEQ that follows, after a record arrives (R433). -/
def rowTrace (open_ : Option RowRec) (seq id : Nat) (p : BitVec 256) : Option RowRec × Nat :=
  match open_ with
  | some r =>
    if sameRecord id p r && decide (r.cnt < 65535) then (some { r with cnt := r.cnt + 1 }, seq)
    else (some { seq, id, payload := p }, seq + 1)
  | none => (some { seq, id, payload := p }, seq + 1)

/-- The SEQ the last record of a queue takes once ROW has handled the queue in order. -/
def rowSeqOf (open_ : Option RowRec) (seq : Nat) : List HeldRec → Option Nat
  | [] => open_.map (·.seq)
  | h :: t => let r := rowTrace open_ seq h.ev.id h.ev.payload; rowSeqOf r.1 r.2 t

/-- Counters of 31 bits with a sticky SAT bit: add `n`; `true` = SAT has just become set (R441, R485). -/
def Dev.countUp (s : Dev) (cf sf : Field) (n : Nat) : Dev × Bool :=
  if s.bit sf then (s, false)
  else if s.get cf + n < 2 ^ cf.width then (s.set cf (s.get cf + n), false)
  else ((s.set cf (2 ^ cf.width - 1)).setBit sf true, true)

/-- The FCLK cycle at which an event reaches FCO: one per source and 16 in all per cycle (R416). -/
def fcoSlot (l : List (Nat × Ev)) (id : Nat) : Nat → Nat → Nat
  | 0, t => t
  | n + 1, t =>
    if l.any (fun x => x.1 == t && x.2.id == id) || decide (16 ≤ (l.filter fun x => x.1 == t).length)
    then fcoSlot l id n (t + 1) else t

/-- Insert by cycle, then by ID (R416). -/
def fcoInsert (t : Nat) (e : Ev) : List (Nat × Ev) → List (Nat × Ev)
  | [] => [(t, e)]
  | (u, x) :: r =>
    if t < u ∨ (t = u ∧ e.id < x.id) then (t, e) :: (u, x) :: r else (u, x) :: fcoInsert t e r

/-- An event reaches FCO (R416). -/
def Dev.post (s : Dev) (e : Ev) : Dev :=
  let t := fcoSlot s.fco.inbox e.id (s.fco.inbox.length + 1) s.clock
  { s with fco := { s.fco with inbox := fcoInsert t e s.fco.inbox } }

/-- Pushing `n` items takes a queue's fill to its LEVEL; LEVEL 0 turns the function off (R410). -/
def levelMet (level fill n : Nat) : Bool := decide (fill < level) && decide (level ≤ fill + n)

/-- The holding queue's level (R410): a record of 8 items comes behind `fill` items. -/
def Dev.heldLevel (s : Dev) (fill : Nat) : Dev :=
  let k : Skein := s.skeins.getD 1 {}
  if s.row.lvlPend || !levelMet k.level fill 8 then s
  else
    let s := { s with row := { s.row with lvlPend := true } }
    let wr := s.row.pushed
    let rd := (wr + 2048 - fill) % 2048
    if s.psq.accepts then s.post (Ev.make 0x291 false 1 [(1, 2, 1), (8, 2, rd), (10, 2, rd), (12, 2, wr), (14, 2, wr)]) else s

/-- Hand a record to ROW through the holding queue (R431): 256 records; a further one is lost. The answer is
the SEQ the record takes. -/
def Dev.holdRecord (s : Dev) (e : Ev) (byLog : Bool) : Dev × Option Nat :=
  if s.row.holding.length < 256 then
    let h := s.row.holding ++ [{ ev := e, byLog, time := s.calNow }]
    let s := s.heldLevel (8 * s.row.holding.length)
    ({ s with row := { s.row with holding := h, pushed := (s.row.pushed + 8) % 2048 } }, rowSeqOf s.row.open_ s.row.seq h)
  else
    (({ s with row := { s.row with lostSince := s.row.lostSince + 1, lostWhy := 0 } }.countUp
      Reg.ROW.LOST.COUNT Reg.ROW.LOST.SAT 1).1, none)

/-- An always-on source, whose events PSQ holds while FCO accepts none: PSQ, CKS, and EV 0x283 (R455). -/
def heldSource (id : Nat) : Bool := id / 16 == 0x25 || id / 16 == 0x26 || id == 0x283

/-- A block raises an event (R415, R416, R423, R424, R455). -/
def Dev.raise (s : Dev) (e : Ev) : Dev :=
  if s.fco.resetting.has (e.id / 16) then s
  else if s.psq.accepts then
    let (s, seq) := if e.writes then s.holdRecord e false else (s, none)
    s.post { e with seq }
  else if heldSource e.id then { s with psq := { s.psq with held := s.psq.held.put e.id e } }
  else if e.id / 16 == 0x23 && e.writes then (s.holdRecord e false).1
  else s

/-- Raise each event in turn. -/
def Dev.raiseAll (s : Dev) (l : List Ev) : Dev := l.foldl Dev.raise s

/-- Raise an event that is raised no more than once per ms. -/
def Dev.raiseMs (s : Dev) (e : Ev) : Dev :=
  match s.fco.lastAt.get? e.id with
  | some t => if s.clock < t + fclkMs then s
    else ({ s with fco := { s.fco with lastAt := s.fco.lastAt.put e.id s.clock } }).raise e
  | none => ({ s with fco := { s.fco with lastAt := s.fco.lastAt.put e.id s.clock } }).raise e

/-- Raise an event at the first occurrence after 1 ms without one. -/
def Dev.raiseFirst (s : Dev) (e : Ev) : Dev :=
  let quiet := match s.fco.lastAt.get? e.id with
    | some t => decide (t + fclkMs ≤ s.clock)
    | none => true
  let s := { s with fco := { s.fco with lastAt := s.fco.lastAt.put e.id s.clock } }
  if quiet then s.raise e else s

/-- Add to a counter and raise its event when it saturates. -/
def Dev.count (s : Dev) (cf sf : Field) (n : Nat) (e : Ev) : Dev :=
  let r := s.countUp cf sf n
  if r.2 then r.1.raise e else r.1

/-- Add to a 48-bit counter held in a LO and a HI field; a wrap raises the event. -/
def Dev.count48 (s : Dev) (lo hi : Field) (n : Nat) (e : Ev) : Dev :=
  let v := s.get lo + 2 ^ 32 * s.get hi + n
  let s := (s.set lo (v % 2 ^ 32)).set hi (v / 2 ^ 32 % 2 ^ 16)
  if 2 ^ 48 ≤ v then s.raise e else s

/-- The value of a 48-bit or 64-bit counter. -/
def Dev.wide (s : Dev) (lo hi : Field) : Nat := s.get lo + 2 ^ 32 * s.get hi

/-- Write a 48-bit or 64-bit value. -/
def Dev.setWide (s : Dev) (lo hi : Field) (v : Nat) : Dev := (s.set lo (v % 2 ^ 32)).set hi (v / 2 ^ 32)

/-- SRAM and path classes of SRAM_INJ (R125). -/
def flipLc : Nat := 0
def flipMdc : Nat := 1
def flipFm : Nat := 2
def flipSkein : Nat := 3
def flipPath : Nat := 4

/-- A word of a class is written: an armed SRAM_INJ flips its bits (R125). -/
def Dev.sramWrite (s : Dev) (target place : Nat) : Dev :=
  let s := if s.flips.has (target * 2 ^ 44 + place) then { s with flips := s.flips.del (target * 2 ^ 44 + place) } else s
  if s.bit Reg.ECS.SRAM_INJ.ARM ∧ s.get Reg.ECS.SRAM_INJ.TARGET = target then
    let two := s.bit Reg.ECS.SRAM_INJ.TWO
    let a := s.get Reg.ECS.SRAM_INJ.BIT_A
    let b := s.get Reg.ECS.SRAM_INJ.BIT_B
    let s := s.setBit Reg.ECS.SRAM_INJ.ARM false
    if two ∧ a = b then s
    else { s with flips := s.flips.put (target * 2 ^ 44 + place) (a, if two then some b else none) }
  else s

/-- A GLB event (R490): its syndrome is WR_DISC as it stands; a record only by LOG. -/
def Dev.glbEv (s : Dev) (id : Nat) : Ev :=
  Ev.make id false (s.get Reg.GLB.WR_DISC.OFFSET + s.get Reg.GLB.WR_DISC.CAUSE * 2 ^ 24) []

/-- A register write is discarded (R484, R485, R490): cause 0 no writable target, 1 locked, 2 out of range, 3 width. -/
def Dev.discard (s : Dev) (off cause : Nat) : Dev :=
  let s := (s.set Reg.GLB.WR_DISC.OFFSET off).set Reg.GLB.WR_DISC.CAUSE cause
  let r := s.countUp Reg.GLB.WR_DISC_CNT.COUNT Reg.GLB.WR_DISC_CNT.SAT 1
  let s := r.1.raiseFirst (r.1.glbEv 0x001)
  if r.2 then s.raise (s.glbEv 0x002) else s

/-- A meaning's answer. -/
abbrev Answer := Host.Outcome State Fault Refusal

/-- The machine with the device as an effect leaves it: what the effect sends is added to what has been sent; fuses and queue
stay. -/
def State.did (s : State) (d : Dev) : State := { s with dev := { d with out := [] }, sent := d.out ++ s.sent }

/-- The next state after an effect on the device. -/
def State.on (s : State) (f : Dev → Dev) : Answer := .next (s.did (f s.dev))

/-- The same for an effect that depends on the fuses. -/
def State.onF (s : State) (f : Fuses → Dev → Dev) : Answer := s.on (f s.fuses)

/-- Lanes train: from CAL item `first` on, `n` items take their USER offset (R462). -/
def Dev.calTrained (s : Dev) (first n : Nat) : Dev :=
  { s with cal := (List.range n).foldl (fun t k =>
      let x := t.getD (first + k) {}
      t.putD (first + k) { x with live := x.user } {}) s.cal }

end Sys2Proof.Machine
end

