-- ==== Sys2Proof/Machine/Topology.lean ====
section
/-! DEFINITION. Ports, heads and logical devices (R65–R68), channels (R136), image drives (R191), regions by
address (R33, R34), and the roles a device serves in (R304): what the other chapters look up. -/

namespace Sys2Proof.Machine

/-- Heads of a port by BIFUR (R65). -/
def Dev.headCount (s : Dev) (n : Nat) : Nat :=
  match s.get (Reg.HP.PORT_CFG.BIFUR n) with | 0 => 1 | 1 => 2 | _ => 4

/-- LDs and first global LD of a head H = 4n + h. -/
def Dev.ldCnt (s : Dev) (H : Nat) : Nat := s.get (Reg.HP.HEAD_CFG.LD_CNT (H / 4) (H % 4))
def Dev.gldBase (s : Dev) (H : Nat) : Nat := s.get (Reg.HP.HEAD_CFG.GLD_BASE (H / 4) (H % 4))

/-- A head is enabled: its port's ENABLE is set, BIFUR has it and it has LDs. -/
def Dev.headOn (s : Dev) (H : Nat) : Bool :=
  s.bit (Reg.HP.PORT_CFG.ENABLE (H / 4)) && decide (H % 4 < s.headCount (H / 4)) && decide (0 < s.ldCnt H)

/-- The global LD that LD-ID `ld` of a head names. -/
def Dev.gldOf (s : Dev) (H ld : Nat) : Option Nat :=
  if s.headOn H ∧ ld < s.ldCnt H then some (s.gldBase H + ld) else none

/-- The enabled head that presents a global LD (R66). -/
def Dev.headOfGld (s : Dev) (g : Nat) : Option Nat :=
  (List.range 16).find? fun H => s.headOn H && decide (s.gldBase H ≤ g) && decide (g < s.gldBase H + s.ldCnt H)

/-- A head's link is up. -/
def Dev.linkUp (s : Dev) (H : Nat) : Bool := s.get (Reg.HP.LINK_STS.RATE (H / 4) (H % 4)) != 0

/-- The head that presents a function: 0–63 a global LD, 64 the management function (R68). -/
def Dev.headOfFunc (s : Dev) (f : Nat) : Option Nat := if f = 64 then s.mgmt else s.headOfGld f

/-- The logical device with its state. -/
def Dev.ld (s : Dev) (g : Nat) : Ld := s.lds.getD g {}
def Dev.setLd (s : Dev) (g : Nat) (l : Ld) : Dev := { s with lds := s.lds.putD g l {} }
def Dev.head (s : Dev) (H : Nat) : Head := s.heads.getD H {}
def Dev.setHead (s : Dev) (H : Nat) (h : Head) : Dev := { s with heads := s.heads.putD H h {} }

/-- Event of port n (R89): no record payload is defined, so the syndrome is 0 (R415). `dpa` stands in bytes
15:8 of a record that carries one (log entry 22). -/
def hpEv (n i : Nat) : Ev := Ev.plain ((n + 1) * 16 + i)
def hpRec (n i v : Nat) : Ev :=
  { id := (n + 1) * 16 + i, synd := 0, payload := packBytes [(8, 8, v)], writes := true }

/-- Channels with a supported population, in ascending order (R136). -/
def Dev.populated (s : Dev) : List Nat :=
  (List.range 12).filter fun n => s.get (Reg.DC.POP.TYPE n) == 1 || s.get (Reg.DC.POP.TYPE n) == 2

/-- C of R136. -/
def Dev.chanCount (s : Dev) : Nat := s.populated.length

/-- The channel that holds a frame. -/
def Dev.chanOf (s : Dev) (fn : Nat) : Option Nat := s.populated[fn % s.chanCount]?

/-- A channel is in service, or in parity recovery. -/
def Dev.chanUp (s : Dev) (n : Nat) : Bool :=
  s.get (Reg.DC.STS.STATE n) == 4 || s.get (Reg.DC.STS.STATE n) == 5

/-- Line number inside its channel: channel address bits 38:6 of a frame line (R136). -/
def Dev.chanLine (s : Dev) (fn k : Nat) : Nat := fn / s.chanCount * 64 + k

/-- The 64-line granule of a DPA line. -/
def granOf (line : Nat) : Nat := line / 64

/-- The extent of a granule. -/
def extOf (g : Nat) : Nat := g / 512

/-- The region that covers a granule (R34). -/
def Dev.regionAt (s : Dev) (g : Nat) : Option (Nat × Region) :=
  s.regions.list.find? fun e => decide (e.2.base ≤ extOf g) && decide (extOf g < e.2.base + e.2.size)

/-- A line of a frame with its metadata. -/
def Dev.frameLn (s : Dev) (fn k : Nat) : Ln := s.frames.getD (fn * 64 + k) {}
def Dev.setFrameLn (s : Dev) (fn k : Nat) (l : Ln) : Dev :=
  { s with frames := s.frames.putD (fn * 64 + k) l {} }

/-- The canonical form of the DRAM contents: keys strictly rising, and no entry equal to what an unlisted line reads as. -/
def Dev.memWf (s : Dev) : Bool := s.frames.wf && s.frames.list.all fun e => e.2 != {}

/-- Granule count of the image (R191): fixed by its header. -/
def Dev.imageG (s : Dev) : Nat := s.image.g

/-- Ports of the image's drives, in drive-slot order (R191): those of the image in use, which a later write of DRIVE_MASK does not
change; before there is one, those that DRIVE_MASK names. -/
def Dev.imageDrives (s : Dev) : List Nat :=
  setBits 8 (if s.imageMask = 0 then s.get Reg.NVH.IMG_CFG.DRIVE_MASK else s.imageMask)

/-- N of R191. -/
def Dev.imageN (s : Dev) : Nat := s.imageDrives.length

/-- Home drive slot, index on it and tag drive slot of a granule (R191). -/
def homeSlot (n g : Nat) : Nat := g / 16 % n
def homeIndex (n g : Nat) : Nat := g / 16 / n * 16 + g % 16
def tagSlot (n g : Nat) : Nat := (homeSlot n g + 1) % n

/-- What the frame map shows of a granule it does not list: never written, unless the map that says so was not loaded
(log entry 35). -/
def Dev.fmeUnlisted (s : Dev) (g : Nat) : FmEntry :=
  if s.lostMaps.list.isEmpty then {}
  else match s.regionAt g with
    | some (n, _) => { ew := (s.lostMaps.getD n []).contains (homeSlot s.imageDrives.length g) }
    | none => {}

/-- Frame-map entry of a granule (R212). -/
def Dev.fme (s : Dev) (g : Nat) : FmEntry := match s.fm.get? g with | some e => e | none => s.fmeUnlisted g

/-- The granule at an index of a drive slot. -/
def granAt (n d i : Nat) : Nat := (i / 16 * n + d) * 16 + i % 16

/-- D, M, D_BASE and R of R191. -/
def imageD (n G : Nat) : Nat := ceilDiv G (16 * n) * 16
def imageM (n G : Nat) : Nat := ceilDiv (imageD n G) 32768
def imageBase (n G : Nat) : Nat := ceilDiv (160 + imageM n G) 256 * 256
def Dev.rescueR (s : Dev) : Nat := s.image.r

/-- First LBA of a header copy, LBA and byte of an entry of the poison index, and LBA, byte and bit of an index in the ever-written
map (R191, *Namespace 1 layout*). -/
def headerLba (copy1 : Bool) : Nat := if copy1 then 16 else 0
def poisonPlace (i : Nat) : Nat × Nat := (32 + i / 512, i % 512 * 8)
def mapPlace (i : Nat) : Nat × Nat × Nat := (160 + i / 32768, i / 8 % 4096, i % 8)

/-- Data LBA of a granule on its home drive (R191). -/
def Dev.dataLba (s : Dev) (g : Nat) : Nat := imageBase s.imageN s.imageG + homeIndex s.imageN g

/-- State of the drive in an image drive slot (R189). -/
def Dev.driveSt (s : Dev) (d : Nat) : Nat :=
  match s.imageDrives[d]? with | some p => s.get (Reg.NVH.DRV.STATE p) | none => 0

/-- A drive slot is in service: HEALTHY or REBUILDING (R189). -/
def Dev.driveOk (s : Dev) (d : Nat) : Bool := s.driveSt d == 2 || s.driveSt d == 3

/-- Healthy drives as R53 counts them. -/
def Dev.healthy (s : Dev) : Nat := ((List.range 8).filter fun p =>
  s.get (Reg.NVH.DRV.STATE p) == 2 || s.get (Reg.NVH.DRV.STATE p) == 3).length

/-- The image's drives are in the states that let it be used (ONLINE and after, R206). -/
def Dev.imageOnline (s : Dev) : Bool := decide (3 ≤ s.get Reg.NVH.IMG_STS.STATE)

/-- A drive slot's medium. -/
def Dev.medium (s : Dev) (d : Nat) : Medium :=
  match s.imageDrives[d]? with | some p => s.media.getD p {} | none => {}

/-- Change the medium in a drive slot. -/
def Dev.setMedium (s : Dev) (d : Nat) (m : Medium) : Dev :=
  match s.imageDrives[d]? with | some p => { s with media := s.media.put p m } | none => s

/-- The NVMe command is issued to a drive slot: namespace, first LBA, number of LBAs (R188). -/
def Dev.nvme (s : Dev) (d : Nat) (op : NvmeOp) (nsid lba blocks : Nat) : Dev := s.send (.nvme d op nsid lba blocks)

end Sys2Proof.Machine
end

