-- ==== Sys2Proof/Machine/Keys.lean ====
section
/-! DEFINITION. The internal key slots (R167, R366), and what is sealed under slot 2: the image header (R193) and the records of
the region log (R37), byte by byte. -/

namespace Sys2Proof.Machine

/-- "NX9620 INTERNAL", "NX9620 IMAGE" and "NX9620 RTBL". -/
def internalCustom : List Nat := [78, 88, 57, 54, 50, 48, 32, 73, 78, 84, 69, 82, 78, 65, 76]
def imageCustom : List Nat := [78, 88, 57, 54, 50, 48, 32, 73, 77, 65, 71, 69]
def rtblCustom : List Nat := [78, 88, 57, 54, 50, 48, 32, 82, 84, 66, 76]

/-- The bytes of an internal slot: 0–3 are derived from the UDS and OWNER_NONCE, 4 and 5 hold the installed secrets, 6–15 hold zero
(R167, R366, R378). -/
def Dev.internalKey (s : Dev) (k : Nat) : List Nat :=
  let st := s.island.store
  if k ≤ 3 then kmac256 (bytesOf 32 Config.uds.toNat) (bytesOf 32 st.nonce.toNat ++ [k]) 256 internalCustom
  else if k = 4 then bytesOf 32 (st.secret4.getD 0).toNat
  else if k = 5 then bytesOf 32 (st.secret5.getD 0).toNat
  else List.replicate 32 0

/-- "NXIMG001", first character in byte 0. -/
def imageMagic : Nat := numOf [78, 88, 73, 77, 71, 48, 48, 49]

/-- Bytes 65,503:0 of a header copy (*Image header*). -/
def ImgHeader.body (h : ImgHeader) : List Nat :=
  let b := fun (x : Bool) (n : Nat) => if x then n else 0
  bytesOf 8 h.magic ++ bytesOf 2 h.version ++ bytesOf 16 h.imageId ++ bytesOf 32 h.devHash ++ bytesOf 8 h.seq ++ [h.slot % 256, h.n % 256] ++
    bytesOf 8 h.g ++ bytesOf 4 h.r ++ [b h.clean 1 + b h.rescueUsed 2 + b h.poisonOvf 4, h.inService % 256] ++ bytesOf 4 h.dsc ++
    bytesOf 32 h.cfgDigest ++ bytesOf 8 h.time ++ [h.rebuilding % 256] ++ bytesOf 2 h.rebuildGen ++ bytesOf 8 h.cursor ++
    List.replicate 65367 0

/-- The KMAC256 that bytes 65,535:65,504 hold. -/
def ImgHeader.mac (key : List Nat) (h : ImgHeader) : Nat := numOf (kmac256 key h.body 256 imageCustom)
def ImgHeader.sealed (key : List Nat) (h : ImgHeader) : ImgHeader := { h with tag := h.mac key, lost := false }

/-- The magic and layout version are those of *Image header*; the KMAC256 verifies. -/
def ImgHeader.recognised (h : ImgHeader) : Bool := h.magic == imageMagic && h.version == 1
def ImgHeader.verifies (key : List Nat) (h : ImgHeader) : Bool := !h.lost && h.tag == h.mac key
def ImgHeader.valid (key : List Nat) (h : ImgHeader) : Bool := h.recognised && h.verifies key

/-- *Region table entry* of a region, with its slot's current epoch and key fingerprint; a size of 0 is a destroyed region. -/
def entryBytes (n gen : Nat) (e : Option Region) (epoch fingerprint : Nat) : List Nat :=
  match e with
  | some r =>
    let b := fun (x : Bool) (v : Nat) => if x then v else 0
    bytesOf 2 n ++ bytesOf 2 gen ++ bytesOf 2 r.tenant ++ bytesOf 2 (r.slot.getD 0xFFFF) ++
      [b r.twin 1 + b r.mirror 2 + b r.home 4 + b r.draining 8 + r.policy % 16 * 16, epoch % 256] ++ bytesOf 4 r.base ++ bytesOf 4 r.size ++
      bytesOf 8 fingerprint ++ bytesOf 6 0
  | none => bytesOf 2 n ++ bytesOf 2 gen ++ bytesOf 28 0

/-- Bytes 55:0 of a region-log record. -/
def RegionLogRec.body (r : RegionLogRec) : List Nat :=
  entryBytes r.region r.gen r.entry r.epoch r.fingerprint ++ bytesOf 8 (match r.entry with | some e => bitsOf e.attached | none => 0) ++
    bytesOf 8 r.rseq ++ bytesOf 8 r.imageId

/-- The record's KMAC256, bytes 63:56; whether it verifies. -/
def RegionLogRec.mac (key : List Nat) (r : RegionLogRec) : Nat := numOf (kmac256 key r.body 64 rtblCustom)
def RegionLogRec.sealed (key : List Nat) (r : RegionLogRec) : RegionLogRec := { r with tag := r.mac key, lost := false }
def RegionLogRec.verifies (key : List Nat) (r : RegionLogRec) : Bool := !r.lost && r.tag == r.mac key

/-- "NX9620 ROW", and the first 56 bytes of a Row-log record as seven words: bit 10 of bytes 7:6 marks the open record, bit 13 one whose tag
fails (R432). -/
def rowCustom : List Nat := [78, 88, 57, 54, 50, 48, 32, 82, 79, 87]
def RowRec.words (bad isOpen : Bool) (r : RowRec) : List (BitVec 64) :=
  let b := fun (v : Bool) (n : Nat) => if v then 2 ^ n else 0
  let flags := r.id % 1024 + b isOpen 10 + b r.sat 11 + b r.byLog 12 + b bad 13
  [BitVec.ofNat 64 (r.seq % 2 ^ 48 + flags * 2 ^ 48), BitVec.ofNat 64 (r.cnt % 65536 + r.clrgen % 65536 * 2 ^ 16 + r.time % 2 ^ 32 * 2 ^ 32),
   BitVec.ofNat 64 (r.time / 2 ^ 32 % 2 ^ 32 + r.lastUs % 2 ^ 32 * 2 ^ 32)] ++
  (List.range 4).map fun k => r.payload.extractLsb' (64 * k) 64

/-- The record's KMAC256 under internal slot 1; whether it verifies where it stands. -/
def RowRec.mac (key : List Nat) (r : RowRec) : Nat :=
  numOf (kmac256 key ((r.words false false).flatMap fun w => bytesOf 8 w.toNat) 64 rowCustom)
def RowRec.sealed (key : List Nat) (r : RowRec) : RowRec := { r with tag := r.mac key }
def RowRec.verifies (key : List Nat) (r : RowRec) : Bool := r.tagOk && !r.lost && r.tag == r.mac key
def RowRec.forget (r : RowRec) : RowRec := { r with lost := true }

/-- "NX9620 CONFIG", and the magic "NXCFG001". -/
def configCustom : List Nat := [78, 88, 57, 54, 50, 48, 32, 67, 79, 78, 70, 73, 71]
def configMagic : Nat := numOf [78, 88, 67, 70, 71, 48, 48, 49]

/-- TYPE and value of a configuration record (*Configuration records*); addresses of a member are 16 bytes, an IPv4 address in the lowest
four. -/
def CfgRecord.type : CfgRecord → Nat
  | .writes _ => 1
  | .program _ => 2
  | .members _ => 3
  | .params .. => 4
  | .data _ => 5
  | .unknown t _ => t
def CfgRecord.value : CfgRecord → List Nat
  | .writes l => l.flatMap fun w => bytesOf 3 w.1 ++ [0] ++ bytesOf 4 w.2.toNat
  | .program l => l.flatMap fun w => bytesOf 4 w.toNat
  | .members l => l.flatMap fun m => [m.1 % 256] ++ bytesOf 16 m.2.1 ++ bytesOf 6 m.2.2.1 ++ [0] ++ bytesOf 32 m.2.2.2 ++ bytesOf 8 0
  | .params v r n p t => [v % 256] ++ bytesOf 2 r ++ bytesOf 2 n ++ bytesOf 2 p ++ [t % 256] ++ bytesOf 4 0
  | .data b => b
  | .unknown _ b => b

/-- A record as the block holds it: TYPE, RLEN, value, padded with zeros to a multiple of 4 bytes. -/
def CfgRecord.bytes (r : CfgRecord) : List Nat :=
  let v := r.value
  bytesOf 2 r.type ++ bytesOf 2 v.length ++ v ++ List.replicate (ceilDiv v.length 4 * 4 - v.length) 0

/-- Bytes LENGTH − 1:0 of a block, its KMAC256, and the block's SHAKE256-256 (R369, R381). -/
def CfgBlock.body (c : CfgBlock) : List Nat :=
  bytesOf 8 c.magic ++ bytesOf 2 c.version ++ bytesOf 4 c.length ++ bytesOf 8 c.seq ++ bytesOf 10 0 ++ c.records.flatMap CfgRecord.bytes
def CfgBlock.mac (key : List Nat) (c : CfgBlock) : Nat := numOf (kmac256 key c.body 256 configCustom)
def CfgBlock.sealed (key : List Nat) (c : CfgBlock) : CfgBlock := { c with tag := c.mac key, lost := false }
def CfgBlock.verifies (key : List Nat) (c : CfgBlock) : Bool := !c.lost && c.tag == c.mac key
def CfgBlock.digest (c : CfgBlock) : List Nat := shake256 (c.body ++ bytesOf 32 c.tag) 32

/-- The configuration digest: SHAKE256-256 over the values of the member list and the Round parameters (R336, R381). -/
def CfgBlock.roundDigest (c : CfgBlock) : Nat :=
  numOf (shake256 ((c.records.filter fun r => r.type == 3 || r.type == 4).flatMap CfgRecord.value) 32)

/-- A bit of a byte. -/
def flagBit (b : Bool) (v : Nat) : Nat := if b then v else 0

/-- *Lease message body* (R319). -/
def LeaseMsg.bytes (m : LeaseMsg) : List Nat :=
  bytesOf 8 m.epoch ++ bytesOf 4 m.rseq ++ bytesOf 2 m.pairId ++
    [flagBit m.stbyOk 1 + flagBit m.running 2 + flagBit m.clean 4 + flagBit m.force 8 + flagBit m.drained 16, m.reason, m.holder] ++ List.replicate 7 0

/-- "NX9620 LEASE", and the tag of a lease body in a direction: 0 to the device, 1 from it (R379, log entry 65). -/
def leaseCustom : List Nat := [78, 88, 57, 54, 50, 48, 32, 76, 69, 65, 83, 69]
def LeaseMsg.tag (key : BitVec 256) (m : LeaseMsg) (dir : Nat) : Nat :=
  numOf (kmac256 (bytesOf 32 key.toNat) (m.bytes ++ [dir]) 128 leaseCustom)

/-- "NX9620 REF", and bytes 23:0 of a record of the referee state log, in the order in which R322 names its fields (log entry 55). -/
def refCustom : List Nat := [78, 88, 57, 54, 50, 48, 32, 82, 69, 70]
def RefLog.body (r : RefLog) : List Nat :=
  [r.slot % 256] ++ bytesOf 2 r.pairId ++ bytesOf 8 r.epoch ++ [r.holder % 256, if r.stbyOk then 1 else 0] ++ bytesOf 8 r.seq ++ [0, 0, 0]
def RefLog.mac (key : List Nat) (r : RefLog) : Nat := numOf (kmac256 key r.body 64 refCustom)
def RefLog.sealed (key : List Nat) (r : RefLog) : RefLog := { r with tag := r.mac key }
def RefLog.verifies (key : List Nat) (r : RefLog) : Bool := r.tag == r.mac key

/-- Records that a half holds beside its half header and its COMPLETE record, each of a record's size (log entry 55). -/
def logHalfRecs : Nat := 4194304 / 64 - 2

/-- The half that a boot uses, and the other: the highest generation of those with a COMPLETE record (R384). -/
def RegionLog.inUse (l : RegionLog) : Bool :=
  l.half1.complete && (!l.half0.complete || decide (l.half0.gen < l.half1.gen))
def RegionLog.current (l : RegionLog) : LogHalf := if l.inUse then l.half1 else l.half0
def RegionLog.setHalf (l : RegionLog) (b : Bool) (h : LogHalf) : RegionLog := if b then { l with half1 := h } else { l with half0 := h }

/-- The record that decides for a region: the highest RSEQ that verifies and names the image (R37). -/
def deciding (key : List Nat) (image : Nat) (recs : List RegionLogRec) (n : Nat) : Option RegionLogRec :=
  recs.foldl (fun b r => if r.region = n ∧ r.verifies key ∧ r.imageId = image % 2 ^ 64 then
    match b with
    | none => some r
    | some x => if x.rseq < r.rseq then some r else b
    else b) none

/-- Region numbers that records name, each once. -/
def recRegions (recs : List RegionLogRec) : List Nat := recs.foldl (fun l r => if l.contains r.region then l else l ++ [r.region]) []

/-- Records still live: the deciding ones, in the order of their RSEQ. -/
def liveRecs (key : List Nat) (image : Nat) (recs : List RegionLogRec) : List RegionLogRec :=
  sortBy (fun a b => decide (a.rseq ≤ b.rseq)) ((recRegions recs).filterMap (deciding key image recs))

/-- Program a record: a full half is first compacted into the other, which is erased, takes the generation one above and its COMPLETE
record; only then is the full half erased (R37, R384). -/
def RegionLog.program (l : RegionLog) (key : List Nat) (image : Nat) (r : RegionLogRec) : RegionLog :=
  let b := l.inUse
  let h := l.current
  if h.recs.length < logHalfRecs then l.setHalf b { h with recs := h.recs ++ [r] }
  else
    let new : LogHalf := { gen := h.gen + 1, complete := true, recs := liveRecs key image h.recs ++ [r] }
    (l.setHalf (!b) new).setHalf b {}

end Sys2Proof.Machine
end

