-- ==== Sys2Proof/Machine/RsCode.lean ====
section
/-! DEFINITION. The RS(20,16) code of DRAM lines on error patterns: syndromes, decoding, acceptance of a line (R109–R112). -/

namespace Sys2Proof.Machine

/-- Powers of α in the field of R109. -/
def rsPow : Nat → Nat
  | 0 => 1
  | n + 1 => gfDouble 0x11D (rsPow n)
def rsMul (a b : Nat) : Nat := gfMul 0x11D a b
/-- Inverse: a^254. -/
def rsInv (a : Nat) : Nat :=
  let q := fun x => rsMul x x
  let a2 := q a; let a4 := q a2; let a8 := q a4; let a16 := q a8; let a32 := q a16; let a64 := q a32; let a128 := q a64
  rsMul (rsMul (rsMul a2 a4) (rsMul a8 a16)) (rsMul (rsMul a32 a64) a128)

/-- Locator of symbol s: α^(19 − s) (R109, R110). -/
def rsLoc (s : Nat) : Nat := rsPow (19 - s)

/-- Symbol s of a 160-bit pattern. -/
def symOf (e : BitVec 160) (s : Nat) : Nat := (e.extractLsb' (8 * s) 8).toNat

/-- The error pattern of a line from its four codewords' bit errors: 16 data symbols each, and 4 check symbols each (R110). -/
def lineNoise (data : BitVec 512) (check : BitVec 128) : BitVec 640 :=
  let word (c : Nat) : BitVec 160 := check.extractLsb' (32 * c) 32 ++ data.extractLsb' (128 * c) 128
  word 3 ++ word 2 ++ word 1 ++ word 0

/-- Syndromes S0–S3 of an error pattern. -/
def rsSyndrome (e : BitVec 160) (i : Nat) : Nat :=
  (List.range 20).foldl (fun a s => Nat.xor a (rsMul (symOf e s) (rsPow (i * (19 - s))))) 0

/-- One symbol error that explains the syndromes. -/
def rsOne (s0 s1 s2 s3 : Nat) : Option (List (Nat × Nat)) :=
  ((List.range 20).find? fun p =>
    s0 != 0 && s1 == rsMul s0 (rsLoc p) && s2 == rsMul s1 (rsLoc p) && s3 == rsMul s2 (rsLoc p)).map fun p => [(p, s0)]

/-- Values of two symbol errors at p and q that explain S0 and S1. -/
def rsPair (s0 s1 p q : Nat) : Nat × Nat :=
  let y := rsMul (Nat.xor s1 (rsMul s0 (rsLoc p))) (rsInv (Nat.xor (rsLoc p) (rsLoc q)))
  (Nat.xor s0 y, y)

/-- Two symbol errors that explain the syndromes. -/
def rsTwo (s0 s1 s2 s3 : Nat) : Option (List (Nat × Nat)) :=
  let pairs := (List.range 20).flatMap fun p => (List.range p).map fun q => (q, p)
  (pairs.find? fun x =>
    let v := rsPair s0 s1 x.1 x.2
    let X := rsLoc x.1; let Y := rsLoc x.2
    v.1 != 0 && v.2 != 0 &&
      s2 == Nat.xor (rsMul v.1 (rsMul X X)) (rsMul v.2 (rsMul Y Y)) &&
      s3 == Nat.xor (rsMul v.1 (rsMul X (rsMul X X))) (rsMul v.2 (rsMul Y (rsMul Y Y)))).map fun x =>
    let v := rsPair s0 s1 x.1 x.2; [(x.1, v.1), (x.2, v.2)]

/-- Corrections of a codeword in normal decoding (R111): at most two symbols; `none` = uncorrectable. -/
def rsNormal (e : BitVec 160) : Option (List (Nat × Nat)) :=
  let s0 := rsSyndrome e 0; let s1 := rsSyndrome e 1; let s2 := rsSyndrome e 2; let s3 := rsSyndrome e 3
  if s0 = 0 ∧ s1 = 0 ∧ s2 = 0 ∧ s3 = 0 then some []
  else match rsOne s0 s1 s2 s3 with
    | some l => some l
    | none => rsTwo s0 s1 s2 s3

/-- Corrections with the failed device's two symbols as erasures and at most one error more (R112). -/
def rsErasure (d : Nat) (e : BitVec 160) : Option (List (Nat × Nat)) :=
  let s0 := rsSyndrome e 0; let s1 := rsSyndrome e 1; let s2 := rsSyndrome e 2; let s3 := rsSyndrome e 3
  let a := 2 * d; let b := 2 * d + 1
  let A := rsLoc a; let B := rsLoc b
  let sum := Nat.xor A B; let prod := rsMul A B
  let t0 := Nat.xor (Nat.xor s2 (rsMul sum s1)) (rsMul prod s0)
  let t1 := Nat.xor (Nat.xor s3 (rsMul sum s2)) (rsMul prod s1)
  let fin := fun (r0 r1 : Nat) (l : List (Nat × Nat)) =>
    let v := rsPair r0 r1 a b
    l ++ [(a, v.1), (b, v.2)].filter fun x => x.2 != 0
  if t0 = 0 ∧ t1 = 0 then some (fin s0 s1 [])
  else
    ((List.range 20).find? fun p => p / 2 != d && t0 != 0 && t1 == rsMul t0 (rsLoc p)).map fun p =>
      let P := rsLoc p
      let v := rsMul t0 (rsInv (rsMul (Nat.xor P A) (Nat.xor P B)))
      fin (Nat.xor s0 v) (Nat.xor s1 (rsMul v P)) [(p, v)]

/-- The pattern that a list of corrections flips. -/
def corrPattern (l : List (Nat × Nat)) : BitVec 160 :=
  l.foldl (fun a c => a ^^^ (BitVec.ofNat 160 c.2 <<< (8 * c.1))) 0

/-- What decoding a line gives: accepted or not, corrections outside the failed device by codeword, and the error
left in the data of an accepted line. -/
structure LineDecode where
  ok : Bool
  corr : List (Nat × List (Nat × Nat))
  left : LineData
  deriving DecidableEq, Repr

/-- Decode a line of four codewords from their error patterns (R110–R112). -/
def lineDecode (failed : Option Nat) (pat : Nat → BitVec 160) : LineDecode :=
  let dec := (List.range 4).map fun c => (c, match failed with | some d => rsErasure d (pat c) | none => rsNormal (pat c))
  if dec.any fun x => x.2.isNone then { ok := false, corr := [], left := 0 }
  else
    let all := dec.map fun x => (x.1, x.2.getD [])
    let out := all.map fun x => (x.1, x.2.filter fun y => failed != some (y.1 / 2))
    let syms := out.flatMap fun x => x.2
    let one := match syms with | [] => true | y :: r => r.all fun z => z.1 / 2 == y.1 / 2
    if one || decide (syms.length ≤ 2) then
      { ok := true, corr := out.filter fun x => !x.2.isEmpty
        left := all.foldl (fun a x => a ||| (((pat x.1 ^^^ corrPattern x.2).extractLsb' 0 128).zeroExtend 512 <<< (128 * x.1))) 0 }
    else { ok := false, corr := [], left := 0 }

/-- The four syndromes as a word. -/
def syndWord (e : BitVec 160) : Nat :=
  rsSyndrome e 0 + 256 * rsSyndrome e 1 + 65536 * rsSyndrome e 2 + 16777216 * rsSyndrome e 3

/-- Positions of the injected symbols of a mask (R130). -/
def maskSyms (m : BitVec 160) : Nat := (List.range 20).foldl (fun a k => if symOf m k = 0 then a else a + 2 ^ k) 0

end Sys2Proof.Machine
end

