-- ==== Sys2Proof/Machine/Dram.lean ====
section
/-! DEFINITION. A channel's front end: where a line lies (R137, R214–R217), the scheduler with its write queue (R140–R143, R148, R154, R157),
line writes with injection (R123), and frame-map entries written through their cache (R212–R214). -/

namespace Sys2Proof.Machine

/-- One ns in the unit of every latency of the model, 1/3696 ns: the clocks of R11 and R135 and the flit times of R81 are whole numbers of
it. -/
def latNs : Nat := 3696

/-- The present in that unit, and the FCLK cycle by which a time has come. -/
def Dev.now (s : Dev) : Nat := s.clock * 1848
def fclkAt (t : Nat) : Nat := ceilDiv t 1848

/-- Period of DCLK at a channel's CFG.RATE: 1.1, 0.8, 0.7 and 0.6 GHz (R135). -/
def dclkOf : Nat → Nat
  | 0 => 3360
  | 1 => 4620
  | 2 => 5280
  | _ => 6160

def Dev.dclk (s : Dev) (n : Nat) : Nat := dclkOf (s.get (Reg.DC.CFG.RATE n))

def Dev.channel (s : Dev) (n : Nat) : Channel := s.channels.getD n {}
def Dev.setChannel (s : Dev) (n : Nat) (c : Channel) : Dev := { s with channels := s.channels.putD n c {} }

/-- Subchannel, rank and pair of a channel line (R112, R137). -/
def subOf (cl : Nat) : Nat := cl % 2
def rankBits (s : Dev) (n : Nat) : Nat := match s.get (Reg.DC.POP.RANKS n) with | 0 => 0 | 1 => 1 | _ => 2
def Dev.rankOf (s : Dev) (n cl : Nat) : Nat := cl / 2 ^ 13 % 2 ^ rankBits s n
def Dev.pairOf (s : Dev) (n cl : Nat) : Nat := s.rankOf n cl * 2 + subOf cl

/-- Bank and row of a channel line (R137): bank group, bank, row. -/
def Dev.rowOf (s : Dev) (n cl : Nat) : Nat := cl / 2 ^ (13 + rankBits s n)
def Dev.bankOf (s : Dev) (n cl : Nat) : Nat :=
  let row := s.rowOf n cl
  Nat.xor (cl / 2 ^ 8 % 8) (row % 8) + 8 * Nat.xor (cl / 2 ^ 11 % 4) (row / 8 % 4)

/-- Bank key of a channel line: rank, subchannel, bank. -/
def Dev.bankKey (s : Dev) (n cl : Nat) : Nat := s.pairOf n cl * 32 + s.bankOf n cl

/-- How the page stands that a channel line needs (R98). -/
def Dev.pageOf (s : Dev) (n cl : Nat) : PageState :=
  match (s.channel n).openRows.get? (s.bankKey n cl) with
  | none => .closed
  | some row => if row = s.rowOf n cl then .hit else .conflict

/-- A request as the scheduler sees it (R140): the read's number, or a write; its line; its place in the order of the classes, the lowest
first; its place in the order of arrivals; the time from which it can be scheduled. -/
structure DramReq where
  read : Option Nat
  cl : Nat
  prio : Nat
  seq : Nat
  at_ : Nat
  deriving DecidableEq, Repr

/-- Order of a read: demand before background; one that has waited AGE_MAX at the head of the demand reads. Order of a write: behind the
reads, or during a drain before them (R140, R141). -/
def readPrio (cls : Nat) (promoted : Bool) : Nat := if promoted then 19 else 10 * cls
def writePrio (draining promoted : Bool) : Nat := (if draining then 11 else 41) - if promoted then 1 else 0

/-- The requests that wait on a subchannel. -/
def Dev.dramReqs (s : Dev) (n sub : Nat) : List DramReq :=
  let c := s.channel n
  ((s.reads.list.filter fun e => e.2.chan == n && e.2.issued.isNone && subOf e.2.cl == sub).map fun e =>
    { read := some e.1, cl := e.2.cl, prio := readPrio e.2.cls e.2.promoted, seq := e.2.seq, at_ := e.2.arrived * 1848 : DramReq }) ++
  ((c.writes.list.filter fun e => subOf e.1 == sub).map fun e =>
    { read := none, cl := e.1, prio := writePrio c.draining e.2.promoted, seq := e.2.seq, at_ := e.2.arrived * 1848 : DramReq })

/-- Some read of a channel waits to be issued. -/
def Dev.readsWait (s : Dev) (n : Nat) : Bool := s.reads.list.any fun e => e.2.chan == n && e.2.issued.isNone

/-- Drain starts at WR_HI entries or when no read is queued, and ends at WR_LO entries (R141). -/
def Dev.drainSet (s : Dev) (n : Nat) : Dev :=
  let c := s.channel n
  let k := c.writes.size
  let d := if k ≤ s.get (Reg.DC.SCHED.WR_LO n) then false
    else if s.get (Reg.DC.SCHED.WR_HI n) ≤ k || !s.readsWait n then true else c.draining
  s.setChannel n { c with draining := d }

/-- The time from which a rank can take one more activation: ACT_MAX in each µs at TS_CRIT (R157); `none` = never. -/
def Dev.actFree (s : Dev) (n rank : Nat) : Option Nat :=
  let c := s.channel n
  if !(s.bit (Reg.DC.STS.CRIT n) || c.critBySensor) then some 0
  else match s.get (Reg.DC.THERM.ACT_MAX n) with
    | 0 => none
    | m + 1 => match (c.acts.getD rank [])[m]? with | some t => some (t + 1000 * latNs) | none => some 0

/-- The time from which a request's next command can be issued: behind a refresh or calibration of its rank or bank (R144, R151); an
activation within ACT_MAX (R157); a precharge once no queued access needs the open row (R98, R143). -/
def Dev.reqReady (s : Dev) (n : Nat) (reqs : List DramReq) (r : DramReq) : Option Nat :=
  let c := s.channel n
  let rank := s.rankOf n r.cl
  let free := max r.at_ (max (c.busy.getD rank 0) (c.busy.getD (4 + rank * 4 + s.bankOf n r.cl / 8) 0))
  match s.pageOf n r.cl with
  | .hit => some free
  | .closed => (s.actFree n rank).map (max free)
  | .conflict =>
    if reqs.any fun x => s.bankKey n x.cl == s.bankKey n r.cl && s.pageOf n x.cl == .hit then none else some free

/-- The request that goes first (R140): by class, then open rows, then age. -/
def reqBefore (s : Dev) (n : Nat) (a b : DramReq) : Bool :=
  let hit := fun (r : DramReq) => if s.pageOf n r.cl = .hit then 0 else 1
  decide (a.prio < b.prio) || (a.prio == b.prio &&
    (decide (hit a < hit b) || (hit a == hit b && decide (a.seq ≤ b.seq))))
def firstReq (s : Dev) (n : Nat) : List DramReq → Option DramReq
  | [] => none
  | r :: l => match firstReq s n l with
    | none => some r
    | some x => if reqBefore s n r x then some r else some x

/-- A command on a subchannel at time `t`: it takes one DCLK and enters the replay log of the last 64 (R140, R154). -/
def Dev.dramSend (s : Dev) (n : Nat) (t : Nat) (cmd : DramCmd) (cl : Nat) : Dev :=
  let c := s.channel n
  let sub := subOf cl
  let ck := s.dclk n
  s.setChannel n { c with
    slot := c.slot.put sub (t + ck), accessed := c.accessed.put (s.bankKey n cl) t
    cmdLog := c.cmdLog.put sub ({ time := t, cmd, cl } :: (c.cmdLog.getD sub []).filter fun e => decide (t < e.time + 64 * ck)) }

/-- Change a bank's open row. -/
def Dev.setBank (s : Dev) (n cl : Nat) (open_ : Bool) : Dev :=
  let c := s.channel n
  s.setChannel n { c with openRows := if open_ then c.openRows.put (s.bankKey n cl) (s.rowOf n cl) else c.openRows.del (s.bankKey n cl) }

/-- A precharge; an activation, which counts for its rank's ACT_MAX (R157). -/
def Dev.dramPre (s : Dev) (n t cl : Nat) : Dev := (s.dramSend n t .precharge cl).setBank n cl false
def Dev.dramAct (s : Dev) (n t cl : Nat) : Dev :=
  let s := s.dramSend n t .activate cl
  let c := s.channel n
  let rank := s.rankOf n cl
  (s.setChannel n { c with acts := c.acts.put rank ((t :: c.acts.getD rank []).take 256) }).setBank n cl true

/-- A column access; with PAGE.IDLE_T = 0 its row closes behind it (R143). -/
def Dev.dramCol (s : Dev) (n t : Nat) (cmd : DramCmd) (cl : Nat) : Dev :=
  let s := s.dramSend n t cmd cl
  if s.get (Reg.DC.PAGE.IDLE_T n) = 0 then s.setBank n cl false else s

/-- Change a read. -/
def Dev.updRead (s : Dev) (no : Nat) (f : DramRead → DramRead) : Dev := { s with reads := s.reads.upd no f }

/-- The read of a metadata entry goes directly behind its data: with its row open or not (R98). -/
def Dev.metaBehind (s : Dev) (n t no cl : Nat) : Dev :=
  let hit := s.pageOf n cl == .hit
  let s := s.updRead no fun d => { d with mdOpen := hit }
  let s := if s.pageOf n cl = .conflict then s.dramPre n t cl else s
  (if s.pageOf n cl = .hit then s else s.dramAct n t cl).dramCol n t (.read none) cl

/-- The next command of a request at time `t`: a precharge, an activation, or its column access, which issues the read, with that of its
metadata behind it, or takes the write out of the queue. -/
def Dev.dramCommand (s : Dev) (n t : Nat) (r : DramReq) : Dev :=
  let met := fun (s : Dev) (p : PageState) => match r.read with
    | some no => s.updRead no fun d => if d.page = .conflict then d else { d with page := p }
    | none => s
  match s.pageOf n r.cl with
  | .conflict => met (s.dramPre n t r.cl) .conflict
  | .closed => met (s.dramAct n t r.cl) .closed
  | .hit =>
    match r.read with
    | some no =>
      let s := (s.dramCol n t (.read (some no)) r.cl).updRead no fun d => { d with issued := some t }
      match (s.reads.get? no).bind (·.md) with
      | some cl => s.metaBehind n t no cl
      | none => s
    | none =>
      let s := s.dramCol n t .write r.cl
      let c := s.channel n
      s.setChannel n { c with writes := c.writes.del r.cl }

/-- One command of the scheduler on a subchannel, no later than `lim` (R140); `none` = nothing can be issued: the channel is not in
service, the subchannel is in parity retry (R154), or nothing is ready in time. -/
def Dev.dramStep (s : Dev) (n sub : Nat) (lim : Option Nat) : Option Dev :=
  if !s.chanUp n || (s.channel n).retry.has sub then none
  else
    let s := s.drainSet n
    let reqs := s.dramReqs n sub
    let ready := reqs.filterMap fun r => (s.reqReady n reqs r).map fun t => (t, r)
    match ready.map (·.1) with
    | [] => none
    | x :: l =>
      let t := max ((s.channel n).slot.getD sub 0) (l.foldl min x)
      if (match lim with | some u => decide (u < t) | none => false) then none
      else (firstReq s n ((ready.filter fun e => decide (e.1 ≤ t)).map (·.2))).map fun r => s.dramCommand n t r

/-- The scheduler of a subchannel runs until `stop`, or until nothing can be issued by `lim`; the last argument bounds the commands. -/
def Dev.dramRun (s : Dev) (n sub : Nat) (lim : Option Nat) (stop : Dev → Bool) : Nat → Dev
  | 0 => s
  | k + 1 => if stop s then s else match s.dramStep n sub lim with | some t => t.dramRun n sub lim stop k | none => s

/-- Commands that what is queued on a channel can need. -/
def Dev.dramFuel (s : Dev) (n : Nat) : Nat := 3 * ((s.channel n).writes.size + s.reads.size) + 4

/-- The scheduler of a channel comes up to the present. -/
def Dev.dramCatchUp (s : Dev) (n : Nat) : Dev :=
  [0, 1].foldl (fun s sub => s.dramRun n sub (some s.now) (fun _ => false) (s.dramFuel n)) s

/-- A request reaches the front end: its pair leaves power-down at once, by a command before every other (R148). -/
def Dev.dramArrive (s : Dev) (n cl : Nat) : Dev :=
  let c := s.channel n
  let p := s.pairOf n cl
  let c := { c with accessed := c.accessed.put (s.bankKey n cl) s.now }
  s.setChannel n (if c.powerDown.has p then
    { c with powerDown := c.powerDown.del p, slot := c.slot.put (subOf cl) (max (c.slot.getD (subOf cl) 0) s.now + s.dclk n) } else c)

/-- A read that one command of the model makes whole: the waiting requests that `before` names go first, then its own commands. -/
def Dev.dramSync (s : Dev) (n cl : Nat) (before : DramReq → Bool) : Dev :=
  if !s.chanUp n || (s.channel n).retry.has (subOf cl) then s
  else
    let s := s.dramArrive n cl
    let s := s.dramRun n (subOf cl) none (fun s => !(s.dramReqs n (subOf cl)).any before) (s.dramFuel n)
    let t := fun (s : Dev) => max ((s.channel n).slot.getD (subOf cl) 0) s.now
    let s := if s.pageOf n cl = .conflict then s.dramPre n (t s) cl else s
    let s := if s.pageOf n cl = .hit then s else s.dramAct n (t s) cl
    s.dramCol n (t s) (.read none) cl

/-- A line write enters the write queue: in the place of one to the same line (R142), else behind the others; a full queue of 64 makes room
first (R107). -/
def Dev.dramQueue (s : Dev) (n cl : Nat) : Dev :=
  if !s.chanUp n then s
  else
    let s := s.dramArrive n cl
    let full := fun (s : Dev) => decide (64 ≤ (s.channel n).writes.size)
    let s := if full s && !(s.channel n).writes.has cl then
        [0, 1].foldl (fun s sub => s.dramRun n sub none (fun s => !full s) (s.dramFuel n)) s else s
    let c := s.channel n
    let s := if c.writes.has cl then s
      else ({ s.setChannel n { c with writes := c.writes.put cl { arrived := s.clock, seq := s.uses } } with uses := s.uses + 1 } : Dev)
    { s with reads := s.reads.map fun _ d => if d.chan = n ∧ d.cl = cl ∧ d.issued.isSome then { d with overtaken := true } else d }

/-- The history entry to replace: the least recently hit without an INJ mark. -/
def histVictim : List (Nat × HistEntry) → Option (Nat × HistEntry)
  | [] => none
  | e :: r => match histVictim r with
    | none => if e.2.inj then none else some e
    | some y => if e.2.inj then some y else if e.2.used ≤ y.2.used then some e else some y

/-- Enter a codeword in the history of 64 (R113). -/
def Dev.histPut (s : Dev) (n key : Nat) (h : HistEntry) : Dev :=
  let ch := s.channel n
  let hist := if ch.hist.has key ∨ ch.hist.size < 64 then ch.hist
    else match histVictim ch.hist.list with | some v => ch.hist.del v.1 | none => ch.hist
  (s.setChannel n { ch with hist := hist.put key { h with used := s.uses } }).used

/-- Key of a codeword of a channel line among the stored errors. -/
def errKey (n cl c : Nat) : Nat := (n * 2 ^ 33 + cl) * 4 + c

/-- The stored errors of a line end: it is written. -/
def Dev.clearErrors (s : Dev) (n cl : Nat) : Dev :=
  { s with errors := (List.range 4).foldl (fun t c => t.del (errKey n cl c)) s.errors }

/-- The INJ marks of a line's codewords end (R123). -/
def HistEntry.unmark (h : HistEntry) : HistEntry := { h with inj := false, mask := 0 }
def Dev.unmark (s : Dev) (n cl : Nat) : Dev :=
  let ch := s.channel n
  s.setChannel n { ch with hist := ch.hist.map fun k h => if k / 4 = cl ∧ h.inj then h.unmark else h }

/-- An armed injection strikes the line that is written (R123). -/
def Dev.injStrike (s : Dev) (n cl : Nat) : Dev :=
  if s.bit (Reg.ECSC.INJ_CTL.ARM n) ∧ (!s.bit (Reg.ECSC.INJ_CTL.ADDR_EN n) ∨
      (s.get (Reg.ECSC.INJ_ADDR.GRANULE n) = cl / 64 ∧ s.get (Reg.ECSC.INJ_CTL.LINE n) = cl % 64)) then
    let cw := s.get (Reg.ECSC.INJ_CTL.CW n)
    let mask : BitVec 160 := (List.range 5).foldl
      (fun a k => a ||| (BitVec.ofNat 160 (s.get (Reg.ECSC.INJ_MASK.MASK n k)) <<< (32 * k))) 0
    let s := { s with errors := s.errors.put (errKey n cl cw) mask }
    let s := s.histPut n (cl * 4 + cw) { device := 15, syndrome := BitVec.ofNat 32 (syndWord mask), inj := true, mask }
    ((s.setBit (Reg.ECSC.INJ_CTL.ARM n) false).setBit (Reg.ECSC.INJ_STS.CONSUMED n) true)
  else s

/-- A write of a DRAM line on channel n: its stored errors and INJ marks end, an armed injection strikes (R123), and it enters the write
queue. Nothing reaches a channel that is off line (R157). -/
def Dev.dramTouch (s : Dev) (n cl : Nat) : Dev :=
  if s.get (Reg.DC.STS.STATE n) = 6 then s else (((s.unmark n cl).clearErrors n cl).injStrike n cl).dramQueue n cl

/-- Parts of the system area, in their order (R217). -/
inductive SaPart | fm | fms | rm | rms | lbm | div | pix | rbm | xpt
  deriving DecidableEq, Repr

/-- Bytes of one half of a structure of `b` bytes striped over `c` channels (R217). -/
def stripeHalf (b c : Nat) : Nat := ceilDiv (b / 64) c * 64

/-- The parts of a channel's system area with their bytes, for G granules, C channels and FA_TOP frames (R217). -/
def saParts (g c fa : Nat) : List (SaPart × Nat) :=
  let halves := fun (b : Nat) => (if c = 1 then 1 else 2) * stripeHalf b c
  [(.fm, ceilDiv g (8 * c) * 64), (.fms, if c = 1 then 0 else ceilDiv g (8 * c * (c - 1)) * 64), (.rm, fa * 8),
   (.rms, if c = 1 then 0 else fa * 8), (.lbm, halves (2 ^ 30)), (.div, halves (ceilDiv g 8)), (.pix, halves (2 ^ 19)),
   (.rbm, halves (2 ^ 28)), (.xpt, halves (2 ^ 26))]

/-- Lines that a part of `b` bytes takes: each part starts on a 4 KiB boundary (R217). -/
def saSpan (b : Nat) : Nat := ceilDiv b 4096 * 64

/-- First line of a part, counted from the first part's; and the part that a line of the area lies in, with its place there. -/
def saOffset (p : SaPart) : List (SaPart × Nat) → Nat
  | [] => 0
  | x :: l => if x.1 = p then 0 else saSpan x.2 + saOffset p l
def saFind : List (SaPart × Nat) → Nat → Option (SaPart × Nat)
  | [], _ => none
  | x :: l, k => if k < saSpan x.2 then some (x.1, k) else saFind l (k - saSpan x.2)

/-- The parts of a channel; the first line of its system area: SA_BASE on a 4 KiB boundary (R217); and the first line of a part. -/
def Dev.saMap (s : Dev) (n : Nat) : List (SaPart × Nat) := saParts s.imageG s.chanCount (s.get (Reg.DC.MAP_FA.FA_TOP n))
def Dev.saFirst (s : Dev) (n : Nat) : Nat :=
  ceilDiv (s.get (Reg.DC.MAP_MD.MD_BASE n) * 4096 + s.get (Reg.DC.MAP_FA.FA_TOP n) * 512) 4096 * 64
def Dev.saLine (s : Dev) (n : Nat) (p : SaPart) : Nat := s.saFirst n + saOffset p (s.saMap n)

/-- Channel and line of frame-map line j (R214); while its channel is off line, in the spare part of a survivor (R236 step 2). -/
def Dev.fmPlace (s : Dev) (j : Nat) : Option (Nat × Nat) :=
  let c := s.chanCount
  match s.populated[j % c]? with
  | none => none
  | some n =>
    if s.get (Reg.DC.STS.STATE n) = 6 then
      let live := s.populated.filter fun m => s.get (Reg.DC.STS.STATE m) != 6
      (live[j / c % live.length]?).map fun m => (m, s.saLine m .fms + j / c / live.length)
    else some (n, s.saLine n .fm + j / c)

/-- Channels and lines of line `k` of a striped structure with halves of `b` bytes: its primary, and the shadow on the next channel (R217). -/
def Dev.stripePlaces (s : Dev) (p : SaPart) (b k : Nat) : List (Nat × Nat) :=
  let c := s.chanCount
  let at_ := fun (i ofs : Nat) => match s.populated[i % c]? with
    | some n => [(n, s.saLine n p + ofs + k / c)]
    | none => []
  at_ (k % c) 0 ++ if c < 2 then [] else at_ (k % c + 1) (stripeHalf b c / 64)

/-- Channels and lines of a frame's reverse-map entry: its own, and the shadow on the next channel (R215). -/
def Dev.rmPlaces (s : Dev) (fn : Nat) : List (Nat × Nat) :=
  let c := s.chanCount
  let at_ := fun (i : Nat) (p : SaPart) => match s.populated[i % c]? with
    | some n => [(n, s.saLine n p + fn / c / 8)]
    | none => []
  at_ (fn % c) .rm ++ if c < 2 then [] else at_ (fn % c + 1) .rms

/-- A reverse-map entry is written with its shadow (R215). -/
def Dev.rmTouch (s : Dev) (fn : Nat) : Dev := (s.rmPlaces fn).foldl (fun s x => s.dramTouch x.1 x.2) s

/-- Change the reverse-map entry of a frame (R215). -/
def Dev.updRm (s : Dev) (fn : Nat) (f : RmEntry → RmEntry) : Dev := ({ s with rm := s.rm.upd fn f } : Dev).rmTouch fn

/-- Set of a frame-map line in the cache of 16,384 sets; which lines share a set the spec does not say (R213). -/
def fmSetOf (j : Nat) : Nat := Config.fmSet j % 16384

/-- A frame-map line enters the cache: 16 ways; which of a full set leaves is a free value (R213, log entry 6). -/
def Dev.fmcPut (s : Dev) (j : Nat) : Dev :=
  if s.fmc.has j then s
  else
    let set := s.fmc.keys.filter fun k => fmSetOf k == fmSetOf j
    if set.length < 16 then { s with fmc := s.fmc.put j () }
    else
      let r := s.choose set.length
      { r.2 with fmc := (match set[r.1]? with | some k => r.2.fmc.del k | none => r.2.fmc).put j () }

/-- Change a frame-map entry: in the cache, and written through to its DRAM line (R212). -/
def Dev.setFme (s : Dev) (g : Nat) (e : FmEntry) : Dev :=
  if s.fme g = e then s
  else
    let s := (({ s with fm := s.fm.putD g e (s.fmeUnlisted g) } : Dev).sramWrite flipFm g).fmcPut (g / 8)
    match s.fmPlace (g / 8) with | some x => s.dramTouch x.1 x.2 | none => s

end Sys2Proof.Machine
end

