-- ==== Sys2Proof/Machine/SkeinQueues.lean ====
section
/-! DEFINITION. Skein queues (R407–R412): push, pop, pointer check, level, discard. -/

namespace Sys2Proof.Machine

/-- The free sizes of the 494 queues whose size the spec does not give, as powers of two of 4 to 16 (R407, log entry 24), and whether they fit
the rest of the 2 MiB that the queues of *Exposed queues* leave (R3). -/
def skeinFree (q : Nat) : Nat := 4 + Config.skeinSize q % 13
def skeinExposed (q : Nat) : Bool := decide (q < 2) || (decide (16 ≤ q) && decide (q < 32))
def skeinFit : Bool :=
  decide ((((List.range 512).filter fun q => !skeinExposed q).map fun q => 2 ^ skeinFree q).sum ≤ 262144 - 17 * 4096 - 2048)

/-- log2 of a queue's items: *Exposed queues*; free values where they fit the storage, else the smallest (R3, R407). -/
def skeinLog2 (q : Nat) : Nat :=
  if q = 0 then 12 else if q = 1 then 11 else if 16 ≤ q ∧ q < 32 then 12 else if skeinFit then skeinFree q else 4

/-- Software may pop, DROP_PKT and RESET the queue (R412). -/
def skeinSw (q : Nat) : Bool := q == 0

/-- The idle item (R408). -/
def idleItem : BitVec 64 := 0xF000000000000000#64

/-- KIND and EOP of an item (R407). -/
def itemKind (i : BitVec 64) : Nat := i.toNat / 2 ^ 60
def itemEop (i : BitVec 64) : Bool := i.getLsbD 59

def Dev.skein (s : Dev) (q : Nat) : Skein := s.skeins.getD q {}
def Dev.setSkein (s : Dev) (q : Nat) (k : Skein) : Dev := { s with skeins := s.skeins.putD q k {} }

/-- SKQ events: cause in the syndrome, pointer copies and items discarded in the record (R414). -/
def skqEv (id q cause : Nat) (k : Skein) (lost : Nat) : Ev :=
  Ev.make id (id == 0x290) (q + cause * 512)
    [(1, 2, q), (8, 2, k.rd), (10, 2, k.rd2), (12, 2, k.wr), (14, 2, k.wr2), (16, 2, lost)]

/-- A 31-bit count of a queue rises by one; SAT raises EV 0x294. -/
def skeinCount (c : Nat) (sat : Bool) : Nat × Bool × Bool :=
  if sat then (c, true, false) else if c + 1 < 2 ^ 31 then (c + 1, false, false) else (c, true, true)

/-- Empty a queue and its pointers; its LVL_PEND bit clears; the reset counts and is recorded when `cause` names
a mismatch or an uncorrectable word (R409, R412). -/
def Dev.skeinReset (s : Dev) (q : Nat) (cause : Option Nat) : Dev :=
  let k := s.skein q
  let r := skeinCount k.resets k.resetsSat
  let s := s.setSkein q { k with items := [], rd := 0, wr := 0, rd2 := 0, wr2 := 0, dropping := false,
                                 resets := r.1, resetsSat := r.2.1 }
  let f := Reg.SKQ.LVL_PEND.PEND (q / 32)
  let s := s.set f (withoutBit (s.get f) (q % 32))
  let s := match cause with | some c => s.raise (skqEv 0x290 q c k k.items.length) | none => s
  if r.2.2 then s.raise (Ev.plain 0x294) else s

/-- The queue's two copies of a pointer differ: 0 read pointer, 1 write pointer (R409). -/
def skeinBad (k : Skein) : Option Nat := if k.rd ≠ k.rd2 then some 0 else if k.wr ≠ k.wr2 then some 1 else none

/-- An item is discarded because its queue is full (R408 Case B). -/
def Dev.skeinDiscard (s : Dev) (q : Nat) : Dev :=
  let k := s.skein q
  let r := skeinCount k.drops k.dropsSat
  let s := (s.setSkein q { k with drops := r.1, dropsSat := r.2.1 }).raise (skqEv 0x293 q 4 k 0)
  if r.2.2 then s.raise (Ev.plain 0x294) else s

/-- Push an item; `false` = the producer must wait (R407–R411). -/
def Dev.skeinPush (s : Dev) (q : Nat) (i : BitVec 64) : Dev × Bool :=
  let k := s.skein q
  if itemKind i = 15 then
    ((s.count Reg.SKQ.REJECTS.COUNT Reg.SKQ.REJECTS.SAT 1 (Ev.plain 0x294)).raise (skqEv 0x292 q 3 k 0), true)
  else match skeinBad k with
  | some c => (s.skeinReset q (some c), true)
  | none =>
    if k.dropping then
      (s.setSkein q { k with dropping := !itemEop i }, true)
    else if 2 ^ skeinLog2 q ≤ k.items.length then
      if k.fullMode then (s.skeinDiscard q, true) else (s, false)
    else
      let w := (k.wr + 1) % 2 ^ skeinLog2 q
      let s := s.setSkein q { k with items := k.items ++ [i], wr := w, wr2 := w }
      let f := Reg.SKQ.LVL_PEND.PEND (q / 32)
      if k.level ≠ 0 ∧ k.items.length + 1 = k.level ∧ (s.get f).testBit (q % 32) = false then
        ((s.set f (withBit (s.get f) (q % 32))).raise (skqEv 0x291 q 0 k 0), true)
      else (s, true)

/-- Pop an item (R408, R409). -/
def Dev.skeinPop (s : Dev) (q : Nat) : Dev × BitVec 64 :=
  let k := s.skein q
  match skeinBad k with
  | some c => (s.skeinReset q (some c), idleItem)
  | none =>
    match k.items with
    | [] => (s, idleItem)
    | i :: r => let p := (k.rd + 1) % 2 ^ skeinLog2 q
                (s.setSkein q { k with items := r, rd := p, rd2 := p }, i)

/-- Items left after discarding up to and including the first with EOP; `none` = none had it (R411). -/
def dropPacket : List (BitVec 64) → Option (List (BitVec 64))
  | [] => none
  | i :: r => if itemEop i then some r else dropPacket r

/-- DROP_PKT (R411). -/
def Dev.skeinDrop (s : Dev) (q : Nat) : Dev :=
  let k := s.skein q
  if k.dropping then s
  else match dropPacket k.items with
  | some r => let p := (k.rd + (k.items.length - r.length)) % 2 ^ skeinLog2 q
              s.setSkein q { k with items := r, rd := p, rd2 := p }
  | none => s.setSkein q { k with items := [], dropping := true, rd := k.wr, rd2 := k.wr }

end Sys2Proof.Machine
end

