-- ==== Sys2Proof/Machine/Hold.lean ====
section
/-! DEFINITION. HLD: the dirty budget, the admission states and their events (R52–R58, R496–R498). -/

namespace Sys2Proof.Machine

/-- An HLD event's record (R498): STATE before and after, SRC before and after, and the two words. -/
def hldEv (s : Dev) (id before after srcBefore srcAfter w1 w2 w3 : Nat) (writes : Bool) : Ev :=
  let _ := s
  Ev.make id writes (srcAfter + 4 * srcBefore + 16 * after)
    [(1, 1, before + 16 * after), (8, 4, w1), (12, 4, w2), (16, 4, w3)]

/-- An HLD event other than EV 0x1B3 and EV 0x1B7. -/
def Dev.hldPlain (s : Dev) (id before after : Nat) : Ev :=
  let src := s.get Reg.HLD.LIMIT_EFF.SRC
  hldEv s id before after src src (s.get Reg.HLD.DIRTY_COUNT.COUNT) 0 (s.get Reg.HLD.HELD_CTR.COUNT) false

/-- Entry threshold of an admission state 1–3, times 100 (R54). -/
def Dev.threshold100 (s : Dev) (k : Nat) : Nat :=
  let l := s.get Reg.HLD.LIMIT_EFF.LIMIT_EFF
  if k = 1 then l * s.get Reg.HLD.THRESH.SOFT_PCT
  else if k = 2 then l * s.get Reg.HLD.THRESH.THROTTLE_PCT else l * 100

/-- The highest admission state whose threshold the dirty count has reached (R496). -/
def Dev.reached (s : Dev) : Nat :=
  let c := s.get Reg.HLD.DIRTY_COUNT.COUNT * 100
  if s.get Reg.HLD.LIMIT_EFF.LIMIT_EFF = 0 ∨ s.threshold100 3 ≤ c then 3
  else if s.threshold100 2 ≤ c then 2 else if s.threshold100 1 ≤ c then 1 else 0

/-- The state the device has fallen to from state `k`: down while the count is 1,024 granules below (R496). -/
def Dev.fallen (s : Dev) : Nat → Nat
  | 0 => 0
  | k + 1 =>
    if s.get Reg.HLD.LIMIT_EFF.LIMIT_EFF ≠ 0 ∧
        s.get Reg.HLD.DIRTY_COUNT.COUNT * 100 + 102400 ≤ s.threshold100 (k + 1) then s.fallen k else k + 1

/-- Entry events of the states above `a` up to `b`, in ascending order (R496). Where one change passes over several states, the record of
each shows the step from the state below it to it: the spec does not say which STATE a passed-over event shows (DESIGN CHOICE, log entry
53). -/
def Dev.entryEvents (s : Dev) (a b : Nat) : List Ev :=
  ([1, 2, 3].filter fun k => a < k ∧ k ≤ b).map fun k => s.hldPlain (0x1AF + k) (k - 1) k

/-- Move the admission state after a change of DIRTY_COUNT or LIMIT_EFF (R496). A flush's states stay. -/
def Dev.admissionMove (s : Dev) : Dev :=
  let cur := s.get Reg.HLD.STATUS.STATE
  if 3 < cur then s
  else
    let up := s.reached
    let next := if cur < up then up else s.fallen cur
    if next = cur then s
    else
      let s := if cur = 2 ∨ next = 2 then { s with allowance := 0 } else s
      (s.set Reg.HLD.STATUS.STATE next).raiseAll (s.entryEvents cur next)

/-- A granule becomes counted (R52): at the admission of its first write. In THROTTLE the write takes an allowance (R496). -/
def Dev.countGran (s : Dev) (g : Nat) (rescue : Option (Nat × Nat)) (stuck : Bool) : Dev :=
  let s := if s.get Reg.HLD.STATUS.STATE = 2 then { s with allowance := s.allowance - 1 } else s
  let e := s.fme g
  let s := s.setFme g { e with cnt := true }
  let s := if e.tier = .L then s.updRm e.loc fun r => { r with cnt := true } else s
  let s := { s with dirty := s.dirty.put g { first := s.clock, lastWrite := s.clock, rescue, stuck } }
  (s.set Reg.HLD.DIRTY_COUNT.COUNT s.dirty.size).admissionMove

/-- A line of a counted granule becomes DIRTY (R28, R52): a granule whose snapshot a destage holds is re-dirtied. -/
def Dev.countDirty (s : Dev) (g k : Nat) : Dev :=
  match s.dirty.get? g with
  | some d =>
    let s := { s with destages := s.destages.upd g fun x => { x with rewritten := k :: x.rewritten } }
    let first := if d.inFlight && !d.redirty then s.clock else d.first
    { s with dirty := s.dirty.put g { d with first, lastWrite := s.clock, redirty := d.redirty || d.inFlight, lines := true } }
  | none => s

/-- A granule is no longer counted: DIRTY_COUNT falls, and in THROTTLE a destage brings an allowance (R496). -/
def Dev.uncountDirty (s : Dev) (g : Nat) (byDestage : Bool) : Dev :=
  if s.dirty.has g then
    let e := s.fme g
    let s := s.setFme g { e with cnt := false }
    let s := if e.tier = .L then s.updRm e.loc fun r => { r with cnt := false } else s
    let s := { s with dirty := s.dirty.del g }
    let s := if byDestage && s.get Reg.HLD.STATUS.STATE == 2 then { s with allowance := s.allowance + 1 } else s
    (s.set Reg.HLD.DIRTY_COUNT.COUNT s.dirty.size).admissionMove
  else s

/-- G_energy of R53: floor(t_avail × rate / 4096), in exact arithmetic; 0 if t_avail ≤ 0. -/
def energyGranules (joule watts plpMs drives : Nat) : Nat :=
  -- t_avail in 1/(1000 P) s: 1000 E − 200 P − P T_PLP
  let den := 1000 * watts
  let num := 1000 * joule - (200 * watts + watts * plpMs)
  num * (15750000000 * drives) / (den * 4096)

/-- The effective limit and the term that decides it (R53, R497). -/
def Dev.limitTerm (s : Dev) : Nat × Nat :=
  let e := s.get Reg.HLD.HOLD_ENERGY.HOLD_ENERGY_J
  if e = 0 then (0, 3)
  else
    let p := 68 + s.get Reg.HLD.FLUSH_LOAD.P_DIMM_W + s.get Reg.HLD.FLUSH_LOAD.P_DRIVE_W
    let g := energyGranules e p (s.get Reg.HLD.PLP_TIME.T_PLP_MS) s.healthy
    let l := s.get Reg.HLD.DIRTY_LIMIT.LIMIT
    let m := min l (min g 50331648)
    (m / 1024 * 1024, if m = 50331648 then 2 else if m = l then 0 else 1)

/-- Recompute LIMIT_EFF and SRC; a change raises EV 0x1B3; STOP is entered at once where the limit has fallen
below the count (R53, R56, R57, R498). EV 0x1B3 is also raised where the value stays and only SRC changes: the record holds both, and the
spec does not say (DESIGN CHOICE, log entry 53). -/
def Dev.limitRecompute (s : Dev) : Dev :=
  let old := s.get Reg.HLD.LIMIT_EFF.LIMIT_EFF
  let oldSrc := s.get Reg.HLD.LIMIT_EFF.SRC
  let before := s.get Reg.HLD.STATUS.STATE
  let t := s.limitTerm
  let s := (s.set Reg.HLD.LIMIT_EFF.LIMIT_EFF t.1).set Reg.HLD.LIMIT_EFF.SRC t.2
  let s := s.setBit Reg.HLD.STATUS.UNCONFIG (t.2 == 3)
  let s := s.admissionMove
  if t.1 = old ∧ t.2 = oldSrc then s
  else s.raise (hldEv s 0x1B3 before (s.get Reg.HLD.STATUS.STATE) oldSrc t.2 old t.1
    (s.get Reg.HLD.HELD_CTR.COUNT) true)

/-- HOLD_ENERGY_J has been written (R57): UNCONFIG follows it, and at 0 the limit and the state follow at once. -/
def Dev.energyWritten (s : Dev) : Dev :=
  let z := s.get Reg.HLD.HOLD_ENERGY.HOLD_ENERGY_J == 0
  let s := s.setBit Reg.HLD.STATUS.UNCONFIG z
  if z then s.limitRecompute else s

/-- FLUSH_EST (R58). -/
def Dev.flushEstimate (s : Dev) : Dev :=
  let d := s.healthy
  let t := if d = 0 then 0xFFFF
    else min 0xFFFF (ceilDiv (s.get Reg.HLD.DIRTY_COUNT.COUNT * 4096 * 1000) (15750000000 * d)
      + s.get Reg.HLD.PLP_TIME.T_PLP_MS)
  (s.set Reg.HLD.FLUSH_EST.T_FLUSH_MS t).set Reg.HLD.FLUSH_EST.DRIVES d

end Sys2Proof.Machine
end

