-- ==== Sys2Proof/Machine/Packets.lean ====
section
/-! DEFINITION. Twinset packets byte by byte: the base header and the operation headers (R268, R270, R271), message bodies (R270, R275, R279,
R290, R319, R332, R339, R350), the frame around them (R266–R268, R300), and the AES-256-GCM that seals them (R269; log entries 4, 63). -/

namespace Sys2Proof

/-- Byte `i` of a state-changing command as it was submitted (R271): the model holds what the command asks for. -/
opaque Config.commandByte : Machine.FwdCmd → Nat → Nat

/-- Body of a message whose layout the spec does not give (JOIN, JOIN_RSP, KEY_WAIT), by the values it carries: its length, and byte `i`. -/
opaque Config.messageLength : List Nat → Nat
opaque Config.messageByte : List Nat → Nat → Nat

/-- Header fields of IP that the spec does not set: flow label, hop limit, and the identification and flags of IPv4. -/
opaque Config.ipField : Nat → Nat

namespace Machine

/-- Big-endian bytes of a number: header fields (R268). -/
def beBytes (n v : Nat) : List Nat := (bytesOf n v).reverse

/-- Such a body: it fits the smallest MTU behind its 4-byte CTRL header (R272 Case C). -/
def messageBody (l : List Nat) : List Nat := (List.range (Config.messageLength l % 4701)).map fun i => Config.messageByte l i % 256

/-- Opcode byte of a packet (R271). -/
def Payload.opcode : Payload → Nat
  | .hello .. => 0x01
  | .helloRsp .. => 0x02
  | .open .. => 0x03
  | .openRsp .. => 0x04
  | .close .. => 0x05
  | .keepalive => 0x06
  | .rekey .. => 0x07
  | .laneRec .. => 0x10
  | .cmdFwd .. => 0x11
  | .fence => 0x12
  | .read .. => 0x20
  | .readResp .. => 0x21
  | .write .. => 0x22
  | .ack .. => 0x30
  | .nak .. => 0x31
  | .lease .. => 0x40
  | .table .. => 0x40
  | .divrun .. => 0x40
  | .keyWait .. => 0x40
  | .loanMsg .. => 0x40
  | .token .. => 0x40
  | .join .. => 0x40
  | .joinRsp .. => 0x40

/-- TARGET word of MEX: LOAN in bit 15 (R270). -/
def targetWord (loan : Bool) (t : Nat) : Nat := t + if loan then 0x8000 else 0

/-- Twinset base header (R268): its 32 bytes. -/
def tbhBytes (kph ar fence retx : Bool) (op dstCid srcCid len psn ts txSeq src dst aepoch una : Nat) : List Nat :=
  [0x10 + flagBit kph 8 + flagBit ar 4 + flagBit fence 2 + flagBit retx 1, op] ++ beBytes 2 dstCid ++ beBytes 2 srcCid ++ beBytes 2 len ++
    beBytes 4 psn ++ beBytes 4 ts ++ beBytes 8 txSeq ++ [src % 32, dst % 32] ++ beBytes 2 aepoch ++ beBytes 4 una

/-- MEX (R270); the byte address of a region's line. -/
def mexBytes (loan : Bool) (target gen : Nat) (granule : Bool) (count addr tag : Nat) : List Nat :=
  beBytes 2 (targetWord loan target) ++ beBytes 2 gen ++ beBytes 2 (flagBit granule 1) ++ beBytes 2 count ++
    beBytes 8 (if loan then addr else addr * 64) ++ beBytes 8 tag

/-- RSX (R270). -/
def rsxBytes (duplicate : Bool) (poison valid service gen : Nat) : List Nat :=
  [flagBit duplicate 1, 0] ++ beBytes 8 poison ++ beBytes 8 valid ++ beBytes 4 service ++ beBytes 2 gen ++ List.replicate 6 0

/-- STATE[7:6] of a metadata entry (R38), and the entry as DRAM holds it: STATE, TAGGED, KEY_EPOCH and TAG. -/
def LineState.code : LineState → Nat
  | .absent => 0
  | .clean => 1
  | .dirty => 2
  | .poison => 3
def Ln.entryBytes (l : Ln) : List Nat := (l.st.code * 64 + flagBit l.tagged 32 + l.epoch.toNat) :: bytesOf 7 l.tag.toNat

/-- `n` lines, then their metadata entries (R270). -/
def linesBytes (lines : Tab Ln) (n : Nat) : List Nat :=
  ((List.range n).flatMap fun k => bytesOf 64 (lines.getD k {}).data.toNat) ++ (List.range n).flatMap fun k => (lines.getD k {}).entryBytes

/-- Mirror record (R270). -/
def MirRecord.bytes (r : MirRecord) : List Nat :=
  bytesOf 5 r.line ++ bytesOf 2 r.gen ++ [flagBit (r.ln.st == .poison) 1] ++ r.ln.entryBytes ++ bytesOf 64 r.ln.data.toNat

/-- *Token body* (R339): 16 pair entries of 11 bytes. -/
def Token.bytes (t : Token) : List Nat :=
  bytesOf 8 t.epoch ++ bytesOf 4 t.seq ++ [t.origin % 32, t.minVer, t.hops, 0] ++ bytesOf 4 t.members ++ bytesOf 4 t.add ++ bytesOf 4 t.remove ++
    bytesOf 32 t.digest ++ bytesOf 8 t.refTime ++ [flagBit t.refStamped 1, 0, 0, 0] ++
    (List.range 16).flatMap fun k => match t.pairs.get? k with
      | some e => bytesOf 2 e.pairId ++ [e.member % 32 + 128] ++ bytesOf 8 e.epoch
      | none => List.replicate 11 0

/-- *Loan message body* (R350). -/
def LoanMsg.bytes (m : LoanMsg) : List Nat :=
  [m.subtype, m.reason] ++ bytesOf 2 m.loan ++ bytesOf 2 m.gen ++ bytesOf 2 m.avail ++ bytesOf 4 m.rseq ++ List.replicate 4 0

/-- *OPEN body* (R279). -/
def openBytes (cid : Nat) (relaxed : Bool) (purpose window lane prio psn status : Nat) : List Nat :=
  bytesOf 2 cid ++ [flagBit relaxed 1, purpose] ++ bytesOf 2 window ++ [lane, prio] ++ bytesOf 4 psn ++ [status, 0, 0, 0]

/-- Bytes of a command as submitted: a descriptor, and for tenant binding, shares, rotation, removal and zeroisation
the signed operation (R372, R394). -/
def FwdCmd.bytes : FwdCmd → Nat
  | .regionCreate .. => 72
  | .regionDestroy .. => 64
  | .regionAttach .. => 64
  | .regionRevoke .. => 64
  | _ => 4096

/-- The message itself, behind its operation header (R270–R272, R275, R279, R290); `room` = what a fragment of a command holds at most. -/
def Payload.body (room : Nat) : Payload → List Nat
  | .hello nonce idHash secret aepoch mac => bytesOf 32 nonce ++ bytesOf 32 idHash ++ [secret, 0] ++ bytesOf 2 aepoch ++ bytesOf 16 mac
  | .helloRsp nonce idHash secret aepoch mac => bytesOf 32 nonce ++ bytesOf 32 idHash ++ [secret, 0] ++ bytesOf 2 aepoch ++ bytesOf 16 mac
  | .open cid relaxed purpose window lane prio psn => openBytes cid relaxed purpose window lane prio psn 0
  | .openRsp cid relaxed purpose window lane prio psn status => openBytes cid relaxed purpose window lane prio psn status
  | .close cid => bytesOf 2 cid
  | .keepalive => []
  | .rekey nonce => bytesOf 32 nonce
  | .laneRec _ recs => recs.flatMap MirRecord.bytes
  | .cmdFwd frag _ cmd => (List.range (min room (cmd.bytes - frag * room))).map fun i => Config.commandByte cmd (frag * room + i) % 256
  | .fence => []
  | .read .. => []
  | .readResp _ _ _ _ count _ _ duplicate _ _ _ _ lines => if duplicate then [] else linesBytes lines count
  | .write _ _ _ _ count _ _ lines => linesBytes lines count
  | .ack psn sack ce pkt ts => bytesOf 4 psn ++ bytesOf 4 sack ++ bytesOf 2 ce ++ bytesOf 2 pkt ++ bytesOf 4 ts
  | .nak psn code rnr target gen ts => bytesOf 4 psn ++ [code, 0] ++ bytesOf 2 rnr ++ bytesOf 2 target ++ bytesOf 2 gen ++ bytesOf 4 ts
  | .lease m => m.bytes
  | .table l _ _ => l.flatMap fun e => entryBytes e.region e.r.gen (some e.r) e.epoch e.fingerprint.toNat
  | .divrun l _ => l.flatMap fun r => bytesOf 8 (r.1 % 2 ^ 34 + (r.2 - 1) % 2 ^ 30 * 2 ^ 34)
  | .keyWait region => messageBody [0, region]
  | .loanMsg m => m.bytes
  | .token t => t.bytes
  | .join j => messageBody [1, j.member, j.version, j.digest, j.time, j.pairId, j.role, j.leaseEpoch, j.onewayPred, j.onewaySucc]
  | .joinRsp member reason => messageBody [2, member, reason]

/-- The CTRL header (R271): class, subtype with its last-message mark (R272 Case B), and length. -/
def ctrlBytes (cls sub : Nat) (last : Bool) (n : Nat) : List Nat := [cls, sub + flagBit last 128] ++ beBytes 2 n

/-- Operation header (*Opcodes*). The subtypes of the table's class are not given (log entry 63). -/
def Payload.opHeader (room : Nat) (p : Payload) : List Nat :=
  let n := (p.body room).length
  match p with
  | .laneRec lane recs => [lane, recs.length] ++ List.replicate 6 0
  | .cmdFwd frag last _ => [0, frag, flagBit last 1] ++ List.replicate 5 0
  | .read loan target gen granule count addr tag => mexBytes loan target gen granule count addr tag
  | .readResp loan target gen granule count addr tag duplicate poison valid service tgtGen _ =>
    mexBytes loan target gen granule count addr tag ++ rsxBytes duplicate poison valid service tgtGen
  | .write loan target gen granule count addr tag _ => mexBytes loan target gen granule count addr tag
  | .lease m => ctrlBytes 1 m.subtype false n
  | .table _ last joined => ctrlBytes 2 (if joined then 4 else 1) last n
  | .divrun _ last => ctrlBytes 2 2 last n
  | .keyWait _ => ctrlBytes 2 3 false n
  | .loanMsg m => ctrlBytes 3 m.subtype false n
  | .token _ => ctrlBytes 4 1 false n
  | .join _ => ctrlBytes 4 2 false n
  | .joinRsp .. => ctrlBytes 4 3 false n
  | _ => []

/-- What a packet carries behind its base header and before its ICV. -/
def Payload.wire (room : Nat) (p : Payload) : List Nat := p.opHeader room ++ p.body room

/-- Room of a packet for operation header and payload (R272), and of a fragment. -/
def Dev.packetRoom (s : Dev) : Nat := s.get Reg.TWT.CFG.MTU - if s.bit Reg.TWT.CFG.IPV6 then 96 else 76
def Dev.fragRoom (s : Dev) : Nat := s.packetRoom - 8

/-- Bytes of the IP packet that carries a payload (R268): a HELLO has no ICV. -/
def Payload.sealed : Payload → Bool
  | .hello .. => false
  | .helloRsp .. => false
  | _ => true
def Dev.ipLen (s : Dev) (p : Payload) : Nat :=
  (if s.bit Reg.TWT.CFG.IPV6 then 40 else 20) + 8 + 32 + (p.wire s.fragRoom).length + if p.sealed then 16 else 0

/-- Association a's link slot of a key phase (R274): transmit, then receive (log entry 61). -/
def linkSlot (a : Nat) (phase tx : Bool) : Nat := 64 + 4 * a + (if phase then 2 else 0) + if tx then 0 else 1

/-- The key and the 4-byte salt of a link slot; none installed reads as zero. -/
def Dev.linkKey (s : Dev) (k : Nat) : BitVec 256 × List Nat :=
  match s.island.links.get? k with
  | some x => (x.key, bytesOf 4 x.salt.toNat)
  | none => (0, bytesOf 4 0)

/-- A packet sealed under a link slot (R269): the IV is the salt and TXSEQ, the AAD the base header; ciphertext and ICV. -/
def Dev.gcmOf (s : Dev) (k txSeq : Nat) (tbh plain : List Nat) : List Nat × Nat :=
  let x := s.linkKey k
  gcmSeal x.1 (x.2 ++ beBytes 8 txSeq) tbh plain

/-- Base header of a received packet as its sender laid it out. -/
def Dev.rxTbh (s : Dev) (h : RxHdr) (p : Payload) : List Nat :=
  tbhBytes h.kph h.ar h.fence h.retx p.opcode h.cid h.srcCid (p.body s.fragRoom).length h.psn h.ts h.txSeq h.src h.dst h.aepoch h.una

/-- The ICV that verifies a received packet under the peer's key of its phase (R269). -/
def Dev.rxIcv (s : Dev) (a : Nat) (h : RxHdr) (p : Payload) : Nat :=
  (s.gcmOf (linkSlot a h.kph false) h.txSeq (s.rxTbh h p) (p.wire s.fragRoom)).2

/-- "NX9620 HELLO". -/
def helloCustom : List Nat := [78, 88, 57, 54, 50, 48, 32, 72, 69, 76, 76, 79]

/-- MAC of a HELLO or HELLO_RSP under its secret: over the base header and bytes 67:0 (R275). -/
def helloMac (secret tbh : List Nat) (p : Payload) : Nat :=
  numOf (kmac256 secret (tbh ++ (p.body 0).take 68) 128 helloCustom)

/-- Internet checksum: one's complement of the one's-complement sum of 16-bit words. -/
def sum16 : List Nat → Nat
  | a :: b :: r => a * 256 + b + sum16 r
  | [a] => a * 256
  | [] => 0
def fold16 : Nat → Nat → Nat
  | 0, v => v
  | n + 1, v => if v < 65536 then v else fold16 n (v % 65536 + v / 65536)
def inetSum (l : List Nat) : Nat := 65535 - fold16 8 (sum16 l)

/-- PCP of a priority class (R300, R301). -/
def Dev.pcp (s : Dev) (prio : Nat) : Nat :=
  if prio = 0 then s.get Reg.TWT.TAG.PCP_DATA else if prio = 1 then s.get Reg.TWT.TAG.PCP_LANE
  else s.get Reg.TWT.TAG.PCP_CTRL

/-- The IP address of this device as bytes, most significant first. -/
def Dev.localIp (s : Dev) : Nat := (List.range 4).foldl (fun v i => v + s.get (Reg.TWT.LOCAL_IP.ADDR i) * 2 ^ (32 * i)) 0

/-- UDP datagram from a connection (R267), with its checksum over the pseudo-header. -/
def Dev.udpBytes (s : Dev) (src dst : List Nat) (cid : Nat) (data : List Nat) : List Nat :=
  let n := data.length + 8
  let head := beBytes 2 (0xC000 + cid % 16384) ++ beBytes 2 (s.get Reg.TWT.CFG.UDP_PORT) ++ beBytes 2 n
  let pseudo := src ++ dst ++ if s.bit Reg.TWT.CFG.IPV6 then beBytes 4 n ++ [0, 0, 0, 17] else [0, 17] ++ beBytes 2 n
  let v := inetSum (pseudo ++ head ++ [0, 0] ++ data)
  head ++ beBytes 2 (if v = 0 then 65535 else v) ++ data

/-- IP packet: IPv6 or IPv4 as TWT.CFG says, with DSCP and ECT(0) (R266–R268). -/
def Dev.ipBytes (s : Dev) (ip cid : Nat) (data : List Nat) : List Nat :=
  let dscp := s.get Reg.TWT.TAG.DSCP
  if s.bit Reg.TWT.CFG.IPV6 then
    let src := beBytes 16 s.localIp
    let dst := beBytes 16 ip
    let u := s.udpBytes src dst cid data
    beBytes 4 (6 * 2 ^ 28 + (dscp * 4 + 2) * 2 ^ 20 + Config.ipField 0 % 2 ^ 20) ++ beBytes 2 u.length ++ [17, Config.ipField 1 % 256] ++ src ++ dst ++ u
  else
    let src := beBytes 4 s.localIp
    let dst := beBytes 4 ip
    let u := s.udpBytes src dst cid data
    let head := [0x45, dscp * 4 + 2] ++ beBytes 2 (20 + u.length) ++ beBytes 4 (Config.ipField 2) ++ [Config.ipField 1 % 256, 17]
    head ++ beBytes 2 (inetSum (head ++ [0, 0] ++ src ++ dst)) ++ src ++ dst ++ u

/-- Ethernet frame of a packet on a port, from its destination address to the ICV (R266–R268, R300): `data` is the UDP payload. -/
def Dev.frameBytes (s : Dev) (a port cid prio : Nat) (data : List Nat) : List Nat :=
  let x := s.assocs.getD a {}
  let mac := s.get (Reg.TWL.MAC_LO.MAC port) + s.get (Reg.TWL.MAC_HI.MAC port) * 2 ^ 32
  let tag := if s.bit Reg.TWT.CFG.VLAN_EN then beBytes 2 0x8100 ++ beBytes 2 (s.pcp prio * 2 ^ 13 + s.get Reg.TWT.TAG.VLAN_ID) else []
  beBytes 6 x.mac ++ beBytes 6 mac ++ tag ++ beBytes 2 (if s.bit Reg.TWT.CFG.IPV6 then 0x86DD else 0x0800) ++ s.ipBytes x.ip cid data

/-- A received frame is one that R266 filters, or its IP packet is longer than the MTU, or its UDP checksum is wrong: it is checked unless it
is zero on IPv4 (R266, R267). -/
def Dev.filters (s : Dev) (h : RxHdr) (p : Payload) : Bool :=
  h.kind != .twinset || decide (s.get Reg.TWT.CFG.MTU < s.ipLen p) ||
    (match h.udpSum with | some ok => !ok | none => s.bit Reg.TWT.CFG.IPV6)

end Machine
end Sys2Proof
end

