-- ==== Sys2Proof/Machine/Rnt.lean ====
section
/-! DEFINITION. RNT's engine: client classes and their slot kinds, the request queue and the dispatcher (R173–R176), what the checks of a
job report (R177, R178), GCM jobs, and units sent to their known-answer test. -/

namespace Sys2Proof.Machine

/-- An RNT event with the payload of R186. -/
def rntEv (id cls flags unit slot : Nat) (epoch : BitVec 5) (tier line : Nat) (tag : BitVec 56) (writes : Bool) : Ev :=
  Ev.make id writes (slot % 4096 + epoch.toNat * 4096 + tier * 2 ^ 17)
    [(1, 1, cls), (2, 1, flags), (3, 1, unit), (8, 5, line), (13, 7, tag.toNat)]

/-- The key slot that a request names, by its kind (R167). -/
inductive SlotRef
  | memory (k : Nat)
  | link (k : Nat)
  /-- the vectors of a known-answer test -/
  | vectors
  deriving DecidableEq, Repr

def SlotRef.number : SlotRef → Nat
  | .memory k => k
  | .link k => k
  | .vectors => 0

/-- A class and a slot kind match (*Client classes*). -/
def kindOk (c : Nat) : SlotRef → Bool
  | .memory _ => c != 3 && c != 4 && decide (c < 7)
  | .link k => (c == 3 || c == 4) && decide (64 ≤ k)
  | .vectors => c == 7

def Dev.setRnt (s : Dev) (f : Rnt → Rnt) : Dev := { s with rnt := f s.rnt }

/-- A lane is quarantined (R178). -/
def Dev.laneOut (s : Dev) (l : Nat) : Bool :=
  (s.get (if l < 32 then Reg.RNT.LANE_FAIL_LO.LANES else Reg.RNT.LANE_FAIL_HI.LANES)).testBit (l % 32)

/-- Lanes free at FCLK `t`, and lanes that a class occupies. A lane's time is counted in fourteenths of an FCLK (R182). -/
def Dev.lanesFree (s : Dev) (t : Nat) : List Nat :=
  (List.range 48).filter fun l => !s.laneOut l && (match s.rnt.lanes.get? l with | some x => decide (x.2 ≤ 14 * t) | none => true)
def Dev.lanesIn (s : Dev) (c t : Nat) : Nat := (s.rnt.lanes.list.filter fun e => e.2.1 == c && decide (14 * t < e.2.2)).length

/-- Requests of a class in the queue; the class's share of its 1,024 entries is taken (R175). -/
def Dev.queuedIn (s : Dev) (c : Nat) : Nat := (s.rnt.queue.filter fun j => j.cls == c).length
def Dev.classFull (s : Dev) (c : Nat) : Bool := decide (s.get (Reg.RNT.CLS.DEPTH c) ≤ s.queuedIn c)

/-- The class that is served next at FCLK `t`, and the turn of the weighted round-robin after it (R176). -/
def Dev.nextClass (s : Dev) (t : Nat) : Option (Nat × Nat × Nat) :=
  let has := fun (c : Nat) => s.rnt.queue.any fun j => j.cls == c
  match (List.range 8).find? fun c => has c && decide (s.lanesIn c t < s.get (Reg.RNT.CLS.MIN c)) with
  | some c => some (c, s.rnt.turn, s.rnt.taken)
  | none =>
    let r := s.rnt
    if has r.turn && decide (r.taken < s.get (Reg.RNT.CLS.WEIGHT r.turn)) then some (r.turn, r.turn, r.taken + 1)
    else ((List.range 8).map fun i => (r.turn + 1 + i) % 8).find? has |>.map fun c => (c, c, 1)

/-- The job of a class that goes first: the oldest, but zero-line seals before sweep work (R175). -/
def nextJob (l : List RntJob) (c : Nat) : Option RntJob :=
  match l.find? fun j => j.cls == c && !j.sweep with | some j => some j | none => l.find? fun j => j.cls == c

/-- Requests that waited in their source enter the queue as their class has room. -/
def Dev.rntEnter (s : Dev) : Dev :=
  s.rnt.waiting.foldl (fun s j =>
    if s.classFull j.cls then s.setRnt fun r => { r with waiting := r.waiting ++ [j] }
    else s.setRnt fun r => { r with queue := r.queue ++ [j] }) (s.setRnt fun r => { r with waiting := [] })

/-- Dispatch a job at FCLK `t`: a line job takes one lane for 4 blocks, a GCM job up to 3 lanes (R173); each block costs 14 + ROUNDS unit
slots (R182). -/
def Dev.dispatch (s : Dev) (t : Nat) (j : RntJob) (turn taken : Nat) : Dev :=
  let free := s.lanesFree t
  let use := free.take (if j.blocks = 0 then 1 else min 3 j.blocks)
  let each := if j.blocks = 0 then 4 else ceilDiv j.blocks use.length
  let till := 14 * t + each * (14 + s.get Reg.RNT.CFG.ROUNDS)
  (s.setRnt fun r => { r with queue := r.queue.erase j, at_ := t, count := if r.at_ = t then r.count + 1 else 1
                              turn, taken, lanes := use.foldl (fun l x => l.put x (j.cls, till)) r.lanes }).rntEnter

/-- The dispatcher comes up to FCLK `now`: at most 12 jobs in each cycle; the last argument bounds the jobs. -/
def Dev.rntRun (s : Dev) (now : Nat) : Nat → Dev
  | 0 => s
  | n + 1 =>
    let t := if s.rnt.count < 12 then s.rnt.at_ else s.rnt.at_ + 1
    let soon := (s.rnt.lanes.list.filter fun e => !s.laneOut e.1).map fun e => ceilDiv e.2.2 14
    let t := if s.lanesFree t = [] then soon.foldl min (soon.headD (now + 1)) else t
    if now < t then s
    else match s.nextClass t with
      | none => s
      | some (c, turn, taken) => match nextJob s.rnt.queue c with
        | none => s
        | some j => if s.lanesFree t = [] then s else (s.dispatch t j turn taken).rntRun now n

/-- The dispatcher runs up to the present. -/
def Dev.rntCatchUp (s : Dev) : Dev :=
  let s := s.rntRun s.clock (s.rnt.queue.length + s.rnt.waiting.length)
  if s.rnt.at_ < s.clock then s.setRnt fun r => { r with at_ := s.clock, count := 0 } else s

/-- A request reaches RNT (R174, R175): refused where its class and slot kind do not match; else it is counted and queued, or waits in its source
block where its class is full, which is told after 1 ms without. -/
def Dev.rntAsk (s : Dev) (c : Nat) (k : SlotRef) (sweep : Bool) (blocks : Nat) : Dev × Bool :=
  if !kindOk c k then (s.raise (rntEv 0x07E c 0 0 k.number 0 0 (2 ^ 40 - 1) 0 true), false)
  else
    let s := s.count48 (Reg.RNT.JOBS_LO.COUNT c) (Reg.RNT.JOBS_HI.COUNT c) 1 (Ev.plain 0x07C)
    let s := s.rntCatchUp
    let j : RntJob := { cls := c, sweep, blocks }
    if s.classFull c then
      let quiet := match s.rnt.fullAt with | some t => decide (t + fclkMs ≤ s.clock) | none => true
      let s := s.setRnt fun r => { r with waiting := r.waiting ++ [j], fullAt := some s.clock }
      (if quiet then s.raise (rntEv 0x07D c 0 0 k.number 0 0 (2 ^ 40 - 1) 0 true) else s, true)
    else ((s.setRnt fun r => { r with queue := r.queue ++ [j] }).rntCatchUp, true)

/-- What the checks of the next job report: the oldest report still to come; with none, every check agrees. -/
def Dev.takeCheck (s : Dev) : Dev × Check :=
  match s.rnt.checks with
  | [] => (s, {})
  | c :: l => (s.setRnt fun r => { r with checks := l }, c)

/-- The environment reports on jobs to come. -/
def Dev.report (s : Dev) (l : List Check) : Dev := s.setRnt fun r => { r with checks := r.checks ++ l }

/-- Number of a Keccak core among the units, as byte 3 of a record shows it (R186). -/
def coreUnit (n : Nat) : Nat := 128 + n % 24

/-- A lane or a Keccak core is sent to its known-answer test (R178, R179). -/
def Dev.katSend (s : Dev) (unit : Nat) : Dev := s.setRnt fun r => { r with kats := r.kats.put unit () }

/-- The lanes' check of a job (R177, R178): it agrees; or its retry on another lane does, which is counted and told; or the job fails, and
both lanes go to their test. The epoch, tier, line and tag are those of the record. -/
def Dev.laneCheck (s : Dev) (c : Check) (cls : Nat) (encrypts : Bool) (slot : Nat) (epoch : BitVec 5) (tier line : Nat) (tag : BitVec 56) :
    Dev × Bool :=
  if !c.bad then (s, true)
  else if !c.badRetry then
    ((s.count Reg.RNT.CMP_RETRY.COUNT Reg.RNT.CMP_RETRY.SAT 1 (Ev.plain 0x079)).raise
      (rntEv (if encrypts then 0x074 else 0x073) cls 1 (c.lane % 48) slot epoch tier line tag true), true)
  else ((s.katSend (c.lane % 48)).katSend (c.retry % 48), false)

/-- A GCM job over `bytes` of a packet under a link slot (R173, R177, R178): the verdict of its checks. A packet without such bytes is one
block, its ICV's. -/
def Dev.gcmJob (s : Dev) (c slot bytes : Nat) : Dev × Bool :=
  let a := s.rntAsk c (.link slot) false (ceilDiv bytes 16 + 1)
  if !a.2 then (a.1, false)
  else let k := a.1.takeCheck; k.1.laneCheck k.2 c false slot 0 4 (2 ^ 40 - 1) 0

end Sys2Proof.Machine
end

