-- ==== Sys2Proof/Machine/TransportCore.lean ====
section
/-! DEFINITION. TWT and CCC, the sender's side: associations, connections and their contexts, transmission, PSN
windows, resolution and opening (R267–R283, R291). -/

namespace Sys2Proof.Machine

/-- TARGET, generation and DPA line or loan offset that a packet's record shows (R302). -/
def Payload.place : Payload → Nat × Nat × Nat
  | .read loan t g _ _ a _ => (targetWord loan t, g, a)
  | .write loan t g _ _ a _ _ => (targetWord loan t, g, a)
  | .laneRec _ (r :: _) => (0, r.gen, r.line)
  | _ => (0, 0, 2 ^ 40 - 1)

/-- PSN after `p`, and the distance from `a` to `b`, modulo 2^32 (R283). -/
def psnNext (p : Nat) : Nat := (p + 1) % 2 ^ 32
def psnDist (a b : Nat) : Nat := (b + 2 ^ 32 - a % 2 ^ 32) % 2 ^ 32

def Dev.assoc (s : Dev) (a : Nat) : Assoc := s.assocs.getD a {}
def Dev.setAssoc (s : Dev) (a : Nat) (x : Assoc) : Dev := { s with assocs := s.assocs.putD a x {} }

/-- A connection of an association (R278). -/
def Dev.conn (s : Dev) (a cid : Nat) : Option Conn := (s.assoc a).conns.get? cid
def Dev.setConn (s : Dev) (a cid : Nat) (c : Conn) : Dev :=
  let x := s.assoc a
  s.setAssoc a { x with conns := x.conns.put cid c }
def Dev.delConn (s : Dev) (a cid : Nat) : Dev :=
  let x := s.assoc a
  s.setAssoc a { x with conns := x.conns.del cid }

/-- An association carries sealed packets: UP or REKEY. -/
def Dev.assocUp (s : Dev) (a : Nat) : Bool := decide (2 ≤ (s.assoc a).state)

/-- The lowest association that is set up for a member. -/
def Dev.assocOf (s : Dev) (member : Nat) : Option Nat :=
  (s.assocs.list.find? fun e => e.2.member == member && decide (0 < e.2.state)).map (·.1)

/-- No place in the record. -/
def noPlace : Nat × Nat × Nat := (0, 0, 2 ^ 40 - 1)

/-- The up ports of an association's mask, ascending (R267). -/
def Dev.portsOf (s : Dev) (a : Nat) : List Nat :=
  (setBits 4 (s.assoc a).portMask).filter fun p => s.get (Reg.TWL.PORT_STS.SPEED p) != 0

/-- The port a connection transmits on (R267). -/
def Dev.portOf (s : Dev) (a cid : Nat) : Option Nat :=
  let l := s.portsOf a
  l[cid % l.length]?

/-- A transport event with the payload of R302. -/
def twRec (s : Dev) (id : Nat) (writes : Bool) (a : Option Nat) (port cid code op psn : Nat)
    (place : Nat × Nat × Nat) (tgtGen : Nat) (mism : Bool) : Ev :=
  Ev.make id writes (cid + code * 2 ^ 16 + op * 2 ^ 24)
    [(1, 1, a.getD 255), (2, 1, match a with | some x => (s.assoc x).member | none => 255), (3, 1, port), (8, 4, psn),
     (12, 2, place.1), (14, 2, place.2.1), (16, 2, tgtGen), (18, 5, place.2.2), (23, 1, if mism then 1 else 0)]

/-- An event of a connection: its port is the one it transmits on, 0 with none up. -/
def twEv (s : Dev) (id : Nat) (writes : Bool) (a : Option Nat) (cid code op psn : Nat)
    (place : Nat × Nat × Nat) (tgtGen : Nat) (mism : Bool) : Ev :=
  twRec s id writes a (match a with | some x => (s.portOf x cid).getD 0 | none => 0) cid code op psn place tgtGen mism

/-- An event of a received packet. -/
def twRx (s : Dev) (id a : Nat) (h : RxHdr) (p : Payload) (code tgtGen : Nat) : Ev :=
  twRec s id true (some a) h.port h.cid code p.opcode h.psn p.place tgtGen false

/-- R_LINE of a connection in Mb/s: its port's rate (R297). -/
def Dev.lineRate (s : Dev) (a cid : Nat) : Nat :=
  match s.portOf a cid with
  | some p => match s.get (Reg.TWL.PORT_STS.SPEED p) with
    | 1 => 200000 | 2 => 400000 | 3 => 800000 | 4 => 1600000 | _ => 0
  | none => 0

/-- Ask for a rekey: REKEY with a fresh nonce waits on CID 0 for its turn, and STATE is REKEY (R277). -/
def Dev.rekeyAsk (s : Dev) (a : Nat) : Dev :=
  let x := s.assoc a
  match x.conns.get? 0 with
  | none => s
  | some c =>
    if x.state = 0 ∨ x.rekeySent.isSome then s
    else
      let (n, s) := s.random
      let e : Sent := { payload := .rekey n, at_ := s.clock, unsent := true }
      let c := { c with nextPsn := psnNext c.nextPsn, sent := c.sent.put c.nextPsn e }
      s.setAssoc a { x with state := 3, rekeySent := some n, conns := x.conns.put 0 c }

/-- The base header of a packet that leaves now, and its frame: sealed under the key of the phase, or as it is (R267–R269). -/
def Dev.txHdr (s : Dev) (h : TxHeld) (p : Nat) : TxHdr :=
  let x := s.assoc h.assoc
  let c := x.conns.get? h.cid
  let una := match c with | some c => c.una | none => 0
  let dstCid := h.reply.getD (match c with | some c => c.peerCid | none => h.cid)
  let ts := s.clock / 2 % 2 ^ 32
  let me := s.get Reg.RND.CFG.MEMBER
  let txSeq := if h.payload.sealed then x.txSeq else 0
  let kph := h.payload.sealed && x.kph
  let tbh := tbhBytes kph h.flags.ar h.flags.fence h.flags.retx h.payload.opcode dstCid h.cid (h.payload.body s.fragRoom).length h.psn ts txSeq
    me x.member x.aepoch una
  let plain := h.payload.wire s.fragRoom
  let data := if h.payload.sealed then
      let g := s.gcmOf (linkSlot h.assoc x.kph true) x.txSeq tbh plain
      tbh ++ g.1 ++ bytesOf 16 g.2
    else tbh ++ plain
  { flags := h.flags, kph, txSeq, una, port := p, prio := h.prio, dstCid, ts, src := me, dst := x.member, aepoch := x.aepoch
    frame := s.frameBytes h.assoc p h.cid h.prio data }

/-- Put a packet on the wire: sealed in class LTX, it takes the next TXSEQ of its key (R174, R269). With no port up it is lost, and so is one
whose seal failed its checks twice: what becomes of it the spec does not say (R178 Case C; DESIGN CHOICE, log entry 61). -/
def Dev.emit (s : Dev) (h : TxHeld) : Dev :=
  match s.portOf h.assoc h.cid with
  | none => s
  | some p =>
    let g := s.gcmJob 3 (linkSlot h.assoc (s.assoc h.assoc).kph true) (h.payload.wire s.fragRoom).length
    let s := g.1
    let x := s.assoc h.assoc
    let hdr := s.txHdr h p
    let s := s.setAssoc h.assoc { x with txSeq := x.txSeq + 1, lastTx := s.clock }
    let s := if g.2 then s.send (.packet h.assoc h.cid h.psn hdr h.payload) else s
    if x.txSeq + 1 = 2 ^ 48 then s.rekeyAsk h.assoc else s

/-- Transmit a packet, unless its priority is paused (R300). -/
def Dev.transmit (s : Dev) (h : TxHeld) : Dev :=
  match s.portOf h.assoc h.cid with
  | some p => if s.paused.has (p * 8 + s.pcp h.prio) then { s with txHeld := s.txHeld ++ [h] } else s.emit h
  | none => s.emit h

/-- Requests of a connection in PSN order from UNA. -/
def Conn.inOrder (c : Conn) : List (Nat × Sent) :=
  (c.sent.list.filter fun e => decide (c.una ≤ e.1)) ++ (c.sent.list.filter fun e => decide (e.1 < c.una))

/-- A connection is busy (R281). -/
def Conn.busy (c : Conn) : Bool :=
  !c.sent.list.isEmpty || decide (0 < c.unacked) || !c.fenceHeld.list.isEmpty || !c.refillHeld.isEmpty || !c.deferred.list.isEmpty

/-- Pinned connections: CID 0–255 (R278). -/
def pinned (cid : Nat) : Bool := decide (cid < 256)

/-- Open connections in all and pinned, CID 0 apart (R278, R280). -/
def Dev.connCount (s : Dev) : Nat := s.assocs.list.foldl (fun n e => n + e.2.conns.size) 0
def Dev.pinnedCount (s : Dev) : Nat :=
  s.assocs.list.foldl (fun n e => n + (e.2.conns.list.filter fun c => pinned c.1).length) 0
def Dev.pinnedOther (s : Dev) : Nat :=
  s.assocs.list.foldl (fun n e => n + (e.2.conns.list.filter fun c => pinned c.1 && c.1 != 0).length) 0

/-- The limits of R278 and R280 leave room for one more connection. -/
def Dev.connRoom (s : Dev) (cid : Nat) : Bool :=
  decide (s.connCount < 65536) && (!pinned cid || decide (s.pinnedOther < 208))

/-- Set of a cached connection (R280). -/
def ctxSet (a cid : Nat) : Nat := (cid + 7 * a) % 240

/-- The connections whose contexts sit in a set: association, CID and context. -/
def Dev.ctxWays (s : Dev) (set : Nat) : List (Nat × Nat × Conn) :=
  s.assocs.list.flatMap fun e => (e.2.conns.list.filter fun c =>
    !pinned c.1 && (c.2.cached || c.2.refill) && ctxSet e.1 c.1 == set).map fun c => (e.1, c.1, c.2)

/-- The least recently used of a list of connections. -/
def lruConn : List (Nat × Nat × Conn) → Option (Nat × Nat × Conn)
  | [] => none
  | x :: r => match lruConn r with
    | none => some x
    | some y => if x.2.2.used ≤ y.2.2.used then some x else some y

/-- The 16 lines of a context in the XPT spill area are written, primary and shadow (R217, R280). -/
def Dev.xptTouch (s : Dev) (c : Nat) : Dev :=
  ((List.range 16).flatMap fun j => s.stripePlaces .xpt (2 ^ 26) (16 * c + j)).foldl (fun s x => s.dramTouch x.1 x.2) s

/-- Make room for a context in a set: a free way, or the least recently used idle way spilled (R281);
`none` = no evictable way. -/
def Dev.ctxRoom (s : Dev) (set : Nat) : Option Dev :=
  let l := s.ctxWays set
  if l.length < 16 then some s
  else (lruConn (l.filter fun x => !x.2.2.busy)).map fun v =>
    (s.setConn v.1 v.2.1 { v.2.2 with cached := false }).xptTouch v.2.2.context

/-- The lowest context number that no connection has (R280). -/
def Dev.freeContext (s : Dev) : Nat :=
  let used : Tab Unit := s.assocs.list.foldl
    (fun t e => e.2.conns.list.foldl (fun t c => t.put c.2.context ()) t) .empty
  used.firstFree

/-- Send what the window lets through (R283): unsent requests in PSN order, the last before the window fills
with AR. -/
def Dev.pump (s : Dev) (a cid : Nat) : Dev :=
  match s.conn a cid with
  | none => s
  | some c =>
    if c.state ≠ 1 ∨ !c.cached then s
    else
      let go := c.inOrder.filter fun e => e.2.unsent && decide (psnDist c.una e.1 < c.window)
      go.foldl (fun s e =>
        match s.conn a cid with
        | none => s
        | some c =>
          let ar := e.2.ar || decide (psnDist c.una e.1 + 1 = c.window)
          let s := s.setConn a cid { c with sent := c.sent.put e.1 { e.2 with unsent := false, at_ := s.clock, ar } }
          s.transmit { assoc := a, cid, psn := e.1, payload := e.2.payload, prio := c.prio
                       flags := { ar, fence := e.2.fence } }) s

/-- Refills in flight (R282). -/
def Dev.refills (s : Dev) : Nat :=
  s.assocs.list.foldl (fun n e => n + (e.2.conns.list.filter fun c => c.2.refill).length) 0

/-- Start the refill of a spilled context, if its set has a way and fewer than 32 run (R281, R282). -/
def Dev.startRefill (s : Dev) (a cid : Nat) : Option Dev :=
  if 32 ≤ s.refills then none
  else (s.ctxRoom (ctxSet a cid)).map fun s =>
    match s.conn a cid with
    | some c => (s.setConn a cid { c with refill := true, refillAt := s.clock, used := s.clock }).count
        Reg.CCC.MISS.COUNT Reg.CCC.MISS.SAT 1 (Ev.plain 0x1E4)
    | none => s

/-- A transmit request on a spilled context asks for its refill; without a way it waits (R281, R282). -/
def Dev.wantContext (s : Dev) (a cid : Nat) : Dev :=
  match s.conn a cid with
  | none => s
  | some c =>
    let s := s.setConn a cid { c with used := s.clock }
    if c.cached || c.refill then s else (s.startRefill a cid).getD s

/-- Transmit requests that wait for a way are tried again (R281). -/
def Dev.retryContexts (s : Dev) : Dev :=
  s.assocs.list.foldl (fun s e => e.2.conns.list.foldl (fun s c =>
    if !c.2.cached && !c.2.refill && c.2.sent.vals.any fun x => x.unsent then s.wantContext e.1 c.1 else s) s) s

/-- Give a request its PSN on a connection, and send it if the window lets it (R271, R283). The answer is the
PSN; `none` = the connection is closed or in ERROR. -/
def Dev.request (s : Dev) (a cid : Nat) (p : Payload) (ar fence : Bool) : Dev × Option Nat :=
  match s.conn a cid with
  | none => (s, none)
  | some c =>
    if 1 < c.state then (s, none)
    else
      let e : Sent := { payload := p, fence, ar := ar || fence, at_ := s.clock, unsent := true }
      let s := s.setConn a cid { c with nextPsn := psnNext c.nextPsn, sent := c.sent.put c.nextPsn e }
      ((s.wantContext a cid).pump a cid, some c.nextPsn)

/-- Start opening a connection: its context, its initial PSN from the TRNG, and OPEN on CID 0 (R279, R280). -/
def Dev.openConn (s : Dev) (a cid purpose lane prio : Nat) (relaxed : Bool) : Dev :=
  if s.assocUp a && !(s.assoc a).conns.has cid && s.connRoom cid then
    let room := if pinned cid then some s else s.ctxRoom (ctxSet a cid)
    match room with
    | none => s
    | some s =>
      let w := s.get Reg.TWT.WIN.WINDOW
      let (r, s) := s.random
      let psn := r % 2 ^ 32
      let rate := s.lineRate a cid
      let s := s.setConn a cid { state := 0, opening := true, relaxed, purpose, window := w, lane, prio,
                                 context := s.freeContext, nextPsn := psn, una := psn, rc := rate, rt := rate,
                                 used := s.clock }
      (s.request a 0 (.open cid relaxed purpose w lane prio psn) false false).1
  else s

/-- Close a connection at this end: CLOSE tells the peer (R271, R279). -/
def Dev.closeConn (s : Dev) (a cid : Nat) : Dev :=
  match s.conn a cid with
  | none => s
  | some c =>
    let s := s.delConn a cid
    if s.assocUp a ∧ cid ≠ 0 ∧ !c.opening then (s.request a 0 (.close c.peerCid) false false).1 else s

/-- A request on a connection of a fixed CID, opened on first use, and again when it
is in ERROR (R279; log entry 31). -/
def Dev.requestOn (s : Dev) (a cid purpose lane prio : Nat) (relaxed : Bool) (p : Payload)
    (ar fence : Bool) : Dev × Option Nat :=
  let s := match s.conn a cid with
    | some c => if c.state = 2 ∧ s.assocUp a then (s.closeConn a cid).openConn a cid purpose lane prio relaxed else s
    | none => s.openConn a cid purpose lane prio relaxed
  s.request a cid p ar fence

/-- A connection's UNA: the lowest PSN not resolved (R268). -/
def Conn.advance (c : Conn) : Conn :=
  match c.inOrder with
  | e :: _ => { c with una := e.1 }
  | [] => { c with una := c.nextPsn }

/-- A PSN is resolved (R283): it leaves the window, which lets further requests go. -/
def Dev.resolve (s : Dev) (a cid psn : Nat) : Dev :=
  match s.conn a cid with
  | none => s
  | some c => (s.setConn a cid ({ c with sent := c.sent.del psn }).advance).pump a cid

/-- The PSN that an ACK names: below it every PSN is executed and its answer due (R290). -/
def Conn.ackPsn (c : Conn) : Nat :=
  c.deferred.keys.foldl (fun m k => if k ≠ m ∧ psnDist k m < 2 ^ 31 then k else m) c.exp

/-- SACK of an ACK (R290). -/
def Conn.sack (c : Conn) : Nat :=
  (List.range 32).foldl (fun m i =>
    let p := (c.ackPsn + 1 + i) % 2 ^ 32
    let done := c.executed.has p || (p != c.exp && decide (psnDist p c.exp < 2 ^ 31))
    if done && !c.deferred.has p then m + 2 ^ i else m) 0

/-- Send an ACK (R289, R290): unsequenced, in the control class. -/
def Dev.sendAck (s : Dev) (a cid : Nat) : Dev :=
  match s.conn a cid with
  | none => s
  | some c =>
    (s.setConn a cid { c with unacked := 0, ceCnt := 0, pktCnt := 0 }).transmit
      { assoc := a, cid, psn := 0, payload := .ack c.ackPsn c.sack c.ceCnt c.pktCnt c.lastTs, flags := {}, prio := 2 }

/-- Send a NAK (R273, R290) to the CID that the refused packet came from, with the TS of that packet. -/
def Dev.sendNak (s : Dev) (a : Nat) (h : RxHdr) (psn code rnr target gen : Nat) : Dev :=
  (s.transmit { assoc := a, cid := h.cid, psn := 0, payload := .nak psn code rnr target gen h.ts, flags := {}, prio := 2, reply := some h.srcCid }).count
    Reg.TWT.NAK_TX.COUNT Reg.TWT.NAK_TX.SAT 1 (Ev.plain 0x1DC)

/-- The answer of an executed request is due now: an ACK covers it (R309, R332). -/
def Dev.ackLater (s : Dev) (a cid psn : Nat) : Dev :=
  match s.conn a cid with
  | none => s
  | some c => if c.deferred.has psn then (s.setConn a cid { c with deferred := c.deferred.del psn }).sendAck a cid else s

/-- Records a LANE_REC holds at most (R270). -/
def Dev.laneMax (s : Dev) : Nat :=
  (s.get Reg.TWT.CFG.MTU - if s.bit Reg.TWT.CFG.IPV6 then 104 else 84) / 80

end Sys2Proof.Machine
end

