-- ==== Sys2Proof/Machine/RingCore.lean ====
section
/-! DEFINITION. CMD, the common part of every ring command: the taken command, its start and order (R399, R400),
the issuer's authority (R402), completion, its signal and its record (R395–R398, R414); and MSI-X messages (R419). -/

namespace Sys2Proof.Machine

def Dev.msix (s : Dev) (f : Nat) : Msix := s.fco.msix.getD f {}
def Dev.setMsix (s : Dev) (f : Nat) (m : Msix) : Dev :=
  { s with fco := { s.fco with msix := s.fco.msix.putD f m {} } }

/-- Vectors of a function's table (R480, R481). -/
def vectorsOf (f : Nat) : Nat := if f = 64 then 2048 else 64

/-- Why a message toward a function is dropped (R419), first that holds in the order 4, 6, 7, 5 (log entry 21). -/
def Dev.msixDrop (s : Dev) (f v : Nat) : Option Nat :=
  match s.headOfFunc f with
  | none => some 4
  | some H => if !s.linkUp H then some 6
    else if !(s.msix f).enable then some 7
    else if vectorsOf f ≤ v then some 5 else none

/-- Send an MSI-X message, or hold it pending while its vector is masked. -/
def Dev.msixSend (s : Dev) (f v : Nat) : Dev :=
  let m := s.msix f
  if m.fmask || !m.unmasked.has v then s.setMsix f { m with pba := m.pba.put v () } else s.send (.msix f v)

/-- An MSI-X message of a block other than FCO: not sent where R419 says it cannot be. -/
def Dev.msixSignal (s : Dev) (f v : Nat) : Dev :=
  match s.msixDrop f v with | some _ => s | none => s.msixSend f v

def Dev.ring (s : Dev) (f r : Nat) : Ring := s.rings.getD (f * 16 + r) {}
def Dev.setRing (s : Dev) (f r : Nat) (x : Ring) : Dev := { s with rings := s.rings.putD (f * 16 + r) x {} }

/-- Running rings of a function (R388). -/
def Dev.ringsOf (s : Dev) (f : Nat) : Nat :=
  (s.rings.list.filter fun e => e.1 / 16 == f && e.2.state != 0).length

/-- Rings a function may hold: CMD.RQ.COUNT (R388). -/
def rqReset (f : Nat) : Nat := if f = 64 then 16 else 15
def Dev.ringCount (s : Dev) (f : Nat) : Nat := s.rq.getD f (rqReset f)

/-- The taken command of an issuer. -/
def Dev.takenOf (s : Dev) (i : Issuer) : Option Taken :=
  (s.ring i.func i.ring).taken.find? fun t => t.tag == i.tag

/-- What commands hold device-wide while they run (R400): regions, key slots, engines, firmware targets. -/
def resRegion (r : Nat) : Nat := r
def resSlot (k : Nat) : Nat := 0x10000 + k
def resEngine (e : Nat) : Nat := 0x20000 + e
def resTarget (t : Nat) : Nat := 0x30000 + t
/-- LOG_READ and LOG_CLEAR run one at a time (R440). -/
def resLog : Nat := 0x40000

/-- Something is held by a started command. -/
def Dev.resBusy (s : Dev) (res : List Nat) : Bool :=
  s.rings.list.any fun e => e.2.taken.any fun t => t.started && t.holds.any fun r => res.contains r

/-- An earlier command that names the same has been taken and not completed (R400). -/
def Dev.resBefore (s : Dev) (t : Taken) (res : List Nat) : Bool :=
  s.rings.list.any fun e => e.2.taken.any fun u => decide (u.order < t.order) && u.wants.any fun r => res.contains r

/-- A taken command may start: its opcode, its FENCE (R399), and what it names is free and its turn has come (R400). -/
def Dev.mayStart (s : Dev) (i : Issuer) (opcode : Nat) (res : List Nat) : Bool :=
  match s.takenOf i with
  | none => false
  | some t => t.opcode == opcode && !t.started &&
      (!t.fence || (s.ring i.func i.ring).taken.all fun u => decide (t.order ≤ u.order)) && !s.resBusy res && !s.resBefore t res

/-- Change the first element that satisfies a test. -/
def updFirst {α : Type} (p : α → Bool) (f : α → α) : List α → List α
  | [] => []
  | a :: l => if p a then f a :: l else a :: updFirst p f l

/-- Mark a taken command started. -/
def Dev.start (s : Dev) (i : Issuer) (kind named : Nat) (res : List Nat) : Dev :=
  let x := s.ring i.func i.ring
  let l := updFirst (fun t => t.tag == i.tag) (fun t => { t with started := true, kind, named, holds := res }) x.taken
  s.setRing i.func i.ring { x with taken := l }

/-- A CMD event with the payload of R414. -/
def cmdEv (id : Nat) (writes : Bool) (f gring opcode status named tag detail r0 : Nat) : Ev :=
  Ev.make id writes (opcode + status * 256 + named % 65536 * 65536)
    [(1, 1, f), (2, 2, gring), (8, 2, tag), (10, 1, detail), (11, 8, r0)]

/-- Signal the unsignalled completions of a ring (R398). -/
def Dev.signalRing (s : Dev) (f r : Nat) : Dev :=
  let x := s.ring f r
  (s.setRing f r { x with unsignalled := 0 }).msixSignal f x.msix

/-- The ring once a command has left it: a written completion advances the CQ, and a DRAINING ring that owes none is DISABLED (R390,
R393, R395). -/
def Ring.leave (x : Ring) (tag now : Nat) (write : Bool) : Ring :=
  let left := x.taken.eraseP fun u => u.tag == tag
  let nxt := (x.cqTail + 1) % 2 ^ x.cqLog2
  let y : Ring := if write then
      { x with taken := left, cqTail := nxt, phase := if nxt = 0 then !x.phase else x.phase
               unsignalled := x.unsignalled + 1
               firstUnsig := if x.unsignalled = 0 then now else x.firstUnsig }
    else { x with taken := left }
  if y.state == 2 && left.isEmpty then { y with state := 0 } else y

/-- A completion of the command is written: neither it nor its ring is muted, the ring is RUNNING or DRAINING, and no flush has taken the
links down (R389, R393, R401). -/
def writesCompletion (x : Ring) (t : Taken) (down : Bool) : Bool := !down && !x.mute && !t.mute && (x.state == 1 || x.state == 2)

/-- The entry of a completion (R395). -/
def Dev.cqEntry (s : Dev) (i : Issuer) (status detail r0 r1 : Nat) : CqEntry :=
  let x := s.ring i.func i.ring
  { tag := i.tag, sqHead := x.sqHead, status, detail, gring := x.gring, result0 := r0, result1 := r1, tnow := s.tnow, phase := x.phase }

/-- The command leaves its ring; its completion is written and, where R398 has it so, signalled. -/
def Dev.ringAnswer (s : Dev) (i : Issuer) (t : Taken) (status detail r0 r1 : Nat) : Dev :=
  let x := s.ring i.func i.ring
  let write := writesCompletion x t s.psq.linksDown
  let d := s.setRing i.func i.ring (x.leave i.tag s.clock write)
  let d := if write then d.send (.completion i.func i.ring (s.cqEntry i status detail r0 r1)) else d
  if write && x.irqEn && (t.irq || x.coalCnt == 0 || decide (x.coalCnt ≤ x.unsignalled + 1)) then d.signalRing i.func i.ring else d

/-- The counters and the event of a completion (R396, R397, R414): `ev` gives the event of an ID. -/
def Dev.tellCompletion (s : Dev) (status kind : Nat) (ev : Nat → Bool → Ev) : Dev :=
  let s := s.count48 Reg.CMD.CMDS_LO.COUNT Reg.CMD.CMDS_HI.COUNT 1 (Ev.plain 0x229)
  if status < 16 then (if kind = 1 then s else s.raise (ev 0x228 (kind == 0)))
  else
    let s := s.count Reg.CMD.REFUSED.COUNT Reg.CMD.REFUSED.SAT 1 (Ev.plain 0x22A)
    if status = 0x1B then
      (s.count Reg.CMD.DMA_ERR.COUNT Reg.CMD.DMA_ERR.SAT 1 (Ev.plain 0x22A)).raise (ev 0x223 true)
    else if status = 0x15 then s.raise (ev 0x224 true)
    else if kind = 2 ∧ (status = 0x18 ∨ status = 0x16) then s
    else s.raise (ev 0x225 true)

/-- A command completes (R395–R398, R414): its entry is written unless the ring writes none, it is signalled,
counted and recorded. `addr` is the failing host address of a DMA_ERROR. -/
def Dev.completeAt (s : Dev) (i : Issuer) (status detail r0 r1 addr : Nat) : Dev :=
  match s.takenOf i with
  | none => s
  | some t =>
    let gring := (s.ring i.func i.ring).gring
    (s.ringAnswer i t status detail r0 r1).tellCompletion status t.kind fun id w =>
      cmdEv id w i.func gring t.opcode status t.named i.tag detail (if addr = 0 then r0 else addr)

def Dev.complete (s : Dev) (i : Issuer) (status detail r0 r1 : Nat) : Dev := s.completeAt i status detail r0 r1 0

/-- Codes of R396. -/
def cSuccess : Nat := 0x00
def cSuccessLocal : Nat := 0x01
def cQuota : Nat := 0x02
def cRejected : Nat := 0x03
def cTimeout : Nat := 0x04
def cInvalidOpcode : Nat := 0x10
def cInvalidField : Nat := 0x11
def cBusy : Nat := 0x12
def cNotActive : Nat := 0x13
def cNoResource : Nat := 0x14
def cNotPermitted : Nat := 0x15
def cState : Nat := 0x16
def cStaleGen : Nat := 0x17
def cSignature : Nat := 0x18
def cTwinRefused : Nat := 0x19
def cDataError : Nat := 0x1A
def cDma : Nat := 0x1B
def cPeerRefused : Nat := 0x1C

/-- The issuer's class: M = the management function (R402). -/
def Issuer.isM (i : Issuer) : Bool := i.func == 64

/-- The tenant the issuing LD is bound to (R374, R402). -/
def Dev.tenantOf (s : Dev) (i : Issuer) : Option Nat := s.island.store.bind.get? i.func

/-- Authority over what a tenant owns: class M, or class T of that tenant. -/
def Dev.mayOwn (s : Dev) (i : Issuer) (tenant : Nat) : Bool := i.isM || s.tenantOf i == some tenant

/-- The device serves host CXL.mem: SINGLE, or ACTIVE with no switchover under way (R304, R330). -/
def Dev.serves (s : Dev) : Bool := decide (s.get Reg.MIR.ROLE.ROLE ≤ 1) && s.mirror.switchover.isNone

/-- Carry out a taken command once it may start (R399, R400); otherwise it waits. -/
def Dev.ringCmd (s : Dev) (i : Issuer) (opcode kind named : Nat) (res : List Nat) (f : Dev → Dev) : Dev :=
  if s.mayStart i opcode res then f (s.start i kind named res) else s

/-- A command ends with a refusal code and its DETAIL. -/
def Dev.refuseCmd (s : Dev) (i : Issuer) (status detail : Nat) : Dev := s.complete i status detail 0 0

/-- The checks of a command that names a region, in the order of R400: the first that fails, with its DETAIL. -/
def Dev.regionFault (s : Dev) (i : Issuer) (region gen : Nat) : Option (Nat × Nat) :=
  if 4095 < region then some (cInvalidField, 20)
  else match s.regions.get? region with
  | none => some (cState, 0)
  | some r => if !s.mayOwn i r.tenant then some (cNotPermitted, 0)
    else if r.gen ≠ gen then some (cStaleGen, 0) else none

end Sys2Proof.Machine
end

