-- ==== Sys2Proof/Machine/Latency.lean ====
section
/-! DEFINITION. Idle latencies (R69, R70, R81, R90–R105), in 1/3696 ns, and the answers to a host: data with DevLoad and
write completions (R75). -/

namespace Sys2Proof.Machine

/-- LCLK and FCLK counts: 1 GHz and 2 GHz (R11, R90). -/
def latOf (l f : Nat) : Nat := 3696 * l + 1848 * f

/-- Rate addition (R69). -/
def rateAdd (rate flit : Nat) : Nat :=
  latNs * (if rate = 6 then (if flit = 2 then 2 else 0) else if rate = 5 then 6 else if rate = 4 then 16 else 0)

/-- Flit time at x16: 2.0, 1.0625 and 2.125 ns (R70). -/
def flit16 (rate : Nat) : Nat := if rate = 6 then 2 * latNs else if rate = 5 then 17 * 231 else 34 * 231

/-- Width addition (R70): the flit time at the head's width less the one at x16. -/
def widthAdd (rate width : Nat) : Nat := if width = 8 then flit16 rate else if width = 4 then 3 * flit16 rate else 0

/-- One flit time at the head's rate and width (R81). -/
def flitTime (rate width : Nat) : Nat := flit16 rate + widthAdd rate width

/-- IDE addition (R81): `n` = flits up to the one that carries the epoch's MAC. -/
def Dev.ideAdd (s : Dev) (H n : Nat) : Nat :=
  if s.get (Reg.HP.LINK_STS.IDE (H / 4) (H % 4)) ≠ 1 then 0
  else if s.bit (Reg.HP.LINK_STS.IDE_CONT (H / 4) (H % 4)) then
    4 * latNs + n * flitTime (s.get (Reg.HP.LINK_STS.RATE (H / 4) (H % 4))) (s.get (Reg.HP.LINK_STS.WIDTH (H / 4) (H % 4)))
  else 4 * latNs

/-- What a head adds to every read and write completion; the place of a request in its MAC epoch is the host's:
a free choice between 1 and the epoch length (R81). -/
def Dev.headAdd (s : Dev) (H : Nat) : Nat × Dev :=
  let rate := s.get (Reg.HP.LINK_STS.RATE (H / 4) (H % 4))
  let (k, s) := s.choose (max 1 (s.head H).epochLen)
  (rateAdd rate (s.get (Reg.HP.LINK_STS.FLIT (H / 4) (H % 4))) +
    widthAdd rate (s.get (Reg.HP.LINK_STS.WIDTH (H / 4) (H % 4))) + s.ideAdd H (k + 1), s)

/-- Read latencies of R97 and R98 without the head's additions. -/
def latHit : Nat := latOf 44 80
def latZero (enc : Bool) : Nat := if enc then latOf 44 96 else latOf 44 50
def latEnc (enc : Bool) : Nat := if enc then latOf 0 16 else 0

/-- DRAM read at the channel's rate and timings: 33 DCLK and CL with the page open; tRCD more with it closed; tRP more on a conflict
(R97, R98, R135, R139). -/
def Dev.latDram (s : Dev) (n : Nat) (p : PageState) : Nat :=
  let cl := 33 + s.get (Reg.DC.TIM0.CL n)
  let ck := dclkOf (s.get (Reg.DC.CFG.RATE n))
  match p with
  | .hit => latOf 44 84 + ck * cl
  | .closed => latOf 44 92 + ck * (cl + s.get (Reg.DC.TIM0.TRCD n))
  | .conflict => latOf 44 108 + ck * (cl + s.get (Reg.DC.TIM0.TRCD n) + s.get (Reg.DC.TIM0.TRP n))

/-- Frame-map cache miss: 80 ns (R98). -/
def latFmMiss : Nat := 80 * latNs

/-- Metadata cache miss: read behind the data, 2 DCLK with its row open, else tRCD more (R98). -/
def Dev.latMdMiss (s : Dev) (n : Nat) (rowOpen : Bool) : Nat :=
  dclkOf (s.get (Reg.DC.CFG.RATE n)) * (if rowOpen then 2 else 2 + s.get (Reg.DC.TIM0.TRCD n))

/-- Local-acked write completion (R100 Cases A and B). -/
def latWrite (enc : Bool) : Nat := latOf 42 32 + if enc then latOf 0 26 else 0

/-- The core of a read for a partial write: the read's idle latency less the 56.0 ns of steps 1–4 and 21–24 (R100 Case C). -/
def latCore (read : Nat) : Nat := read - latOf 44 24

/-- Neighbour read (R102) and flash read overhead (R104). -/
def latNeighbour : Nat := 2300 * latNs
def latFlash : Nat := 1900 * latNs

/-- Requests of a head that wait in its RTE queue. -/
def Dev.queued (s : Dev) (H : Nat) : Nat := (s.rteWait.filter fun r => r.head == H).length

/-- Writes a port holds for admission (R55). -/
def Dev.heldAt (s : Dev) (p : Nat) : List Held := s.held.getD p []

/-- DevLoad of a head: 0 Light, 1 Optimal, 2 Moderate, 3 Severe (R75). -/
def Dev.devLoad (s : Dev) (H : Nat) : Nat :=
  let q := s.queued H * 100
  if s.get Reg.HLD.STATUS.STATE = 3 ∨ 256 ≤ (s.heldAt (H / 4)).length then 3
  else if s.loadHigh * 512 < q ∨ s.get Reg.HLD.STATUS.STATE = 2 then 2
  else if q < s.loadLow * 512 then 0 else 1

/-- A head has not been reset since the request arrived. -/
def Dev.live (s : Dev) (r : HostReq) : Bool := (s.head r.head).resets == r.epoch

/-- A line of a COPY has been read: `none` = POISON, which also makes its destination line POISON (R121, R404). -/
def Dev.copyRead (s : Dev) (job idx : Nat) (d : Option LineData) : Dev :=
  { s with copies := s.copies.upd job fun j => { j with ready := j.ready ++ [(idx, d)], bad := j.bad || d.isNone } }

/-- A line of a COPY has been written; the last one completes the command (R404). -/
def Dev.copyWritten (s : Dev) (job : Nat) : Dev :=
  match s.copies.get? job with
  | none => s
  | some j =>
    if j.done + 1 < j.lines then { s with copies := s.copies.put job { j with done := j.done + 1 } }
    else { s with copies := s.copies.del job }.complete j.issuer (if j.bad then cDataError else cSuccess) 0 j.lines 0

/-- Answer a read: with data, or with poison (`none`). -/
def Dev.answerRead (s : Dev) (r : HostReq) (d : Option LineData) (lat : Nat) : Dev :=
  match r.via with
  | .copy job idx => s.copyRead job idx d
  | _ => if s.live r then s.send (.readData r.head r.gld r.tag d (s.devLoad r.head) (r.lat + lat)) else s

/-- Complete a write. -/
def Dev.answerWrite (s : Dev) (r : HostReq) (lat : Nat) : Dev :=
  match r.via with
  | .copy job _ => s.copyWritten job
  | .mailbox => if s.live r then s.send (.mailbox r.gld 0x4302 0 []) else s
  | .host => if s.live r then s.send (.writeDone r.head r.gld r.tag (s.devLoad r.head) (r.lat + lat)) else s

/-- Complete a read with poison or a write with nothing done (R36, R74, R304, R305). -/
def Dev.refuse (s : Dev) (r : HostReq) : Dev :=
  match r.write with | none => s.answerRead r none 0 | some _ => s.answerWrite r 0

end Sys2Proof.Machine
end

