-- ==== Sys2Proof/Machine/MirrorCore.lean ====
section
/-! DEFINITION. MIR, the common part: roles, records built for mirrored writes and packed on the replay lanes,
fences over the lanes, forwarded commands, divergence bits, and leaving lockstep (R303–R317). -/

namespace Sys2Proof.Machine

/-- Roles (R303). -/
def Dev.role (s : Dev) : Nat := s.get Reg.MIR.ROLE.ROLE
def Dev.pstate (s : Dev) : Nat := s.get Reg.MIR.ROLE.PSTATE
def Dev.setPstate (s : Dev) (p : Nat) : Dev :=
  ({ s with mirror := { s.mirror with stay := s.mirror.stay + 1 } } : Dev).set Reg.MIR.ROLE.PSTATE p

/-- The pair is in lockstep (R45, R316). -/
def Dev.lockstep (s : Dev) : Bool := s.role == 1 && s.pstate == 0

/-- The twin's association. -/
def Dev.twin (s : Dev) : Nat := s.get Reg.MIR.CFG.ASSOC

/-- Lease epoch (R334). -/
def Dev.epoch (s : Dev) : Nat := s.wide Reg.MIR.EPOCH_LO.EPOCH Reg.MIR.EPOCH_HI.EPOCH
def Dev.setEpoch (s : Dev) (e : Nat) : Dev := s.setWide Reg.MIR.EPOCH_LO.EPOCH Reg.MIR.EPOCH_HI.EPOCH e

def Dev.lane (s : Dev) (l : Nat) : Lane := s.mirror.lanes.getD l {}
def Dev.setLane (s : Dev) (l : Nat) (x : Lane) : Dev :=
  { s with mirror := { s.mirror with lanes := s.mirror.lanes.putD l x {} } }

/-- Records of a lane not yet acknowledged. -/
def Lane.size (x : Lane) : Nat := x.refused.length + x.queue.length + x.pending.list.foldl (fun n e => n + e.2.length) 0

/-- Records built and not yet acknowledged (R313). -/
def Dev.lagRecords (s : Dev) : Nat := s.mirror.lanes.list.foldl (fun n e => n + e.2.size) 0

/-- A MIR event with the payload of R335. -/
def mirEv (s : Dev) (id : Nat) (writes : Bool) (before : Nat) (lane : Option Nat) (reason member : Nat)
    (gran region : Option Nat) : Ev :=
  Ev.make id writes (reason % 256 + member % 32 * 256)
    [(1, 1, before + 16 * s.role), (2, 1, s.pstate), (3, 1, lane.getD 255), (8, 8, s.epoch),
     (16, 4, s.lagRecords / 16), (20, 5, gran.getD (2 ^ 40 - 1)), (25, 2, region.getD 0xFFFF)]

/-- Change the role: a device that is neither SINGLE nor ACTIVE runs no sweep (R172). -/
def Dev.setRole (s : Dev) (r : Nat) : Dev :=
  let s := ({ s with mirror := { s.mirror with stay := s.mirror.stay + 1 } } : Dev).set Reg.MIR.ROLE.ROLE r
  if r ≤ 1 then s else ({ s with sweeps := .empty } : Dev).setBit Reg.RNT.REKEY_STS.ACTIVE false

/-- Replay lane of a granule: the XOR of its nine 4-bit groups (R310). -/
def laneOf (g : Nat) : Nat := (List.range 9).foldl (fun x i => Nat.xor x (g / 16 ^ i % 16)) 0

/-- CID of a lane (R310). -/
def laneCid (l : Nat) : Nat := 0x10 + l

/-- Records are built: ACTIVE in LOCKSTEP, in DETACHING, or in RESYNC after step 3 (R306, R316, R317, R332). -/
def Dev.forwards (s : Dev) : Bool :=
  s.role == 1 && (s.pstate == 0 || s.pstate == 2 || (s.pstate == 3 && decide (3 ≤ s.mirror.resyncStep)))

/-- A write marks its granule divergent: SOLO and RESYNC (R317); and one admitted before a fence that LC accepts after it, for which no
record is built (R323; log entry 64). -/
def Dev.marks (s : Dev) : Bool := (s.role == 1 && (s.pstate == 1 || s.pstate == 3)) || s.role == 3 || s.role == 4

/-- Set a divergence bit. -/
def Dev.diverge (s : Dev) (g : Nat) : Dev :=
  { s with mirror := { s.mirror with div := s.mirror.div.put g () } }

/-- A command waits for its fences, which holds later records back (R311). -/
def Dev.commandFence (s : Dev) : Bool :=
  s.mirror.fences.any fun f => match f.what with | .command _ => true | _ => false

/-- Build one LANE_REC from the records that wait on a lane (R270, R310): AR when it holds a twin-acked record. -/
def Dev.packLane (s : Dev) (l : Nat) : Dev :=
  let x := s.lane l
  let recs := x.queue.take s.laneMax
  if recs.isEmpty then s
  else
    let r := s.requestOn s.twin (laneCid l) 1 l 1 false (.laneRec l recs) (recs.any fun r => r.waiter.isSome) false
    match r.2 with
    | none => r.1
    | some psn =>
      r.1.setLane l { x with queue := x.queue.drop s.laneMax, pending := x.pending.put psn recs }

/-- Pack a lane until its queue is empty; `n` bounds the packets. -/
def Dev.packAll (s : Dev) (l : Nat) : Nat → Dev
  | 0 => s
  | n + 1 => if (s.lane l).queue.isEmpty then s else (s.packLane l).packAll l n

/-- A lane's window has room for a packet. -/
def Dev.laneRoom (s : Dev) (l : Nat) : Bool :=
  match s.conn s.twin (laneCid l) with
  | some c => c.state == 1 && decide (psnDist c.una c.nextPsn < c.window)
  | none => true

/-- Pack what waits while the window has room and no command waits for its fences. -/
def Dev.pumpLane (s : Dev) (l : Nat) : Dev :=
  if s.commandFence || !s.laneRoom l then s else s.packLane l

/-- A lane queue's level (R410): a record of 10 items comes behind `fill` items. -/
def Dev.laneLevel (s : Dev) (l fill : Nat) : Dev :=
  let q := 16 + l
  let f := Reg.SKQ.LVL_PEND.PEND 0
  if (s.get f).testBit q || !levelMet (s.skein q).level fill 10 then s
  else (s.set f (withBit (s.get f) q)).raise (skqEv 0x291 q 0 (s.skein q) 0)

/-- Records of 10 items that a lane queue of 4,096 items holds (R412); further ones wait in MIR, or are discarded where FULL_MODE says so
(R408, log entry 65). -/
def laneRecords : Nat := 409
def Dev.laneFull (s : Dev) (l : Nat) : Bool := (s.skein (16 + l)).fullMode && decide (laneRecords ≤ (s.lane l).queue.length)

/-- Forward one line of a mirrored region (R306): build its record and queue it, and mark divergence. The answer
is whether a completion that waits for it is held: that of a write admitted in this stay in lockstep (R45). -/
def Dev.mirrorLine (s : Dev) (region : Nat) (r : Region) (line : Nat) (ln : Ln) (waiter : Option HostReq) :
    Dev × Bool :=
  let _ := region
  if !r.mirror then (s, false)
  else
    let g := granOf line
    let s := if s.marks then s.diverge g else s
    if s.forwards then
      let hold := s.lockstep && r.twin && waiter.any fun q => q.stay == some s.mirror.stay
      let l := laneOf g
      let x := s.lane l
      if s.laneFull l then ((List.range 10).foldl (fun s _ => s.skeinDiscard (16 + l)) s, false) else
      let s := s.setLane l { x with advanced := if x.size = 0 then s.clock else x.advanced, queue := x.queue ++ [{ line, gen := r.gen, ln, waiter := if hold then waiter else none }] }
      ((s.laneLevel l (10 * x.queue.length)).pumpLane l, hold)
    else (s, false)

/-- Place a FENCE on all 16 lanes, behind the records queued on each (R311, R313). -/
def Dev.fenceLanes (s : Dev) (what : FenceFor) : Dev :=
  let r := (List.range 16).foldl (fun (acc : Dev × Tab Nat) l =>
      let s := acc.1.packAll l ((acc.1.lane l).queue.length + 1)
      let q := s.requestOn s.twin (laneCid l) 1 l 1 false .fence true true
      match q.2 with
      | some psn => (q.1, acc.2.put l psn)
      | none => (q.1, acc.2)) (s, Tab.empty)
  { r.1 with mirror := { r.1.mirror with fences := r.1.mirror.fences ++ [{ what, waiting := r.2 }] } }

/-- Send a forwarded command on lane 0 in as many fragments as the MTU asks (R272 Case A); the answer is the PSN
of the last. -/
def Dev.sendFragments (s : Dev) (cmd : FwdCmd) : Dev × Option Nat :=
  let room := s.fragRoom
  let n := max 1 (ceilDiv cmd.bytes room)
  (List.range n).foldl (fun acc i =>
    acc.1.requestOn s.twin (laneCid 0) 1 0 1 false (.cmdFwd i (decide (i + 1 = n)) cmd) true false) (s, none)

/-- Forward a command (R307, R309, R311): first the fences; `true` = its completion waits for the standby. -/
def Dev.forward (s : Dev) (cmd : FwdCmd) (i : Option Issuer) (r0 r1 : Nat) (spdm : Option Nat := none) : Dev × Bool :=
  if s.role = 1 ∧ (s.pstate = 0 ∨ (s.pstate = 3 ∧ 3 ≤ s.mirror.resyncStep)) then
    let w : FwdWait := { cmd, issuer := if s.pstate = 0 then i else none, result0 := r0, result1 := r1,
                         spdm := if s.pstate = 0 then spdm else none }
    let s := { s with mirror := { s.mirror with fwdQueue := s.mirror.fwdQueue ++ [w] } }
    (if s.mirror.fwdQueue.length = 1 then s.fenceLanes (.command cmd) else s, s.pstate == 0)
  else (s, false)

/-- Leave lockstep (R316): divergence bits of unacknowledged records, lanes emptied and closed, SOLO; the held
completions are answered, and forwarded commands complete locally (log entry 33). The answer lists the ring
commands and fences that end. -/
def Dev.releaseHeld (s : Dev) (l : List MirRecord) : Dev :=
  l.foldl (fun s r => match r.waiter with | some q => s.answerWrite q (latWrite false) | none => s) s

/-- All records of a lane, oldest first. -/
def Lane.all (x : Lane) : List MirRecord := x.refused ++ x.pending.list.flatMap (·.2) ++ x.queue

/-- Mark the granules of every unacknowledged record divergent (R316 step 2). -/
def Dev.divergeAll (s : Dev) (l : List MirRecord) : Dev := l.foldl (fun s r => s.diverge (granOf r.line)) s

/-- All unacknowledged records. -/
def Dev.unacked (s : Dev) : List MirRecord := (List.range 16).flatMap fun l => (s.lane l).all

/-- Empty the lanes and close their connections (R316 step 3). -/
def Dev.closeLanes (s : Dev) : Dev :=
  let s := { s with mirror := { s.mirror with lanes := .empty } }
  (List.range 16).foldl (fun s l => s.closeConn s.twin (laneCid l)) s

/-- Send a lease message to the referee, member or host (R319). -/
def Dev.leaseSend (s : Dev) (m : LeaseMsg) : Dev :=
  if s.bit Reg.MIR.CFG.REF_HOST then
    match s.refRecv with
    | (i, ptr, ok) :: rest =>
      let s := { s with refRecv := rest }
      if ok then (s.send (.refBuffer i.func ptr m (match s.island.store.refKey with | some k => m.tag k 1 | none => 0))).complete i cSuccess 0 m.epoch 0
      else s.completeAt i cDma 0 0 0 ptr
    | [] => s
  else match s.assocOf (s.get Reg.MIR.CFG.REF_MEMBER) with
    | some a => (s.requestOn a 0x0F 0 0 2 false (.lease m) false false).1
    | none => s

/-- Send a lease request with the next RSEQ, anchored at the OCLK of its sending (R320). -/
def Dev.leaseRequest (s : Dev) (subtype : Nat) (m : LeaseMsg) : Dev :=
  let seq := s.mirror.rseq + 1
  let m := { m with subtype, epoch := s.epoch, rseq := seq % 2 ^ 32, pairId := s.get Reg.MIR.PAIR_ID.ID }
  ({ s with mirror := { s.mirror with rseq := seq, requests := ((s.oclk, m) :: s.mirror.requests).take 64 } }).leaseSend m

/-- Start DETACHING (R316): the active sends DETACH. A resync that fails returns to SOLO with its bits (R333). -/
def Dev.startDetach (s : Dev) : Dev :=
  if s.role = 1 ∧ (s.pstate = 0 ∨ s.pstate = 3) then
    if s.pstate = 3 then
      let m := { s.mirror with resyncStep := 0, fences := [], fwdQueue := [], fwd := .empty, tables := .empty, copies := .empty,
                               keyWait := false }
      let s := ({ s with mirror := m }.setPstate 1).closeLanes
      ((s.set Reg.MIR.RSYNC_STS.PCT 0).setBit Reg.MIR.RSYNC_STS.KEY_WAIT false).setBit Reg.MIR.RSYNC_STS.FULL false
    else (s.setPstate 2).leaseRequest 3 { subtype := 3, epoch := 0, rseq := 0, pairId := 0 }
  else s

end Sys2Proof.Machine
end

