-- ==== Sys2Proof/Machine/Ecc.lean ====
section
/-! DEFINITION. ECS: what a read of a DRAM line finds, error history and device counters, SRAM words, and the poison index (R110–R125,
R499). -/

namespace Sys2Proof.Machine

/-- Byte of FAILED_DEV that names a pair, and the failed device of the pair while erasure decoding is on (R112). -/
def Dev.failedByte (s : Dev) (n p : Nat) : Nat :=
  s.get (if p < 4 then Reg.ECSC.FAILED_DEV0.PAIR n else Reg.ECSC.FAILED_DEV1.PAIR n) / 256 ^ (p % 4) % 256
def Dev.failedDev (s : Dev) (n p : Nat) : Option Nat :=
  let b := s.failedByte n p
  if s.bit Reg.ECS.CFG.ERASURE_EN && decide (128 ≤ b) then some (b % 16) else none

/-- DPA line of a channel line, from the reverse map; all ones where it is none of a resident granule (R130). -/
def Dev.dpaOf (s : Dev) (n cl : Nat) : Nat :=
  match s.populated.idxOf? n with
  | some i => match s.rm.get? (cl / 64 * s.chanCount + i) with
    | some r => if r.fstate = .inUse ∧ r.owned then r.gran * 64 + cl % 64 else 2 ^ 40 - 1
    | none => 2 ^ 40 - 1
  | none => 2 ^ 40 - 1

/-- An ECS event with the payload of R130. -/
def ecsEv (id cls unit flags dev synd place cw dpa inj : Nat) : Ev :=
  { id, synd := BitVec.ofNat 32 synd, writes := true
    payload := packBytes [(0, 1, cls), (1, 1, unit), (2, 1, flags), (3, 1, dev), (4, 4, synd), (8, 5, place), (13, 1, cw),
                          (14, 5, dpa), (19, 5, inj)] }

/-- Count a correction in a channel, and its threshold (R113). The spec names no record class for EV 0x161 and EV 0x16D; the model writes
classes 0 and 1 (DESIGN CHOICE, log entry 59). -/
def Dev.countCe (s : Dev) (n : Nat) : Dev :=
  let s := s.count (Reg.ECSC.CE_CTR.COUNT n) (Reg.ECSC.CE_CTR.SAT n) 1 (Ev.plain 0x16E)
  if s.get (Reg.ECSC.CE_CTR.COUNT n) = s.get (Reg.ECSC.CE_THRESH.THRESH n) then
    s.raise (ecsEv 0x161 0 n 0 15 0 0 0 (2 ^ 40 - 1) 0) else s

/-- Flags of a record about a line of a pair: the pair, INJ, erasure active, and the recovery (R130). -/
def Dev.ecsFlags (s : Dev) (n p : Nat) (inj : Bool) (recovery : Nat) : Nat :=
  p + (if inj then 8 else 0) + (if (s.failedDev n p).isSome then 16 else 0) + 32 * recovery

/-- A device counter stands at THRESH or above (R114): Case A, B or C, each once until the counter has leaked below THRESH, or ERASURE_EN
has been set after a Case C. -/
def Dev.devReached (s : Dev) (n p d cl : Nat) : Dev :=
  let t := s.get Reg.ECS.DEV_THRESH.THRESH
  let ch := s.channel n
  let b := s.failedByte n p
  let told := ch.devTold.getD (p * 10 + d) 0
  let tell := fun (s : Dev) (v : Nat) => let c := s.channel n; s.setChannel n { c with devTold := c.devTold.put (p * 10 + d) v }
  let ev := fun (s : Dev) id cls => ecsEv id cls n (s.ecsFlags n p false 0) d 0 cl 0 (s.dpaOf n cl) 0
  if t = 0 ∨ ch.devCtr.getD (p * 10 + d) 0 < t then s
  else if s.bit Reg.ECS.CFG.ERASURE_EN then
    if told = 2 ∨ (128 ≤ b ∧ b % 16 = d) then s
    else
      let s := tell s 2
      if b < 128 then
        let f := if p < 4 then Reg.ECSC.FAILED_DEV0.PAIR n else Reg.ECSC.FAILED_DEV1.PAIR n
        let s := s.set f (s.get f - b * 256 ^ (p % 4) + (128 + d) * 256 ^ (p % 4))
        s.raise (ev s 0x163 5)
      else s.raise (ev s 0x164 6)
  else if b < 128 ∧ told = 0 then let s := tell s 1; s.raise (ev s 0x16F 10) else s

/-- Advance the device counter of each device that holds a corrected symbol (R113); then every counter of the pair that stands at THRESH is
acted on (R114). -/
def Dev.countDevices (s : Dev) (n p cl : Nat) (devs : List Nat) : Dev :=
  let s := devs.eraseDups.foldl (fun s d =>
    let ch := s.channel n
    s.setChannel n { ch with devCtr := ch.devCtr.put (p * 10 + d) (min 65535 (ch.devCtr.getD (p * 10 + d) 0 + 1)) }) s
  (List.range 10).foldl (fun s d => s.devReached n p d cl) s

/-- One corrected codeword (R113, R124 Case B): the state, and whether it opened an entry. -/
def Dev.histHit (s : Dev) (n cl c : Nat) (syms : List (Nat × Nat)) (pat : BitVec 160) : Dev × Bool :=
  let key := cl * 4 + c
  let p := s.pairOf n cl
  let devs := (syms.map fun x => x.1 / 2).eraseDups
  let dev := match devs with | [d] => d | _ => 15
  match (s.channel n).hist.get? key with
  | some h =>
    if h.inj && !h.real && !syms.isEmpty then
      let s := s.histPut n key { h with real := true, hits := h.hits + 1 }
      ((s.countCe n).countDevices n p cl devs, true)
    else (s.histPut n key { h with hits := h.hits + 1 }, false)
  | none =>
    if syms.isEmpty then (s, false)
    else
      let s := s.histPut n key { device := dev, syndrome := BitVec.ofNat 32 (syndWord pat), hits := 0 }
      ((s.countCe n).countDevices n p cl devs, true)

/-- The real corrected symbols of a codeword: those that differ from its injected mask (R124). -/
def realSyms (mask : BitVec 160) (inj : Bool) (corr : List (Nat × Nat)) : List (Nat × Nat) :=
  if inj then corr.filter fun x => symOf mask x.1 != x.2 else corr

/-- What a read of a DRAM line finds: accepted, error left in its data, corrected outside a failed device, and the
facts its record carries: syndrome and number of the worst codeword, INJ, symbol positions, counted as real. -/
structure EccResult where
  ok : Bool
  left : LineData
  corrected : Bool
  synd : Nat
  cw : Nat
  inj : Bool
  injSyms : Nat
  real : Bool
  deriving DecidableEq, Repr

/-- The worst of some codewords: the one with the most symbols in error, the lowest of equals (DESIGN CHOICE, log entry 59). -/
def worstWord (pat : Nat → BitVec 160) (l : List Nat) : Nat :=
  (l.foldl (fun (a : Nat × Nat) c =>
    let k := ((List.range 20).filter fun i => symOf (pat c) i != 0).length
    if a.2 < k then (c, k) else a) (l.headD 0, 0)).1

/-- Decode a DRAM line read on channel n with the error pattern of each codeword; history, counters and injection
status follow (R111–R114, R124). The caller handles an uncorrectable line (R117). -/
def Dev.eccRead (s : Dev) (n cl : Nat) (noise : BitVec 640) : Dev × EccResult :=
  let pat := fun c => s.errors.getD (errKey n cl c) 0 ^^^ noise.extractLsb' (160 * c) 160
  let p := s.pairOf n cl
  let failed := s.failedDev n p
  let d := lineDecode failed pat
  let marks := (List.range 4).filterMap fun c => match (s.channel n).hist.get? (cl * 4 + c) with
    | some h => if h.inj then some (c, h.mask) else none
    | none => none
  let maskOf := fun c => match marks.find? fun x => x.1 == c with | some x => (x.2, true) | none => (0, false)
  let worst := worstWord pat (List.range 4)
  let injS := marks.foldl (fun a x => a ||| maskSyms x.2) 0
  let real := if d.ok then d.corr.any fun x => !(realSyms (maskOf x.1).1 (maskOf x.1).2 x.2).isEmpty
    else (List.range 4).any fun c => (List.range 20).any fun i => failed != some (i / 2) && symOf (pat c ^^^ (maskOf c).1) i != 0
  let clean := (List.range 4).all fun c => syndWord (pat c) == 0
  let res : EccResult := { ok := d.ok, left := d.left, corrected := !d.corr.isEmpty, synd := syndWord (pat worst), cw := worst,
                           inj := !marks.isEmpty, injSyms := injS, real }
  if clean then (s, { res with inj := false })
  else if !marks.isEmpty && !real then
    ((s.setBit (Reg.ECSC.INJ_STS.SEEN n) true).raise
      (ecsEv 0x16A 9 n (s.ecsFlags n p true 0) 15 res.synd cl worst (s.dpaOf n cl) injS), res)
  else
    let s := if !marks.isEmpty then s.setBit (Reg.ECSC.INJ_STS.REAL n) true else s
    if d.ok then
      let r := d.corr.foldl (fun (acc : Dev × List Nat) x =>
        let m := maskOf x.1
        let q := acc.1.histHit n cl x.1 (realSyms m.1 m.2 x.2) (pat x.1)
        (q.1, if q.2 then acc.2 ++ [x.1] else acc.2)) (s, [])
      let syms := d.corr.flatMap (·.2)
      let devs := (syms.map fun x => x.1 / 2).eraseDups
      let dev := match devs with | [v] => v | _ => 15
      if r.2.isEmpty then (r.1, res)
      else
        let w := worstWord pat r.2
        (r.1.raise (ecsEv 0x160 0 n (s.ecsFlags n p (!marks.isEmpty) 0) dev (syndWord (pat w)) cl (w + 4 * min 15 syms.length)
          (s.dpaOf n cl) injS), res)
    else (s.count (Reg.ECSC.UE_CTR.COUNT n) (Reg.ECSC.UE_CTR.SAT n) 1 (Ev.plain 0x16E), res)

/-- EV 0x162 with the recovery that was made (R117): 1 poisoned, 2 made ABSENT, 3 rewritten zero, 5 metadata
rebuilt. -/
def Dev.ueRaise (s : Dev) (n cl recovery : Nat) (r : EccResult) : Dev :=
  s.raise (ecsEv 0x162 1 n (s.ecsFlags n (s.pairOf n cl) r.inj recovery) 15 r.synd cl r.cw (s.dpaOf n cl) r.injSyms)

/-- The poison index is full: no pass in progress is a clean one (R122). -/
def Dev.poisonFull (s : Dev) : Dev :=
  { s with channels := s.channels.map fun _ c => { c with cleanPass := false, passFull := true } }

/-- A line becomes POISON: its entry in the poison index (R122, R499). The record of EV 0x16D is of class 1, which the spec does not say
(DESIGN CHOICE, log entry 59). -/
def Dev.poisonAdd (s : Dev) (line cls : Nat) (inj : Bool) : Dev :=
  if s.poison.has line then s
  else if 65536 ≤ s.poison.size then
    (s.poisonFull.setBit Reg.ECS.POISON_IDX.OVF true).raise (ecsEv 0x16D 1 0 0 15 0 0 0 line 0)
  else
    let s : Dev := { s with poison := s.poison.put line { cls, inj } }
    if 65536 ≤ s.poison.size then s.poisonFull else s

/-- A full-line write or a destruction takes a line out of the index. -/
def Dev.poisonDel (s : Dev) (line : Nat) : Dev := { s with poison := s.poison.del line }

/-- Columns of the Hsiao code (R115): the 9-bit vectors of a weight, ascending. -/
def hsiaoWeight (w : Nat) : List Nat := (List.range 512).filter fun v => popCount 9 v == w
def hsiaoColumn (i : Nat) : Nat :=
  if i < 84 then (hsiaoWeight 3).getD i 0 else if i < 128 then (hsiaoWeight 5).getD (i - 84) 0 else 2 ^ (i - 128)

/-- A word of a class is read: `true` = uncorrectable; counted and raised (R115, R116), with the recovery that the record of an
uncorrectable word names. The read that corrects or detects the flip ends it: whether the word is written back the spec does not say
(DESIGN CHOICE, log entry 59). -/
def Dev.sramRead (s : Dev) (target place recovery : Nat) : Dev × Bool :=
  match s.flips.get? (target * 2 ^ 44 + place) with
  | none => (s, false)
  | some (bitA, bitB) =>
    let s := { s with flips := s.flips.del (target * 2 ^ 44 + place) }
    let a := hsiaoColumn bitA
    let b := hsiaoColumn (bitB.getD 0)
    let path := target == flipPath
    let dpa := if target = 0 then place else 2 ^ 40 - 1
    if bitB.isSome then
      let s := if path then s.count Reg.ECS.PATH_UE.COUNT Reg.ECS.PATH_UE.SAT 1 (Ev.plain 0x16E)
        else s.count Reg.ECS.SRAM_UE.COUNT Reg.ECS.SRAM_UE.SAT 1 (Ev.plain 0x16E)
      (s.raise (ecsEv (if path then 0x167 else 0x166) (if path then 4 else 3) target (8 + 32 * recovery) 15 (Nat.xor a b) 0 0 dpa 0), true)
    else
      let cf := if path then Reg.ECS.PATH_CE.COUNT else Reg.ECS.SRAM_CE.COUNT
      let s := s.count cf (if path then Reg.ECS.PATH_CE.SAT else Reg.ECS.SRAM_CE.SAT) 1 (Ev.plain 0x16E)
      (if s.get cf = 4096 then s.raise (ecsEv 0x165 2 target 8 15 a 0 0 dpa 0) else s, false)

end Sys2Proof.Machine
end

