-- ==== Sys2Proof/Machine/Lines.lean ====
section
/-! DEFINITION. Lines and frames: the line cache (R92–R96), DRAM lines with their metadata (R23, R38), POISON,
ages (R219), frame accounting, eviction, demotion and allocation (R221–R228). -/

namespace Sys2Proof.Machine

/-- Words of the metadata line that holds a word: 4 of two entries each; and the channel and line of that metadata line (R138). -/
def mdWords (w : Nat) : List Nat := (List.range 4).map fun i => w / 4 * 4 + i
def Dev.mdPlace (s : Dev) (w : Nat) : Option (Nat × Nat) :=
  (s.chanOf (w / 32)).map fun n => (n, s.get (Reg.DC.MAP_MD.MD_BASE n) * 64 + s.chanLine (w / 32) (w % 32 * 2) / 8)

/-- A word leaves the metadata cache, which one is a free value (log entry 6); a modified one goes to its DRAM line (R3, R116). -/
def Dev.mdcEvict (s : Dev) : Dev :=
  let r := s.choose s.mdc.size
  match s.mdc.list[r.1]? with
  | none => s
  | some (w, m) =>
    let s := { r.2 with mdc := r.2.mdc.del w }
    match m, s.mdPlace w with | true, some x => s.dramTouch x.1 x.2 | _, _ => s

/-- A word is written into the metadata cache of 1,572,864 words (R3); `m` = it is a change of an entry, not a fetch. -/
def Dev.mdcPut (s : Dev) (w : Nat) (m : Bool) : Dev :=
  let s := if s.mdc.has w || decide (s.mdc.size < 1572864) then s else s.mdcEvict
  ({ s with mdc := s.mdc.put w (m || s.mdc.getD w false) } : Dev).sramWrite flipMdc w

/-- The metadata cache holds all 8 entries of a word's line. -/
def Dev.mdcWhole (s : Dev) (w : Nat) : Bool := (mdWords w).all fun x => s.mdc.has x

/-- An uncorrectable metadata line (R117): rewritten from the cache, or with its 8 entries POISON. -/
def Dev.metaUe (s : Dev) (n cl w : Nat) (r : EccResult) : Dev :=
  if s.mdcWhole w then (s.dramTouch n cl).ueRaise n cl 5 r
  else
    let fn := w / 32
    let s := (List.range 8).foldl (fun s i =>
      let k := w / 4 * 8 % 64 + i
      let d := s.dpaOf n (s.chanLine fn k)
      let s := s.setFrameLn fn k { st := .poison }
      if d = 2 ^ 40 - 1 then s else ({ s with lc := s.lc.del d } : Dev).poisonAdd d 0 false) s
    (s.dramTouch n cl).ueRaise n cl 1 r

/-- Demand scrub of a line that a read has corrected (R120): it is written back, unless a newer write has entered the write queue since, and
the other 63 lines of its 4 KiB are queued for patrol. The 63 reads run whatever SCRUB_EN says, which the spec leaves open (DESIGN CHOICE,
log entry 59). -/
def Dev.demandScrub (s : Dev) (n cl : Nat) (overtaken : Bool) : Dev :=
  if s.bit Reg.ECS.CFG.DEMAND_WB then
    let s := if overtaken then s else s.dramTouch n cl
    let c := s.channel n
    s.setChannel n { c with extra := c.extra ++ ((List.range 64).filter fun k => k != cl % 64).map fun k => (cl / 64 * 64 + k, s.clock) }
  else s

/-- A metadata line is fetched into the cache (R98, R117); `noise` = the bit errors with which DRAM returns it. -/
def Dev.mdcFetch (s : Dev) (w : Nat) (noise : BitVec 640) : Dev :=
  let s := match s.mdPlace w with
    | none => s
    | some (n, cl) =>
      let r := s.eccRead n cl noise
      if !r.2.ok then r.1.metaUe n cl w r.2 else if r.2.corrected then r.1.demandScrub n cl false else r.1
  ((mdWords w).filter fun x => !s.mdc.has x).foldl (fun s x => s.mdcPut x false) s

/-- Change the metadata of a DRAM line, in the metadata cache. -/
def Dev.metaWrite (s : Dev) (fn k : Nat) (l : Ln) : Dev :=
  let w := (fn * 64 + k) / 2
  let s := if s.mdc.has w then s else s.mdcFetch w 0
  (s.setFrameLn fn k l).mdcPut w true

/-- Write a DRAM line with its metadata entry. -/
def Dev.dramWrite (s : Dev) (fn k : Nat) (l : Ln) : Dev :=
  let s := s.metaWrite fn k l
  match s.chanOf fn with | some n => s.dramTouch n (s.chanLine fn k) | none => s

/-- A line becomes POISON: its copy in O goes, its DRAM metadata says so, and the index takes it (R121, R122). -/
def Dev.poisonLine (s : Dev) (line cls : Nat) (inj : Bool) : Dev :=
  let e := s.fme (granOf line)
  let s := { s with lc := s.lc.del line }
  let s := if e.tier = .L then s.metaWrite e.loc (line % 64) { st := .poison } else s
  s.poisonAdd line cls inj

/-- A request looks its line's metadata up (R493); a miss fetches the line. The answer says whether it missed; `again` = the lookup has been
counted. -/
def Dev.mdcLook (s : Dev) (fn k : Nat) (again : Bool) (noise : BitVec 640) : Dev × Bool :=
  let w := (fn * 64 + k) / 2
  let count := fun (s : Dev) (lo hi : Field) => if again then s else s.count48 lo hi 1 (Ev.plain 0x090)
  if s.mdc.has w then (count s Reg.MDC.HIT_LO.COUNT Reg.MDC.HIT_HI.COUNT, false)
  else ((count s Reg.MDC.MISS_LO.COUNT Reg.MDC.MISS_HI.COUNT).mdcFetch w noise, true)

/-- A metadata word is read (R116): an uncorrectable modified word makes both its lines POISON, an unmodified one is fetched again. -/
def Dev.mdcRead (s : Dev) (g fn k : Nat) : Dev :=
  let w := (fn * 64 + k) / 2
  let modified := s.mdc.getD w false
  let r := s.sramRead flipMdc w (if modified then 1 else 4)
  if !r.2 then r.1
  else if modified then
    let b := g * 64 + k / 2 * 2
    (r.1.poisonLine b 1 false).poisonLine (b + 1) 1 false
  else
    let s := ({ r.1 with mdc := r.1.mdc.del w } : Dev).mdcFetch w 0
    s.count Reg.MDC.REFETCH.COUNT Reg.MDC.REFETCH.SAT 1 (Ev.plain 0x091)

/-- An uncorrectable frame line found by a reader other than a demand read (R117): CLEAN becomes ABSENT, DIRTY becomes POISON, others are
rewritten as zeros. -/
def Dev.frameUe (s : Dev) (n cl fn k : Nat) (r : EccResult) : Dev :=
  match (s.frameLn fn k).st with
  | .clean => ((s.metaWrite fn k {}).clearErrors n cl).ueRaise n cl 2 r
  | .dirty =>
    let d := s.dpaOf n cl
    (if d = 2 ^ 40 - 1 then s.metaWrite fn k { st := .poison } else s.poisonLine d 0 false).ueRaise n cl 1 r
  | _ => (s.dramTouch n cl).ueRaise n cl 3 r

/-- A line of a frame is read for something else than a host (R117, R120, R140 class 3): corrected lines are scrubbed; an uncorrectable one
is poisoned for a `demand` reader, and otherwise handled as scrub handles it (DEDUCED, log entry 59). -/
def Dev.dramLine (s : Dev) (fn k : Nat) (demand : Bool) : Dev :=
  match s.chanOf fn with
  | none => s
  | some n =>
    let cl := s.chanLine fn k
    let s := s.dramSync n cl fun r => r.read.isSome && decide (r.prio < 30)
    let r := s.eccRead n cl 0
    if !r.2.ok then
      if demand then
        let d := r.1.dpaOf n cl
        (if d = 2 ^ 40 - 1 then r.1.metaWrite fn k { st := .poison } else r.1.poisonLine d 0 false).ueRaise n cl 1 r.2
      else r.1.frameUe n cl fn k r.2
    else if r.2.corrected then
      let s := if r.2.left = 0 then r.1 else r.1.setFrameLn fn k { r.1.frameLn fn k with data := (r.1.frameLn fn k).data ^^^ r.2.left }
      s.demandScrub n cl false
    else r.1

/-- The lines of a frame that are not ABSENT are read. -/
def Dev.frameRead (s : Dev) (fn : Nat) (demand : Bool) : Dev :=
  ((List.range 64).filter fun k => (s.frameLn fn k).st != .absent && (s.frameLn fn k).st != .poison).foldl
    (fun s k => s.dramLine fn k demand) s

/-- The line's copy in O or, failing that, in its frame (R210). -/
def Dev.lineOf (s : Dev) (line : Nat) : Option Ln :=
  match s.lc.get? line with
  | some c => some c.ln
  | none =>
    let e := s.fme (granOf line)
    if e.tier = .L then some (s.frameLn e.loc (line % 64)) else none

/-- State of a line: `none` = not resident. -/
def Dev.stateOf (s : Dev) (line : Nat) : Option LineState := (s.lineOf line).map (·.st)

/-- Set of a line in the line cache: slice and set (R92). -/
def lcSetOf (line : Nat) : Nat := Config.lcSet line % 131072

/-- Ways of a set in its array; and the lines of a slice's write-accept buffer and eviction buffer (R93, R94). -/
def Dev.lcWays (s : Dev) (set : Nat) : List (Nat × CacheLn) :=
  s.lc.list.filter fun e => e.2.place == .array && lcSetOf e.1 == set
def Dev.lcIn (s : Dev) (p : LcPlace) (slice : Nat) : List (Nat × CacheLn) :=
  s.lc.list.filter fun e => e.2.place == p && lcSetOf e.1 / 8192 == slice
def Dev.lcBuffer (s : Dev) (slice : Nat) : List (Nat × CacheLn) := s.lcIn .evict slice

/-- The least recently used of a list of ways. -/
def lruWay : List (Nat × CacheLn) → Option (Nat × CacheLn)
  | [] => none
  | x :: r => match lruWay r with
    | none => some x
    | some y => if x.2.used ≤ y.2.used then some x else some y

/-- The write queue of a frame's channel has no place for a write of the line (R107). -/
def Dev.queueFull (s : Dev) (fn k : Nat) : Bool :=
  match s.chanOf fn with
  | none => false
  | some n => decide (64 ≤ (s.channel n).writes.size) && !(s.channel n).writes.has (s.chanLine fn k)

/-- An eviction buffer's line goes to its DRAM frame, where it stays DIRTY (R94); it waits while the channel's write queue is full (R107). -/
def Dev.lcWriteback (s : Dev) (line : Nat) : Dev :=
  match s.lc.get? line with
  | some c =>
    if c.ln.st = .dirty then
      let e := s.fme (granOf line)
      if s.queueFull e.loc (line % 64) then s
      else
        let r := s.sramRead flipLc line 1
        if r.2 then r.1.poisonLine line 1 false
        else
          let s := { r.1 with lc := r.1.lc.del line }
          if e.tier = .L then s.dramWrite e.loc (line % 64) c.ln else s
    else { s with lc := s.lc.del line }
  | none => s

/-- Move a DIRTY way to its slice's eviction buffer of 32; `none` = the buffer is full (R94, R107). -/
def Dev.lcEvict (s : Dev) (line : Nat) (c : CacheLn) : Option Dev :=
  if 32 ≤ (s.lcBuffer (lcSetOf line / 8192)).length then none
  else some ({ s with lc := s.lc.put line { c with place := .evict, used := s.uses } } : Dev).used

/-- Make room for a DIRTY way of a set: the least recently used DIRTY ways leave while DIRTY_WAYS of the others are DIRTY (R94); `n`
bounds the ways, `none` = the eviction buffer has no room. -/
def Dev.lcDirtyRoom (s : Dev) (set line : Nat) : Nat → Option Dev
  | 0 => some s
  | n + 1 =>
    let ways := (s.lcWays set).filter fun e => e.2.ln.st = .dirty ∧ e.1 ≠ line
    if s.get Reg.LC.CFG.DIRTY_WAYS ≤ ways.length then
      match lruWay ways with | some v => (s.lcEvict v.1 v.2).bind fun s => s.lcDirtyRoom set line n | none => some s
    else some s

/-- The ways that tree pseudo-LRU may name: never the one used last. -/
def plruWays (l : List (Nat × CacheLn)) : List (Nat × CacheLn) :=
  let last := l.foldl (fun m e => max m e.2.used) 0
  if l.length ≤ 1 then l else l.filter fun e => e.2.used != last

/-- Make room for a way: a CLEAN victim is dropped, a DIRTY one goes to the eviction buffer (R94); which of the ways of a kind the
pseudo-LRU tree names, the one used last apart, is a free value (log entry 6). -/
def Dev.lcRoom (s : Dev) (line : Nat) : Option Dev :=
  let ways := (s.lcWays (lcSetOf line)).filter fun e => e.1 ≠ line
  if 12 ≤ ways.length then
    let clean := ways.filter fun e => e.2.ln.st ≠ .dirty
    let of := plruWays (if clean.isEmpty then ways else clean)
    let r := s.choose of.length
    match of[r.1]? with
    | some v => if clean.isEmpty then r.2.lcEvict v.1 v.2 else some { r.2 with lc := r.2.lc.del v.1 }
    | none => some s
  else some s

/-- A line that waits for its way is installed in its set, where room can be made (R93, R94). A cache with fewer lines than a set may hold
needs no victim. -/
def Dev.lcInstall (s : Dev) (line : Nat) : Dev :=
  match s.lc.get? line with
  | none => s
  | some c =>
    if c.place = .array ∨ c.place = .evict then s
    else
      let r := if c.ln.st = .dirty ∧ s.get Reg.LC.CFG.DIRTY_WAYS ≤ s.lc.size then s.lcDirtyRoom (lcSetOf line) line 12 else some s
      match r.bind fun s => if 12 ≤ s.lc.size then s.lcRoom line else some s with
      | some t => { t with lc := t.lc.upd line fun c => { c with place := .array } }
      | none => s

/-- A line enters the line cache at a place, and goes on to its set. -/
def Dev.lcEnter (s : Dev) (line : Nat) (l : Ln) (p : LcPlace) : Dev :=
  ((({ s with lc := s.lc.put line { ln := l, place := p, touch := true, used := s.uses } } : Dev).used).sramWrite flipLc line).lcInstall line

/-- Install a line read from L, N or F (R95); accept a written one in its slice's write-accept buffer (R93). -/
def Dev.lcPut (s : Dev) (line : Nat) (l : Ln) : Dev := s.lcEnter line l .install
def Dev.lcAccept (s : Dev) (line : Nat) (l : Ln) : Dev := s.lcEnter line l .accept

/-- The write-accept buffer of a line's slice is full: 64 entries (R93, R107). -/
def Dev.acceptFull (s : Dev) (line : Nat) : Bool := decide (64 ≤ (s.lcIn .accept (lcSetOf line / 8192)).length)

/-- Installs that waited for an eviction buffer go on, oldest first (R107). -/
def Dev.lcPump (s : Dev) : Dev :=
  (sortBy (fun a b => decide (a.2.used ≤ b.2.used)) (s.lc.list.filter fun e => e.2.place == .accept || e.2.place == .install)).foldl
    (fun s e => s.lcInstall e.1) s

/-- Sets that hold more DIRTY ways than DIRTY_WAYS evict down to it, as far as the eviction buffers have room (R94). -/
def Dev.lcTrim (s : Dev) : Dev :=
  s.lc.list.foldl (fun s e =>
    let ways := (s.lcWays (lcSetOf e.1)).filter fun x => x.2.ln.st = .dirty
    if s.get Reg.LC.CFG.DIRTY_WAYS < ways.length then
      match lruWay ways with | some v => (s.lcEvict v.1 v.2).getD s | none => s
    else s) s

/-- AGE_NOW, and the rank of an entry (R219). -/
def Dev.ageNow (s : Dev) : Nat := s.get Reg.TMG.AGE_NOW.NOW
def Dev.rank (s : Dev) (e : FmEntry) : Nat := min ((s.ageNow + 65536 - e.age) % 65536) 32767

/-- Stamp a resident granule `back` ticks old. -/
def Dev.stamp (s : Dev) (g back : Nat) : Dev :=
  let e := s.fme g
  if e.tier = .F then s else s.setFme g { e with age := (s.ageNow + 65536 - back) % 65536 }

/-- A hit on a line of O: the first since the tick touches the granule (R219). -/
def Dev.lcTouch (s : Dev) (line : Nat) : Dev :=
  match s.lc.get? line with
  | some c =>
    let s := ({ s with lc := s.lc.put line { c with touch := true, used := if c.place = .array then s.uses else c.used } } : Dev).used
    if c.touch then s else s.stamp (granOf line) 0
  | none => s

/-- A line of O is taken from its word: an uncorrectable CLEAN way is dropped, a DIRTY one makes its line POISON (R116). -/
def Dev.lcWord (s : Dev) (line : Nat) : Dev × Option Ln :=
  match s.lc.get? line with
  | none => (s, none)
  | some c =>
    let q := s.sramRead flipLc line (if c.ln.st = .dirty then 1 else 4)
    if !q.2 then (q.1, some c.ln)
    else if c.ln.st = .dirty then (q.1.poisonLine line 1 false, some { st := .poison })
    else ({ q.1 with lc := q.1.lc.del line }, none)

/-- A host reads a line of O, which touches it (R219). -/
def Dev.lcRead (s : Dev) (line : Nat) : Dev × Option Ln := let r := s.lcWord line; (r.1.lcTouch line, r.2)

/-- A line is read where it stands, in O or in its frame, for something else than a host: what the read finds happens (R116, R117, R120),
and the line is then as `lineOf` shows it. -/
def Dev.lineRead (s : Dev) (line : Nat) (demand : Bool) : Dev :=
  let s := (s.lcWord line).1
  let e := s.fme (granOf line)
  if s.lc.has line ∨ e.tier ≠ .L then s
  else match (s.frameLn e.loc (line % 64)).st with
    | .clean => s.dramLine e.loc (line % 64) demand
    | .dirty => s.dramLine e.loc (line % 64) demand
    | _ => s
def Dev.linesRead (s : Dev) (line count : Nat) (demand : Bool) : Dev :=
  (List.range count).foldl (fun s k => s.lineRead (line + k) demand) s

/-- Frames of a channel in service; frames in use or lent on it (R221, R228). -/
def Dev.framesOf (s : Dev) (n : Nat) : Nat := if s.chanUp n then s.get (Reg.DC.MAP_FA.FA_TOP n) else 0
def Dev.usedOn (s : Dev) (i : Nat) : List (Nat × RmEntry) :=
  s.rm.list.filter fun e => e.1 % s.chanCount == i && e.2.fstate != .free

/-- First frames of the runs lent to other members: 16,384 frames each (R348). -/
def Dev.lentRuns (s : Dev) : List Nat :=
  s.round.lend.list.filterMap fun e => e.2.member.map fun _ => e.2.frame

/-- Frames of a lent run on the channel of index i (R348). -/
def lentOn (c start i : Nat) : Nat := (16384 + c - 1 - (i + c - start % c) % c) / c
def Dev.freeOn (s : Dev) (i n : Nat) : Nat :=
  s.framesOf n - (s.usedOn i).length - (s.lentRuns.foldl (fun a r => a + lentOn s.chanCount r i) 0)

/-- Channels with their index. -/
def Dev.indexed (s : Dev) : List (Nat × Nat) := (List.range s.chanCount).zip s.populated

/-- FREE, LENT and L_FRAMES (R238). -/
def Dev.freeFrames (s : Dev) : Nat := s.indexed.foldl (fun a x => a + s.freeOn x.1 x.2) 0
def Dev.lentFrames (s : Dev) : Nat := 16384 * s.lentRuns.length
def Dev.lFrames (s : Dev) : Nat := s.populated.foldl (fun a n => a + s.framesOf n) 0 - s.lentFrames

/-- Quotas and uses of a tenant (R228). -/
def Dev.quota (s : Dev) (t : Nat) : TenantQuota := s.quotas.getD t {}
def Dev.qsumL (s : Dev) : Nat := s.quotas.list.foldl (fun a e => a + e.2.lQuota) 0
def Dev.useL (s : Dev) (t : Nat) : Nat :=
  (s.rm.list.filter fun e => e.2.fstate == .inUse && e.2.owned && e.2.tenant == t).length
def Dev.ownerOf (s : Dev) (g : Nat) : Nat := match s.regionAt g with | some r => r.2.tenant | none => 0
def Dev.useN (s : Dev) (t : Nat) : Nat :=
  (s.fm.list.filter fun e => (e.2.tier == .N || e.2.tier == .staged) && s.ownerOf e.1 == t).length
def Dev.pinned (s : Dev) (t : Nat) : Nat := (s.fm.list.filter fun e => e.2.pin && s.ownerOf e.1 == t).length

/-- A TMG event with the payload of R239. -/
def tmgEv (id chan tenant synd gran old new : Nat) (writes : Bool) : Ev :=
  Ev.make id writes synd [(1, 1, chan), (2, 2, tenant), (8, 5, gran), (13, 4, old), (17, 4, new)]
def tmgPlain (id : Nat) : Ev := tmgEv id 255 65535 0 (2 ^ 40 - 1) 0 0 true

/-- OVERCOMMIT after a change of L_FRAMES or QSUM_L (R228): set where L_FRAMES has fallen (`fell`) below QSUM_L + 4,096, and clear once it
is there again. -/
def Dev.overcommit (s : Dev) (fell : Bool) : Dev :=
  let was := s.bit Reg.TMG.STS.OVERCOMMIT
  let o := decide (s.lFrames < s.qsumL + 4096) && (was || fell)
  let s := s.setBit Reg.TMG.STS.OVERCOMMIT o
  if o ∧ !was then s.raise (tmgPlain 0x176) else s

/-- The in-service channel with the most free frames, the lowest of equals (R221): its index. -/
def mostFree (s : Dev) : List (Nat × Nat) → Option (Nat × Nat)
  | [] => none
  | x :: r => match mostFree s r with
    | none => if 0 < s.freeOn x.1 x.2 then some (x.1, s.freeOn x.1 x.2) else none
    | some y => if y.2 ≤ s.freeOn x.1 x.2 ∧ 0 < s.freeOn x.1 x.2 then some (x.1, s.freeOn x.1 x.2) else some y

/-- The lowest frame of a channel from `lo` on that is neither used nor lent; `n` bounds the lent runs passed. -/
def Dev.freeFrom (s : Dev) (used : Tab Unit) (i : Nat) : Nat → Nat → Nat
  | 0, lo => lo * s.chanCount + i
  | n + 1, lo =>
    let f := Tab.firstFreeFrom lo (used.list.filter fun e => decide (lo ≤ e.1))
    let fn := f * s.chanCount + i
    match s.lentRuns.find? fun r => decide (r ≤ fn) && decide (fn < r + 16384) with
    | none => fn
    | some r => s.freeFrom used i n ((r + 16384 - i + s.chanCount - 1) / s.chanCount)

/-- A free frame of a channel; which of them is a free value (log entry 7): the first at or after a free point, else the lowest. -/
def Dev.someFree (s : Dev) (i : Nat) : Nat :=
  let used : Tab Unit := (s.usedOn i).foldl (fun t e => t.put (e.1 / s.chanCount) ()) .empty
  let top := s.framesOf (s.populated.getD i 0)
  let fn := s.freeFrom used i (s.lentRuns.length + 1) (Config.pick s.fresh % max top 1)
  if fn / s.chanCount < top then fn else s.freeFrom used i (s.lentRuns.length + 1) 0

/-- A usable free frame: the last 4,096 are for demand fills and write-allocations (R221). -/
def Dev.freeFrame (s : Dev) (demand : Bool) : Option Nat :=
  if !demand ∧ s.freeFrames ≤ 4096 then none
  else (mostFree s s.indexed).map fun x => s.someFree x.1

/-- Give a frame back: its lines and reverse-map entry go. -/
def Dev.freeFn (s : Dev) (fn : Nat) : Dev :=
  ({ s with rm := s.rm.del fn, frames := s.frames.filter fun k _ => k / 64 != fn } : Dev).rmTouch fn

/-- A granule waits for the rebuild of its frame-map line (R234), or of a lost channel that held its line or its frame (R236). -/
def Dev.rebuilding (s : Dev) (g : Nat) : Bool :=
  (s.mapLost.has (g / 8) && !s.fmc.has (g / 8)) ||
  (s.bit Reg.TMG.STS.REBUILD &&
   ((!s.fmsDone && !s.fmc.has (g / 8) && s.populated[g / 8 % s.chanCount]? == some (s.get Reg.TMG.STS.LOST_CH)) ||
    (let e := s.fme g
     e.tier == .L && (match s.chanOf e.loc with | some n => !s.chanUp n | none => true))))

/-- The rebuild of a drive stands at an index of the granule's data or tags (R205). -/
def Dev.driveRebuilding (s : Dev) (g : Nat) : Bool :=
  s.rebuild.list.any fun e => e.2.cursor == homeIndex s.imageN g && (e.1 == homeSlot s.imageN g || e.1 == tagSlot s.imageN g)

/-- An L frame is an eviction candidate, PEND apart (R226). -/
def Dev.idleFrame (s : Dev) (e : RmEntry) : Bool :=
  e.fstate == .inUse && e.owned && !e.pin && !e.cnt && !s.destages.has e.gran && !s.learns.has e.gran &&
  !s.rebuilding e.gran && !s.driveRebuilding e.gran &&
  !(match s.regionAt e.gran with | some r => s.destroys.has r.1 | none => false)

/-- Frames charged to tenants that satisfy `p`, oldest first: rank falling, then frame number (R219, R226). -/
def olderFrame (s : Dev) (a b : Nat × RmEntry) : Bool :=
  let ra := s.rank (s.fme a.2.gran); let rb := s.rank (s.fme b.2.gran)
  decide (rb < ra) || (ra == rb && decide (a.1 < b.1))
def Dev.byAge (s : Dev) (p : Nat → Bool) : List (Nat × RmEntry) :=
  sortBy (olderFrame s) (s.rm.list.filter fun e => s.idleFrame e.2 && p e.2.tenant)

/-- The oldest candidate; those skipped for PEND are counted (R233). -/
def Dev.oldest (s : Dev) (p : Nat → Bool) : Dev × Option (Nat × RmEntry) :=
  let l := s.byAge p
  let skip := (l.takeWhile fun e => (s.fme e.2.gran).pend).length
  let c := l.find? fun e => !(s.fme e.2.gran).pend
  if c.isSome && decide (0 < skip) then
    (s.count Reg.TMG.SKIP_PEND.COUNT Reg.TMG.SKIP_PEND.SAT skip (tmgPlain 0x17D), c)
  else (s, c)

/-- Count an eviction of a tenant's frame (R238). -/
def Dev.countEvict (s : Dev) (t : Nat) : Dev :=
  let s := s.count48 Reg.TMG.EVICT_LO.COUNT Reg.TMG.EVICT_HI.COUNT 1 (tmgPlain 0x17C)
  let q := s.quota t
  if q.evictSat then s
  else if q.evict + 1 < 2 ^ 31 then { s with quotas := s.quotas.putD t { q with evict := q.evict + 1 } {} }
  else { s with quotas := s.quotas.putD t { q with evictSat := true } {} }.raise (tmgPlain 0x17D)

/-- Association of a lender that is UP. -/
def Dev.lenderUp (s : Dev) (m : Nat) : Option Nat :=
  match s.assocOf m with | some a => if s.assocUp a then some a else none | none => none

/-- Slots of a lender that hold or will hold a copy. -/
def Dev.slotsUsed (s : Dev) (m : Nat) : Tab Unit :=
  s.lbm.list.foldl (fun t e => if e.2.member = m then t.put e.2.lslot () else t) .empty

/-- A free slot of a borrowed loan whose lender is not SLOW and reachable (R348, R354): borrow key and slot. -/
def Dev.freeSlot (s : Dev) : Option (Nat × Nat × Borrow) :=
  s.round.borrow.list.findSome? fun e =>
    let m := e.1 / 1024
    if s.round.slow.has m || (s.lenderUp m).isNone then none
    else ((List.range 16384).find? fun k => !(s.slotsUsed m).has (e.1 % 1024 * 16384 + k)).map fun k => (e.1, k, e.2)

/-- The back-map entry of a granule's loan index, checked (R216). -/
def Dev.checkedLoan (s : Dev) (g : Nat) : Dev × Option (Nat × LbmEntry) :=
  let e := s.fme g
  let bad := ((s.setFme g { e with tier := .F, loc := 0 }).count Reg.TMG.N_STALE.COUNT Reg.TMG.N_STALE.SAT 1 (tmgPlain 0x17D)).raise
    (tmgEv 0x178 255 65535 (2 * 16) g 0 0 true)
  match s.lbm.get? e.loc with
  | some b => if b.valid ∧ b.gran = g then (s, some (e.loc, b)) else (bad, none)
  | none => (bad, none)

/-- Drop an N entry (R226): TIER F, its loan index freed. -/
def Dev.dropN (s : Dev) (g : Nat) : Dev :=
  if (s.fme g).tier = .N then
    let c := s.checkedLoan g
    match c.2 with
    | some (i, _) => (({ c.1 with lbm := c.1.lbm.del i } : Dev)).setFme g { c.1.fme g with tier := .F, loc := 0 }
    | none => c.1
  else s

/-- N candidates of tenants over N_QUOTA, oldest first (R227). -/
def Dev.oldestN (s : Dev) : Option Nat :=
  let l := s.fm.list.filter fun e => e.2.tier == .N && decide ((s.quota (s.ownerOf e.1)).nQuota < s.useN (s.ownerOf e.1))
  (sortBy (fun a b => decide (s.rank b.2 < s.rank a.2) || (s.rank a.2 == s.rank b.2 && decide (a.2.loc ≤ b.2.loc))) l).head?.map (·.1)

/-- CID of the loan connection of an association (log entry 32). -/
def loanCid : Nat := 0x400

/-- The 64 lines of a frame, ABSENT zeros apart. -/
def Dev.frameTab (s : Dev) (fn : Nat) : Tab Ln :=
  (List.range 64).foldl (fun t k => t.putD k (s.frameLn fn k) {}) .empty

/-- Demote an evicted granule to N (R225), if all its conditions hold: the copy leaves for the lender. -/
def Dev.demote (s : Dev) (g fn : Nat) : Option Dev :=
  match s.regionAt g with
  | none => none
  | some (_, r) =>
    if s.bit Reg.TMG.CFG.N_EN ∧ r.slot.isSome ∧ r.policy % 2 = 1 ∧ s.staged.firstFree < 256 ∧ s.lbm.firstFree < 2 ^ 27 then
      let s := match s.freeSlot with
        | some _ => s
        | none => match s.oldestN with | some v => s.dropN v | none => s
      match s.freeSlot with
      | none => none
      | some (key, k, b) =>
        let m := key / 1024
        let idx := s.lbm.firstFree
        match s.lenderUp m with
        | none => none
        | some a =>
          let s := s.frameRead fn false
          let lines := s.frameTab fn
          let st := s.staged.firstFree
          let q := s.requestOn a loanCid 3 0 0 true
            (.write true b.loan b.gen true 64 (k * 4096) g lines) true false
          match q.2 with
          | none => none
          | some psn =>
            let s := q.1.freeFn fn
            let s := { s with
              lbm := s.lbm.put idx { gran := g, member := m, lslot := key % 1024 * 16384 + k, valid := false }
              staged := s.staged.put st { gran := g, loan := idx, lines, assoc := a, psn, gen := b.gen } }
            some (s.setFme g { s.fme g with tier := .staged, loc := st })
    else none

/-- Evict an L frame (R225, R226): demoted, or dropped to F. Its CLEAN lines in O stay (R211). -/
def Dev.evictFrame (s : Dev) (fn : Nat) (e : RmEntry) : Dev :=
  let s := s.countEvict e.tenant
  match s.demote e.gran fn with
  | some t => t
  | none => (s.freeFn fn).setFme e.gran { s.fme e.gran with tier := .F, loc := 0 }

/-- A frame for tenant t by the victim rule (R227); Case D's reclaim of a lent frame is `reclaim`. -/
def Dev.victim (s : Dev) (t : Nat) (demand : Bool) (reclaim : Dev → Option Dev) : Dev × Option Nat :=
  let take := fun (s : Dev) (p : Nat → Bool) =>
    let r := s.oldest p
    match r.2 with
    | some v => (r.1.evictFrame v.1 v.2, some v.1)
    | none => (r.1, none)
  if (s.quota t).lMax ≤ s.useL t then take s (· == t)
  else match s.freeFrame demand with
  | some fn => ({ s with fresh := s.fresh + 1 }, some fn)
  | none =>
    let r := take s fun u => decide ((s.quota u).lQuota < s.useL u)
    match r.2 with
    | some fn => (r.1, some fn)
    | none => match reclaim r.1 with
      | some s => ({ s with fresh := s.fresh + 1 }, s.freeFrame demand)
      | none => if r.1.bit Reg.TMG.STS.OVERCOMMIT then take r.1 fun _ => true else (r.1, none)

/-- The wait of a granule's allocation ends (R222). -/
def Dev.endWait (s : Dev) (g : Nat) : Dev :=
  if s.waits.has g then
    let w := s.waits.del g
    { s with waits := w, fco := if w.list.isEmpty then { s.fco with lastAt := s.fco.lastAt.put 0x175 s.clock } else s.fco }
  else s

/-- Charge a frame to a granule: every line ABSENT (R224). -/
def Dev.assignFrame (s : Dev) (g fn t : Nat) : Dev :=
  let e := s.fme g
  let s := ({ s with rm := s.rm.put fn { gran := g, tenant := t, pin := e.pin, cnt := e.cnt, fstate := .inUse } } : Dev).rmTouch fn
  (s.setFme g { e with tier := .L, loc := fn, age := s.ageNow }).endWait g

/-- An allocation has to wait (R222): counted once, and EV 0x175 where none has waited for 1 ms. -/
def Dev.noteWait (s : Dev) (g : Nat) : Dev :=
  if s.waits.has g then s
  else
    let first := s.waits.list.isEmpty
    let s := ({ s with waits := s.waits.put g () } : Dev).count Reg.TMG.ALLOC_WAIT.COUNT Reg.TMG.ALLOC_WAIT.SAT 1 (tmgPlain 0x17D)
    if first then s.raiseFirst (tmgEv 0x175 255 (s.ownerOf g) 0 g 0 0 true) else s

end Sys2Proof.Machine
end

