-- ==== Sys2Proof/Machine/Seal.lean ====
section
/-! DEFINITION. RNT and the key slots a region names: slot states, opening and sealing a line, tag failures
(R162–R170, R174, R177–R180, R185, R186). -/

namespace Sys2Proof.Machine

/-- A memory key slot. -/
def Dev.slot (s : Dev) (k : Nat) : MemSlot := s.island.store.slots.getD k {}
def Dev.setSlot (s : Dev) (k : Nat) (m : MemSlot) : Dev :=
  { s with island := { s.island with store := { s.island.store with slots := s.island.store.slots.putD k m {} } } }

/-- State of a slot as RNT sees it: under lockout every slot behaves as ZEROISED (R360). -/
def Dev.slotState (s : Dev) (k : Nat) : SlotState :=
  if s.bit Reg.KSL.ISL_STS.LOCKOUT then .zeroised else (s.slot k).st

/-- The material of a slot, and its check value, taken when it is installed (R168). -/
def MemSlot.material (m : MemSlot) : List Nat :=
  (match m.cur with | some k => [k.k1.toNat, k.k2.toNat, k.ktag.toNat] | none => []) ++
    match m.prev with | some k => [k.k1.toNat, k.k2.toNat, k.ktag.toNat] | none => []
def MemSlot.checked (m : MemSlot) : MemSlot := { m with check := Config.slotCheck m.material }

/-- A region's key can be used: plaintext, or its slot is ACTIVE. -/
def Dev.keyed (s : Dev) (r : Region) : Bool := match r.slot with | none => true | some k => s.slotState k == .active

/-- The region is encrypted. -/
def Region.enc (r : Region) : Bool := r.slot.isSome

/-- Material and validity of an epoch of a slot (R170). -/
def MemSlot.mat (m : MemSlot) (e : BitVec 5) : Option KeyMat :=
  if e = m.epoch then m.cur else if e + 1 = m.epoch then m.prev else none

/-- What opening a line gives. -/
inductive Opened
  | data (d : LineData)
  /-- the tag failed; `flag` = TAGGED mismatch or epoch not held -/
  | failed (flag : Bool)
  /-- the slot is EMPTY or ZEROISED -/
  | noKey
  /-- the lanes' check failed with its retry (R178); the slot's check value mismatched, or RNT refused the request (R168, R174) -/
  | lanes
  | undelivered
  deriving DecidableEq, Repr

/-- Open a line as O, L, N or F holds it, for a region (R162–R164, R169, R170). -/
def Dev.openLine (s : Dev) (r : Region) (line : Nat) (l : Ln) : Opened :=
  match r.slot with
  | none => if l.tagged then .failed true else .data l.data
  | some k =>
    if s.slotState k ≠ .active then .noKey
    else if !l.tagged then .failed true
    else match (s.slot k).mat l.epoch with
      | none => .failed true
      | some m => if lineTag m.ktag line l.epoch l.data = l.tag then .data (xtsLine false m.k1 m.k2 line l.data)
        else .failed false

/-- Seal a line for a region under its slot's current epoch (R162, R163); `none` = the slot is not ACTIVE. -/
def Dev.sealLine (s : Dev) (r : Region) (line : Nat) (d : LineData) (st : LineState) : Option Ln :=
  match r.slot with
  | none => some { st, data := d }
  | some k =>
    if s.slotState k ≠ .active then none
    else match (s.slot k).cur with
      | none => none
      | some m =>
        let c := xtsLine true m.k1 m.k2 line d
        let e := (s.slot k).epoch
        some { st, tagged := true, epoch := e, tag := lineTag m.ktag line e c, data := c }

/-- A tag failure on a line from a tier: 0 O, 1 L, 2 N, 3 F (R180). A TAGGED mismatch or an epoch not held raises
EV 0x076 in place of the source's event (log entry 8). `unit` = the lane or core of the job. -/
def Dev.tagFailure (s : Dev) (cls tier line unit : Nat) (r : Region) (l : Ln) (flag : Bool) : Dev :=
  let id := if flag then 0x076 else if tier = 2 then 0x071 else if tier = 3 then 0x072 else 0x070
  (s.count Reg.RNT.TAGFAIL.COUNT Reg.RNT.TAGFAIL.SAT 1 (Ev.plain 0x079)).raise
    (rntEv id cls (if flag then 2 else 0) unit (r.slot.getD 0) l.epoch tier line l.tag true)

/-- EV 0x077 once per region and state change of its slot (R169). -/
def Dev.noKeyAccess (s : Dev) (region cls : Nat) (r : Region) : Dev :=
  if s.island.warned.has region then s
  else ({ s with island := { s.island with warned := s.island.warned.put region () } }).raise
    (rntEv 0x077 cls 0 0 (r.slot.getD 0) 0 0 (2 ^ 40 - 1) 0 true)

/-- A KSL event with the record payload of R386. -/
def kslEv (idx chan op cred result seq obj : Nat) (hash8 : BitVec 64) : Ev :=
  Ev.make (0x080 + idx) true (cred % 65536 + 65536 * result)
    [(1, 1, chan), (2, 2, op), (8, 8, seq), (16, 2, obj), (18, 8, hash8.toNat)]

/-- A KSL event that no signed operation raises: channel 4, internal. -/
def kslPlain (idx obj : Nat) : Ev := kslEv idx 4 0 0xFFFF 0 0 obj 0

/-- Every region that names a slot may warn again: the slot changed state (R169). -/
def Dev.slotChanged (s : Dev) (k : Nat) : Dev :=
  let keep := fun (n : Nat) (_ : Unit) =>
    match s.regions.get? n with | some r => r.slot != some k | none => false
  { s with island := { s.island with warned := s.island.warned.filter keep } }

/-- A slot's sweep ends without being complete. -/
def Dev.sweepDrop (s : Dev) (k : Nat) : Dev :=
  ({ s with sweeps := s.sweeps.del k } : Dev).setBit Reg.RNT.REKEY_STS.ACTIVE (!(s.sweeps.del k).list.isEmpty)

/-- A slot becomes EMPTY (key removal) or ZEROISED. -/
def Dev.clearSlot (s : Dev) (k : Nat) (st : SlotState) : Dev :=
  let m := s.slot k
  ((s.setSlot k { m with st, cur := none, prev := none, next := none, check := 0 }).slotChanged k).sweepDrop k
def Dev.zeroSlot (s : Dev) (k : Nat) : Dev := s.clearSlot k .zeroised

/-- A slot's check value mismatched at delivery (R168). -/
def Dev.checkValueFailed (s : Dev) (k : Nat) : Dev := (s.raise (kslPlain 0x9 k)).zeroSlot k

/-- What becomes of a cipher job before its tag: not delivered, failed in the lanes, or done, with the report of its checks. -/
inductive JobEnd | undelivered | lanes | done
  deriving DecidableEq, Repr

/-- A line job under a memory slot (R168, R174, R177, R178): the request reaches RNT, the slot is delivered, the lanes run. Epoch, tier and
tag are those that its record shows. -/
def Dev.lineJob (s : Dev) (cls : Nat) (sweep encrypts : Bool) (k : Nat) (epoch : BitVec 5) (tier line : Nat) (tag : BitVec 56) :
    Dev × Check × JobEnd :=
  let a := s.rntAsk cls (.memory k) sweep 0
  let c := a.1.takeCheck
  if !a.2 then (a.1, {}, .undelivered)
  else if c.2.slotBad then (c.1.checkValueFailed k, c.2, .undelivered)
  else let l := c.1.laneCheck c.2 cls encrypts k epoch tier line tag; (l.1, c.2, if l.2 then .done else .lanes)

/-- How much the checks lengthen a request: a retry by a time the spec does not give, a second tag computation by 14 FCLK (R178, R179). -/
def Dev.checkTime (s : Dev) (c : Check) (second : Bool) : Nat :=
  (if c.bad then Config.retryTime s.fresh else 0) + if second then latOf 0 14 else 0

/-- Open a line of a region for a client class, from a tier (R162–R164, R169, R170, R177–R180): a plaintext line makes no job. A tag that
mismatches is computed again on a second core: where that matches, the first core goes to its test and the line is released, with bit 2 in
the record of EV 0x073 (DEDUCED, log entry 61). The answer: what opening gave, and what the checks add to the request's time. -/
def Dev.openJob (s : Dev) (cls : Nat) (sweep : Bool) (tier : Nat) (r : Region) (line : Nat) (l : Ln) : Dev × Opened × Nat :=
  match r.slot, s.openLine r line l with
  | some _, .noKey => (s, .noKey, 0)
  | none, .failed flag => (s.tagFailure cls tier line 0 r l flag, .failed flag, 0)
  | none, o => (s, o, 0)
  | some k, o =>
    let j := s.lineJob cls sweep false k l.epoch tier line l.tag
    let c := j.2.1
    match j.2.2, o with
    | .undelivered, _ => (j.1, .undelivered, 0)
    | .lanes, _ => (j.1, .lanes, j.1.checkTime c false)
    | .done, .failed true => (j.1.tagFailure cls tier line (c.lane % 48) r l true, .failed true, j.1.checkTime c false)
    | .done, .failed false => (j.1.tagFailure cls tier line (coreUnit c.core) r l false, .failed false, j.1.checkTime c true)
    | .done, o =>
      if !c.badTag then (j.1, o, j.1.checkTime c false)
      else if c.badSecond then (j.1.tagFailure cls tier line (coreUnit c.core) r l false, .failed false, j.1.checkTime c true)
      else ((j.1.katSend (coreUnit c.core)).raise (rntEv 0x073 cls 4 (coreUnit c.core) k l.epoch tier line l.tag true), o, j.1.checkTime c true)

/-- What sealing a line gives. -/
inductive Sealed
  | line (l : Ln)
  | noKey
  | lanes
  | undelivered
  deriving DecidableEq, Repr

/-- Seal a line for a region in a client class (R162, R163, R177, R178); a plaintext line makes no job. -/
def Dev.sealJob (s : Dev) (cls : Nat) (sweep : Bool) (r : Region) (line : Nat) (d : LineData) (st : LineState) : Dev × Sealed × Nat :=
  match r.slot, s.sealLine r line d st with
  | _, none => (s, .noKey, 0)
  | none, some l => (s, .line l, 0)
  | some k, some l =>
    let j := s.lineJob cls sweep true k l.epoch 0 line 0
    match j.2.2 with
    | .undelivered => (j.1, .undelivered, 0)
    | .lanes => (j.1, .lanes, j.1.checkTime j.2.1 false)
    | .done => (j.1, .line l, j.1.checkTime j.2.1 false)

/-- The island reloads the key slots: a request that needs a key waits; under lockout no key comes (R360). -/
def Dev.reloads (s : Dev) : Bool := s.island.reloading && !s.bit Reg.KSL.ISL_STS.LOCKOUT

/-- A client class is set to no queue entries, no lane or no Keccak core is left, or the key slots are being reloaded: a request of it
waits where it is (R175, R178, R360). -/
def Dev.rntShut (s : Dev) (cls : Nat) : Bool :=
  s.reloads || s.get (Reg.RNT.CLS.DEPTH cls) == 0 || s.get Reg.RNT.STS.LANES_OK == 0 || s.get Reg.RNT.STS.KECCAK_OK == 0

/-- A request of a region's line waits for RNT (R107, R175); the first wait after 1 ms without is told. -/
def Dev.rntWaits (s : Dev) (r : Region) (cls : Nat) : Bool := r.enc && s.rntShut cls
def Dev.noteFull (s : Dev) (r : Region) (cls : Nat) : Dev :=
  let quiet := !s.reloads && match s.rnt.fullAt with | some t => decide (t + fclkMs ≤ s.clock) | none => true
  let s := if s.reloads then s else s.setRnt fun x => { x with fullAt := some s.clock }
  if quiet then s.raise (rntEv 0x07D cls 0 0 (r.slot.getD 0) 0 0 (2 ^ 40 - 1) 0 true) else s

/-- Key fingerprint of an epoch of a slot under the pair secret (R308). -/
def Dev.fingerprint (s : Dev) (m : Option KeyMat) : BitVec 64 :=
  match s.island.store.secret4, m with
  | some p, some k => keyFingerprint p k.k1 k.k2 k.ktag
  | _, _ => 0

/-- Fingerprint of a region's key; 0 for plaintext (R332). -/
def Dev.regionFingerprint (s : Dev) (r : Region) : BitVec 64 :=
  match r.slot with
  | some k => s.fingerprint (s.slot k).cur
  | none => 0

end Sys2Proof.Machine
end

