-- ==== Sys2Proof/Machine/Flash.lean ====
section
/-! DEFINITION. NVH: where a granule lies on flash, reading it, rescue slots, and the drives' service states
(R189–R194, R199–R207), the endurance buckets (R197), and the image header (R193). -/

namespace Sys2Proof.Machine

def Dev.drive (s : Dev) (d : Nat) : Drive := s.drives.getD d {}
def Dev.setDrive (s : Dev) (d : Nat) (x : Drive) : Dev := { s with drives := s.drives.putD d x {} }

/-- Register port of a drive slot. -/
def Dev.portOfDrive (s : Dev) (d : Nat) : Nat := s.imageDrives.getD d 8

/-- A CHN or NVH event with the payload of R209. -/
def nvhEv (id d before after reason status lba gran rescue : Nat) (writes : Bool) : Ev :=
  Ev.make id writes status [(1, 1, d), (2, 1, before + 16 * after), (3, 1, reason), (8, 8, lba), (16, 5, gran), (21, 3, rescue)]
def nvhPlain (id : Nat) : Ev := nvhEv id 255 0 0 0 0 0 (2 ^ 40 - 1) (2 ^ 24 - 1) true

/-- Rescue slot reserved for a granule: drive slot and number (R203). -/
def Dev.rescueOf (s : Dev) (g : Nat) : Option (Nat × Nat) :=
  s.drives.list.findSome? fun e => (e.2.rescueUsed.list.find? fun x => x.2 == g).map fun x => (e.1, x.1)

/-- Free rescue slots of a drive slot. -/
def Dev.rescueFree (s : Dev) (d : Nat) : Nat := s.rescueR - (s.drive d).rescueUsed.size

/-- The drive slot in service with the most free rescue slots, the lowest of equals (R203). -/
def Dev.rescueDrive (s : Dev) : Option Nat :=
  (List.range s.imageN).foldl (fun b d =>
    if s.driveOk d ∧ 0 < s.rescueFree d then
      match b with
      | none => some d
      | some x => if s.rescueFree x < s.rescueFree d then some d else b
    else b) none

/-- A granule is encrypted: its region names a key slot. -/
def Dev.encrypted (s : Dev) (g : Nat) : Bool := match s.regionAt g with | some r => r.2.slot.isSome | none => false

/-- The granule's home drive, and its tag drive if it is encrypted, are in service (R203). -/
def Dev.homeOk (s : Dev) (g : Nat) : Bool :=
  s.driveOk (homeSlot s.imageN g) && (!s.encrypted g || s.driveOk (tagSlot s.imageN g))

/-- Reserve a rescue slot for a granule that needs one and holds none on a drive in service; `false` = none is free. -/
def Dev.reserveRescue (s : Dev) (g : Nat) : Dev × Bool :=
  if s.homeOk g || (match s.rescueOf g with | some (d, _) => s.driveOk d | none => false) then (s, true)
  else
  let s := match s.rescueOf g with
    | some (d, j) => s.setDrive d { s.drive d with rescueUsed := (s.drive d).rescueUsed.del j }
    | none => s
  match s.rescueDrive with
    | none => (s, false)
    | some d =>
      let x := s.drive d
      (s.setDrive d { x with rescueUsed := x.rescueUsed.put x.rescueUsed.firstFree g }, true)

/-- Line byte k of a data LBA's or rescue slot's metadata (*Data LBA metadata byte*). -/
def FlashGran.metaByte (f : FlashGran) (k : Nat) : Nat :=
  let b := fun (x : Bool) (v : Nat) => if x then v else 0
  let aux := if k = 0 then f.tslot else if k ≤ 34 then f.rescue && f.gran.testBit (k - 1) else if k = 35 then f.rescue
    else if k ≤ 51 then !f.rescue && f.rebuildGen.testBit (k - 36) else false
  let l := f.lines.getD k {}
  b l.poison 128 + b l.tagged 64 + b aux 32 + l.epoch.toNat

/-- The 512 bytes of a tag slot (R190, R207). -/
def TagSlot.bytes (t : TagSlot) : List Nat :=
  (List.range 64).flatMap fun k => bytesOf 7 (t.tags.getD k 0).toNat ++
    [if k = 0 then t.rebuildGen % 256 else if k = 1 then t.rebuildGen / 256 % 256 else 0]

/-- Lines of a flash granule with their tags. -/
def flashLines (f : FlashGran) (tags : Tab (BitVec 56)) : Tab Ln :=
  (List.range 64).foldl (fun t k =>
    let l := f.lines.getD k {}
    t.putD k (if l.poison then { st := .poison } else
      { st := .clean, tagged := l.tagged, epoch := l.epoch, tag := if l.tagged then tags.getD k 0 else 0, data := l.data }) {}) .empty

/-- Namespace-2 LBA of a granule's tag slot A or B, and of a rescue slot's. -/
def Dev.tagLba (s : Dev) (g : Nat) (b : Bool) : Nat := 2 * homeIndex s.imageN g + if b then 1 else 0
def Dev.rescueTagLba (s : Dev) (j : Nat) (b : Bool) : Nat :=
  2 * (imageD s.imageN s.imageG + j) + if b then 1 else 0

/-- Namespace-1 LBA of a rescue slot. -/
def Dev.rescueLba (s : Dev) (j : Nat) : Nat := imageBase s.imageN s.imageG + imageD s.imageN s.imageG + j

/-- What the home drive holds at a granule's data LBA. -/
def Dev.homeGran (s : Dev) (g : Nat) : FlashGran := (s.medium (homeSlot s.imageN g)).data.getD (homeIndex s.imageN g) {}

/-- A write of the rebuild in progress, the rebuild's own or a destage's, has reached the granule's data LBA, and the tag slot that its
data LBA names (R205, R207 Cases A and B). -/
def Dev.dataOfRebuild (s : Dev) (g : Nat) : Bool :=
  match s.rebuild.get? (homeSlot s.imageN g) with
  | some b => b.written.has (homeIndex s.imageN g) || ((s.medium (homeSlot s.imageN g)).data.has (homeIndex s.imageN g) && (s.homeGran g).rebuildGen == b.gen)
  | none => false
def Dev.tagsOfRebuild (s : Dev) (g : Nat) : Bool :=
  match s.rebuild.get? (tagSlot s.imageN g) with
  | some b => match (s.medium (tagSlot s.imageN g)).tags.get? (s.tagLba g (s.homeGran g).tslot) with
    | some t => t.rebuildGen == b.gen
    | none => false
  | none => false

/-- A drive slot holds what lies at an index: it is HEALTHY, or its rebuild has passed the index or written it. -/
def Dev.filled (s : Dev) (d i : Nat) (written : Bool) : Bool :=
  match s.rebuild.get? d with
  | some b => decide (i < b.cursor) || written
  | none => s.driveSt d == 2

/-- Where an F read of a granule goes: drive slot, LBA, and whether it is a rescue slot; `none` = no drive can
serve it (R202, R203, R205). A rescue slot gives way to what the rebuild in progress has written in the granule's own place. -/
def Dev.flashPlace (s : Dev) (g : Nat) : Option (Nat × Nat × Bool) :=
  let i := homeIndex s.imageN g
  let home := if s.homeOk g && s.filled (homeSlot s.imageN g) i (s.dataOfRebuild g) &&
      (!s.encrypted g || s.filled (tagSlot s.imageN g) i (s.tagsOfRebuild g)) then
    some (homeSlot s.imageN g, s.dataLba g, false) else none
  match s.rescueOf g with
  | some (d, j) =>
    if s.driveOk d && (match (s.medium d).rescue.get? j with | some f => f.rescue && f.gran == g | none => false) &&
        !(home.isSome && (s.dataOfRebuild g || s.tagsOfRebuild g)) then some (d, s.rescueLba j, true)
    else home
  | none => home

/-- Issue an F read of a granule: its data LBA or rescue slot and, for an encrypted granule, both tag slots at the same time
(R198 step 2, R203). -/
def Dev.readGran (s : Dev) (g : Nat) (p : Nat × Nat × Bool) : Dev :=
  let s := s.nvme p.1 .read 1 p.2.1 1
  if !s.encrypted g then s
  else if p.2.2 then s.nvme p.1 .read 2 (s.rescueTagLba (p.2.1 - s.rescueLba 0) false) 2
  else s.nvme (tagSlot s.imageN g) .read 2 (s.tagLba g false) 2

/-- What the medium holds at a place for a granule, and the TSLOT its metadata shows. -/
def Dev.flashRead (s : Dev) (g d lba : Nat) (rescue : Bool) : Tab Ln × Bool :=
  if rescue then
    let j := lba - s.rescueLba 0
    let f := (s.medium d).rescue.getD j {}
    (flashLines f ((s.medium d).tags.getD (s.rescueTagLba j f.tslot) {}).tags, f.tslot)
  else
    let f := s.homeGran g
    (flashLines f ((s.medium (tagSlot s.imageN g)).tags.getD (s.tagLba g f.tslot) {}).tags, f.tslot)

/-- Learning read of a granule that needs one (R199): issued when it is first counted; it uses only the metadata of the LBA the granule
is read from. -/
def Dev.needsLearning (s : Dev) (g : Nat) : Bool :=
  let e := s.fme g
  s.encrypted g && e.ew && !e.tslotKnown
def Dev.learn (s : Dev) (g : Nat) : Dev :=
  if s.needsLearning g && !s.learns.has g && decide (s.learns.size < 4096) then
    match s.flashPlace g with
    | some (d, lba, _) => { s with learns := s.learns.put g d }.nvme d .read 1 lba 1
    | none => s
  else s

/-- Reserve slots for the counted granules that need one and hold none, in granule order (R203): a drive slot has left service, a
drive has entered it, or a slot has been freed. -/
def Dev.reserveAll (s : Dev) : Dev :=
  s.dirty.keys.foldl (fun s g =>
    let r := s.reserveRescue g
    if r.2 then { r.1 with dirty := r.1.dirty.upd g fun d => { d with rescue := r.1.rescueOf g, stuck := false } }
    else { r.1 with dirty := r.1.dirty.upd g fun d => { d with stuck := true } }) s

/-- A rescue slot whose granule stands in its own place again is freed (R203, R205). -/
def Dev.freeRescue (s : Dev) (g : Nat) : Dev :=
  match s.rescueOf g with
  | some (d, j) => if s.homeOk g then
      (s.setDrive d { s.drive d with rescueUsed := (s.drive d).rescueUsed.del j }).reserveAll else s
  | none => s

/-- A CHN counter saturated; a 48-bit one wrapped. -/
def chnSat : Ev := nvhPlain 0x195
def chnWrap : Ev := nvhPlain 0x190

/-- One byte in the units of a token bucket, and what a bucket gains per FCLK and holds at most (R197). -/
def tokenByte : Nat := 100 * 86400 * 2000000000
def Dev.tokenRate (s : Dev) (d : Nat) : Nat := s.get Reg.CHN.ENDUR.DWPD_CENTI * (s.medium d).cap1 * 4096
def Dev.tokenCap (s : Dev) (d : Nat) : Nat := s.tokenRate d * s.get Reg.CHN.ENDUR.BURST_S * 2000000000

/-- Bring a bucket up to the present (R197). -/
def Dev.refillTokens (s : Dev) (d : Nat) : Dev :=
  let x := s.drive d
  s.setDrive d { x with tokens := min (s.tokenCap d) (x.tokens + s.tokenRate d * (s.clock - x.refilled)), refilled := s.clock }

/-- Pacing applies: RUN, a budget is set (R197), and no allocation waits (R222). -/
def Dev.paced (s : Dev) : Bool := s.get Reg.HLD.STATUS.STATE == 0 && s.waits.list.isEmpty && s.get Reg.CHN.ENDUR.DWPD_CENTI != 0

/-- A write draws its tokens; beyond the budget its bytes are counted (R197). -/
def Dev.drawTokens (s : Dev) (d bytes : Nat) : Dev :=
  if s.get Reg.CHN.ENDUR.DWPD_CENTI = 0 then s
  else
    let s := s.refillTokens d
    let x := s.drive d
    let have_ := x.tokens / tokenByte
    if bytes ≤ have_ then s.setDrive d { x with tokens := x.tokens - bytes * tokenByte }
    else
      let spill := x.excess + (bytes - have_)
      (s.setDrive d { x with tokens := x.tokens - have_ * tokenByte, excess := spill % 1024 }).count48
        Reg.CHN.OVER_LO.COUNT Reg.CHN.OVER_HI.COUNT (spill / 1024) chnWrap

/-- A write finds enough tokens, or is not paced. -/
def Dev.tokensFor (s : Dev) (d bytes : Nat) : Bool :=
  !s.paced || decide (bytes * tokenByte ≤ ((s.refillTokens d).drive d).tokens)

/-- Headers of a medium; of those that verify under internal slot 2, the one with the highest SEQ (R193, R206). -/
def Medium.headers (m : Medium) : List ImgHeader := m.header0.toList ++ m.header1.toList
def Medium.best (key : List Nat) (m : Medium) : Option ImgHeader :=
  (m.headers.filter fun h => h.valid key).foldl (fun b h => match b with
    | none => some h
    | some x => if x.seq < h.seq then some h else some x) none

/-- The key that headers and region-log records verify under: internal slot 2. -/
def Dev.imageKey (s : Dev) : List Nat := s.internalKey 2

/-- No copy carries the magic and layout version; some copy does but none verifies (R200, R206). -/
def Medium.blank (m : Medium) : Bool := m.headers.all fun h => !h.recognised
def Medium.foreign (key : List Nat) (m : Medium) : Bool := (m.best key).isNone && !m.blank

/-- The copy that a header write goes to: the one that does not hold the highest valid SEQ (R193); `true` = copy 1. -/
def Medium.nextCopy (key : List Nat) (m : Medium) : Bool :=
  match m.best key with
  | none => false
  | some b => m.header0 == some b

/-- Write a header copy. -/
def Medium.putHeader (m : Medium) (copy1 : Bool) (h : ImgHeader) : Medium :=
  if copy1 then { m with header1 := some h } else { m with header0 := some h }

/-- Write the image's header on a drive slot, FUA set, once it has the tokens (R193, R197). -/
def Dev.writeHeader (s : Dev) (d : Nat) : Dev :=
  if !s.tokensFor d 65536 then s.setDrive d { s.drive d with headerWait := true }
  else
    let key := s.imageKey
    let m := s.medium d
    let c := m.nextCopy key
    let gen := if s.rebuild.list.isEmpty then 0 else s.image.rebuildGen
    let s := s.setMedium d (m.putHeader c ({ s.image with slot := d, rebuildGen := gen }.sealed key))
    let s := s.setDrive d { s.drive d with headerWait := false }
    (s.drawTokens d 65536).nvme d .writeFua 1 (headerLba c) 16

/-- Write the header on every drive in service, SEQ incremented (R193, R204, R206). -/
def Dev.writeHeaders (s : Dev) (clean : Bool) : Dev :=
  let l := List.range s.imageN
  let mask := fun p => l.foldl (fun a d => if p (s.driveSt d) then withBit a d else a) 0
  let rb := s.rebuild.list.head?
  let h : ImgHeader := { s.image with
    devHash := s.island.deviceHash, seq := s.image.seq + 1, clean, rescueUsed := s.bit Reg.NVH.IMG_STS.RESCUE_USED
    poisonOvf := s.bit Reg.ECS.POISON_IDX.OVF, inService := mask fun st => st == 2 || st == 3, dsc := s.get Reg.HLD.DSC.COUNT
    cfgDigest := s.round.digest, time := s.calNow, rebuilding := mask (· == 3)
    rebuildGen := match rb with | some e => e.2.gen | none => s.image.rebuildGen
    cursor := match rb with | some e => e.2.cursor | none => 0 }
  (l.filter s.driveOk).foldl Dev.writeHeader { s with image := h }

end Sys2Proof.Machine
end

