-- ==== Sys2Proof/Machine/Loans.lean ====
section
/-! DEFINITION. RND, loans as the tiers use them: reclaim by the lender, dropping a copy or a loan by the borrower
(R216, R351–R353). -/

namespace Sys2Proof.Machine

/-- An RND event with the payload of R357. -/
def rndEv (s : Dev) (id member before hops reason loan gen info : Nat) (writes : Bool) : Ev :=
  Ev.make id writes (reason % 16 + member % 32 * 16 + loan % 32768 * 512)
    [(1, 1, member), (2, 1, before + 16 * s.get Reg.RND.STS.STATE), (3, 1, hops),
     (8, 8, s.wide Reg.RND.EPOCH_LO.EPOCH Reg.RND.EPOCH_HI.EPOCH), (16, 4, info), (20, 2, gen)]
def Dev.rndPlain (s : Dev) (id member : Nat) : Ev :=
  rndEv s id member (s.get Reg.RND.STS.STATE) 0 0 0 0 0 true

def Dev.lendOf (s : Dev) (id : Nat) : Lend := s.round.lend.getD id {}

/-- Send a loan message on CID 0 of the association with a member, if it is UP (R350). -/
def Dev.sendLoan (s : Dev) (m : Nat) (msg : LoanMsg) : Dev :=
  match s.lenderUp m with | some a => (s.request a 0 (.loanMsg msg) false false).1 | none => s

/-- A lender reclaims a loan (R351): its generation rises, its frames are FREE, and RECLAIM leaves unless the borrower
asked for it. -/
def Dev.reclaimLoan (s : Dev) (id : Nat) (tell : Bool) : Dev :=
  let e := s.lendOf id
  match e.member with
  | none => s
  | some m =>
    let s := { s with round := { s.round with lend := s.round.lend.put id { e with gen := (e.gen + 1) % 65536, member := none } }
                      frames := s.frames.filter fun k _ => !(decide (e.frame ≤ k / 64) && decide (k / 64 < e.frame + 16384)) }
    let s := if tell then s.sendLoan m { subtype := 5, loan := id, gen := e.gen } else s
    let s := s.count Reg.RND.RECLAIM_CTR.COUNT Reg.RND.RECLAIM_CTR.SAT 1 (s.rndPlain 0x20E 255)
    s.raise (rndEv s 0x20A m (s.get Reg.RND.STS.STATE) 0 0 id ((e.gen + 1) % 65536) 0 true)

/-- The most recently granted loan (R351). -/
def latestLoan : List (Nat × Lend) → Option (Nat × Nat)
  | [] => none
  | e :: r =>
    match latestLoan r, e.2.member with
    | some b, some _ => if b.2 < e.2.order then some (e.1, e.2.order) else some b
    | some b, none => some b
    | none, some _ => some (e.1, e.2.order)
    | none, none => none

/-- Every loan is reclaimed: a channel is lost, and every loan spans it (R351). -/
def Dev.reclaimAll (s : Dev) : Dev :=
  (s.round.lend.list.filter fun e => e.2.member.isSome).foldl (fun s e => s.reclaimLoan e.1 true) s

/-- Case D of R227: reclaim a lent frame's loan. -/
def Dev.reclaimAny (s : Dev) : Option Dev :=
  (latestLoan s.round.lend.list).map fun x => s.reclaimLoan x.1 true

/-- A staged demotion fails: TIER F, slot and staging entry freed, EV 0x17A (R225). -/
def Dev.demotionNak (s : Dev) (st : Nat) : Dev :=
  match s.staged.get? st with
  | none => s
  | some d =>
    let s := { s with staged := s.staged.del st, lbm := s.lbm.del d.loan }
    let e := s.fme d.gran
    let s := if e.tier = .staged ∧ e.loc = st then s.setFme d.gran { e with tier := .F, loc := 0 } else s
    s.raise (tmgEv 0x17A 255 65535 0 d.gran 0 0 true)

/-- A demotion is acknowledged: TIER N (R225); a copy that a rebuilt frame-map entry no longer names is dropped (R234). -/
def Dev.demotionDone (s : Dev) (st : Nat) : Dev :=
  match s.staged.get? st with
  | none => s
  | some d =>
    let e := s.fme d.gran
    let s := { s with staged := s.staged.del st }
    if e.tier = .staged ∧ e.loc = st then
      let s := { s with lbm := s.lbm.upd d.loan fun b => { b with valid := true } }
      (s.setFme d.gran { e with tier := .N, loc := d.loan }).count48
        Reg.TMG.DEMOTE_LO.COUNT Reg.TMG.DEMOTE_HI.COUNT 1 (tmgPlain 0x17C)
    else { s with lbm := s.lbm.del d.loan }

/-- The borrower drops a loan (R352): the answer counts the copies dropped. -/
def Dev.dropLoan (s : Dev) (key : Nat) : Dev :=
  let m := key / 1024
  let inLoan := fun (b : LbmEntry) => b.member == m && b.lslot / 16384 == key % 1024
  let copies := s.lbm.list.filter fun e => inLoan e.2
  let s := s.staged.list.foldl (fun s e =>
    match s.lbm.get? e.2.loan with | some b => if inLoan b then s.demotionNak e.1 else s | none => s) s
  let s := copies.foldl (fun s e =>
    let f := s.fme e.2.gran
    if f.tier = .N ∧ f.loc = e.1 then s.setFme e.2.gran { f with tier := .F, loc := 0 } else s) s
  let s := { s with lbm := s.lbm.filter fun _ b => !inLoan b
                    round := { s.round with borrow := s.round.borrow.del key } }
  let s := s.count Reg.RND.RECLAIM_CTR.COUNT Reg.RND.RECLAIM_CTR.SAT 1 (s.rndPlain 0x20E 255)
  s.raise (tmgEv 0x179 255 65535 0 (2 ^ 40 - 1) copies.length 0 true)

/-- Every loan of a lender is dropped: its association went DOWN or it left the ring (R352). -/
def Dev.dropLender (s : Dev) (m : Nat) (lostAssoc : Bool) : Dev :=
  let keys := s.round.borrow.keys.filter fun k => k / 1024 == m
  let s := keys.foldl Dev.dropLoan s
  if lostAssoc ∧ !keys.isEmpty then s.raise (rndEv s 0x20B m (s.get Reg.RND.STS.STATE) 0 0 0 0 keys.length true) else s

end Sys2Proof.Machine
end

