-- ==== Sys2Proof/Machine/Fills.lean ====
section
/-! DEFINITION. TMG: fills — their queue, their source, their frame (R221–R226), F read failures and the standby's
copy (R41 rows 7 and 8, R201, R203, R315), and a cancelled demotion (R233). -/

namespace Sys2Proof.Machine

/-- Demand before Stitcher before background (R223). -/
def FillClass.higher : FillClass → FillClass → FillClass
  | .demand, _ => .demand
  | _, .demand => .demand
  | .stitch, _ => .stitch
  | _, .stitch => .stitch
  | .background, .background => .background

/-- The tier-miss queue has room: 4,096 entries, of which 1,024 are kept for demand misses (R107). -/
def Dev.fillRoom (s : Dev) (host : Bool) : Bool :=
  decide (s.fills.size < 4096) &&
  (host || decide ((s.fills.list.filter fun e => e.2.cls != .demand || !e.2.sti.isEmpty).length < 3072))

/-- An STI event with the payload of R264: engine, kind, STOP_REASON, stream slot, syndrome bits 19:4, lateness, DL, PC,
region and granule. -/
def stiEv (id e kind reason slot word late dl pc region gran : Nat) : Ev :=
  Ev.make id true (e + word % 65536 * 16 + kind * 2 ^ 20)
    [(1, 1, e), (2, 1, kind + reason * 4), (3, 1, slot), (8, 2, late), (10, 4, dl), (14, 2, pc), (16, 2, region), (18, 5, gran)]
def stiPlain (id e : Nat) : Ev := stiEv id e 0 0 255 0 0 0 0 0xFFFF (2 ^ 40 - 1)

/-- Count in an engine's counter. -/
def Dev.engCount (s : Dev) (cf sf : Field) (n e : Nat) : Dev := s.count cf sf n (stiPlain 0x18A e)

/-- A prefetch fill that finds no frame is dropped (R253 Case A). -/
def Dev.dropStitch (s : Dev) (g : Nat) : Dev :=
  match s.fills.get? g with
  | none => s
  | some f => f.sti.foldl (fun s x =>
      (s.engCount (Reg.ENG.NOFRAME.COUNT x.engine) (Reg.ENG.NOFRAME.SAT x.engine) 1 x.engine).raiseFirst (stiPlain 0x188 x.engine))
      { s with fills := s.fills.del g }

/-- Change the fill of a granule. -/
def Dev.updFill (s : Dev) (g : Nat) (f : Fill → Fill) : Dev := { s with fills := s.fills.upd g f }

/-- Ask the standby for its copy of a granule (R315), once its lane's earlier records are acknowledged. -/
def Dev.standbyRead (s : Dev) (g : Nat) : Dev :=
  let n := match s.regionAt g with | some (n, r) => (n, r.gen) | none => (0, 0)
  (s.requestOn s.twin 0x21 4 0 0 true (.read false n.1 n.2 true 64 (g * 64) g) false false).1

/-- The lane of a granule has acknowledged every record sent up to `psn`. -/
def Dev.laneAcked (s : Dev) (g psn : Nat) : Bool :=
  (s.lane (laneOf g)).pending.list.all fun e => decide (2 ^ 31 ≤ psnDist e.1 psn) || e.1 == (psn + 1) % 2 ^ 32
def Dev.standbyFetch (s : Dev) (g : Nat) : Dev :=
  let l := laneOf g
  let s := s.packAll l ((s.lane l).queue.length + 1)
  match s.conn s.twin (laneCid l) with
  | some c =>
    let last := (c.nextPsn + 2 ^ 32 - 1) % 2 ^ 32
    if (s.lane l).pending.list.isEmpty then
      (s.updFill g fun f => { f with src := .standby, after := none }).standbyRead g
    else s.updFill g fun f => { f with src := .standby, after := some last }
  | none => (s.updFill g fun f => { f with src := .standby, after := none }).standbyRead g

/-- Fetches whose lane is now acknowledged leave. -/
def Dev.pumpFetches (s : Dev) : Dev :=
  s.fills.list.foldl (fun s e =>
    match e.2.after with
    | some p => if s.laneAcked e.1 p then
        (s.updFill e.1 fun f => { f with after := none }).standbyRead e.1 else s
    | none => s) s

/-- The fill of a granule ends without data. -/
def Dev.endFill (s : Dev) (g : Nat) : Dev :=
  { s with fills := s.fills.del g }.setFme g { s.fme g with pend := false }

/-- A partial write that finds its line POISON: completed and discarded (R43 Case E). -/
def Dev.partialOnPoison (s : Dev) (r : HostReq) : Dev :=
  (s.answerWrite r (latWrite false)).raise
    { id := 0x051, synd := 0, payload := packBytes [(8, 5, r.line)], writes := true }

/-- An F read fails (R41 rows 7 and 8): the standby's copy while the region is mirrored and the pair in lockstep;
otherwise the waiting lines become POISON. -/
def Dev.flashFailed (s : Dev) (g : Nat) : Dev :=
  match s.fills.get? g with
  | none => s
  | some f =>
    let twin := match s.regionAt g with | some (_, r) => r.mirror | none => false
    if twin && s.lockstep && f.src != .standby then s.standbyFetch g
    else
      let s := s.endFill g
      f.waiters.foldl (fun s w =>
        let s := s.poisonLine w.line 3 false
        match w.write with | none => s.answerRead w none latFlash | some _ => s.partialOnPoison w) s

/-- A destage's merge read of a granule is in flight: a fill takes its data from that read (R28). -/
def Dev.mergeReading (s : Dev) (g : Nat) : Bool :=
  match s.destages.get? g with | some d => d.step == .merge && !d.standby | none => false

/-- The lines that a destage has merged, all 64 of them, once its merge read has brought its data (R28). -/
def Dev.mergedLines (s : Dev) (g : Nat) : Option (Tab Ln) :=
  match s.destages.get? g with
  | some d => if d.step == .merge || d.absent.isEmpty then none else some d.lines
  | none => none

/-- Send a fill's read to its source; the granule of a destage is not read again (R28). -/
def Dev.fillRead (s : Dev) (g : Nat) : Dev :=
  match s.fills.get? g with
  | none => s
  | some f =>
    if s.mergeReading g then s.updFill g fun f => { f with src := .F, loan := none }
    else if f.waiters.isEmpty && (s.mergedLines g).isSome then
      s.updFill g fun f => { f with src := .F, loan := none, data := s.mergedLines g }
    else
    match f.src with
    | .standby => s.standbyFetch g
    | .N =>
      match f.loan.bind s.lbm.get? with
      | none => s
      | some b =>
        let key := b.member * 1024 + b.lslot / 16384
        let bad := s.updFill g fun f => { f with src := .F, loan := none }
        match s.lenderUp b.member, s.round.borrow.get? key with
        | some a, some bo =>
          let q := s.requestOn a loanCid 3 0 0 true (.read true bo.loan bo.gen true 64 (b.lslot % 16384 * 4096) g) false false
          match q.2 with
          | some _ => q.1.updFill g fun f => { f with readAt := s.clock }
          | none => match bad.flashPlace g with | some p => bad.readGran g p | none => bad.flashFailed g
        | _, _ => match bad.flashPlace g with | some p => bad.readGran g p | none => bad.flashFailed g
    | .F => match s.flashPlace g with | some p => s.readGran g p | none => s.flashFailed g

/-- Cancel a demotion: the granule is restored into a new L frame from its staging entry (R233); for want
of a frame it waits (R222). -/
def Dev.cancelDemotion (s : Dev) (g : Nat) (demand : Bool) : Dev :=
  let e := s.fme g
  match s.staged.get? e.loc with
  | none => s.setFme g { e with tier := .F, loc := 0 }
  | some d =>
    let v := s.victim (s.ownerOf g) demand Dev.reclaimAny
    match v.2 with
    | none => v.1.noteWait g
    | some fn =>
      let s := { v.1 with staged := v.1.staged.del e.loc, lbm := v.1.lbm.del d.loan }
      let s := s.assignFrame g fn (s.ownerOf g)
      d.lines.list.foldl (fun s x => s.dramWrite fn x.1 x.2) s

/-- Give a queued fill its frame and source, and send its read (R224); without a frame it waits (R222). -/
def Dev.startFill (s : Dev) (g : Nat) : Dev :=
  match s.fills.get? g with
  | none => s
  | some f =>
    let s := if (s.fme g).tier = .staged then s.cancelDemotion g (f.cls == .demand) else s
    let e := s.fme g
    let c := if e.tier = .N then s.checkedLoan g else (s, none)
    let s := c.1
    let src : FillSrc × Option Nat := match c.2 with
      | some (i, b) => if s.round.slow.has b.member || (s.lenderUp b.member).isNone then (.F, some i) else (.N, some i)
      | none => (.F, none)
    let e := s.fme g
    let stream := match s.regionAt g with | some (_, r) => r.policy / 2 % 2 == 1 | none => false
    let go := fun (s : Dev) (fn : Nat) =>
      let s := { s with fills := s.fills.put g { f with frame := some fn, src := src.1, loan := src.2 } }
      let s := s.setFme g { s.fme g with pend := true }
      let s := if f.cls == .demand && stream then s.stamp g 16384 else s
      s.fillRead g
    if e.tier = .L then go s e.loc
    else if e.tier = .staged then s
    else
      let v := s.victim f.tenant (f.cls == .demand) Dev.reclaimAny
      match v.2 with
      | some fn => go (v.1.assignFrame g fn f.tenant) fn
      | none => if f.cls == .stitch then v.1.dropStitch g else v.1.noteWait g

/-- Place of the next fill in the order of queueing. -/
def Dev.nextFill (s : Dev) : Nat := s.fills.list.foldl (fun m e => max m (e.2.order + 1)) 0

/-- Queue a fill, or join the one that is queued or in flight (R223); `false` = the queue has no entry for it. -/
def Dev.requestFill (s : Dev) (g : Nat) (cls : FillClass) (w : List HostReq) (sti : List StiGran) : Dev × Bool :=
  let join := fun (f : Fill) => {
    f with cls := f.cls.higher cls, waiters := f.waiters ++ w, sti := f.sti ++ sti
           hostJoin := if f.hostJoin.isNone && !w.isEmpty then some s.tnow else f.hostJoin }
  match s.fills.get? g with
  | some f => ({ s with fills := s.fills.put g (join f) }, true)
  | none =>
    if s.fillRoom (cls == .demand && sti.isEmpty) then
      let f := join { cls, tenant := s.ownerOf g, order := s.nextFill }
      ({ s with fills := s.fills.put g f }.startFill g, true)
    else (s, false)

/-- A frame for a granule that is written, or pinned (`demand` = false), and has none: allocated without a fetch (R43, R229); a copy in N is
freed, a demotion cancelled (R233). `false` = the allocation waits (R222). -/
def Dev.ensureFrame (s : Dev) (g : Nat) (demand : Bool) : Dev × Bool :=
  match (s.fme g).tier with
  | .L => (s, true)
  | .staged => let s := s.cancelDemotion g demand; (s, (s.fme g).tier == .L)
  | _ =>
    let v := s.victim (s.ownerOf g) demand Dev.reclaimAny
    match v.2 with
    | some fn => let s := v.1.dropN g; (s.assignFrame g fn (s.ownerOf g), true)
    | none => (v.1.noteWait g, false)

/-- Place of a class in the order of service (R223). -/
def FillClass.place : FillClass → Nat | .demand => 0 | .stitch => 1 | .background => 2

/-- Allocations that wait are tried again (R222): fills without a frame, by class and then in their order (R223). -/
def Dev.retryFills (s : Dev) : Dev :=
  let before := fun (a b : Nat × Fill) => decide (a.2.cls.place < b.2.cls.place) || (a.2.cls == b.2.cls && decide (a.2.order < b.2.order))
  (sortBy before (s.fills.list.filter fun e => e.2.frame.isNone)).foldl (fun s e => s.startFill e.1) s

end Sys2Proof.Machine
end

