-- ==== Sys2Proof/Machine/Mem.lean ====
section
/-! DEFINITION. RTE: host reads and writes on the lines of a region — same-line order (R24), read results (R41),
writes (R43), admission (R54, R55), and the data that fills and DRAM reads bring (R26, R97). -/

namespace Sys2Proof.Machine

/-- The bytes of a line that byte enables select, from `new`, the others from `old`. -/
def mergeBytes (be : BitVec 64) (old new : LineData) : LineData :=
  let m : BitVec 512 := (List.range 64).foldl (fun a i => if be.getLsbD i then a ||| (255#512 <<< (8 * i)) else a) 0
  (new &&& m) ||| (old &&& ~~~m)

/-- Every byte enable is set. -/
def fullWrite (be : BitVec 64) : Bool := be == BitVec.allOnes 64

/-- RTE records of R492: EV 0x050–0x053 name no payload but the line. -/
def rteEv (id line : Nat) : Ev := { id, synd := 0, payload := packBytes [(8, 5, line)], writes := true }

/-- A host request inside an armed watch fires it when it is admitted, while its region has the generation the watch was set to (R257). -/
def Dev.watchFire (s : Dev) (n : Nat) (reg : Region) (q : HostReq) : Dev :=
  let line := q.line
  let hit := fun (w : Watch) => w.armed && w.region == n && w.gen == reg.gen && decide (w.first ≤ granOf line) && decide (granOf line < w.stop)
  if q.via ≠ .host ∨ q.looked then s else
  { s with engines := s.engines.map fun _ e =>
      { e with watches := e.watches.map fun _ w => if hit w then { w with armed := false, fired := true, at_ := s.clock } else w } }

/-- A request to the line is in flight at RTE (R24). -/
def Dev.lineBusy (s : Dev) (line : Nat) : Bool :=
  (s.reads.list.any fun e => match e.2.what with | .host r => r.line == line | .background => false) ||
  (s.fills.list.any fun e => e.2.waiters.any fun r => r.line == line) ||
  (s.allocWait.any fun r => r.line == line) || (s.rteWait.any fun r => r.line == line) ||
  (s.held.list.any fun e => e.2.any fun h => h.req.line == line)

/-- A request waits in RTE, behind those that arrived before it. -/
def Dev.park (s : Dev) (r : HostReq) : Dev := { s with rteWait := s.rteWait ++ [r] }

/-- A read's latency as a request meets it: a partial write takes its core alone (R100 Case C). -/
def HostReq.add (q : HostReq) (lat : Nat) : HostReq := { q with lat := q.lat + if q.write.isSome then latCore lat else lat }

/-- A word on an internal path: `true` = uncorrectable (R116, R125). -/
def Dev.pathWord (s : Dev) : Dev × Bool := (s.sramWrite flipPath 0).sramRead flipPath 0 1

/-- A request looks its granule up in the frame map (R98, R213): whether the cache missed, or `none` where the entry's DRAM line is lost and
not yet rebuilt (R234). An uncorrectable word of the cache is fetched again (R116). -/
def Dev.fmLook (s : Dev) (g : Nat) (noise : BitVec 640) : Dev × Option Bool :=
  let j := g / 8
  if s.fmc.has j then let w := s.sramRead flipFm g 4; (w.1, some w.2)
  else if s.mapLost.has j then (s, none)
  else match s.fmPlace j with
    | none => (s.fmcPut j, some true)
    | some (n, cl) =>
      let s := s.dramSync n cl fun _ => false
      let r := s.eccRead n cl noise
      if !r.2.ok then ({ r.1.ueRaise n cl 5 r.2 with mapLost := r.1.mapLost.put j () }, none)
      else (((if r.2.corrected then r.1.demandScrub n cl false else r.1).fmcPut j).sramWrite flipFm g, some true)

/-- RNT class of a request: CPY for a COPY, else as given (R174). -/
def HostReq.cipherClass (q : HostReq) (c : Nat) : Nat := match q.via with | .copy .. => 5 | _ => c

/-- Answer a read from a line of O (tier 0) or L (tier 1) (R41 rows 1–3, R168, R178–R180). Its plaintext leaves RNT through the tag-hold buffer,
a protected word (R179). -/
def Dev.readLine (s : Dev) (n : Nat) (reg : Region) (q : HostReq) (l : Ln) (tier lat : Nat) : Dev :=
  let cls := q.cipherClass 0
  if l.st = .poison then s.answerRead q none lat
  else if s.rntWaits reg cls then (s.noteFull reg cls).park q
  else
    let x := s.openJob cls false tier reg q.line l
    let s := x.1
    let lat := lat + x.2.2
    match x.2.1 with
    | .noKey => (s.noKeyAccess n cls reg).answerRead q none lat
    | .failed _ => (s.poisonLine q.line 2 false).answerRead q none lat
    | .data d => let w := s.pathWord; w.1.answerRead q (if w.2 then none else some d) lat
    | _ => s.answerRead q none lat

/-- Queue a demand read of a resident line in its channel's front end: 96 reads (R107, R140); a line that waits in the write queue takes its
data from there (R142); a channel that is off line answers with poison (R157). -/
def Dev.dramRead (s : Dev) (q : HostReq) (fn : Nat) : Dev :=
  match s.chanOf fn with
  | none => s.refuse q
  | some n =>
    if !s.chanUp n then s.refuse q
    else if 96 ≤ (s.reads.list.filter fun e => e.2.chan == n).length then s.park q
    else
      let k := q.line % 64
      let cl := s.chanLine fn k
      let fwd := (s.channel n).writes.has cl
      let d : DramRead := { chan := n, line := q.line, fn, cl, arrived := s.clock, seq := s.uses, ln := s.frameLn fn k
                            issued := if fwd then some s.now else none, fwd, what := .host q
                            md := if q.mdMiss then (s.mdPlace ((fn * 64 + k) / 2)).map (·.2) else none }
      let s := if fwd then s else s.dramArrive n cl
      ({ s with reads := s.reads.put s.reads.firstFree d } : Dev).used

/-- NEXT policy: a demand miss also queues a background fill of the next granule (R230). -/
def Dev.nextFillOf (s : Dev) (g : Nat) (reg : Region) : Dev :=
  let e := s.fme (g + 1)
  if reg.policy / 4 % 2 = 1 ∧ extOf (g + 1) < reg.base + reg.size ∧ e.ew ∧ e.tier ≠ .L then
    (s.requestFill (g + 1) .background [] []).1
  else s

/-- The write of an LD whose tenant holds only a READ grant (R375). -/
def Dev.readOnly (s : Dev) (n gld : Nat) (reg : Region) : Bool :=
  match reg.viaShare.find? fun x => x.1 == gld with
  | none => false
  | some (_, t) => match (s.island.store.shares.getD n []).find? fun x => x.tenant == t with
    | some x => !x.write
    | none => true

/-- Writes admitted and not yet accepted by LC. -/
def Dev.openWrites (s : Dev) : List HostReq :=
  ((s.reads.list.filterMap fun e => match e.2.what with | .host r => some r | .background => none) ++
   (s.fills.list.flatMap fun e => e.2.waiters) ++ s.allocWait ++ s.rteWait).filter fun r => r.write.isSome && r.admitted

/-- Admitted writes to mirrored regions whose forward records are still to be built (R46). -/
def Dev.openMirrored (s : Dev) : Nat :=
  (s.openWrites.filter fun q => match s.regionAt (granOf q.line) with | some (_, r) => r.mirror | none => false).length

/-- Why a write must be held at admission (R46, R54, R55, R59, R199, R203, R496). -/
def Dev.holdReason (s : Dev) (reg : Region) (q : HostReq) : Option HoldReason :=
  let g := granOf q.line
  let st := s.get Reg.HLD.STATUS.STATE
  if 4 ≤ st then some .flush
  else if reg.mirror && s.forwards && decide (1048576 ≤ s.lagRecords + s.openMirrored) then some .lag
  else if s.dirty.has g || q.poisoned then none
  else if st = 3 ∨ (st = 2 ∧ s.allowance = 0) then some .budget
  else if !s.homeOk g && (s.rescueOf g).isNone && s.rescueDrive.isNone then some .rescue
  else if s.needsLearning g && !s.learns.has g && decide (4096 ≤ s.learns.size) then some .learning
  else none

/-- Hold a write (R55): its counter, for the budget and the lag, and its events; EV 0x1B4 is for the budget alone (R57). In a full queue
it waits in RTE. -/
def Dev.hold (s : Dev) (q : HostReq) (why : HoldReason) : Dev :=
  let p := q.head / 4
  let l := s.heldAt p
  if 256 ≤ l.length then s.park q
  else
    let s := { s with held := s.held.put p (l ++ [{ req := q, reason := why }]) }
    let s := if why = .budget ∨ why = .lag then (s.countUp Reg.HLD.HELD_CTR.COUNT Reg.HLD.HELD_CTR.SAT 1).1 else s
    let st := s.get Reg.HLD.STATUS.STATE
    match why with
    | .budget => if s.bit Reg.HLD.STATUS.UNCONFIG then s.raiseFirst (s.hldPlain 0x1B4 st st) else s
    | .learning => s.raiseFirst (nvhPlain 0x193)
    | .rescue => s.raiseFirst (nvhPlain 0x1A8)
    | _ => s

/-- A granule that is not counted becomes counted, and takes what a new-dirty write needs (R52, R199, R203, R496). -/
def Dev.countNew (s : Dev) (g : Nat) : Dev :=
  if s.dirty.has g then s
  else
    let s := ((s.reserveRescue g).1).learn g
    s.countGran g (s.rescueOf g) (!s.homeOk g && (s.rescueOf g).isNone)

/-- Admission passes a write (R45, R52): its granule is counted from here, unless the write leaves no DIRTY line, and a write admitted in
lockstep is twin-acked; outside lockstep its granule is divergent (R317). -/
def Dev.takeIn (s : Dev) (reg : Region) (q : HostReq) : Dev × HostReq :=
  let full := match q.write with | some (be, _) => fullWrite be | none => false
  let clean := q.poisoned || (!full && (s.poison.has q.line || s.stateOf q.line == some .poison))
  let s := if reg.mirror && s.marks then s.diverge (granOf q.line) else s
  (if clean then s else s.countNew (granOf q.line),
   { q with admitted := true, stay := if reg.twin && s.lockstep then some s.mirror.stay else none })

/-- A granule counted for admitted writes alone is counted no longer once none of them is left: they ended without a DIRTY line (R52). The
rescue slot reserved for it is free again. -/
def Dev.uncountIdle (s : Dev) : Dev :=
  (s.dirty.list.filter fun e => !e.2.lines && !e.2.inFlight).foldl (fun s e =>
    if s.openWrites.any fun q => granOf q.line == e.1 then s
    else
      let s := s.uncountDirty e.1 false
      match s.rescueOf e.1 with
      | some (d, j) =>
        if (match (s.medium d).rescue.get? j with | some f => f.rescue && f.gran == e.1 | none => false) then s
        else (s.setDrive d { s.drive d with rescueUsed := (s.drive d).rescueUsed.del j }).reserveAll
      | none => s) s

/-- A line becomes DIRTY: its granule is counted (R52, R199, R203, R496). -/
def Dev.dirtied (s : Dev) (g k : Nat) : Dev := (s.countNew g).countDirty g k

/-- Finish a write whose line is `ln` now: forwarded, and completed unless it waits for the standby (R44). -/
def Dev.finishWrite (s : Dev) (n : Nat) (reg : Region) (q : HostReq) (ln : Ln) (lat : Nat) : Dev :=
  let m := s.mirrorLine n reg q.line ln (some q)
  if m.2 then m.1 else m.1.answerWrite q lat

/-- Store the whole line of a write (R43): sealed, checked, accepted by LC as DIRTY, counted, forwarded. Where the slice's write-accept
buffer or the class's queue is full it waits in RTE (R107). -/
def Dev.storeLine (s : Dev) (n : Nat) (reg : Region) (q : HostReq) (d : LineData) (lat : Nat) : Dev :=
  let g := granOf q.line
  let cls := q.cipherClass 1
  if s.acceptFull q.line then (s.raise (Ev.plain 0x061)).park q
  else if s.rntWaits reg cls then (s.noteFull reg cls).park q
  else
    let f := s.ensureFrame g true
    if !f.2 then { f.1 with allocWait := f.1.allocWait ++ [q] }
    else
      let w := (f.1.stamp g 0).pathWord
      let x := w.1.sealJob cls false reg q.line d .dirty
      let s := x.1
      let lat := lat + x.2.2
      let bad := (s.poisonLine q.line 1 false).finishWrite n reg q { st := .poison } lat
      if w.2 then bad
      else match x.2.1 with
        | .noKey => (s.noKeyAccess n cls reg).answerWrite q lat
        | .undelivered => s.answerWrite q lat
        | .lanes => bad
        | .line ln =>
          let s := s.poisonDel q.line
          let s := s.lcAccept q.line ln
          let s := s.count48 Reg.LC.WR_LO.COUNT Reg.LC.WR_HI.COUNT 1 (Ev.plain 0x060)
          (s.dirtied g (q.line % 64)).finishWrite n reg q ln lat

/-- Merge a partial write into a line as O, L, N or F holds it (R43 Cases B and D, R166); `core` = the part of the read's latency that the
request has not yet met (R100 Case C). -/
def Dev.mergeLine (s : Dev) (n : Nat) (reg : Region) (q : HostReq) (be : BitVec 64) (d : LineData) (l : Ln)
    (tier core : Nat) : Dev :=
  if l.st = .poison then s.partialOnPoison q
  else if s.acceptFull q.line then (s.raise (Ev.plain 0x061)).park q
  else if s.rntWaits reg 1 then (s.noteFull reg 1).park q
  else
    let x := s.openJob 1 false tier reg q.line l
    let s := x.1
    let core := core + x.2.2
    match x.2.1 with
    | .noKey => (s.noKeyAccess n 1 reg).answerWrite q (latWrite true + core)
    | .failed _ => (s.poisonLine q.line 2 false).answerWrite q (latWrite true + core)
    | .lanes => (s.poisonLine q.line 1 false).finishWrite n reg q { st := .poison } (latWrite true + core)
    | .undelivered => s.answerWrite q (latWrite true + core)
    | .data old => s.storeLine n reg q (mergeBytes be old d) (latWrite reg.enc + core)

/-- The fill's read failed its tag on one line from F: as an F read failure of that line (R180, R41 rows 7 and 8). -/
def Dev.fillTagFailed (s : Dev) (reg : Region) (g : Nat) (q : HostReq) (lat : Nat) : Dev × Bool :=
  let f := s.fills.get? g
  let again := reg.mirror && s.lockstep && (match f with | some f => f.src != .standby | none => false)
  if again then (s, true)
  else
    let s := s.poisonLine q.line 3 false
    match q.write with | none => (s.answerRead q none lat, false) | some _ => (s.partialOnPoison q, false)

/-- A waiting request of a fill takes its line (R41 rows 5–8, R95, R98, R178, R181). The answer says that the line failed its tag
and the granule is to be read again from F or the standby. -/
def Dev.fillAnswer (s : Dev) (n : Nat) (reg : Region) (g : Nat) (src : FillSrc) (l : Ln) (q : HostReq) (base : Nat) :
    Dev × Bool :=
  let lat := base + latEnc reg.enc
  if l.st = .poison || s.poison.has q.line then
    (match q.write with
     | none => (s.poisonLine q.line 12 false).answerRead q none lat
     | some _ => (s.poisonLine q.line 12 false).partialOnPoison q, false)
  else
    let cls := q.cipherClass 2
    if s.rntWaits reg cls then ((s.noteFull reg cls).park q, false)
    else
    let x := s.openJob cls false (if src = .N then 2 else 3) reg q.line l
    let s := x.1
    let lat := lat + x.2.2
    let ended := fun (s : Dev) => match q.write with
      | none => s.answerRead q none lat
      | some _ => s.answerWrite q (latWrite true + latCore lat)
    match x.2.1 with
    | .noKey => (ended (s.noKeyAccess n cls reg), false)
    | .undelivered => (ended s, false)
    | .lanes =>
      (match q.write with
       | none => s.answerRead q none lat
       | some _ => (s.poisonLine q.line 1 false).finishWrite n reg q { st := .poison } (latWrite true + latCore lat), false)
    | .failed _ => if src = .N then (s, true) else s.fillTagFailed reg g q lat
    | .data d =>
      match q.write with
      | none =>
        let w := s.pathWord
        let s := w.1.answerRead q (if w.2 then none else some d) lat
        (if s.bit Reg.LC.CFG.NF_ALLOC ∧ src ≠ .standby ∧ !s.lc.has q.line ∧ (s.fme g).tier = .L then s.lcPut q.line l else s, false)
      | some (be, new) => (s.storeLine n reg q (mergeBytes be d new) (latWrite reg.enc + latCore lat), false)

/-- The lines of a granule that its fill has fetched and not yet installed, or that its destage has merged (R26, R28). -/
def Dev.fetched (s : Dev) (g : Nat) : Option (FillSrc × Tab Ln) :=
  match (s.fills.get? g).bind fun f => f.data.map fun l => (f.src, l) with
  | some x => some x
  | none => if s.fills.has g then none else (s.mergedLines g).map fun l => (.F, l)

/-- A demand miss (R26): it takes its line from data that has been fetched, joins or queues a fill, or waits in RTE where the queue has no
entry for it. A line that failed its tag is fetched anew. -/
def Dev.demandMiss (s : Dev) (n : Nat) (q : HostReq) (reg : Region) : Dev :=
  let g := granOf q.line
  let ask := fun (s : Dev) =>
    let f := s.requestFill g .demand [q] []
    if f.2 then f.1.nextFillOf g reg else s.park q
  match s.fetched g with
  | some (src, lines) =>
    let r := s.fillAnswer n reg g src (lines.getD (q.line % 64) {}) q (if src = .N then latNeighbour else latFlash)
    if r.2 then ask r.1 else r.1
  | none => ask s

/-- The lookups of a request on a line that O does not hold (R97, R98): frame map, then the metadata of a resident line. The request as it goes
on, with what a miss adds; `none` = it waits for the rebuild of its frame-map line (R234). -/
def Dev.lookups (s : Dev) (q : HostReq) : Dev × Option HostReq :=
  let g := granOf q.line
  let w := s.fmLook g q.noise.1
  match w.2 with
  | none => (w.1, none)
  | some miss =>
    let q1 := if miss then { q with lat := q.lat + latFmMiss } else q
    let s := w.1.stamp g 0
    let s := if (s.fme g).tier = .staged then s.cancelDemotion g true else s
    let e := s.fme g
    if e.tier = .L then
      let m := s.mdcLook e.loc (q.line % 64) q.looked q.noise.2
      (m.1.mdcRead g e.loc (q.line % 64), some { q1 with looked := true, mdMiss := q.mdMiss || m.2 })
    else (s, some { q1 with looked := true })

/-- Serve a read (R41). A read answered with poison takes the time of a hit where no DRAM read comes before it, which the spec does not
say (DESIGN CHOICE, log entry 54). -/
def Dev.serveRead (s : Dev) (n : Nat) (reg : Region) (q : HostReq) : Dev :=
  let g := granOf q.line
  let h := s.lcRead q.line
  let count := fun (s : Dev) (lo hi : Field) => if q.looked then s else s.count48 lo hi 1 (Ev.plain 0x060)
  match h.2 with
  | some l => (count h.1 Reg.LC.HIT_LO.COUNT Reg.LC.HIT_HI.COUNT).readLine n reg { q with looked := true } l 0 (latHit + latEnc reg.enc)
  | none =>
    let s := count h.1 Reg.LC.MISS_LO.COUNT Reg.LC.MISS_HI.COUNT
    let w := s.lookups q
    match w.2 with
    | none => w.1.park { q with looked := true }
    | some q =>
      let s := w.1
      let e := s.fme g
      let st := if e.tier = .L then (s.frameLn e.loc (q.line % 64)).st else .absent
      if s.poison.has q.line || st == .poison then s.answerRead q none latHit
      else if st ≠ .absent then
        if s.keyed reg then s.dramRead q e.loc else (s.noKeyAccess n (q.cipherClass 0) reg).answerRead q none latHit
      else if e.tier = .staged then s.park q
      else if !e.ew then s.answerRead q (some 0) (latZero reg.enc)
      else if !s.keyed reg then (s.noKeyAccess n (q.cipherClass 0) reg).answerRead q none latHit
      else s.demandMiss n q reg

/-- Serve a partial write (R43 Cases B–E). -/
def Dev.servePartial (s : Dev) (n : Nat) (reg : Region) (q : HostReq) (be : BitVec 64) (d : LineData) : Dev :=
  let g := granOf q.line
  let h := s.lcRead q.line
  match h.2 with
  | some l => h.1.mergeLine n reg q be d l 0 (latCore (latHit + latEnc reg.enc))
  | none =>
    let w := h.1.lookups q
    match w.2 with
    | none => w.1.park q
    | some q =>
      let s := w.1
      let e := s.fme g
      let st := if e.tier = .L then (s.frameLn e.loc (q.line % 64)).st else .absent
      if st = .poison || s.poison.has q.line then s.partialOnPoison q
      else if st ≠ .absent then s.dramRead q e.loc
      else if e.tier = .staged then s.park q
      else if !e.ew then s.storeLine n reg q (mergeBytes be 0 d) (latWrite reg.enc)
      else s.demandMiss n q reg

/-- Serve a write that admission has passed (R43, R76, R169, R375). -/
def Dev.serveWrite (s : Dev) (n : Nat) (reg : Region) (q : HostReq) (be : BitVec 64) (d : LineData) : Dev :=
  if q.poisoned then
    let s := match q.via with
      | .copy .. => s.poisonLine q.line 10 false
      | _ =>
        let s := (s.poisonLine q.line 4 false).raise (hpRec (q.head / 4) 7 (q.line * 64))
        (s.countUp (Reg.HP.ERR.COUNT (q.head / 4) (q.head % 4) 7) (Reg.HP.ERR.SAT (q.head / 4) (q.head % 4) 7) 1).1
    s.finishWrite n reg q { st := .poison } (latWrite reg.enc)
  else if fullWrite be then s.storeLine n reg q d (latWrite reg.enc)
  else s.servePartial n reg q be d

/-- The memory is lost: its only channel, or a second one, is off line (R237). -/
def Dev.memoryLost (s : Dev) : Bool :=
  s.bit Reg.TMG.STS.DEGRADED &&
    (decide (s.chanCount < 2) || decide (2 ≤ (s.populated.filter fun n => s.get (Reg.DC.STS.STATE n) == 6).length))

/-- RTE serves a request that has passed the hazards, or lets it wait (R24, R54, R360): a write once admission has passed it. -/
def Dev.serve (s : Dev) (q : HostReq) : Dev :=
  match s.regionAt (granOf q.line) with
  | none => s.refuse q
  | some (n, reg) =>
    if s.memoryLost || (q.via == .host && !s.serves && !q.admitted) then s.refuse q
    else if s.rebuilding (granOf q.line) || (reg.enc && s.reloads) then s.park q
    else match q.write with
      | none => (s.watchFire n reg q).serveRead n reg q
      | some (be, d) =>
        if s.readOnly n q.gld reg then (s.raise (rteEv 0x053 q.line)).answerWrite q (latWrite reg.enc)
        else if !s.keyed reg then (s.noKeyAccess n (q.cipherClass 1) reg).answerWrite q (latWrite reg.enc)
        else if q.admitted then s.serveWrite n reg q be d
        else match s.holdReason reg q with
          | some why => s.hold q why
          | none =>
            let a := (s.watchFire n reg q).takeIn reg q
            (a.1.serveWrite n reg a.2 be d).uncountIdle

/-- Writes to a granule that the resync copies wait (R333). -/
def Dev.copying (s : Dev) (q : HostReq) : Bool := q.write.isSome && s.mirror.copies.vals.contains (granOf q.line)

/-- A request reaches RTE (R24): it waits behind an earlier one on its line, or is served. A line of a granule that the
resync copies blocks writes (R333). -/
def Dev.arrive (s : Dev) (q : HostReq) : Dev :=
  if s.lineBusy q.line || s.copying q then
    (s.count Reg.RTE.HAZARD.COUNT Reg.RTE.HAZARD.SAT 1 (Ev.plain 0x052)).park q
  else s.serve q

/-- The order in which RTE serves what waits: one request of each head per turn, each head's oldest first (R107). -/
def roundRobin (l : List HostReq) : List HostReq :=
  let turn := fun (i : Nat) (q : HostReq) => ((l.take i).filter fun x => x.head == q.head).length
  (sortBy (fun a b => decide (a.1 < b.1) || (a.1 == b.1 && decide (a.2.head ≤ b.2.head)))
    (((List.range l.length).zip l).map fun x => (turn x.1 x.2, x.2))).map (·.2)

/-- Serve again what waits in RTE, in turn; a request that still finds its line busy waits on. -/
def Dev.replay (s : Dev) : Dev :=
  (roundRobin s.rteWait).foldl (fun s q =>
    if s.lineBusy q.line || s.copying q then s.park q else s.serve q) { s with rteWait := [] }

/-- Allocations that wait are tried again (R222). -/
def Dev.retryAlloc (s : Dev) : Dev :=
  let s := s.allocWait.foldl (fun s q => match s.regionAt (granOf q.line), q.write with
    | some (n, reg), some (be, d) => s.serveWrite n reg q be d
    | _, _ => s.refuse q) { s with allocWait := [] }
  let s := s.retryFills
  -- a pinned granule's frame, a restored demotion; what no longer waits leaves
  let s := s.waits.keys.foldl (fun s g =>
    let e := s.fme g
    if e.pin && e.tier == .F && !e.ew then (s.ensureFrame g false).1
    else if e.pin && e.tier == .staged then s.cancelDemotion g false else s) s
  s.waits.keys.foldl (fun s g =>
    let e := s.fme g
    if (s.allocWait.any fun q => granOf q.line == g) || (match s.fills.get? g with | some f => f.frame.isNone | none => false) ||
        s.rebuilding g || e.tier == .staged || (e.pin && !e.ew && e.tier == .F) then s
    else s.endWait g) s

/-- The decoder's translation of an HPA inside its range: the interleave selector is removed (R73). -/
def Decoder.toDpa (d : Decoder) (hpa : Nat) : Option Nat :=
  if d.committed && decide (d.hpaBase ≤ hpa) && decide (hpa < d.hpaBase + d.size) then
    let off := hpa - d.hpaBase
    some (d.dpaBase + off / (d.gran * d.ways) * d.gran + off % d.gran)
  else none

/-- DPA of an HPA of an LD, by its committed decoders in index order (R73, R74). -/
def Dev.hpaToDpa (s : Dev) (gld hpa : Nat) : Option Nat :=
  (s.ld gld).decoders.list.findSome? fun e => e.2.toDpa hpa

/-- A head takes CXL.mem requests: CXL.mem enabled and Memory_Active (R62, R72). -/
def Dev.memOpen (s : Dev) (H : Nat) : Bool :=
  s.linkUp H && s.bit (Reg.HP.LINK_STS.MEM_EN (H / 4) (H % 4)) && s.bit (Reg.HP.LINK_STS.MEM_ACTIVE (H / 4) (H % 4))

/-- A request that misses every decoder (R74). -/
def Dev.decodeMiss (s : Dev) (q : HostReq) : Dev :=
  let n := q.head / 4
  let s := s.refuse q
  let s := (s.countUp (Reg.HP.ERR.COUNT n (q.head % 4) 6) (Reg.HP.ERR.SAT n (q.head % 4) 6) 1).1
  let s := s.count (Reg.RTE.GLD_MISS.COUNT q.gld) (Reg.RTE.GLD_MISS.SAT q.gld) 1 (Ev.plain 0x052)
  s.raise (hpEv n 6)

/-- A head withholds the credits that a request needs: its RTE queue of 512 is full, for a write its port's hold queue is, or an earlier
request of its channel already waits on the link (R55, R107). -/
def Dev.noCredit (s : Dev) (r : LinkReq) : Bool :=
  decide (512 ≤ s.queued r.head) || (r.write.isSome && decide (256 ≤ (s.heldAt (r.head / 4)).length)) ||
    s.linkWait.any fun x => x.head == r.head && x.write.isSome == r.write.isSome

/-- A CXL.mem request of a head reaches the device, or waits on the link (R36, R41, R43, R55, R74, R107, R304, R305). -/
def Dev.linkTake (s : Dev) (r : LinkReq) : Dev :=
  match s.gldOf r.head r.ld with
  | none => s
  | some gld =>
    if !s.memOpen r.head then s
    else if s.noCredit r then { s with linkWait := s.linkWait ++ [r] }
    else
      let add := s.headAdd r.head
      let s := add.2
      let q : HostReq := { head := r.head, gld, tag := r.tag, line := 0, write := r.write, poisoned := r.poisoned
                           epoch := (s.head r.head).resets, lat := add.1, noise := r.noise }
      match s.hpaToDpa gld r.hpa with
      | none => s.decodeMiss q
      | some dpa =>
        let q := { q with line := dpa / 64 }
        if !s.serves then (s.refuse q).raiseFirst (mirEv s 0x1FA false s.role none 0 0 none none)
        else match s.regionAt (granOf q.line) with
          | none => (s.refuse q).raise (rteEv 0x050 q.line)
          | some (_, reg) =>
            if !reg.attached.contains gld then (s.refuse q).raise (rteEv 0x050 q.line)
            else if !reg.home && !reg.mirror then (s.refuse q).raise (mirEv s 0x1FB false s.role none 0 0 (some (granOf q.line)) none)
            else s.arrive q

/-- Requests that wait on the links enter as credits return, in order (R55). -/
def Dev.linkPump (s : Dev) : Dev := s.linkWait.foldl Dev.linkTake { s with linkWait := [] }

/-- A write waits for a write-accept entry: WAB_STALL counts the FCLK cycles (R96). -/
def Dev.wabCheck (s : Dev) : Dev :=
  let waits := s.rteWait.any fun q => q.write.isSome && q.admitted && s.acceptFull q.line
  let s := match s.wabSince with
    | some t => s.count Reg.LC.WAB_STALL.COUNT Reg.LC.WAB_STALL.SAT (s.clock - t) (Ev.plain 0x062)
    | none => s
  { s with wabSince := if waits then some s.clock else none }

/-- GPF phase 1 has ended for a head: phase 2 fences the lanes, or completes at once outside lockstep (R48, R313). -/
def Dev.gpfPhase2 (s : Dev) (H : Nat) : Dev :=
  if s.lockstep then s.fenceLanes (.gpf H)
  else
    let st := s.get Reg.HLD.STATUS.STATE
    (s.raise (s.hldPlain 0x1B8 st st)).send (.gpfDone H)

/-- The same host request, whatever latency it has gathered. -/
def sameReq (a b : HostReq) : Bool := a.head == b.head && a.gld == b.gld && a.tag == b.tag && a.line == b.line

/-- A PERSIST_FENCE completes without the standby (R47 Case B). -/
def Dev.persistLocal (s : Dev) (i : Issuer) : Dev :=
  let st := s.get Reg.HLD.STATUS.STATE
  (s.raise (s.hldPlain 0x1B8 st st)).complete i cSuccessLocal 0 0 0

/-- PERSIST_FENCEs whose local condition holds (R47): a pair in lockstep ever since fences its lanes, once the commands before, those still
to be logged among them, are acknowledged. -/
def Dev.persistCheck (s : Dev) : Dev :=
  let left := fun (l : List HostReq) => l.any fun a => s.openWrites.any (sameReq a)
  let twin := fun (s : Dev) (e : PersistWait) => s.lockstep && e.stay == some s.mirror.stay
  let busy := fun (n : Nat) => s.destroys.has n || s.revokes.has n || s.logWait.any fun w => w.recd.region == n
  let wait := fun (e : PersistWait) => left e.writes ||
    (twin s e && (e.regions.any busy || !(s.mirror.fwdQueue.isEmpty && s.mirror.fwd.list.isEmpty)))
  let go := s.mirror.persist.filter fun e => !wait e
  go.foldl (fun s e => if !twin s e then s.persistLocal e.issuer
      else if e.mirrored then s.fenceLanes (.persist e.issuer) else s.complete e.issuer cSuccess 0 0 0)
    { s with mirror := { s.mirror with persist := s.mirror.persist.filter wait } }

/-- GPFs whose earlier writes LC has all accepted go on (R48), behind a command that waits for its fences (R311). -/
def Dev.gpfCheck (s : Dev) : Dev :=
  let s := s.persistCheck
  let left := fun (l : List HostReq) => l.any fun a => s.openWrites.any (sameReq a)
  let wait := fun (e : Nat × List HostReq) => left e.2 || (s.lockstep && s.commandFence)
  let go := s.mirror.gpf.filter fun e => !wait e
  go.foldl (fun s e => s.gpfPhase2 e.1) { s with mirror := { s.mirror with gpf := s.mirror.gpf.filter wait } }

/-- A COPY's requests come from no head: they stand beside the 16 heads' queues (R24, R107). -/
def copyHead : Nat := 16

/-- Lines of a COPY that have been read are written through RTE, under the admission of R54 (R404): what admission holds
stays with the job. -/
def Dev.copyPump (s : Dev) : Dev :=
  s.copies.list.foldl (fun s e => e.2.ready.foldl (fun s x =>
    match s.copies.get? e.1 with
    | none => s
    | some j =>
      let line := j.dstLine + x.1
      let q : HostReq := { head := copyHead, gld := 64, tag := 0, line, write := some (BitVec.allOnes 64, x.2.getD 0)
                           poisoned := x.2.isNone, epoch := 0, via := .copy e.1 x.1 }
      match s.regionAt (granOf line) with
      | none => s
      | some (_, reg) =>
        if (s.holdReason reg q).isSome then s
        else ({ s with copies := s.copies.put e.1 { j with ready := j.ready.filter (· != x) } }).arrive q) s) s

/-- A line as the device's own tiers hold it, for the twin (R315): `none` = it lies on flash or in N. A line of a granule
never written is zeros, sealed for an encrypted region as R165 seals them. -/
def Dev.twinLine (s : Dev) (reg : Region) (line : Nat) : Option Ln :=
  let e := s.fme (granOf line)
  let zero : Ln := if reg.enc then (s.sealLine reg line 0 .clean).getD { st := .poison } else { st := .clean }
  let here : Option Ln := match s.lc.get? line with
    | some c => some c.ln
    | none => match e.tier with
      | .L => some (s.frameLn e.loc (line % 64))
      | .staged => (s.staged.get? e.loc).map fun d => d.lines.getD (line % 64) {}
      | _ => none
  if s.poison.has line then some { st := .poison }
  else match here with
    | some l => if l.st = .absent then (if e.ew then none else some zero) else some l
    | none => if e.ew then none else some zero

/-- Seal zero lines of an encrypted region in class SEAL (R165): the lines, and those whose checks failed twice are POISON (R178 Case B). -/
def Dev.sealZeros (s : Dev) (r : Region) (lines : List Nat) : Dev × Tab Ln :=
  lines.foldl (fun a line =>
    let x := a.1.sealJob 6 false r line 0 .clean
    match x.2.1 with
    | .line l => (x.1, a.2.put line l)
    | .lanes => (x.1.poisonLine line 1 false, a.2.put line { st := .poison })
    | _ => (x.1, a.2.put line { st := .poison })) (s, .empty)

/-- The lines of a run that stand for zeros of a granule never written, which a copy to the twin seals (R165, R333). -/
def Dev.zeroRun (s : Dev) (line count : Nat) : List Nat :=
  ((List.range count).map (line + ·)).filter fun i =>
    !(s.fme (granOf i)).ew && !s.poison.has i && (match s.stateOf i with | none => true | some st => st == .absent)
def Dev.sealRun (s : Dev) (r : Region) (line count : Nat) : Dev :=
  if r.enc && s.keyed r then (s.sealZeros r (s.zeroRun line count)).1 else s

/-- Lines of a READ of the twin: `none` = some line must first be brought in. -/
def Dev.twinLines (s : Dev) (reg : Region) (line count : Nat) : Option (Tab Ln) :=
  (List.range count).foldl (fun t k => match t, s.twinLine reg (line + k) with
    | some t, some l => some (t.put k l)
    | _, _ => none) (some .empty)

/-- Send a READ_RESP (R270): the request's MEX, POISON and VALID by line, the service time in ns, the target's generation, and the lines that
carry data. -/
def Dev.sendReadResp (s : Dev) (a cid psn : Nat) (loan : Bool) (target gen : Nat) (granule : Bool) (count addr tag service tgtGen : Nat)
    (lines : Tab Ln) : Dev :=
  let mask := fun (p : Ln → Bool) => lines.list.foldl (fun m e => if p e.2 then m + 2 ^ e.1 else m) 0
  s.transmit { assoc := a, cid, psn, flags := {}, prio := match s.conn a cid with | some c => c.prio | none => 0
               payload := .readResp loan target gen granule count addr tag false (mask fun l => l.st == .poison)
                 (mask fun l => l.st != .poison && l.st != .absent) service tgtGen (lines.filter fun _ l => l.st != .poison && l.st != .absent) }

/-- Answer a READ of the twin; lines that could not be brought in are POISON. -/
def Dev.twinAnswer (s : Dev) (r : TwinRead) : Dev :=
  let gen := match s.regions.get? r.region with | some x => x.gen | none => 0
  let s := s.linesRead r.line r.count true
  let s := match s.regions.get? r.region with | some reg => s.sealRun reg r.line r.count | none => s
  let one := fun (k : Nat) => match s.regions.get? r.region with
    | some reg => (s.twinLine reg (r.line + k)).getD { st := .poison }
    | none => { st := .poison }
  let lines := (List.range r.count).foldl (fun t k => t.put k (one k)) Tab.empty
  let s := s.sendReadResp r.assoc r.cid r.psn false r.region r.gen r.granule r.count r.line r.tag ((s.clock - r.at_) / 2) gen lines
  match s.conn r.assoc r.cid with
  | some c => s.setConn r.assoc r.cid { c with deferred := c.deferred.del r.psn }
  | none => s

/-- READs of the twin whose fills have ended are answered (R293, R315). -/
def Dev.serveTwin (s : Dev) : Dev :=
  let wait := fun (r : TwinRead) => s.fills.has (granOf r.line) || (List.range r.count).any fun k => s.lineBusy (r.line + k)
  let go := s.mirror.serving.filter fun r => !wait r
  go.foldl Dev.twinAnswer { s with mirror := { s.mirror with serving := s.mirror.serving.filter wait } }

/-- A PROMOTE queues background fills for the granules of its run that were ever written and lie in F or N, while the queue has
room; `n` bounds the granules looked at (R231). -/
def Dev.hintRun (s : Dev) (key : Nat) : Nat → Dev
  | 0 => s
  | n + 1 =>
    match s.hints.get? key with
    | none => s
    | some j =>
      if j.stop ≤ j.next then { s with hints := s.hints.del key }.complete j.issuer cSuccess 0 j.done 0
      else
        let e := s.fme j.next
        if e.ew && (e.tier == .F || e.tier == .N) then
          let r := s.requestFill j.next .background [] []
          if r.2 then ({ r.1 with hints := r.1.hints.put key { j with next := j.next + 1, done := j.done + 1 } }).hintRun key n else s
        else ({ s with hints := s.hints.put key { j with next := j.next + 1 } }).hintRun key n

/-- PROMOTEs in progress go on. -/
def Dev.hintPump (s : Dev) : Dev :=
  s.hints.list.foldl (fun s e => s.hintRun e.1 (e.2.stop - e.2.next + 1)) s

/-- After a command that ends something: installs, waiting allocations, waiting requests, what waits on the links, COPYs, PROMOTEs, READs
of the twin, GPFs in phase 1. -/
def Dev.settle (s : Dev) : Dev :=
  s.lcPump.retryAlloc.replay.linkPump.copyPump.hintPump.serveTwin.gpfCheck.uncountIdle.wabCheck

/-- A fill's data arrives (R26): every waiting request is answered from it, and the fill can complete. -/
def Dev.fillData (s : Dev) (g : Nat) (src : FillSrc) (lines : Tab Ln) (tslot : Option Bool) (lat : Nat) : Dev :=
  match s.fills.get? g, s.regionAt g with
  | some f, some (n, reg) =>
    let s := match tslot with
      | some t => s.setFme g { s.fme g with tslot := t, tslotKnown := true }
      | none => s
    let s := s.updFill g fun f => { f with src, waiters := [], data := some lines }
    let r := f.waiters.foldl (fun (acc : Dev × List HostReq) q =>
      let a := acc.1.fillAnswer n reg g src (lines.getD (q.line % 64) {}) q lat
      if a.2 then (a.1, acc.2 ++ [q]) else (a.1, acc.2)) (s, [])
    if r.2.isEmpty then r.1
    else
      -- a line failed its tag: from N the copy is dropped and F read; from F the standby's copy is fetched
      let s := r.1.updFill g fun f => { f with waiters := r.2, data := none }
      if src = .N then
        let s := match (s.fills.get? g).bind (·.loan) with
          | some i => { s with lbm := s.lbm.del i }
          | none => s
        (s.updFill g fun f => { f with src := .F, loan := none }).fillRead g
      else s.standbyFetch g
  | _, _ => s.endFill g

/-- Lines that the standby supplied are stored DIRTY in RUN and SOFT and not installed above (R203). -/
def Dev.installState (s : Dev) (f : Fill) : Option LineState :=
  if f.src = .standby then (if s.get Reg.HLD.STATUS.STATE ≤ 1 ∨ f.settle then some .dirty else none) else some .clean

/-- Install a fill's lines where the frame's are ABSENT (R224): a line the poison index names is POISON. -/
def Dev.fillInstall (s : Dev) (g : Nat) (f : Fill) (lines : Tab Ln) : Dev :=
  let e := s.fme g
  match s.installState f with
  | none => s
  | some st =>
    if e.tier ≠ .L then s
    else
      (List.range 64).foldl (fun s k =>
        let line := g * 64 + k
        if (s.frameLn e.loc k).st ≠ .absent || (match s.lc.get? line with | some c => c.ln.st == .dirty | none => false) then s
        else
          let l := lines.getD k { st := .clean }
          if s.poison.has line then s.metaWrite e.loc k { st := .poison }
          else if l.st = .poison then (s.metaWrite e.loc k { st := .poison }).poisonAdd line 12 false
          else
            let s := s.dramWrite e.loc k { l with st }
            if st = .dirty then s.dirtied g k else s) s

/-- The stamp a completed fill leaves (R219, R230, R253). -/
def Dev.fillStamp (s : Dev) (g : Nat) (f : Fill) : Dev :=
  match f.sti with
  | x :: _ => s.stamp g (if f.hostJoin.isSome then 0 else x.ageBias)
  | [] =>
  let stream := match s.regionAt g with | some (_, r) => r.policy / 2 % 2 == 1 | none => false
  s.stamp g (if f.cls == .demand && stream then 16384 else 0)

/-- A fill completes (R224): its lines, PEND, its stamp, the freed slot, the counts; lines that are not installed above serve a rebuild that
asked for them (R205). -/
def Dev.fillDone (s : Dev) (g : Nat) : Dev :=
  match s.fills.get? g with
  | none => s
  | some f =>
    match f.data with
    | none => s
    | some lines =>
      let s := s.fillInstall g f lines
      let s := { s with fills := s.fills.del g }
      let s := if (s.installState f).isNone then { s with rebuild := s.rebuild.map fun _ b => { b with fetched := b.fetched.put g lines } } else s
      let s := (s.setFme g { s.fme g with pend := false }).fillStamp g f
      let s := match f.loan with | some i => { s with lbm := s.lbm.del i } | none => s
      match f.src with
      | .N => s.count48 Reg.TMG.PROMO_N_LO.COUNT Reg.TMG.PROMO_N_HI.COUNT 1 (tmgPlain 0x17C)
      | .F => s.count48 Reg.TMG.PROMO_F_LO.COUNT Reg.TMG.PROMO_F_HI.COUNT 1 (tmgPlain 0x17C)
      | .standby => s

end Sys2Proof.Machine
end

