-- ==== Sys2Proof/Machine/HostPath.lean ====
section
/-! DEFINITION. The requests of hosts and what ends them: reads, writes, held writes, DRAM data, known-answer tests,
eviction write-backs and the global persistent flush (R41, R43, R48, R55, R94, R97, R178). -/

namespace Sys2Proof.Machine

/-- HOST_READ: a read of LD-ID `ld` of head `h`, 0–15, with the bit errors of its map and metadata reads, should DRAM be read for them, and
what the checks of cipher jobs to come report. -/
def execHostRead (h ld hpa tag : Nat) (fmNoise mdNoise : BitVec 640) (checks : List Check) (s : State) : Answer :=
  s.on fun s => ((s.report checks).linkTake { head := h, ld, hpa, tag, write := none, poisoned := false, noise := (fmNoise, mdNoise) })

/-- HOST_WRITE: a write with its byte enables and data; `poison` = the poison indication; `noise` = the bit errors of its map and metadata
reads. -/
def execHostWrite (h ld hpa tag : Nat) (be : BitVec 64) (data : LineData) (poison : Bool) (noise : BitVec 640 × BitVec 640)
    (checks : List Check) (s : State) : Answer :=
  s.on fun s => ((s.report checks).linkTake { head := h, ld, hpa, tag, write := some (be, data), poisoned := poison, noise })

/-- A held write may pass now. -/
def Dev.mayPass (s : Dev) (q : HostReq) : Bool :=
  match s.regionAt (granOf q.line) with
  | none => true
  | some (_, reg) => (s.holdReason reg q).isNone

/-- The list without its first element that satisfies `p`, and that element. -/
def takeFirst (p : Held → Bool) : List Held → Option (Held × List Held)
  | [] => none
  | h :: r => if p h then some (h, r) else (takeFirst p r).map fun x => (x.1, h :: x.2)

/-- The oldest held write of a port that may pass is admitted (R55, R107, R108). -/
def Dev.release (s : Dev) (p : Nat) : Dev :=
  match takeFirst (fun h => s.mayPass h.req) (s.heldAt p) with
  | none => s
  | some (h, rest) =>
    let s := { s with held := if rest.isEmpty then s.held.del p else s.held.put p rest }
    (s.serve h.req).settle

/-- ADMISSION_HOLD_RELEASE at a port. -/
def execAdmissionHoldRelease (port : Nat) (s : State) : Answer := s.on fun s => (s.release port)

/-- The scheduler goes on until a read has been issued, and the clock with it: its data comes no earlier (R140). -/
def Dev.issueRead (s : Dev) (no : Nat) (d : DramRead) : Dev :=
  let waits := fun (s : Dev) => match s.reads.get? no with | some e => e.issued.isNone | none => false
  let s := s.dramRun d.chan (subOf d.cl) none (fun s => !waits s) (s.dramFuel d.chan)
  match (s.reads.get? no).bind (·.issued) with | some t => s.at (fclkAt t) | none => s

/-- Idle latency of a DRAM read that has come back: as it met its page, its key, and a metadata read behind it (R97, R98, R142). -/
def Dev.latRead (s : Dev) (d : DramRead) (enc : Bool) : Nat :=
  s.latDram d.chan d.page + latEnc enc + if d.md.isSome then s.latMdMiss d.chan d.mdOpen else 0

/-- The bits that the DRAM and its bus flip in a read: none where the data comes from the write queue (R142). -/
def DramRead.noise (d : DramRead) (v : BitVec 640) : BitVec 640 := if d.fwd then 0 else v

/-- A demand read's line has come back (R41 rows 2 and 3, R97, R117, R120): corrected and scrubbed, poisoned, or as read. -/
def Dev.readBack (s : Dev) (d : DramRead) (q : HostReq) (n : Nat) (reg : Region) (noise : BitVec 640) : Dev :=
  let e := s.fme (granOf q.line)
  let here := e.tier == .L && e.loc == d.fn
  let q := q.add (s.latRead d reg.enc)
  let r := s.eccRead d.chan d.cl (d.noise noise)
  if !r.2.ok then
    let s := r.1.ueRaise d.chan d.cl 1 r.2
    let s := if here then s.poisonLine q.line 0 false else s
    match q.write with | none => s.answerRead q none 0 | some _ => s.partialOnPoison q
  else
    let l := { d.ln with data := d.ln.data ^^^ r.2.left }
    let s := if !r.2.corrected then r.1
      else
        let wrong := r.2.left != 0 && here && !d.overtaken && r.1.bit Reg.ECS.CFG.DEMAND_WB
        let s := if wrong then r.1.setFrameLn d.fn (q.line % 64) { r.1.frameLn d.fn (q.line % 64) with data := l.data } else r.1
        s.demandScrub d.chan d.cl d.overtaken
    match q.write with
    | some (be, new) => s.mergeLine n reg q be new l 1 0
    | none =>
      let now := s.frameLn d.fn (q.line % 64)
      let s := if s.bit Reg.LC.CFG.RD_ALLOC && here && now.st != .absent && (s.openLine reg q.line l matches .data _) then
        s.lcPut q.line { l with st := now.st } else s
      s.readLine n reg q l 1 0

/-- A DRAM read comes back, once it has been issued; one of a subchannel in parity retry comes after it (R154). -/
def Dev.readDone (s : Dev) (no : Nat) (noise : BitVec 640) : Dev :=
  match s.reads.get? no with
  | none => s
  | some d =>
    let s := s.issueRead no d
    match s.reads.get? no with
    | none => s
    | some d =>
      if d.issued.isNone || (s.channel d.chan).retry.has (subOf d.cl) then s
      else
        let s := { s with reads := s.reads.del no }
        match d.what with
        | .background => s
        | .host q =>
          match s.regionAt (granOf q.line) with
          | none => s.refuse q
          | some (n, reg) => if !s.chanUp d.chan then s.refuse q else s.readBack d q n reg noise

/-- DRAM_READ_COMPLETE of read number `read`: bits that the DRAM or its bus flips in the four codewords, and what the
checks of cipher jobs to come report. -/
def execDramReadComplete (read : Nat) (noise : BitVec 640) (checks : List Check) (s : State) : Answer :=
  s.on fun s => (((s.report checks).readDone read noise).settle)

/-- KAT_COMPLETE of lane or Keccak core `unit`; `powerOn` = a power-on test, `last` = the last of them (R178, R184). -/
def Dev.kat (s : Dev) (core : Bool) (unit : Nat) (pass powerOn last : Bool) : Dev :=
  let no := if core then coreUnit unit else unit
  let s := (s.rntAsk 7 .vectors false 0).1.setRnt fun r => { r with kats := r.kats.del no }
  let s := if pass then s
    else
      let f := if core then Reg.RNT.KECCAK_FAIL.CORES else if unit < 32 then Reg.RNT.LANE_FAIL_LO.LANES else Reg.RNT.LANE_FAIL_HI.LANES
      let b := if core then unit else unit % 32
      if (s.get f).testBit b then s
      else
        let s := s.set f (withBit (s.get f) b)
        let c := if core then Reg.RNT.STS.KECCAK_OK else Reg.RNT.STS.LANES_OK
        let s := s.set c (s.get c - 1)
        let s := s.raise (rntEv 0x075 7 0 no 0 0 0 (2 ^ 40 - 1) 0 true)
        if powerOn then s.raise (rntEv 0x078 7 0 no 0 0 0 (2 ^ 40 - 1) 0 true) else s
  if powerOn && last && s.get Reg.RNT.STS.LANES_OK == 48 && s.get Reg.RNT.STS.KECCAK_OK == 24
  then s.setBit Reg.RNT.STS.KAT_DONE true else s

def execKatComplete (core : Bool) (unit : Nat) (pass powerOn last : Bool) (s : State) : Answer :=
  s.on fun s => (if (core && decide (unit < 24)) || (!core && decide (unit < 48)) then s.kat core unit pass powerOn last else s)

/-- LC_EVICTION_WRITEBACK: the oldest line of a slice's eviction buffer goes to its frame (R94), and installs that waited for it go on. -/
def execLcEvictionWriteback (slice : Nat) (s : State) : Answer :=
  s.on fun s => (match lruWay (s.lcBuffer slice) with | some v => (s.lcWriteback v.1).settle | none => s)

/-- GLOBAL_PERSISTENT_FLUSH requested at a head (R48). -/
def execGlobalPersistentFlush (h : Nat) (s : State) : Answer :=
  s.on fun s => (if s.memOpen h then
      ({ s with mirror := { s.mirror with gpf := s.mirror.gpf ++ [(h, s.openWrites)] } }).gpfCheck
    else s)

end Sys2Proof.Machine
end

