-- ==== Sys2Proof/Machine/Link.lean ====
section
/-! DEFINITION. HP0–HP3: ports, heads, their links, resets, IDE, HDM decoders and link errors (R65–R73, R76, R81–R86,
R89, R491). -/

namespace Sys2Proof.Machine

/-- Heads that exist on a port. -/
def Dev.headsOf (s : Dev) (n : Nat) : List Nat := (List.range (s.headCount n)).map fun h => 4 * n + h

/-- The functions that a head presents: its LDs, and the management function if it carries it (R68). -/
def Dev.funcsOf (s : Dev) (H : Nat) : List Nat :=
  (if s.headOn H then (List.range (s.ldCnt H)).map fun i => s.gldBase H + i else []) ++ (if s.mgmt = some H then [64] else [])

/-- SPDM instance of the FM-owned LD of a head, and of MCTP; the LDs' are 0–63, the management function's 64. -/
def fmOwned (H : Nat) : Nat := 128 + H
def mctpInst : Nat := 65

/-- Clear LINK_STS of a head; `ide` is what its IDE field shows. -/
def Dev.linkClear (s : Dev) (H ide : Nat) : Dev :=
  let n := H / 4; let h := H % 4
  let s := ((s.set (Reg.HP.LINK_STS.RATE n h) 0).set (Reg.HP.LINK_STS.WIDTH n h) 0).set (Reg.HP.LINK_STS.FLIT n h) 0
  let s := ((s.set (Reg.HP.LINK_STS.MEM_EN n h) 0).set (Reg.HP.LINK_STS.MEM_ACTIVE n h) 0).set (Reg.HP.LINK_STS.IDE n h) ide
  let s := s.set (Reg.HP.LINK_STS.IDE_CONT n h) 0
  (List.range 16).foldl (fun s l => if l / (16 / s.headCount n) = h then s.set (Reg.HP.LANE.ACTIVE n l) 0 else s) s

/-- No completion of an earlier request of the head can be returned any more, and what was not admitted is discarded. -/
def Dev.dropHead (s : Dev) (H : Nat) : Dev :=
  let s := s.setHead H { s.head H with resets := (s.head H).resets + 1 }
  let l := (s.heldAt (H / 4)).filter fun x => x.req.head != H
  { s with held := if l.isEmpty then s.held.del (H / 4) else s.held.put (H / 4) l
           linkWait := s.linkWait.filter fun r => r.head != H
           rteWait := s.rteWait.filter fun r => !(r.via == .host && r.head == H && !r.admitted) }

/-- A head's link goes down (R89). -/
def Dev.linkDown (s : Dev) (H ide : Nat) : Dev :=
  if s.linkUp H then ((s.linkClear H ide).dropHead H).raise (hpEv (H / 4) 1) else s

/-- The head's IDE keys go: both key sets, and link key slots 4H to 4H + 3 (R71, R82). -/
def Dev.dropIde (s : Dev) (H : Nat) : Dev :=
  let s := s.setHead H { s.head H with set0 := {}, set1 := {}, current := 0, epochLen := 1 }
  { s with island := { s.island with links := (List.range 4).foldl (fun t k => t.del (4 * H + k)) s.island.links } }

/-- A ring's registers at reset; its taken commands go on without a completion (R389). -/
def Ring.emptied (x : Ring) : Ring := { taken := x.taken.map fun t => { t with mute := true } }

/-- Rings and MSI-X tables of a function return to reset; taken commands go on without a completion (R389, R488). -/
def Dev.resetFunc (s : Dev) (f : Nat) : Dev :=
  let clear := fun (k : Nat) (x : Ring) =>
    if k / 16 = f then Ring.emptied x else x
  let s := { s with rings := s.rings.map clear }
  s.setMsix f {}

/-- A function of a reset head loses its decoder commits, its mailbox and DOE state and its rings (R71, R389). -/
def Dev.resetLd (s : Dev) (f : Nat) : Dev :=
  let s := s.resetFunc f
  let l := s.ld f
  let d := l.decoders.map fun _ d => { d with committed := false, lock := false, error := false }
  let s := { s with does := s.does.del f }
  if f < 64 then s.setLd f { l with decoders := d, policy := 0, events := [], shutdownState := 0 } else s

/-- The SPDM and DOE instances that a head carries end. -/
def Dev.dropSpdm (s : Dev) (H : Nat) : Dev :=
  let s := { s with does := s.does.del (fmOwned H) }
  let keep := fun (k : Nat) (_ : SpdmInst) => !(s.funcsOf H).contains k && k != fmOwned H
  { s with island := { s.island with spdm := s.island.spdm.filter keep } }

/-- A reset of a head ends: while a power-fail flush is in progress the head stays in Detect (R72). -/
def Dev.resetEnds (s : Dev) (H : Nat) : Dev :=
  if 4 ≤ s.get Reg.HLD.STATUS.STATE then s.setHead H { s.head H with detect := true } else s

/-- A reset of a head (R71): `perst` = by PERST_Nn. -/
def Dev.headReset (s : Dev) (H : Nat) (perst : Bool) : Dev :=
  let n := H / 4
  let s := s.linkDown H 0
  let s := (s.linkClear H 0).dropHead H
  let s := ((s.funcsOf H).foldl Dev.resetLd s).dropSpdm H
  let s := s.dropIde H
  let s := if perst then s.set (Reg.HP.PORT_STS.PERST n) (withBit (s.get (Reg.HP.PORT_STS.PERST n)) (H % 4)) else s.resetEnds H
  s.raise (hpRec n 3 H)

/-- HEAD_RESET: `kind` 0 PERST_Nn of the head's port, which resets every head of it; 1 Hot Reset, 2 Link Disable of the
head alone; 3 the end of PERST_Nn. -/
def execHeadReset (h kind : Nat) (s : State) : Answer :=
  s.on fun s => (if 16 ≤ h then s
    else if kind = 3 then
      if s.get (Reg.HP.PORT_STS.PERST (h / 4)) = 0 then s
      else ((s.headsOf (h / 4)).foldl Dev.resetEnds s).set (Reg.HP.PORT_STS.PERST (h / 4)) 0
    else if kind = 0 then ((s.headsOf (h / 4)).foldl (fun s H => s.headReset H true) s).gpfCheck
    else if h % 4 < s.headCount (h / 4) then (s.headReset h false).gpfCheck else s)

/-- Rate code of MAX_RATE (R69), and the width a head is configured for (R65). -/
def maxRate (m : Nat) : Nat := if m = 0 then 6 else if m = 1 then 5 else 4
def Dev.maxWidth (s : Dev) (n : Nat) : Nat := 16 / s.headCount n

/-- Fill and restore are complete, so that Memory_Active may be set (R40, R62, R72). -/
def Dev.memReady (s : Dev) : Bool := s.bit Reg.ECS.FILL_STS.ALL_DONE && s.imageOnline

/-- A head runs CXL.mem at this rate and width (R69), and its IDE allows it (R82). -/
def Dev.memAllowed (s : Dev) (H : Nat) : Bool :=
  let n := H / 4; let h := H % 4
  decide (4 ≤ s.get (Reg.HP.LINK_STS.RATE n h)) && decide (4 ≤ s.get (Reg.HP.LINK_STS.WIDTH n h)) &&
  (!s.bit (Reg.HP.HEAD_CFG.IDE_REQ n h) || s.get (Reg.HP.LINK_STS.IDE n h) == 1)

/-- MEM_EN follows the link and IDE; Memory_Active follows fill and restore. -/
def Dev.memUpdate (s : Dev) (H : Nat) : Dev :=
  if s.linkUp H then
    (s.setBit (Reg.HP.LINK_STS.MEM_EN (H / 4) (H % 4)) (s.memAllowed H)).setBit
      (Reg.HP.LINK_STS.MEM_ACTIVE (H / 4) (H % 4)) s.memReady
  else s
def Dev.memUpdateAll (s : Dev) : Dev := (List.range 16).foldl Dev.memUpdate s

/-- A head may train: enabled, out of reset, not kept in Detect, its PHY powered, and a firmware image booted (R365). -/
def Dev.mayTrain (s : Dev) (H : Nat) : Bool :=
  !s.bit Reg.KSL.BOOT_STS.FAILED && s.headOn H && !(s.get (Reg.HP.PORT_STS.PERST (H / 4))).testBit (H % 4) && !(s.head H).detect && !s.psq.linksDown

/-- The lanes of a head are reversed: its first lane is not logical lane 0. -/
def lanesReversed (phy : List Nat) : Bool := phy.getD 0 0 / 32 % 16 != 0

/-- HEAD_LINK_UP: a head trains at a rate (4–6 with CXL.mem) and a width, with a flit mode; `phy` gives PRESET, POL and
LOGICAL of its lanes as LANE shows them (R69, R70, R72, R84). A head with reversed lanes does not train while LANE_REV is 0 (R69).
DESIGN CHOICE (log entry 57): a head at full rate and width that IDE_REQ alone keeps to CXL.io (R82) is a CXL.io-only outcome and raises
event 2. -/
def Dev.headUp (s : Dev) (H rate width flit : Nat) (phy : List Nat) : Dev :=
  let n := H / 4; let h := H % 4
  let w := s.maxWidth n
  if s.mayTrain H && !s.linkUp H && decide (1 ≤ rate) && decide (rate ≤ maxRate (s.get (Reg.HP.PORT_CFG.MAX_RATE n))) &&
      [1, 2, 4, 8, 16].contains width && decide (width ≤ w) && (s.bit (Reg.HP.PORT_CFG.LANE_REV n) || !lanesReversed phy) then
    let s := ((s.set (Reg.HP.LINK_STS.RATE n h) rate).set (Reg.HP.LINK_STS.WIDTH n h) width).set (Reg.HP.LINK_STS.FLIT n h)
      (if rate = 6 then (if flit = 2 then 2 else 3) else if 4 ≤ rate then 1 else 0)
    let s := (s.set (Reg.HP.LINK_STS.IDE n h) 0).set (Reg.HP.LINK_STS.IDE_CONT n h) 0
    let s := (List.range w).foldl (fun s k =>
      let l := h * w + k; let x := phy.getD k 0
      let s := (s.set (Reg.HP.LANE.PRESET n l) (x % 16)).set (Reg.HP.LANE.POL n l) (x / 16 % 2)
      (s.set (Reg.HP.LANE.LOGICAL n l) (x / 32 % 16)).setBit (Reg.HP.LANE.ACTIVE n l)
        (decide ((if lanesReversed phy then w - 1 - k else k) < width))) s
    let s := (s.calTrained (64 + 16 * n + h * w) w).memUpdate H
    let x := s.head H
    let s := s.setHead H { x with rate, width, cdatIde := none }
    let s := if s.bit (Reg.HP.LINK_STS.MEM_EN n h) then s.raise (hpEv n 0) else s
    if decide (rate < maxRate (s.get (Reg.HP.PORT_CFG.MAX_RATE n))) || decide (width < w) || !s.memAllowed H ||
        (x.rate != 0 && (x.rate != rate || x.width != width)) || x.cdatIde.isSome then s.raise (hpEv n 2) else s
  else s

def execHeadLinkUp (h rate width flit : Nat) (phy : List Nat) (s : State) : Answer :=
  s.on fun s => (if h < 16 then s.headUp h rate width flit phy else s)

/-- HEAD_LINK_DOWN (R89). -/
def execHeadLinkDown (h : Nat) (s : State) : Answer := s.on fun s => (if h < 16 then (s.linkDown h 0).gpfCheck else s)

/-- The CDAT of every LD changes but for the head's own doing (R84): each enabled head raises its local event 2. DEDUCED (log entry 57): a
head whose link is down raises it too, as a host may still hold the CDAT. -/
def Dev.cdatChanged (s : Dev) : Dev :=
  (List.range 16).foldl (fun s H => if s.headOn H then s.raise (hpEv (H / 4) 2) else s) s

/-- The LD ranges that the enabled heads would have with port n enabled too (R67). -/
def Dev.ldRanges (s : Dev) (n : Nat) : List (Nat × Nat) :=
  ((List.range 16).filter fun H => (H / 4 == n || s.bit (Reg.HP.PORT_CFG.ENABLE (H / 4))) &&
    decide (H % 4 < s.headCount (H / 4)) && decide (0 < s.ldCnt H)).map fun H => (s.gldBase H, s.gldBase H + s.ldCnt H)

/-- No two ranges overlap. -/
def disjoint : List (Nat × Nat) → Bool
  | [] => true
  | r :: l => l.all (fun x => decide (r.2 ≤ x.1) || decide (x.2 ≤ r.1)) && disjoint l

/-- Setting ENABLE of port n (R67, R68). -/
def Dev.portEnable (s : Dev) (n : Nat) : Dev :=
  let ranges := s.ldRanges n
  let ok := disjoint ranges && ranges.all (fun r => decide (r.2 ≤ 64)) &&
    (List.range 4).all (fun h => decide (h < s.headCount n) || s.ldCnt (4 * n + h) == 0)
  if !ok then (s.setBit (Reg.HP.PORT_STS.CFG_ERR n) true).raise (hpEv n 13)
  else
    let s := s.setBit (Reg.HP.PORT_CFG.ENABLE n) true
    let m := (s.headsOf n).filter fun H => s.bit (Reg.HP.HEAD_CFG.MGMT n (H % 4))
    let s := match s.mgmt, m with | none, H :: _ => { s with mgmt := some H } | _, _ => s
    (m.filter fun H => s.mgmt != some H).foldl (fun s _ => s.raise (hpEv n 13)) s

/-- PORT_ENABLE_WRITE: ENABLE of PORT_CFG is written 1; under LOCK the write is discarded (R67, R484). -/
def execPortEnableWrite (n : Nat) (s : State) : Answer :=
  s.on fun s => (if 4 ≤ n then s
    else if s.bit (Reg.HP.LOCK.LOCK n) then s.discard (Reg.HP.PORT_CFG.ENABLE n).addr 1
    else if s.bit (Reg.HP.PORT_CFG.ENABLE n) then s else s.portEnable n)

/-- ENABLE of a port is cleared: its heads' links go down. -/
def Dev.portDisable (s : Dev) (n : Nat) : Dev :=
  ((s.headsOf n).foldl (fun s H => s.linkDown H 0) s).setBit (Reg.HP.PORT_CFG.ENABLE n) false

/-- Interleave ways and granularity that a decoder takes; 256 MiB multiples (R73). -/
def decoderOk (base size ways gran skip : Nat) : Bool :=
  [1, 2, 3, 4, 6, 8, 12, 16].contains ways && [256, 512, 1024, 2048, 4096, 8192, 16384].contains gran &&
  base % 2 ^ 28 == 0 && size % 2 ^ 28 == 0 && skip % 2 ^ 28 == 0 && decide (0 < size)

/-- Commit decoder i of an LD (R73): its DPA range follows the decoder before it, after the skip. -/
def Dev.decoderCommit (s : Dev) (g i base size ways gran skip : Nat) (lock : Bool) : Dev :=
  let l := s.ld g
  let d := l.decoders.getD i {}
  if d.lock ∨ d.committed then s
  else
    let prev := l.decoders.getD (i - 1) {}
    let start := (if i = 0 then 0 else prev.dpaBase + prev.size / prev.ways) + skip
    let inOrder := i == 0 || prev.committed
    let ok := decoderOk base size ways gran skip && inOrder && decide (start + size / ways ≤ 2 ^ 46)
    let d' : Decoder := { hpaBase := base, size, skip, ways, gran, lock := lock && ok, committed := ok, error := !ok, dpaBase := start }
    let s := s.setLd g { l with decoders := l.decoders.put i d' }
    if ok then s else match s.headOfGld g with | some H => s.raise (hpEv (H / 4) 13) | none => s

/-- HDM_DECODER_COMMIT of decoder `i` of a global LD; `commit` false takes an unlocked decoder's commit back. -/
def execHdmDecoderCommit (gld i : Nat) (commit : Bool) (base size ways gran skip : Nat) (lock : Bool) (s : State) : Answer :=
  s.on fun s => (if 64 ≤ gld ∨ 8 ≤ i ∨ (s.headOfGld gld).isNone then s
    else if commit then s.decoderCommit gld i base size ways gran skip lock
    else
      let l := s.ld gld
      if (l.decoders.getD i {}).lock then s
      else s.setLd gld { l with decoders := l.decoders.upd i fun d => { d with committed := false, error := false } })

/-- IDE_INTEGRITY_FAILURE on a head, found under a key set (R83). -/
def execIdeIntegrityFailure (h keyset : Nat) (s : State) : Answer :=
  s.on fun s => (if 16 ≤ h ∨ s.get (Reg.HP.LINK_STS.IDE (h / 4) (h % 4)) ≠ 1 then s
    else
      let n := h / 4
      let s := (s.countUp (Reg.HP.ERR.COUNT n (h % 4) 5) (Reg.HP.ERR.SAT n (h % 4) 5) 1).1
      let s := s.raise (hpRec n 4 keyset)
      ((s.linkDown h 2).dropIde h).gpfCheck)

/-- The SPDM instance that programs a head's IDE keys (R82). -/
def Dev.ideInst (s : Dev) (H : Nat) : Nat := if s.ldCnt H = 1 then s.gldBase H else fmOwned H

/-- A session has shown a sign of life within two heartbeat periods of 60 s (R368, log entry 39). -/
def Dev.sessionLive (s : Dev) (x : Session) : Bool := decide (s.clock ≤ x.lastBeat + 120 * fclkS)

/-- An SPDM instance has an established session. -/
def Dev.secured (s : Dev) (inst : Nat) : Bool :=
  match s.island.spdm.get? inst with | some x => x.sessions.list.any fun e => e.2.phase == 1 && s.sessionLive e.2 | none => false

/-- IDE_KM_KEY_PROG: a key of key set 0 or 1, receive or transmit, goes into the head's link key slot (R82). -/
def execIdeKmKeyProg (h set : Nat) (i : IdeKey) (s : State) : Answer :=
  s.on fun s => (if 16 ≤ h ∨ 2 ≤ set ∨ !s.headOn h ∨ !s.secured (s.ideInst h) then s
    else
      let x := s.head h
      let k := if set = 0 then x.set0 else x.set1
      let k : KeySet := if i.tx then { k with tx := true } else { k with rx := true }
      let s := s.setHead h (if set = 0 then { x with set0 := k } else { x with set1 := k })
      let slot := 4 * h + (if i.tx then 2 else 0) + set
      ({ s with island := { s.island with links := s.island.links.put slot { key := i.key, salt := i.salt, dir := if i.tx then 1 else 0 } } }).send
        (.message (s.ideInst h) 0 [set, if i.tx then 1 else 0]))

/-- K_SET_GO: the head switches to a key set, in skid or containment mode with an epoch length (R81, R82, R84). -/
def execKSetGo (h set : Nat) (cont : Bool) (epochLen : Nat) (s : State) : Answer :=
  s.on fun s => (
    let n := h / 4; let i := h % 4
    if 16 ≤ h ∨ 2 ≤ set ∨ !s.linkUp h then s
    else
      let x := s.head h
      let k := if set = 0 then x.set0 else x.set1
      let allowed := s.bit (if cont then Reg.HP.HEAD_CFG.IDE_CONT_OK n i else Reg.HP.HEAD_CFG.IDE_SKID_OK n i)
      if !(k.rx && k.tx) then s.raise (hpEv n 5)
      else if !allowed ∨ epochLen = 0 ∨ 5 < epochLen then s
      else
        let changed := x.cdatIde ≠ some (cont, epochLen)
        let s := s.setHead h { x with current := set, epochLen, cdatIde := some (cont, epochLen) }
        let s := (s.set (Reg.HP.LINK_STS.IDE n i) 1).setBit (Reg.HP.LINK_STS.IDE_CONT n i) cont
        let was := s.bit (Reg.HP.LINK_STS.MEM_EN n i)
        let s := s.memUpdate h
        let s := if !was ∧ s.bit (Reg.HP.LINK_STS.MEM_EN n i) then s.raise (hpEv n 0) else s
        if changed then s.raise (hpEv n 2) else s)

/-- The head that carries a function or the FM-owned LD of an MLD head (R66, R86). -/
def Dev.headOfInst (s : Dev) (inst : Nat) : Option Nat :=
  if inst ≤ 64 then s.headOfFunc inst
  else if 128 ≤ inst ∧ inst < 144 ∧ s.headOn (inst - 128) ∧ 2 ≤ s.ldCnt (inst - 128) then some (inst - 128) else none

/-- CXL_LINK_ERROR of a head: 0 correctable receiver error, 1 flit CRC, 2 FEC corrected, 4 an uncorrectable flit;
`replay` = the flit is replayed (R89, R491). -/
def execCxlLinkError (h kind : Nat) (replay : Bool) (s : State) : Answer :=
  s.on fun s => (
    let n := h / 4; let i := h % 4
    let add := fun (s : Dev) (k : Nat) => (s.countUp (Reg.HP.ERR.COUNT n i k) (Reg.HP.ERR.SAT n i k) 1).1
    if 16 ≤ h ∨ !s.linkUp h ∨ kind = 3 ∨ 4 < kind then s
    else
      let s := add s kind
      let s := if replay ∧ kind ≠ 0 ∧ kind ≠ 2 then add s 3 else s
      if kind = 0 then (if s.get (Reg.HP.ERR.COUNT n i 0) = s.get (Reg.HP.CE_THRESH.THRESH n) then s.raise (hpEv n 9) else s)
      else if kind = 4 ∧ replay then s.raise (hpEv n 14) else s)

/-- POISONED_TLP at a head: discarded, and logged in AER (R76). -/
def execPoisonedTlp (h : Nat) (s : State) : Answer :=
  s.on fun s => (if 16 ≤ h ∨ !s.linkUp h then s else (s.setHead h { s.head h with aerPoisoned := true }).raise (hpEv (h / 4) 8))

end Sys2Proof.Machine
end

