-- ==== Sys2Proof/Machine/RegionCore.lean ====
section
/-! DEFINITION. The region table's changes: the region log (R37), offers, attachments and releases of dynamic capacity
(R77–R80), and revocation (R80 Case C, R295, R404). -/

namespace Sys2Proof.Machine

/-- RSEQ of the next region-log record. -/
def Dev.nextRseq (s : Dev) : Nat :=
  let m := (s.regionLog.half0.recs ++ s.regionLog.half1.recs).foldl (fun m r => max m (r.rseq + 1)) 1
  s.logWait.foldl (fun m e => max m (e.recd.rseq + 1)) m

/-- Write a region's record; what follows it waits for its programming (R37). -/
def Dev.logRegion (s : Dev) (n : Nat) (after : List AfterLog) : Dev :=
  let e := s.regions.get? n
  let epoch := match e.bind (·.slot) with | some k => (s.slot k).epoch.toNat | none => 0
  let r : RegionLogRec := { region := n, entry := e, rseq := s.nextRseq, imageId := s.image.imageId % 2 ^ 64, epoch
                            fingerprint := match e with | some x => (s.regionFingerprint x).toNat | none => 0
                            gen := match e with | some x => x.gen | none => s.gens.getD n 0 }
  { s with logWait := s.logWait ++ [{ recd := r.sealed s.imageKey, after }] }

/-- Tell whoever issued an offer or a release how it ended: a ring command with its status, or the FM with its return
code (R79, R80). -/
def Dev.dcAnswer (s : Dev) (who : DcIssuer) (status r0 r1 opcode code : Nat) : Dev :=
  match who with
  | .ring i => s.complete i status 0 r0 r1
  | .fm => s.send (.fm opcode code [])
  | .revoke => s
  | .none => s

/-- FM API opcodes of Initiate Dynamic Capacity Add and Release (log entry 9). -/
def opDcAdd : Nat := 0x5604
def opDcRelease : Nat := 0x5605

/-- A command whose record is programmed is forwarded, and completes unless it waits for the standby (R307, R309). -/
def Dev.commandDone (s : Dev) (cmd : FwdCmd) (who : DcIssuer) (r0 r1 : Nat) : Dev :=
  match who with
  | .ring i =>
    let f := s.forward cmd (some i) r0 r1
    if f.2 then f.1 else f.1.complete i cSuccess 0 r0 r1
  | w => ((s.forward cmd none r0 r1).1).dcAnswer w cSuccess r0 r1 opDcAdd 0

/-- DCD_TIMEOUT of the head that presents an LD, in FCLK (R79). -/
def Dev.dcdTimeout (s : Dev) (g : Nat) : Nat :=
  (match s.headOfGld g with | some H => s.get (Reg.HP.DCD_TIMEOUT.SEC (H / 4)) | none => 10) * fclkS

/-- Write an event record of an LD, and signal its host as its interrupt policy says (R79). -/
def Dev.ldRecord (s : Dev) (g : Nat) (kind : LdRecordKind) (n : Nat) (r : Region) : Dev :=
  let l := s.ld g
  let s := s.setLd g { l with events := l.events ++
    [{ kind, region := n, gen := r.gen, tenant := r.tenant, dpa := r.base * 2 ^ 21, len := r.size * 2 ^ 21 }] }
  if l.policy / 2 ^ 32 % 256 = 0 then s else s.send (.ldInterrupt g)

/-- The tenant through which an LD may reach a region: its owner, or a grantee (R79, R375). -/
def Dev.reachTenant (s : Dev) (g n : Nat) (r : Region) : Option Nat :=
  match s.island.store.bind.get? g with
  | none => none
  | some t => if t = r.tenant ∨ (s.island.store.shares.getD n []).any (fun x => x.tenant == t) then some t else none

/-- Class of a region in the ranking of R85. -/
def Region.cdatClass (r : Region) : Nat := (if r.enc then 1 else 0) + if r.twin then 2 else 0

/-- Extents of 2 MiB in a DC region of 8 TiB (R77). -/
def dcExtents : Nat := 2 ^ 22

/-- The first check of R79 step 1 that an offer fails, in the order of R404: 1 no room for an extent, 2 the region's
state, 3 not bound. -/
def Dev.offerFault (s : Dev) (g n : Nat) (r : Region) : Option Nat :=
  let l := s.ld g
  if 512 ≤ l.extents.size + l.offers.size then some 1
  else if r.draining || r.attached.contains g || l.offers.has n || r.base / dcExtents != (r.base + r.size - 1) / dcExtents ||
      decide (s.get (Reg.HP.DCR_CLASS.CLASS 0 (r.base / dcExtents)) < r.cdatClass) then some 2
  else if (s.reachTenant g n r).isNone then some 3
  else none

/-- LDs to which a region is offered or attached, but for one. -/
def Dev.otherLds (s : Dev) (g n : Nat) (r : Region) : Bool :=
  r.attached.any (· != g) || s.lds.list.any fun e => e.1 != g && e.2.offers.has n

/-- Offer a region to an LD (R79 step 2): Sharable if another LD has it (R77). -/
def Dev.openOffer (s : Dev) (g n : Nat) (r : Region) (who : DcIssuer) : Dev :=
  let l := s.ld g
  let s := s.setLd g { l with offers := l.offers.put n { gen := r.gen, opened := s.clock, issuer := who } }
  s.ldRecord g (.addCapacity (s.otherLds g n r)) n r

/-- An offer is still open (R79 step 5). -/
def Dev.offerOpen (s : Dev) (g : Nat) (o : Offer) : Bool := decide (s.clock < o.opened + s.dcdTimeout g)

def Dev.dropOffer (s : Dev) (g n : Nat) : Dev :=
  let l := s.ld g
  s.setLd g { l with offers := l.offers.del n }

/-- A host accepts an offer (R79 step 4): attached from now on, its extent listed, the change logged; the issuer's
completion and the host's own answer wait for the record. DESIGN CHOICE (log entry 57): step 1 is checked when the offer is made and not
again, so an open offer can still be accepted after the region went DRAINING or the LD lost its authority. -/
def Dev.attach (s : Dev) (g n : Nat) (who : DcIssuer) (opcode : Nat) : Dev :=
  match s.regions.get? n with
  | none => s
  | some r =>
    let share := match s.reachTenant g n r with | some t => if t = r.tenant then [] else [(g, t)] | none => []
    let s := { s with regions := s.regions.put n { r with attached := r.attached ++ [g], viaShare := r.viaShare ++ share } }
    let l := s.ld g
    let s := s.setLd g { l with extents := l.extents.put n r.gen }
    s.logRegion n [.mailbox g opcode, .command (.regionAttach n r.gen g) who 1 0]

/-- An attachment ends for new requests. -/
def Dev.detach (s : Dev) (g n : Nat) : Dev :=
  let s := { s with regions := s.regions.upd n fun r =>
    { r with attached := r.attached.filter (· != g), viaShare := r.viaShare.filter fun x => x.1 != g } }
  let l := s.ld g
  s.setLd g { l with extents := l.extents.del n }

/-- A request concerns a region. -/
def inRegion (r : Region) (line : Nat) : Bool := decide (r.base ≤ extOf (granOf line)) && decide (extOf (granOf line) < r.base + r.size)

/-- In-flight count of a region (R295): requests of hosts, fills, held and waiting packets, and COPYs. -/
def Dev.inflight (s : Dev) (n : Nat) : Nat :=
  match s.regions.get? n with
  | none => 0
  | some r =>
    let g := fun x => inRegion r (x * 64)
    (s.reads.list.filter fun e => inRegion r e.2.line).length + (s.fills.list.filter fun e => g e.1).length +
    (s.allocWait.filter fun q => inRegion r q.line).length + (s.rteWait.filter fun q => inRegion r q.line).length +
    (s.held.list.foldl (fun a e => a + (e.2.filter fun h => inRegion r h.req.line).length) 0) +
    (s.copies.list.filter fun e => e.2.src == n || e.2.dst == n).length +
    (s.mirror.serving.filter fun r => r.region == n).length

/-- Releases of a region that still wait for their hosts. -/
def Dev.releasesOf (s : Dev) (n : Nat) : List Nat :=
  (s.lds.list.filter fun e => match e.2.releases.get? n with | some p => p.issuer == .revoke | none => false).map (·.1)

/-- A revocation completes once its releases are done and, for the whole region, nothing is in flight (R80, R404). -/
def Dev.revokeCheck (s : Dev) (n : Nat) : Dev :=
  match s.revokes.get? n, s.regions.get? n with
  | some v, some r =>
    if !(s.releasesOf n).isEmpty then s
    else match v.gld with
      | some g =>
        let s := { s with revokes := s.revokes.del n }
        s.logRegion n [.command (.regionRevoke n r.gen (some g)) (.ring v.issuer) r.gen v.forced]
      | none =>
        if r.attached.isEmpty && s.inflight n == 0 then
          let gen := (r.gen + 1) % 65536
          let s := { s with revokes := s.revokes.del n, gens := s.gens.put n gen
                            regions := s.regions.put n { r with gen, draining := false } }
          s.logRegion n [.command (.regionRevoke n r.gen none) (.ring v.issuer) gen v.forced]
        else s
  | _, _ => s

/-- Every revocation in progress is looked at. -/
def Dev.revokeAll (s : Dev) : Dev := s.revokes.keys.foldl Dev.revokeCheck s

/-- Ask a host to release a region (R80 Cases B and D). -/
def Dev.askRelease (s : Dev) (g n : Nat) (forced lost : Bool) (who : DcIssuer) : Dev :=
  match s.regions.get? n with
  | none => s
  | some r =>
    let l := s.ld g
    let p : PendingRelease := { gen := r.gen, opened := s.clock, forced, lost, issuer := who }
    (s.setLd g { l with releases := l.releases.put n p }).ldRecord g .releaseCapacity n r

/-- A pending release ends: whoever asked for it hears of it, once the records in `logged` are programmed (R37). -/
def Dev.releaseEnds (s : Dev) (g n : Nat) (ok : Bool) (logged : Option (List AfterLog)) : Dev :=
  let l := s.ld g
  let p := l.releases.get? n
  let s := s.setLd g { l with releases := l.releases.del n }
  let asked : List AfterLog := match p with | some p => if p.issuer = .revoke then [] else [.released p.issuer] | none => []
  let s := match logged with
    | some after => s.logRegion n (after ++ asked)
    | none => match p with
      | some p => if p.issuer = .revoke then s else s.dcAnswer p.issuer cSuccess 0 0 opDcRelease (if ok then 0 else 5)
      | none => s
  if p.isSome then s.revokeCheck n else s

/-- The host releases a region (R80 Case A): the attachment ends, is logged, and answers a pending request. -/
def Dev.hostRelease (s : Dev) (g n : Nat) (after : List AfterLog) : Dev :=
  (s.detach g n).releaseEnds g n true (some after)

/-- The wait for a release ends without one (R80 Cases B and D). -/
def Dev.releaseTimeout (s : Dev) (g n : Nat) : Dev :=
  match (s.ld g).releases.get? n, s.regions.get? n with
  | some p, some r =>
    let hp := fun (s : Dev) => match s.headOfGld g with | some H => s.raise (hpEv (H / 4) 12) | none => s
    if p.forced then
      let s := if p.lost then s else s.detach g n
      let s := hp (s.ldRecord g .forcedRelease n r)
      let s := if p.issuer = .revoke then { s with revokes := s.revokes.upd n fun v => { v with forced := v.forced + 1 } } else s
      s.releaseEnds g n true (if p.lost then none else some [])
    else s.releaseEnds g n false none
  | _, _ => s

/-- Authority behind an attachment is lost (R80 Case D). -/
def Dev.loseAttachment (s : Dev) (g n : Nat) : Dev :=
  let s := (s.detach g n).logRegion n []
  s.askRelease g n true true .none

/-- The next region-log record is programmed (R37); what waited for it follows. -/
def Dev.regionLogged (s : Dev) : Dev :=
  match s.logWait with
  | [] => s
  | w :: rest =>
    let s := { s with logWait := rest, regionLog := s.regionLog.program s.imageKey s.image.imageId w.recd }
    w.after.foldl (fun s a => match a with
      | .command cmd who r0 r1 => s.commandDone cmd who r0 r1
      | .mailbox g op => s.send (.mailbox g op 0 [])
      | .ackCmd a cid psn => s.ackLater a cid psn
      | .released who => s.dcAnswer who cSuccess 0 0 opDcRelease 0) s

end Sys2Proof.Machine
end

