-- ==== Sys2Proof/Machine/Mailbox.lean ====
section
/-! DEFINITION. The primary mailbox of each LD: every command of R87, with the opcodes and return codes of CXL 3.1
(log entry 9), and the waits of R79 and R80. -/

namespace Sys2Proof.Machine

/-- Return codes of CXL mailboxes. -/
def rcSuccess : Nat := 0
def rcInvalidInput : Nat := 2
def rcUnsupported : Nat := 3
def rcBusy : Nat := 6
def rcInvalidPa : Nat := 15
def rcInvalidLog : Nat := 23

/-- A mailbox takes a command: a head presents the LD and its link is up. -/
def Dev.mboxOn (s : Dev) (g : Nat) : Bool := match s.headOfGld g with | some H => s.linkUp H | none => false

/-- A mailbox command that only reports. -/
def Dev.mboxReport (s : Dev) (g opcode : Nat) (body : List Nat) : Dev :=
  if s.mboxOn g then s.send (.mailbox g opcode rcSuccess body) else s

/-- A mailbox command: `f` gives the state and the reply, if it is sent at once. -/
def Dev.mbox (s : Dev) (g opcode : Nat) (f : Dev → Dev × Option (Nat × List Nat)) : Dev :=
  if s.mboxOn g then
    let r := f s
    match r.2 with | some (code, body) => r.1.send (.mailbox g opcode code body) | none => r.1
  else s

/-- IDENTIFY_MEMORY_DEVICE: 64 TiB in all, static capacities 0. -/
def execIdentifyMemoryDevice (gld : Nat) (s : State) : Answer := s.on fun s => (s.mboxReport gld 0x4000 [2 ^ 46, 0, 0])

/-- GET_PARTITION_INFO: every field 0. -/
def execGetPartitionInfo (gld : Nat) (s : State) : Answer := s.on fun s => (s.mboxReport gld 0x4100 [0, 0, 0, 0])

/-- A record of an event log as words: kind, region, generation, tenant, DPA, length. -/
def LdRecord.words (r : LdRecord) : List Nat :=
  [match r.kind with | .addCapacity sh => if sh then 1 else 0 | .releaseCapacity => 2 | .forcedRelease => 3 | .injectPoison => 4,
   r.region, r.gen, r.tenant, r.dpa, r.len]

/-- GET_EVENT_RECORDS of a log, 0–4; the records are in log 4, Dynamic Capacity. -/
def execGetEventRecords (gld log : Nat) (s : State) : Answer :=
  s.on fun s => (s.mboxReport gld 0x0100 (if log = 4 then (s.ld gld).events.flatMap LdRecord.words else []))

/-- CLEAR_EVENT_RECORDS: the oldest `n`, or all, of a log. -/
def execClearEventRecords (gld log n : Nat) (all : Bool) (s : State) : Answer :=
  s.on fun s => (s.mbox gld 0x0101 fun s =>
    if log = 4 then
      let l := s.ld gld
      (s.setLd gld { l with events := if all then [] else l.events.drop n }, some (rcSuccess, []))
    else (s, some (rcSuccess, [])))

/-- GET_EVENT_INTERRUPT_POLICY. -/
def execGetEventInterruptPolicy (gld : Nat) (s : State) : Answer := s.on fun s => (s.mboxReport gld 0x0102 [(s.ld gld).policy])

/-- SET_EVENT_INTERRUPT_POLICY: one byte per log, Dynamic Capacity in byte 4. -/
def execSetEventInterruptPolicy (gld policy : Nat) (s : State) : Answer :=
  s.on fun s => (s.mbox gld 0x0103 fun s => (s.setLd gld { s.ld gld with policy := policy % 2 ^ 40 }, some (rcSuccess, [])))

/-- Opcodes of the supported commands: the Command Effects Log. -/
def celOpcodes : List Nat :=
  [0x0100, 0x0101, 0x0102, 0x0103, 0x0300, 0x0400, 0x0401, 0x4000, 0x4100, 0x4200, 0x4203, 0x4204, 0x4300, 0x4301, 0x4302,
   0x4800, 0x4801, 0x4802, 0x4803]

/-- GET_SUPPORTED_LOGS: the CEL only. -/
def execGetSupportedLogs (gld : Nat) (s : State) : Answer := s.on fun s => (s.mboxReport gld 0x0400 [1, 4 * celOpcodes.length])

/-- GET_LOG: the CEL from an entry on; any other log is invalid. -/
def execGetLog (gld : Nat) (cel : Bool) (first count : Nat) (s : State) : Answer :=
  s.on fun s => (s.mbox gld 0x0401 fun s =>
    (s, some (if cel then (rcSuccess, (celOpcodes.drop first).take count) else (rcInvalidLog, []))))

/-- GET_HEALTH_INFO: the Dirty Shutdown Count is HLD.DSC (R62). -/
def execGetHealthInfo (gld : Nat) (s : State) : Answer := s.on fun s => (s.mboxReport gld 0x4200 [s.get Reg.HLD.DSC.COUNT])

/-- GET_SHUTDOWN_STATE. -/
def execGetShutdownState (gld : Nat) (s : State) : Answer := s.on fun s => (s.mboxReport gld 0x4203 [(s.ld gld).shutdownState])

/-- SET_SHUTDOWN_STATE. -/
def execSetShutdownState (gld state : Nat) (s : State) : Answer :=
  s.on fun s => (s.mbox gld 0x4204 fun s => (s.setLd gld { s.ld gld with shutdownState := state % 256 }, some (rcSuccess, [])))

/-- Extents of the run [a, b) that lie in regions attached to an LD. -/
def Dev.attachedIn (s : Dev) (g a b : Nat) : Nat :=
  s.regions.list.foldl (fun n e =>
    if e.2.attached.contains g then n + (min b (e.2.base + e.2.size) - max a e.2.base) else n) 0

/-- Every line of the run [line, line + n) lies in a region attached to the LD (R87). -/
def Dev.allAttached (s : Dev) (g line n : Nat) : Bool :=
  let a := extOf (granOf line); let b := extOf (granOf (line + max n 1 - 1)) + 1
  s.attachedIn g a b == b - a

/-- CXL source of a poison class (R499): 0 unknown, 1 external, 2 internal, 3 injected. -/
def poisonSource (cls : Nat) : Nat := if cls = 4 ∨ cls = 6 then 1 else if cls = 5 then 3 else if cls = 12 then 0 else 2

/-- GET_POISON_LIST of `lines` lines from a line on: overflow, then DPA line and source of each entry (R122, R499). -/
def execGetPoisonList (gld line lines : Nat) (s : State) : Answer :=
  s.on fun s => (s.mbox gld 0x4300 fun s =>
    if s.allAttached gld line lines then
      (s, some (rcSuccess, (if s.bit Reg.ECS.POISON_IDX.OVF then 1 else 0) ::
        ((s.poison.list.filter fun e => decide (line ≤ e.1) && decide (e.1 < line + lines)).flatMap fun e => [e.1, poisonSource e.2.cls])))
    else (s, some (rcInvalidPa, [])))

/-- INJECT_POISON on a line: POISON with INJ = 1, forwarded, and recorded by ROW (R87, R306, log entry 22). DESIGN CHOICE (log entry 57): the
spec names no event id for the record; it carries the one of local index 7, poisoned M2S write received. -/
def execInjectPoison (gld line : Nat) (s : State) : Answer :=
  s.on fun s => (s.mbox gld 0x4301 fun s =>
    match s.regionAt (granOf line), s.headOfGld gld with
    | some (n, r), some H =>
      if !r.attached.contains gld then (s, some (rcInvalidPa, []))
      else
        let s := s.poisonLine line 5 true
        let s := (s.holdRecord (hpRec (H / 4) 7 (line * 64)) false).1
        ((s.mirrorLine n r line { st := .poison } none).1, some (rcSuccess, []))
    | _, _ => (s, some (rcInvalidPa, [])))

/-- CLEAR_POISON: a full-line write of the supplied data through RTE (R43 Case A, R87). -/
def execClearPoison (gld line : Nat) (data : LineData) (s : State) : Answer :=
  s.on fun s => (s.mbox gld 0x4302 fun s =>
    match s.regionAt (granOf line), s.headOfGld gld with
    | some (_, r), some H =>
      if !r.attached.contains gld then (s, some (rcInvalidPa, []))
      else (s.arrive { head := H, gld, tag := 0, line, write := some (BitVec.allOnes 64, data)
                       epoch := (s.head H).resets, via := .mailbox }, none)
    | _, _ => (s, some (rcInvalidPa, [])))

/-- GET_DC_CONFIGURATION: 8 regions of 8 TiB, 2 MiB blocks (R77). -/
def execGetDcConfiguration (gld : Nat) (s : State) : Answer :=
  s.on fun s => (s.mboxReport gld 0x4800 (8 :: (List.range 8).flatMap fun k => [k * 2 ^ 43, 2 ^ 43, 2 ^ 21]))

/-- The extents of an LD: DPA, length, region, generation, owner (R77, R78). -/
def Dev.extentWords (s : Dev) (g : Nat) : List Nat :=
  (s.ld g).extents.list.flatMap fun e => match s.regions.get? e.1 with
    | some r => [r.base * 2 ^ 21, r.size * 2 ^ 21, e.1, e.2, r.tenant]
    | none => []

/-- GET_DC_EXTENT_LIST. -/
def execGetDcExtentList (gld : Nat) (s : State) : Answer := s.on fun s => (s.mboxReport gld 0x4801 (s.extentWords gld))

/-- The open offer of an LD with the oldest Add Capacity record. -/
def Dev.oldestOffer (s : Dev) (g : Nat) : Option (Nat × Offer) :=
  ((s.ld g).offers.list.filter fun e => s.offerOpen g e.2).foldl (fun b e => match b with
    | none => some e
    | some x => if e.2.opened < x.2.opened then some e else b) none

/-- The open offer whose extent is (DPA, length). -/
def Dev.offerAt (s : Dev) (g dpa len : Nat) : Option (Nat × Offer) :=
  (s.ld g).offers.list.find? fun e => s.offerOpen g e.2 && (match s.regions.get? e.1 with
    | some r => r.base * 2 ^ 21 == dpa && r.size * 2 ^ 21 == len && r.gen == e.2.gen
    | none => false)

/-- ADD_DC_RESPONSE (R79): an empty list rejects the oldest open offer; a listed extent accepts its offer. -/
def execAddDcResponse (gld : Nat) (extent : Option (Nat × Nat)) (s : State) : Answer :=
  s.on fun s => (s.mbox gld 0x4802 fun s =>
    match extent with
    | none => match s.oldestOffer gld with
      | none => (s, some (rcInvalidInput, []))
      | some (n, o) => ((s.dropOffer gld n).dcAnswer o.issuer cRejected 0 0 opDcAdd rcInvalidInput, some (rcSuccess, []))
    | some (dpa, len) => match s.offerAt gld dpa len with
      | none => (s, some (rcInvalidInput, []))
      | some (n, o) => ((s.dropOffer gld n).attach gld n o.issuer 0x4802, none))

/-- RELEASE_DC of an extent: the attachment ends at once for new requests (R80 Case A). -/
def execReleaseDc (gld dpa len : Nat) (s : State) : Answer :=
  s.on fun s => (s.mbox gld 0x4803 fun s =>
    match s.regions.list.find? fun e => e.2.base * 2 ^ 21 == dpa && e.2.size * 2 ^ 21 == len with
    | none => (s, some (rcInvalidInput, []))
    | some (n, r) =>
      if r.attached.contains gld then (s.hostRelease gld n [.mailbox gld 0x4803], none)
      else if (s.ld gld).releases.has n then (s.releaseEnds gld n true none, some (rcSuccess, []))
      else (s, some (rcInvalidInput, [])))

/-- GET_TIMESTAMP: calendar time. -/
def execGetTimestamp (gld : Nat) (s : State) : Answer := s.on fun s => (s.mboxReport gld 0x0300 [s.calNow])

/-- MAILBOX_UNSUPPORTED: any other opcode. -/
def execMailboxUnsupported (gld opcode : Nat) (s : State) : Answer :=
  s.on fun s => (s.mbox gld opcode fun s => (s, some (rcUnsupported, [])))

/-- DCD_OFFER_TIMEOUT of a region's offer to an LD (R79 step 5). -/
def execDcdOfferTimeout (gld region : Nat) (s : State) : Answer :=
  s.on fun s => (match (s.ld gld).offers.get? region with
    | none => s
    | some o =>
      let s := s.at (o.opened + s.dcdTimeout gld)
      let s := (s.dropOffer gld region).dcAnswer o.issuer cTimeout 0 0 opDcAdd 5
      match s.headOfGld gld with | some H => s.raise (hpEv (H / 4) 12) | none => s)

/-- DCD_RELEASE_TIMEOUT of a region's release by an LD (R80 Cases B and D). -/
def execDcdReleaseTimeout (gld region : Nat) (s : State) : Answer :=
  s.on fun s => (match (s.ld gld).releases.get? region with
    | none => s
    | some p => (s.at (p.opened + s.dcdTimeout gld)).releaseTimeout gld region)

end Sys2Proof.Machine
end

