-- ==== Sys2Proof/Machine/Fm.lean ====
section
/-! DEFINITION. The FM API (R88), with the opcodes of CXL 3.1 (log entry 9). A request comes through MCTP (`src` 16) or
through the FM-owned LD of head `src`, 0–15. -/

namespace Sys2Proof.Machine

/-- A request reaches the FM API: through MCTP, or through an MLD head whose link is up. -/
def Dev.fmOn (s : Dev) (src : Nat) : Bool :=
  src == 16 || (decide (src < 16) && s.headOn src && decide (2 ≤ s.ldCnt src) && s.linkUp src)

/-- An FM command that only reports. -/
def Dev.fmReport (s : Dev) (src opcode : Nat) (body : List Nat) : Dev :=
  if s.fmOn src then s.send (.fm opcode rcSuccess body) else s

/-- Port that raises the FM API's events: the head's, or port 0 for MCTP. -/
def fmPort (src : Nat) : Nat := if src < 16 then src / 4 else 0

/-- A change made by an FM command is recorded (R88, log entry 22). DESIGN CHOICE (log entry 57): the spec names no event id for the record;
it carries the one of local index 11 of the head's port, or of port 0 for a command through MCTP. -/
def Dev.fmRecord (s : Dev) (src opcode : Nat) : Dev := (s.holdRecord (hpRec (fmPort src) 11 opcode) false).1

/-- An FM command is refused: its return code, and local event 11 of the port (R89). -/
def Dev.fmRefuse (s : Dev) (src opcode code : Nat) : Dev := (s.send (.fm opcode code [])).raise (hpEv (fmPort src) 11)

/-- An FM command that changes something if `ok`, and answers Invalid Input otherwise. -/
def Dev.fmChange (s : Dev) (src opcode : Nat) (ok : Bool) (f : Dev → Dev) : Dev :=
  if !s.fmOn src then s
  else if ok then (f (s.fmRecord src opcode)).send (.fm opcode rcSuccess [])
  else s.fmRefuse src opcode rcInvalidInput

/-- FM_IDENTIFY: part and stepping. -/
def execFmIdentify (src : Nat) (s : State) : Answer :=
  s.on fun s => (s.fmReport src 0x0001 [s.get Reg.GLB.ID.PART, s.get Reg.GLB.ID.STEP, s.wide Reg.GLB.SERIAL_LO.SERIAL Reg.GLB.SERIAL_HI.SERIAL])

/-- GET_MULTI_HEADED_INFO: number of LDs and heads, and the head of each LD (R65, R66). -/
def execGetMultiHeadedInfo (src : Nat) (s : State) : Answer :=
  s.on fun s => (s.fmReport src 0x5500 (64 :: 16 :: (List.range 64).map fun g => (s.headOfGld g).getD 255))

/-- GET_HEAD_INFO of a run of heads: port, width limit, negotiated width and rate, LDs (R65, R66). -/
def execGetHeadInfo (src first count : Nat) (s : State) : Answer :=
  s.on fun s => (s.fmReport src 0x5501 (((List.range count).map (· + first)).flatMap fun H =>
    if H < 16 then [H, s.maxWidth (H / 4), s.get (Reg.HP.LINK_STS.WIDTH (H / 4) (H % 4)), s.get (Reg.HP.LINK_STS.RATE (H / 4) (H % 4)), s.ldCnt H]
    else []))

/-- GET_LD_INFO: the whole 64 TiB, and the number of LDs (R74). -/
def execGetLdInfo (src : Nat) (s : State) : Answer := s.on fun s => (s.fmReport src 0x5400 [2 ^ 46, 64])

/-- GET_LD_ALLOCATIONS: each LD's range is the whole 64 TiB. -/
def execGetLdAllocations (src first count : Nat) (s : State) : Answer :=
  s.on fun s => (s.fmReport src 0x5401 (((List.range count).map (· + first)).flatMap fun g => if g < 64 then [g, 0, 2 ^ 46] else []))

/-- SET_LD_ALLOCATIONS: accepted only if each requested range (LD, base, length) is the reported one. -/
def execSetLdAllocations (src : Nat) (req : List (Nat × Nat × Nat)) (s : State) : Answer :=
  s.on fun s => (s.fmChange src 0x5402 (req.all fun x => decide (x.1 < 64) && x.2.1 == 0 && x.2.2 == 2 ^ 46) id)

/-- GET_QOS_CONTROL: the DevLoad thresholds. -/
def execGetQosControl (src : Nat) (s : State) : Answer := s.on fun s => (s.fmReport src 0x5403 [s.loadLow, s.loadHigh])

/-- SET_QOS_CONTROL: the thresholds in % (R75). -/
def execSetQosControl (src low high : Nat) (s : State) : Answer :=
  s.on fun s => (s.fmChange src 0x5404 (decide (low ≤ high) && decide (high ≤ 100)) fun s => { s with loadLow := low, loadHigh := high })

/-- GET_QOS_STATUS: DevLoad of each head. -/
def execGetQosStatus (src : Nat) (s : State) : Answer := s.on fun s => (s.fmReport src 0x5405 ((List.range 16).map s.devLoad))

/-- Values of a run of LDs. -/
def Dev.ldRun (s : Dev) (first count : Nat) (f : Ld → Nat) : List Nat :=
  ((List.range count).map (· + first)).flatMap fun g => if g < 64 then [g, f (s.ld g)] else []

/-- GET_QOS_ALLOCATED_BW. -/
def execGetQosAllocatedBw (src first count : Nat) (s : State) : Answer := s.on fun s => (s.fmReport src 0x5406 (s.ldRun first count (·.qosAlloc)))

/-- Store a list of values in the LDs from `first` on. -/
def Dev.setLds (s : Dev) (first : Nat) (l : List Nat) (f : Ld → Nat → Ld) : Dev :=
  ((List.range l.length).zip l).foldl (fun s x => s.setLd (first + x.1) (f (s.ld (first + x.1)) x.2)) s

/-- A run of values in 1/256 for LDs that exist. -/
def bwOk (first : Nat) (l : List Nat) : Bool := decide (first + l.length ≤ 64) && l.all fun x => decide (x < 256)

/-- SET_QOS_ALLOCATED_BW: shares of head bandwidth in 1/256. -/
def execSetQosAllocatedBw (src first : Nat) (bw : List Nat) (s : State) : Answer :=
  s.on fun s => (s.fmChange src 0x5407 (bwOk first bw) fun s => s.setLds first bw fun l x => { l with qosAlloc := x })

/-- GET_QOS_BW_LIMIT. -/
def execGetQosBwLimit (src first count : Nat) (s : State) : Answer := s.on fun s => (s.fmReport src 0x5408 (s.ldRun first count (·.qosLimit)))

/-- SET_QOS_BW_LIMIT: caps in 1/256. -/
def execSetQosBwLimit (src first : Nat) (bw : List Nat) (s : State) : Answer :=
  s.on fun s => (s.fmChange src 0x5409 (bwOk first bw) fun s => s.setLds first bw fun l x => { l with qosLimit := x })

/-- GET_DCD_INFO: hosts, regions per host, block size, extents. -/
def execGetDcdInfo (src : Nat) (s : State) : Answer := s.on fun s => (s.fmReport src 0x5600 [64, 8, 2 ^ 46, 2 ^ 21, 512])

/-- GET_HOST_DC_REGION_CONFIGURATION of an LD (R77). -/
def execGetHostDcRegionConfiguration (src gld : Nat) (s : State) : Answer :=
  s.on fun s => (s.fmReport src 0x5601 (gld :: 8 :: (List.range 8).flatMap fun k => [k * 2 ^ 43, 2 ^ 43, 2 ^ 21]))

/-- SET_DC_REGION_CONFIGURATION: only the 2 MiB block size (R77). -/
def execSetDcRegionConfiguration (src region block : Nat) (s : State) : Answer :=
  s.on fun s => (s.fmChange src 0x5602 (decide (region < 8) && block == 2 ^ 21) id)

/-- GET_DC_REGION_EXTENT_LISTS of an LD. -/
def execGetDcRegionExtentLists (src gld : Nat) (s : State) : Answer := s.on fun s => (s.fmReport src 0x5603 (s.extentWords gld))

/-- The region that a tag names: number, generation and owner agree (R78). -/
def Dev.tagged (s : Dev) (region gen tenant : Nat) : Option Region :=
  match s.regions.get? region with
  | some r => if r.gen = gen ∧ r.tenant = tenant then some r else none
  | none => none

/-- INITIATE_DYNAMIC_CAPACITY_ADD by extent tag (R78, R79): the reply comes with the host's answer. -/
def execInitiateDynamicCapacityAdd (src gld region gen tenant : Nat) (s : State) : Answer :=
  s.on fun s => (if !s.fmOn src then s
    else match s.tagged region gen tenant with
    | none => s.fmRefuse src opDcAdd rcInvalidInput
    | some r =>
      if 64 ≤ gld ∨ (s.offerFault gld region r).isSome then s.fmRefuse src opDcAdd rcInvalidInput
      else (s.fmRecord src opDcAdd).openOffer gld region r .fm)

/-- INITIATE_DYNAMIC_CAPACITY_RELEASE by extent tag (R80 Case B): the reply comes with the release. -/
def execInitiateDynamicCapacityRelease (src gld region gen tenant : Nat) (forced : Bool) (s : State) : Answer :=
  s.on fun s => (if !s.fmOn src then s
    else match s.tagged region gen tenant with
    | none => s.fmRefuse src opDcRelease rcInvalidInput
    | some r =>
      if !r.attached.contains gld then s.fmRefuse src opDcRelease rcInvalidInput
      else if (s.ld gld).releases.has region then s.fmRefuse src opDcRelease rcBusy
      else (s.fmRecord src opDcRelease).askRelease gld region forced false .fm)

/-- TUNNEL_MANAGEMENT_COMMAND: passed to the FM-owned LD of a named head, which serves the inner command as a command of
its own. -/
def execTunnelManagementCommand (src h inner : Nat) (s : State) : Answer :=
  s.on fun s => (if !s.fmOn src then s
    else if h < 16 ∧ s.headOn h ∧ 2 ≤ s.ldCnt h then s.send (.fm 0x5300 rcSuccess [h, inner])
    else s.fmRefuse src 0x5300 rcInvalidInput)

/-- FM_API_UNSUPPORTED: any other opcode (R88). -/
def execFmApiUnsupported (src opcode : Nat) (s : State) : Answer :=
  s.on fun s => (if s.fmOn src then s.fmRefuse src opcode rcUnsupported else s)

end Sys2Proof.Machine
end

