-- ==== Sys2Proof/Machine/Scrub.lean ====
section
/-! DEFINITION. ECS: patrol scrub, leaks, arming of injections, SRAM start-up and channel fill (R114, R117–R129). -/

namespace Sys2Proof.Machine

/-- Lines of a channel (R118). -/
def Dev.chanLines (s : Dev) (n : Nat) : Nat := s.get (Reg.DC.POP.CAP_GIB n) * 2 ^ 24

/-- Frame of a frame-area line of a channel. -/
def Dev.frameOfLine (s : Dev) (n cl : Nat) : Option Nat :=
  (s.populated.idxOf? n).map fun i => cl / 64 * s.chanCount + i

/-- The first word of the metadata that a metadata-area line holds (R138); `none` = it is none. -/
def Dev.metaWord (s : Dev) (n cl : Nat) : Option Nat :=
  let base := s.get (Reg.DC.MAP_MD.MD_BASE n) * 64
  if base ≤ cl ∧ cl < base + s.get (Reg.DC.MAP_FA.FA_TOP n) * 8 then
    (s.frameOfLine n ((cl - base) * 8)).map fun fn => (fn * 64 + (cl - base) * 8 % 64) / 2
  else none

/-- A line of the loan back-map stands in its shadow half (R217). -/
def Dev.shadowLine (s : Dev) (k : Nat) : Bool := decide (2 ≤ s.chanCount) && decide (stripeHalf (2 ^ 30) s.chanCount / 64 ≤ k)

/-- Index of the channel with the other copy of line k of a part on channel index i (R215, R217): the next for a primary, the one before for a
shadow. -/
def Dev.otherCopy (s : Dev) (p : SaPart) (i k : Nat) : Nat :=
  let c := s.chanCount
  let half := (match (s.saMap (s.populated.getD i 0)).find? fun x => x.1 == p with | some x => x.2 | none => 0) / 64 / 2
  let shadow := match p with | .rm => false | .rms => true | _ => decide (half ≤ k)
  if shadow then (i + c - 1) % c else (i + 1) % c

/-- An uncorrectable line of the system area (R117, R234, R235): a frame-map line waits for its rebuild; another is rewritten from its other
copy; with one channel, or where a lost channel held that copy (R236), a reverse-map line leaves its 8 frames IN_USE without a known owner
and a loan back-map line frees its 8 loan indices. What its owner does for a line of the other parts the spec does not say: what the block
holds stays (log entry 59). -/
def Dev.systemUe (s : Dev) (n cl : Nat) (r : EccResult) : Dev :=
  let c := s.chanCount
  let i := s.populated.idxOf n
  let again := fun (s : Dev) => s.dramTouch n cl
  if cl < s.saFirst n then (again s).ueRaise n cl 3 r
  else match saFind (s.saMap n) (cl - s.saFirst n) with
    | none => (again s).ueRaise n cl 3 r
    | some (p, k) =>
      let j := if p = .fm then k * c + i else 0
      if p = .fm ∧ j < ceilDiv s.imageG 8 then ({ s with mapLost := s.mapLost.put j () } : Dev).ueRaise n cl 5 r
      else if p = .fm ∨ p = .fms then (again s).ueRaise n cl 3 r
      else if 2 ≤ c ∧ s.get (Reg.DC.STS.STATE (s.populated.getD (s.otherCopy p i k) 0)) ≠ 6 then ((again s).ueRaise n cl 4 r).raise (tmgEv 0x171 n 65535 n (2 ^ 40 - 1) 0 0 true)
      else
        let s := (again s).ueRaise n cl 3 r
        match p with
        | .rm => { s with rm := (List.range 8).foldl (fun t x => t.put ((k * 8 + x) * c + i) { fstate := .inUse, owned := false }) s.rm }
        | .lbm =>
          let j := if s.shadowLine k then (k - stripeHalf (2 ^ 30) c / 64) * c + (i + c - 1) % c else k * c + i
          { s with lbm := s.lbm.filter fun x _ => x / 8 != j }
        | _ => s

/-- An uncorrectable line found by patrol (R117). -/
def Dev.scrubUe (s : Dev) (n cl : Nat) (r : EccResult) : Dev :=
  if cl < s.get (Reg.DC.MAP_FA.FA_TOP n) * 64 then
    match s.frameOfLine n cl with
    | some fn => s.frameUe n cl fn (cl % 64) r
    | none => s
  else match s.metaWord n cl with
    | some w => s.metaUe n cl w r
    | none => s.systemUe n cl r

/-- Read one line for patrol (R117, R118, R120, R122): behind every request that waits, or once promoted behind the reads that came
before `due` (R119). -/
def Dev.patrolLine (s : Dev) (n cl due : Nat) (promoted : Bool) (noise : BitVec 640) : Dev :=
  let s := s.dramSync n cl fun r => if promoted then r.read.isSome && decide (r.at_ < due * 1848) else true
  let r := s.eccRead n cl noise
  let s := if !r.2.ok then r.1.scrubUe n cl r.2
    else if r.2.corrected then
      let s := match s.frameOfLine n cl with
        | some fn => if cl < s.get (Reg.DC.MAP_FA.FA_TOP n) * 64 ∧ r.2.left ≠ 0 then
            r.1.setFrameLn fn (cl % 64) { r.1.frameLn fn (cl % 64) with data := (r.1.frameLn fn (cl % 64)).data ^^^ r.2.left } else r.1
        | none => r.1
      s.dramTouch n cl
    else r.1
  match s.frameOfLine n cl with
  | some fn =>
    let d := s.dpaOf n cl
    if cl < s.get (Reg.DC.MAP_FA.FA_TOP n) * 64 ∧ d ≠ 2 ^ 40 - 1 ∧ (s.frameLn fn (cl % 64)).st = .poison then s.poisonAdd d 12 false
    else s
  | none => s

/-- FCLK cycles of a pass (R118): INTERVAL_H as it stood at the pass's start (R31, log entry 59). -/
def Dev.passSpan (s : Dev) (n : Nat) : Nat :=
  let h := (s.channel n).interval
  (if h = 0 then s.get (Reg.ECSC.SCRUB_CFG.INTERVAL_H n) else h) * 3600 * fclkS

/-- A pass of a channel begins at channel address 0 (R118). -/
def Dev.passBegin (s : Dev) (n : Nat) : Dev :=
  (s.setChannel n { s.channel n with
    patrol := 0, passStart := s.clock, interval := s.get (Reg.ECSC.SCRUB_CFG.INTERVAL_H n), passFull := false
    patrolPromoted := false }).set (Reg.ECSC.SCRUB_POS.GRANULE n) 0

/-- A pass of a channel ends, and the next begins (R118, R119, R122). -/
def Dev.passEnd (s : Dev) (n : Nat) : Dev :=
  let c := s.channel n
  let span := s.passSpan n
  let late := decide (span + span / 100 < s.clock - c.passStart)
  let s := s.count (Reg.ECSC.SCRUB_STS.PASSES n) (Reg.ECSC.SCRUB_STS.SAT n) 1 (Ev.plain 0x16E)
  let s := s.raise (Ev.plain 0x168)
  let s := if late then (s.setBit (Reg.ECSC.SCRUB_STS.LATE n) true).raise (ecsEv 0x169 8 n 0 15 0 0 0 (2 ^ 40 - 1) 0) else s
  let s := s.setChannel n { s.channel n with cleanPass := !(s.channel n).passFull && decide (s.poison.size < 65536) }
  let s := s.passBegin n
  if s.populated.all fun m => (s.channel m).cleanPass then s.setBit Reg.ECS.POISON_IDX.OVF false else s

/-- When the next patrol read of a channel's pass is due: the reads are spaced evenly over the pass (R118). -/
def Dev.patrolDue (s : Dev) (n : Nat) : Nat :=
  (s.channel n).passStart + (s.channel n).patrol * s.passSpan n / max 1 (s.chanLines n)

/-- PATROL_SCRUB_READ of channel n: of the pass, or (`extra`) the next that demand scrub queued, whatever SCRUB_EN says (R120; DESIGN
CHOICE, log entry 59). -/
def Dev.patrolRead (s : Dev) (n : Nat) (extra : Bool) (noise : BitVec 640) : Dev :=
  if !s.chanUp n then s
  else if extra then
    match (s.channel n).extra with
    | [] => s
    | x :: rest =>
      let waited := decide (x.2 + s.passSpan n / max 1 (s.chanLines n) ≤ s.clock)
      (s.setChannel n { s.channel n with extra := rest }).patrolLine n x.1 x.2 waited noise
  else if !s.bit Reg.ECS.CFG.SCRUB_EN then s
  else
    let cl := (s.channel n).patrol
    let due := s.patrolDue n
    let promoted := (s.channel n).patrolPromoted
    let s := (s.at due).patrolLine n cl due promoted noise
    if cl + 1 < s.chanLines n then
      let s := s.setChannel n { s.channel n with patrol := cl + 1, patrolPromoted := false }
      (s.set (Reg.ECSC.SCRUB_POS.GRANULE n) ((cl + 1) / 64)).set (Reg.ECSC.SCRUB_STS.PASS_PCT n) ((cl + 1) * 100 / s.chanLines n)
    else (s.passEnd n).set (Reg.ECSC.SCRUB_STS.PASS_PCT n) 0

/-- The command's `noise` and `parity` are the bit errors with which DRAM returns the line: data and check symbols (R110). -/
def execPatrolScrubRead (n : Nat) (extra : Bool) (noise : BitVec 512) (parity : BitVec 128) (s : State) : Answer :=
  s.on fun s => (if n < 12 then s.patrolRead n extra (lineNoise noise parity) else s)

/-- PATROL_PROMOTE (R119): the waiting patrol read of a channel has waited one spacing. -/
def Dev.patrolPromote (s : Dev) (n : Nat) : Dev :=
  let s := s.at (s.patrolDue n + s.passSpan n / max 1 (s.chanLines n))
  s.setChannel n { s.channel n with patrolPromoted := true }
def execPatrolPromote (n : Nat) (s : State) : Answer :=
  s.on fun s => (if n < 12 ∧ s.chanUp n ∧ s.bit Reg.ECS.CFG.SCRUB_EN then s.patrolPromote n else s)

/-- SCRUB_ENABLE_WRITE: SCRUB_EN is written (R118). -/
def execScrubEnableWrite (on : Bool) (s : State) : Answer := s.on fun s => (s.setBit Reg.ECS.CFG.SCRUB_EN on)

/-- DEVICE_COUNTER_LEAK of a channel (R114). -/
def execDeviceCounterLeak (n : Nat) (s : State) : Answer :=
  s.on fun s => (
    let leak := s.get Reg.ECS.DEV_THRESH.LEAK_S
    if 12 ≤ n ∨ leak = 0 then s
    else
      let c := s.channel n
      let s := s.at (c.leaked + leak * fclkS)
      let down := (c.devCtr.map fun _ v => v - 1).filter fun _ v => v != 0
      let told := c.devTold.filter fun k _ => decide (s.get Reg.ECS.DEV_THRESH.THRESH ≤ down.getD k 0)
      s.setChannel n { c with devCtr := down, devTold := told, leaked := s.clock })

/-- Setting INJ_CTL.ARM: refused while 16 INJ entries are present (R123). -/
def Dev.injArm (s : Dev) (n : Nat) : Dev :=
  let marked := ((s.channel n).hist.list.filter fun e => e.2.inj).length
  if 16 ≤ marked then (s.setBit (Reg.ECSC.INJ_CTL.ARM n) false).setBit (Reg.ECSC.INJ_STS.FULL n) true
  else s.setBit (Reg.ECSC.INJ_CTL.ARM n) true

/-- INJ_ARM of channel n. -/
def execInjArm (n : Nat) (s : State) : Answer := s.on fun s => (if n < 12 then s.injArm n else s)

/-- SRAM_INJ_ARM: SRAM_INJ is written with ARM set; a reserved target or a bit above 136 makes the write discarded (R125). -/
def execSramInjArm (target a b : Nat) (two : Bool) (s : State) : Answer :=
  s.on fun s => (if 4 < target ∨ 136 < a ∨ 136 < b then s.discard Reg.ECS.SRAM_INJ.ARM.addr 2
    else ((((s.set Reg.ECS.SRAM_INJ.TARGET target).set Reg.ECS.SRAM_INJ.BIT_A a).set Reg.ECS.SRAM_INJ.BIT_B b).setBit
      Reg.ECS.SRAM_INJ.TWO two).setBit Reg.ECS.SRAM_INJ.ARM true)

/-- SRAM_POWER_ON_INIT (R126): every on-die SRAM word is zero with valid check bits, every cache entry invalid. -/
def Dev.sramInit (s : Dev) : Dev :=
  { s with lc := .empty, mdc := .empty, fmc := .empty, flips := .empty, skeins := .empty
           engines := s.engines.map fun _ e => { e with pattern := .empty, fifo := [] } }
def execSramPowerOnInit (s : State) : Answer := s.on fun s => s.sramInit

/-- A channel's error during fill or training (R129): ALL_DONE no longer holds. -/
def Dev.chanErr (s : Dev) (n : Nat) : Dev :=
  let f := Reg.ECS.FILL_STS.CH_ERR
  ((s.set f (withBit (s.get f) n)).setBit Reg.ECS.FILL_STS.ALL_DONE false).raise (ecsEv 0x16C 7 n 0 15 0 0 0 (2 ^ 40 - 1) 0)

/-- FILL_STS.CH_DONE of a channel is set; ALL_DONE once all 12 bits are, some channel is populated and none has failed (R127, R128, log
entry 58). -/
def Dev.fillCheck (s : Dev) (n : Nat) : Dev :=
  let f := Reg.ECS.FILL_STS.CH_DONE
  let s := s.set f (withBit (s.get f) n)
  if s.get Reg.ECS.FILL_STS.CH_ERR = 0 ∧ 0 < s.chanCount ∧ ((List.range 12).all fun m => (s.get f).testBit m) ∧
      !s.bit Reg.ECS.FILL_STS.ALL_DONE then
    (s.setBit Reg.ECS.FILL_STS.ALL_DONE true).raise (Ev.plain 0x16B)
  else s

/-- MT/s of a rate code (R135). -/
def rateMts (r : Nat) : Nat := match r with | 0 => 8800 | 1 => 6400 | 2 => 5600 | _ => 4800

/-- FCLK cycles of a channel's fill: its capacity at 93 % of the peak rate, 8 B per transfer (R127). -/
def Dev.fillTime (s : Dev) (n : Nat) : Nat :=
  ceilDiv (s.chanLines n * 64 * 2000 * 100) (93 * 8 * rateMts (s.get (Reg.DC.CFG.RATE n)))

/-- Lines that a channel's fill has written by an FCLK count (R127). -/
def Dev.fillLines (s : Dev) (n t : Nat) : Nat :=
  min (s.chanLines n) ((t - (s.channel n).fillFrom) * s.chanLines n / max 1 (s.fillTime n))

/-- A channel is filling, or in a parity retry of its fill. -/
def Dev.filling (s : Dev) (n : Nat) : Bool :=
  let st := s.get (Reg.DC.STS.STATE n)
  st == 3 || (st == 5 && !(s.get Reg.ECS.FILL_STS.CH_DONE).testBit n)

/-- FILL_PROG of a channel, in whole per cent, and of the device: the lowest of the populated channels (R128). -/
def Dev.fillPct (s : Dev) (n : Nat) : Nat :=
  if (s.get Reg.ECS.FILL_STS.CH_DONE).testBit n then 100
  else if s.filling n then min 99 ((s.clock - (s.channel n).fillFrom) * 100 / max 1 (s.fillTime n)) else 0
def Dev.fillPctAll (s : Dev) : Nat :=
  match s.populated with | [] => 0 | n :: l => l.foldl (fun a m => min a (s.fillPct m)) (s.fillPct n)

/-- Every line of a channel holds the all-zero codeword (R127): frames and their metadata, and the map lines that no cache holds. -/
def Dev.fillZero (s : Dev) (n : Nat) : Dev :=
  let c := s.chanCount
  let i := s.populated.idxOf n
  let off := fun (fn : Nat) => fn % c != i
  let s := s.setChannel n { s.channel n with writes := .empty }
  { s with frames := s.frames.filter fun k _ => off (k / 64), errors := s.errors.filter fun k _ => k / 4 / 2 ^ 33 != n
           mdc := s.mdc.filter fun w _ => off (w / 32), rm := s.rm.filter fun fn _ => off fn
           fm := s.fm.filter fun g _ => s.fmc.has (g / 8) || g / 8 % c != i, mapLost := s.mapLost.filter fun j _ => j % c != i }

/-- CHANNEL_FILL_COMPLETE of channel n (R127): no earlier than its fill takes. -/
def Dev.fillDoneOf (s : Dev) (n : Nat) : Dev :=
  let s := (s.at ((s.channel n).fillFrom + s.fillTime n)).fillZero n
  let s := (s.set (Reg.DC.STS.STATE n) 4).setChannel n { s.channel n with cleanPass := false }
  (s.passBegin n).fillCheck n
def execChannelFillComplete (n : Nat) (s : State) : Answer :=
  s.on fun s => (if n < 12 ∧ s.get (Reg.DC.STS.STATE n) = 3 then s.fillDoneOf n else s)

end Sys2Proof.Machine
end

