-- ==== Sys2Proof/Machine/DramCtl.lean ====
section
/-! DEFINITION. DC0–DC11: population, training, refresh, power-down, tracking, parity retry, sensors, and a channel going
off line (R132–R158, R236, R237). -/

namespace Sys2Proof.Machine

/-- Event of channel n with the payload of R159. -/
def Dev.dcEv (s : Dev) (n i : Nat) (writes : Bool) (where_ step synd extra : Nat) : Ev :=
  Ev.make ((10 + n) * 16 + i) writes synd [(1, 1, where_), (2, 1, s.get (Reg.DC.STS.STATE n)), (3, 1, step), (8, 4, extra)]
def Dev.dcPlain (s : Dev) (n i : Nat) : Ev := s.dcEv n i false 0 0 0 0

/-- A count of DCLK in FCLK cycles (R135). -/
def Dev.dclkFclk (s : Dev) (n d : Nat) : Nat := d * 16000 / rateMts (s.get (Reg.DC.CFG.RATE n))

/-- 64 Gb devices; GiB of a DIMM (R132). -/
def Dimm.d64 (d : Dimm) : Bool := d.density == 64
def Dimm.gib (d : Dimm) : Nat := 2 * d.density * d.ranks

/-- Default timings: CL, tRCD, tRP, tRAS, tWR, tRFC1, tRFCsb, tXP, tREFI of a rate and density (R139). -/
def timings (rate : Nat) (d64 : Bool) : List Nat :=
  if rate = 0 then [22, 11, 11, 36, 33, if d64 then 605 else 451, if d64 then 275 else 209, 9, 4290]
  else
    let b := [13, 8, 8, 26, 24, if d64 then 440 else 328, if d64 then 200 else 152, 6, 3120]
    if rate = 1 then b else b.map fun v => ceilDiv (v * rateMts rate) 6400

/-- The timing fields of a channel in the order of `timings`, with the register each lies in: 0 TIM0, 1 TIM1, 2 REF_CTL. -/
def timFields (n : Nat) : List (Field × Nat) :=
  [(Reg.DC.TIM0.CL n, 0), (Reg.DC.TIM0.TRCD n, 0), (Reg.DC.TIM0.TRP n, 0), (Reg.DC.TIM0.TRAS n, 0), (Reg.DC.TIM0.TWR n, 0),
   (Reg.DC.TIM1.TRFC1 n, 1), (Reg.DC.TIM1.TRFCSB n, 1), (Reg.DC.TIM1.TXP n, 1), (Reg.DC.REF_CTL.TREFI n, 2)]

/-- The timing registers that firmware has not written follow the rate and density (R139, R158). -/
def Dev.defaultTimings (s : Dev) (n : Nat) : Dev :=
  ((timFields n).zip (timings (s.get (Reg.DC.CFG.RATE n)) (s.bit (Reg.DC.POP.D64 n)))).foldl
    (fun s x => if (s.channel n).timWritten.has x.1.2 then s else s.set x.1.1 x.2) s

/-- Firmware has written a timing register of a channel. -/
def Dev.timingWritten (s : Dev) (n k : Nat) : Dev :=
  s.setChannel n { s.channel n with timWritten := (s.channel n).timWritten.put k () }

/-- The areas of a channel and its MAP values (R138). -/
def Dev.areasOk (s : Dev) (n gib : Nat) : Bool :=
  let fa := s.get (Reg.DC.MAP_FA.FA_TOP n)
  let md := s.get (Reg.DC.MAP_MD.MD_BASE n)
  let cap := gib * 2 ^ 18
  let mdEnd := md + ceilDiv (fa * 512) 4096
  decide (fa ≤ cap) && decide (mdEnd ≤ cap) && (decide (fa ≤ md) || decide (mdEnd = md)) &&
  s.populated.all fun m => s.get (Reg.DC.MAP_FA.FA_TOP m) == fa && s.get (Reg.DC.MAP_MD.MD_BASE m) == md

/-- No SPD timing is above the figure of *Default DRAM timings* for the rate: ps against DCLK (R132). -/
def Dimm.timingOk (d : Dimm) (rate : Nat) : Bool :=
  (d.spd.zip (timings rate d.d64)).all fun x => decide (x.1 * latNs ≤ 1000 * (x.2 * dclkOf rate))

/-- The first check that a population fails, as a REFUSE code (R132–R134, R138); 0 = it passes. -/
def Dev.refuseCode (s : Dev) (n : Nat) (l : List Dimm) : Nat :=
  match l with
  | [] => 7
  | d :: r =>
    let rate := s.get (Reg.DC.CFG.RATE n)
    let gib := (d.gib) * (r.length + 1)
    if l.any fun x => !x.answers then 7
    else if (l.any fun x => x.kind ≠ (if rate = 0 then 2 else 1)) then 1
    else if r.any fun x => x != d then 2
    else if l.any fun x => !x.x4 then 3
    else if 2 < l.length ∨ !d.mono ∨ (d.density ≠ 32 ∧ d.density ≠ 64) ∨ d.ranks = 0 ∨ 2 < d.ranks then 4
    else if s.populated.any fun m => decide (s.get (Reg.DC.POP.CAP_GIB m) ≠ gib) || decide (s.get (Reg.DC.POP.TYPE m) ≠ d.kind) ||
      decide (s.bit (Reg.DC.POP.D64 m) ≠ d.d64) || decide (s.get (Reg.DC.CFG.RATE m) ≠ rate) ||
      decide (s.bit (Reg.DC.POP.DUAL_RANK m) ≠ (d.ranks == 2)) ||
      decide (s.get (Reg.DC.POP.RANKS m) + 1 ≠ d.ranks * (r.length + 1)) then 5
    else if l.any fun x => !x.timingOk rate then 6
    else if !s.areasOk n gib then 8 else 0

/-- POP of a channel from its first DIMM and their number. -/
def Dev.setPop (s : Dev) (n : Nat) (d : Dimm) (count kind : Nat) : Dev :=
  let s := ((s.set (Reg.DC.POP.TYPE n) kind).setBit (Reg.DC.POP.DPC2 n) (count == 2)).setBit (Reg.DC.POP.DUAL_RANK n) (d.ranks == 2)
  ((s.setBit (Reg.DC.POP.D64 n) d.d64).set (Reg.DC.POP.RANKS n) (d.ranks * count - 1)).set (Reg.DC.POP.CAP_GIB n) (d.gib * count)

/-- Hub ID of a DIMM on the sideband bus of its tile: three channels to a tile (R156). -/
def hubId (n slot : Nat) : Nat := n % 3 * 2 + slot

/-- The DIMMs of a channel among those that its tile's bus shows, by hub ID, in slot order (R156). -/
def slotDimms (n : Nat) (bus : List (Nat × Dimm)) : List Dimm :=
  [0, 1].filterMap fun slot => (bus.find? fun x => x.1 == hubId n slot).map (·.2)

/-- A tile's sideband bus is in I3C mode or in I2C mode, for its three channels alike (R156). -/
def Dev.setBus (s : Dev) (n : Nat) (i3c : Bool) : Dev :=
  (List.range 3).foldl (fun s k => s.setChannel (n / 3 * 3 + k) { s.channel (n / 3 * 3 + k) with i3c }) s

/-- A legacy delay in native taps: round half up of L × rate / 2,400, at most 1,023 (R153). -/
def legacyTaps (l mts : Nat) : Nat := min 1023 ((2 * l * mts + 2400) / 4800)

/-- The delays of NX5310 fixed-delay mode: each group register for its four lanes and every rank, and LDLY_CA (R152, R153).
The JEDEC default of VrefDQ is a free value (log entry 60). -/
def Dev.legacyDelays (s : Dev) (n : Nat) : Dev :=
  let mts := rateMts (s.get (Reg.DC.CFG.RATE n))
  let ranks := List.range (s.get (Reg.DC.POP.RANKS n) + 1)
  let conv := fun f => legacyTaps (s.get f) mts
  let lanes := ranks.foldl (fun t r => (List.range 80).foldl (fun t l =>
    t.put (r * 128 + l) (conv (Reg.DC.LDLY.RD_DQS n (l / 4)) + 2 ^ 16 * conv (Reg.DC.LDLY.WR_DQS n (l / 4)))) t) Tab.empty
  let groups := ranks.foldl (fun t r => (List.range 20).foldl (fun t g =>
    t.put (r * 32 + g) (conv (Reg.DC.LDLY.RD_GATE n g), s.get (Reg.DC.LDLY.VREF n g), Config.vrefDq % 128)) t) Tab.empty
  let pins := (Tab.empty.put 0 (conv (Reg.DC.LDLY_CA.CS_DLY n))).put 1 (conv (Reg.DC.LDLY_CA.CA_DLY n))
  s.setChannel n { s.channel n with lanes, groups, pins }

/-- Setting ENABLE of a channel (R134): what the sideband bus of its tile shows by hub ID (no DIMM of the channel = unpopulated), and
whether the bus switches to I3C (R156). Training begins, in fixed-delay mode at T7 with the delays loaded (R149, R152). -/
def Dev.chanEnable (s : Dev) (n : Nat) (bus : List (Nat × Dimm)) (i3c : Bool) : Dev :=
  let s := s.setBit (Reg.DC.CFG.ENABLE n) true
  match slotDimms n bus with
  | [] => s.fillCheck n
  | d :: r =>
    let code := s.refuseCode n (d :: r)
    let s := s.setBus n i3c
    let s := if i3c then s else s.raise (s.dcPlain n 13)
    let s := (s.setPop n d (r.length + 1) (if d.kind = 1 ∨ d.kind = 2 then d.kind else 3)).defaultTimings n
    if code ≠ 0 then
      let s := (s.set (Reg.DC.STS.STATE n) 0).set (Reg.DC.STS.REFUSE n) code
      (s.raise (s.dcPlain n 9)).chanErr n
    else
      let f := Reg.ECS.FILL_STS.CH_DONE
      let s := (s.set f (withoutBit (s.get f) n)).setBit Reg.ECS.FILL_STS.ALL_DONE false
      let s := (s.set (Reg.DC.STS.STATE n) 2).set (Reg.DC.STS.REFUSE n) 0
      if s.bit (Reg.DC.CFG.TRN_MODE n) then (s.legacyDelays n).set (Reg.DC.TRN_STS.STEP n) 7 else s.set (Reg.DC.TRN_STS.STEP n) 1

/-- CHANNEL_ENABLE_WRITE of channel n, with what its tile's bus shows; under LOCK the write is discarded (R484). Where a register
write has set ENABLE already, the SPD check that it started ends here. A channel that is off line stays so (R157). -/
def execChannelEnableWrite (n : Nat) (bus : List (Nat × Dimm)) (i3c : Bool) (s : State) : Answer :=
  s.on fun s => (if 12 ≤ n then s
    else if s.bit (Reg.DC.CFG.ENABLE n) && s.get (Reg.DC.STS.STATE n) == 1 then s.chanEnable n bus i3c
    else if s.bit (Reg.DC.LOCK.LOCK n) then s.discard (Reg.DC.CFG.ENABLE n).addr 1
    else if s.bit (Reg.DC.CFG.ENABLE n) then s
    else if s.get (Reg.DC.STS.STATE n) = 6 then s.setBit (Reg.DC.CFG.ENABLE n) true
    else s.chanEnable n bus i3c)

/-- The longest run of set bits below `n` in a sweep: its first tap and its length, the first of equals (R150). -/
def longestRun (mask n : Nat) : Nat × Nat :=
  let r := (List.range n).foldl (fun (a : Nat × (Nat × Nat)) k =>
    let cur := if mask.testBit k then a.1 + 1 else 0
    (cur, if a.2.2 < cur then (k + 1 - cur, cur) else a.2)) (0, (0, 0))
  r.2

/-- Centring of a lane (R150): of the Vref points whose run is at least 75 % of the best the middle one, rounded down; the midpoint of its
run, as taps above the first of the 129 swept; and the run's length. -/
def centre (sweep : List (Nat × Nat)) : Nat × Nat × Nat :=
  let runs := sweep.map fun x => (x.1, longestRun x.2 129)
  let best := runs.foldl (fun m x => max m x.2.2) 0
  let keep := runs.filter fun x => decide (3 * best ≤ 4 * x.2.2)
  match keep[(keep.length - 1) / 2]? with
  | some (v, a, l) => (v, a + (l - 1) / 2, l)
  | none => (0, 0, 0)

/-- A delay of a sweep about a point: within 0–1,023 taps (R149). -/
def tapsAbout (point off : Nat) : Nat := min 1023 (point + off - 64)

/-- The lanes of a rank after T4 or T6: Vref, delay about the group's point, run. -/
def centred (sweeps : List (List (Nat × Nat))) (points : List (Option Nat)) : List (Nat × Nat × Nat) :=
  (List.range 80).map fun l =>
    let c := centre (sweeps.getD l [])
    (c.1, tapsAbout ((points.getD (l / 4) none).getD 0) c.2.1, c.2.2)

/-- Where training fails first: step, lane, rank and the run found there; steps in order, then ranks, then lanes (R149, R150). -/
def trainFault (eye : Nat) (fixed : Bool) (t1 : List (Option Nat)) (ranks : List (Nat × TrainRank)) : Option (Nat × Nat × Nat × Nat) :=
  let group := fun (l : List (Option Nat)) => !((List.range 20).all fun g => (l.getD g none).isSome)
  let narrow := fun (l : List (Nat × Nat × Nat)) => ((List.range 80).zip l).find? fun x => decide (x.2.2.2 < eye)
  let over_ := fun (step : Nat) (bad : TrainRank → Bool) => (ranks.find? fun x => bad x.2).map fun x => (step, 127, x.1, 0)
  let lanes := fun (step : Nat) (f : TrainRank → List (Nat × Nat × Nat)) => ranks.findSome? fun x =>
    (narrow (f x.2)).map fun y => (step, y.1, x.1, y.2.2.2)
  let last := ranks.findSome? fun x => x.2.t7.map fun l => (7, l, x.1, 0)
  if fixed then last
  else if t1.isEmpty || t1.any (·.isNone) then some (1, 127, 0, 0)
  else (over_ 2 fun r => r.t2.isNone) <|> (over_ 3 fun r => group r.t3) <|> (lanes 4 fun r => centred r.t4 r.t3) <|>
    (over_ 5 fun r => group r.t5) <|> (lanes 6 fun r => centred r.t6 r.t5) <|> last

/-- The narrowest centred run of the lanes of all ranks (R150, MIN_EYE). -/
def minEye (ranks : List (Nat × TrainRank)) : Nat :=
  let all := ranks.flatMap fun x => (centred x.2.t4 x.2.t3 ++ centred x.2.t6 x.2.t5).map (·.2.2)
  match all with | [] => 0 | x :: l => l.foldl min x

/-- The results of native training as the channel keeps them (R149); a group shows the Vref of its first lane (log entry 60). -/
def Dev.trainedValues (s : Dev) (n : Nat) (t1 : List (Option Nat)) (ranks : List (Nat × TrainRank)) : Dev :=
  let c := s.channel n
  let put := fun (t : Tab Nat) (base : Nat) (l : List Nat) => ((List.range l.length).zip l).foldl (fun t x => t.put (base + x.1) x.2) t
  let lanes := ranks.foldl (fun t x =>
    put t (x.1 * 128) (((centred x.2.t4 x.2.t3).zip (centred x.2.t6 x.2.t5)).map fun y => y.1.2.1 + 2 ^ 16 * y.2.2.1)) .empty
  let groups := ranks.foldl (fun t x => (List.range 20).foldl (fun t g =>
    t.put (x.1 * 32 + g) (min 1023 ((x.2.t3.getD g none).getD 0), ((centred x.2.t4 x.2.t3).getD (4 * g) (0, 0, 0)).1 % 64,
      ((centred x.2.t6 x.2.t5).getD (4 * g) (0, 0, 0)).1 % 128)) t) Tab.empty
  let levels := ranks.foldl (fun t x => put t (x.1 * 32) ((List.range 20).map fun g => min 1023 ((x.2.t5.getD g none).getD 0))) .empty
  s.setChannel n { c with lanes, groups, levels
                          pins := put .empty 0 (t1.map fun t => min 127 (t.getD 0))
                          rankCa := ranks.foldl (fun t x => t.put x.1 (x.2.t2.getD 0)) .empty }

/-- Place bytes of a DCn record: rank, subchannel, slot; the ranks of slot 0 come first (R133, R159). -/
def Dev.dcWhere (s : Dev) (n rank sub : Nat) : Nat :=
  rank % 4 + 4 * (sub % 2) + if (if s.bit (Reg.DC.POP.DUAL_RANK n) then 2 else 1) ≤ rank then 8 else 0

/-- The outcome of a channel's training (R149–R153): T1 by pin, and the steps of each rank. -/
def Dev.trained (s : Dev) (n : Nat) (t1 : List (Option Nat)) (results : List TrainRank) : Dev :=
  let fixed := s.bit (Reg.DC.CFG.TRN_MODE n)
  let ranks := (List.range (s.get (Reg.DC.POP.RANKS n) + 1)).map fun r => (r, results.getD r {})
  let eye := if fixed then 0 else minEye ranks
  let s := s.set (Reg.DC.TRN_STS.MIN_EYE n) eye
  match trainFault (s.get (Reg.DC.TRN_SEL.EYE_MIN n)) fixed t1 ranks with
  | none =>
    let s := if fixed then s else s.trainedValues n t1 ranks
    let s := s.setChannel n { s.channel n with drift := .empty, driftPending := .empty, fillFrom := s.clock }
    let s := ((s.setBit (Reg.DC.TRN_STS.FAIL n) false).set (Reg.DC.TRN_STS.STEP n) 7).set (Reg.DC.STS.STATE n) 3
    s.raise (s.dcPlain n 0)
  | some (step, lane, rank, run) =>
    let s := ((s.setBit (Reg.DC.TRN_STS.FAIL n) true).set (Reg.DC.TRN_STS.STEP n) step).set (Reg.DC.TRN_STS.FAIL_LANE n) lane
    let s := (s.set (Reg.DC.TRN_STS.FAIL_RANK n) rank).set (Reg.DC.STS.STATE n) 0
    (s.raise (s.dcEv n 1 true (s.dcWhere n rank (if lane < 80 then lane / 40 else 0)) step (lane % 128 + run * 2 ^ 16) eye)).chanErr n

/-- What each rank's steps T2 to T7 gave (*Training steps*). -/
def trainRanks (t2 : List (Option Nat)) (t3 : List (List (Option Nat))) (t4 : List (List (List (Nat × Nat)))) (t5 : List (List (Option Nat)))
    (t6 : List (List (List (Nat × Nat)))) (t7 : List (Option Nat)) : List TrainRank :=
  (List.range 4).map fun r => { t2 := t2.getD r none, t3 := t3.getD r [], t4 := t4.getD r [], t5 := t5.getD r [], t6 := t6.getD r []
                                t7 := t7.getD r none }

/-- TRAINING_COMPLETE of channel n, with what each step found: T1 by pin, the others by rank (R149). -/
def execTrainingComplete (n : Nat) (t1 t2 : List (Option Nat)) (t3 : List (List (Option Nat))) (t4 : List (List (List (Nat × Nat))))
    (t5 : List (List (Option Nat))) (t6 : List (List (List (Nat × Nat)))) (t7 : List (Option Nat)) (s : State) : Answer :=
  s.on fun s => (if n < 12 ∧ s.get (Reg.DC.STS.STATE n) = 2 then s.trained n t1 (trainRanks t2 t3 t4 t5 t6 t7) else s)

/-- Demand reads of a rank wait in the front end. -/
def Dev.rankQueued (s : Dev) (n rank : Nat) : Bool :=
  s.reads.list.any fun e => e.2.chan == n && e.2.issued.isNone && s.rankOf n e.2.cl == rank

/-- A value of taps shifted by a drift, kept in 0–1,023. -/
def shiftTaps (v : Nat) (d : Int) : Nat := (max 0 (min 1023 ((v : Int) + d))).toNat

/-- Apply a rank's waiting drift to all its read and write delays (R151). -/
def Dev.applyDrift (s : Dev) (n rank : Nat) : Dev :=
  let c := s.channel n
  match c.driftPending.get? rank with
  | none => s
  | some d =>
    let lanes := c.lanes.map fun k v =>
      if k / 128 = rank then shiftTaps (v % 2 ^ 16) d + 2 ^ 16 * shiftTaps (v / 2 ^ 16) d else v
    s.setChannel n { c with lanes, driftPending := c.driftPending.del rank }

/-- A command for a whole rank, on both subchannels, before every other (R140): it occupies the rank, or a bank of all its groups, for
`d` units of time. -/
def Dev.rankCommand (s : Dev) (n place d : Nat) : Dev :=
  let c := s.channel n
  let t := max s.now (max (c.slot.getD 0 0) (c.slot.getD 1 0))
  s.setChannel n { c with slot := (c.slot.put 0 (t + s.dclk n)).put 1 (t + s.dclk n), busy := c.busy.put place (t + d) }

/-- A refresh of a rank is issued (R144): its rows close, all of them or one bank index of every group, the banks wait for tRFC1 or tRFCsb,
and drift is applied (R151). -/
def Dev.refresh (s : Dev) (n rank bank : Nat) : Dev :=
  let sb := s.get (Reg.DC.REF_CTL.MODE n) = 1
  let s := s.rankCommand n (if sb then 4 + rank * 4 + bank % 4 else rank)
    (s.dclk n * s.get (if sb then Reg.DC.TIM1.TRFCSB n else Reg.DC.TIM1.TRFC1 n))
  let c := s.channel n
  let keep := fun (k : Nat) (_ : Nat) => k / 64 != rank || (sb && k % 32 / 8 != bank)
  (s.setChannel n { c with openRows := c.openRows.filter keep }).applyDrift n rank

/-- The refreshes that a rank is owed are issued, oldest first. -/
def Dev.refreshOwed (s : Dev) (n rank : Nat) : Dev :=
  let c := s.channel n
  ((c.postponed.getD rank []).foldl (fun s b => s.refresh n rank b) (s.setChannel n { c with postponed := c.postponed.del rank }))

/-- The oldest refresh that a rank is owed is forced (R145). -/
def Dev.refreshForced (s : Dev) (n rank : Nat) : Dev :=
  match (s.channel n).postponed.getD rank [] with
  | [] => s
  | b :: r =>
    let s := s.setChannel n { s.channel n with postponed := (s.channel n).postponed.putD rank r [] }
    (s.refresh n rank b).raise (s.dcPlain n 11)

/-- Units of time between two refreshes of a rank: tREFI, or a quarter of it, and half of that while the interval is halved
(R144, R146). -/
def Dev.refreshEvery (s : Dev) (n : Nat) : Nat :=
  s.get (Reg.DC.REF_CTL.TREFI n) * s.dclk n / (if s.get (Reg.DC.REF_CTL.MODE n) = 1 then 4 else 1) / (if (s.channel n).halved then 2 else 1)

/-- A refresh of a rank falls due (R144, R145): it is issued with those owed, or postponed while demand reads of the rank wait; beyond
POSTPONE the oldest is forced. -/
def Dev.refreshDue (s : Dev) (n rank bank : Nat) : Dev :=
  let due := (s.channel n).refreshAt.getD rank 0
  let s := s.at (fclkAt due)
  let c := s.channel n
  let owed := c.postponed.getD rank [] ++ [bank]
  let s := s.setChannel n { c with postponed := c.postponed.put rank owed
                                   refreshAt := c.refreshAt.put rank ((if due = 0 then s.now else due) + s.refreshEvery n) }
  if !s.rankQueued n rank then s.refreshOwed n rank
  else if s.get (Reg.DC.REF_CTL.POSTPONE n) < owed.length then s.refreshForced n rank else s

/-- REFRESH_DUE on a rank, of bank index `bank` in REFsb mode. -/
def execRefreshDue (n rank bank : Nat) (s : State) : Answer :=
  s.on fun s => (if 12 ≤ n ∨ !s.chanUp n ∨ s.get (Reg.DC.POP.RANKS n) < rank then s else s.refreshDue n rank bank)

/-- REFRESH_POSTPONE_LIMIT on a rank: a refresh that has been postponed POSTPONE times is forced (R145), which is the oldest that the rank is
owed; another `bank` names none that is due. -/
def execRefreshPostponeLimit (n rank bank : Nat) (s : State) : Answer :=
  s.on fun s => (if 12 ≤ n ∨ !s.chanUp n ∨ ((s.channel n).postponed.getD rank []).head? ≠ some bank then s
    else if s.get (Reg.DC.REF_CTL.POSTPONE n) ≤ ((s.channel n).postponed.getD rank []).length then s.refreshForced n rank else s)

/-- The front ends come up to the present: refreshes that no demand read holds any longer, then the scheduler (R140, R145). -/
def Dev.dramPump (s : Dev) : Dev :=
  s.channels.keys.foldl (fun s n =>
    let s := (s.channel n).postponed.keys.foldl (fun s r => if s.rankQueued n r then s else s.refreshOwed n r) s
    s.dramCatchUp n) s

/-- A read of a channel ends with poison, its line's stored state unchanged (R155, R157). -/
def Dev.readLost (s : Dev) (no : Nat) : Dev :=
  match s.reads.get? no with
  | none => s
  | some d =>
    let s := { s with reads := s.reads.del no }
    match d.what with | .host q => s.refuse q | .background => s

/-- A channel goes off line (R157): its reads are answered with poison and its retries end; TMG stops placing frames on it and rebuilds, or
the memory is lost (R236, R237). -/
def Dev.chanOffline (s : Dev) (n : Nat) : Dev :=
  let s := s.set (Reg.DC.STS.STATE n) 6
  let s := s.raise (s.dcEv n 4 false 0 0 0 0)
  let s := s.setChannel n { s.channel n with retry := .empty, writes := .empty, postponed := .empty }
  let s := (s.reads.list.filter fun e => e.2.chan == n).foldl (fun s e => s.readLost e.1) s
  let first := !s.bit Reg.TMG.STS.DEGRADED
  let s := s.raise (tmgEv 0x172 n 65535 n (2 ^ 40 - 1) 0 0 true)
  let s := (s.setBit Reg.TMG.STS.DEGRADED true).reclaimAll
  if first then
    let s := s.set Reg.TMG.STS.LOST_CH n
    (if 2 ≤ s.chanCount then ({ s with fmsDone := false } : Dev).setBit Reg.TMG.STS.REBUILD true else s).overcommit true
  else s.overcommit true

/-- A temperature as a register shows it. -/
def tempByte (t : Int) : Nat := ((t % 256 + 256) % 256).toNat

/-- The highest of the temperatures that were read. -/
def highest : List (Option Int) → Option Int
  | [] => none
  | none :: r => highest r
  | some t :: r => match highest r with | some u => some (max t u) | none => some t

/-- HOT and CRIT from the highest sensor (R157), that of slot `slot`: set at the threshold, cleared 2 °C below. -/
def Dev.thermal (s : Dev) (n : Nat) (t : Int) (slot : Nat) : Dev :=
  let hot : Int := s.get (Reg.DC.THERM.TS_HIGH n)
  let crit : Int := s.get (Reg.DC.THERM.TS_CRIT n)
  let move := fun (s : Dev) (f : Field) (lim : Int) (i : Nat) =>
    if lim ≤ t then (if s.bit f then s else (s.setBit f true).raise (s.dcEv n i false (8 * slot) 0 (tempByte t) 0))
    else if t ≤ lim - 2 then s.setBit f false else s
  move (move s (Reg.DC.STS.HOT n) hot 5) (Reg.DC.STS.CRIT n) crit 6

/-- The refresh interval after a poll (R146): halved while any cause holds, normal again after two polls without one. -/
def Dev.refreshRate (s : Dev) (n : Nat) (mr4 : Bool) (top : Option Int) (failed : Bool) : Dev :=
  let high : Int := s.get (Reg.DC.THERM.TS_HIGH n)
  let force := s.bit (Reg.DC.REF_CTL.FORCE_2X n)
  let want := mr4 || force || match top with | some t => decide (high ≤ t) | none => false
  let quiet := !mr4 && !force && !failed && match top with | some t => decide (t < high - 2) | none => false
  let c := s.channel n
  let q := if quiet then c.quietPolls + 1 else 0
  s.setChannel n (if want then { c with halved := true, quietPolls := 0 }
    else if 2 ≤ q then { c with halved := false, quietPolls := q } else { c with quietPolls := q })

/-- FORCE_2X halves the interval at once (R146). -/
def Dev.forceRefresh (s : Dev) (n : Nat) : Dev :=
  if s.bit (Reg.DC.REF_CTL.FORCE_2X n) then s.setChannel n { s.channel n with halved := true, quietPolls := 0 } else s

/-- One sensor poll of a channel (R146, R157): temperatures by slot (`none` = the read failed), whether an MR4 field asks for
the higher rate, and the PMIC status bits by slot. A DIMM unread three times counts as at TS_CRIT. -/
def Dev.sensorPoll (s : Dev) (n : Nat) (temps : List (Option Int)) (mr4 : Bool) (pmic : List Nat) : Dev :=
  let s := match temps.getD 0 none with | some t => s.set (Reg.DC.DIMM_TEMP.T0 n) (tempByte t) | none => s
  let s := match temps.getD 1 none with | some t => s.set (Reg.DC.DIMM_TEMP.T1 n) (tempByte t) | none => s
  let c := s.channel n
  let fails := (List.range temps.length).map fun k => (k, if (temps.getD k none).isNone then c.sensorFail.getD k 0 + 1 else 0)
  let bad := fails.any fun x => decide (3 ≤ x.2)
  let s := s.setChannel n { c with sensorFail := fails.foldl (fun t x => t.putD x.1 x.2 0) c.sensorFail, critBySensor := bad }
  let s := fails.foldl (fun s x => if x.2 = 3 then s.raise (s.dcEv n 14 false (8 * x.1) 0 0 0) else s) s
  let felt := fails.map fun x => if 3 ≤ x.2 then some (s.get (Reg.DC.THERM.TS_CRIT n) : Int) else temps.getD x.1 none
  let top := highest felt
  let s : Dev := match top with | some t => s.thermal n t (felt.idxOf (some t)) | none => s
  let s := s.refreshRate n mr4 top (temps.any (·.isNone))
  let p0 := pmic.getD 0 0 % 32; let p1 := pmic.getD 1 0 % 32
  let s := (s.set (Reg.DC.PMIC_STS.D0 n) (s.get (Reg.DC.PMIC_STS.D0 n) ||| p0)).set (Reg.DC.PMIC_STS.D1 n) (s.get (Reg.DC.PMIC_STS.D1 n) ||| p1)
  let s := if p0 / 2 ≠ 0 then s.raise (s.dcEv n 7 false 0 p0 0 0) else s
  let s := if p1 / 2 ≠ 0 then s.raise (s.dcEv n 7 false 8 p1 0 0) else s
  if p0 % 2 = 1 ∨ p1 % 2 = 1 then s.chanOffline n else s

/-- Slots whose sensors a channel has. -/
def Dev.slotCount (s : Dev) (n : Nat) : Nat := if s.bit (Reg.DC.POP.DPC2 n) then 2 else 1

/-- The controller of a channel runs: STATE 2 to 5. -/
def Dev.chanRuns (s : Dev) (n : Nat) : Bool :=
  decide (2 ≤ s.get (Reg.DC.STS.STATE n)) && decide (s.get (Reg.DC.STS.STATE n) ≤ 5)

/-- DIMM_SENSOR_POLL of channel n (R157). -/
def execDimmSensorPoll (n : Nat) (temps : List (Option Int)) (mr4 : Bool) (pmic : List Nat) (s : State) : Answer :=
  s.on fun s => (if n < 12 ∧ s.chanRuns n then s.sensorPoll n (temps.take (s.slotCount n)) mr4 pmic else s)

/-- DIMM_EVENT_N_ASSERT as channel n meets it: `source` = the slot whose DIMM asserted it, if it is one of this channel; then its
readings. -/
def execDimmEventNAssert (n : Nat) (source : Option Nat) (temps : List (Option Int)) (mr4 : Bool) (pmic : List Nat) (s : State) : Answer :=
  s.on fun s => (if n < 12 ∧ s.chanRuns n then
    let s := match source with | some k => s.raise (s.dcEv n 8 false (8 * (k % 2)) 0 0 0) | none => s
    s.sensorPoll n (temps.take (s.slotCount n)) mr4 pmic else s)

/-- Requests of a pair, or of a bank, wait in the front end. -/
def Dev.pairQueued (s : Dev) (n pair : Nat) : Bool := (s.dramReqs n (pair % 2)).any fun r => s.pairOf n r.cl == pair
def Dev.bankQueued (s : Dev) (n bank : Nat) : Bool := (s.dramReqs n (bank / 32 % 2)).any fun r => s.bankKey n r.cl == bank

/-- POWER_DOWN_ENTRY of a (rank, subchannel) pair (R147): IDLE_T after its last request, with every bank precharged. -/
def execPowerDownEntry (n pair : Nat) (s : State) : Answer :=
  s.on fun s => (if 12 ≤ n ∨ !s.chanUp n ∨ !s.bit (Reg.DC.PD_CTL.EN n) then s
    else
      let c := s.channel n
      let open_ := c.openRows.list.any fun e => e.1 / 32 == pair
      if open_ || s.pairQueued n pair || decide (2 * (s.get (Reg.DC.POP.RANKS n) + 1) ≤ pair) then s
      else
        let last := (c.accessed.list.filter fun e => e.1 / 32 == pair).foldl (fun m e => max m e.2) 0
        (s.at (fclkAt (last + s.get (Reg.DC.PD_CTL.IDLE_T n) * s.dclk n))).setChannel n { c with powerDown := c.powerDown.put pair () })

/-- PAGE_IDLE_CLOSE of a bank (rank × 2 + subchannel, × 32 + bank) with no queued access: IDLE_T after its last one (R143). -/
def execPageIdleClose (n bank : Nat) (s : State) : Answer :=
  s.on fun s => (if 12 ≤ n ∨ !s.chanUp n ∨ s.bankQueued n bank ∨ !(s.channel n).openRows.has bank then s
    else
      let c := s.channel n
      (s.at (fclkAt (c.accessed.getD bank 0 + s.get (Reg.DC.PAGE.IDLE_T n) * s.dclk n))).setChannel n
        { c with openRows := c.openRows.del bank })

/-- REQUEST_AGE_PROMOTE of a request that waits at its channel (R140). -/
def execRequestAgePromote (req : AgedReq) (s : State) : Answer :=
  s.on fun s => (match req with
    | .write n cl =>
      let age := s.get (Reg.DC.SCHED.AGE_MAX n)
      if 12 ≤ n ∨ age = 0 then s
      else match (s.channel n).writes.get? cl with
        | none => s
        | some w =>
          let s := s.at (w.arrived + s.dclkFclk n age)
          s.setChannel n { s.channel n with writes := (s.channel n).writes.put cl { w with promoted := true } }
    | .read n no =>
      let age := s.get (Reg.DC.SCHED.AGE_MAX n)
      if 12 ≤ n ∨ age = 0 then s
      else match s.reads.get? no with
        | none => s
        | some d => if d.chan = n ∧ d.issued.isNone then
            { s.at (d.arrived + s.dclkFclk n age) with reads := s.reads.put no { d with promoted := true } }
          else s)

/-- A trained channel: filling or in service (R151). -/
def Dev.chanTrained (s : Dev) (n : Nat) : Bool := s.chanUp n || s.get (Reg.DC.STS.STATE n) == 3

/-- DQS_OSCILLATOR_POLL of a rank, with the drift it finds in taps (R151). -/
def execDqsOscillatorPoll (n rank : Nat) (drift : Int) (s : State) : Answer :=
  s.on fun s => (if 12 ≤ n ∨ !s.chanTrained n ∨ !s.bit (Reg.DC.CFG.TRACK n) ∨ s.bit (Reg.DC.CFG.TRN_MODE n) ∨
        s.get (Reg.DC.POP.RANKS n) < rank ∨ drift.natAbs < 2 then s
    else
      let c := s.channel n
      let old := c.drift.getD rank 0
      let s := s.setChannel n { c with drift := c.drift.put rank (old + drift)
                                       driftPending := c.driftPending.put rank (c.driftPending.getD rank 0 + drift) }
      if old.natAbs < 32 ∧ 32 ≤ (old + drift).natAbs then s.raise (s.dcEv n 10 false (s.dcWhere n rank 0) 0 0 0) else s)

/-- ZQ_CALIBRATION of a rank (R151): its latch occupies the rank for 30 ns, before every other command; the rank leaves
power-down for it and re-enters afterwards (R147). -/
def execZqCalibration (n rank : Nat) (s : State) : Answer :=
  s.on fun s => (if n < 12 ∧ s.chanUp n ∧ rank ≤ s.get (Reg.DC.POP.RANKS n) then s.rankCommand n rank (30 * latNs) else s)

/-- Command and CA[38:12] of a replayed command as a record shows them (R159): codes 0 precharge, 1 activate, 2 read, 3 write above the 27
address bits (log entry 60). -/
def cmdSynd (l : List CmdLog) : Nat :=
  match l with
  | [] => 0
  | e :: _ => e.cl / 64 % 2 ^ 27 + 2 ^ 27 * (match e.cmd with | .precharge => 0 | .activate => 1 | .read _ => 2 | .write => 3)

/-- What the replay log of a subchannel holds at an alert, oldest first, and how many commands: while the channel fills, the fill's
writes of the last 64 DCLK on the subchannel, of which the first is named (R154). `phase` = how far into the FCLK cycle the alert comes. -/
def Dev.replayLog (s : Dev) (n sub phase : Nat) : List CmdLog × Nat :=
  let ck := s.dclk n
  if s.filling n then
    let from_ := s.fillLines n (s.clock - 64 * ck / 1848)
    ([{ time := s.now, cmd := .write, cl := from_ / 2 * 2 + sub }], (s.fillLines n s.clock - from_) / 2)
  else
    let l := (((s.channel n).cmdLog.getD sub []).filter fun e => decide (s.now + phase < e.time + 64 * ck)).reverse
    (l, l.length)

/-- CA_PARITY_ALERT on a subchannel (R154): it stops, its rows close, and the commands of its log are replayed. `phase` in 1/3696 ns. -/
def execCaParityAlert (n sub phase : Nat) (s : State) : Answer :=
  s.on fun s => (if 12 ≤ n ∨ 2 ≤ sub ∨ (s.channel n).retry.has sub ∨ !s.chanTrained n then s
    else
      let r := s.replayLog n sub phase
      let c := s.channel n
      (s.setChannel n { c with retry := c.retry.put sub r, openRows := c.openRows.filter fun k _ => k / 32 % 2 != sub }).set
        (Reg.DC.STS.STATE n) 5)

/-- The requester of a replayed command that has failed gets an error (R155): a read poison; a write's data stays with its requester: a DIRTY
line goes back to LC's eviction buffer, any other write is issued again. -/
def Dev.replayFailed (s : Dev) (n : Nat) (e : CmdLog) : Dev :=
  match e.cmd with
  | .read (some no) => s.readLost no
  | .write =>
    match s.frameOfLine n e.cl with
    | none => s.dramQueue n e.cl
    | some fn =>
      let d := s.dpaOf n e.cl
      let l := s.frameLn fn (e.cl % 64)
      if e.cl < s.get (Reg.DC.MAP_FA.FA_TOP n) * 64 ∧ d ≠ 2 ^ 40 - 1 ∧ l.st = .dirty ∧ !s.lc.has d then
        ({ s with lc := s.lc.put d { ln := l, place := .evict, used := s.uses } } : Dev).used
      else s.dramQueue n e.cl
  | _ => s

/-- STATE of a channel whose subchannels have all left their retries. -/
def Dev.retryOver (s : Dev) (n : Nat) : Dev :=
  if !(s.channel n).retry.list.isEmpty then s
  else s.set (Reg.DC.STS.STATE n) (if (s.get Reg.ECS.FILL_STS.CH_DONE).testBit n then 4 else 3)

/-- CA_PARITY_RETRY_DONE on a subchannel (R155): clean or not, and how the repeated T1 ended: the taps of the pins, `none` where it
failed. -/
def Dev.retryDone (s : Dev) (n sub : Nat) (clean : Bool) (t1 : List (Option Nat)) : Dev :=
  match (s.channel n).retry.get? sub with
  | none => s
  | some (l, count) =>
    let fill := s.filling n
    let ev := fun (s : Dev) i => s.dcEv n i true (4 * sub) 0 (cmdSynd l) count
    let out := fun (s : Dev) => s.setChannel n { s.channel n with retry := (s.channel n).retry.del sub }
    if clean then
      let s := s.count (Reg.DC.CAPAR_OK.COUNT n) (Reg.DC.CAPAR_OK.SAT n) 1 (s.dcPlain n 12)
      let s := s.raise (ev s 2)
      (out s).retryOver n
    else
      let s := s.count (Reg.DC.CAPAR_FAIL.COUNT n) (Reg.DC.CAPAR_FAIL.SAT n) 1 (s.dcPlain n 12)
      let s := out (s.raise (ev s 3))
      if fill then (s.setChannel n { s.channel n with retry := .empty }).set (Reg.DC.STS.STATE n) 0 |>.chanErr n
      else
        let s := l.foldl (fun s e => s.replayFailed n e) s
        if t1.isEmpty || t1.any (·.isNone) then s.chanOffline n
        else
          let pins := ((List.range t1.length).zip t1).foldl (fun (t : Tab Nat) x => t.put x.1 (min 127 (x.2.getD 0))) (s.channel n).pins
          (s.setChannel n { s.channel n with pins }).retryOver n

/-- The repeated T1 of a subchannel (R149, R155): its CS and CA pins; nothing where it does not end within 50 µs (log entry 60). -/
def retryT1 (cs ca : List (Option Nat)) (inTime : Bool) : List (Option Nat) := if inTime then cs ++ ca else []

/-- CA_PARITY_RETRY_DONE on a subchannel: `clean` = no second alert; else what T1 then found on its pins, and whether within its time. -/
def execCaParityRetryDone (n sub : Nat) (clean : Bool) (cs ca : List (Option Nat)) (inTime : Bool) (s : State) : Answer :=
  s.on fun s => ((if 12 ≤ n then s else s.retryDone n sub clean (retryT1 cs ca inTime)).settle)

end Sys2Proof.Machine
end

