-- ==== Sys2Proof/Machine/Destage.lean ====
section
/-! DEFINITION. CHN: the choice of a destage, its merge, its paced writes, its completion, and learning reads
(R28, R165, R194, R196–R199, R201, R203, R205). -/

namespace Sys2Proof.Machine

/-- Age of a counted granule on the millisecond age clock (R196). -/
def Dev.dirtyAge (s : Dev) (d : DirtyGran) : Nat := min 32767 (s.clock / fclkMs - d.first / fclkMs)

/-- Where a destage of a granule goes: drive slot and rescue slot (R203, R205); `none` = nowhere. -/
def Dev.destagePlace (s : Dev) (g : Nat) : Option (Nat × Option Nat) :=
  if s.homeOk g then some (homeSlot s.imageN g, none)
  else match s.rescueOf g with
    | some (d, j) => if s.driveOk d then some (d, some j) else none
    | none => none

/-- The granule's destage has zero lines to seal: lines that neither O nor its frame holds; and none of them can be, for want of the key (R165). -/
def Dev.zeroSeals (s : Dev) (g : Nat) : Bool :=
  let e := s.fme g
  match s.regionAt g with
  | some (_, r) => r.slot.isSome && !e.ew &&
      (List.range 64).any fun k => (s.frameLn e.loc k).st == .absent && !s.poison.has (g * 64 + k) && !s.lc.has (g * 64 + k)
  | none => false
def Dev.granKeyed (s : Dev) (g : Nat) : Bool := match s.regionAt g with | some (_, r) => s.keyed r | none => true
def Dev.zeroUnsealable (s : Dev) (g : Nat) : Bool := s.zeroSeals g && !s.granKeyed g

/-- A line of the granule has a request in flight: the snapshot waits for it (R24). -/
def Dev.granBusy (s : Dev) (g : Nat) : Bool :=
  (s.reads.list.any fun e => match e.2.what with | .host r => granOf r.line == g | .background => false) ||
  (match s.fills.get? g with | some f => !f.waiters.isEmpty | none => false) ||
  (s.allocWait.any fun r => granOf r.line == g) || (s.rteWait.any fun r => granOf r.line == g && r.admitted)

/-- A counted granule may be destaged (R165, R175, R196, R203). -/
def Dev.destageEligible (s : Dev) (g : Nat) (d : DirtyGran) : Bool :=
  let st := s.get Reg.HLD.STATUS.STATE
  (s.fme g).tier == .L && !s.rebuilding g && d.lines && !d.inFlight && !d.stuck && !s.granBusy g &&
  !(s.zeroSeals g && s.granKeyed g && s.rntShut 6) &&
  (match s.destagePlace g with
   | some (p, _) => decide ((s.destages.list.filter fun e => e.2.drive == p).length < 512)
   | none => false) &&
  (decide (2 ≤ st) || (decide (d.lastWrite + s.get Reg.CHN.CFG.COALESCE_MS * fclkMs ≤ s.clock) && !s.zeroUnsealable g))

/-- The oldest eligible granule, the lower of equals (R196). -/
def Dev.destageNext (s : Dev) : Option Nat :=
  if 4096 ≤ s.destages.size then none
  else (s.dirty.list.foldl (fun (b : Option (Nat × Nat)) e =>
    if !s.destageEligible e.1 e.2 then b
    else match b with
      | none => some (e.1, s.dirtyAge e.2)
      | some (g, a) => if a < s.dirtyAge e.2 then some (e.1, s.dirtyAge e.2) else some (g, a)) none).map (·.1)

def Dev.updDestage (s : Dev) (g : Nat) (f : Destage → Destage) : Dev := { s with destages := s.destages.upd g f }

/-- REBUILD_GEN that a write to a drive slot carries (R207). -/
def Dev.genOn (s : Dev) (d : Nat) : Nat := match s.rebuild.get? d with | some b => b.gen | none => 0

/-- A line as a data LBA holds it. -/
def flashLn (l : Ln) : FlashLn :=
  if l.st = .poison then { poison := true } else { tagged := l.tagged, epoch := l.epoch, data := l.data }

/-- The tags of lines, as a tag slot holds them. -/
def tagsOf (lines : Tab Ln) : Tab (BitVec 56) :=
  ⟨(lines.list.filter fun e => e.2.tagged && e.2.st != .poison).map fun e => (e.1, e.2.tag)⟩

/-- Write a tag slot, a data LBA, or a rescue slot (R190, R203, R207). -/
def Dev.putTags (s : Dev) (p lba : Nat) (lines : Tab Ln) : Dev :=
  let m := s.medium p
  s.setMedium p { m with tags := m.tags.put lba { tags := tagsOf lines, rebuildGen := s.genOn p } }
def Dev.putData (s : Dev) (g : Nat) (lines : Tab Ln) (tslot : Bool) : Dev :=
  let d := homeSlot s.imageN g
  let m := s.medium d
  let f : FlashGran := { lines := ⟨lines.list.map fun e => (e.1, flashLn e.2)⟩, tslot, rebuildGen := s.genOn d }
  let s := s.setMedium d { m with data := m.data.put (homeIndex s.imageN g) f }
  { s with rebuild := s.rebuild.upd d fun b => { b with written := b.written.put (homeIndex s.imageN g) () } }
def Dev.putRescue (s : Dev) (d j g : Nat) (lines : Tab Ln) (tslot : Bool) : Dev :=
  let m := s.medium d
  let f : FlashGran := { lines := ⟨lines.list.map fun e => (e.1, flashLn e.2)⟩, tslot, rescue := true, gran := g }
  s.setMedium d { m with rescue := m.rescue.put j f }

/-- Set a granule's bit in the ever-written map of its home drive (R194). -/
def Dev.putMap (s : Dev) (g : Nat) : Dev :=
  let d := homeSlot s.imageN g
  if s.driveOk d then
    let m := s.medium d
    s.setMedium d { m with map := m.map.put (homeIndex s.imageN g) () }
  else s

/-- Drive slot and LBA of the tag slot a destage writes. -/
def Dev.destageTag (s : Dev) (g : Nat) (x : Destage) : Nat × Nat :=
  match x.rescue with
  | some j => (x.drive, s.rescueTagLba j x.slot)
  | none => (tagSlot s.imageN g, s.tagLba g x.slot)

/-- The tag slot that a destage does not overwrite (R198, R203). -/
def Dev.liveSlot (s : Dev) (g : Nat) (x : Destage) : Option Bool :=
  match x.rescue with
  | some j => match (s.medium x.drive).rescue.get? j with
    | some f => if f.rescue && f.gran == g then some f.tslot else none
    | none => none
  | none => let e := s.fme g; if e.ew && e.tslotKnown then some e.tslot else none

/-- A destage waits for tokens (R197). -/
def Dev.destageWait (s : Dev) (g : Nat) : Dev :=
  s.updDestage g fun x => { x with wait := some (x.wait.getD s.clock) }

/-- The ever-written map LBA of a granule: home drive slot and LBA (R191). -/
def Dev.mapOf (s : Dev) (g : Nat) : Nat × Nat := (homeSlot s.imageN g, (mapPlace (homeIndex s.imageN g)).1)

/-- What a destage's data write and the map write it causes draw, by drive slot in bytes; a bit that can join the map write of another
granule of its map LBA causes none (R194, R197). -/
def Dev.destageDraws (s : Dev) (g : Nat) (x : Destage) : List (Nat × Nat) :=
  let m := s.mapOf g
  let first := !(s.fme g).ew && s.driveOk m.1
  let joins := s.destages.list.any fun e => e.1 != g && e.2.step == .data && !(s.fme e.1).ew && s.mapOf e.1 == m
  if !first || joins then [(x.drive, 4096)]
  else if m.1 = x.drive then [(x.drive, 8192)] else [(x.drive, 4096), (m.1, 4096)]

/-- Issue the data write (R198 step 4). -/
def Dev.destageData (s : Dev) (g : Nat) (x : Destage) : Dev :=
  let l := s.destageDraws g x
  if !l.all fun e => s.tokensFor e.1 e.2 then s.destageWait g
  else
    let s := (l.foldl (fun s e => s.drawTokens e.1 e.2) s).updDestage g fun x => { x with step := .data, wait := none, waitTold := false }
    s.nvme x.drive .write 1 (match x.rescue with | some j => s.rescueLba j | none => s.dataLba g) 1

/-- Issue the tag write of an encrypted granule, into the slot that TSLOT does not name (R198 step 3). -/
def Dev.destageTags (s : Dev) (g : Nat) (x : Destage) : Dev :=
  let slot := match s.liveSlot g x with | some b => !b | none => false
  let x := { x with slot }
  let t := s.destageTag g x
  if !s.tokensFor t.1 512 then s.destageWait g
  else
    let s := (s.drawTokens t.1 512).updDestage g fun x => { x with step := .tags, slot, wait := none, waitTold := false }
    s.nvme t.1 .write 2 t.2 1

/-- A merged destage goes on: learning read, tag write, data write (R198, R199). -/
def Dev.destageGo (s : Dev) (g : Nat) : Dev :=
  match s.destages.get? g with
  | none => s
  | some x =>
    match x.step with
    | .learn =>
      if !s.encrypted g then s.destageData g x
      else if x.rescue.isNone && s.needsLearning g then s.learn g
      else s.destageTags g x
    | .tags => s.destageData g x
    | _ => s

/-- The ABSENT lines of a destage's snapshot take their merged content. -/
def Dev.merged (s : Dev) (g : Nat) (line : Nat → Ln) : Dev :=
  (s.updDestage g fun x => { x with step := .learn, standby := false
                                    lines := x.absent.foldl (fun t k => t.put k (line k)) x.lines }).destageGo g

/-- A CHN event on a granule. -/
def chnEv (id d gran : Nat) (rescue : Option Nat) : Ev :=
  nvhEv id d 0 0 0 0 0 gran (rescue.getD (2 ^ 24 - 1)) true

/-- Lines of a granule merge as POISON, and enter the poison index (R165, R201). -/
def Dev.mergePoison (s : Dev) (g cls : Nat) : Dev :=
  match s.destages.get? g with
  | none => s
  | some x =>
    let s := x.absent.foldl (fun s k => s.poisonAdd (g * 64 + k) cls false) s
    s.merged g fun _ => { st := .poison }

/-- The merge read of a destage fails (R201 Case A): the standby's copy, or POISON. -/
def Dev.mergeFailed (s : Dev) (g : Nat) : Dev :=
  match s.destages.get? g with
  | none => s
  | some x =>
    let s := s.raise (chnEv 0x191 x.drive g x.rescue)
    let twin := match s.regionAt g with | some (_, r) => r.mirror && s.lockstep | none => false
    if twin then
      let s := s.updDestage g fun x => { x with standby := true }
      let f : Fill := (s.fills.get? g).getD { cls := .background, tenant := s.ownerOf g, order := s.nextFill }
      ({ s with fills := s.fills.put g { f with frame := some (s.fme g).loc } }.setFme g { s.fme g with pend := true }).standbyFetch g
    else s.mergePoison g 7

/-- Data for a destage's merge arrives: from F, or from the standby. -/
def Dev.mergeData (s : Dev) (g : Nat) (lines : Tab Ln) : Dev :=
  match s.destages.get? g with
  | none => s
  | some x =>
    if x.step ≠ .merge then s
    else
      let s := (x.absent.filter fun k => (lines.getD k {}).st == .poison).foldl (fun s k => s.poisonAdd (g * 64 + k) 12 false) s
      s.merged g fun k => if s.poison.has (g * 64 + k) then { st := .poison } else
        match (lines.getD k {}).st with | .absent => { st := .clean } | _ => { lines.getD k {} with st := .clean }

/-- A destage ends without a write: its granule stays counted, and is chosen again (R165). -/
def Dev.destageDrop (s : Dev) (g : Nat) : Dev :=
  { s with destages := s.destages.del g, dirty := s.dirty.upd g fun d => { d with inFlight := false } }

/-- ABSENT lines of a never-written granule (R165): zeros, sealed for an encrypted region. A slot lost on the way is one that is not ACTIVE. -/
def Dev.mergeZeros (s : Dev) (g : Nat) (r : Region) (x : Destage) : Dev :=
  let z := if s.keyed r then s.sealZeros r (x.absent.map (g * 64 + ·)) else (s, .empty)
  let s := z.1
  if s.keyed r then s.merged g fun k => z.2.getD (g * 64 + k) { st := .poison }
  else if x.absent.isEmpty then s.merged g fun _ => {}
  else if s.get Reg.HLD.STATUS.STATE ≤ 1 then s.destageDrop g
  else (s.raise (chnEv 0x191 x.drive g x.rescue)).mergePoison g 11

/-- LC writes its DIRTY lines of a granule to the DRAM frame, and keeps them (destage step 2). -/
def Dev.lcCopyBack (s : Dev) (g : Nat) : Dev :=
  (s.lc.list.filter fun e => granOf e.1 == g && e.2.ln.st == .dirty).foldl (fun s e =>
    let r := s.sramRead flipLc e.1 1
    if r.2 then r.1.poisonLine e.1 1 false else r.1.dramWrite (r.1.fme g).loc (e.1 % 64) e.2.ln) s

/-- Start a destage (R28, R198 steps 1 and 2); the snapshot reads the frame (R117). -/
def Dev.startDestage (s : Dev) (g : Nat) : Dev :=
  match s.destagePlace g, s.regionAt g with
  | some (d, j), some (_, r) =>
    let s := s.lcCopyBack g
    let s := s.frameRead (s.fme g).loc false
    let e := s.fme g
    let st := fun k => if s.poison.has (g * 64 + k) then LineState.poison else (s.frameLn e.loc k).st
    let all := List.range 64
    let absent := all.filter fun k => st k == .absent
    let lines : Tab Ln := ⟨(all.filter fun k => st k != .absent).map fun k => (k, { s.frameLn e.loc k with st := st k })⟩
    let x : Destage := { step := .merge, lines, snap := all.filter fun k => st k == .dirty, absent, drive := d, rescue := j }
    let s := { s with destages := s.destages.put g x
                      dirty := s.dirty.upd g fun y => { y with inFlight := true, redirty := false } }
    if !e.ew || absent.isEmpty then s.mergeZeros g r x
    else
      let s := s.count Reg.CHN.MERGE_RD.COUNT Reg.CHN.MERGE_RD.SAT 1 chnSat
      match s.fills.get? g with
      | some f =>
        match f.data, f.src with
        | some lines, .F => s.mergeData g lines
        | none, .F => if f.frame.isSome then s else
            match s.flashPlace g with | some p => s.readGran g p | none => s.mergeFailed g
        | _, _ => match s.flashPlace g with | some p => s.readGran g p | none => s.mergeFailed g
      | none => match s.flashPlace g with | some p => s.readGran g p | none => s.mergeFailed g
  | _, _ => s

/-- DESTAGE_START (R196). -/
def execDestageStart (s : State) : Answer :=
  s.on fun s => (match s.destageNext with | some g => s.startDestage g | none => s)

/-- DESTAGE_TAG_WRITE_DONE (R198): the tag slot holds the new tags, and the data LBA may be written. -/
def execDestageTagWriteDone (gran : Nat) (s : State) : Answer :=
  s.on fun s => (match s.destages.get? gran with
    | none => s
    | some x => if x.step = .tags ∧ x.wait.isNone then
        let t := s.destageTag gran x
        (s.putTags t.1 t.2 x.lines).destageGo gran
      else s)

/-- A destage's lines become CLEAN in the frame and in O (destage step 5, R28). -/
def Dev.cleanLines (s : Dev) (g : Nat) (x : Destage) : Dev :=
  let fn := (s.fme g).loc
  let s := (x.snap.filter fun k => !x.rewritten.contains k).foldl (fun s k =>
    let l := s.frameLn fn k
    let s := if l.st = .dirty then s.metaWrite fn k { l with st := .clean } else s
    { s with lc := s.lc.upd (g * 64 + k) fun c => if c.ln.st = .dirty then { c with ln := { c.ln with st := .clean } } else c }) s
  x.absent.foldl (fun s k =>
    let l := x.lines.getD k {}
    if (s.frameLn fn k).st ≠ .absent || (match s.lc.get? (g * 64 + k) with | some c => c.ln.st == .dirty | none => false) then s
    else if l.st = .poison then s.metaWrite fn k l else s.dramWrite fn k l) s

/-- What a destage's data write leaves on its drive (R190, R203): in its own place or in its rescue slot, which RESCUE_USED tells of from
the first on. A granule keeps its rescue slot until rebuild frees it. -/
def Dev.destageMedium (s : Dev) (g : Nat) (x : Destage) : Dev :=
  match x.rescue with
  | some j =>
    let s := s.putRescue x.drive j g x.lines x.slot
    if s.bit Reg.NVH.IMG_STS.RESCUE_USED then s
    else (s.setBit Reg.NVH.IMG_STS.RESCUE_USED true).raise (nvhPlain 0x1A7)
  | none => s.putData g x.lines x.slot

/-- Step 5 of a first destage (R192, R194, R198): its bit is written to the map of its home drive before the destage completes. The command
that reports a destage complete reports its data and its map write, so no map LBA has two writes in flight. -/
def Dev.destageMap (s : Dev) (g : Nat) : Dev :=
  let m := s.mapOf g
  if (s.fme g).ew || !s.driveOk m.1 then s
  else ((s.updDestage g fun x => { x with step := .map }).putMap g).nvme m.1 .write 1 m.2 1

/-- Poison index and header of the end of a flush (R204): CLEAN unless a granule was left or a Flush did not
complete, and no more once the memory is lost (R237). -/
def Dev.flushHeaders (s : Dev) : Dev :=
  let ok := (List.range s.imageN).filter s.driveOk
  let s := ok.foldl (fun s d => (s.setMedium d { s.medium d with poison := s.poison }).nvme d .write 1 32 128) s
  s.writeHeaders (s.dirty.list.isEmpty && !s.psq.flushFailed && !s.memoryLost)

/-- The Flush of every drive in service has completed: the last writes of the flush follow, and IMG_STS shows FLUSHED (R59, R204). -/
def Dev.flushFinish (s : Dev) : Dev :=
  let l := (List.range s.imageN).filter s.driveOk
  if s.get Reg.HLD.STATUS.STATE = 4 ∧ s.get Reg.NVH.IMG_STS.STATE = 6 ∧ !l.isEmpty ∧ l.all (fun d => (s.drive d).flushed) then
    s.flushHeaders.set Reg.NVH.IMG_STS.STATE 7
  else s

/-- A counted granule, or a destage's tags, are still to be written to a drive slot. -/
def Dev.flushOwed (s : Dev) (d : Nat) : Bool :=
  s.dirty.list.any fun e => !e.2.stuck && (match s.destagePlace e.1 with
    | some (p, j) => p == d || (j.isNone && s.encrypted e.1 && tagSlot s.imageN e.1 == d)
    | none => false)

/-- During a flush, each drive whose writes have all completed is flushed (R204); one that has to take more, since another drive has
failed, is flushed once more. -/
def Dev.flushDrives (s : Dev) : Dev :=
  if s.get Reg.HLD.STATUS.STATE = 4 then
    ((List.range s.imageN).foldl (fun s d =>
      if !s.driveOk d then s
      else if s.flushOwed d then s.setDrive d { s.drive d with flushed := false }
      else if (s.drive d).flushing || (s.drive d).flushed then s
      else (s.setDrive d { s.drive d with flushing := true }).nvme d .flush 1 0 0) s).flushFinish
  else s

/-- DESTAGE_COMPLETE (R28, R194, R198). A granule for which another write has been admitted stays counted (R52). -/
def Dev.destageDone (s : Dev) (g : Nat) (x : Destage) : Dev :=
  let s := ((s.destageMedium g x).destageMap g).cleanLines g x
  let e := s.fme g
  let s := s.setFme g { e with ew := true, tslot := x.slot, tslotKnown := true }
  let s := { s with destages := s.destages.del g }
  let s := s.count48 Reg.CHN.DESTAGE_LO.COUNT Reg.CHN.DESTAGE_HI.COUNT 1 chnWrap
  let again := match s.dirty.get? g with | some d => d.redirty | none => false
  let open_ := s.openWrites.any fun q => granOf q.line == g
  let s := if again then
      { s with dirty := s.dirty.upd g fun d => { d with inFlight := false, redirty := false } }.count
        Reg.CHN.REDIRTY.COUNT Reg.CHN.REDIRTY.SAT 1 chnSat
    else if open_ then { s with dirty := s.dirty.upd g fun d => { d with inFlight := false, lines := false } }
    else s.uncountDirty g true
  s.settle.flushDrives

def execDestageComplete (gran : Nat) (s : State) : Answer :=
  s.on fun s => (match s.destages.get? gran with
    | none => s
    | some x => if x.step = .data ∧ x.wait.isNone then s.destageDone gran x else s)

/-- Destages that stand at their learning read and have none outstanding ask for it again (R199): one failed, or the limit of 4,096 was
met. -/
def Dev.retryLearns (s : Dev) : Dev :=
  (s.destages.list.filter fun e => e.2.step == DestageStep.learn && e.2.rescue.isNone && e.2.wait.isNone).foldl (fun s e => s.learn e.1) s

/-- LEARNING_READ_COMPLETE (R199). -/
def execLearningReadComplete (gran : Nat) (s : State) : Answer :=
  s.on fun s => (if s.learns.has gran then
      let t := match s.flashPlace gran with | some (d, lba, r) => (s.flashRead gran d lba r).2 | none => false
      let s := { s with learns := s.learns.del gran }
      let s := s.setFme gran { s.fme gran with tslot := t, tslotKnown := true }
      let s := match s.destages.get? gran with | some x => if x.step = DestageStep.learn then s.destageGo gran else s | none => s
      s.retryLearns.settle
    else s)

/-- A destage restarts into a rescue slot (R201 Case B, R202), at once where it may start, else when it is chosen again (R165, R196). -/
def Dev.restartDestage (s : Dev) (g : Nat) : Dev :=
  let s := { s with destages := s.destages.del g
                    dirty := s.dirty.upd g fun d => { d with inFlight := false } }
  let r := s.reserveRescue g
  let s := r.1
  let s := { s with dirty := s.dirty.upd g fun d => { d with rescue := s.rescueOf g, stuck := (s.destagePlace g).isNone } }
  if (s.destagePlace g).isSome then
    let s := s.raise (chnEv 0x192 ((s.rescueOf g).map (·.1) |>.getD 255) g ((s.rescueOf g).map (·.2)))
    if (s.dirty.get? g).any fun d => s.destageEligible g { d with lastWrite := 0 } then s.startDestage g else s
  else s

/-- TOKEN_BUCKET_REFILL (R197): destages that waited for this drive's tokens go on, and a wait of 1 s is told once. -/
def Dev.tokenRefill (s : Dev) (d : Nat) : Dev :=
  let s := s.refillTokens d
  let s := if (s.drive d).headerWait && s.driveOk d then s.writeHeader d else s
  let waiting := s.destages.list.filter fun e => e.2.wait.isSome &&
    (if e.2.step == .learn && s.encrypted e.1 then (s.destageTag e.1 e.2).1 == d else (s.destageDraws e.1 e.2).any fun x => x.1 == d)
  waiting.foldl (fun s e =>
    let s := s.destageGo e.1
    match s.destages.get? e.1 with
    | some x => match x.wait with
      | some t => if t + fclkS ≤ s.clock ∧ !x.waitTold ∧ s.get Reg.HLD.STATUS.STATE = 0 then
          (s.updDestage e.1 fun x => { x with waitTold := true }).raise (chnEv 0x194 d e.1 x.rescue) else s
      | none => s
    | none => s) s
def execTokenBucketRefill (drive : Nat) (s : State) : Answer := s.on fun s => (if drive < s.imageN then s.tokenRefill drive else s)

/-- FLASH_READ_COMPLETE: an NVMe read of a granule returns, each line XORed with `flips`, `ns` after its doorbell
(R26, R28, R104). -/
def Dev.flashArrived (s : Dev) (g : Nat) (flips : List (Nat × LineData)) (ns : Nat) : Dev :=
  let fill := match s.fills.get? g with | some f => f.src == .F && f.frame.isSome && f.data.isNone | none => false
  if !fill && !s.mergeReading g then s
  else match s.flashPlace g with
  | none => s
  | some (d, lba, rescue) =>
    let r := s.flashRead g d lba rescue
    let lines := flips.foldl (fun (t : Tab Ln) x => t.upd x.1 fun l => { l with data := l.data ^^^ x.2 }) r.1
    let s := s.setFme g { s.fme g with tslot := r.2, tslotKnown := true }
    let s := if s.mergeReading g then s.mergeData g lines else s
    (if fill then s.fillData g .F lines (some r.2) (latFlash + ns * latNs) else s).settle
def execFlashReadComplete (gran : Nat) (flips : List (Nat × LineData)) (ns : Nat) (s : State) : Answer :=
  s.on fun s => (s.flashArrived gran flips ns)

end Sys2Proof.Machine
end

