-- ==== Sys2Proof/Machine/Doe.lean ====
section
/-! DEFINITION. What function 0 of an LD shows of itself: its CXL features and configuration registers (R64, R68, R72), its CDAT
(R77, R84, R85), and the DOE instances (R86). -/

namespace Sys2Proof.Machine

/-- The features a port supports, and so advertises (R64, *CXL feature support*). -/
def CxlFeature.supported : CxlFeature → Bool
  | .cache | .hdmDb | .viral | .tsp => false
  | .io | .memHdmH | .mld | .multiHeaded | .dcd | .poison | .gpf | .cdat | .doe | .ide | .flit256Lo | .flit68 | .fmApi | .devLoad => true

/-- GPF Phase 2 Duration in µs and Power in mW (R64), and Memory_Active_Timeout in s (R72), as advertised. -/
def gpfPhase2Us : Nat := 1000
def gpfPhase2Mw : Nat := 0
def memActiveTimeoutS : Nat := 16

/-- A field of an HDM decoder as its capability shows it (R73). -/
def Decoder.field (d : Decoder) : DecoderField → Nat
  | .base => d.hpaBase
  | .size => d.size
  | .skip => d.skip
  | .ways => d.ways
  | .gran => d.gran
  | .lock => if d.lock then 1 else 0
  | .committed => if d.committed then 1 else 0
  | .error => if d.error then 1 else 0

/-- What a configuration or component register of a function reads (R64, R68, R72, R73, R76). -/
def Dev.configRead (s : Dev) (f : Nat) : ConfigReg → Nat
  | .feature x => if x.supported then 1 else 0
  | .gpfDuration => gpfPhase2Us
  | .gpfPower => gpfPhase2Mw
  | .memActiveTimeout => memActiveTimeoutS
  | .memActive => match s.headOfInst f with | some H => s.get (Reg.HP.LINK_STS.MEM_ACTIVE (H / 4) (H % 4)) | none => 0
  | .aerPoisoned => match s.headOfInst f with | some H => if (s.head H).aerPoisoned then 1 else 0 | none => 0
  | .decoder i x => if f < 64 ∧ i < 8 then ((s.ld f).decoders.getD i {}).field x else 0

/-- A write of a configuration register: AER status is cleared by a 1; the others take no write here, decoders being
HDM_DECODER_COMMIT's. -/
def Dev.configWrite (s : Dev) (f : Nat) (r : ConfigReg) (v : Nat) : Dev :=
  match r, s.headOfInst f with
  | .aerPoisoned, some H => if v.testBit 0 then s.setHead H { s.head H with aerPoisoned := false } else s
  | _, _ => s

/-- Latency that a CDAT counts for a head: rate, width, and IDE with the whole epoch (R69, R70, R81, R85), in 1/3696 ns. -/
def Dev.cdatAdd (s : Dev) (H : Nat) : Nat :=
  let rate := s.get (Reg.HP.LINK_STS.RATE (H / 4) (H % 4))
  rateAdd rate (s.get (Reg.HP.LINK_STS.FLIT (H / 4) (H % 4))) + widthAdd rate (s.get (Reg.HP.LINK_STS.WIDTH (H / 4) (H % 4))) +
    s.ideAdd H (s.head H).epochLen

/-- Read and write latency of a DC region of class `c` (R85, *CDAT figures*), in 1/3696 ns. -/
def Dev.cdatRead (s : Dev) (H c : Nat) : Nat := (150 + if c % 2 = 1 then 8 else 0) * latNs + s.cdatAdd H
def Dev.cdatWrite (s : Dev) (H c : Nat) : Nat :=
  (58 + (if c % 2 = 1 then 13 else 0) + if 2 ≤ c then s.get (Reg.HP.TWIN_RTT_NS.NS (H / 4)) else 0) * latNs + s.cdatAdd H

/-- Raw bandwidth of a head per direction in 10 MB/s (R69, R70): its width's share of the x16 figure. -/
def rawBw (rate width : Nat) : Nat := (if rate = 6 then 12100 else if rate = 5 then 6000 else if rate = 4 then 3000 else 0) * width / 16

/-- A latency as a CDAT entry gives it: in ns, rounded up so that it never understates (DESIGN CHOICE, log entry 57). -/
def cdatNs (lat : Nat) : Nat := min 65535 (ceilDiv lat latNs)

/-- The entries of an LD's CDAT, a handle per DC region (R84): no DSMAS describes static capacity. -/
def Dev.cdatEntries (s : Dev) (H : Nat) : List CdatEntry :=
  (List.range 8).flatMap fun k =>
    let c := s.get (Reg.HP.DCR_CLASS.CLASS 0 k)
    let bw := rawBw (s.get (Reg.HP.LINK_STS.RATE (H / 4) (H % 4))) (s.get (Reg.HP.LINK_STS.WIDTH (H / 4) (H % 4)))
    [.dsmas k true (k * 2 ^ 43) (2 ^ 43), .dsemts k (k * 2 ^ 43) (2 ^ 43),
     .dslbis k 0 (cdatNs (max (s.cdatRead H c) (s.cdatWrite H c))), .dslbis k 1 (cdatNs (s.cdatRead H c)),
     .dslbis k 2 (cdatNs (s.cdatWrite H c)), .dslbis k 4 bw, .dslbis k 5 bw]

/-- A CDAT structure as DOE words: type and length, then its fields (PRESUMED, log entry 57): DSMAS flag bit 2 is NonVolatile; EFI
memory type 1 is Specific Purpose; latencies in units of 1,000 ps, bandwidths of 10 MB/s. -/
def CdatEntry.words : CdatEntry → List Nat
  | .dsmas h nv base len => [24 * 65536, h + flagAt nv 10, loW base, hiW base, loW len, hiW len]
  | .dsemts h base len => [4 + 24 * 65536, h + 256, loW base, hiW base, loW len, hiW len]
  | .dslbis h kind v => [1 + 24 * 65536, h + kind * 65536, if kind < 3 then 1000 else 10, 0, v, 0]

/-- A DOE object: vendor and type, length in words, body. -/
def doeObject (vendor typ : Nat) (body : List Nat) : List Nat := (vendor + typ * 65536) :: (body.length + 2) :: body

/-- Vendor IDs of PCI-SIG and CXL, and the object types an instance carries (R86): Discovery, CMA/SPDM, Secured CMA/SPDM, and on an LD
Table Access (PRESUMED, log entry 57). -/
def pciSig : Nat := 1
def cxlVendor : Nat := 0x1E98
def doeTypes (inst : Nat) : List (Nat × Nat) :=
  [(pciSig, 0), (pciSig, 1), (pciSig, 2)] ++ if inst < 64 then [(cxlVendor, 2)] else []

/-- The answer to a DOE object: Discovery and Table Access answer at once; the SPDM objects are the SPDM rows of the table; an object
of another type is discarded. -/
def Dev.doeAnswer (s : Dev) (inst H : Nat) (req : List Nat) : List Nat :=
  let w := req.getD 0 0
  let v := w % 65536; let t := w / 65536 % 256
  let l := doeTypes inst
  if v = pciSig ∧ t = 0 then
    let i := req.getD 2 0 % 256
    match l[i]? with
    | some (a, b) => doeObject pciSig 0 [a + b * 65536 + (if i + 1 < l.length then i + 1 else 0) * 2 ^ 24]
    | none => []
  else if v = cxlVendor ∧ t = 2 ∧ inst < 64 then
    let e := s.cdatEntries H
    let i := req.getD 2 0 / 65536
    if i = 0 then doeObject cxlVendor 2 [65536, 16 + 24 * e.length, 1, 0, 0]
    else match e[i - 1]? with
      | some x => doeObject cxlVendor 2 ((if i < e.length then i + 1 else 65535) * 65536 :: x.words)
      | none => []
  else []

/-- A DOE instance, and its buffer of 16 KiB in words. -/
def Dev.doe (s : Dev) (inst : Nat) : Doe := s.does.getD inst {}
def Dev.setDoe (s : Dev) (inst : Nat) (d : Doe) : Dev := { s with does := s.does.putD inst d {} }
def doeWords : Nat := 4096

/-- A DOE Abort: the object in progress goes, and the head raises its local event 10 (R86). -/
def Dev.doeAbort (s : Dev) (inst : Nat) : Dev :=
  match s.headOfInst inst with
  | none => s
  | some H =>
    let s := { s with does := s.does.del inst
                      island := { s.island with spdm := s.island.spdm.upd inst fun x => { x with chunkIn := none, chunkOut := none } } }
    s.raise (hpEv (H / 4) 10)

/-- A write to a DOE instance's registers (R86): one object at a time, so that a request is taken only once the answer before it has
been read; a request longer than the buffer is an error. -/
def Dev.doeWrite (s : Dev) (inst : Nat) (r : DoeReg) (v : Nat) : Dev :=
  let d := s.doe inst
  match r, s.headOfInst inst with
  | .control, some H =>
    if v.testBit 0 then s.doeAbort inst
    else if v.testBit 31 ∧ !d.err ∧ d.rsp = [] then s.setDoe inst { d with req := [], rsp := s.doeAnswer inst H d.req } else s
  | .data, some _ =>
    if d.rsp ≠ [] ∨ doeWords ≤ d.req.length then s.setDoe inst { d with err := true } else s.setDoe inst { d with req := d.req ++ [v] }
  | .read, some _ => s.setDoe inst { d with rsp := d.rsp.drop 1 }
  | _, _ => s

/-- A read of a DOE instance's registers: in STATUS, bit 2 error and bit 31 object ready. -/
def Dev.doeRead (s : Dev) (inst : Nat) (r : DoeReg) : Nat :=
  let d := s.doe inst
  match r with
  | .status => flagAt d.err 2 + flagAt (d.rsp != []) 31
  | .read => d.rsp.getD 0 0
  | _ => 0

/-- DOE_ABORT of an instance: the object in progress goes (R86). -/
def execDoeAbort (inst : Nat) (s : State) : Answer := s.on fun s => s.doeAbort inst

end Sys2Proof.Machine
end

