-- ==== Sys2Proof/Machine/Drives.lean ====
section
/-! DEFINITION. NVH: drives entering and leaving service, image creation, headers, restore, rebuild, flush
(R62, R187–R195, R200–R208, R471), and the rekey sweep (R171, R172). -/

namespace Sys2Proof.Machine

/-- Image drive slot of a port; 0xFF outside the image (R191, R209). -/
def Dev.slotOfPort (s : Dev) (p : Nat) : Nat := ((List.range s.imageN).find? fun d => s.imageDrives[d]? == some p).getD 255

/-- A drive's state is one in which it counts as healthy (R53, R189). -/
def inService (st : Nat) : Bool := st == 2 || st == 3

/-- IMG_STS.STATE of an image that is on line: ONLINE, DEGRADED or REBUILDING by its drives. -/
def Dev.imageStatus (s : Dev) : Dev :=
  let st := s.get Reg.NVH.IMG_STS.STATE
  if 3 ≤ st ∧ st ≤ 5 then
    let l := (List.range s.imageN).map s.driveSt
    s.set Reg.NVH.IMG_STS.STATE (if l.contains 3 then 5 else if l.all (· == 2) then 3 else 4)
  else s

/-- An NVH event on a port's drive, with its states before and after (R209). -/
def Dev.drvEv (s : Dev) (id p before status lba gran : Nat) : Ev :=
  nvhEv id (s.slotOfPort p) before (s.get (Reg.NVH.DRV.STATE p)) (s.get (Reg.NVH.DRV.REASON p)) status lba gran (2 ^ 24 - 1) true
def noGran : Nat := 2 ^ 40 - 1

/-- A drive changes state (R189): LIMIT_EFF is recomputed when it enters or leaves service, and granules without a
rescue slot are tried again when it enters (R203). `id` = its event; 0 for none. -/
def Dev.setDrv (s : Dev) (p st reason id status lba gran : Nat) : Dev :=
  let before := s.get (Reg.NVH.DRV.STATE p)
  let s := ((s.set (Reg.NVH.DRV.STATE p) st).set (Reg.NVH.DRV.REASON p) reason).imageStatus
  let s := if st = 2 ∨ st = 3 ∨ st = 1 then s else s.set (Reg.NVH.DRV.QPAIRS p) 0
  let s := if id = 0 then s else s.raise (s.drvEv id p before status lba gran)
  if inService before == inService st then s
  else
    let s := s.limitRecompute
    if 3 ≤ s.get Reg.NVH.IMG_STS.STATE then s.reserveAll else s

/-- The drive is large enough for the image (R187, R191). -/
def fits (m : Medium) (n G r : Nat) : Bool :=
  decide (imageBase n G + imageD n G + r ≤ m.cap1) && decide (2 * (imageD n G + r) ≤ m.cap2)

/-- A read of a granule fails for good: RD_FAIL and EV 0x1A5 (R202 Case A). -/
def Dev.readFailed (s : Dev) (p before status lba gran : Nat) : Dev :=
  (s.count Reg.NVH.RD_FAIL.COUNT Reg.NVH.RD_FAIL.SAT 1 (nvhPlain 0x1AE)).raise (s.drvEv 0x1A5 p before status lba gran)

/-- NVH counters. -/
def nvhSat : Ev := nvhPlain 0x1AE

/-- Start the rebuild of a blank drive in place of one out of service (R205, R207): the new drive's ever-written map takes the bits of the
frame map. -/
def Dev.startRebuild (s : Dev) (d : Nat) : Dev :=
  let p := s.portOfDrive d
  let gen := if s.image.rebuildGen + 1 = 65536 then 1 else s.image.rebuildGen + 1
  let s := { s with rebuild := s.rebuild.put d { drive := d, gen } }
  let s := s.setDrv p 3 0 0x1A9 0 0 noGran
  let s := (s.set (Reg.NVH.DRV.REBUILD_PCT p) 0)
  let bits : Tab Unit := ⟨(s.fm.list.filter fun e => e.2.ew && homeSlot s.imageN e.1 == d).map fun e => (homeIndex s.imageN e.1, ())⟩
  ((s.setMedium d { s.medium d with map := bits }).nvme d .write 1 160 (imageM s.imageN s.imageG)).writeHeaders false

/-- A blank drive that waited for a rebuild to end starts its own (R207). -/
def Dev.rebuildNext (s : Dev) : Dev :=
  if !s.rebuild.list.isEmpty then s
  else match (List.range s.imageN).find? fun x => s.driveSt x == 1 && s.get (Reg.NVH.DRV.QPAIRS (s.portOfDrive x)) != 0 &&
      (s.medium x).blank && fits (s.medium x) s.imageN s.imageG s.rescueR with
    | some x => s.startRebuild x
    | none => s

/-- A drive leaves service (R202, R203): its commands are abandoned; its reads in flight fail as in Case A, its destages restart, and
a Flush it had not completed withholds the clean-shutdown mark (R204). -/
def Dev.driveOut (s : Dev) (p st reason id status lba gran : Nat) : Dev :=
  let d := s.slotOfPort p
  if d = 255 then s.setDrv p st reason id status lba gran
  else
    let uses := fun g => (match s.flashPlace g with | some (x, _, _) => x == d | none => false) ||
      (s.encrypted g && tagSlot s.imageN g == d)
    let before := s.driveSt d
    let fills := (s.fills.list.filter fun e => e.2.src == .F && e.2.frame.isSome && e.2.data.isNone && uses e.1).map (·.1)
    let merges := (s.destages.list.filter fun e => e.2.step == .merge && !e.2.standby && uses e.1).map (·.1)
    let writes := (s.destages.list.filter fun e => e.2.drive == d || (s.destageTag e.1 e.2).1 == d && s.encrypted e.1).map (·.1)
    let learns := (s.learns.list.filter fun e => e.2 == d).map (·.1)
    let reads := (fills ++ merges ++ learns).foldl (fun (l : List (Nat × Nat)) g => if l.any (·.1 == g) then l else
      l ++ [(g, match s.flashPlace g with | some (_, lba, _) => lba | none => s.dataLba g)]) []
    let keepLearn := fun (_ : Nat) (x : Nat) => x != d
    let s := { s with learns := s.learns.filter keepLearn, rebuild := s.rebuild.del d }
    let s := if (s.drive d).flushing then { s with psq := { s.psq with flushFailed := true } } else s
    let s := s.setDrive d { s.drive d with flushing := false, headerWait := false }
    let s := s.setDrv p st reason id status lba gran
    let s := reads.foldl (fun s x => s.readFailed p before 0 x.2 x.1) s
    let s := fills.foldl Dev.flashFailed s
    let s := writes.foldl Dev.restartDestage s
    let s := (merges.filter fun g => !writes.contains g).foldl Dev.mergeFailed s
    s.rebuildNext.retryLearns.settle.flushDrives

/-- What restore makes of a drive beside the chosen header (R200, R206). -/
def Dev.restoreDrive (s : Dev) (h : ImgHeader) (d : Nat) : Dev :=
  let p := s.portOfDrive d
  let m := s.medium d
  if s.driveSt d ≠ 2 then s
  else if m.foreign s.imageKey then s.setDrv p 6 3 0x1A3 0 0 noGran
  else match m.best s.imageKey with
    | none => (s.raise (s.drvEv 0x1AB p 2 0 0 noGran)).setDrv p 4 11 0x1A1 0 0 noGran
    | some x =>
      if x.imageId ≠ h.imageId then s.setDrv p 6 3 0x1A3 0 0 noGran
      else if !fits m h.n h.g h.r then s.setDrv p 6 4 0x1A3 0 0 noGran
      else if x.seq < h.seq ∨ !h.inService.testBit d then s.setDrv p 4 9 0x1A1 0 0 noGran
      else if h.rebuilding.testBit d then
        { s with rebuild := s.rebuild.put d { drive := d, cursor := h.cursor, gen := h.rebuildGen, resumed := true } }.setDrv p 3 0 0 0 0 noGran
      else s

/-- A drive whose set-up is complete joins the image, waits, or is refused (R189, R200, R205–R207); during a restore it is judged as
the drives that were there at its start. -/
def Dev.driveReady (s : Dev) (p : Nat) : Dev :=
  let d := s.slotOfPort p
  let m := s.media.getD p {}
  if d = 255 then s
  else if s.get Reg.NVH.IMG_STS.STATE = 2 then (s.setDrv p 2 0 0x1A0 0 0 noGran).restoreDrive s.image d
  else if !s.imageOnline then s.setDrv p 2 0 0x1A0 0 0 noGran
  else if m.foreign s.imageKey then s.setDrv p 6 3 0x1A3 0 0 noGran
  else match m.best s.imageKey with
    | some h => if h.imageId = s.image.imageId then s.setDrv p 4 9 0x1A1 0 0 noGran else s.setDrv p 6 3 0x1A3 0 0 noGran
    | none => if !fits m s.imageN s.imageG s.rescueR then s.setDrv p 6 4 0x1A3 0 0 noGran
      else if s.rebuild.list.isEmpty then s.startRebuild d
      else s

/-- The commands of a drive's set-up (R187, R188). -/
def Dev.driveAdmin (s : Dev) (p : Nat) : Dev :=
  let d := s.slotOfPort p
  if d = 255 then s
  else [NvmeOp.identify, .getFeatures, .setFeatures].foldl (fun s op => s.nvme d op 0 0 0) s

/-- A drive's link comes up on an enabled port (R187, R189): `wide` = it trains at PCIe 5.0 x4. -/
def Dev.driveLink (s : Dev) (p : Nat) (wide : Bool) : Dev :=
  if inService (s.get (Reg.NVH.DRV.STATE p)) then s
  else if wide then (s.setDrv p 1 0 0 0 0 noGran).driveAdmin p else s.setDrv p 6 1 0x1A3 0 0 noGran

/-- DRIVE_PORT_ENABLE of root port p; `link`: 0 no drive trains, 1 as R187 asks, 2 narrower or slower. -/
def execDrivePortEnable (port link : Nat) (s : State) : Answer :=
  s.on fun s => (if 8 ≤ port then s
    else if s.bit Reg.NVH.LOCK.LOCK then s.discard Reg.NVH.CFG.PORT_EN.addr 1
    else if (s.get Reg.NVH.CFG.PORT_EN).testBit port then s
    else
      let s := s.set Reg.NVH.CFG.PORT_EN (withBit (s.get Reg.NVH.CFG.PORT_EN) port)
      if link = 0 then s.setDrv port 0 0 0 0 0 noGran else s.driveLink port (link == 1))

/-- DRIVE_LINK_UP (R189). -/
def execDriveLinkUp (port : Nat) (wide : Bool) (s : State) : Answer :=
  s.on fun s => (if port < 8 ∧ (s.get Reg.NVH.CFG.PORT_EN).testBit port then s.driveLink port wide else s)

/-- DRV_PERST_Np is released: the pin is low while its root port is absent from PORT_EN (R470). -/
def Dev.drvPerstReleased (s : Dev) (p : Nat) : Bool := (s.get Reg.NVH.CFG.PORT_EN).testBit p

/-- DRIVE_INIT_COMPLETE (R187, R189): the checks' outcome, the queue pairs the drive offers, and the LBAs of its two
namespaces. -/
def execDriveInitComplete (port : Nat) (ok : Bool) (qpairs cap1 cap2 : Nat) (s : State) : Answer :=
  s.on fun s => (if 8 ≤ port ∨ s.get (Reg.NVH.DRV.STATE port) ≠ 1 then s
    else if !ok || decide (qpairs < 8) then s.setDrv port 6 2 0x1A3 0 0 noGran
    else
      let s := { s with media := s.media.put port { s.media.getD port {} with cap1, cap2 } }
      let s := (s.calTrained (136 + 4 * port) 4).set (Reg.NVH.DRV.QPAIRS port) (min 64 qpairs)
      let d := s.slotOfPort port
      (if d = 255 then s else s.nvme d .createQueue 0 0 (min 64 qpairs)).driveReady port)

/-- The image that IMG_CFG and IMG_SIZE describe (R191, R195, R208). -/
def Dev.newG (s : Dev) : Nat := s.get Reg.NVH.IMG_SIZE.EXTENTS * 512
def Dev.newR (s : Dev) : Nat := s.get Reg.NVH.IMG_CFG.RESCUE_64K * 65536

/-- Why creation refuses a drive (R195): 10 it holds an image of this device, 4 it is too small. -/
def Dev.createRefusal (s : Dev) (p : Nat) : Nat :=
  let m := s.media.getD p {}
  if (m.best s.imageKey).isSome then 10 else if !fits m s.imageN s.newG s.newR then 4 else 0

/-- IMAGE_CREATE (R195): IMG_CTL.CREATE is written 1. -/
def Dev.imageCreate (s : Dev) : Dev :=
  if s.get Reg.NVH.IMG_STS.STATE ≠ 0 then s
  else
    let ports := s.imageDrives
    let bad := ports.filter fun p => s.get (Reg.NVH.DRV.STATE p) == 2 && s.createRefusal p != 0
    let missing := ports.any fun p => s.get (Reg.NVH.DRV.STATE p) != 2
    if !bad.isEmpty || missing || ports.isEmpty then
      let s := bad.foldl (fun s p => s.setDrv p 6 (s.createRefusal p) 0x1A3 0 0 noGran) s
      s.raise (nvhPlain 0x1AD)
    else
      let q := s.random
      let s := (q.2.setBit Reg.NVH.IMG_CTL.CREATE true).set Reg.NVH.IMG_STS.STATE 1
      let h : ImgHeader := { imageId := q.1 % 2 ^ 128, devHash := s.island.deviceHash, seq := 1, n := s.imageN, g := s.newG, r := s.newR
                             clean := true, inService := 2 ^ s.imageN - 1, dsc := s.get Reg.HLD.DSC.COUNT, time := s.calNow
                             cfgDigest := s.round.digest }
      let s := { s with image := h, imageMask := s.get Reg.NVH.IMG_CFG.DRIVE_MASK }
      let base := imageBase s.imageN s.imageG
      (List.range s.imageN).foldl (fun s d =>
        let m := s.medium d
        let s := s.setMedium d { m with map := .empty, poison := .empty, rescue := .empty
                                        header0 := some ({ h with slot := d }.sealed s.imageKey) }
        let s := (s.nvme d .writeZeroes 1 32 (128 + imageM s.imageN s.imageG)).nvme d .writeZeroes 1 (base + imageD s.imageN s.imageG) s.rescueR
        s.nvme d .writeFua 1 (headerLba false) 16) s
def execImageCreate (s : State) : Answer := s.on fun s => s.imageCreate

/-- SA_NEED of a channel in bytes: the sum of *System area parts* for G granules, C channels and FA_TOP frames (R217, R218). -/
def saNeed (g c fa : Nat) : Nat := (saParts g c fa).foldl (fun a x => a + x.2) 0

/-- SA_AVAIL of a channel in bytes: its capacity less SA_BASE (R217, R218). -/
def Dev.saAvail (s : Dev) (n : Nat) : Nat :=
  s.get (Reg.DC.POP.CAP_GIB n) * 2 ^ 30 - (s.get (Reg.DC.MAP_MD.MD_BASE n) * 4096 + s.get (Reg.DC.MAP_FA.FA_TOP n) * 512)

/-- TMG computes SA_NEED and SA_AVAIL; `true` = the system area is too short for the image (R218). -/
def Dev.saCheck (s : Dev) : Dev × Bool :=
  match s.populated with
  | [] => ((s.setBit Reg.TMG.STS.SA_SHORT true).raise (tmgPlain 0x17B), true)
  | n :: _ =>
    let need := saNeed s.imageG s.chanCount (s.get (Reg.DC.MAP_FA.FA_TOP n))
    let avail := s.saAvail n
    let s := (s.set Reg.TMG.SA_NEED.MIB (ceilDiv need (2 ^ 20))).set Reg.TMG.SA_AVAIL.MIB (avail / 2 ^ 20)
    if avail < need then ((s.setBit Reg.TMG.STS.SA_SHORT true).raise (tmgPlain 0x17B), true) else (s, false)

/-- IMAGE_CREATE_COMPLETE (R195, R218). -/
def Dev.imageCreated (s : Dev) : Dev :=
  let r := s.saCheck
  let s := r.1.setBit Reg.NVH.IMG_CTL.CREATE false
  if r.2 then ({ s with imageMask := 0, image := {} } : Dev).set Reg.NVH.IMG_STS.STATE 0 else ((s.set Reg.NVH.IMG_STS.STATE 3).raise (nvhPlain 0x1AC)).memUpdateAll
def execImageCreateComplete (s : State) : Answer :=
  s.on fun s => (if s.get Reg.NVH.IMG_STS.STATE = 1 then s.imageCreated else s)

/-- The header restore chooses, if the image's drives agree with DRIVE_MASK (R206). -/
def Dev.restoreHeader (s : Dev) : Option ImgHeader :=
  let l := (List.range s.imageN).filterMap fun d => if s.driveSt d = 2 then (((s.medium d).best s.imageKey).map fun h => (d, h)) else none
  let b := l.foldl (fun (b : Option ImgHeader) x => match b with
    | none => some x.2
    | some y => if y.seq < x.2.seq then some x.2 else some y) none
  match b with
  | none => none
  | some h => if h.n = s.imageN ∧ l.all (fun x => x.2.imageId != h.imageId || x.2.slot == x.1) then some h else none

/-- RESTORE_START (R206): both header copies of every drive are read; the chosen header fixes the image's drives. -/
def Dev.restoreStart (s : Dev) : Dev :=
  if s.get Reg.NVH.IMG_STS.STATE ≠ 0 ∨ !s.bit Reg.ECS.FILL_STS.ALL_DONE then s
  else
    let s := ((List.range s.imageN).filter fun d => s.driveSt d == 2).foldl (fun s d => s.nvme d .read 1 0 32) s
    match s.restoreHeader with
    | some h =>
      let s := ({ s with image := h, imageMask := s.get Reg.NVH.IMG_CFG.DRIVE_MASK }).set Reg.NVH.IMG_STS.STATE 2
      (List.range s.imageN).foldl (fun s d => s.restoreDrive h d) s
    | none =>
      let refuse := (List.range s.imageN).filter fun d => s.driveSt d == 2 && (s.medium d).foreign s.imageKey
      (refuse.foldl (fun s d => s.setDrv (s.portOfDrive d) 6 3 0x1A3 0 0 noGran) s).raise (nvhPlain 0x1AD)
def execRestoreStart (s : State) : Answer := s.on fun s => s.restoreStart

/-- The region log is loaded (R37): of each region number the deciding record of the half in use gives regions, their generations and
attachments, and the LDs' extent lists. -/
def Dev.loadRegions (s : Dev) : Dev :=
  let recs := liveRecs s.imageKey s.image.imageId s.regionLog.current.recs
  let share := fun (n : Nat) (r : Region) => r.attached.filterMap fun g =>
    match s.island.store.bind.get? g with
    | some t => if t = r.tenant then none else some (g, t)
    | none => let _ := n; none
  let s := recs.foldl (fun s r => match r.entry with
    | some e => { s with regions := s.regions.put r.region { e with viaShare := share r.region e }, gens := s.gens.put r.region r.gen }
    | none => { s with gens := s.gens.put r.region r.gen }) s
  s.regions.list.foldl (fun s e => e.2.attached.foldl (fun s g =>
    let l := s.ld g
    s.setLd g { l with extents := l.extents.put e.1 e.2.gen }) s) s

/-- The ever-written maps of the drives in service; what the others' say is lost (R192, R194, R206). -/
def Dev.loadMaps (s : Dev) : Dev :=
  let n := s.imageN
  let s := ((List.range n).filter s.driveOk).foldl (fun s d => (s.medium d).map.list.foldl (fun s e =>
    let g := granAt n d e.1
    s.setFme g { s.fme g with ew := true, tslotKnown := false }) s) s
  let lost := (List.range n).filter fun d => !s.driveOk d
  if lost.isEmpty then s else { s with lostMaps := ⟨s.regions.list.map fun e => (e.1, lost)⟩ }

/-- The rescue map, from the rescue slots of the drives in service (R206 step 3). -/
def Dev.loadRescue (s : Dev) : Dev :=
  if !s.image.rescueUsed then s
  else
    let s := s.setBit Reg.NVH.IMG_STS.RESCUE_USED true
    ((List.range s.imageN).filter s.driveOk).foldl (fun s d => (s.medium d).rescue.list.foldl (fun s e =>
      if e.2.rescue then
        let x := s.drive d
        let s := s.setDrive d { x with rescueUsed := x.rescueUsed.put e.1 e.2.gran }
        s.setFme e.2.gran { s.fme e.2.gran with ew := true }
      else s) s) s

/-- Start the sweep of a key slot at its first granule (R171, R172). -/
def Dev.startSweep (s : Dev) (k : Nat) : Dev :=
  let s := { s with sweeps := s.sweeps.put k { slot := k, next := 0 } }
  ((s.set Reg.RNT.REKEY_STS.SLOT k).setBit Reg.RNT.REKEY_STS.ACTIVE true).set Reg.RNT.REKEY_STS.PCT 0

/-- Sweeps that had not completed start again on the device that runs them (R172). -/
def Dev.restartSweeps (s : Dev) : Dev :=
  if s.serves then (s.island.store.slots.list.filter fun e => e.2.prev.isSome).foldl (fun s e => s.startSweep e.1) s else s

/-- Restore leaves no divergence bits (R317), and a paired device asks for the lease (R331). -/
def Dev.restoreAsk (s : Dev) : Dev :=
  let s := { s with mirror := { s.mirror with div := .empty } }.setBit Reg.MIR.ROLE.DIV_VALID false
  if s.role = 6 then s.leaseRequest 2 { subtype := 2, epoch := 0, rseq := 0, pairId := 0, clean := s.mirror.clean } else s

/-- The restore brings the image online (R62, R206). -/
def Dev.restoreOnline (s : Dev) : Dev :=
  let clean := s.image.clean
  let s := s.loadRegions
  let first := (List.range s.imageN).find? s.driveOk
  let saved := first.map fun d => (s.medium d).poison
  let s := match first with | some d => if clean then s.nvme d .read 1 32 128 else s | none => s
  let s := if clean then { s with poison := saved.getD .empty } else { s with poison := .empty }
  let s := s.setBit Reg.ECS.POISON_IDX.OVF (!clean || s.image.poisonOvf)
  let s := s.loadMaps.loadRescue
  let s := s.setBit Reg.NVH.IMG_STS.CLEAN_RESTORE clean
  let s := s.set Reg.HLD.DSC.COUNT (min (2 ^ 32 - 1) (s.image.dsc + if clean then 0 else 1))
  let s := (s.set Reg.NVH.IMG_STS.STATE 3).imageStatus
  let s := s.writeHeaders false
  let s := { s with mirror := { s.mirror with clean } }
  let st := s.get Reg.HLD.STATUS.STATE
  let src := s.get Reg.HLD.LIMIT_EFF.SRC
  let s := if clean then s
    else s.raise (hldEv s 0x1B7 st st src src (s.get Reg.HLD.DIRTY_COUNT.COUNT) 0 (s.get Reg.HLD.DSC.COUNT) true)
  s.limitRecompute.restartSweeps.memUpdateAll.restoreAsk

/-- RESTORE_COMPLETE (R62, R206, R218). -/
def Dev.restoreDone (s : Dev) : Dev :=
  if s.get Reg.NVH.IMG_STS.STATE ≠ 2 then s
  else let r := s.saCheck; if r.2 then r.1 else r.1.restoreOnline
def execRestoreComplete (s : State) : Answer := s.on fun s => s.restoreDone

/-- DRIVE_COMMAND_ERROR on an image drive (R201, R202): `op` 0 a Read of a granule, 1 a Write, 2 a Flush, 3 Controller
Fatal Status; `retryOk` = the retry succeeded; `status` is the record's NVMe status word. -/
def Dev.driveError (s : Dev) (d op gran : Nat) (retryOk : Bool) (status lba : Nat) : Dev :=
  let p := s.portOfDrive d
  let st := s.driveSt d
  if !(inService st || (st == 1 && op == 3)) then s
  else if op = 0 then
    if retryOk then (s.count Reg.NVH.RD_RETRY.COUNT Reg.NVH.RD_RETRY.SAT 1 nvhSat).raise (s.drvEv 0x1A4 p st status lba gran)
    else
      let s := s.readFailed p st status lba gran
      let fill : Bool := match s.fills.get? gran with | some f => f.src == .F && f.frame.isSome && f.data.isNone | none => false
      let merge := s.mergeReading gran
      let s := { s with learns := s.learns.del gran }
      let s := if merge then s.mergeFailed gran else s
      (if fill then s.flashFailed gran else s).retryLearns.settle
  else if op = 1 then if retryOk then s else s.driveOut p 4 5 0x1A1 status lba gran
  else if op = 2 then if retryOk then s else s.driveOut p 4 5 0x1A1 status lba noGran
  else s.driveOut p 4 7 0x1A1 status lba noGran
def execDriveCommandError (drive op gran : Nat) (retryOk : Bool) (status lba : Nat) (s : State) : Answer :=
  s.on fun s => (if drive < s.imageN then s.driveError drive op gran retryOk status lba else s)

/-- DRIVE_COMMAND_TIMEOUT (R202 Case B). -/
def execDriveCommandTimeout (drive : Nat) (s : State) : Answer :=
  s.on fun s => (if drive < s.imageN ∧ (inService (s.driveSt drive) ∨ s.driveSt drive = 1) then
      (s.count Reg.NVH.TIMEOUTS.COUNT Reg.NVH.TIMEOUTS.SAT 1 nvhSat).driveOut (s.portOfDrive drive) 4 6 0x1A6 0 0 noGran
    else s)

/-- DRIVE_LINK_DOWN (R202 Case C): link down or a presence-detect change on a root port. -/
def execDriveLinkDown (port : Nat) (s : State) : Answer :=
  s.on fun s => (if 8 ≤ port then s
    else let st := s.get (Reg.NVH.DRV.STATE port)
         if 1 ≤ st ∧ st ≤ 3 then s.driveOut port 5 8 0x1A2 0 0 noGran else s)

/-- A granule that a rebuild has filled: tags to its tag drive, then its data LBA, and its bit where the home drive's map lacks it (R194,
R205). -/
def Dev.rebuildWrite (s : Dev) (g : Nat) (lines : Tab Ln) : Dev :=
  let e := s.fme g
  let slot := if s.encrypted g then (if e.tslotKnown then !e.tslot else false) else e.tslot
  let t := tagSlot s.imageN g
  let s := if s.encrypted g then (s.putTags t (s.tagLba g slot) lines).nvme t .write 2 (s.tagLba g slot) 1 else s
  let m := s.mapOf g
  let s := if s.driveOk m.1 && !(s.medium m.1).map.has (homeIndex s.imageN g) then (s.putMap g).nvme m.1 .write 1 m.2 1 else s
  ((s.putData g lines slot).nvme m.1 .write 1 (s.dataLba g) 1).setFme g { e with tslot := slot, tslotKnown := true }

/-- Every line of a resident granule is CLEAN or DIRTY (*Rebuild sources* row 2). -/
def Dev.wholeInL (s : Dev) (g : Nat) : Bool :=
  let e := s.fme g
  e.tier == .L && (List.range 64).all fun k =>
    let l := match s.lc.get? (g * 64 + k) with | some c => c.ln.st | none => (s.frameLn e.loc k).st
    l == .clean || l == .dirty
def Dev.linesInL (s : Dev) (g : Nat) : Tab Ln :=
  let e := s.fme g
  ⟨(List.range 64).map fun k => (k, match s.lc.get? (g * 64 + k) with | some c => c.ln | none => s.frameLn e.loc k)⟩

/-- Rebuild one granule from its first source (*Rebuild sources*); `none` = it waits for the standby's copy. -/
def Dev.rebuildGran (s : Dev) (g : Nat) : Option Dev :=
  let e := s.fme g
  let s := if e.ew && s.wholeInL g then s.linesRead (g * 64) 64 false else s
  let sent := s.rebuild.list.findSome? fun x => x.2.fetched.get? g
  if !e.ew then some s
  else if let some lines := sent then
    some (({ s with rebuild := s.rebuild.map fun _ b => { b with fetched := b.fetched.del g } } : Dev).rebuildWrite g lines)
  else if s.wholeInL g then some (s.rebuildWrite g (s.linesInL g))
  else
    let mirrored := match s.regionAt g with | some (_, r) => r.mirror && s.lockstep | none => false
    match s.rescueOf g with
    | some (d, j) =>
      match (s.medium d).rescue.get? j with
      | some f =>
        if s.driveOk d && f.rescue && f.gran == g then
          some ((s.readGran g (d, s.rescueLba j, true)).rebuildWrite g (flashLines f ((s.medium d).tags.getD (s.rescueTagLba j f.tslot) {}).tags))
        else if mirrored then none else some s
      | none => if mirrored then none else some s
    | none =>
      if (s.regionAt g).isNone then some s
      else if mirrored then none
      else
        -- lines that L or O holds stay as they are: the image is marked, and they are POISON when next filled (R121)
        let gone := (List.range 64).filter fun k => (match s.lineOf (g * 64 + k) with | some l => l.st == .absent | none => true)
        let s := gone.foldl (fun s k => s.poisonAdd (g * 64 + k) 9 false) s
        let lines : Tab Ln := ⟨(List.range 64).map fun k => (k, { st := .poison })⟩
        some (s.rebuildWrite g lines)

/-- The granules whose data, and whose tags, lie at an index of drive slot d. -/
def Dev.atIndex (s : Dev) (d i : Nat) : Nat × Nat := (granAt s.imageN d i, granAt s.imageN ((d + s.imageN - 1) % s.imageN) i)

/-- What the rebuild of drive d has to fill at an index: the home granule, and the previous drive's granule whose tags lie
here, unless written during this rebuild (R205, R207). -/
def Dev.rebuildWants (s : Dev) (d i : Nat) : List Nat :=
  let p := s.atIndex d i
  (if s.dataOfRebuild p.1 then [] else [p.1]) ++ (if s.imageN = 1 || s.tagsOfRebuild p.2 || !s.encrypted p.2 then [] else [p.2])

/-- Ask for the standby's copy of a granule that rebuild needs: it comes as a background fill (source 4). -/
def Dev.rebuildFetch (s : Dev) (g : Nat) : Dev :=
  if s.fills.has g then s
  else
    let q := s.requestFill g .background [] []
    match q.1.fills.get? g with
    | some f => if f.frame.isSome ∧ f.src ≠ .standby then q.1.standbyFetch g else q.1
    | none => q.1

/-- A rebuild ends: emptied rescue slots are zeroed, the headers written, the drive HEALTHY (R205); a blank drive that
waited starts its own (R207). -/
def Dev.rebuildDone (s : Dev) (d : Nat) : Dev :=
  let p := s.portOfDrive d
  let s := ((s.drives.list.flatMap fun e => e.2.rescueUsed.vals).filter fun g => homeSlot s.imageN g == d || tagSlot s.imageN g == d).foldl Dev.freeRescue s
  let s := (List.range s.imageN).foldl (fun s x =>
    let keep := fun (j : Nat) (_ : FlashGran) => (s.drive x).rescueUsed.has j
    let s := ((s.medium x).rescue.keys.filter fun j => !(s.drive x).rescueUsed.has j).foldl (fun s j => s.nvme x .writeZeroes 1 (s.rescueLba j) 1) s
    s.setMedium x { s.medium x with rescue := (s.medium x).rescue.filter keep }) s
  let used := (List.range s.imageN).any fun x => !(s.medium x).rescue.list.isEmpty
  let s := s.setBit Reg.NVH.IMG_STS.RESCUE_USED used
  let s := { s with rebuild := s.rebuild.del d, lostMaps := s.lostMaps.map fun _ l => l.filter (· != d) }
  let s := (s.set (Reg.NVH.DRV.REBUILD_PCT p) 100).setDrv p 2 0 0x1AA 0 0 noGran
  ((s.raise (s.drvEv 0x1A0 p 3 0 0 noGran)).writeHeaders false).rebuildNext

/-- REBUILD_STEP: the rebuild of a drive slot visits its next index (R205, R207). -/
def Dev.rebuildStep (s : Dev) (d : Nat) : Dev :=
  match s.rebuild.get? d with
  | none => s
  | some b =>
    if s.get Reg.NVH.REBUILD.RATE = 0 then s
    else
      let total := imageD s.imageN s.imageG
      if total ≤ b.cursor then s.rebuildDone d
      else
        let at_ := s.atIndex d b.cursor
        let s := if b.resumed then
            (s.nvme d .read 1 (s.dataLba at_.1) 1).nvme d .read 2 (s.tagLba at_.2 (s.homeGran at_.2).tslot) 1 else s
        let wants := (s.rebuildWants d b.cursor).filter fun g => decide (g < s.imageG)
        let r := wants.foldl (fun (a : Dev × List Nat) g => match a.1.rebuildGran g with
          | some s => (s, a.2)
          | none => (a.1.rebuildFetch g, a.2 ++ [g])) (s, [])
        if !r.2.isEmpty then r.1
        else
          let c := b.cursor + 1
          let s := ([at_.1, at_.2].foldl Dev.freeRescue r.1)
          let s := { s with rebuild := s.rebuild.upd d fun b => { b with cursor := c } }
          let s := s.set (Reg.NVH.DRV.REBUILD_PCT (s.portOfDrive d)) (100 * c / total)
          (if total ≤ c then s.rebuildDone d else s).settle
def execRebuildStep (drive : Nat) (s : State) : Answer := s.on fun s => (s.rebuildStep drive)

/-- DRIVE_FLUSH_COMPLETE (R204): after the last Flush, the poison index and the header are written and IMG_STS shows
FLUSHED. -/
def execDriveFlushComplete (drive : Nat) (s : State) : Answer :=
  s.on fun s => (if !(s.drive drive).flushing then s
    else (s.setDrive drive { s.drive drive with flushing := false, flushed := true }).flushFinish)

/-- Regions that name a key slot, in DPA order. -/
def Dev.regionsOfSlot (s : Dev) (k : Nat) : List (Nat × Region) :=
  sortBy (fun a b => decide (a.2.base ≤ b.2.base)) (s.regions.list.filter fun e => e.2.slot == some k)

/-- The next granule from `g` on that a sweep visits (R171). -/
def Dev.sweepNext (s : Dev) (k g : Nat) : Option Nat :=
  (s.regionsOfSlot k).findSome? fun e =>
    if g < (e.2.base + e.2.size) * 512 then some (max g (e.2.base * 512)) else none

/-- Re-encrypt one line that still names the previous epoch, in class SEAL: it becomes DIRTY, and is forwarded (R171, R172). A check that
fails with its retry leaves it POISON, as a write's does (R178 Case B; log entry 61). -/
def Dev.sweepLine (s : Dev) (n : Nat) (r : Region) (line : Nat) : Dev :=
  let s := s.lineRead line false
  let bad := fun (s : Dev) => ((s.poisonLine line 1 false).mirrorLine n r line { st := .poison } none).1
  match s.lineOf line with
  | none => s
  | some l =>
    if l.st ≠ .clean ∧ l.st ≠ .dirty then s
    else
      let x := s.openJob 6 true (if s.lc.has line then 0 else 1) r line l
      match x.2.1 with
      | .data d =>
        let y := x.1.sealJob 6 true r line d .dirty
        (match y.2.1 with
         | .line ln => (((y.1.lcAccept line ln).dirtied (granOf line) (line % 64)).mirrorLine n r line ln none).1
         | .lanes => bad y.1
         | _ => y.1)
      | .failed _ => (((x.1.poisonLine line 2 false).mirrorLine n r line { st := .poison } none)).1
      | .lanes => bad x.1
      | _ => x.1

/-- Lines of a resident granule that the sweep must re-encrypt. -/
def Dev.sweepLines (s : Dev) (k g : Nat) : List (Nat × Ln) :=
  let old := (s.slot k).epoch - 1
  (List.range 64).filterMap fun i => match s.lineOf (g * 64 + i) with
    | some l => if (l.st = .clean ∨ l.st = .dirty) ∧ l.tagged ∧ l.epoch = old then some (g * 64 + i, l) else none
    | none => none

/-- Show a sweep's progress. -/
def Dev.sweepShow (s : Dev) (k visited : Nat) : Dev :=
  let total := (s.regionsOfSlot k).foldl (fun a e => a + e.2.size * 512) 0
  (s.set Reg.RNT.REKEY_STS.SLOT k).set Reg.RNT.REKEY_STS.PCT (if total = 0 then 100 else min 100 (100 * visited / total))

/-- The previous epoch of a slot ends with its sweep (R171, R172). -/
def Dev.sweepClear (s : Dev) (k : Nat) : Dev :=
  let m := s.slot k
  (((s.setSlot k ({ m with prev := none } : MemSlot).checked).slotChanged k).sweepDrop k).raise
    (rntEv 0x07A 6 0 0 k m.epoch 0 (2 ^ 40 - 1) 0 true)

/-- A sweep completes (R171, R172): PREV_VALID clears, EV 0x07A, and the standby is told in lane order. -/
def Dev.sweepDone (s : Dev) (k : Nat) : Dev :=
  (((s.sweepShow k (2 ^ 64)).sweepClear k).forward (.sweepDone k (s.slot k).epoch.toNat) none 0 0).1

/-- REKEY_SWEEP_STEP of a key slot (R171, R172): on the device that serves, while the slot can be used, the next granule is brought in if it
lies on flash, and its lines of the previous epoch are re-encrypted, as admission, the hazards and the buffers allow; the sweep goes on once
none of them is left. -/
def Dev.sweepStep (s : Dev) (k : Nat) : Dev :=
  match s.sweeps.get? k with
  | none => s
  | some w =>
    if s.get Reg.RNT.REKEY.RATE = 0 ∨ !s.serves ∨ s.slotState k ≠ .active ∨ s.rntShut 6 then s
    else match s.sweepNext k w.next with
      | none => s.sweepDone k
      | some g =>
        match s.regionAt g with
        | none => s
        | some (n, r) =>
          let e := s.fme g
          let go := fun (s : Dev) =>
            ({ s with sweeps := s.sweeps.put k { w with next := g + 1, visited := w.visited + 1 } }).sweepShow k (w.visited + 1)
          if e.tier = .staged then s
          else if e.tier ≠ .L ∧ e.ew then (s.requestFill g .background [] []).1
          else if e.tier = .L ∧ (s.fills.has g || (e.ew && (List.range 64).any fun i => (s.frameLn e.loc i).st == .absent)) then
            (s.requestFill g .background [] []).1
          else
            let q : HostReq := { head := copyHead, gld := 64, tag := 0, line := g * 64, write := some (BitVec.allOnes 64, 0) }
            let t := (s.sweepLines k g).foldl (fun s x =>
              if (s.holdReason r q).isSome || s.lineBusy x.1 || s.acceptFull x.1 then s else s.sweepLine n r x.1) s
            if (t.sweepLines k g).isEmpty && t.slotState k == .active then go t else t
def execRekeySweepStep (slot : Nat) (s : State) : Answer := s.on fun s => (s.sweepStep slot)

end Sys2Proof.Machine
end

