-- ==== Sys2Proof/Machine/Tiers.lean ====
section
/-! DEFINITION. TMG: the age clock, background eviction, waiting allocations, quotas, pins and cold granules, lost
frame-map lines and lost channels (R219–R222, R226–R229, R231, R234–R237). -/

namespace Sys2Proof.Machine

/-- AGE_TICK (R219, R220): AGE_NOW advances, the touch bits clear, and stale stamps are capped. -/
def Dev.ageTick (s : Dev) : Dev :=
  let now := (s.ageNow + 1) % 65536
  let s := s.set Reg.TMG.AGE_NOW.NOW now
  let cap := fun (_ : Nat) (e : FmEntry) =>
    if e.tier != .F && decide (32767 < (now + 65536 - e.age) % 65536) then { e with age := (now + 65536 - 32767) % 65536 } else e
  let clear := fun (_ : Nat) (c : CacheLn) => { c with touch := false }
  { s with fm := s.fm.map cap, lc := s.lc.map clear }
def execAgeTick (s : State) : Answer := s.on fun s => s.ageTick

/-- Case C candidates are evicted until FREE_MIN frames are free; `n` bounds the evictions (R221). -/
def Dev.evictBelow (s : Dev) : Nat → Dev
  | 0 => s
  | n + 1 =>
    if s.get Reg.TMG.FREE_MIN.FRAMES ≤ s.freeFrames then s
    else
      let r := s.oldest fun u => decide ((s.quota u).lQuota < s.useL u)
      match r.2 with
      | some v => (r.1.evictFrame v.1 v.2).evictBelow n
      | none => r.1

/-- BACKGROUND_EVICTION (R221). -/
def execBackgroundEviction (s : State) : Answer := s.on fun s => (s.evictBelow s.rm.size).settle

/-- ALLOCATION_RETRY (R222). -/
def execAllocationRetry (s : State) : Answer := s.on fun s => s.settle

/-- A tenant's quotas after a write: `which` 0 L_QUOTA, 1 L_MAX, 2 N_QUOTA, 3 PIN_QUOTA (R228). -/
def TenantQuota.write (q : TenantQuota) (which v : Nat) : TenantQuota :=
  match which with
  | 0 => { q with lQuota := v % 2 ^ 31 }
  | 1 => { q with lMax := v % 2 ^ 31 }
  | 2 => { q with nQuota := v % 2 ^ 28 }
  | _ => { q with pinQuota := v % 2 ^ 31 }
def TenantQuota.read (q : TenantQuota) (which : Nat) : Nat :=
  match which with | 0 => q.lQuota | 1 => q.lMax | 2 => q.nQuota | _ => q.pinQuota

/-- A write of the selected tenant's quota (R228). -/
def Dev.quotaWrite (s : Dev) (which v : Nat) : Dev :=
  let t := s.get Reg.TMG.TEN_SEL.TENANT
  let old := s.quota t
  let new := old.write which v
  let off := match which with
    | 0 => Reg.TMG.TEN_QL.L_QUOTA.addr
    | 1 => Reg.TMG.TEN_MAXL.L_MAX.addr
    | 2 => Reg.TMG.TEN_QN.N_QUOTA.addr
    | _ => Reg.TMG.TEN_QP.PIN_QUOTA.addr
  let sum := s.qsumL - old.lQuota + new.lQuota
  if (old.lQuota < new.lQuota ∧ s.lFrames < sum + 4096) ∨ new.lQuota < new.pinQuota ∨ new.lMax < new.lQuota then s.discard off 2
  else
    let s := { s with quotas := s.quotas.putD t new {} }
    let s := s.raise (tmgEv 0x17E 255 t 0 (2 ^ 40 - 1) (old.read which) (new.read which) true)
    (s.overcommit false).settle

/-- QUOTA_WRITE of the tenant TEN_SEL selects. -/
def execQuotaWrite (which value : Nat) (s : State) : Answer := s.on fun s => (if which < 4 then s.quotaWrite which value else s)

/-- Set PIN of a granule if the owner's PIN_QUOTA lets it (R229); `false` = refused. -/
def Dev.pinSet (s : Dev) (g : Nat) : Dev × Bool :=
  let e := s.fme g
  let t := s.ownerOf g
  if e.pin then (s, true)
  else if (s.quota t).pinQuota ≤ s.pinned t then (s.raise (tmgEv 0x177 255 t 0 g 0 0 true), false)
  else
    let s := s.setFme g { e with pin := true }
    (if e.tier = .L then s.updRm e.loc fun r => { r with pin := true } else s, true)

/-- Pin a granule (R229): Cases A, B and C. -/
def Dev.pinGran (s : Dev) (g : Nat) : Dev × Bool :=
  let was := (s.fme g).pin
  let r := s.pinSet g
  if !r.2 || was then r
  else
    let e := r.1.fme g
    match e.tier with
    | .L => r
    | .staged => (r.1.cancelDemotion g false, true)
    | _ => if e.ew then ((r.1.requestFill g .background [] []).1, true) else ((r.1.ensureFrame g false).1, true)

/-- UNPIN (R219, R229): a granule that is not pinned is not acted on (DEDUCED, log entry 62). -/
def Dev.unpin (s : Dev) (g : Nat) : Dev :=
  let e := s.fme g
  if e.pin then
    let s := s.setFme g { e with pin := false }
    (if e.tier = .L then s.updRm e.loc fun r => { r with pin := false } else s).stamp g 0
  else s

/-- COLD (R219, R231): a granule in L or N that is not pinned. -/
def Dev.cold (s : Dev) (g : Nat) : Dev × Bool :=
  let e := s.fme g
  if (e.tier = .L ∨ e.tier = .N) ∧ !e.pin then (s.stamp g 32767, true) else (s, false)

/-- Rebuild a granule's frame-map entry from the image's map and the reverse maps (R234). -/
def Dev.fmRebuild (s : Dev) (g : Nat) : Dev :=
  let d := homeSlot s.imageN g
  let ew := if s.driveOk d then (s.medium d).map.has (homeIndex s.imageN g) else (s.fme g).ew
  let e : FmEntry := match s.rm.list.find? fun x => x.2.fstate == .inUse && x.2.owned && x.2.gran == g with
    | some x => { ew, pin := x.2.pin, cnt := x.2.cnt, tier := .L, loc := x.1, age := s.ageNow }
    | none => match s.lbm.list.find? fun x => x.2.valid && x.2.gran == g with
      | some x => { ew, tier := .N, loc := x.1, age := s.ageNow }
      | none => { ew, age := s.ageNow }
  s.setFme g e

/-- The frame-map line that is line k of channel n's part: lines lie on the populated channels in turn (R217). -/
def Dev.fmLineOf (s : Dev) (n k : Nat) : Nat := k * s.chanCount + s.populated.idxOf n

/-- Rebuild frame-map line `line`, which holds granules 8 line to 8 line + 7 (R234): rewritten from the cache where that
holds it, which is never a modified copy, else rebuilt entry by entry. -/
def Dev.fmLineRebuild (s : Dev) (line : Nat) : Dev :=
  let n := s.populated.getD (line % s.chanCount) 15
  let s := if s.fmc.has line then s else (List.range 8).foldl (fun s i => s.fmRebuild (8 * line + i)) s
  let s := match s.fmPlace line with | some x => s.dramTouch x.1 x.2 | none => s
  (({ s with mapLost := s.mapLost.del line } : Dev).raise (tmgEv 0x170 n 65535 n (8 * line) 0 0 true)).settle

/-- FRAME_MAP_LINE_REBUILD of line k of channel n's frame-map part, one of a populated channel (R217, R234). -/
def execFrameMapLineRebuild (n k : Nat) (s : State) : Answer :=
  s.on fun s => (if s.populated.contains n then s.fmLineRebuild (s.fmLineOf n k) else s)

/-- Settle one frame of a lost channel (R236 step 3); `false` = no frame can be allocated for it yet. -/
def Dev.settleFrame (s : Dev) (n g : Nat) : Dev × Bool :=
  let e := s.fme g
  let lose := fun (s : Dev) => s.freeFn e.loc
  if !e.cnt then
    let s := (lose s).setFme g { e with tier := .F, loc := 0, pend := false }
    let s := { s with fills := s.fills.upd g fun f => { f with frame := none } }
    (if e.pin ∧ e.ew then (s.requestFill g .background [] []).1 else s, true)
  else
    let twin := match s.regionAt g with | some (_, r) => r.mirror && s.lockstep | none => false
    let v := s.victim (s.ownerOf g) false Dev.reclaimAny
    match v.2 with
    | none => (v.1.noteWait g, false)
    | some fn =>
      let s := (lose v.1).assignFrame g fn (v.1.ownerOf g)
      let s := { s with destages := s.destages.del g
                        dirty := s.dirty.upd g fun d => { d with inFlight := false } }
      if twin then
        let f : Fill := (s.fills.get? g).getD { cls := .background, tenant := s.ownerOf g, order := s.nextFill }
        let s := { s with fills := s.fills.put g { f with frame := some fn, settle := true } }
        ((s.setFme g { s.fme g with pend := true }).standbyFetch g, true)
      else
        let s := (List.range 64).foldl (fun s k =>
          let line := g * 64 + k
          let inO : Bool := match s.lc.get? line with | some c => c.ln.st == .dirty | none => false
          if inO then s
          else s.poisonLine line 8 false) s
        ((s.count Reg.TMG.LOST_GRAN.COUNT Reg.TMG.LOST_GRAN.SAT 1 (tmgPlain 0x17D)).raise
          (tmgEv 0x174 n 65535 (n + 2 * 16) g 0 0 true), true)

/-- CHANNEL_LOSS_REBUILD: the frame map and the frames of the lost channel (R236); a granule that finds no frame leaves the
rebuild open. -/
def Dev.lossRebuild (s : Dev) : Dev :=
  if !s.bit Reg.TMG.STS.REBUILD then s
  else
    let n := s.get Reg.TMG.STS.LOST_CH
    let i := (s.populated.idxOf n)
    let c := s.chanCount
    let maps := if s.fmsDone then [] else s.fm.keys.filter fun g => g / 8 % c == i && !s.fmc.has (g / 8)
    let s := maps.foldl Dev.fmRebuild { s with fmsDone := true, mapLost := s.mapLost.filter fun j _ => j % c != i }
    let mine := (s.rm.list.filter fun e => e.1 % c == i && e.2.fstate == .inUse && e.2.owned).map (·.2.gran)
    let r := mine.foldl (fun (a : Dev × Bool) g => let x := a.1.settleFrame n g; (x.1, a.2 && x.2)) (s, true)
    let s := if r.2 then (r.1.setBit Reg.TMG.STS.REBUILD false).raise (tmgEv 0x173 n 65535 n (2 ^ 40 - 1) 0 0 true) else r.1
    (s.overcommit false).settle
def execChannelLossRebuild (s : State) : Answer := s.on fun s => s.lossRebuild

end Sys2Proof.Machine
end

