-- ==== Sys2Proof/Machine/Stitcher.lean ====
section
/-! DEFINITION. STI: binding, loading, starting and stopping an engine, the stitches, streams and their fills, triggers
and deadlines (R240–R264), and the completion of a fill (R26, R224). -/

namespace Sys2Proof.Machine

def Dev.engine (s : Dev) (e : Nat) : Engine := s.engines.getD e {}
def Dev.setEngine (s : Dev) (e : Nat) (x : Engine) : Dev := { s with engines := s.engines.putD e x {} }
def Dev.engState (s : Dev) (e : Nat) : Nat := s.get (Reg.ENG.STS.STATE e)
def Dev.engLen (s : Dev) (e : Nat) : Nat := s.get (Reg.ENG.STS.LEN e)
def Dev.engPc (s : Dev) (e : Nat) : Nat := s.get (Reg.ENG.STS.PC e)

/-- RUNNING or waiting (R263). -/
def Dev.engOn (s : Dev) (e : Nat) : Bool := decide (2 ≤ s.engState e) && decide (s.engState e ≤ 5)

/-- Fills of an engine that hold credits, and CREDIT_SUM (R246, R251, R263). -/
def Dev.outst (s : Dev) (e : Nat) : Nat :=
  s.fills.list.foldl (fun n f => n + (f.2.sti.filter fun x => x.engine == e).length) 0
def Dev.creditSum (s : Dev) : Nat :=
  (List.range 16).foldl (fun n e => if s.engOn e || s.outst e != 0 then n + s.get (Reg.ENG.CTL.CREDITS e) else n) 0

/-- Value of a general register. -/
def Dev.reg (s : Dev) (e i : Nat) : BitVec 64 := (s.engine e).g.getD i 0
def Dev.setReg (s : Dev) (e i : Nat) (v : BitVec 64) : Dev :=
  let x := s.engine e
  s.setEngine e { x with g := x.g.putD i v 0 }

/-- The engine's next stitch issues no earlier than `t` (R247). -/
def Dev.setReady (s : Dev) (e t : Nat) : Dev := s.setEngine e { s.engine e with ready := t }

/-- An engine stops (R245, R246). `word` is the stitch index a record shows. -/
def Dev.engStop (s : Dev) (e reason : Nat) : Dev :=
  let x := s.engine e
  let disarm := fun (_ : Nat) (w : Watch) => { w with armed := false }
  let s := s.setEngine e { x with streams := .empty, fifo := [], watches := x.watches.map disarm }
  let s := (s.set (Reg.ENG.STS.STATE e) (if reason = 1 then 6 else if reason = 3 then 7 else 1)).set (Reg.ENG.STS.STOP_REASON e) reason
  if reason = 1 then s.raise (stiEv 0x180 e 0 reason 255 0 0 0 (s.engPc e) 0xFFFF (2 ^ 40 - 1))
  else if reason = 3 ∨ reason = 4 then
    s.raise (stiEv 0x185 e 0 reason 255 (s.engPc e) 0 0 (s.engPc e) 0xFFFF (2 ^ 40 - 1))
  else s

/-- Every engine that runs stops. -/
def Dev.engStopAll (s : Dev) (reason : Nat) : Dev :=
  ((List.range 16).filter s.engOn).foldl (fun s e => s.engStop e reason) s

/-- Go on at a stitch; at LEN the engine stops with reason 1 (R245). -/
def Dev.engGoto (s : Dev) (e pc : Nat) : Dev :=
  let s := (s.set (Reg.ENG.STS.STATE e) 2).set (Reg.ENG.STS.PC e) pc
  if s.engLen e ≤ pc then s.engStop e 1 else s
def Dev.engNext (s : Dev) (e : Nat) : Dev := s.engGoto e (s.engPc e + 1)

/-- Fields of a stitch (R247). -/
def fieldOf (w : BitVec 64) (hi lo : Nat) : Nat := w.toNat / 2 ^ lo % 2 ^ (hi + 1 - lo)
def opOf (w : BitVec 64) : Nat := fieldOf w 63 58
def stD (w : BitVec 64) : Nat := fieldOf w 57 55
def stS (w : BitVec 64) : Nat := fieldOf w 54 52
def stT (w : BitVec 64) : Nat := fieldOf w 51 49

/-- Bits that a stitch may set: its opcode and its fields (*Stitch set*). -/
def fieldsMask (op : Nat) : List (Nat × Nat) :=
  match op with
  | 0x02 => [(57, 55), (47, 0)]
  | 0x03 => [(57, 55), (54, 52), (31, 0)]
  | 0x04 => [(57, 55), (54, 52), (51, 49), (48, 46)]
  | 0x05 => [(57, 55), (54, 52), (51, 49), (48, 48), (47, 16), (9, 0)]
  | 0x06 => [(54, 52), (9, 0)]
  | 0x07 => [(54, 52), (15, 0)]
  | 0x08 => [(57, 56), (54, 52), (31, 0)]
  | 0x09 => [(57, 55)]
  | 0x0A => [(57, 57), (31, 0)]
  | 0x0B => [(54, 52), (51, 40), (39, 20), (19, 19), (18, 18), (15, 0)]
  | 0x0C => [(57, 55), (54, 52), (51, 40), (39, 20)]
  | 0x0D => [(57, 55), (54, 52), (51, 40), (39, 20)]
  | 0x0E => [(57, 55), (31, 0)]
  | 0x0F => [(57, 55), (47, 40), (31, 0)]
  | 0x10 => [(54, 52)]
  | _ => []

/-- A stitch passes validation in a pattern of `len` stitches (R248). -/
def stitchOk (len : Nat) (w : BitVec 64) : Bool :=
  let op := opOf w
  let allowed := ((63, 58) :: fieldsMask op).foldl (fun m f => m + (2 ^ (f.1 + 1) - 2 ^ f.2)) 0
  decide (op ≤ 0x10) && decide (w.toNat &&& (2 ^ 64 - 1 - allowed) = 0) &&
  (!(op == 5 || op == 6) || decide (fieldOf w 9 0 < len)) &&
  (!(op == 0x0B || op == 0x0C || op == 0x0D) || decide (1 ≤ fieldOf w 39 20)) &&
  (op != 0x0B || decide (fieldOf w 15 0 ≤ 32767)) &&
  (op != 8 || (decide (fieldOf w 57 56 ≤ 2) && decide (fieldOf w 31 0 ≤ 0x7FFFFFFF))) &&
  (op != 5 || decide (fieldOf w 57 55 ≤ 4)) && (op != 0x0C || decide (fieldOf w 57 55 ≤ 2)) &&
  (op != 0x0F || fieldOf w 47 40 != 0)

/-- Binding of an issuer: TENANT, GLD, MGMT, and whether a tenant is bound (R241). -/
def Dev.bindOf (s : Dev) (i : Issuer) : Nat × Nat × Bool × Bool :=
  if i.isM then (0, 0, true, false)
  else match s.tenantOf i with | some t => (t, i.func, false, true) | none => (0, i.func, false, false)
def Dev.binding (s : Dev) (e : Nat) : Nat × Nat × Bool × Bool :=
  (s.get (Reg.ENG.BIND.TENANT e), s.get (Reg.ENG.BIND.GLD e), s.bit (Reg.ENG.BIND.MGMT e), (s.engine e).bound)

/-- PATTERN_LOAD of `words` (R241–R243, R403); `none` = the buffer read failed. -/
def Dev.patternLoad (s : Dev) (i : Issuer) (e first count len ptr : Nat) (words : Option (List (BitVec 64))) : Dev :=
  if 15 < e then s.refuseCmd i cInvalidField 20
  else if count = 0 ∨ 1024 < count then s.refuseCmd i cInvalidField 24
  else if 1024 < first + count then s.refuseCmd i cInvalidField 22
  else if len ≠ 8 * count then s.refuseCmd i cInvalidField 16
  else if ptr % 4 ≠ 0 then s.refuseCmd i cInvalidField 8
  else if s.engOn e then s.refuseCmd i cBusy 0
  else match words with
    | none => s.completeAt i cDma 0 0 0 ptr
    | some l =>
      let x := s.engine e
      let b := s.bindOf i
      let same := s.engState e != 0 && s.binding e == b
      let pat := if same then x.pattern else .empty
      let pat := (List.range count).foldl (fun p k => p.putD (first + k) (l.getD k 0) 0) pat
      let s := s.setEngine e { x with pattern := pat, bound := b.2.2.2 }
      let s := ((s.set (Reg.ENG.BIND.TENANT e) b.1).set (Reg.ENG.BIND.GLD e) b.2.1).setBit (Reg.ENG.BIND.MGMT e) b.2.2.1
      let s := s.set (Reg.ENG.STS.LEN e) (max (s.engLen e) (first + count))
      (s.set (Reg.ENG.STS.STATE e) 1).complete i cSuccess 0 0 0
def execPatternLoad (i : Issuer) (engine first count len ptr : Nat) (words : Option (List (BitVec 64))) (s : State) : Answer :=
  s.on fun s => (s.ringCmd i 0x18 0 engine [resEngine engine] fun s => s.patternLoad i engine first count len ptr words)

/-- The ring holds the engine's binding (R402 class B), or is the management function's. -/
def Dev.holdsBinding (s : Dev) (i : Issuer) (e : Nat) : Bool := i.isM || s.binding e == s.bindOf i

/-- The device may start engines: it runs without a twin or holds the write lease (R242). -/
def Dev.mayStitch (s : Dev) : Bool := s.role == 0 || (s.role == 1 && s.mirror.leaseEnd.isSome)

/-- PATTERN_START is refused (R244). -/
def Dev.startRefused (s : Dev) (i : Issuer) (e code detail stitch : Nat) : Dev :=
  (s.raise (stiEv 0x18C e 0 0 255 stitch 0 0 stitch 0xFFFF (2 ^ 40 - 1))).refuseCmd i code detail

/-- PATTERN_START (R244). -/
def Dev.patternStart (s : Dev) (i : Issuer) (e prio entry credits : Nat) (g : List (BitVec 64)) : Dev :=
  if 15 < e then s.refuseCmd i cInvalidField 20
  else if 3 < prio then s.refuseCmd i cInvalidField 21
  else if credits = 0 ∨ 1024 < credits then s.refuseCmd i cInvalidField 24
  else if !s.holdsBinding i e then s.refuseCmd i cNotPermitted 0
  else
    let x := s.engine e
    let len := s.engLen e
    let bad := (List.range len).find? fun k => !stitchOk len (x.pattern.getD k 0)
    if s.engOn e ∨ s.engState e = 0 ∨ len = 0 ∨ !s.bit Reg.STI.CFG.ENABLE then s.startRefused i e cState 0 0
    else if !s.mayStitch then s.startRefused i e cNotActive 0 0
    else if 3072 < s.creditSum + credits then s.startRefused i e cNoResource 0 0
    else match bad with
      | some k => s.startRefused i e cInvalidField 0 k
      | none =>
        if len ≤ entry then s.refuseCmd i cInvalidField 22
        else
          let disarm := fun (_ : Nat) (w : Watch) => { w with armed := false }
          let regs := (List.range 4).foldl (fun t k => t.putD k (g.getD k 0) 0) (Tab.empty (α := BitVec 64))
          let s := s.setEngine e { x with g := regs, fifo := [], watches := x.watches.map disarm, streams := .empty, gens := .empty, ready := s.clock + len + 16 }
          let s := ((s.set (Reg.ENG.CTL.PRIO e) prio).set (Reg.ENG.CTL.CREDITS e) credits).set (Reg.ENG.CTL.ENTRY e) entry
          let s := ((s.set (Reg.ENG.LTAG.LT e) 0).set (Reg.ENG.DL.DL e) s.tnow).set (Reg.ENG.STS.STOP_REASON e) 0
          ((s.set (Reg.ENG.STS.STATE e) 2).set (Reg.ENG.STS.PC e) entry).complete i cSuccess 0 0 0
def execPatternStart (i : Issuer) (engine prio entry credits : Nat) (g : List (BitVec 64)) (s : State) : Answer :=
  s.on fun s => (s.ringCmd i 0x19 0 engine [resEngine engine] fun s => s.patternStart i engine prio entry credits g)

/-- PATTERN_STOP (R246); RESULT0 is the STOP_REASON. -/
def Dev.patternStop (s : Dev) (i : Issuer) (e : Nat) : Dev :=
  if 15 < e then s.refuseCmd i cInvalidField 20
  else if !s.holdsBinding i e then s.refuseCmd i cNotPermitted 0
  else if !s.engOn e then s.refuseCmd i cState 0
  else (s.engStop e 2).complete i cSuccess 0 2 0
def execPatternStop (i : Issuer) (engine : Nat) (s : State) : Answer :=
  s.on fun s => (s.ringCmd i 0x1A 0 engine [resEngine engine] fun s => s.patternStop i engine)

/-- Condition of BR (R247). -/
def brTaken (cond : Nat) (a b : BitVec 64) : Bool :=
  match cond with
  | 0 => true
  | 1 => a == b
  | 2 => a != b
  | 3 => decide (a.toNat < b.toNat)
  | _ => decide (b.toNat ≤ a.toNat)

/-- The value BR compares its source with (R247). -/
def Dev.brOther (s : Dev) (e : Nat) (w : BitVec 64) : BitVec 64 :=
  if fieldOf w 48 48 = 1 then BitVec.ofNat 64 (fieldOf w 47 16) else s.reg e (stT w)

/-- FCLK cycles for which a stitch occupies its engine when nothing waits (*Stitch set*). -/
def Dev.stitchCycles (s : Dev) (e : Nat) (w : BitVec 64) : Nat :=
  match opOf w with
  | 0x04 => if fieldOf w 48 46 = 7 then 4 else 1
  | 0x05 => if brTaken (fieldOf w 57 55) (s.reg e (stS w)) (s.brOther e w) then 2 else 1
  | 0x06 => if s.reg e (stS w) = 1 then 1 else 2
  | o => if o < 0x0B then 1 else 2

/-- Execute the stitch at PC of a RUNNING engine if it is of the opcode, once the engine is free; `ecc` is what the code of pattern memory
says of its word: 0 clean, 1 corrected, 2 uncorrectable (R240, R245, R247, R249). -/
def Dev.stitch (s : Dev) (e op ecc : Nat) (f : Dev → BitVec 64 → Dev) : Dev :=
  if 15 < e ∨ s.engState e ≠ 2 ∨ s.engLen e ≤ s.engPc e then s
  else
    let w := (s.engine e).pattern.getD (s.engPc e) 0
    if opOf w ≠ op then s
    else
      let s := s.at (s.engine e).ready
      if ecc = 2 then s.engStop e 3
      else
        let s := if ecc = 1 then
            (s.engCount (Reg.ENG.ECC_CE.COUNT e) (Reg.ENG.ECC_CE.SAT e) 1 e).raise (stiPlain 0x18D e) else s
        (f s w).setReady e (s.clock + s.stitchCycles e w)

def execNop (engine ecc : Nat) (s : State) : Answer := s.on fun s => (s.stitch engine 0x00 ecc fun s _ => s.engNext engine)

def execHalt (engine ecc : Nat) (s : State) : Answer :=
  s.on fun s => (s.stitch engine 0x01 ecc fun s _ => (s.set (Reg.ENG.STS.PC engine) (s.engPc engine + 1)).engStop engine 1)

def execSeti (engine ecc : Nat) (s : State) : Answer :=
  s.on fun s => (s.stitch engine 0x02 ecc fun s w => (s.setReg engine (stD w) (BitVec.ofNat 64 (fieldOf w 47 0))).engNext engine)

/-- Sign extension of a stitch's 32-bit immediate. -/
def imm32 (w : BitVec 64) : BitVec 64 := (w.extractLsb' 0 32).signExtend 64

def execAddi (engine ecc : Nat) (s : State) : Answer :=
  s.on fun s => (s.stitch engine 0x03 ecc fun s w => (s.setReg engine (stD w) (s.reg engine (stS w) + imm32 w)).engNext engine)

/-- ALU functions (R247). -/
def aluFn (fn : Nat) (a b : BitVec 64) : BitVec 64 :=
  match fn with
  | 0 => a + b
  | 1 => a - b
  | 2 => a &&& b
  | 3 => a ||| b
  | 4 => a ^^^ b
  | 5 => a <<< (b.toNat % 64)
  | 6 => a >>> (b.toNat % 64)
  | _ => a * b

def execAlu (engine ecc : Nat) (s : State) : Answer :=
  s.on fun s => (s.stitch engine 0x04 ecc fun s w =>
    (s.setReg engine (stD w) (aluFn (fieldOf w 48 46) (s.reg engine (stS w)) (s.reg engine (stT w)))).engNext engine)

def execBr (engine ecc : Nat) (s : State) : Answer :=
  s.on fun s => (s.stitch engine 0x05 ecc fun s w =>
    if brTaken (fieldOf w 57 55) (s.reg engine (stS w)) (s.brOther engine w) then s.engGoto engine (fieldOf w 9 0) else s.engNext engine)

def execLoopStitch (engine ecc : Nat) (s : State) : Answer :=
  s.on fun s => (s.stitch engine 0x06 ecc fun s w =>
    let v := s.reg engine (stS w) - 1
    let s := s.setReg engine (stS w) v
    if v = 0 then s.engNext engine else s.engGoto engine (fieldOf w 9 0))

def execTagStitch (engine ecc : Nat) (s : State) : Answer :=
  s.on fun s => (s.stitch engine 0x07 ecc fun s w =>
    (s.set (Reg.ENG.LTAG.LT engine) (((s.reg engine (stS w)).toNat + fieldOf w 15 0) % 65536)).engNext engine)

def execDline (engine ecc : Nat) (s : State) : Answer :=
  s.on fun s => (s.stitch engine 0x08 ecc fun s w =>
    let base := match fieldOf w 57 56 with
      | 0 => s.tnow
      | 1 => s.get (Reg.ENG.DL.DL engine)
      | _ => (s.reg engine (stS w)).toNat % 2 ^ 32
    (s.set (Reg.ENG.DL.DL engine) ((base + fieldOf w 31 0) % 2 ^ 32)).engNext engine)

def execRdt (engine ecc : Nat) (s : State) : Answer :=
  s.on fun s => (s.stitch engine 0x09 ecc fun s w => (s.setReg engine (stD w) (BitVec.ofNat 64 s.tnow)).engNext engine)

def execNote (engine ecc : Nat) (s : State) : Answer :=
  s.on fun s => (s.stitch engine 0x0A ecc fun s w =>
    let s := s.set (Reg.ENG.NOTE.VALUE engine) (fieldOf w 31 0)
    (if fieldOf w 57 57 = 1 then s.raise (stiPlain 0x184 engine) else s).engNext engine)

/-- The region check of FETCH, HINT and ARMW (R241, R250): the region, and its generation captured. -/
def Dev.stitchRegion (s : Dev) (e n : Nat) : Option (Region × Dev) :=
  match s.regions.get? n with
  | none => none
  | some r =>
    let b := s.binding e
    let x := s.engine e
    let allowed := b.2.2.1 || (b.2.2.2 && r.tenant == b.1) || r.attached.contains b.2.1
    let genOk := match x.gens.get? n with | some g => g == r.gen | none => true
    if !r.draining && allowed && genOk then some (r, s.setEngine e { x with gens := x.gens.put n r.gen }) else none

/-- A stream or watch is refused (R250, R257). -/
def Dev.streamRefused (s : Dev) (e n : Nat) : Dev :=
  (s.engCount (Reg.ENG.REFUSED.COUNT e) (Reg.ENG.REFUSED.SAT e) 1 e).raise
    (stiEv 0x187 e 0 0 255 n 0 (s.get (Reg.ENG.DL.DL e)) (s.engPc e) n (2 ^ 40 - 1))

/-- A granule range from an offset, clipped at the region's end: first, stop, granules clipped (R250). -/
def clipRange (r : Region) (off count : Nat) : Nat × Nat × Nat :=
  let size := r.size * 512
  let a := min off size
  let b := min (off + count) size
  (r.base * 512 + a, r.base * 512 + b, count - (b - a))

/-- The lowest free stream slot (R240). -/
def freeSlotOf (x : Engine) : Option Nat := (List.range 8).find? fun k => !x.streams.has k

/-- FETCH and HINT: create a stream, or wait for a slot (R249, R250, R255). -/
def Dev.makeStream (s : Dev) (e : Nat) (w : BitVec 64) (act : Option Nat) (urg pin : Bool) (ageBias : Nat) : Dev :=
  let n := fieldOf w 51 40
  match s.stitchRegion e n with
  | none => (s.streamRefused e n).engNext e
  | some (r, s) =>
    match freeSlotOf (s.engine e) with
    | none => s
    | some k =>
      let c := clipRange r (s.reg e (stS w)).toNat (fieldOf w 39 20)
      let s := if c.2.2 = 0 then s else s.engCount (Reg.ENG.SKIP.COUNT e) (Reg.ENG.SKIP.SAT e) c.2.2 e
      let x := s.engine e
      let t : Stream := { id := x.made, act, urg, pin, ageBias, region := n, gen := r.gen, next := c.1, stop := c.2.1
                          lt := s.get (Reg.ENG.LTAG.LT e), dl := s.get (Reg.ENG.DL.DL e), pc := s.engPc e }
      (s.setEngine e { x with made := x.made + 1, streams := if c.1 < c.2.1 then x.streams.put k t else x.streams }).engNext e

def execFetch (engine ecc : Nat) (s : State) : Answer :=
  s.on fun s => (s.stitch engine 0x0B ecc fun s w =>
    s.makeStream engine w none (fieldOf w 19 19 == 1) (fieldOf w 18 18 == 1) (fieldOf w 15 0))

def execHint (engine ecc : Nat) (s : State) : Answer :=
  s.on fun s => (s.stitch engine 0x0C ecc fun s w => s.makeStream engine w (some (fieldOf w 57 55)) false false 0)

def execArmw (engine ecc : Nat) (s : State) : Answer :=
  s.on fun s => (s.stitch engine 0x0D ecc fun s w =>
    let n := fieldOf w 51 40
    let k := fieldOf w 57 55
    match s.stitchRegion engine n with
    | none =>
      let x := s.engine engine
      let off := fun (v : Watch) => { v with armed := false }
      ((s.setEngine engine { x with watches := x.watches.upd k off }).streamRefused engine n).engNext engine
    | some (r, s) =>
      let c := clipRange r (s.reg engine (stS w)).toNat (fieldOf w 39 20)
      let x := s.engine engine
      let v : Watch := { region := n, gen := r.gen, first := c.1, stop := c.2.1, armed := true, fired := false }
      (s.setEngine engine { x with watches := x.watches.put k v }).engNext engine)

/-- WAITDB and WAITW complete (R256, R257). -/
def Dev.takeDoorbell (s : Dev) (e d : Nat) : Option Dev :=
  let x := s.engine e
  match x.fifo with
  | [] => none
  | v :: rest => some (((s.setEngine e { x with fifo := rest }).setReg e d (BitVec.ofNat 64 v)).engNext e)
def Dev.takeWatch (s : Dev) (e d mask : Nat) : Option Dev :=
  let x := s.engine e
  match (List.range 8).find? fun k => mask.testBit k && (match x.watches.get? k with | some w => w.fired | none => false) with
  | none => none
  | some k =>
    let clear := fun (w : Watch) => { w with fired := false }
    some (((s.setEngine e { x with watches := x.watches.upd k clear }).setReg e d (BitVec.ofNat 64 k)).engNext e)

/-- Enter a wait state. -/
def Dev.engWait (s : Dev) (e st d timeout mask target : Nat) : Dev :=
  let x := s.engine e
  (s.setEngine e { x with waitFrom := s.tnow, waitTimeout := timeout, waitMask := mask, waitReg := d, waitTarget := target }).set
    (Reg.ENG.STS.STATE e) st

def execWaitdb (engine ecc : Nat) (s : State) : Answer :=
  s.on fun s => (s.stitch engine 0x0E ecc fun s w =>
    match s.takeDoorbell engine (stD w) with
    | some s => s
    | none => s.engWait engine 3 (stD w) (fieldOf w 31 0) 0 0)

def execWaitw (engine ecc : Nat) (s : State) : Answer :=
  s.on fun s => (s.stitch engine 0x0F ecc fun s w =>
    match s.takeWatch engine (stD w) (fieldOf w 47 40) with
    | some s => s
    | none => s.engWait engine 4 (stD w) (fieldOf w 31 0) (fieldOf w 47 40) 0)

def execWaitt (engine ecc : Nat) (s : State) : Answer :=
  s.on fun s => (s.stitch engine 0x10 ecc fun s w =>
    let t := (s.reg engine (stS w)).toNat % 2 ^ 32
    if atOrAfter 32 s.tnow t then s.engNext engine else s.engWait engine 5 0 0 0 t)

/-- A write of a doorbell value to an engine from a function: 0–63 an LD's ring page, 64 the management function (R256). -/
def Dev.doorbell (s : Dev) (e v func : Nat) : Dev :=
  let ld := func < 64
  let b := s.binding e
  let tenant := s.island.store.bind.get? func
  let ok := !ld || (!b.2.2.1 && s.engState e != 0 && b.2.1 == func) || (!b.2.2.1 && b.2.2.2 && tenant == some b.1)
  if !ok then s.raise (stiPlain 0x18E e)
  else if !s.engOn e then s
  else
    let x := s.engine e
    if 16 ≤ x.fifo.length then (s.setBit (Reg.ENG.DB_STS.OVF e) true).raise (stiPlain 0x186 e)
    else
      let s := s.setEngine e { x with fifo := x.fifo ++ [v % 65536] }
      if s.engState e = 3 then ((s.takeDoorbell e x.waitReg).getD s).setReady e (s.clock + 4) else s
def execStitcherDoorbell (engine value func : Nat) (s : State) : Answer :=
  s.on fun s => (if engine < 16 ∧ func ≤ 64 then s.doorbell engine value func else s)

/-- The clock at which TNOW has advanced by `us`. -/
def Dev.clockAfterUs (s : Dev) (us : Nat) : Nat := s.cks.tnow0 + ((s.clock - s.cks.tnow0) / fclkUs + us) * fclkUs

/-- FCLK count of the admission that fired the watch WAITW takes (R257). -/
def Dev.firedAt (s : Dev) (e mask : Nat) : Nat :=
  match (List.range 8).findSome? fun k => if mask.testBit k then
      (match (s.engine e).watches.get? k with | some w => if w.fired then some w.at_ else none | none => none) else none with
  | some t => t
  | none => s.clock

/-- STITCHER_WAKE (R257, R258): Gd is written 6 FCLK after the admission that fired the watch, and WAITT completes 2 FCLK after TNOW has
reached its target. -/
def execStitcherWake (engine : Nat) (s : State) : Answer :=
  s.on fun s => (if 15 < engine then s
    else
      let x := s.engine engine
      if s.engState engine = 4 then
        match s.takeWatch engine x.waitReg x.waitMask with
        | some t => (t.at (s.firedAt engine x.waitMask + 6)).setReady engine (max s.clock (s.firedAt engine x.waitMask + 6))
        | none => s
      else if s.engState engine = 5 then
        let s := if atOrAfter 32 s.tnow x.waitTarget then s
          else s.at (s.clockAfterUs ((x.waitTarget + 2 ^ 32 - s.tnow) % 2 ^ 32))
        (s.engNext engine).setReady engine (s.clock + 2)
      else s)

/-- STITCHER_WAIT_TIMEOUT (R256, R257): the stitch completes as after a wake (DEDUCED, log entry 62). -/
def execStitcherWaitTimeout (engine : Nat) (s : State) : Answer :=
  s.on fun s => (if 15 < engine then s
    else
      let x := s.engine engine
      let st := s.engState engine
      let fired := (s.takeWatch engine x.waitReg x.waitMask).isSome
      if x.waitTimeout = 0 ∨ (st ≠ 3 ∧ st ≠ 4) ∨ (st = 4 ∧ fired) then s
      else
        let gone := (s.tnow + 2 ^ 32 - x.waitFrom) % 2 ^ 32
        let s := if x.waitTimeout ≤ gone then s else s.at (s.clockAfterUs (x.waitTimeout - gone))
        ((s.setReg engine x.waitReg (if st = 3 then 0x10000 else 8)).engNext engine).setReady engine (s.clock + if st = 3 then 4 else 2))

/-- A granule of a stream goes to TMG: one per 2 FCLK of an engine, 4 per FCLK of all (R251). -/
def Dev.passGran (s : Dev) (e : Nat) : Dev :=
  let s := s.at (s.engine e).issueAt
  let s := if s.stiPass.1 = s.clock ∧ 4 ≤ s.stiPass.2 then s.at (s.clock + 1) else s
  let s : Dev := { s with stiPass := (s.clock, if s.stiPass.1 = s.clock then s.stiPass.2 + 1 else 1) }
  s.setEngine e { s.engine e with issueAt := s.clock + 2 }

/-- A stream's granules not yet issued are discarded because its region left ACTIVE (R250). -/
def Dev.cutStream (s : Dev) (e slot : Nat) (t : Stream) : Dev :=
  let left := t.stop - t.next
  let x := s.engine e
  let s := s.setEngine e { x with streams := x.streams.del slot }
  (s.engCount (Reg.ENG.SKIP.COUNT e) (Reg.ENG.SKIP.SAT e) left e).raise
    (stiEv 0x187 e 0 0 slot t.region 0 t.dl t.pc t.region t.next)

/-- A region leaves ACTIVE: every stream over it is cut (R250). -/
def Dev.cutStreams (s : Dev) (n : Nat) : Dev :=
  s.engines.list.foldl (fun s e => (e.2.streams.list.filter fun t => t.2.region == n).foldl (fun s t => s.cutStream e.1 t.1 t.2) s) s

/-- A stream moves past a granule. -/
def Dev.streamNext (s : Dev) (e slot : Nat) : Dev :=
  let x := s.engine e
  match x.streams.get? slot with
  | none => s
  | some t =>
    if t.next + 1 < t.stop then s.setEngine e { x with streams := x.streams.put slot { t with next := t.next + 1, retry := none } }
    else s.setEngine e { x with streams := x.streams.del slot }

/-- An eviction candidate of R226, PEND included. -/
def Dev.candidate (s : Dev) (g : Nat) : Option (Nat × RmEntry) :=
  let e := s.fme g
  if e.tier ≠ .L ∨ e.pend then none
  else match s.rm.get? e.loc with | some r => if s.idleFrame r then some (e.loc, r) else none | none => none

/-- Effect of a HINT on a granule (R255). -/
def Dev.hintGran (s : Dev) (act g : Nat) : Dev :=
  match act with
  | 0 => s.unpin g
  | 1 => (s.cold g).1
  | _ => match s.candidate g with | some v => (s.evictFrame v.1 v.2).settle | none => s

/-- Pin of a granule by a FETCH (R254). -/
def Dev.stitchPin (s : Dev) (e g : Nat) : Dev :=
  let r := s.pinSet g
  if r.2 then r.1 else r.1.engCount (Reg.ENG.PIN_REF.COUNT e) (Reg.ENG.PIN_REF.SAT e) 1 e

/-- A granule of a FETCH that needs a fill (R251–R253). -/
def Dev.fetchFill (s : Dev) (e slot : Nat) (t : Stream) : Dev :=
  if s.get (Reg.ENG.CTL.CREDITS e) ≤ s.outst e then s
  else
    let x : StiGran := { engine := e, slot, stream := t.id, dl := t.dl, lt := t.lt, pc := t.pc, ageBias := t.ageBias
                         prio := s.get (Reg.ENG.CTL.PRIO e), issued := s.tnow }
    let joins := s.fills.has t.next
    let r := s.requestFill t.next (if t.urg then .demand else .stitch) [] [x]
    if r.2 ∨ joins then
      ((if t.pin then r.1.stitchPin e t.next else r.1).count48 (Reg.ENG.FILLS_LO.COUNT e) (Reg.ENG.FILLS_HI.COUNT e) 1 (stiPlain 0x18B e)).streamNext e slot
    else
      let s := (s.engCount (Reg.ENG.QFULL_CTR.COUNT e) (Reg.ENG.QFULL_CTR.SAT e) 1 e).raiseFirst (stiPlain 0x189 e)
      let y := s.engine e
      s.setEngine e { y with streams := y.streams.put slot { t with retry := some (t.next, s.clock + s.get Reg.STI.QFULL.RETRY_FCLK) } }

/-- Issue the next granule of a stream (*FETCH outcome per granule*, *HINT actions*). -/
def Dev.issueGran (s : Dev) (e slot : Nat) (t : Stream) : Dev :=
  let live := match s.regions.get? t.region with | some r => !r.draining && r.gen == t.gen | none => false
  if !live then s.cutStream e slot t
  else
    let s := s.passGran e
    let g := t.next
    match t.act with
    | some a => (s.hintGran a g).streamNext e slot
    | none =>
      let m := s.fme g
      let pin := fun (s : Dev) => if t.pin then s.stitchPin e g else s
      let hit := fun (s : Dev) => s.engCount (Reg.ENG.HIT.COUNT e) (Reg.ENG.HIT.SAT e) 1 e
      if !m.ew ∧ m.tier = .F then
        let s := s.engCount (Reg.ENG.SKIP.COUNT e) (Reg.ENG.SKIP.SAT e) 1 e
        let s := pin s
        (if (s.fme g).pin then (s.ensureFrame g false).1 else s).streamNext e slot
      else if m.tier = .staged then ((hit (pin s)).cancelDemotion g false).streamNext e slot
      else if m.tier = .L ∧ (!m.ew ∨ (List.range 64).all fun k => (s.frameLn m.loc k).st != .absent) then
        ((hit (pin s)).stamp g t.ageBias).streamNext e slot
      else s.fetchFill e slot t

/-- STREAM_GRANULE_ISSUE: the next granule of an engine's streams, in slot order (R251). -/
def execStreamGranuleIssue (engine : Nat) (s : State) : Answer :=
  s.on fun s => (if 15 < engine then s
    else match (s.engine engine).streams.list.find? fun x => x.2.retry.isNone with
      | some x => s.issueGran engine x.1 x.2
      | none => s)

/-- QFULL_RETRY of a stream slot: the refused granule is reissued (R252). -/
def execQfullRetry (engine slot : Nat) (s : State) : Answer :=
  s.on fun s => (if 15 < engine then s
    else match (s.engine engine).streams.get? slot with
      | some t => match t.retry with
        | some (_, due) =>
          let s := s.at due
          let t := { t with retry := none }
          let x := s.engine engine
          (s.setEngine engine { x with streams := x.streams.put slot t }).issueGran engine slot t
        | none => s
      | none => s)

/-- STI_ENABLE_WRITE (R245). -/
def Dev.stiEnable (s : Dev) (on : Bool) : Dev :=
  let s := s.setBit Reg.STI.CFG.ENABLE on
  if on then s else s.engStopAll 5
def execStiEnableWrite (on : Bool) (s : State) : Answer := s.on fun s => (s.stiEnable on)

/-- `a` is later than `b` in a 2^31 window (R259). -/
def later (a b : Nat) : Bool := a % 2 ^ 32 != b % 2 ^ 32 && atOrAfter 32 a b
def since (a b : Nat) : Nat := min 65535 ((a + 2 ^ 32 - b % 2 ^ 32) % 2 ^ 32)

/-- A DEADLINE_MISS (R261): `kind` 0 LATE, 1 DEMAND, 2 ISSUE; a record for the stream's first of the kind. -/
def Dev.deadlineMiss (s : Dev) (x : StiGran) (kind late g : Nat) : Dev :=
  let e := x.engine
  let s := s.set (Reg.ENG.MISS_INFO.MAX_LATE_US e) (max (s.get (Reg.ENG.MISS_INFO.MAX_LATE_US e)) late)
  let m := (s.engine e).missed.getD x.stream 0
  if m.testBit kind then s
  else
    let y := s.engine e
    let s := s.setEngine e { y with missed := y.missed.put x.stream (withBit m kind) }
    let s := ((s.set (Reg.ENG.LAST_MISS.LT e) x.lt).set (Reg.ENG.LAST_MISS.LATE_US e) late).set (Reg.ENG.MISS_INFO.KIND e) kind
    let region := match s.regionAt g with | some (n, _) => n | none => 0xFFFF
    s.raise (stiEv (if kind = 0 then 0x181 else if kind = 1 then 0x182 else 0x183) e kind 0 x.slot x.lt late x.dl x.pc region g)

/-- Account one granule that took a credit (R260). -/
def Dev.accountGran (s : Dev) (g : Nat) (f : Fill) (x : StiGran) : Dev :=
  let e := x.engine
  let now := s.tnow
  let s := match f.hostJoin with
    | some t => (s.engCount (Reg.ENG.MISS_DEMAND.COUNT e) (Reg.ENG.MISS_DEMAND.SAT e) 1 e).deadlineMiss x 1 (since now t) g
    | none =>
      if later x.issued x.dl then
        (s.engCount (Reg.ENG.MISS_ISSUE.COUNT e) (Reg.ENG.MISS_ISSUE.SAT e) 1 e).deadlineMiss x 2 (since x.issued x.dl) g
      else if later now x.dl then
        (s.engCount (Reg.ENG.MISS_LATE.COUNT e) (Reg.ENG.MISS_LATE.SAT e) 1 e).deadlineMiss x 0 (since now x.dl) g
      else s.engCount (Reg.ENG.ON_TIME.COUNT e) (Reg.ENG.ON_TIME.SAT e) 1 e
  -- a stream with nothing left to issue or to fill is forgotten
  let y := s.engine e
  let live := (y.streams.list.any fun t => t.2.id == x.stream) ||
    s.fills.list.any fun h => h.2.sti.any fun z => z.engine == e && z.stream == x.stream
  if live then s else s.setEngine e { y with missed := y.missed.del x.stream }

/-- FILL_COMPLETE (R224, R260). -/
def Dev.fillComplete (s : Dev) (g : Nat) : Dev :=
  match s.fills.get? g with
  | none => s
  | some f =>
    if f.data.isNone then s
    else ((f.sti.foldl (fun s x => s.accountGran g f x) (s.fillDone g))).settle.revokeAll
def execFillComplete (gran : Nat) (s : State) : Answer := s.on fun s => (s.fillComplete gran)

end Sys2Proof.Machine
end

