-- ==== Sys2Proof/Machine/RegionOps.lean ====
section
/-! DEFINITION. What the region, tenant and key commands change on a device, whether a ring, a signed operation or a
forwarded command asks for it (R34, R39, R171, R201, R233, R375, R376, R404). -/

namespace Sys2Proof.Machine

/-- A granule lies in a region. -/
def granIn (r : Region) (g : Nat) : Bool := decide (r.base ≤ extOf g) && decide (extOf g < r.base + r.size)

/-- Fills and destages of a region are in flight: its destruction waits for them (R201 Case C, R233). -/
def Dev.wipeBusy (s : Dev) (r : Region) : Bool :=
  (s.fills.keys.any (granIn r)) || s.destages.keys.any (granIn r)

/-- Free the rescue slots that granules of a region hold; granules that found none are tried again (R203). -/
def Dev.freeRescues (s : Dev) (r : Region) : Dev :=
  let t : Dev := { s with drives := s.drives.map fun _ d => { d with rescueUsed := d.rescueUsed.filter fun _ g => !granIn r g } }
  if s.drives.list.any fun e => e.2.rescueUsed.list.any fun x => granIn r x.2 then t.reserveAll else t

/-- Map LBAs of a drive slot that hold a bit of a region, and the map writes of its destruction; the data LBAs and tag slots are
deallocated behind them (R194). -/
def Dev.wipeWrites (s : Dev) (r : Region) (d : Nat) : Dev :=
  let l := ((s.medium d).map.keys.filter fun i => granIn r (granAt s.imageN d i)).map fun i => (mapPlace i).1
  let s := (l.foldl (fun (a : List Nat) x => if a.contains x then a else a ++ [x]) []).foldl (fun s lba => s.nvme d .write 1 lba 1) s
  let s := ((s.medium d).data.keys.filter fun i => granIn r (granAt s.imageN d i)).foldl (fun s i =>
    s.nvme d .deallocate 1 (imageBase s.imageN s.imageG + i) 1) s
  ((s.medium d).tags.keys.filter fun lba => decide (lba / 2 < imageD s.imageN s.imageG) &&
    granIn r (granAt s.imageN ((d + s.imageN - 1) % s.imageN) (lba / 2))).foldl (fun s lba => s.nvme d .deallocate 2 lba 1) s

/-- The media of the drives in service without a region's granules: map bits, data, tag slots and rescue slots (R194). -/
def Dev.wipeMedia (s : Dev) (r : Region) : Dev :=
  let n := s.imageN
  ((List.range n).filter s.driveOk).foldl (fun s d =>
    let s := s.wipeWrites r d
    let s := ((s.medium d).rescue.list.filter fun e => granIn r e.2.gran).foldl (fun s e => s.nvme d .writeZeroes 1 (s.rescueLba e.1) 1) s
    let m := s.medium d
    let here := fun (i : Nat) => granIn r (granAt n d i)
    -- the tag drive holds the tag slots of the granules whose home is the drive before it (R191)
    let tagHere := fun (lba : Nat) => decide (lba / 2 < imageD n s.imageG) && granIn r (granAt n ((d + n - 1) % n) (lba / 2))
    s.setMedium d { m with map := m.map.filter fun i _ => !here i
                           data := m.data.filter fun i _ => !here i
                           tags := m.tags.filter fun l _ => !tagHere l
                           rescue := m.rescue.filter fun _ f => !granIn r f.gran }) s

/-- Destroy a region's contents (R39, R122, R194, R201, R233): its dirty lines are discarded, its demotions cancelled, its
frames, loan indices, poison entries, divergence bits and ever-written bits freed or cleared. -/
def Dev.wipeRegion (s : Dev) (n : Nat) (r : Region) : Dev :=
  let mine := fun (g : Nat) => granIn r g
  let s := (s.dirty.keys.filter mine).foldl (fun s g => s.uncountDirty g false) s
  let s := s.freeRescues r
  let staged := s.staged.list.filter fun e => mine e.2.gran
  let s := staged.foldl (fun s e => { s with staged := s.staged.del e.1, lbm := s.lbm.del e.2.loan }) s
  let frames := (s.rm.list.filter fun e => e.2.fstate == .inUse && e.2.owned && mine e.2.gran).map (·.1)
  let s := frames.foldl Dev.freeFn s
  let gone := s.poison.keys.filter fun l => mine (granOf l)
  let s := gone.foldl Dev.poisonDel s
  let s := { s with
    lc := s.lc.filter fun l _ => !mine (granOf l)
    fm := s.fm.filter fun g _ => !mine g
    lbm := s.lbm.filter fun _ b => !mine b.gran
    learns := s.learns.filter fun g _ => !mine g
    lostMaps := s.lostMaps.del n
    mirror := { s.mirror with div := s.mirror.div.filter fun g _ => !mine g }
    island := { s.island with store := { s.island.store with shares := s.island.store.shares.del n } } }
  (s.wipeMedia r).settle

/-- A region leaves the table; its number keeps its generation for the next (R404). -/
def Dev.removeRegion (s : Dev) (n : Nat) (r : Region) : Dev :=
  let s := (s.cutStreams n).wipeRegion n r
  { s with regions := s.regions.del n, gens := s.gens.put n r.gen
           lds := s.lds.map fun _ l => { l with extents := l.extents.del n, offers := l.offers.del n, releases := l.releases.del n } }

/-- Enter a region in the table (R305, R404). -/
def Dev.enterRegion (s : Dev) (n : Nat) (r : Region) : Dev :=
  { s with regions := s.regions.put n r, gens := s.gens.put n r.gen }

/-- Destroyed regions whose waits have ended: the record is written, and the command goes on (R37, R404). -/
def Dev.destroyCheck (s : Dev) : Dev :=
  s.destroys.list.foldl (fun s e =>
    match s.regions.get? e.1 with
    | none => { s with destroys := s.destroys.del e.1 }
    | some r =>
      if s.wipeBusy r then s
      else
        let s := { s.removeRegion e.1 r with destroys := s.destroys.del e.1 }
        s.logRegion e.1 [.command (.regionDestroy e.1 e.2.gen) (.ring e.2.issuer) 0 0]) s

/-- The key slot a region names is ACTIVE here and holds the same key (R308). -/
def Dev.keyMatches (s : Dev) (r : Region) (f : BitVec 64) : Bool :=
  match r.slot with
  | none => true
  | some k => s.slotState k == .active && s.regionFingerprint r == f

/-- Apply a rotation to a slot (R171): the new epoch is current, the old one previous, and the sweep starts on the device
that serves (R172). -/
def Dev.rotate (s : Dev) (k : Nat) (e : BitVec 5) (mat : KeyMat) : Dev :=
  let m := s.slot k
  let s := (s.setSlot k ({ m with epoch := e, cur := some mat, prev := m.cur, next := none } : MemSlot).checked).slotChanged k
  if s.serves then s.startSweep k else s

/-- Bind or unbind LDs (R374); an unbound LD's attachments end as R80 Case D. -/
def Dev.bindLds (s : Dev) (t : Nat) (glds : List Nat) : Dev :=
  let b := glds.foldl (fun b g => b.put g t) s.island.store.bind
  { s with island := { s.island with store := { s.island.store with bind := b } } }
def Dev.unbindLd (s : Dev) (g : Nat) : Dev :=
  let s := { s with island := { s.island with store := { s.island.store with bind := s.island.store.bind.del g } } }
  (s.regions.list.filter fun e => e.2.attached.contains g).foldl (fun s e => s.loseAttachment g e.1) s
def Dev.unbindLds (s : Dev) (t : Nat) (glds : List Nat) : Dev :=
  glds.foldl (fun s g => if s.island.store.bind.get? g = some t then s.unbindLd g else s) s

/-- Make or withdraw a share grant (R375): at NONE the grantee's LDs still attached lose the region. -/
def Dev.setShare (s : Dev) (n t : Nat) (grant : Option Bool) : Dev :=
  let l := (s.island.store.shares.getD n []).filter fun x => x.tenant != t
  let l := match grant with | some w => l ++ [{ tenant := t, write := w }] | none => l
  let sh := if l.isEmpty then s.island.store.shares.del n else s.island.store.shares.put n l
  let s := { s with island := { s.island with store := { s.island.store with shares := sh } } }
  match grant with
  | some _ => s
  | none => match s.regions.get? n with
    | some r => (r.viaShare.filter fun x => x.2 == t).foldl (fun s x => s.loseAttachment x.1 n) s
    | none => s

end Sys2Proof.Machine
end

