-- ==== Sys2Proof/Machine/IslandCore.lean ====
section
/-! DEFINITION. Signed operations as they change the key store: the codes of the operations, the KSL record, and the effect of
those a standby applies too (R373–R376, R383, R385, R386). -/

namespace Sys2Proof.Machine

/-- OP of a signed operation (R373). -/
def SignedBody.op : SignedBody → Nat
  | .takeOwnership _ => 0x01
  | .transfer _ => 0x02
  | .tenantEnrol _ _ => 0x03
  | .tenantBind _ _ => 0x04
  | .tenantUnbind _ _ => 0x05
  | .tenantRemove _ => 0x06
  | .regionShare _ _ _ _ => 0x07
  | .keyInstall _ _ _ _ => 0x10
  | .keyRotate _ _ _ => 0x11
  | .keyRemove _ => 0x12
  | .zeroise _ _ _ => 0x13
  | .secretInstall _ _ => 0x20
  | .refereeSet _ _ _ => 0x21
  | .fwActivate _ => 0x30
  | .logClear => 0x31
  | .debugUnlock _ _ => 0x32

/-- Slot, tenant or GLD an operation acts on; 0xFFFF = none (R386). Of several GLDs, the first named. -/
def SignedBody.object : SignedBody → Nat
  | .tenantEnrol t _ => t
  | .tenantBind _ l => l.headD 0xFFFF
  | .tenantUnbind _ l => l.headD 0xFFFF
  | .tenantRemove t => t
  | .regionShare _ _ t _ => t
  | .keyInstall k _ _ _ => k
  | .keyRotate k _ _ => k
  | .keyRemove k => k
  | .zeroise 0 k _ => k
  | .zeroise 1 _ t => t
  | .secretInstall k _ => k
  | _ => 0xFFFF

/-- Local index of the KSL event of an accepted operation (R387). -/
def SignedBody.event : SignedBody → Nat
  | .takeOwnership _ => 0xD
  | .transfer _ => 0xD
  | .tenantEnrol _ _ => 0x8
  | .tenantBind _ _ => 0x8
  | .tenantUnbind _ _ => 0x8
  | .tenantRemove _ => 0x8
  | .regionShare _ _ _ _ => 0x8
  | .keyInstall _ _ _ _ => 0x4
  | .keyRotate _ _ _ => 0x4
  | .keyRemove _ => 0x5
  | .zeroise 2 _ _ => 0x7
  | .zeroise _ _ _ => 0x6
  | .secretInstall _ _ => 0xC
  | .refereeSet _ _ _ => 0xC
  | .fwActivate _ => 0xC
  | .logClear => 0xC
  | .debugUnlock _ _ => 0xA

/-- Change the key store. -/
def Dev.setStore (s : Dev) (f : KeyStore → KeyStore) : Dev :=
  { s with island := { s.island with store := f s.island.store } }

/-- The credential a signed operation names (R372). -/
def Dev.cred (s : Dev) (c : Nat) : Option Cred :=
  if c = 0xFFFF then s.island.store.owner else s.island.store.tenants.get? c

/-- LAST_SEQ of a credential becomes `seq` if that is higher (R372, R383). -/
def Dev.setSeq (s : Dev) (c seq : Nat) : Dev :=
  s.setStore fun k =>
    if c = 0xFFFF then { k with owner := k.owner.map fun x => { x with lastSeq := max x.lastSeq seq } }
    else { k with tenants := k.tenants.upd c fun x => { x with lastSeq := max x.lastSeq seq } }

/-- Memory slots of a tenant. -/
def Dev.tenantSlots (s : Dev) (t : Nat) : List Nat :=
  (s.island.store.slots.list.filter fun e => e.2.st != .empty && e.2.tenant == t).map (·.1)

/-- Slots an operation zeroises or empties. -/
def Dev.slotsOf (s : Dev) : SignedBody → List Nat
  | .tenantRemove t => s.tenantSlots t
  | .keyRemove k => [k]
  | .zeroise 0 k _ => [k]
  | .zeroise 1 _ t => s.tenantSlots t
  | _ => []

/-- Zeroise memory slots (R385 Cases A and B). -/
def Dev.zeroise (s : Dev) (l : List Nat) : Dev := l.foldl (fun s k => s.clearSlot k .zeroised) s

/-- Effect of the operations that are applied on a standby as on the active (R374, R375, R383, R385). -/
def Dev.applyBody (s : Dev) (b : SignedBody) : Dev :=
  match b with
  | .tenantEnrol t key => s.setStore fun k => { k with tenants := k.tenants.put t { key, lastSeq := 0 } }
  | .tenantBind t l => s.bindLds t l
  | .tenantUnbind t l => s.unbindLds t l
  | .tenantRemove t =>
    let glds := (s.island.store.bind.list.filter fun e => e.2 == t).map (·.1)
    ((s.zeroise (s.tenantSlots t)).unbindLds t glds).setStore fun k => { k with tenants := k.tenants.del t }
  | .regionShare n _ t access => s.setShare n t (if access = 0 then none else some (access == 2))
  | .keyRemove k => s.clearSlot k .empty
  | .zeroise _ _ _ => s.zeroise (s.slotsOf b)
  | _ => s

/-- Whether an operation is forwarded to the standby (R307, R383). -/
def Dev.forwardsOp (s : Dev) (b : SignedBody) : Bool :=
  match b with
  | .tenantEnrol _ _ => true
  | .tenantBind _ _ => true
  | .tenantUnbind _ _ => true
  | .tenantRemove _ => true
  | .regionShare _ _ _ _ => true
  | .zeroise 2 _ _ => false
  | _ => s.regions.list.any fun e => e.2.mirror && match e.2.slot with
      | some k => (s.slotsOf b).contains k
      | none => false

/-- A forwarded operation at the standby: applied without a second signature check, with its record (R383, R386). -/
def Dev.applyForwarded (s : Dev) (c seq : Nat) (hash8 : BitVec 64) (b : SignedBody) : Dev :=
  ((s.applyBody b).setSeq c seq).raise (kslEv b.event 3 b.op c 0 seq b.object hash8)

end Sys2Proof.Machine
end

