-- ==== Sys2Proof/Machine/Standby.lean ====
section
/-! DEFINITION. The target's side of memory operations over Twinset: a standby applies records and forwarded commands, a
joining device resync copies, a twin answers READs, a lender its loans (R293–R295, R307–R315, R333, R349, R355). -/

namespace Sys2Proof.Machine

/-- What a target decides for a request (R273, R285). -/
inductive RxResult
  /-- executed: an ACK covers it -/
  | ok
  /-- executed, its ACK waits -/
  | later
  /-- executed, answered by a READ_RESP -/
  | answered
  /-- refused: NAK code, and the generation at the target -/
  | refuse (code gen : Nat)
  /-- not executed: RNR -/
  | rnr
  deriving DecidableEq, Repr

/-- Check of a carried generation (R294): `some` = the outcome that is no execution. -/
def genCheck (carried held : Nat) : Option RxResult :=
  if carried = held then none
  else if (held + 2 ^ 16 - carried % 2 ^ 16) % 2 ^ 16 < 2 ^ 15 then some (.refuse 0x04 held)
  else some .rnr

/-- The device applies lanes: STANDBY or JOINING, and the sender is its twin (R303, R326). -/
def Dev.applies (s : Dev) (a : Nat) : Bool := (s.role == 2 || s.role == 5) && a == s.twin

/-- Apply one line from the twin through RTE as a full-line write, with the metadata it carries (R312); `none` = it cannot
be accepted now. -/
def Dev.applyLine (s : Dev) (reg : Region) (line : Nat) (l : Ln) : Option Dev :=
  let g := granOf line
  let q : HostReq := { head := copyHead, gld := 64, tag := 0, line, write := some (BitVec.allOnes 64, 0), poisoned := l.st == .poison }
  if (s.holdReason reg q).isSome || s.lineBusy line || s.acceptFull line then none
  else if l.st = .poison then
    let s := if (s.fme g).tier = .staged then s.cancelDemotion g true else s
    some (s.poisonLine line 6 false)
  else
    let f := s.ensureFrame g true
    if !f.2 then none
    else
      let s := ((f.1.stamp g 0).poisonDel line).lcAccept line { l with st := .dirty }
      some ((s.count48 Reg.LC.WR_LO.COUNT Reg.LC.WR_HI.COUNT 1 (Ev.plain 0x060)).dirtied g (line % 64))

/-- Apply records in order; `none` = one of them cannot be accepted now, and none is. -/
def Dev.applyRecords (s : Dev) (l : List MirRecord) : Option Dev :=
  l.foldl (fun acc r => acc.bind fun s => match s.regionAt (granOf r.line) with
    | some (_, reg) => s.applyLine reg r.line r.ln
    | none => none) (some s)

/-- Existence and generation of every record's region (R295): the first that fails. -/
def Dev.recordsFault (s : Dev) (l : List MirRecord) : Option RxResult :=
  l.findSome? fun r => match s.regionAt (granOf r.line) with
    | none => some (.refuse 0x05 0)
    | some (_, reg) => genCheck r.gen reg.gen

/-- A LANE_REC at a standby (R312). -/
def Dev.rxLane (s : Dev) (a : Nat) (recs : List MirRecord) : Dev × RxResult :=
  if !s.applies a then (s, .refuse 0x09 0)
  else match s.recordsFault recs with
    | some r => (s, r)
    | none => match s.applyRecords recs with
      | some s => (s, .ok)
      | none => (s, .rnr)

/-- A region that a forwarded command names: existence and generation (R295). -/
def Dev.fwdRegion (s : Dev) (n gen : Nat) (f : Region → Dev × RxResult) : Dev × RxResult :=
  match s.regions.get? n with
  | none => (s, .refuse 0x05 0)
  | some r => match genCheck gen r.gen with | some x => (s, x) | none => f r

/-- Attach a region on the standby's table: the LD's extent is listed (R309). -/
def Dev.fwdAttach (s : Dev) (n gld : Nat) (r : Region) : Dev :=
  let share := match s.reachTenant gld n r with | some t => if t = r.tenant then [] else [(gld, t)] | none => []
  let r := if r.attached.contains gld then r
    else { r with attached := r.attached ++ [gld], viaShare := r.viaShare ++ share }
  let l := s.ld gld
  ({ s with regions := s.regions.put n r }).setLd gld { l with extents := l.extents.put n r.gen }

/-- Execute a forwarded command (R307–R309): one that changes a region is acknowledged once its region-log record is
programmed. -/
def Dev.applyCmd (s : Dev) (a cid psn : Nat) (cmd : FwdCmd) : Dev × RxResult :=
  let after := [AfterLog.ackCmd a cid psn]
  match cmd with
  | .regionCreate n r f =>
    if s.regions.has n then (s, .refuse 0x04 (s.gens.getD n 0))
    else if !s.keyMatches r f then (s, .refuse 0x0C 0)
    else ((s.enterRegion n { r with home := false, attached := [], viaShare := [] }).logRegion n after, .later)
  | .regionDestroy n gen => s.fwdRegion n gen fun r =>
      if s.wipeBusy r then (s, .rnr) else ((s.removeRegion n r).logRegion n after, .later)
  | .regionAttach n gen gld => s.fwdRegion n gen fun r => ((s.fwdAttach n gld r).logRegion n after, .later)
  | .regionRevoke n gen (some gld) => s.fwdRegion n gen fun _ => ((s.detach gld n).logRegion n after, .later)
  | .regionRevoke n gen none => s.fwdRegion n gen fun r =>
      let gen := (r.gen + 1) % 65536
      let t := r.attached.foldl (fun s g => s.detach g n) s
      let t := { t with gens := t.gens.put n gen
                        regions := t.regions.upd n fun r => { r with gen, draining := false, attached := [], viaShare := [] } }
      (t.logRegion n after, .later)
  | .signed c seq h (.regionShare n gen t x) => s.fwdRegion n gen fun _ => (s.applyForwarded c seq h (.regionShare n gen t x), .ok)
  | .signed c seq h b => (s.applyForwarded c seq h b, .ok)
  | .keyRotate k e f =>
    match (s.slot k).next with
    | some (e', mat) =>
      if s.slotState k = .active ∧ (s.slot k).prev.isNone ∧ e'.toNat = e ∧ s.fingerprint (some mat) = f then (s.rotate k e' mat, .ok)
      else (s, .refuse 0x0C 0)
    | none => (s, .refuse 0x0C 0)
  | .sweepDone k _ => (s.sweepClear k, .ok)

/-- A CMD_FWD fragment at a standby: it executes the command once it holds every fragment (R272 Case A). -/
def Dev.rxCmd (s : Dev) (a cid psn frag : Nat) (last : Bool) (cmd : FwdCmd) : Dev × RxResult :=
  if !s.applies a then (s, .refuse 0x09 0)
  else match s.conn a cid with
    | none => (s, .refuse 0x09 0)
    | some c =>
      if frag ≠ c.frags then (s, .refuse 0x0A 0)
      else if !last then (s.setConn a cid { c with frags := c.frags + 1 }, .ok)
      else
        let r := s.applyCmd a cid psn cmd
        match r.2 with
        | .rnr => r
        | _ => match r.1.conn a cid with
          | some c => (r.1.setConn a cid { c with frags := 0 }, r.2)
          | none => r

/-- Range of a region request (R270, R293). -/
def rangeOk (r : Region) (granule : Bool) (count line : Nat) : Bool :=
  decide (0 < count) && decide (count ≤ 64) && (!granule || (line % 64 == 0 && count == 64)) &&
  granIn r (granOf line) && granIn r (granOf (line + count - 1))

/-- Checks 1–5 of a region request (R293, R294). -/
def Dev.regionChecks (s : Dev) (a n gen : Nat) (granule : Bool) (count line : Nat) (f : Region → Dev × RxResult) :
    Dev × RxResult :=
  match s.regions.get? n with
  | none => (s, .refuse 0x05 0)
  | some r =>
    if !(s.bit Reg.MIR.CFG.PAIRED && a == s.twin && r.mirror) then (s, .refuse 0x06 r.gen)
    else match genCheck gen r.gen with
      | some x => (s, x)
      | none =>
        if r.draining then (s, .refuse 0x03 r.gen)
        else if !rangeOk r granule count line then (s, .refuse 0x07 r.gen)
        else f r

/-- Checks of a loan request (R293): the run's first frame. -/
def Dev.loanChecks (s : Dev) (member loan gen count ofs : Nat) (f : Lend → Dev × RxResult) : Dev × RxResult :=
  let e := s.lendOf loan
  if e.member ≠ some member ∨ e.gen ≠ gen then (s, .refuse 0x08 e.gen)
  else if ofs % 64 = 0 ∧ 0 < count ∧ count ≤ 64 ∧ ofs + count * 64 ≤ 16384 * 4096 then f e
  else (s, .refuse 0x07 e.gen)

/-- Lines of a lent run, by their number within the request. -/
def Dev.loanLines (s : Dev) (e : Lend) (ofs count : Nat) : Tab Ln :=
  (List.range count).foldl (fun t k =>
    let l := ofs / 64 + k
    t.put k (s.frameLn (e.frame + l / 64) (l % 64))) .empty

/-- The lines of a lent run that are not ABSENT or POISON are read (R117, R120). -/
def Dev.loanRead (s : Dev) (e : Lend) (ofs count : Nat) : Dev :=
  (List.range count).foldl (fun s k =>
    let l := ofs / 64 + k
    match (s.frameLn (e.frame + l / 64) (l % 64)).st with
    | .clean => s.dramLine (e.frame + l / 64) (l % 64) true
    | .dirty => s.dramLine (e.frame + l / 64) (l % 64) true
    | _ => s) s

/-- The lender's fixed hold, in FCLK (R103). -/
def lenderHold : Nat := 468

/-- A READ (R293, R315): a loan's lines are sent as the lender holds them; a region's from the twin's own tiers, after a fill
where one is needed. -/
def Dev.rxRead (s : Dev) (a cid psn : Nat) (loan : Bool) (target gen : Nat) (granule : Bool) (count addr tag : Nat) :
    Dev × RxResult :=
  if loan then
    if s.role = 3 then (s, .refuse 0x09 0)
    else s.loanChecks (s.assoc a).member target gen count addr fun e =>
      let s := s.loanRead e addr count
      (s.sendReadResp a cid psn true target gen granule count addr tag (lenderHold / 2) e.gen (s.loanLines e addr count), .answered)
  else if s.role = 6 then (s, .refuse 0x09 0)
  else s.regionChecks a target gen granule count addr fun r =>
    let l := laneOf (granOf addr)
    if s.role = 1 ∧ (s.lane l).all.any (fun x => granOf x.line == granOf addr) then (s, .rnr)
    else
      let rd : TwinRead := { assoc := a, cid, psn, region := target, granule, count, line := addr, tag, gen, at_ := s.clock }
      match s.twinLines r addr count with
      | some _ => (s.twinAnswer rd, .answered)
      | none =>
        let need := ((List.range count).filter fun k => (s.twinLine r (addr + k)).isNone).map fun k => granOf (addr + k)
        let q := need.foldl (fun (acc : Dev × Bool) g =>
          if acc.1.fills.has g then acc
          else let f := acc.1.requestFill g .background [] []; (f.1, acc.2 && f.2)) (s, true)
        if q.2 then ({ q.1 with mirror := { q.1.mirror with serving := q.1.mirror.serving ++ [rd] } }, .later) else (s, .rnr)

/-- The joining device's lane of a granule has applied through SNAP_PSN (R333). -/
def Dev.laneApplied (s : Dev) (a g snap : Nat) : Bool :=
  match s.conn a (laneCid (laneOf g)) with
  | some c => decide (psnDist (psnNext snap) c.exp < 2 ^ 31)
  | none => false

/-- A WRITE (R225, R293, R333, R349): a demotion is stored in the lent run as received; a resync copy is applied as full-line
writes, and its ACK clears the granule's divergence bit. -/
def Dev.rxWrite (s : Dev) (a : Nat) (loan : Bool) (target gen : Nat) (granule : Bool) (count addr tag : Nat)
    (lines : Tab Ln) : Dev × RxResult :=
  if loan then
    if s.role = 3 then (s, .refuse 0x09 0)
    else s.loanChecks (s.assoc a).member target gen count addr fun e =>
      ((List.range count).foldl (fun s k =>
        let l := addr / 64 + k
        s.dramWrite (e.frame + l / 64) (l % 64) (lines.getD k {})) s, .ok)
  else if s.role ≠ 5 then (s, .refuse 0x09 0)
  else s.regionChecks a target gen granule count addr fun r =>
    let g := granOf addr
    if !s.laneApplied a g tag then (s, .rnr)
    else
      let t := (List.range count).foldl (fun (acc : Option Dev) k =>
        acc.bind fun s => s.applyLine r (addr + k) (lines.getD k { st := .clean })) (some s)
      match t with
      | some t => ({ t with mirror := { t.mirror with div := t.mirror.div.del g } }, .ok)
      | none => (s, .rnr)

end Sys2Proof.Machine
end

