-- ==== Sys2Proof/Machine/MirrorTx.lean ====
section
/-! DEFINITION. MIR, the sender's side: what acknowledgements and refusals of records, fences and forwarded commands do,
leaving lockstep, the self-fence, and failed standby fetches (R308, R309, R313, R316, R323, R330). -/

namespace Sys2Proof.Machine

/-- Copy N of a granule is dropped, and its fill goes to F (R355). -/
def Dev.nFallback (s : Dev) (g : Nat) : Dev :=
  match s.fills.get? g with
  | none => s
  | some f =>
    if f.src ≠ .N ∨ f.data.isSome then s
    else
      let s := match f.loan with | some i => { s with lbm := s.lbm.del i } | none => s
      ((s.updFill g fun f => { f with src := .F, loan := none }).fillRead g).settle

/-- A fetch of the standby's copy fails: as an F read with no standby copy, and for a destage's merge as R201 Case A. -/
def Dev.standbyFailed (s : Dev) (g : Nat) : Dev :=
  let merge : Bool := match s.destages.get? g with | some d => d.standby | none => false
  let s := match s.fills.get? g with
    | some f => if f.src = FillSrc.standby ∧ f.data.isNone then s.flashFailed g else s
    | none => s
  (if merge then s.mergePoison g 7 else s).settle

/-- Fences over the lanes that every lane has acknowledged. -/
def LaneFence.done (f : LaneFence) : Bool := f.waiting.list.isEmpty

/-- Forward the command whose fences are acknowledged; the next one's fences follow (R311). -/
def Dev.fwdGo (s : Dev) : Dev :=
  match s.mirror.fwdQueue with
  | [] => s
  | w :: rest =>
    let s := { s with mirror := { s.mirror with fwdQueue := rest } }
    let r := s.sendFragments w.cmd
    let s := match r.2 with
      | some psn => { r.1 with mirror := { r.1.mirror with fwd := r.1.mirror.fwd.put psn w } }
      | none => r.1
    match rest with
    | n :: _ => s.fenceLanes (.command n.cmd)
    | [] => (List.range 16).foldl Dev.pumpLane s

/-- Fences complete once all their lanes have acknowledged (R311, R313). -/
def Dev.fencesDone (s : Dev) : Dev :=
  let go := s.mirror.fences.filter LaneFence.done
  let s := { s with mirror := { s.mirror with fences := s.mirror.fences.filter fun f => !f.done } }
  go.foldl (fun s f => match f.what with
    | .persist i => s.complete i cSuccess 0 0 0
    | .gpf H => s.send (.gpfDone H)
    | .command _ => s.fwdGo) s

/-- A FENCE of a lane is acknowledged. -/
def Dev.fenceAcked (s : Dev) (l psn : Nat) : Dev :=
  let f := fun (x : LaneFence) => if x.waiting.get? l = some psn then { x with waiting := x.waiting.del l } else x
  { s with mirror := { s.mirror with fences := s.mirror.fences.map f } }.fencesDone

/-- A round-trip sample on a lane, in ns (R85): HPn.TWIN_RTT_NS is the largest smoothed value since the pair last entered lockstep, rounded
up to 10 ns; a change of it changes the CDATs (R84). The smoothed value is held in whole ns, rounded up (DESIGN CHOICE, log entry
57). -/
def Dev.twinRtt (s : Dev) (ns : Nat) : Dev :=
  let v := match s.mirror.rtt with | none => ns | some r => (7 * r + ns + 7) / 8
  let up := (v + 9) / 10 * 10
  let old := s.get (Reg.HP.TWIN_RTT_NS.NS 0)
  let new := if s.mirror.rtt.isNone then min up 65535 else max old (min up 65535)
  let s : Dev := { s with mirror := { s.mirror with rtt := some v } }
  if new = old then s
  else ((List.range 4).foldl (fun s p => s.set (Reg.HP.TWIN_RTT_NS.NS p) new) s).cdatChanged

/-- A LANE_REC is acknowledged: its held completions are released (R313). -/
def Dev.laneAck (s : Dev) (l psn rtt : Nat) : Dev :=
  let x := s.lane l
  match x.pending.get? psn with
  | none => s
  | some recs =>
    let s := s.setLane l { x with pending := x.pending.del psn, advanced := s.clock }
    let s := recs.foldl (fun s r => match r.waiter with
      | some q => s.answerWrite q (latWrite r.ln.tagged + 1000 * rtt)
      | none => s) s
    (s.pumpLane l).pumpFetches

/-- A LANE_REC is refused: its records stay unacknowledged; a fenced device keeps only their divergence bits (R323). -/
def Dev.laneRefused (s : Dev) (l psn : Nat) : Dev :=
  let x := s.lane l
  match x.pending.get? psn with
  | none => s
  | some recs =>
    if s.role = 3 then (s.setLane l { x with pending := x.pending.del psn }).divergeAll recs
    else s.setLane l { x with pending := x.pending.del psn, refused := x.refused ++ recs }

/-- A forwarded command completes to its issuer: a ring, or an SPDM session with the completion code (R309, R373). -/
def Dev.fwdDone (s : Dev) (w : FwdWait) (status detail : Nat) : Dev :=
  let s := match w.spdm with | some n => s.send (.message n status [detail]) | none => s
  match w.issuer with | some i => s.complete i status detail w.result0 w.result1 | none => s

/-- A forwarded command is acknowledged (R309). -/
def Dev.cmdAcked (s : Dev) (psn : Nat) : Dev :=
  match s.mirror.fwd.get? psn with
  | none => s
  | some w =>
    let s := { s with mirror := { s.mirror with fwd := s.mirror.fwd.del psn } }
    s.fwdDone w cSuccess 0

/-- Undo a command that the standby refused for its key (R308). -/
def Dev.undo (s : Dev) : FwdCmd → Dev
  | .regionCreate n _ _ => match s.regions.get? n with
    | some r => (s.removeRegion n r).logRegion n []
    | none => s
  | .keyRotate k _ _ =>
    let m := s.slot k
    ((s.setSlot k ({ m with epoch := m.epoch - 1, cur := m.prev, prev := none, next := m.cur.map fun k => (m.epoch, k) } : MemSlot).checked).slotChanged k).sweepDrop k
  | _ => s

/-- A forwarded command is refused (R308, R309): undone for KEY_MISMATCH, kept otherwise with the pair detaching. -/
def Dev.cmdRefused (s : Dev) (psn code : Nat) : Dev :=
  match s.mirror.fwd.get? psn with
  | none => s
  | some w =>
    let s := { s with mirror := { s.mirror with fwd := s.mirror.fwd.del psn } }
    let s := s.raise (mirEv s 0x1F9 true s.role none code (s.assoc s.twin).member none none)
    let s := if code = 0x0C then s.undo w.cmd else s
    let s := s.fwdDone w cTwinRefused code
    if code = 0x0C then s else s.startDetach

/-- What waits for the standby ends without it (R45, R47 Case B, R48). -/
def Dev.endWaits (s : Dev) : Dev :=
  let fences := s.mirror.fences
  let cmds := s.mirror.fwdQueue ++ s.mirror.fwd.vals
  let s := { s with mirror := { s.mirror with fences := [], fwdQueue := [], fwd := .empty } }
  let s := fences.foldl (fun s f => match f.what with
    | .persist i => s.persistLocal i
    | .gpf H => let st := s.get Reg.HLD.STATUS.STATE
                (s.raise (s.hldPlain 0x1B8 st st)).send (.gpfDone H)
    | .command _ => s) s
  let s := cmds.foldl (fun s w => s.fwdDone w cSuccess 0) s
  -- fetches that still wait for the lanes cannot be made any more
  (s.fills.list.filter fun e => e.2.after.isSome).foldl (fun s e => s.standbyFailed e.1) s

/-- Unacknowledged records become divergence bits, and the lanes are emptied and closed (R316). -/
def Dev.dropLanes (s : Dev) : Dev := (s.divergeAll s.unacked).closeLanes

/-- The pair leaves lockstep (R316): on the GRANT to the DETACH. -/
def Dev.leaveLockstep (s : Dev) : Dev :=
  let un := s.unacked
  let s := s.raise (mirEv s 0x1F3 true s.role none 0 0 none none)
  let s := s.count Reg.MIR.DETACH_CTR.COUNT Reg.MIR.DETACH_CTR.SAT 1 (mirEv s 0x1FE false s.role none 0 0 none none)
  let s := s.dropLanes
  let s := (s.setPstate 1).setBit Reg.MIR.ROLE.DIV_VALID true
  let s := { s with mirror := { s.mirror with rtt := none } }
  let s := (s.releaseHeld un).endWaits
  let s := match s.mirror.detachIssuer with
    | some i => { s with mirror := { s.mirror with detachIssuer := none } }.complete i cSuccess 0 1 0
    | none => s
  match s.mirror.switchover with
  | some i => { s with mirror := { s.mirror with switchover := none } }.refuseCmd i cState 0
  | none => s

/-- The device fences itself (R323). -/
def Dev.fenceSelf (s : Dev) : Dev :=
  let m := { s.mirror with fencedAt := s.oclk, draining := true, discarded := false, switchover := none }
  let sw := s.mirror.switchover
  let s := (({ s with mirror := m }).setRole 3).engStopAll 4
  let s := s.count Reg.MIR.FENCE_CTR.COUNT Reg.MIR.FENCE_CTR.SAT 1 (mirEv s 0x1FE false 1 none 0 0 none none)
  let s := s.raise (mirEv s 0x1F1 true 1 none 0 0 none none)
  match sw with | some i => s.refuseCmd i cState 0 | none => s

/-- DRAIN has passed since the fence (R323): what remains is discarded. Its held completions are never sent. -/
def Dev.drainEnd (s : Dev) : Dev :=
  if s.role ≠ 3 ∨ !s.mirror.draining then s
  else
    let n := s.lagRecords
    let s := s.divergeAll s.unacked
    let m := { s.mirror with lanes := .empty, draining := false, discarded := decide (0 < n) }
    let s := { s with mirror := m }.endWaits
    if n = 0 then s
    else
      let s := s.count Reg.MIR.LANE_DISCARD.COUNT Reg.MIR.LANE_DISCARD.SAT n (mirEv s 0x1FE false s.role none 0 0 none none)
      s.raise (mirEv s 0x1F8 true s.role none 0 0 none none)

/-- A switchover's last record is acknowledged: RELEASE with DRAINED leaves (R330). -/
def Dev.switchCheck (s : Dev) : Dev :=
  if s.mirror.switchover.isSome ∧ s.lagRecords = 0 ∧ s.lockstep then
    let asked := s.mirror.requests.any fun r => r.2.subtype == 5
    if asked then s else s.leaseRequest 5 { subtype := 5, epoch := 0, rseq := 0, pairId := 0, drained := true }
  else s

/-- Another device holds the lease: DETACHED, with EV 0x1F5 (R323, R330, R331). -/
def Dev.detached (s : Dev) (epoch : Nat) : Dev :=
  let was := s.role
  let s := if was = 1 then s.engStopAll 4 else s
  let s := if (was = 1 ∨ was = 3) ∧ (s.pstate = 0 ∨ s.pstate = 2) then s.setBit Reg.MIR.ROLE.DIV_VALID true else s
  let s := if was = 1 ∨ was = 3 then s.dropLanes else s
  let s := if was = 2 then { s with mirror := { s.mirror with div := .empty } }.setBit Reg.MIR.ROLE.DIV_VALID true else s
  let sw := s.mirror.switchover
  let m := { s.mirror with leaseEnd := none, requests := [], draining := false, switchover := none, resyncStep := 0
                           tables := .empty, copies := .empty, keyWait := false }
  let s := (({ s with mirror := m }).setEpoch (max s.epoch epoch)).setRole 4
  let s := s.raise (mirEv s 0x1F5 true was none 0 0 none none)
  let s := s.endWaits
  match sw with | some i => s.complete i cSuccess 0 s.epoch 0 | none => s

end Sys2Proof.Machine
end

