-- ==== Sys2Proof/Machine/Lease.lean ====
section
/-! DEFINITION. The lease: the device's requests, grants and fences (R318–R331), and the referee (R321, R322). -/

namespace Sys2Proof.Machine

/-- Lease parameters in OCLK (R318). -/
def oLease : Nat := 5000000
def oRenew : Nat := 1250000
def oRetry : Nat := 250000
def oGuard : Nat := 625000
def oSkew : Nat := 125000
def oDrain : Nat := 500000
def oHoldWait : Nat := 1500000000

/-- A lease message without flags; `leaseRequest` fills in the rest. -/
def LeaseMsg.plain (subtype : Nat) : LeaseMsg := { subtype, epoch := 0, rseq := 0, pairId := 0 }

/-- Own member number. -/
def Dev.me (s : Dev) : Nat := s.get Reg.RND.CFG.MEMBER

/-- The pair enters lockstep (R332 step 5). -/
def Dev.enterLockstep (s : Dev) : Dev :=
  let s := s.setPstate 0
  let m := { s.mirror with resyncStep := 0, rtt := none, keyWait := false, div := .empty }
  let s := (({ s with mirror := m }).setBit Reg.MIR.ROLE.DIV_VALID false).set Reg.MIR.RSYNC_STS.PCT 100
  let s := s.raise (mirEv s 0x1F4 true s.role none 0 0 none none)
  (s.requestOn s.twin 0x20 2 0 0 true (.table [] true true) true true).1

/-- The device becomes ACTIVE at a new epoch (R326, R331). -/
def Dev.promote (s : Dev) (epoch sent : Nat) : Dev :=
  let before := s.role
  let m := { s.mirror with leaseEnd := some (sent + oLease), requests := [], lastRenew := s.oclk, resyncStep := 0, listed := [] }
  let s := ((({ s with mirror := m }).setEpoch epoch).setRole 1).setPstate 1
  let s := if before = 2 then s.setBit Reg.MIR.ROLE.DIV_VALID true else s
  (s.raise (mirEv s 0x1F0 true before none 0 0 none none)).restartSweeps

/-- A fence is lifted (R323): a pair in lockstep whose lanes are whole stays in lockstep; otherwise it detaches (log entry 36). -/
def Dev.unfence (s : Dev) (end_ : Nat) : Dev :=
  let m := { s.mirror with leaseEnd := some end_, draining := false }
  let s := ({ s with mirror := m }).setRole 1
  let s := (s.raise (mirEv s 0x1F2 true 3 none 0 0 none none)).restartSweeps
  if s.pstate = 3 then s.startDetach
  else if s.pstate = 2 ∨ (s.pstate = 0 ∧ s.mirror.discarded) then (s.setPstate 0).startDetach
  else s

/-- A GRANT that names this device (R316, R320, R323, R326, R332). -/
def Dev.granted (s : Dev) (sent : Nat) (req m : LeaseMsg) : Dev :=
  let end_ := sent + oLease
  if end_ ≤ s.oclk then s
  else if m.epoch = s.epoch then
    if s.role = 1 then
      let old := s.mirror.leaseEnd.getD 0
      let s := { s with mirror := { s.mirror with leaseEnd := some (max old end_) } }
      if req.subtype = 3 ∧ s.pstate = 2 then s.leaveLockstep
      else if req.subtype = 4 ∧ s.pstate = 3 ∧ s.mirror.resyncStep = 5 then s.enterLockstep
      else s
    else if s.role = 3 ∧ req.subtype = 1 ∧ s.mirror.fencedAt < sent then s.unfence end_
    else s
  else if s.epoch < m.epoch ∧ s.role ≠ 0 then s.promote m.epoch sent
  else s

/-- The referee's answer to a request of this device (R320–R323, R330, R331). -/
def Dev.leaseAnswer (s : Dev) (m : LeaseMsg) : Dev :=
  match s.mirror.requests.find? fun r => r.2.rseq == m.rseq with
  | none => s
  | some (sent, req) =>
    let left := s.mirror.requests.takeWhile fun r => r.2.rseq != m.rseq
    let s := { s with mirror := { s.mirror with requests := left } }
    let s := s.setBit Reg.MIR.ROLE.STBY_OK m.stbyOk
    let mine := m.holder == s.me
    let grant := m.subtype == 6
    let who := if req.force then s.mirror.forceIssuer else none
    let s := if who.isSome then { s with mirror := { s.mirror with forceIssuer := none } } else s
    let s :=
      if mine then
        if grant then s.granted sent req m
        else if s.role = 3 ∧ s.epoch < m.epoch then s.detached m.epoch else s
      else if m.reason = 4 then s
      else if s.role = 1 ∨ s.role = 2 ∨ s.role = 3 ∨ s.role = 6 then s.detached m.epoch
      else s.setEpoch (max s.epoch m.epoch)
    match who with
    | some i => if grant && mine then s.complete i cSuccess 0 s.epoch 0 else s.refuseCmd i cPeerRefused m.reason
    | none => s

/-- LEASE_RENEW_TIMER (R320, R321, R331): every RENEW interval. -/
def execLeaseRenewTimer (s : State) : Answer :=
  s.on fun s => (
    let s := s.at ((s.mirror.lastRenew + oRenew) * fclkOclk)
    let s := { s with mirror := { s.mirror with lastRenew := s.oclk } }
    if s.bit Reg.CKS.PLL_STS.HOLDOVER then s  -- R458 Case A
    else if s.role = 1 ∨ s.role = 3 then s.leaseRequest 1 (.plain 1)
    else if s.role = 2 then s.leaseRequest 2 { LeaseMsg.plain 2 with running := true }
    else if s.role = 6 ∧ s.imageOnline ∧ s.get Reg.NVH.IMG_STS.STATE < 6 then s.leaseRequest 2 { LeaseMsg.plain 2 with clean := s.mirror.clean }
    else s)

/-- LEASE_RETRY_TIMER (R320): the request last sent is unanswered RETRY later. A RUNNING ACQUIRE is not resent: the referee
holds it (R321). -/
def Dev.leaseRetry (s : Dev) : Dev :=
  match s.mirror.requests with
  | [] => s
  | (sent, m) :: _ =>
    if m.running then s
    else
      let s := s.at ((sent + oRetry) * fclkOclk)
      let s := if m.subtype = 1 then s.count Reg.MIR.RENEW_FAIL.COUNT Reg.MIR.RENEW_FAIL.SAT 1
          (mirEv s 0x1FE false s.role none 0 0 none none) else s
      s.leaseRequest m.subtype m
def execLeaseRetryTimer (s : State) : Answer := s.on fun s => s.leaseRetry

/-- LEASE_FENCE_POINT (R320, R323): lease end − GUARD without a further grant. -/
def Dev.fencePoint (s : Dev) : Dev :=
  match s.mirror.leaseEnd with
  | some e => if s.role = 1 then (s.at ((e - oGuard) * fclkOclk)).fenceSelf else s
  | none => s
def execLeaseFencePoint (s : State) : Answer := s.on fun s => s.fencePoint

/-- DRAIN_EXPIRY (R323). -/
def execDrainExpiry (s : State) : Answer :=
  s.on fun s => (if s.role = 3 ∧ s.mirror.draining then (s.at ((s.mirror.fencedAt + oDrain) * fclkOclk)).drainEnd else s)

/-- DETACH_TIMEOUT (R316): a lane with records pending whose acknowledgement has not advanced for DETACH_MS. -/
def execDetachTimeout (lane : Nat) (s : State) : Answer :=
  s.on fun s => (
    let x := s.lane lane
    if s.lockstep && decide (lane < 16) && (!x.pending.list.isEmpty || !x.refused.isEmpty || !x.queue.isEmpty) then
      (s.at (x.advanced + s.get Reg.MIR.DETACH.DETACH_MS * fclkMs)).startDetach
    else s)

/-- MIRROR_CTL DETACH (R316, R403). -/
def execMirrorCtlDetach (i : Issuer) (s : State) : Answer :=
  s.on fun s => (s.ringCmd i 0x28 0 0xFFFF [] fun s =>
    if !i.isM then s.refuseCmd i cNotPermitted 0
    else if !s.lockstep then s.refuseCmd i cState 0
    else ({ s with mirror := { s.mirror with detachIssuer := some i } }).startDetach)

/-- LEASE_CTL SWITCHOVER (R330): admission closes; RELEASE leaves once every record is acknowledged. -/
def execLeaseCtlSwitchover (i : Issuer) (s : State) : Answer :=
  s.on fun s => (s.ringCmd i 0x29 0 0xFFFF [] fun s =>
    if !i.isM then s.refuseCmd i cNotPermitted 0
    else if !s.lockstep then s.refuseCmd i cState 0
    else if s.mirror.switchover.isSome then s.refuseCmd i cBusy 0
    else ({ s with mirror := { s.mirror with switchover := some i } }).switchCheck)

/-- LEASE_CTL FORCE_ACQUIRE (R330). -/
def execLeaseCtlForceAcquire (i : Issuer) (s : State) : Answer :=
  s.on fun s => (s.ringCmd i 0x29 0 0xFFFF [] fun s =>
    if !i.isM then s.refuseCmd i cNotPermitted 0
    else if s.role ≤ 1 then s.refuseCmd i cState 0
    else if s.mirror.forceIssuer.isSome then s.refuseCmd i cBusy 0
    else
      let s := s.raise (mirEv s 0x1FD true s.role none 0 0 none none)
      ({ s with mirror := { s.mirror with forceIssuer := some i } }).leaseRequest 2 { LeaseMsg.plain 2 with force := true })

/-- A lease body whose tag fails (R379, R387). -/
def Dev.leaseTagFailed (s : Dev) : Dev :=
  (s.count Reg.KSL.SIG_FAIL.COUNT Reg.KSL.SIG_FAIL.SAT 1 (kslPlain 0xE 0xFFFF)).raise (kslEv 2 0 0 0xFFFF 1 0 0xFFFF 0)

/-- REF_SEND (R406): the host referee's answer and its tag, read at PTR; `none` = the read failed. -/
def execRefSend (i : Issuer) (ptr : Nat) (answer : Option (LeaseMsg × Nat)) (s : State) : Answer :=
  s.on fun s => (s.ringCmd i 0x29 1 0xFFFF [] fun s =>
    if ptr % 4 ≠ 0 then s.refuseCmd i cInvalidField 8
    else match answer with
    | none => s.completeAt i cDma 0 0 0 ptr
    | some (m, tag) => match s.island.store.refKey with
      | some key => if tag = m.tag key 0 then let s := s.leaseAnswer m; s.complete i cSuccess 0 s.epoch 0
        else s.leaseTagFailed.refuseCmd i cSignature 0
      | none => s.leaseTagFailed.refuseCmd i cSignature 0)

/-- REF_RECV (R406): its buffer waits for a lease message; `ok` = the write to it will succeed. -/
def execRefRecv (i : Issuer) (ptr : Nat) (ok : Bool) (s : State) : Answer :=
  s.on fun s => (s.ringCmd i 0x29 1 0xFFFF [] fun s =>
    if ptr % 4 ≠ 0 then s.refuseCmd i cInvalidField 8 else { s with refRecv := s.refRecv ++ [(i, ptr, ok)] })

/-- The refereed pair of a pair identity. -/
def Dev.refSlot (s : Dev) (pairId : Nat) : Option (Nat × RefPair) :=
  s.refPairs.list.find? fun e => e.2.en && e.2.pairId == pairId

/-- Member of a twin index, and the index of a member. -/
def RefPair.member (p : RefPair) (w : Nat) : Nat := if w = 0 then p.memberA else p.memberB
def RefPair.twin (p : RefPair) (m : Nat) : Option Nat := if m = p.memberA then some 0 else if m = p.memberB then some 1 else none

/-- END + GUARD + SKEW (R321). -/
def RefPair.lapse (p : RefPair) : Nat := p.end_ + oGuard + oSkew

/-- The answer to a message: GRANT 6 or DENY 7 with its reason. -/
def RefPair.answer (p : RefPair) (m : LeaseMsg) (subtype reason : Nat) : LeaseMsg :=
  { subtype, epoch := p.epoch, rseq := m.rseq, pairId := p.pairId, stbyOk := p.stbyOk, reason, holder := p.member p.holder }

/-- Send an answer to a member (R319). -/
def Dev.refSend (s : Dev) (member : Nat) (m : LeaseMsg) : Dev :=
  match s.assocOf member with
  | some a => (s.requestOn a 0x0F 0 0 2 false (.lease m) false false).1
  | none => s
def Dev.refSendAll (s : Dev) (l : List (Nat × LeaseMsg)) : Dev := l.foldl (fun s x => s.refSend x.1 x.2) s

/-- When a held ACQUIRE of twin `w` may be granted (R321): `none` = its row is none of the table's. -/
def RefPair.when (p : RefPair) (w : Nat) (m : LeaseMsg) : Option Nat :=
  if m.force then some p.lapse
  else if m.running && w != p.holder && p.stbyOk then some p.lapse
  else if m.clean && w == p.holder then some p.lapse
  else if m.clean && p.stbyOk then some (p.lapse + oHoldWait)
  else none

/-- Held ACQUIREs whose rows have become impossible are denied (R321). -/
def RefPair.prune (p : RefPair) (reason : Nat) : RefPair × List (Nat × LeaseMsg) :=
  let ok := fun (x : Nat × LeaseMsg) => match p.twin x.1 with | some w => (p.when w x.2).isSome | none => false
  ({ p with held := p.held.filter ok }, (p.held.filter fun x => !ok x).map fun x => (x.1, p.answer x.2 7 reason))

/-- Write the state log, with the answers that the record covers (R322). -/
def RefPair.log (p : RefPair) (slot : Nat) (answers : List (Nat × LeaseMsg)) : RefPair :=
  let r : RefLog := { slot, pairId := p.pairId, epoch := p.epoch, holder := p.holder, stbyOk := p.stbyOk, seq := 0 }
  { p with waiting := p.waiting ++ [(r, answers)] }

/-- Answers behind a record that is still being programmed: none shows a change before the log holds it (R322). -/
def RefPair.behind (p : RefPair) (answers : List (Nat × LeaseMsg)) : RefPair :=
  { p with waiting := p.waiting.dropLast ++ (p.waiting.getLast?.toList.map fun x => (x.1, x.2 ++ answers)) }

/-- Grant a new epoch to twin `w` (R321, R322): EV 0x1FC; `also` hears of it with the same record. -/
def Dev.refGrant (s : Dev) (k : Nat) (p : RefPair) (w : Nat) (m : LeaseMsg) (also : List (Nat × LeaseMsg)) : Dev :=
  let p := { p with epoch := p.epoch + 1, holder := w, stbyOk := false, end_ := s.oclk + oLease
                    held := p.held.filter fun x => x.1 != p.member w }
  let q := p.prune 3
  let others := also.map fun x => (x.1, q.1.answer x.2 6 0)
  let p := q.1.log k ((p.member w, q.1.answer m 6 0) :: others ++ q.2)
  let s := { s with refPairs := s.refPairs.put k p }
  s.raise (mirEv (s.setEpoch p.epoch) 0x1FC true s.role none 0 (p.member w) none none)

/-- Grant the first held ACQUIRE whose time has come. -/
def Dev.refTry (s : Dev) (k : Nat) : Dev :=
  match s.refPairs.get? k with
  | none => s
  | some p =>
    let due := fun (x : Nat × LeaseMsg) => match p.twin x.1 with
      | some w => match p.when w x.2 with | some t => decide (t ≤ s.oclk) | none => false
      | none => false
    match p.held.find? due with
    | some x => match p.twin x.1 with | some w => s.refGrant k p w x.2 [] | none => s
    | none => s

/-- RENEW, DETACH or ATTACH at the referee (R321): granted to the HOLDER before END. -/
def Dev.refRenew (s : Dev) (k : Nat) (p : RefPair) (w src : Nat) (m : LeaseMsg) (stby : Bool) : Dev :=
  if m.epoch = p.epoch ∧ w = p.holder ∧ s.oclk < p.end_ then
    let changed := p.stbyOk != stby
    -- a held ACQUIRE of the holder itself is impossible once it renews
    let own := fun (x : Nat × LeaseMsg) => x.1 == src && !x.2.force
    let dead := p.held.filter own
    let p := { p with end_ := s.oclk + oLease, stbyOk := stby, held := p.held.filter fun x => !own x }
    let q := p.prune 3
    let answers := (src, q.1.answer m 6 0) :: (dead.map fun x => (x.1, q.1.answer x.2 7 1)) ++ q.2
    if changed then { s with refPairs := s.refPairs.put k (q.1.log k answers) }
    else if q.1.waiting = [] then ({ s with refPairs := s.refPairs.put k q.1 }).refSendAll answers
    else { s with refPairs := s.refPairs.put k (q.1.behind answers) }
  else s.refSend src (p.answer m 7 2)

/-- A lease message at the referee (R321). -/
def Dev.referee (s : Dev) (src : Nat) (m : LeaseMsg) : Dev :=
  match s.refSlot m.pairId with
  | none => s
  | some (k, p) =>
    match p.twin src with
    | none => s.refSend src (p.answer m 7 4)
    | some w =>
      if m.subtype = 1 then s.refRenew k p w src m p.stbyOk
      else if m.subtype = 3 then s.refRenew k p w src m false
      else if m.subtype = 4 then s.refRenew k p w src m true
      else if m.subtype = 5 then
        if w ≠ p.holder then s.refSend src (p.answer m 7 2)
        else match (if m.drained ∧ p.stbyOk then p.held.find? fun x => x.1 != src && x.2.running else none) with
          | some x => s.refGrant k p (1 - w) x.2 [(src, m)]
          | none => ({ s with refPairs := s.refPairs.put k { p with end_ := s.oclk } }).refTry k
      else if m.subtype = 2 then
        match p.when w m with
        | none => s.refSend src (p.answer m 7 3)
        | some _ =>
          let p := { p with held := (p.held.filter fun x => x.1 != src) ++ [(src, m)] }
          ({ s with refPairs := s.refPairs.put k p }).refTry k
      else s

/-- REFEREE_LAPSE of a slot (R321): a held ACQUIRE is answered with a grant of E + 1. -/
def execRefereeLapse (slot : Nat) (s : State) : Answer :=
  s.on fun s => (match s.refPairs.get? slot with
    | some p => if p.en ∧ !p.held.isEmpty then (s.at (p.lapse * fclkOclk)).refTry slot else s
    | none => s)

/-- REFEREE_HOLD_WAIT of a slot (R321): a CLEAN ACQUIRE of the other twin is granted. -/
def execRefereeHoldWait (slot : Nat) (s : State) : Answer :=
  s.on fun s => (match s.refPairs.get? slot with
    | some p => if p.en ∧ !p.held.isEmpty then (s.at ((p.lapse + oHoldWait) * fclkOclk)).refTry slot else s
    | none => s)

/-- REFEREE_LOG_RECORD_PROGRAMMED of a slot (R322): the oldest record is in the log, and the answers it covers are sent. -/
def execRefereeLogRecordProgrammed (slot : Nat) (s : State) : Answer :=
  s.on fun s => (match s.refPairs.get? slot with
    | none => s
    | some p => match p.waiting with
      | [] => s
      | (r, answers) :: rest =>
        let seq := s.refLog.foldl (fun m x => max m (x.seq + 1)) 0
        let keep := s.refLog.filter fun x => x.slot != slot
        ({ s with refPairs := s.refPairs.put slot { p with waiting := rest }
                  refLog := keep ++ [({ r with seq } : RefLog).sealed (s.internalKey 1)] }).refSendAll answers)

end Sys2Proof.Machine
end

