-- ==== Sys2Proof/Machine/Resync.lean ====
section
/-! DEFINITION. Resync: the table, the divergence runs, the copies and the join (R332, R333). -/

namespace Sys2Proof.Machine

/-- CID of the resync connection (R332). -/
def resyncCid : Nat := 0x20

/-- Cut a list into pieces of `n`, at least one piece; `fuel` bounds the pieces. -/
def pieces {α : Type} (n : Nat) : Nat → List α → List (List α)
  | 0, l => [l]
  | fuel + 1, l => if l.length ≤ n then [l] else l.take n :: pieces n fuel (l.drop n)

/-- Send a stream of messages, the last one marked: it executes after every earlier one (R272 Case B). The answer lists
their PSNs. -/
def Dev.sendStream (s : Dev) (l : List (Bool → Payload)) : Dev × List Nat :=
  let n := l.length
  let r := l.foldl (fun (acc : Dev × List Nat × Nat) f =>
    let last := acc.2.2 + 1 == n
    let q := acc.1.requestOn acc.1.twin resyncCid 2 0 0 true (f last) last last
    (q.1, match q.2 with | some p => p :: acc.2.1 | none => acc.2.1, acc.2.2 + 1)) (s, [], 0)
  (r.1, r.2.1)

/-- The region table as TABLE messages (R332 step 1). -/
def Dev.tableMessages (s : Dev) : List (Bool → Payload) :=
  let entries := s.regions.list.map fun e =>
    ({ region := e.1, r := { e.2 with attached := [], viaShare := [] }
       epoch := match e.2.slot with | some k => (s.slot k).epoch.toNat | none => 0
       fingerprint := s.regionFingerprint e.2 } : TableEntry)
  (pieces (min 256 ((s.packetRoom - 4) / 32)) entries.length entries).map fun l => fun last => .table l last false

/-- Start resync (R332): EV 0x1F6, pair state RESYNC, and the table. -/
def Dev.startResync (s : Dev) : Dev :=
  let s := s.raise (mirEv s 0x1F6 true s.role none 0 0 none none)
  let m := { s.mirror with resyncStep := 1, copies := .empty, copied := 0, total := 0, keyWait := false }
  let s := ({ s with mirror := m }).setPstate 3
  let r := s.sendStream s.tableMessages
  let tables : Tab Unit := r.2.foldl (fun t p => t.put p ()) .empty
  { r.1 with mirror := { r.1.mirror with tables } }

/-- An active in SOLO whose twin's association is UP can resync. -/
def Dev.resyncReady (s : Dev) : Bool := s.role == 1 && s.pstate == 1 && s.assocUp s.twin

/-- MIRROR_CTL RESYNC (R332, R403): completes once resync has started. -/
def execMirrorCtlResync (i : Issuer) (s : State) : Answer :=
  s.on fun s => (s.ringCmd i 0x28 0 0xFFFF [] fun s =>
    if !i.isM then s.refuseCmd i cNotPermitted 0
    else if !s.resyncReady then s.refuseCmd i cState 0
    else s.startResync.complete i cSuccess 0 3 0)

/-- RESYNC_START: by itself while AUTO_RESYNC is 1 (R332). -/
def execResyncStart (s : State) : Answer :=
  s.on fun s => (if s.resyncReady && s.bit Reg.MIR.CFG.AUTO_RESYNC then s.startResync else s)

/-- Granules of mirrored regions whose ever-written bit is 1 (R332 step 2). -/
def Dev.everWritten (s : Dev) : List Nat :=
  let mir := fun (g : Nat) => match s.regionAt g with | some (_, r) => r.mirror | none => false
  let listed := (s.fm.list.filter fun e => e.2.ew && mir e.1).map (·.1)
  let lost := s.lostMaps.keys.flatMap fun n => match s.regions.get? n with
    | some r => if r.mirror then ((List.range (r.size * 512)).map fun i => r.base * 512 + i).filter fun g =>
        !s.fm.has g && (s.fme g).ew else []
    | none => []
  listed ++ lost

/-- Add granules to the divergence bits. -/
def Dev.divergeList (s : Dev) (l : List Nat) : Dev := l.foldl Dev.diverge s

/-- Runs of consecutive granules in a rising list: first granule and length. -/
def runsOf : List Nat → List (Nat × Nat)
  | [] => []
  | g :: r => match runsOf r with
    | (h, n) :: t => if h = g + 1 then (g, n + 1) :: t else (g, 1) :: (h, n) :: t
    | [] => [(g, 1)]

/-- The joining device sends its divergence runs (R332 step 2). -/
def Dev.sendRuns (s : Dev) : Dev :=
  let bits : Tab Unit := if s.bit Reg.MIR.ROLE.DIV_VALID then s.mirror.div
    else s.everWritten.foldl (fun t g => t.put g ()) .empty
  let l := runsOf bits.keys
  (s.sendStream ((pieces (min 1024 ((s.packetRoom - 4) / 8)) l.length l).map fun r => fun last => .divrun r last)).1

/-- A table entry's key is missing or another: the region waits for its key (R332 step 1). -/
def Dev.keyMissing (s : Dev) (e : TableEntry) : Bool := e.r.mirror && !s.keyMatches e.r e.fingerprint

/-- An entry changes the joining device's table: what the table holds at its number is another region, or none. -/
def Dev.entryDiffers (s : Dev) (e : TableEntry) : Bool :=
  match s.regions.get? e.region with
  | none => true
  | some r => r.gen != e.r.gen || r.base != e.r.base || r.size != e.r.size || r.tenant != e.r.tenant || r.slot != e.r.slot ||
      r.twin != e.r.twin || r.mirror != e.r.mirror || r.policy != e.r.policy || r.home != !e.r.home || r.draining != e.r.draining

/-- Make one entry of the table equal to the active's (R332): a region of the same generation keeps its contents. -/
def Dev.setEntry (s : Dev) (e : TableEntry) : Dev :=
  let new := { e.r with home := !e.r.home, attached := [], viaShare := [] }
  match s.regions.get? e.region with
  | none => s.enterRegion e.region new
  | some r =>
    if r.gen = e.r.gen ∧ r.base = e.r.base ∧ r.size = e.r.size ∧ r.slot = e.r.slot then
      s.enterRegion e.region { new with attached := r.attached, viaShare := r.viaShare }
    else (s.removeRegion e.region r).enterRegion e.region new

/-- Write the records of changed regions; the last one acknowledges the message (R332). -/
def Dev.logChanges (s : Dev) (l : List Nat) (after : AfterLog) : Dev :=
  let n := l.length
  (l.foldl (fun (acc : Dev × Nat) k => (acc.1.logRegion k (if acc.2 + 1 = n then [after] else []), acc.2 + 1)) (s, 0)).1

/-- The joining device becomes a STANDBY (R332 step 5). -/
def Dev.joined (s : Dev) : Dev :=
  let m := { s.mirror with div := .empty, lastRenew := s.oclk - oRenew }
  let s := (({ s with mirror := m }).setRole 2).setBit Reg.MIR.ROLE.DIV_VALID false
  s.raise (mirEv s 0x1F4 true 5 none 0 0 none none)

/-- A TABLE message at a DETACHED or JOINING device (R332 step 1). -/
def Dev.rxTable (s : Dev) (a psn : Nat) (entries : List TableEntry) (last joined : Bool) : Dev × RxResult :=
  if a ≠ s.twin ∨ !(s.role = 4 ∨ s.role = 5) then (s, .refuse 0x09 0)
  else if joined then (if s.role = 5 then s.joined else s, .ok)
  else
    let s := if s.role = 4 then ({ s with mirror := { s.mirror with listed := [] } }).setRole 5 else s
    match entries.find? s.keyMissing with
    | some e =>
      if s.mirror.keyWait then (s, .rnr)
      else ((({ s with mirror := { s.mirror with keyWait := true } }).requestOn a resyncCid 2 0 0 true (.keyWait e.region) false false).1, .rnr)
    | none =>
      let listed := s.mirror.listed ++ entries.map (·.region)
      let changed := (entries.filter s.entryDiffers).map (·.region)
      let gone := if last then s.regions.keys.filter fun n => !listed.contains n else []
      let busy := (changed ++ gone).any fun n => match s.regions.get? n with | some r => s.wipeBusy r | none => false
      if busy then (s, .rnr)
      else
        let s := (entries.filter s.entryDiffers).foldl Dev.setEntry s
        let s := gone.foldl (fun s n => match s.regions.get? n with | some r => s.removeRegion n r | none => s) s
        let s := s.logChanges (changed ++ gone) (.ackCmd a resyncCid psn)
        let s := { s with mirror := { s.mirror with listed := if last then [] else listed, keyWait := false } }
        (if last then s.sendRuns else s, if (changed ++ gone).isEmpty then .ok else .later)

/-- A TABLE message is acknowledged: the resync no longer waits for keys; after the last one, step 2 (R332). -/
def Dev.tableAcked (s : Dev) (psn : Nat) : Dev :=
  if !s.mirror.tables.has psn then s
  else
    let t := s.mirror.tables.del psn
    let s := { s with mirror := { s.mirror with tables := t } }.setBit Reg.MIR.RSYNC_STS.KEY_WAIT false
    if t.list.isEmpty ∧ s.mirror.resyncStep = 1 then { s with mirror := { s.mirror with resyncStep := 2 } } else s

/-- A wait for keys begins (R332, R333): EV 0x1F7. -/
def Dev.startKeyWait (s : Dev) (region gran : Option Nat) : Dev :=
  if s.bit Reg.MIR.RSYNC_STS.KEY_WAIT then s
  else (s.setBit Reg.MIR.RSYNC_STS.KEY_WAIT true).raise (mirEv s 0x1F7 true s.role none 0 0 gran region)

/-- KEY_WAIT from the joining device. -/
def Dev.rxKeyWait (s : Dev) (a region : Nat) : Dev × RxResult :=
  if a ≠ s.twin ∨ s.role ≠ 1 ∨ s.pstate ≠ 3 then (s, .refuse 0x09 0)
  else (s.startKeyWait (some region) none, .ok)

/-- Copy progress (R334). -/
def Dev.copyShow (s : Dev) : Dev :=
  let t := s.mirror.total
  s.set Reg.MIR.RSYNC_STS.PCT (if t = 0 then 100 else min 100 (100 * s.mirror.copied / t))

/-- When no bit remains, ATTACH leaves (R332 step 5). -/
def Dev.joinCheck (s : Dev) : Dev :=
  if s.pstate = 3 ∧ s.mirror.resyncStep = 4 ∧ s.mirror.div.list.isEmpty ∧ s.mirror.copies.list.isEmpty then
    ({ s with mirror := { s.mirror with resyncStep := 5 } }).leaseRequest 4 (.plain 4)
  else s

/-- Divergence runs at the active: their union with its own bits; the last one starts live forwarding (R332 steps 2, 3). -/
def Dev.rxDivrun (s : Dev) (a : Nat) (runs : List (Nat × Nat)) (last : Bool) : Dev × RxResult :=
  if a ≠ s.twin ∨ s.role ≠ 1 ∨ s.pstate ≠ 3 ∨ 2 < s.mirror.resyncStep then (s, .refuse 0x09 0)
  else
    let s := runs.foldl (fun s r => s.divergeList ((List.range r.2).map fun i => r.1 + i)) s
    if !last then (s, .ok)
    else
      let full := !s.bit Reg.MIR.ROLE.DIV_VALID
      let s := if full then s.divergeList s.everWritten else s
      let s := s.setBit Reg.MIR.RSYNC_STS.FULL full
      let m := { s.mirror with lanes := .empty, resyncStep := 4, total := s.mirror.div.size, copied := 0 }
      (({ s with mirror := m }).copyShow.joinCheck, .ok)

/-- What stands in the way of a granule's copy (R333). -/
inductive CopyNeed | ready | fill | key | gone
  deriving DecidableEq, Repr
def Dev.copyNeed (s : Dev) (g : Nat) : CopyNeed :=
  match s.regionAt g with
  | none => .gone
  | some (_, r) =>
    if !r.mirror then .gone
    else if s.fills.has g then .fill
    else
      let open_ := (List.range 64).any fun k => match s.stateOf (g * 64 + k) with | none => true | some st => st == .absent
      if (s.fme g).ew then (if (s.twinLines r (g * 64) 64).isNone then .fill else .ready)
      else if open_ && r.enc && !s.keyed r then .key else .ready

/-- Send the copy of a granule (R165, R333): a snapshot of its lines, with the last PSN sent on its lane. -/
def Dev.copyGran (s : Dev) (g : Nat) : Dev :=
  match s.regionAt g with
  | none => s
  | some (n, r) =>
    let l := laneOf g
    let s := (s.linesRead (g * 64) 64 false).sealRun r (g * 64) 64
    let s := s.packAll l ((s.lane l).queue.length + 1)
    match s.conn s.twin (laneCid l), s.twinLines r (g * 64) 64 with
    | some c, some lines =>
      let snap := (c.nextPsn + 2 ^ 32 - 1) % 2 ^ 32
      let q := s.requestOn s.twin resyncCid 2 0 0 true (.write false n r.gen true 64 (g * 64) snap lines) false false
      (match q.2 with
       | some psn => { q.1 with mirror := { q.1.mirror with copies := q.1.mirror.copies.put psn g } }
       | none => q.1)
    | none, _ => s.openConn s.twin (laneCid l) 1 l 1 false
    | _, none => s

/-- RESYNC_COPY_STEP (R333): one granule whose bit is set and that nothing holds back; the order among them is free. -/
def Dev.copyStep (s : Dev) : Dev :=
  if s.role ≠ 1 ∨ s.pstate ≠ 3 ∨ s.mirror.resyncStep ≠ 4 ∨ s.get Reg.MIR.RESYNC.RATE = 0 then s
  else
    let s := s.at s.mirror.copyAt
    let left := s.mirror.div.keys.filter fun g => !s.mirror.copies.vals.contains g
    let gone := left.filter fun g => s.copyNeed g == .gone
    let s := { s with mirror := { s.mirror with div := s.mirror.div.filter fun g _ => !gone.contains g } }
    let waits := left.filter fun g => s.copyNeed g == .key
    let s := match waits with
      | g :: _ => s.startKeyWait none (some g)
      | [] => s.setBit Reg.MIR.RSYNC_STS.KEY_WAIT false
    let able := left.filter fun g => s.copyNeed g == .ready || (s.copyNeed g == .fill && !s.fills.has g)
    match able with
    | [] => s.joinCheck
    | _ =>
      let (i, s) := s.choose able.length
      let g := able.getD i 0
      if s.copyNeed g = .fill then (s.requestFill g .background [] []).1
      else
        let next := s.clock + ceilDiv fclkMs (s.get Reg.MIR.RESYNC.RATE)
        ({ s with mirror := { s.mirror with copyAt := next } } : Dev).copyGran g
def execResyncCopyStep (s : State) : Answer := s.on fun s => s.copyStep

/-- A copy is acknowledged: its bit clears on this side too, and the writes it held go on (R332 step 4, R333). -/
def Dev.copyAcked (s : Dev) (psn : Nat) : Dev :=
  match s.mirror.copies.get? psn with
  | none => s
  | some g =>
    let m := { s.mirror with copies := s.mirror.copies.del psn, div := s.mirror.div.del g, copied := s.mirror.copied + 1 }
    ({ s with mirror := m }).copyShow.settle.joinCheck

end Sys2Proof.Machine
end

