-- ==== Sys2Proof/Machine/Round.lean ====
section
/-! DEFINITION. RND: the token and the ring (R337–R343), casting on and off (R345–R347), time (R344), loans (R348–R353) and
the neighbour budget (R354, R355). -/

namespace Sys2Proof.Machine

/-- CID of token and membership messages (R339). -/
def tokenCid : Nat := 0x0E

def Dev.rndState (s : Dev) : Nat := s.get Reg.RND.STS.STATE
def Dev.setRnd (s : Dev) (r : Round) : Dev := { s with round := r }
/-- Change STS.STATE. -/
def Dev.setRndState (s : Dev) (v : Nat) : Dev := s.set Reg.RND.STS.STATE v

/-- ROUND_EPOCH. -/
def Dev.roundEpoch (s : Dev) : Nat := s.wide Reg.RND.EPOCH_LO.EPOCH Reg.RND.EPOCH_HI.EPOCH

/-- Members of a mask, ascending; the leader is the lowest (R337). -/
def membersOf (m : Nat) : List Nat := setBits 32 m
def Dev.ringMask (s : Dev) : Nat := s.get Reg.RND.RING.MEMBERS
def Dev.leader (s : Dev) : Option Nat := (membersOf s.ringMask).head?

/-- Members after `m` in ring order, wrapping, `m` itself last (R337). -/
def afterIn (m : Nat) (l : List Nat) : List Nat := (l.filter (m < ·)) ++ (l.filter (· ≤ m))

/-- A member's association is UP. -/
def Dev.memberUp (s : Dev) (m : Nat) : Bool := (s.lenderUp m).isSome

/-- One-way time to a member in ns; 0 if not measured (R345). -/
def Dev.onewayOf (s : Dev) (m : Nat) : Nat :=
  match s.assocOf m with | some a => (s.assoc a).oneway.getD 0 | none => 0

/-- An RND event about a member. -/
def Dev.rndRaise (s : Dev) (id member hops reason info : Nat) : Dev :=
  s.raise (rndEv s id member s.rndState hops reason 0 0 info true)

/-- Show a ring (R356): MEMBERS, COUNT and LEADER. -/
def Dev.showRing (s : Dev) (m : Nat) : Dev :=
  let l := membersOf m
  ((s.set Reg.RND.RING.MEMBERS m).set Reg.RND.STS.COUNT l.length).set Reg.RND.STS.LEADER (l.head?.getD 0)

/-- A member of the ring leaves it or is found gone: its loans go as with a lost association (R347, R352). -/
def Dev.loseMember (s : Dev) (m : Nat) : Dev := s.dropLender m true

/-- This device is no longer in the ring: so is every lender of its loans (R352). -/
def Dev.loseRing (s : Dev) : Dev := (List.range 32).foldl Dev.loseMember s

/-- Apply a committed membership (R341): events, own state, and what a cast-on or cast-off waited for. -/
def Dev.applyRing (s : Dev) (t : Token) : Dev :=
  let old := s.ringMask
  let before := s.rndState
  let s := (s.showRing t.members).setWide Reg.RND.EPOCH_LO.EPOCH Reg.RND.EPOCH_HI.EPOCH t.epoch
  let added := (membersOf t.members).filter fun m => !old.testBit m && m != s.me
  let removed := (membersOf old).filter fun m => !t.members.testBit m && m != s.me
  let s := if before = 2 ∨ before = 3 then added.foldl (fun s m => s.rndRaise 0x201 m t.hops 0 0) s else s
  let s := removed.foldl (fun s m => (s.rndRaise 0x202 m t.hops 0 0).loseMember m) s
  if t.members.testBit s.me then
    if before = 1 ∨ before = 0 ∨ before = 4 then
      let s := s.setRndState 2
      let s := s.raise (rndEv s 0x200 255 before t.hops 0 0 0 0 true)
      match s.round.joining with
      | some i => (s.setRnd { s.round with joining := none }).complete i cSuccess 0 t.epoch 0
      | none => s
    else s
  else if before = 2 ∨ before = 3 then
    let s := s.setRndState 0
    let s := (s.raise (rndEv s 0x202 s.me before t.hops 0 0 0 0 true)).loseRing
    match s.round.leaving with
    | some i => (s.setRnd { s.round with leaving := none }).complete i cSuccess 0 t.epoch 0
    | none => s
  else s

/-- Commit a change as leader (R341). -/
def Token.commit (t : Token) : Token :=
  let m := (t.members ||| t.add) - ((t.members ||| t.add) &&& t.remove)
  { t with epoch := t.epoch + 1, members := m, add := 0, remove := 0 }

/-- A late circuit has stopped every cast-on (R338): the leader takes proposed members out of the token and keeps them for a
token after 8 circuits within budget. -/
def Dev.holdAdds (s : Dev) (t : Token) : Dev × Token :=
  if s.round.stopped then
    ({ s with round := { s.round with add := s.round.add ||| t.add } }, { t with add := 0 })
  else (s, t)

/-- A circuit has ended (R338). -/
def Dev.circuitEnd (s : Dev) : Dev :=
  match s.round.sentAt with
  | none => s
  | some t =>
    let us := ceilDiv (s.clock - t) fclkUs
    let l := (us :: s.round.circuits).take 8
    let s := (s.set Reg.RND.CIRCUIT.LAST (min us 65535)).set Reg.RND.CIRCUIT.MAX (min (l.foldl max 0) 65535)
    let r := { s.round with sentAt := none, circuits := l }
    if s.get Reg.RND.BUDGET.ROUND_US * fclkUs < s.clock - t then
      let s := (s.setRnd { r with stopped := true, goodCircuits := 0 }).count
        Reg.RND.CIRC_LATE.COUNT Reg.RND.CIRC_LATE.SAT 1 (s.rndPlain 0x20E 255)
      s.rndRaise 0x204 255 0 0 us
    else s.setRnd { r with goodCircuits := r.goodCircuits + 1, stopped := r.stopped && decide (r.goodCircuits + 1 < 8) }

/-- Send a token to the first member of a list whose association is UP; those passed over get their REMOVE bit (R340). The
answer's token is the one that returns at once because nobody else is there. -/
def Dev.tokenTo (s : Dev) (t : Token) : List Nat → Dev × Option Token
  | [] => (s, some t)
  | m :: rest =>
    if m = s.me then (s, some t)
    else match s.lenderUp m with
      | none => s.tokenTo { t with remove := t.remove ||| 2 ^ m } rest
      | some a =>
        let q := s.requestOn a tokenCid 0 0 2 false (.token t) true false
        match q.2 with
        | some psn => (q.1.setRnd { q.1.round with forwarded := some (m, a, psn, t, s.clock) }, none)
        | none => (q.1, none)

/-- Members of a committed change that this member's own forwarding must still tell: a removed successor (log entry 37). -/
def Dev.tellRemoved (s : Dev) (old : Nat) (t : Token) : Dev :=
  let succ := (afterIn s.me (membersOf old)).takeWhile fun m => !t.members.testBit m && m != s.me
  succ.foldl (fun s m => match s.lenderUp m with
    | some a => (s.requestOn a tokenCid 0 0 2 false (.token t) false false).1
    | none => s) s

/-- Own changes ride on a token that this member sends (R345, R347). -/
def Dev.withOwn (s : Dev) (t : Token) : Dev × Token :=
  let add := if s.round.stopped then 0 else s.round.add
  let t := { t with add := t.add ||| add, remove := t.remove ||| s.round.remove }
  (s.setRnd { s.round with add := s.round.add - add, remove := 0 }, t)

/-- Stamp the pair entry and the time as the token passes (R340). A paired ACTIVE or SINGLE device without an entry takes a free
one (log entry 37). -/
def Dev.stampToken (s : Dev) (t : Token) : Token :=
  let pid := s.get Reg.MIR.PAIR_ID.ID
  let mine := decide (s.role ≤ 1)
  let e : PairEntry := { pairId := pid, member := s.me, epoch := s.epoch }
  let pairs := if !mine then t.pairs
    else match t.pairs.list.find? fun x => x.2.pairId == pid with
      | some (k, x) => if x.epoch ≤ s.epoch then t.pairs.put k e else t.pairs
      | none => if s.bit Reg.MIR.CFG.PAIRED ∧ t.pairs.firstFree < 16 then t.pairs.put t.pairs.firstFree e else t.pairs
  let t := { t with pairs }
  if s.get Reg.RND.TIMEREF.REF_MEMBER = s.me then { t with refTime := s.calNow, refStamped := true } else t

/-- Send a token on from this member in ring order. A token with nobody else to go to has made its circuit at once. -/
def Dev.sendToken (s : Dev) (t : Token) : Dev :=
  let r := s.tokenTo t (afterIn s.me (membersOf t.members))
  match r.2 with
  | none => r.1
  | some t =>
    -- alone: the circuit ends here, and a change commits at once
    let (s, t) := r.1.circuitEnd.holdAdds t
    if t.add = 0 ∧ t.remove = 0 then s.setRnd { s.round with last := some t, lastAt := s.clock }
    else
      let c := t.commit
      let s := s.applyRing c
      let s := s.setRnd { s.round with last := some c, lastAt := s.clock }
      (s.tokenTo c (afterIn s.me (membersOf c.members))).1

/-- The leader, or a member that takes its place, sends a token of its own (R339, R342). -/
def Dev.originate (s : Dev) (epoch remove : Nat) : Dev :=
  let t : Token := { epoch, seq := s.round.seq + 1, origin := s.me, minVer := s.get Reg.RND.VER.MIN_VER
                     members := s.ringMask, remove, digest := s.round.digest
                     pairs := match s.round.last with | some l => l.pairs | none => .empty }
  let r := s.withOwn (s.stampToken t)
  (r.1.setRnd { r.1.round with seq := t.seq, sentAt := some s.clock, last := some r.2, lastAt := s.clock }).sendToken r.2

/-- TOKEN_PERIOD_TIMER (R339). -/
def execTokenPeriodTimer (s : State) : Answer :=
  s.on fun s => (if (s.rndState = 2 ∨ s.rndState = 3) ∧ s.leader = some s.me then s.originate s.roundEpoch 0 else s)

/-- A pair's state in the token disputes this device's (R343). -/
def Dev.tokenDispute (s : Dev) (t : Token) : Dev :=
  let pid := s.get Reg.MIR.PAIR_ID.ID
  match t.pairs.list.find? fun x => x.2.pairId == pid && x.2.member != s.me && decide (s.epoch < x.2.epoch) with
  | some e => if s.bit Reg.MIR.CFG.PAIRED && (s.role == 1 || s.role == 3) then
      (s.leaseRequest 1 (.plain 1)).rndRaise 0x207 e.2.member t.hops 0 0
    else s
  | none => s

/-- Compare calendar time with a stamped token (R344): `hopNs` = the one-way times of the hops since the stamp. OFS_US is rounded away
from zero, so that it shows more than 50,000 exactly above 50 ms (log entry 65). -/
def Dev.tokenTime (s : Dev) (t : Token) (hopNs : Nat) : Dev :=
  if !t.refStamped ∨ s.get Reg.RND.TIMEREF.REF_MEMBER = s.me then s
  else
    let ofs : Int := (s.calNow : Int) - (t.refTime + hopNs : Nat)
    let us : Int := (if 0 ≤ ofs then 1 else -1) * (ceilDiv ofs.natAbs 1000 : Nat)
    let cks := { s.cks with slew := -ofs, rewrite := true }
    let s := { s with cks }.set Reg.RND.TIME_OFS.OFS_US ((us % 2 ^ 32).toNat)
    if 50000000 < ofs.natAbs then s.rndRaise 0x206 255 t.hops 0 us.natAbs else s

/-- A token arrives (R340, R341). -/
def Dev.rxToken (s : Dev) (t : Token) (hopNs : Nat) : Dev :=
  if s.rndState = 0 ∨ (s.rndState = 4 ∧ !t.members.testBit s.me) then s
  else if t.digest ≠ s.round.digest then
    (s.count Reg.RND.REFUSE_CTR.COUNT Reg.RND.REFUSE_CTR.SAT 1 (s.rndPlain 0x20E 255)).rndRaise 0x203 t.origin t.hops 2 0
  else
    let stale := match s.round.last with
      | some l => decide (t.epoch < l.epoch) ||
          (t.epoch == l.epoch && l.origin < t.origin && s.clock < s.round.lastAt + s.get Reg.RND.TOKEN.PERIOD_MS * fclkMs)
      | none => false
    if stale then s
    else
      let old := s.ringMask
      let s := s.applyRing t
      let s := s.setRnd { s.round with last := some t, lastAt := s.clock, minVer := t.minVer }
      let s := (s.tokenDispute t).tokenTime t hopNs
      if s.rndState ≠ 2 ∧ s.rndState ≠ 3 then s
      else if t.origin = s.me ∧ t.seq = s.round.seq then
        -- the circuit has ended; a change commits, and the next token leaves at once
        let (s, t) := s.circuitEnd.holdAdds t
        let change := t.add ≠ 0 ∨ t.remove ≠ 0
        if change then
          let c := t.commit
          let s := s.applyRing c
          if s.rndState ≠ 2 ∧ s.rndState ≠ 3 then (s.setRnd { s.round with last := some c }).tellRemoved old c |>.sendToken c
          else
            let s := s.setRnd { s.round with seq := t.seq + 1, sentAt := some s.clock, last := some c, lastAt := s.clock }
            let r := s.withOwn (s.stampToken { c with seq := t.seq + 1, hops := 0, origin := s.me })
            (r.1.tellRemoved old c).sendToken r.2
        else if (s.round.add ≠ 0 ∧ !s.round.stopped) ∨ s.round.remove ≠ 0 then s.originate s.roundEpoch 0
        else s
      else
        let r := s.withOwn (s.stampToken { t with hops := t.hops + 1 })
        (r.1.tellRemoved old t).sendToken r.2

/-- TOKEN_FORWARD_TIMEOUT (R340): the successor is passed over. -/
def execTokenForwardTimeout (s : State) : Answer :=
  s.on fun s => (match s.round.forwarded with
    | none => s
    | some (m, _, _, t, at_) =>
      let s := s.at (at_ + s.get Reg.RND.BUDGET.ROUND_US * fclkUs / 4)
      let s := s.setRnd { s.round with forwarded := none }
      let rest := ((afterIn s.me (membersOf t.members)).dropWhile (· != m)).drop 1
      (s.tokenTo { t with remove := t.remove ||| 2 ^ m } rest).1)

/-- The token's send is acknowledged. -/
def Dev.tokenAcked (s : Dev) (a psn : Nat) : Dev :=
  match s.round.forwarded with
  | some (_, b, p, _, _) => if a = b ∧ psn = p then s.setRnd { s.round with forwarded := none } else s
  | none => s

/-- LEADER_LOST_TIMEOUT (R342). -/
def Dev.leaderLost (s : Dev) : Dev :=
  let due := s.round.lastAt + 3 * s.get Reg.RND.TOKEN.PERIOD_MS * fclkMs + s.get Reg.RND.BUDGET.ROUND_US * fclkUs
  match s.leader with
  | none => s
  | some l =>
    let lowest := (membersOf s.ringMask).find? fun m => m == s.me || s.memberUp m
    if (s.rndState = 2 ∨ s.rndState = 3) ∧ l ≠ s.me ∧ lowest = some s.me then
      let s := (s.at due).rndRaise 0x205 l 0 0 0
      let e := match s.round.last with | some t => t.epoch | none => s.roundEpoch
      s.originate (e + 1) (2 ^ l)
    else s
def execLeaderLostTimeout (s : State) : Answer := s.on fun s => s.leaderLost

/-- The member a candidate asks to sponsor it: its predecessor among the members whose associations are UP (R345). -/
def Dev.sponsor (s : Dev) : Option Nat :=
  let up := (membersOf s.round.permitted).filter fun m => m != s.me && s.memberUp m
  ((up.filter (· < s.me)).getLast?).orElse fun _ => up.getLast?

/-- Start a cast-on (R345); a device that reaches no other member is a ring of its own (log entry 37). -/
def Dev.castOn (s : Dev) (who : Option Issuer) : Dev :=
  let s := s.setRnd { s.round with joining := who }
  match s.sponsor with
  | none =>
    let s := s.setRndState 1
    let t : Token := { epoch := s.roundEpoch + 1, seq := s.round.seq, origin := s.me, minVer := s.get Reg.RND.VER.MIN_VER
                       members := 2 ^ s.me, digest := s.round.digest }
    let s := s.applyRing t
    s.setRnd { s.round with last := some t, lastAt := s.clock }
  | some p =>
    let up := (membersOf s.round.permitted).filter fun m => m != s.me && s.memberUp m
    let succ := ((up.filter (s.me < ·)).head?.orElse fun _ => up.head?).getD p
    let j : JoinMsg := { member := s.me, version := s.get Reg.RND.VER.PROTO, digest := s.round.digest, time := s.calNow
                         pairId := s.get Reg.MIR.PAIR_ID.ID, role := s.role, leaseEpoch := s.epoch
                         onewayPred := s.onewayOf p, onewaySucc := s.onewayOf succ }
    match s.lenderUp p with
    | some a => (s.requestOn a tokenCid 0 0 2 false (.join j) false false).1
    | none => s

/-- ROUND_CTL JOIN (R345, R403). -/
def execRoundCtlJoin (i : Issuer) (s : State) : Answer :=
  s.on fun s => (s.ringCmd i 0x2A 0 s.me [] fun s =>
    if !i.isM then s.refuseCmd i cNotPermitted 0
    else if (s.rndState ≠ 0 ∧ s.rndState ≠ 4) ∨ s.round.joining.isSome then s.refuseCmd i cState 0
    else s.castOn (some i))

/-- ROUND_ENABLE_WRITE (R345): CFG.ENABLE is set. -/
def Dev.roundEnable (s : Dev) : Dev :=
  let s := s.setBit Reg.RND.CFG.ENABLE true
  if s.rndState = 0 ∧ s.round.joining.isNone then s.castOn none else s
def execRoundEnableWrite (s : State) : Answer := s.on fun s => (if s.bit Reg.RND.LOCK.LOCK then s.discard 0x800000 1 else s.roundEnable)

/-- The first check of *Cast-on checks* that a JOIN fails (R345); 0 = none. -/
def Dev.joinReason (s : Dev) (j : JoinMsg) : Nat :=
  let l := membersOf s.ringMask
  let dt : Int := (j.time : Int) + (s.onewayOf j.member : Nat) - (s.calNow : Nat)
  let twinHigher := (match s.round.last with | some t => t.pairs.vals | none => []).any fun e =>
    e.pairId == j.pairId && e.member != j.member && decide (j.leaseEpoch < e.epoch)
  let succ := (afterIn s.me l).head?.getD s.me
  let circuit := s.get Reg.RND.CIRCUIT.MAX * 1000 + s.onewayOf j.member + j.onewaySucc + 4000 - s.onewayOf succ
  if !s.round.permitted.testBit j.member then 8
  else if s.ringMask.testBit j.member then 7
  else if 32 ≤ l.length then 6
  else if j.version < s.round.minVer then 1
  else if j.digest ≠ s.round.digest then 2
  else if 50000000 < dt.natAbs then 3
  else if (j.role = 1 ∨ j.role = 3) ∧ twinHigher then 4
  else if s.get Reg.RND.BUDGET.ROUND_US * 1000 < circuit ∨ s.round.stopped then 5
  else 0

/-- A JOIN reaches its sponsor (R345, R346). -/
def Dev.rxJoin (s : Dev) (a : Nat) (j : JoinMsg) : Dev :=
  if s.rndState ≠ 2 then s
  else
    let r := s.joinReason j
    let dt : Int := (j.time : Int) + (s.onewayOf j.member : Nat) - (s.calNow : Nat)
    let s := if r = 0 then
        let s := s.setRnd { s.round with add := s.round.add ||| 2 ^ j.member }
        if dt = 0 then s else s.rndRaise 0x206 j.member 0 0 (dt.natAbs / 1000)
      else (s.count Reg.RND.REFUSE_CTR.COUNT Reg.RND.REFUSE_CTR.SAT 1 (s.rndPlain 0x20E 255)).rndRaise 0x203 j.member 0 r 0
    (s.requestOn a tokenCid 0 0 2 false (.joinRsp j.member r) false false).1

/-- A JOIN_RSP reaches the candidate (R345, R346). -/
def Dev.rxJoinRsp (s : Dev) (src member reason : Nat) : Dev :=
  if member ≠ s.me ∨ (s.rndState ≠ 0 ∧ s.rndState ≠ 4) then s
  else if reason = 0 then s.setRndState 1
  else
    let before := s.rndState
    let s := (s.setRndState 4).set Reg.RND.STS.REASON reason
    let s := s.raise (rndEv s 0x203 src before 0 reason 0 0 0 true)
    let s := if reason = 4 ∧ (s.role = 1 ∨ s.role = 3) then s.leaseRequest 1 (.plain 1) else s
    match s.round.joining with
    | some i => (s.setRnd { s.round with joining := none }).refuseCmd i cPeerRefused reason
    | none => s

/-- Runs that a device could lend now: wholly FREE, of frames that exist on every channel (R348, R349); none when a channel is lost, for
every run spans it. -/
def Dev.freeRuns (s : Dev) : List Nat :=
  if s.bit Reg.TMG.STS.DEGRADED then [] else
  let c := s.chanCount
  let per := s.populated.foldl (fun m n => min m (s.framesOf n)) (2 ^ 40)
  let total := if c = 0 then 0 else per * c
  ((List.range (total / 16384)).map (· * 16384)).filter fun r =>
    !(s.lentRuns.contains r) && !(s.rm.list.any fun e => decide (r ≤ e.1) && decide (e.1 < r + 16384) && e.2.fstate != .free)

/-- Own calendar offset is above 50 ms: it neither asks for a loan nor lends one (R344, R350). -/
def Dev.timeOff (s : Dev) : Bool :=
  let v := s.get Reg.RND.TIME_OFS.OFS_US
  let a := if 2 ^ 31 ≤ v then 2 ^ 32 - v else v
  decide (50000 < a)

/-- This device may lend at all (R349, R350): LEND_EN, in the ring, neither FENCED nor WAITING, its time within 50 ms. -/
def Dev.mayLend (s : Dev) : Bool :=
  s.bit Reg.RND.CFG.LEND_EN && s.rndState == 2 && s.role != 3 && s.role != 6 && !s.timeOff

/-- AVAIL: loans that the lender could grant now (R349, R350). -/
def Dev.avail (s : Dev) : Nat :=
  if !s.mayLend then 0
  else min (min s.freeRuns.length ((s.freeFrames - s.get Reg.RND.LEND.KEEP_FRAMES) / 16384))
    (min ((s.lFrames - (s.qsumL + 4096)) / 16384) (32768 - s.lentRuns.length))

/-- OFFER to every member of the ring when AVAIL has changed, at most once per 100 ms (R350). -/
def Dev.offerCheck (s : Dev) : Dev :=
  let n := min s.avail 65535
  let last := s.round.offered
  let changed := match last with | some x => x.1 != n | none => n != 0
  let early := match last with | some x => decide (s.clock < x.2 + 100 * fclkMs) | none => false
  if !changed || early || s.rndState != 2 then s
  else
    let s := s.setRnd { s.round with offered := some (n, s.clock) }
    ((membersOf s.ringMask).filter (· != s.me)).foldl (fun s m => s.sendLoan m { subtype := 1, avail := n }) s

/-- LOAN_OFFER_TIMER (R350): the 100 ms of the last OFFER end. -/
def execLoanOfferTimer (s : State) : Answer :=
  s.on fun s => (match s.round.offered with | some x => (s.at (x.2 + 100 * fclkMs)).offerCheck | none => s.offerCheck)

/-- Why a REQUEST is refused (R350); 0 = it is granted. -/
def Dev.loanReason (s : Dev) (m : Nat) : Nat :=
  if !s.ringMask.testBit m then 3
  else if !s.mayLend ∨ s.freeRuns.isEmpty then 1
  else if s.freeFrames < s.get Reg.RND.LEND.KEEP_FRAMES + 16384 ∨ s.lFrames < s.qsumL + 4096 + 16384 then 2
  else if 32768 ≤ s.lentRuns.length then 4
  else 0

/-- The lowest FREE entry of the lend table. -/
def Dev.freeLoan (s : Dev) : Nat :=
  (s.round.lend.filter fun _ e => e.member.isSome).firstFree

/-- A lender receives REQUEST (R350): GRANT, with EV 0x208, or REFUSE. -/
def Dev.rxLoanRequest (s : Dev) (m rseq : Nat) : Dev :=
  let r := s.loanReason m
  if r ≠ 0 then s.sendLoan m { subtype := 4, reason := r, rseq }
  else
    let runs := s.freeRuns
    let (i, s) := s.choose runs.length
    let id := s.freeLoan
    let e := s.lendOf id
    let s := s.setRnd { s.round with grants := s.round.grants + 1
                                     lend := s.round.lend.put id { gen := e.gen, member := some m, frame := runs.getD i 0, order := s.round.grants } }
    let s := s.sendLoan m { subtype := 3, loan := id, gen := e.gen, rseq }
    let s := s.raise (rndEv s 0x208 m s.rndState 0 0 id e.gen 0 true)
    (s.overcommit true).offerCheck

/-- Free loan slots of a borrower. -/
def Dev.freeLoanSlots (s : Dev) : Nat := s.round.borrow.size * 16384 - s.lbm.size

/-- Members that may lend (R344, R350, R354). -/
def Dev.eligible (s : Dev) (m : Nat) : Bool :=
  s.ringMask.testBit m && m != s.me && !s.round.slow.has m && s.memberUp m && decide (1 ≤ s.round.avail.getD m 0)

/-- The eligible lender with the lowest one-way time. -/
def Dev.nearest (s : Dev) : Option Nat :=
  ((membersOf s.ringMask).filter s.eligible).foldl (fun b m => match b with
    | none => some m
    | some x => if s.onewayOf m < s.onewayOf x then some m else some x) none

/-- A borrower short of free loan slots asks for a loan (R350). -/
def Dev.wantLoan (s : Dev) : Dev :=
  if s.bit Reg.TMG.CFG.N_EN ∧ s.rndState = 2 ∧ s.freeLoanSlots < s.get Reg.RND.BORROW_SPARE.SLOTS ∧
      s.round.borrow.size < s.get Reg.RND.BORROW.MAX_LOANS ∧ s.round.requests.list.isEmpty ∧ !s.timeOff then
    match s.nearest with
    | none => s
    | some m =>
      let q := s.round.rseq + 1
      (s.setRnd { s.round with rseq := q, requests := s.round.requests.put (q % 2 ^ 32) m }).sendLoan m { subtype := 2, rseq := q % 2 ^ 32 }
  else s

/-- The borrow-table key of a loan of a lender. -/
def Dev.borrowKey (s : Dev) (m loan gen : Nat) : Option Nat :=
  (s.round.borrow.list.find? fun e => e.1 / 1024 == m && e.2.loan == loan && e.2.gen == gen).map (·.1)

/-- A loan message of a member (R350–R353). -/
def Dev.rxLoan (s : Dev) (m : Nat) (g : LoanMsg) : Dev :=
  match g.subtype with
  | 1 => (s.setRnd { s.round with avail := s.round.avail.put m g.avail }).wantLoan
  | 2 => s.rxLoanRequest m g.rseq
  | 3 =>
    if s.round.requests.get? g.rseq ≠ some m then s
    else
      let s := s.setRnd { s.round with requests := s.round.requests.del g.rseq }
      match (List.range 1024).find? fun b => !s.round.borrow.has (m * 1024 + b) with
      | none => s
      | some b =>
        let x : Borrow := { loan := g.loan, gen := g.gen, idleSince := some s.clock }
        let s := s.setRnd { s.round with borrow := s.round.borrow.put (m * 1024 + b) x }
        (s.raise (rndEv s 0x209 m s.rndState 0 0 g.loan g.gen 0 true)).wantLoan
  | 4 => s.setRnd { s.round with requests := s.round.requests.del g.rseq, avail := s.round.avail.del m }
  | 5 => match s.borrowKey m g.loan g.gen with | some k => (s.dropLoan k).wantLoan | none => s
  | 6 =>
    let e := s.lendOf g.loan
    if e.member = some m ∧ e.gen = g.gen then (s.reclaimLoan g.loan false).offerCheck else s
  | _ => s

/-- LOAN_RECLAIM (R351): FREE has fallen below KEEP_FRAMES, and the most recently granted loan is reclaimed. -/
def execLoanReclaim (s : State) : Answer :=
  s.on fun s => (if s.freeFrames < s.get Reg.RND.LEND.KEEP_FRAMES then
      match s.reclaimAny with | some s => (s.overcommit false).settle | none => s
    else s)

/-- LOAN_CTL RECLAIM (R351, R403). -/
def execLoanCtlReclaim (i : Issuer) (member loan : Nat) (s : State) : Answer :=
  s.on fun s => (s.ringCmd i 0x2B 0 loan [] fun s =>
    if !i.isM then s.refuseCmd i cNotPermitted 0
    else if 31 < member ∨ 32767 < loan then s.refuseCmd i cInvalidField (if 31 < member then 21 else 22)
    else if (s.lendOf loan).member ≠ some member then s.refuseCmd i cState 0
    else (((s.reclaimLoan loan true).overcommit false).settle.offerCheck).complete i cSuccess 0 0 0)

/-- A borrower returns a loan (R353). -/
def Dev.returnLoan (s : Dev) (key : Nat) : Dev :=
  match s.round.borrow.get? key with
  | none => s
  | some b => (s.dropLoan key).sendLoan (key / 1024) { subtype := 6, loan := b.loan, gen := b.gen }

/-- LOAN_CTL RETURN (R353, R403). -/
def execLoanCtlReturn (i : Issuer) (member loan : Nat) (s : State) : Answer :=
  s.on fun s => (s.ringCmd i 0x2B 0 loan [] fun s =>
    if !i.isM then s.refuseCmd i cNotPermitted 0
    else if 31 < member ∨ 32767 < loan then s.refuseCmd i cInvalidField (if 31 < member then 21 else 22)
    else match s.round.borrow.list.find? fun e => e.1 / 1024 == member && e.2.loan == loan with
      | none => s.refuseCmd i cState 0
      | some e => (s.returnLoan e.1).complete i cSuccess 0 0 0)

/-- No slot of a borrowed loan is in use. -/
def Dev.loanIdle (s : Dev) (key : Nat) : Bool :=
  !(s.lbm.list.any fun e => e.2.member == key / 1024 && e.2.lslot / 16384 == key % 1024)

/-- LOAN_IDLE_RETURN of a borrow entry (R353). -/
def execLoanIdleReturn (key : Nat) (s : State) : Answer :=
  s.on fun s => (match s.round.borrow.get? key with
    | some { idleSince := some t, .. } =>
      let n := s.get Reg.RND.BORROW.IDLE_S
      if n ≠ 0 ∧ s.loanIdle key then (s.at (t + n * fclkS)).returnLoan key else s
    | _ => s)

/-- ROUND_CTL LEAVE (R347). -/
def execRoundCtlLeave (i : Issuer) (s : State) : Answer :=
  s.on fun s => (s.ringCmd i 0x2A 0 s.me [] fun s =>
    if !i.isM then s.refuseCmd i cNotPermitted 0
    else if s.get Reg.RND.TIMEREF.REF_MEMBER = s.me ∨ s.refPairs.vals.any (·.en) then s.refuseCmd i cInvalidField 20
    else if s.rndState ≠ 2 then s.refuseCmd i cState 0
    else
      let s := s.reclaimAll
      let s := s.round.borrow.keys.foldl Dev.returnLoan s
      let s := s.setRndState 3
      ((s.setRnd { s.round with leaving := some i, remove := s.round.remove ||| 2 ^ s.me }).overcommit false).settle)

/-- A window's judgement (R354): windows over budget count up, windows within it down. -/
def windowStep (above : Bool) (w : Int) : Int := if above then max w 0 + 1 else min w 0 - 1

/-- Judge one lender's window. -/
def Dev.judgeLender (s : Dev) (a m : Nat) : Dev :=
  let x := s.assoc a
  match x.worst with
  | none => s
  | some ns =>
    let w := windowStep (decide (s.get Reg.RND.BUDGET.N_US * 1000 < ns)) (s.round.windows.getD m 0)
    let s := s.setAssoc a { x with worst := none }
    let s := s.setRnd { s.round with windows := s.round.windows.put m w }
    if 8 ≤ w ∧ !s.round.slow.has m then
      (s.setRnd { s.round with slow := s.round.slow.put m () }).rndRaise 0x20C m 0 0 0
    else if w ≤ -8 then s.setRnd { s.round with slow := s.round.slow.del m } else s

/-- NEIGHBOUR_WINDOW_TICK (R354): every 1 ms. Idle loans are timed from the tick that finds them idle (log entry 37). -/
def execNeighbourWindowTick (s : State) : Answer :=
  s.on fun s => (
    let s := s.assocs.list.foldl (fun s e => if s.round.borrow.keys.any fun k => k / 1024 == e.2.member then
      s.judgeLender e.1 e.2.member else s) s
    let b := s.round.borrow.map fun k x => { x with idleSince := if s.loanIdle k then some (x.idleSince.getD s.clock) else none }
    (s.setRnd { s.round with borrow := b }).wantLoan)

/-- N_FILL_TIMEOUT of a granule (R355). -/
def execNFillTimeout (gran : Nat) (s : State) : Answer :=
  s.on fun s => (match s.fills.get? gran with
    | none => s
    | some f =>
      if f.src = .N ∧ f.data.isNone ∧ f.frame.isSome then
        let s := s.at (f.readAt + s.get Reg.RND.N_TMO.N_TIMEOUT_US * fclkUs)
        let s := s.count Reg.RND.N_TIMEOUT.COUNT Reg.RND.N_TIMEOUT.SAT 1 (s.rndPlain 0x20E 255)
        (s.raiseFirst (s.rndPlain 0x20D 255)).nFallback gran
      else s)

end Sys2Proof.Machine
end

