-- ==== Sys2Proof/Machine/Receive.lean ====
section
/-! DEFINITION. TWT and CCC, the receiver's side: associations and their keys (R274–R277), opening and closing (R278, R279),
the receive cases (R284–R292), acknowledgements, refusals and retransmission (R273, R283, R290, R291), rate control (R299)
and refills (R282). -/

namespace Sys2Proof.Machine

/-- The association of a packet, from its SRC_MEMBER (R278). -/
def Dev.rxAssoc (s : Dev) (src : Nat) : Option Nat := (s.assocs.list.find? fun e => e.2.member == src).map (·.1)

/-- A frame is dropped as malformed, filtered or beyond a window. -/
def Dev.rxDrop (s : Dev) : Dev := s.count Reg.TWT.RX_DROP.COUNT Reg.TWT.RX_DROP.SAT 1 (Ev.plain 0x1DC)

/-- "NX9620 LINK". -/
def linkCustom : List Nat := [78, 88, 57, 54, 50, 48, 32, 76, 73, 78, 75]

/-- The secret that an association is keyed from (R274). -/
def Dev.linkSecret (s : Dev) (a : Nat) : BitVec 256 :=
  ((if (s.assoc a).byRound then s.island.store.secret5 else s.island.store.secret4).getD 0)

/-- The 72 bytes of R276 from the nonces and identities of initiator and responder. -/
def linkBytes (secret : BitVec 256) (nInit nResp idInit idResp aepoch : Nat) : List Nat :=
  kmac256 (bytesOf 32 secret.toNat) (bytesOf 32 nInit ++ bytesOf 32 nResp ++ bytesOf 32 idInit ++ bytesOf 32 idResp ++ bytesOf 2 aepoch) 576
    linkCustom

/-- Install the keys of a phase in the association's link slots (R274, R276, R277), from this end's nonce and the peer's. -/
def Dev.installKeys (s : Dev) (a : Nat) (phase : Bool) (own peer : Nat) : Dev :=
  let x := s.assoc a
  let id := s.island.deviceHash
  let pid := (s.round.idHashes.get? x.member).getD 0
  let b := if x.initiator then linkBytes (s.linkSecret a) own peer id pid x.aepoch else linkBytes (s.linkSecret a) peer own pid id x.aepoch
  let toResp : LinkSlot := { key := BitVec.ofNat 256 (numOf (b.take 32)), salt := BitVec.ofNat 32 (numOf ((b.drop 64).take 4)), dir := 0 }
  let toInit : LinkSlot := { key := BitVec.ofNat 256 (numOf ((b.drop 32).take 32)), salt := BitVec.ofNat 32 (numOf ((b.drop 68).take 4)), dir := 0 }
  let tx := if x.initiator then toResp else toInit
  let rx := if x.initiator then toInit else toResp
  { s with island := { s.island with
      links := (s.island.links.put (linkSlot a phase true) { tx with dir := 1 }).put (linkSlot a phase false) rx } }
def Dev.dropKeys (s : Dev) (a : Nat) (phase : Bool) : Dev :=
  { s with island := { s.island with links := (s.island.links.del (linkSlot a phase true)).del (linkSlot a phase false) } }

/-- The state of an association whose phase-0 keys have just been derived (R276), from this end's nonce and the peer's; `first` = this end
is the initiator. -/
def Dev.keyed0 (s : Dev) (a aepoch : Nat) (first byRound : Bool) (own peer : Nat) : Dev :=
  let x := s.assoc a
  let y := { x with state := 1, kph := false, aepoch, storedEpoch := aepoch, phase0 := true, phase1 := false, initiator := first, byRound, nonce := none
                    rekeySent := none, rekeyGot := none, retire := none, txSeq := 0, rxHigh := .empty, rxSeen := .empty
                    lastRx := s.clock, lastTx := s.clock }
  ((s.setAssoc a y).dropKeys a true).installKeys a false own peer

/-- Send HELLO or HELLO_RSP: not sealed, no TXSEQ of a key (R269). -/
def Dev.sendHello (s : Dev) (a : Nat) (p : Payload) : Dev :=
  match s.portOf a 0 with
  | some port => s.send (.packet a 0 0 (s.txHdr { assoc := a, cid := 0, psn := 0, payload := p, flags := {}, prio := 2 } port) p)
  | none => s

/-- The MAC of a HELLO or HELLO_RSP of this end, over the base header that it leaves with (R275). -/
def Dev.helloMacTx (s : Dev) (a aepoch secret : Nat) (p : Payload) : Nat :=
  let x := s.assoc a
  helloMac (s.internalKey (if secret = 0 then 4 else 5)) (tbhBytes false false false false p.opcode 0 0 (p.body 0).length 0 (s.clock / 2 % 2 ^ 32) 0
    (s.get Reg.RND.CFG.MEMBER) x.member aepoch (match x.conns.get? 0 with | some c => c.una | none => 0)) p

/-- The MAC of a received one verifies under the secret that it names. -/
def Dev.helloOk (s : Dev) (h : RxHdr) (secret mac : Nat) (p : Payload) : Bool :=
  mac == helloMac (s.internalKey (if secret = 0 then 4 else 5)) (s.rxTbh h p) p

/-- The secret of HELLO's SECRET byte is installed. -/
def Dev.secretHeld (s : Dev) (secret : Nat) : Bool :=
  if secret = 0 then s.island.store.secret4.isSome else if secret = 1 then s.island.store.secret5.isSome else false

/-- ASSOCIATION_OPEN (R275, R301): only while DOWN. -/
def Dev.assocOpen (s : Dev) (a : Nat) : Dev :=
  let x := s.assoc a
  if 48 ≤ a ∨ x.state ≠ 0 then s
  else
    let (n, s) := s.random
    let e := (x.storedEpoch + 1) % 65536
    let s := s.setAssoc a { x with state := 1, nonce := some n, aepoch := e, phase0 := false, phase1 := false, lastRx := s.clock }
    let k := if x.secret then 1 else 0
    s.sendHello a (.hello n s.island.deviceHash k e (s.helloMacTx a e k (.hello n s.island.deviceHash k e 0)))
def execAssociationOpen (assoc : Nat) (s : State) : Answer := s.on fun s => (s.assocOpen assoc)

/-- An identity hash is that of a permitted member (R275, R336). -/
def Dev.permittedId (s : Dev) (m idHash : Nat) : Bool :=
  s.round.permitted.testBit m && s.round.idHashes.get? m == some idHash

/-- What a request's issuing block does when it is refused with a NAK code, or fails with its connection (code 0) (R201,
R273, R279, R355). -/
def Dev.refusedReq (s : Dev) (a cid psn : Nat) (p : Payload) (code : Nat) : Dev :=
  let m := (s.assoc a).member
  let _ := cid
  match p with
  | .read true loan gen _ _ _ tag =>
    let s := if code = 0 then s else s.count Reg.TMG.N_NAK.COUNT Reg.TMG.N_NAK.SAT 1 (tmgPlain 0x17D)
    let s := if code = 0x08 then match s.borrowKey m loan gen with | some k => s.dropLoan k | none => s else s
    s.nFallback tag
  | .read false _ _ _ _ _ tag => s.standbyFailed tag
  | .write true loan gen _ _ _ _ _ =>
    let s := match s.staged.list.find? fun e => e.2.assoc == a && e.2.psn == psn with
      | some e => s.demotionNak e.1
      | none => s
    if code = 0x08 then match s.borrowKey m loan gen with | some k => s.dropLoan k | none => s else s
  | .write false .. => if s.mirror.copies.has psn then s.startDetach else s
  | .laneRec l _ => s.laneRefused l psn
  | .cmdFwd _ last _ => if last && code != 0 then s.cmdRefused psn code else s
  | .table .. => if s.role = 1 ∧ s.pstate = 3 then s.startDetach else s
  | .divrun .. => s
  | .keyWait _ => s
  | _ => s

/-- A connection enters ERROR (R279): EV 0x1D4, and its requests end with a connection error. A lane in ERROR starts
DETACHING (R316). -/
def Dev.connError (s : Dev) (a cid code psn : Nat) : Dev :=
  match s.conn a cid with
  | none => s
  | some c =>
    if c.state = 2 then s
    else
      let out := c.inOrder
      let s := s.setConn a cid { c with state := 2, opening := false, sent := .empty, una := c.nextPsn, fenceHeld := .empty, refillHeld := [] }
      let s := s.raise (twEv s 0x1D4 true (some a) cid code 0 psn noPlace 0 false)
      let s := out.foldl (fun s e => s.refusedReq a cid e.1 e.2.payload 0) s
      if a = s.twin ∧ c.purpose = 1 then s.startDetach else s

/-- An association goes DOWN (R277): EV 0x1D1, every connection in ERROR; the pair detaches (R316) and its loans go (R352). -/
def Dev.assocDown (s : Dev) (a : Nat) : Dev :=
  let x := s.assoc a
  let s := s.setAssoc a { x with state := 0, phase0 := false, phase1 := false, nonce := none, rekeySent := none, rekeyGot := none, retire := none }
  let s := (s.dropKeys a false).dropKeys a true
  let s := s.raise (twEv s 0x1D1 true (some a) 0 0 0 0 noPlace 0 false)
  let s := x.conns.keys.foldl (fun s cid => s.connError a cid 0 0) s
  let s := if s.bit Reg.MIR.CFG.PAIRED ∧ a = s.twin then s.startDetach else s
  s.dropLender x.member true

/-- HELLO (R275, R276): refused without an answer, or answered and the keys derived as responder. -/
def Dev.rxHello (s : Dev) (h : RxHdr) (nonce idHash secret aepoch mac : Nat) : Dev :=
  match s.rxAssoc h.src with
  | none => s.rxDrop
  | some a =>
    let p := Payload.hello nonce idHash secret aepoch mac
    let x := s.assoc a
    let d := (aepoch + 65536 - x.storedEpoch % 65536) % 65536
    let newer := d ≠ 0 ∧ d < 2 ^ 15
    if s.filters h p then s.rxDrop
    else if !s.secretHeld secret ∨ !s.helloOk h secret mac p ∨ !s.permittedId h.src idHash ∨ ¬ newer then
      s.raise (twRec s 0x1D9 true (some a) h.port 0 0 0x01 0 noPlace 0 false)
    else
      let s := if 2 ≤ x.state then s.assocDown a else s
      let (n, s) := s.random
      let s := s.keyed0 a aepoch false (secret == 1) n nonce
      s.sendHello a (.helloRsp n s.island.deviceHash secret aepoch (s.helloMacTx a aepoch secret (.helloRsp n s.island.deviceHash secret aepoch 0)))
def execHello (h : RxHdr) (nonce idHash secret aepoch mac : Nat) (s : State) : Answer :=
  s.on fun s => (s.rxHello h nonce idHash secret aepoch mac)

/-- HELLO_RSP (R276): the initiator derives the keys, and its first sealed packet is a KEEPALIVE (log entry 38). -/
def Dev.rxHelloRsp (s : Dev) (h : RxHdr) (nonce idHash secret aepoch mac : Nat) : Dev :=
  match s.rxAssoc h.src with
  | none => s.rxDrop
  | some a =>
    let p := Payload.helloRsp nonce idHash secret aepoch mac
    let x := s.assoc a
    if s.filters h p ∨ x.state ≠ 1 ∨ x.nonce.isNone ∨ !s.helloOk h secret mac p ∨ aepoch ≠ x.aepoch ∨ secret ≠ (if x.secret then 1 else 0) ∨
        !s.permittedId h.src idHash then s.rxDrop
    else (s.keyed0 a aepoch true x.secret (x.nonce.getD 0) nonce).transmit { assoc := a, cid := 0, psn := 0, payload := .keepalive, flags := {}, prio := 2 }
def execHelloRsp (h : RxHdr) (nonce idHash secret aepoch mac : Nat) (s : State) : Answer :=
  s.on fun s => (s.rxHelloRsp h nonce idHash secret aepoch mac)

/-- The association becomes UP at the first packet that verifies (R276): CID 0 is open (R278). -/
def Dev.assocBecomesUp (s : Dev) (a : Nat) : Dev :=
  let (r, s) := s.random
  let psn := r % 2 ^ 32
  let rate := s.lineRate a 0
  let c : Conn := { prio := 2, context := s.freeContext, nextPsn := psn, una := psn, expOpen := true, rc := rate, rt := rate, used := s.clock }
  let x := s.assoc a
  let s := s.setAssoc a { x with state := 2, conns := x.conns.put 0 c }
  s.raise (twEv s 0x1D0 true (some a) 0 0 0 0 noPlace 0 false)

/-- Both REKEYs are exchanged (R277): the other phase's keys are installed and the sender switches to them. -/
def Dev.rekeyDone (s : Dev) (a : Nat) : Dev :=
  let x := s.assoc a
  let p := !x.kph
  let bit := if p then 1 else 0
  let y := { x with kph := p, txSeq := 0, rekeySent := none, rekeyGot := none, state := 3
                    phase0 := x.phase0 || !p, phase1 := x.phase1 || p
                    rxHigh := x.rxHigh.del bit, rxSeen := x.rxSeen.filter fun k _ => k % 2 != bit }
  (s.setAssoc a y).installKeys a p (x.rekeySent.getD 0) (x.rekeyGot.getD 0)

/-- REKEY received (R277): answered with this end's own, if it has not sent one. -/
def Dev.rxRekey (s : Dev) (a nonce : Nat) : Dev :=
  let x := s.assoc a
  if x.retire.isSome then s
  else
    let s := s.setAssoc a { x with rekeyGot := some nonce }
    let s := if x.rekeySent.isNone then (s.rekeyAsk a).pump a 0 else s
    s.rekeyDone a

/-- PA_CFG_REKEY (R277, R301): only while UP. -/
def Dev.paRekey (s : Dev) (a : Nat) : Dev :=
  if (s.assoc a).state = 2 then (s.rekeyAsk a).pump a 0 else s
def execPaCfgRekey (assoc : Nat) (s : State) : Answer := s.on fun s => (s.paRekey assoc)

/-- OLD_KEY_PHASE_RETIRE (R277): 1 ms after the first packet of the new phase. -/
def execOldKeyPhaseRetire (assoc : Nat) (s : State) : Answer :=
  s.on fun s => (
    let x := s.assoc assoc
    match x.retire with
    | none => s
    | some t =>
      let s := s.at t
      let y := { x with retire := none, state := 2, phase0 := x.phase0 && !x.kph, phase1 := x.phase1 && x.kph }
      let s := (s.setAssoc assoc y).dropKeys assoc (!x.kph)
      s.raise (twEv s 0x1DA true (some assoc) 0 0 0 0 noPlace 0 false))

/-- KEEPALIVE_TIMER (R277): an association idle for 1 ms. -/
def execKeepaliveTimer (assoc : Nat) (s : State) : Answer :=
  s.on fun s => (
    let x := s.assoc assoc
    if x.phase0 || x.phase1 then
      (s.at (x.lastTx + fclkMs)).transmit { assoc, cid := 0, psn := 0, payload := .keepalive, flags := {}, prio := 2 }
    else s)

/-- ASSOCIATION_DOWN_TIMEOUT (R277): no packet has verified for 10 ms. -/
def execAssociationDownTimeout (assoc : Nat) (s : State) : Answer :=
  s.on fun s => (
    let x := s.assoc assoc
    if x.state = 0 then s else ((s.at (x.lastRx + 10 * fclkMs)).assocDown assoc).settle)

/-- This end's CID for a connection that the peer opens: the peer's own number if it is free, else the lowest free cached one
(log entry 38). -/
def Dev.localCid (s : Dev) (a cid : Nat) : Nat :=
  let t := (s.assoc a).conns
  if t.has cid then Tab.firstFreeFrom 256 (t.list.filter fun e => decide (256 ≤ e.1)) else cid

/-- OPEN (R278, R279). -/
def Dev.rxOpen (s : Dev) (a peer : Nat) (relaxed : Bool) (purpose window lane prio psn : Nat) : Dev :=
  let s := ((s.assoc a).conns.list.filter fun e => e.1 != 0 && !e.2.opening && e.2.peerCid == peer).foldl (fun s e => s.delConn a e.1) s
  let cid := s.localCid a peer
  let twinOnly := purpose = 1 ∨ purpose = 2 ∨ purpose = 4
  let refuse := fun (st : Nat) => (s.request a 0 (.openRsp 0 relaxed purpose window lane prio 0 st) false false).1
  if 4 < purpose ∨ (twinOnly ∧ !(s.bit Reg.MIR.CFG.PAIRED ∧ a = s.twin)) then refuse 2
  else if 65535 < cid ∨ !s.connRoom cid then refuse 1
  else match (if Sys2Proof.Machine.pinned cid then some s else s.ctxRoom (ctxSet a cid)) with
    | none => refuse 1
    | some s =>
      let (r, s) := s.random
      let own := r % 2 ^ 32
      let w := min window (s.get Reg.TWT.WIN.WINDOW)
      let rate := s.lineRate a cid
      let s := s.setConn a cid { peerCid := peer, relaxed, purpose, window := w, lane, prio, context := s.freeContext, nextPsn := own
                                 una := own, exp := psn, rc := rate, rt := rate, used := s.clock }
      (s.request a 0 (.openRsp cid relaxed purpose w lane prio own 0) false false).1

/-- The connection that an OPEN_RSP answers: the oldest one opening with its purpose, lane, mode and priority. -/
def Dev.openingConn (s : Dev) (a : Nat) (relaxed : Bool) (purpose lane prio : Nat) : Option (Nat × Conn) :=
  ((s.assoc a).conns.list.filter fun e => e.2.opening && e.2.relaxed == relaxed && e.2.purpose == purpose && e.2.lane == lane &&
    e.2.prio == prio).foldl (fun b e => match b with
      | none => some e
      | some x => if e.2.used < x.2.used then some e else some x) none

/-- OPEN_RSP (R279): the connection opens, or its requests end with a connection error. -/
def Dev.rxOpenRsp (s : Dev) (a peer : Nat) (relaxed : Bool) (purpose window lane prio psn status : Nat) : Dev :=
  match s.openingConn a relaxed purpose lane prio with
  | none => s
  | some (cid, c) =>
    if status = 0 then
      let c := { c with peerCid := peer, opening := false, state := 1, window := min c.window window, used := s.clock
                        exp := if c.expOpen then c.exp else psn, expOpen := false }
      let s := (s.setConn a cid c).pump a cid
      if purpose = 1 ∧ a = s.twin then s.pumpLane lane else s
    else (s.connError a cid status 0).delConn a cid

/-- CLOSE (R271): the named connection closes; its requests end with a connection error. -/
def Dev.rxClose (s : Dev) (a cid : Nat) : Dev :=
  if cid = 0 then s
  else match s.conn a cid with
    | none => s
    | some c => c.inOrder.foldl (fun s e => s.refusedReq a cid e.1 e.2.payload 0) (s.delConn a cid)

/-- Execute a sequenced request (R271, R285). -/
def Dev.execute (s : Dev) (a cid : Nat) (h : RxHdr) (p : Payload) : Dev × RxResult :=
  if h.badOp then (s, .refuse 0x0A 0)
  else match p with
    | .open peer relaxed purpose window lane prio psn =>
      if cid ≠ 0 ∨ window = 0 ∨ 4096 < window then (s, .refuse 0x0A 0)
      else (s.rxOpen a peer relaxed purpose window lane prio psn, .ok)
    | .openRsp peer relaxed purpose window lane prio psn status =>
      if cid ≠ 0 then (s, .refuse 0x0A 0) else (s.rxOpenRsp a peer relaxed purpose window lane prio psn status, .ok)
    | .close c => if cid ≠ 0 then (s, .refuse 0x0A 0) else (s.rxClose a c, .ok)
    | .rekey n => if cid ≠ 0 then (s, .refuse 0x0A 0) else (s.rxRekey a n, .ok)
    | .laneRec _ recs => s.rxLane a recs
    | .cmdFwd frag last cmd => s.rxCmd a cid h.psn frag last cmd
    | .fence => if s.applies a then (s, .ok) else (s, .refuse 0x09 0)
    | .read loan target gen granule count addr tag => s.rxRead a cid h.psn loan target gen granule count addr tag
    | .write loan target gen granule count addr tag lines => s.rxWrite a loan target gen granule count addr tag lines
    | .lease m =>
      let src := (s.assoc a).member
      if m.subtype ≤ 5 then (s.referee src m, .ok)
      else if !s.bit Reg.MIR.CFG.REF_HOST && src == s.get Reg.MIR.CFG.REF_MEMBER then (s.leaseAnswer m, .ok)
      else (s, .ok)
    | .table entries last joined => s.rxTable a h.psn entries last joined
    | .divrun runs last => s.rxDivrun a runs last
    | .keyWait region => s.rxKeyWait a region
    | .loanMsg m => (s.rxLoan (s.assoc a).member m, .ok)
    | .token t => (s.rxToken t h.hopNs, .ok)
    | .join j => (s.rxJoin a j, .ok)
    | .joinRsp member reason => (s.rxJoinRsp (s.assoc a).member member reason, .ok)
    | _ => (s, .refuse 0x0A 0)

/-- EXP_PSN past every marked PSN (R284). -/
def Conn.passMarked (c : Conn) : Nat → Conn
  | 0 => c
  | n + 1 => if c.executed.has c.exp then
      { c with executed := c.executed.del c.exp, exp := psnNext c.exp }.passMarked n else c

/-- A PSN is executed (R284, R285). -/
def Conn.mark (c : Conn) (psn : Nat) (deferred : Bool) : Conn :=
  let c := if c.relaxed then { c with executed := c.executed.put psn () }.passMarked (c.executed.size + 1)
    else { c with exp := psnNext psn, seqErr := none }
  if deferred then { c with deferred := c.deferred.put psn () } else c

/-- A target refuses a request: NAK, EV 0x1D5 and its record where the code is reported (R273, R296). -/
def Dev.refuseNak (s : Dev) (a : Nat) (h : RxHdr) (p : Payload) (code gen : Nat) : Dev :=
  let s := s.sendNak a h h.psn code 0 p.place.1 gen
  if code = 0x08 then s else s.raise (twRx s 0x1D5 a h p code gen)

/-- Execute a packet whose turn has come, and answer it (R284–R289). -/
def Dev.runPacket (s : Dev) (a cid : Nat) (h : RxHdr) (p : Payload) : Dev :=
  match s.conn a cid with
  | none => s
  | some c0 =>
    let gap := c0.relaxed && c0.exp == h.psn && !c0.executed.list.isEmpty
    let full := decide (64 ≤ c0.refusals.size)
    let r := s.execute a cid h p
    let mark := fun (s : Dev) (d : Bool) (f : Conn → Conn) => match s.conn a cid with
      | some c => s.setConn a cid (f (c.mark h.psn d))
      | none => s
    match r.2 with
    | .ok =>
      let s := mark r.1 false fun c => { c with unacked := c.unacked + 1, unackedSince := if c.unacked = 0 then s.clock else c.unackedSince }
      let n := match s.conn a cid with | some c => c.unacked | none => 0
      if h.ar || p == .fence || gap || decide (s.get Reg.TWT.ACK.COAL_PKTS ≤ n) then s.sendAck a cid else s
    | .later => mark r.1 true id
    | .answered => let s := mark r.1 false id; if h.ar then s.sendAck a cid else s
    | .refuse code gen =>
      if full then
        (s.sendNak a h h.psn 0x02 10 p.place.1 gen).raise (twRx s 0x1DB a h p code gen)
      else
        let s := mark r.1 false fun c => { c with refusals := c.refusals.put h.psn code }
        s.refuseNak a h p code gen
    | .rnr => r.1.sendNak a h h.psn 0x02 10 p.place.1 0

/-- A held FENCE lies before a PSN (R292). -/
def Conn.fenceBefore (c : Conn) (psn : Nat) : Bool :=
  c.fenceHeld.list.any fun e => e.2.1.fence && e.1 != psn && decide (psnDist e.1 psn < 2 ^ 31)

/-- Packets held behind a FENCE whose turn has come; `n` bounds them (R292). -/
def Dev.runHeld (s : Dev) (a cid : Nat) : Nat → Dev
  | 0 => s
  | n + 1 =>
    match s.conn a cid with
    | none => s
    | some c =>
      match c.fenceHeld.list.find? fun e => !c.fenceBefore e.1 && (!e.2.1.fence || e.1 == c.exp) with
      | none => s
      | some e =>
        ((s.setConn a cid { c with fenceHeld := c.fenceHeld.del e.1 }).runPacket a cid e.2.1 e.2.2).runHeld a cid n

/-- A duplicate is answered again, and not executed (R286). -/
def Dev.answerAgain (s : Dev) (a cid : Nat) (h : RxHdr) (p : Payload) (c : Conn) : Dev :=
  let s := s.count Reg.TWT.DUP_RX.COUNT Reg.TWT.DUP_RX.SAT 1 (Ev.plain 0x1DC)
  match c.refusals.get? h.psn with
  | some code => s.sendNak a h h.psn code 0 p.place.1 0
  | none => match p with
    | .read loan target gen granule count addr tag =>
      s.transmit { assoc := a, cid, psn := h.psn, payload := .readResp loan target gen granule count addr tag true 0 0 0 0 .empty, flags := {}, prio := c.prio }
    | _ => s.sendAck a cid

/-- A sequenced packet on an open connection whose context is on chip (R284, R292). -/
def Dev.rxOpenConn (s : Dev) (a cid : Nat) (h : RxHdr) (p : Payload) (c : Conn) : Dev :=
  let c := if c.expOpen then { c with exp := h.una, expOpen := false } else c
  let c := { c with used := s.clock, pktCnt := c.pktCnt + 1, lastTs := h.ts
                    refusals := c.refusals.filter fun q _ => !(q != h.una && decide (psnDist q h.una < 2 ^ 31)) }
  let marked := h.ce || (s.bit Reg.CCC.CFG.RX_MARK && decide (s.get Reg.CCC.RX_KMIN.KIB < h.buffer))
  let c := if marked then { c with ceCnt := c.ceCnt + 1 } else c
  let s := s.setConn a cid c
  let s := if marked then s.count Reg.CCC.CE_RX.COUNT Reg.CCC.CE_RX.SAT 1 (Ev.plain 0x1E4) else s
  let d := psnDist c.exp h.psn
  let back := psnDist h.psn c.exp
  let drop := fun (s : Dev) (id : Nat) => s.raiseFirst (twRx s id a h p 0 0)
  if d < c.window then
    if c.relaxed then
      if c.executed.has h.psn then s.answerAgain a cid h p c
      else if (h.fence && d != 0) || c.fenceBefore h.psn then
        if c.fenceHeld.size < 64 ∨ c.fenceHeld.has h.psn then s.setConn a cid { c with fenceHeld := c.fenceHeld.put h.psn (h, p) } else s
      else (s.runPacket a cid h p).runHeld a cid 65
    else if d = 0 then s.runPacket a cid h p
    else if c.seqErr = some c.exp then s
    else (s.setConn a cid { c with seqErr := some c.exp }).sendNak a h c.exp 0x01 0 p.place.1 0
  else if d < 2 ^ 31 then drop s.rxDrop 0x1D8
  else if back ≤ c.window then s.answerAgain a cid h p c
  else drop (s.count Reg.TWT.OLD_DROP.COUNT Reg.TWT.OLD_DROP.SAT 1 (Ev.plain 0x1DC)) 0x1D7

/-- A sequenced packet: its connection is looked up (R278, R281, R282). -/
def Dev.rxSequenced (s : Dev) (a : Nat) (h : RxHdr) (p : Payload) : Dev :=
  let closed := fun (s : Dev) => s.refuseNak a h p 0x0B 0
  match s.conn a h.cid with
  | none => closed s
  | some c =>
    if c.state = 2 then closed s
    else if c.cached then s.rxOpenConn a h.cid h p c
    else
      let spill := fun (s : Dev) =>
        (s.count Reg.CCC.HOLD_DROP.COUNT Reg.CCC.HOLD_DROP.SAT 1 (Ev.plain 0x1E4)).raise (twRx s 0x1E0 a h p 0 0)
      let hold := fun (s : Dev) => match s.conn a h.cid with
        | some c => if c.refillHeld.length < 64 then s.setConn a h.cid { c with refillHeld := c.refillHeld ++ [(h, p)] } else spill s
        | none => s
      if c.refill then hold s
      else if 32 ≤ s.refills then spill s
      else match s.startRefill a h.cid with
        | some s => hold s
        | none =>
          (s.count Reg.CCC.NOWAY.COUNT Reg.CCC.NOWAY.SAT 1 (Ev.plain 0x1E4)).raise
            (twRx s 0x1E1 a h p 0 0)

/-- One recovery step of a connection's rates (R299). -/
def Dev.rateStep (s : Dev) (a cid : Nat) (c : Conn) : Conn :=
  let line := s.lineRate a cid
  let steps := c.steps + 1
  let rt := if s.get Reg.CCC.CFG.F_STEPS < steps then min line (c.rt + s.get Reg.CCC.RATES.R_AI_MBPS) else c.rt
  { c with steps, rt, rc := min line ((c.rc + rt) / 2) }
def Dev.rateSteps (s : Dev) (a cid : Nat) (c : Conn) : Nat → Conn
  | 0 => c
  | n + 1 => s.rateSteps a cid (s.rateStep a cid c) n

/-- A connection has stood at R_MIN for 10 ms: EV 0x1E3 (R299). -/
def Dev.rateFloor (s : Dev) (a cid : Nat) : Dev :=
  match s.conn a cid with
  | none => s
  | some c =>
    if s.get Reg.CCC.RATES.R_MIN_MBPS < c.rc then s.setConn a cid { c with minSince := none }
    else match c.minSince with
      | none => s.setConn a cid { c with minSince := some s.clock }
      | some t => if t + 10 * fclkMs ≤ s.clock then
          (s.setConn a cid { c with minSince := some s.clock }).raise (twEv s 0x1E3 true (some a) cid 0 0 0 noPlace 0 false)
        else s

/-- Rate control on an ACK (R299): alpha in 1/65,536, rates in Mb/s, both rounded down (log entry 38). -/
def Dev.rateAck (s : Dev) (a cid ce pkt : Nat) : Dev :=
  match s.conn a cid with
  | none => s
  | some c =>
    if pkt = 0 ∨ !s.bit Reg.CCC.CFG.CC_EN then s
    else
      let g := 2 ^ s.get Reg.CCC.CFG.G_SHIFT
      let alpha := (c.alpha * (g - 1) + ce * 65536 / pkt) / g
      let c := { c with alpha }
      if 0 < ce ∧ c.tDec + s.get Reg.CCC.TIMERS.DEC_US * fclkUs ≤ s.clock then
        let rc := max (s.get Reg.CCC.RATES.R_MIN_MBPS) (c.rc * (131072 - alpha) / 131072)
        (s.setConn a cid { c with rt := c.rc, rc, tDec := s.clock, steps := 0, stepAt := s.clock }).rateFloor a cid
      else s.setConn a cid c

/-- RATE_RECOVERY_TICK of a connection (R299): RAI_US without a decrease; a spilled connection's steps wait for its refill. -/
def execRateRecoveryTick (assoc cid : Nat) (s : State) : Answer :=
  s.on fun s => (match s.conn assoc cid with
    | none => s
    | some c =>
      if !c.cached ∨ !s.bit Reg.CCC.CFG.CC_EN then s
      else
        let s := s.at (c.stepAt + s.get Reg.CCC.TIMERS.RAI_US * fclkUs)
        (s.setConn assoc cid { s.rateStep assoc cid c with stepAt := s.clock }).rateFloor assoc cid)

/-- An acknowledged request's effect on its issuing block (R225, R309, R313, R332, R333, R352). -/
def Dev.ackedReq (s : Dev) (a cid psn : Nat) (p : Payload) (rtt : Nat) : Dev :=
  match p with
  | .laneRec l _ => if a = s.twin then s.laneAck l psn rtt else s
  | .fence => if a = s.twin ∧ 0x10 ≤ cid ∧ cid < 0x20 then s.fenceAcked (cid - 0x10) psn else s
  | .cmdFwd _ last _ => if last then s.cmdAcked psn else s
  | .write true loan gen .. =>
    match s.staged.list.find? fun e => e.2.assoc == a && e.2.psn == psn with
    | some e => if (s.borrowKey (s.assoc a).member loan gen).isSome then s.demotionDone e.1 else s.demotionNak e.1
    | none => s
  | .write false .. => s.copyAcked psn
  | .table .. => s.tableAcked psn
  | .token _ => s.tokenAcked a psn
  | _ => s

/-- A request that an ACK resolves; a READ is resolved by its READ_RESP or NAK alone (log entry 38). -/
def Payload.byAck : Payload → Bool
  | .read .. => false
  | _ => true

/-- A round-trip sample (R101, R345): a lane's for MIR; CID 0's for the one-way time, with gain 1/8. -/
def Dev.sample (s : Dev) (a cid tsEcho : Nat) : Dev × Nat :=
  let rtt := psnDist tsEcho (s.clock / 2)
  if 2 ^ 31 ≤ rtt then (s, 0)
  else if a = s.twin ∧ 0x10 ≤ cid ∧ cid < 0x20 then (s.twinRtt rtt, rtt)
  else if cid = 0 then
    let x := s.assoc a
    let one := rtt / 2
    let v := match x.oneway with | none => one | some o => (7 * o + one) / 8
    (s.setAssoc a { x with oneway := some v, worst := some (max one (x.worst.getD 0)) }, rtt)
  else (s, rtt)

/-- An ACK (R290): PSNs resolve, SACKs are marked, the rates follow, and the issuing blocks hear of it. -/
def Dev.rxAck (s : Dev) (a : Nat) (h : RxHdr) (psn sack ce pkt tsEcho : Nat) : Dev :=
  match s.conn a h.cid with
  | none => s
  | some c =>
    let upTo := psnDist c.una psn
    if psnDist c.una c.nextPsn < upTo then s
    else
      let done := c.inOrder.filter fun e => decide (psnDist c.una e.1 < upTo) && !e.2.unsent && e.2.payload.byAck
      let left := done.foldl (fun t e => t.del e.1) c.sent
      let left := left.map fun q e =>
        let i := psnDist psn q
        if 0 < i ∧ i ≤ 32 ∧ sack.testBit (i - 1) then { e with sacked := true } else e
      let s := s.setConn a h.cid ({ c with sent := left }).advance
      let s := s.rateAck a h.cid ce pkt
      let q := s.sample a h.cid tsEcho
      let s := done.foldl (fun s e => s.ackedReq a h.cid e.1 e.2.payload q.2) q.1
      (s.pump a h.cid).switchCheck.retryContexts

/-- Send again (R283, R291): with AR and RETX, counted. -/
def Dev.resend (s : Dev) (a cid psn : Nat) : Dev :=
  match s.conn a cid with
  | none => s
  | some c => match c.sent.get? psn with
    | none => s
    | some e =>
      let s := s.setConn a cid { c with sent := c.sent.put psn { e with at_ := s.clock, ar := true, rnr := none } }
      let s := s.count Reg.TWT.RETX_CTR.COUNT Reg.TWT.RETX_CTR.SAT 1 (Ev.plain 0x1DC)
      s.transmit { assoc := a, cid, psn, payload := e.payload, flags := { ar := true, fence := e.fence, retx := true }, prio := c.prio }

/-- Go back (R291): a strict connection sends again every unresolved PSN from `psn` on, unless that PSN waits out an RNR. -/
def Dev.goBack (s : Dev) (a cid psn : Nat) : Dev :=
  match s.conn a cid with
  | none => s
  | some c =>
    let l := c.inOrder.filter fun e => !e.2.unsent && decide (psnDist psn e.1 < 2 ^ 31)
    if (match c.sent.get? psn with | some e => e.rnr.isSome | none => false) then s
    else l.foldl (fun s e => s.resend a cid e.1) s

/-- A NAK (R273). -/
def Dev.rxNak (s : Dev) (a : Nat) (h : RxHdr) (psn code rnrUs target gen : Nat) : Dev :=
  let s := s.count Reg.TWT.NAK_RX.COUNT Reg.TWT.NAK_RX.SAT 1 (Ev.plain 0x1DC)
  match s.conn a h.cid with
  | none => s
  | some c =>
    if code = 0x01 then (if c.relaxed then s else s.goBack a h.cid psn)
    else match c.sent.get? psn with
      | none => s
      | some e =>
        if e.unsent then s
        else if code = 0x02 then
          s.setConn a h.cid { c with sent := c.sent.put psn { e with rnr := some (s.clock + rnrUs * fclkUs), timeouts := 0 } }
        else
          let place := e.payload.place
          let ev := twRec s 0x1D6 true (some a) h.port h.cid code e.payload.opcode psn (target, place.2.1, place.2.2) gen false
          let s := if code = 0x08 then s else s.raise ev
          if code = 0x0A ∨ code = 0x0B then s.connError a h.cid code psn
          else ((s.resolve a h.cid psn).refusedReq a h.cid psn e.payload code).retryContexts

/-- READ_RESP (R286, R355): DUPLICATE makes the requester read again; data completes its fill, or sends it to F. A standby's copy after a
failure of F (R205) is answered with the flash overhead and no drive time, which the spec does not give (DESIGN CHOICE, log entry 54). -/
def Dev.rxReadResp (s : Dev) (a : Nat) (h : RxHdr) (tag : Nat) (dup : Bool) (poison valid : Nat) (lines : Tab Ln) : Dev :=
  match s.conn a h.cid with
  | none => s
  | some c => match c.sent.get? h.psn with
    | some { payload := .read loan target gen granule count addr tag', .. } =>
      if tag ≠ tag' then s
      else
        let s := s.resolve a h.cid h.psn
        if dup then (s.request a h.cid (.read loan target gen granule count addr tag) false false).1
        else match s.fills.get? tag with
          | none => s
          | some f =>
            if f.data.isSome then s
            else if loan then
              if f.src ≠ .N then s
              else if poison ≠ 0 ∨ valid ≠ 2 ^ 64 - 1 then s.nFallback tag
              else (s.fillData tag .N lines none latNeighbour).settle
            else if f.src ≠ .standby then s
            else
              let all := (List.range 64).foldl (fun t k =>
                if poison.testBit k then t.put k { st := .poison } else t.put k (lines.getD k { st := .clean })) Tab.empty
              let merge : Bool := match s.destages.get? tag with | some d => d.standby | none => false
              let s := s.fillData tag .standby all none latFlash
              (if merge then s.mergeData tag all else s).settle
    | _ => s

/-- PAUSE leaves for a priority whose share of the receive buffer passes its threshold (R300). -/
def Dev.pfcSend (s : Dev) (h : RxHdr) : Dev :=
  if s.bit Reg.TWL.CFG.PFC_EN && (s.get Reg.TWL.PFC.PRI).testBit h.pcp && decide (s.get Reg.TWL.PFC.XOFF_KIB < h.share)
  then s.send (.pause h.port h.pcp) else s

/-- What a verified packet brings, by its opcode; one outside the sequence with a reserved bit set or a wrong length is answered with BAD_OP
(R271). -/
def Dev.rxVerified (s : Dev) (a : Nat) (h : RxHdr) (p : Payload) : Dev :=
  match p with
  | .keepalive => if h.badOp then s.refuseNak a h p 0x0A 0 else s
  | .ack psn sack ce pkt ts => if h.badOp then s.refuseNak a h p 0x0A 0 else s.rxAck a h psn sack ce pkt ts
  | .nak psn code rnr target gen _ => if h.badOp then s.refuseNak a h p 0x0A 0 else s.rxNak a h psn code rnr target gen
  | .readResp _ _ _ _ _ _ tag dup poison valid _ _ lines =>
    if h.badOp then s.refuseNak a h p 0x0A 0 else s.rxReadResp a h tag dup poison valid lines
  | .hello .. => s
  | .helloRsp .. => s
  | _ => s.rxSequenced a h p

/-- Anti-replay (R269): the TXSEQ is not old and not seen. -/
def Assoc.fresh (x : Assoc) (h : RxHdr) : Bool :=
  let b := if h.kph then 1 else 0
  (match x.rxHigh.get? b with | some hi => decide (hi < h.txSeq + 1024) | none => true) && !x.rxSeen.has (h.txSeq * 2 + b)

/-- Note a verified TXSEQ. -/
def Assoc.note (x : Assoc) (h : RxHdr) : Assoc :=
  let b := if h.kph then 1 else 0
  let hi := max (x.rxHigh.getD b 0) h.txSeq
  { x with rxHigh := x.rxHigh.put b hi
           rxSeen := (x.rxSeen.put (h.txSeq * 2 + b) ()).filter fun k _ => k % 2 != b || decide (hi < k / 2 + 1024) }

/-- A packet that fails its ICV in the place of the answer to an outstanding N READ: the borrower serves the fill from F (R355). -/
def Dev.icvFallback (s : Dev) (a : Nat) (h : RxHdr) (p : Payload) : Dev :=
  match p, (s.conn a h.cid).bind fun c => c.sent.get? h.psn with
  | .readResp .., some { payload := .read true _ _ _ _ _ tag, .. } => s.nFallback tag
  | _, _ => s

/-- A sealed packet arrives: opened in class LRX (R174, R269, R276, R277, R284, R296). A check mismatch that survives its retry counts with the
ICV failures (R178 Case C). -/
def Dev.receive (s : Dev) (h : RxHdr) (p : Payload) : Dev :=
  match s.rxAssoc h.src with
  | none => s.rxDrop
  | some a =>
    let s := s.pfcSend h
    let x := s.assoc a
    if s.filters h p then s.rxDrop
    else if x.state ≠ 0 ∧ h.aepoch ≠ x.aepoch then s.rxDrop
    else
    let held := decide (x.state ≠ 0) && (if h.kph then x.phase1 else x.phase0)
    let g := if held then (s.report h.checks).gcmJob 4 (linkSlot a h.kph false) (p.wire s.fragRoom).length else (s, true)
    let s := g.1
    if !held ∨ !g.2 ∨ h.icv ≠ s.rxIcv a h p then
      ((s.count Reg.TWT.ICV_FAIL.COUNT Reg.TWT.ICV_FAIL.SAT 1 (Ev.plain 0x1DC)).raise
        (twRec s 0x1D2 true (some a) h.port h.cid 0 p.opcode h.psn noPlace 0 (!g.2))).icvFallback a h p
    else if !x.fresh h then
      (s.count Reg.TWT.REPLAY.COUNT Reg.TWT.REPLAY.SAT 1 (Ev.plain 0x1DC)).raise
        (twRx s 0x1D3 a h p 0 0)
    else
      let y := { x.note h with lastRx := s.clock }
      let switched := x.state == 3 && x.rekeySent.isNone && h.kph == x.kph && x.retire.isNone
      let y := if switched then { y with retire := some (s.clock + fclkMs) } else y
      let s := s.setAssoc a y
      let s := if x.state = 1 then s.assocBecomesUp a else s
      (s.rxVerified a h p).revokeAll

/-- The executors of packets: each row of the table is a packet with its body. -/
def execOpenReq (h : RxHdr) (cid : Nat) (relaxed : Bool) (purpose window lane prio psn : Nat) (s : State) : Answer :=
  s.on fun s => (s.receive h (.open cid relaxed purpose window lane prio psn))
def execOpenRsp (h : RxHdr) (cid : Nat) (relaxed : Bool) (purpose window lane prio psn status : Nat) (s : State) : Answer :=
  s.on fun s => (s.receive h (.openRsp cid relaxed purpose window lane prio psn status))
def execClosePkt (h : RxHdr) (cid : Nat) (s : State) : Answer := s.on fun s => (s.receive h (.close cid))
def execKeepalive (h : RxHdr) (s : State) : Answer := s.on fun s => (s.receive h .keepalive)
def execRekey (h : RxHdr) (nonce : Nat) (s : State) : Answer := s.on fun s => (s.receive h (.rekey nonce))
def execLaneRec (h : RxHdr) (lane : Nat) (recs : List MirRecord) (s : State) : Answer := s.on fun s => (s.receive h (.laneRec lane recs))
def execCmdFwd (h : RxHdr) (frag : Nat) (last : Bool) (cmd : FwdCmd) (s : State) : Answer :=
  s.on fun s => (s.receive h (.cmdFwd frag last cmd))
def execFencePkt (h : RxHdr) (s : State) : Answer := s.on fun s => (s.receive { h with fence := true, ar := true } .fence)
def execReadPkt (h : RxHdr) (loan : Bool) (target gen : Nat) (granule : Bool) (count addr tag : Nat) (s : State) : Answer :=
  s.on fun s => ((s.receive h (.read loan target gen granule count addr tag)).settle)
def execReadResp (h : RxHdr) (ask : ReadAsk) (duplicate : Bool) (poison valid : Nat) (served : Nat × Nat) (lines : Tab Ln)
    (s : State) : Answer :=
  s.on fun s => (s.receive h (ask.answer duplicate poison valid served lines))
def execWritePkt (h : RxHdr) (loan : Bool) (target gen : Nat) (granule : Bool) (count addr tag : Nat) (lines : Tab Ln)
    (s : State) : Answer :=
  s.on fun s => (s.receive h (.write loan target gen granule count addr tag lines))
def execAckPkt (h : RxHdr) (psn sack ceCnt pktCnt tsEcho : Nat) (s : State) : Answer :=
  s.on fun s => (s.receive h (.ack psn sack ceCnt pktCnt tsEcho))
def execNakPkt (h : RxHdr) (psn code rnrUs : Nat) (about : Nat × Nat) (tsEcho : Nat) (s : State) : Answer :=
  s.on fun s => (s.receive h (.nak psn code rnrUs about.1 about.2 tsEcho))
def execRenew (h : RxHdr) (m : LeaseMsg) (s : State) : Answer := s.on fun s => (s.receive h (.lease { m with subtype := 1 }))
def execAcquire (h : RxHdr) (m : LeaseMsg) (s : State) : Answer := s.on fun s => (s.receive h (.lease { m with subtype := 2 }))
def execDetach (h : RxHdr) (m : LeaseMsg) (s : State) : Answer := s.on fun s => (s.receive h (.lease { m with subtype := 3 }))
def execAttach (h : RxHdr) (m : LeaseMsg) (s : State) : Answer := s.on fun s => (s.receive h (.lease { m with subtype := 4 }))
def execReleaseMsg (h : RxHdr) (m : LeaseMsg) (s : State) : Answer := s.on fun s => (s.receive h (.lease { m with subtype := 5 }))
def execLeaseGrant (h : RxHdr) (m : LeaseMsg) (s : State) : Answer := s.on fun s => (s.receive h (.lease { m with subtype := 6 }))
def execLeaseDeny (h : RxHdr) (m : LeaseMsg) (s : State) : Answer := s.on fun s => (s.receive h (.lease { m with subtype := 7 }))
def execTableMsg (h : RxHdr) (entries : List TableEntry) (last joined : Bool) (s : State) : Answer :=
  s.on fun s => (s.receive h (.table entries last joined))
/-- DIVRUN; `keyWait` = the joining device's KEY_WAIT report in its place (R332). -/
def execDivrun (h : RxHdr) (runs : List (Nat × Nat)) (last : Bool) (keyWait : Option Nat) (s : State) : Answer :=
  s.on fun s => (s.receive h (match keyWait with | some r => .keyWait r | none => .divrun runs last))
def execTokenMsg (h : RxHdr) (t : Token) (s : State) : Answer := s.on fun s => (s.receive h (.token t))
def execJoinMsg (h : RxHdr) (j : JoinMsg) (s : State) : Answer := s.on fun s => (s.receive h (.join j))
def execJoinRsp (h : RxHdr) (member reason : Nat) (s : State) : Answer := s.on fun s => (s.receive h (.joinRsp member reason))
def execOfferMsg (h : RxHdr) (avail : Nat) (s : State) : Answer := s.on fun s => (s.receive h (.loanMsg { subtype := 1, avail }))
def execLoanRequest (h : RxHdr) (rseq : Nat) (s : State) : Answer := s.on fun s => (s.receive h (.loanMsg { subtype := 2, rseq }))
def execLoanGrant (h : RxHdr) (loan gen rseq : Nat) (s : State) : Answer :=
  s.on fun s => (s.receive h (.loanMsg { subtype := 3, loan, gen, rseq }))
def execLoanRefuse (h : RxHdr) (reason rseq : Nat) (s : State) : Answer :=
  s.on fun s => (s.receive h (.loanMsg { subtype := 4, reason, rseq }))
def execReclaim (h : RxHdr) (loan gen : Nat) (s : State) : Answer := s.on fun s => (s.receive h (.loanMsg { subtype := 5, loan, gen }))
def execLoanReturn (h : RxHdr) (loan gen : Nat) (s : State) : Answer := s.on fun s => (s.receive h (.loanMsg { subtype := 6, loan, gen }))

/-- RETRANSMIT_TIMEOUT of a PSN (R291). -/
def Dev.rtoExpired (s : Dev) (a cid psn : Nat) : Dev :=
  match s.conn a cid with
  | none => s
  | some c => match c.sent.get? psn with
    | none => s
    | some e =>
      if c.state ≠ 1 ∨ e.unsent ∨ e.rnr.isSome ∨ (c.relaxed ∧ e.sacked) then s
      else
        let rto := s.get Reg.TWT.RETX.RTO_US * 2 ^ min e.timeouts (s.get Reg.TWT.RETX.BACKOFF)
        let s := s.at (e.at_ + rto * fclkUs)
        let n := e.timeouts + 1
        if s.get Reg.TWT.RETX.RETRY_MAX ≤ n then s.connError a cid 0 psn
        else
          let s := s.setConn a cid { c with sent := c.sent.put psn { e with timeouts := n } }
          if c.relaxed then s.resend a cid psn else s.goBack a cid c.una
def execRetransmitTimeout (assoc cid psn : Nat) (s : State) : Answer := s.on fun s => ((s.rtoExpired assoc cid psn).settle)

/-- RNR_RETRY of a PSN (R273): a strict connection also sends again what its target dropped behind it. -/
def execRnrRetry (assoc cid psn : Nat) (s : State) : Answer :=
  s.on fun s => (match s.conn assoc cid with
    | none => s
    | some c => match c.sent.get? psn with
      | some e => match e.rnr with
        | some t =>
          let s := (s.at t).setConn assoc cid { c with sent := c.sent.put psn { e with rnr := none } }
          if c.relaxed then s.resend assoc cid psn else s.goBack assoc cid psn
        | none => s
      | none => s)

/-- ACK_DELAY_EXPIRY (R289). -/
def execAckDelayExpiry (assoc cid : Nat) (s : State) : Answer :=
  s.on fun s => (match s.conn assoc cid with
    | none => s
    | some c =>
      if c.unacked = 0 then s
      else (((s.at (c.unackedSince + s.get Reg.TWT.ACK.DELAY_100NS * 200)).sendAck assoc cid)).retryContexts)

/-- Read one line of a context from the XPT spill area (R235, R280, R282): an uncorrectable one is read from its shadow, and is lost where
there is none. -/
def Dev.xptRead (s : Dev) (k : Nat) : Dev × Bool :=
  let live := (s.stripePlaces .xpt (2 ^ 26) k).filter fun x => s.get (Reg.DC.STS.STATE x.1) != 6
  match live with
  | [] => (s, false)
  | x :: rest =>
    let r := s.eccRead x.1 x.2 0
    if r.2.ok then (if r.2.corrected then r.1.dramTouch x.1 x.2 else r.1, true) else (r.1.systemUe x.1 x.2 r.2, !rest.isEmpty)

/-- The 16 lines of a context. -/
def Dev.xptReadAll (s : Dev) (c : Nat) : Dev × Bool :=
  (List.range 16).foldl (fun acc j => let r := acc.1.xptRead (16 * c + j); (r.1, acc.2 && r.2)) (s, true)

/-- A refill takes 178 FCLK (*Refill*). -/
def refillFclk : Nat := 178

/-- CONTEXT_REFILL_DONE (R282): `lost` = the environment reports an uncorrectable XPT line. -/
def Dev.refillDone (s : Dev) (a cid : Nat) (lost : Bool) : Dev :=
  match s.conn a cid with
  | none => s
  | some c =>
    if !c.refill then s
    else
      let r := (s.at (c.refillAt + refillFclk)).xptReadAll c.context
      let s := r.1
      if !r.2 ∨ (lost ∧ s.chanCount < 2) then
        let s := s.setConn a cid { c with refill := false, cached := true, refillHeld := [] }
        (s.connError a cid 0 0).raise (twEv s 0x1E2 true (some a) cid 0 0 0 noPlace 0 false)
      else
        let rai := s.get Reg.CCC.TIMERS.RAI_US * fclkUs
        let n := if s.bit Reg.CCC.CFG.CC_EN ∧ 0 < rai then (s.clock - c.stepAt) / rai else 0
        let c' := s.rateSteps a cid { c with refill := false, cached := true, refillHeld := [], used := s.clock } n
        let s := s.setConn a cid { c' with stepAt := c.stepAt + n * rai }
        let s := c.refillHeld.foldl (fun s x => s.rxSequenced a x.1 x.2) s
        ((s.pump a cid).retryContexts).settle
def execContextRefillDone (assoc cid : Nat) (lost : Bool) (s : State) : Answer := s.on fun s => (s.refillDone assoc cid lost)

/-- An Ethernet port event (R302). -/
def portEv (id port : Nat) : Ev :=
  Ev.make id true 0 [(1, 1, 255), (2, 1, 255), (3, 1, port), (18, 5, 2 ^ 40 - 1)]

/-- Ports of the configuration (R265). -/
def Dev.twlPorts (s : Dev) : Nat := match s.get Reg.TWL.CFG.PORTS with | 0 => 1 | 1 => 2 | _ => 4
/-- Full speed code and lanes of a port. -/
def Dev.twlFull (s : Dev) (p : Nat) : Nat × Nat :=
  match s.get Reg.TWL.CFG.PORTS with | 0 => (4, 255) | 1 => (3, 15 * 2 ^ (4 * p)) | _ => (2, 3 * 2 ^ (2 * p))

/-- TWINSET_PORT_UP (R265, R267). -/
def execTwinsetPortUp (port : Nat) (s : State) : Answer :=
  s.on fun s => (if s.bit Reg.TWL.CFG.ENABLE && decide (port < s.twlPorts) && s.get (Reg.TWL.PORT_STS.SPEED port) == 0 then
    let f := s.twlFull port
    let n := 8 / s.twlPorts
    (((s.set (Reg.TWL.PORT_STS.SPEED port) f.1).set (Reg.TWL.PORT_STS.LANES port) f.2).calTrained (128 + n * port) n).raise (portEv 0x1C0 port)
  else s)

/-- TWINSET_PORT_DOWN (R265, R267): `lanes` = the lanes that survive; a 400 Gb/s port falls back to one of its two. -/
def execTwinsetPortDown (port lanes : Nat) (s : State) : Answer :=
  s.on fun s => (if port < s.twlPorts ∧ s.get (Reg.TWL.PORT_STS.SPEED port) ≠ 0 then
    let two := s.get Reg.TWL.CFG.PORTS = 2 ∧ (lanes = 2 ^ (2 * port) ∨ lanes = 2 ^ (2 * port + 1)) ∧
      s.get (Reg.TWL.PORT_STS.SPEED port) = 2
    if two then ((s.set (Reg.TWL.PORT_STS.SPEED port) 1).set (Reg.TWL.PORT_STS.LANES port) lanes).raise (portEv 0x1C2 port)
    else ((s.set (Reg.TWL.PORT_STS.SPEED port) 0).set (Reg.TWL.PORT_STS.LANES port) 0).raise (portEv 0x1C1 port)
  else s)

/-- PFC_PAUSE (R300): a peer pauses a priority of a port, or lets it go on. -/
def Dev.pfcPause (s : Dev) (port prio : Nat) (on : Bool) : Dev :=
  if !s.bit Reg.TWL.CFG.PFC_EN || !(s.get Reg.TWL.PFC.PRI).testBit prio then s
  else if on then { s with paused := s.paused.put (port * 8 + prio) (s.paused.getD (port * 8 + prio) s.clock) }
  else
    let mine := fun (h : TxHeld) => s.portOf h.assoc h.cid == some port && s.pcp h.prio == prio
    let go := s.txHeld.filter mine
    go.foldl Dev.emit { s with paused := s.paused.del (port * 8 + prio), txHeld := s.txHeld.filter fun h => !mine h }
def execPfcPause (port prio : Nat) (on : Bool) (s : State) : Answer := s.on fun s => (s.pfcPause port prio on)

/-- PFC_PAUSE_LIMIT (R300): paused for more than 100 ms. -/
def execPfcPauseLimit (port prio : Nat) (s : State) : Answer :=
  s.on fun s => (match s.paused.get? (port * 8 + prio) with
    | some t => let s := s.at (t + 100 * fclkMs + 1); s.raise (portEv 0x1C4 port)
    | none => s)

/-- FEC_UNCORRECTABLE_CODEWORD of a port (R302). -/
def execFecUncorrectableCodeword (port : Nat) (s : State) : Answer :=
  s.on fun s => (if port < 4 then
    (s.count (Reg.TWL.FEC_UE.COUNT port) (Reg.TWL.FEC_UE.SAT port) 1 (Ev.plain 0x1C5)).raise (portEv 0x1C3 port)
  else s)

end Sys2Proof.Machine
end

