-- ==== Sys2Proof/Machine/Row.lean ====
section
/-! DEFINITION. ROW: the open record, its storage in SPI NOR, the scan, the clear and the power-fail record (R431–R442). -/

namespace Sys2Proof.Machine

/-- An event of ROW or FCO with the record payload of R442. -/
def rowEv (id cause concerned synd lost newest signer : Nat) : Ev :=
  Ev.make id true synd [(1, 1, cause), (2, 2, concerned), (8, 6, lost), (14, 6, newest), (20, 8, signer)]
def rowPlain (id : Nat) : Ev := rowEv id 0 0 0 0 0 0

/-- ROW.STS.STATE: 0 SCANNING, 1 RUN, 2 FROZEN, 3 STOPPED, 4 POWER_FAIL. -/
def Dev.rowState (s : Dev) : Nat := s.get Reg.ROW.STS.STATE
def Dev.setRow (s : Dev) (f : RowLog → RowLog) : Dev := { s with row := f s.row }

/-- Slots of the log, and slots in a block (R434). -/
def rowSlots : Nat := 262144
def rowBlock : Nat := 1024

/-- A block holds no record. -/
def Dev.blockErased (s : Dev) (b : Nat) : Bool := s.row.slots.keys.all fun i => i / rowBlock != b

/-- Erase what the writing needs erased: the two blocks after the current one, and the current block where the writing has
just reached it (R434). Nothing is erased under FULL_STOP. -/
def Dev.rowErase (s : Dev) : Dev :=
  if s.bit Reg.ROW.CFG.FULL_STOP || s.row.erasing.isSome then s
  else
    let b := s.row.next / rowBlock
    let want := (if s.row.next % rowBlock = 0 then [b] else []) ++ [(b + 1) % 256, (b + 2) % 256]
    match want.find? fun c => !s.blockErased c with
    | some c => s.setRow fun r => { r with erasing := some c }
    | none => s

/-- The next slot can be programmed. -/
def Dev.slotFree (s : Dev) : Bool := !s.row.slots.has s.row.next && s.row.erasing != some (s.row.next / rowBlock)

/-- Under FULL_STOP the log stops before an unerased block (R434); it goes on once FULL_STOP is clear. -/
def Dev.rowFull (s : Dev) : Dev :=
  if s.bit Reg.ROW.CFG.FULL_STOP && s.row.slots.has s.row.next then
    if s.rowState = 1 then (s.set Reg.ROW.STS.STATE 3).raise (rowPlain 0x236) else s
  else if s.rowState = 3 then s.set Reg.ROW.STS.STATE 1
  else s

/-- Start a program, where closed records wait for one (R436, R437): a page of 4, one record in MODE 1, or what there is in
POWER_FAIL and at the end of FLUSH_MS (`now`). -/
def Dev.rowProgram (s : Dev) (now : Bool) : Dev :=
  let r := s.row
  let each := s.bit Reg.ROW.CFG.MODE
  let n := if each then 1 else 4
  let due := if each then 1 else if now || s.rowState == 4 then 1 else 4
  if r.programming.isEmpty && decide (due ≤ r.page.length) && s.slotFree && s.rowState != 3 then
    s.setRow fun r => { r with programming := r.page.take n, page := r.page.drop n, pageSince := s.clock, second := false }
  else s

/-- Report records lost once the holding queue has room, at most once per ms (R431, R442). -/
def Dev.lostReport (s : Dev) : Dev :=
  let quiet : Bool := match s.fco.lastAt.get? 0x232 with | some t => decide (t + fclkMs ≤ s.clock) | none => true
  if s.row.lostSince ≠ 0 ∧ s.row.holding.length < 256 ∧ quiet ∧ s.rowState ≠ 3 then
    let n := s.row.lostSince
    (s.setRow fun r => { r with lostSince := 0 }).raiseMs (rowEv 0x232 s.row.lostWhy 0 0 n 0 0)
  else s

/-- ROW goes on after a change: it stops or goes on, reports what was lost, erases ahead, and programs. -/
def Dev.rowPump (s : Dev) : Dev := (s.rowFull.lostReport.rowErase).rowProgram false

/-- Close the open record: its TAG is computed (R433). -/
def Dev.rowClose (s : Dev) (sat : Bool) : Dev :=
  match s.row.open_ with
  | some r => s.setRow fun x => { x with open_ := none, page := x.page ++ [({ r with sat } : RowRec).sealed (s.internalKey 1)]
                                         pageSince := if x.page.isEmpty then s.clock else x.pageSince }
  | none => s

/-- Open a record. -/
def Dev.rowOpen (s : Dev) (e : Ev) (byLog : Bool) (time : Nat) : Dev :=
  s.setRow fun x => { x with
    open_ := some { seq := x.seq, id := e.id, byLog, clrgen := s.get Reg.ROW.CLRGEN.GEN, time, payload := e.payload }
    seq := (x.seq + 1) % 2 ^ 48 }

/-- Records lost while the log is stopped (R434, R442). -/
def Dev.rowLost (s : Dev) (n : Nat) : Dev :=
  (s.setRow fun r => { r with lostSince := r.lostSince + n, lostWhy := 2 }).count Reg.ROW.LOST.COUNT Reg.ROW.LOST.SAT n (rowPlain 0x237)

/-- A record from the holding queue (R433): Case A counts in the open record, B and C close it and open a new one. In
STOPPED only repeats are kept (R434); in POWER_FAIL every record is closed at once (R437). -/
def Dev.rowArrive (s : Dev) (h : HeldRec) : Dev :=
  match s.row.open_ with
  | some r =>
    let same := sameRecord h.ev.id h.ev.payload r
    if same && decide (r.cnt < 65535) then
      s.setRow fun x => { x with open_ := some { r with cnt := r.cnt + 1, lastUs := min 0xFFFFFFFF ((h.time - r.time) / 1000) } }
    else if s.rowState = 3 then s.rowLost 1
    else ((s.rowClose same).rowOpen h.ev h.byLog h.time)
  | none => if s.rowState = 3 then s.rowLost 1 else s.rowOpen h.ev h.byLog h.time

/-- ROW_RECORD_ARRIVAL: the oldest record of the holding queue, while ROW neither scans nor is frozen (R431, R433, R439). -/
def execRowRecordArrival (s : State) : Answer :=
  s.on fun s => (match s.row.holding with
    | h :: rest =>
      if s.rowState = 0 ∨ s.rowState = 2 then s
      else
        let s := (s.setRow fun r => { r with holding := rest }).rowArrive h
        let s := if s.rowState = 4 then s.rowClose false else s
        s.rowPump
    | [] => s)

/-- ROW_PAGE_FLUSH_TIMER: FLUSH_MS after the first pending record closed (R436). -/
def execRowPageFlushTimer (s : State) : Answer :=
  s.on fun s => (if s.row.page.isEmpty then s
    else (s.at (s.row.pageSince + s.get Reg.ROW.CFG.FLUSH_MS * fclkMs)).rowFull.rowErase.rowProgram true)

/-- Put records in the log from the next slot on. -/
def Dev.rowPlace (s : Dev) (l : List RowRec) : Dev :=
  l.foldl (fun s r => s.setRow fun x => { x with slots := x.slots.put x.next r, next := (x.next + 1) % rowSlots }) s

/-- A signed operation completes with KSL result `r` to the channel it came by (R373, R501). -/
def Dev.signedDone (s : Dev) (c : Channel2) (r : Nat) : Dev :=
  let status := if r = 0 then cSuccess else if r ≤ 2 then cSignature else cState
  match c with
  | .ring i => s.complete i status r r 0
  | .spdm n => s.send (.message n status [r])

/-- The clear record is in the log: LOG_CLEAR completes (R440). -/
def Dev.clearCheck (s : Dev) (l : List RowRec) : Dev :=
  match s.row.clearing with
  | some (seq, c) => if l.any fun r => r.seq == seq then (s.setRow fun r => { r with clearing := none }).signedDone c 0 else s
  | none => s

/-- ROW_PROGRAM_DONE (R436): `good` = what was programmed verifies. Without read-back a slot that fails is found when it is
read; with it, the record is programmed once more in the next slot, and dropped after that. -/
def execRowProgramDone (good : Bool) (s : State) : Answer :=
  s.on fun s => (let l := s.row.programming
    if l.isEmpty then s
    else
      let wrote := (s.rowPlace (l.map fun r => { r with tagOk := good, skip := !good && s.bit Reg.ROW.CFG.MODE })).setRow fun r => { r with programming := [], second := false }
      let done := wrote.clearCheck l
      if good || !s.bit Reg.ROW.CFG.MODE then done.rowPump
      else
        let t := wrote.count Reg.ROW.VERIFY_FAIL.COUNT Reg.ROW.VERIFY_FAIL.SAT 1 (rowPlain 0x237)
        if s.row.second then ((t.setBit Reg.ROW.STS.NOR_ERR true).raise (rowPlain 0x233)).rowPump
        else (t.setRow fun r => { r with programming := l, second := true }).rowErase)

/-- ROW_ERASE_DONE (R434): the block's records are gone; the first such erase sets WRAPPED. -/
def execRowEraseDone (s : State) : Answer :=
  s.on fun s => (match s.row.erasing with
    | none => s
    | some b =>
      let s := s.setRow fun r => { r with erasing := none, slots := r.slots.filter fun i _ => i / rowBlock != b }
      let s := if s.bit Reg.ROW.STS.WRAPPED then s else (s.setBit Reg.ROW.STS.WRAPPED true).raise (rowPlain 0x235)
      s.rowPump)

/-- The records of a block from its first slot to the first erased one. -/
def Dev.blockRun (s : Dev) (b : Nat) : List (Nat × RowRec) :=
  let l := (s.row.slots.list.filter fun e => e.1 / rowBlock == b)
  (l.zipIdx.filter fun x => x.1.1 == b * rowBlock + x.2).map (·.1)

/-- ROW_SCAN at VAON power-up (R438). -/
def Dev.rowScan (s : Dev) : Dev :=
  let firsts := s.row.slots.list.filter fun e => e.1 % rowBlock == 0
  let ok := fun (e : Nat × RowRec) => e.2.verifies (s.internalKey 1)
  let badFirst := (firsts.filter fun e => !ok e).length
  let best := (firsts.filter ok).foldl (fun (a : Option (Nat × RowRec)) e =>
    match a with | some x => if x.2.seq < e.2.seq then some e else a | none => some e) none
  let run := match best with | some x => s.blockRun (x.1 / rowBlock) | none => []
  let bad := badFirst + (run.filter fun e => !ok e).length
  let newest := (run.filter ok).getLast?
  let s := match best, newest with
    | some b, some n => (s.setRow fun r => { r with next := (b.1 + run.length) % rowSlots, seq := (n.2.seq + 1) % 2 ^ 48 }).set
        Reg.ROW.CLRGEN.GEN n.2.clrgen
    | _, _ => (s.setRow fun r => { r with next := 0, seq := 0 }).set Reg.ROW.CLRGEN.GEN 0
  let s := s.set Reg.ROW.STS.STATE 1
  let s := if bad = 0 then s
    else (s.count Reg.ROW.BAD_TAG.COUNT Reg.ROW.BAD_TAG.SAT bad (rowPlain 0x237)).raise (rowPlain 0x234)
  (s.raise (rowPlain 0x239)).rowPump
def execRowScan (s : State) : Answer := s.on fun s => (if s.rowState = 0 then s.rowScan else s)

/-- Oldest and newest SEQ that can be read. -/
def Dev.rowOldest (s : Dev) : Nat :=
  let gen := s.get Reg.ROW.CLRGEN.GEN
  let l := (s.row.slots.vals ++ s.row.programming ++ s.row.page ++ s.row.open_.toList).filter fun r => r.clrgen == gen
  match l.map (·.seq) with | [] => s.row.seq | a :: t => t.foldl min a
def Dev.rowNewest (s : Dev) : Nat := match s.row.open_ with | some r => r.seq | none => s.row.seq - 1

/-- LOG_CLEAR takes effect (R440): CLRGEN rises, and the clear record, first of the new generation, is opened and closed. -/
def Dev.rowClear (s : Dev) (signer : Nat) (c : Channel2) : Dev :=
  let e := rowEv 0x230 0 0 0 s.rowOldest s.rowNewest signer
  let s := s.rowClose false
  let s := s.set Reg.ROW.CLRGEN.GEN (s.get Reg.ROW.CLRGEN.GEN + 1)
  let seq := s.row.seq
  let s := (s.rowOpen e false s.calNow).rowClose false
  let s := s.setRow fun r => { r with clearing := some (seq, c) }
  (s.raise { e with writes := false, seq := some seq }).rowPump

/-- PFAIL_N (R437): the open record closes; the power-fail record is opened and closed; from then on each closed record is
programmed at once, and a freeze ends. -/
def Dev.rowPowerFail (s : Dev) : Dev :=
  let e := rowEv 0x231 0 0 (s.get Reg.HLD.STATUS.STATE) (s.get Reg.HLD.DIRTY_COUNT.COUNT) 0 (s.get Reg.HLD.FLUSH_EST.T_FLUSH_MS)
  let s := s.rowClose false
  let seq := s.row.seq
  let s := (s.rowOpen e false s.calNow).rowClose false
  let s := if s.rowState = 0 then s else s.set Reg.ROW.STS.STATE 4
  (s.raise { e with writes := false, seq := some seq }).rowPump

/-- The page commit before a chip reset (R437). -/
def Dev.rowCommit (s : Dev) : Dev :=
  let l := s.row.programming ++ s.row.page
  let s := (s.rowPlace l).setRow fun r => { r with programming := [], page := [], second := false }
  s.clearCheck l

/-- Last-record mode (R454): the open record closes and is programmed alone. -/
def Dev.rowLast (s : Dev) : Dev :=
  let r := s.row.open_.map (RowRec.sealed (s.internalKey 1))
  (s.rowPlace r.toList).setRow fun x => { x with open_ := none, lastRecord := true }

end Sys2Proof.Machine
end

