-- ==== Sys2Proof/Machine/Flush.lean ====
section
/-! DEFINITION. The flush (R59–R63, R204, R330, R450, R460): its start, the link drop of its step 4, its end; and the request of
an orderly chip reset. -/

namespace Sys2Proof.Machine

/-- PSQ.STS.STATE: 0 OFF, 1 OFF_WAIT, 2 PREFLIGHT, 3 UP, 4 ON, 5 FLUSH, 6 DOWN, 7 ABORT, 8 FAULT (R447). -/
def Dev.psqState (s : Dev) : Nat := s.get Reg.PSQ.STS.STATE
def Dev.setPsq (s : Dev) (f : Psq → Psq) : Dev := { s with psq := f s.psq }

/-- A PSQ, CKS or CAL event with the record payload of R465: slot, FAIL.KIND, PLL bit or CAL item, PSQ STATE before, step, RST_CAUSE,
sensed voltage and time in the step in µs; the STATE after is the present one. -/
def Dev.pwrEv (s : Dev) (id slot kind item before step cause mv us : Nat) : Ev :=
  Ev.make id true (slot % 16 + kind % 8 * 16 + item % 256 * 256)
    [(1, 1, before % 16 + s.psqState % 16 * 16), (2, 1, step), (3, 1, cause), (8, 2, mv), (10, 4, us)]
def Dev.pwrPlain (s : Dev) (id item : Nat) : Ev := s.pwrEv id 0 0 item s.psqState 0xFF 0 0 0

/-- A signed operation in progress or queued is abandoned: no effect and no completion (R373). -/
def Dev.abandonSigned (s : Dev) : Dev :=
  { s with island := { s.island with pending := none, queued := [] } }

/-- What a power failure takes precedence over (R63): GPF, PERSIST_FENCE, REGION_REVOKE, resync and patterns are abandoned without
a completion; a revoked region stays DRAINING. -/
def Dev.flushPrecedence (s : Dev) : Dev :=
  let s : Dev := { s with revokes := .empty }
  let m : Mirror := { s.mirror with gpf := [], persist := [], fences := s.mirror.fences.filter fun f => match f.what with | .command _ => true | _ => false }
  let s : Dev := { s with mirror := m }
  let s := if s.role = 1 ∧ s.pstate = 3 then s.startDetach else s
  s.engStopAll 2

/-- Start a flush (R59 step 2 and 3): admission closes, the dirty set is fixed, LC writes every DIRTY line back, and drives that
have nothing to write are flushed. -/
def Dev.startFlush (s : Dev) (k : FlushKind) : Dev :=
  let before := s.get Reg.HLD.STATUS.STATE
  let s := s.setPsq fun p => { p with flush := some k, flushAt := s.clock, flushFailed := false }
  let s := if s.imageOnline then s.set Reg.NVH.IMG_STS.STATE 6 else s
  let s := (s.set Reg.HLD.STATUS.STATE 4).raise (s.hldPlain 0x1B5 before 4)
  let s := s.flushPrecedence
  let dirty := (s.lc.list.filter fun e => e.2.ln.st == .dirty).map (·.1)
  (dirty.foldl Dev.lcWriteback s).settle.flushDrives

/-- Release the lease as a power-failing active does (R330): DRAINED when the pair is in lockstep and every record has been acknowledged. -/
def Dev.flushRelease (s : Dev) : Dev :=
  if s.role = 1 ∧ s.mirror.switchover.isNone then
    s.leaseRequest 5 { subtype := 5, epoch := 0, rseq := 0, pairId := 0, drained := s.lockstep && s.unacked.isEmpty && s.mirror.fwd.list.isEmpty }
  else s

/-- Step words (R445): OP, SLOT, TIME in FCLK cycles, EARLY, CRIT. -/
def Dev.stepWord (s : Dev) (i : Nat) : Nat := s.get (Reg.PSQ.PROG.STEP i)
def stepOp (w : Nat) : Nat := w / 2 ^ 28 % 16
def stepSlot (w : Nat) : Nat := w / 2 ^ 24 % 16
def stepTime (w : Nat) : Nat := w / 16 % 2 ^ 20 * (250 * fclkOclk)
def stepEarly (w : Nat) : Bool := w.testBit 0
def stepCrit (w : Nat) : Bool := w.testBit 1

/-- Drive a slot's enable. -/
def Dev.slotEn (s : Dev) (n : Nat) (on : Bool) : Dev :=
  s.set Reg.PSQ.RAILS.EN (if on then withBit (s.get Reg.PSQ.RAILS.EN) n else withoutBit (s.get Reg.PSQ.RAILS.EN) n)

/-- FLUSH_LINK_DROP (R59 step 4, R450): CXL links go down, held writes are discarded, the lease is released, and the EARLY steps
run unless the flush precedes a reset, which keeps the rails. -/
def Dev.linkDrop (s : Dev) (k : FlushKind) : Dev :=
  let s := s.flushRelease
  let s := (List.range 16).foldl (fun s H => if s.linkUp H then s.linkDown H 0 else s) s
  let s : Dev := { s with held := .empty, linkWait := []
                          rteWait := s.rteWait.filter fun q => q.write.isNone || q.admitted }
  let s := s.uncountIdle.flushDrives
  let s := s.setPsq fun p => { p with linksDown := true, earlyDone := k != FlushKind.preReset }
  if k = .preReset then s
  else ((List.range 32).map (· + 32)).foldl (fun s i =>
    let w := s.stepWord i
    if stepOp w = 2 ∧ stepEarly w then s.slotEn (stepSlot w) false else s) s
def execFlushLinkDrop (s : State) : Answer :=
  s.on fun s => (match s.psq.flush with
    | some k => if s.psq.linksDown then s else (s.at (s.psq.flushAt + fclkMs)).linkDrop k
    | none => s)

/-- The flush has done what it can: the links are down, and every drive in service has been flushed and its header written, or
there is no image to write. -/
def Dev.flushEnded (s : Dev) : Bool :=
  s.psq.linksDown && (s.get Reg.NVH.IMG_STS.STATE == 7 || !s.imageOnline || (List.range s.imageN).all fun d => !s.driveOk d)

/-- An orderly chip reset is requested (R424, R460): it joins a pre-reset flush, is discarded in another flush, and otherwise
starts one. Outside ON the chip is not running. -/
def Dev.requestReset (s : Dev) (cause : Nat) : Dev :=
  if s.psqState ≠ 4 ∨ s.psq.flush.isSome ∨ s.psq.reset.isSome then s
  else
    let s := (s.setPsq fun p => { p with reset := some cause }).raise (s.pwrEv 0x268 0 0 0 4 0xFF cause 0 0)
    s.startFlush .preReset

end Sys2Proof.Machine
end

