-- ==== Sys2Proof/Machine/React.lean ====
section
/-! DEFINITION. FCO: reaction entries, interrupts, the event queue, traps, block resets, first-fault latches and PULSE (R415–R430);
and the software commands of skein queues (R408–R412). -/

namespace Sys2Proof.Machine

/-- FCO saturation event. -/
def fcoSat : Ev := rowPlain 0x245

/-- A word of queue 0's storage, by its slot. -/
def Dev.queuePush (s : Dev) (i : BitVec 64) : Dev :=
  let w := (s.skein 0).wr
  let s := s.sramWrite flipSkein w
  (s.skeinPush 0 i).1

/-- Pop queue 0: an uncorrectable word resets the queue (R116, R409). -/
def Dev.queuePop (s : Dev) : Dev × BitVec 64 :=
  if (s.skein 0).items.isEmpty then s.skeinPop 0
  else
    let r := s.sramRead flipSkein (s.skein 0).rd 0
    if r.2 then (r.1.skeinReset 0 (some 2), idleItem) else r.1.skeinPop 0

/-- The first-fault latch of class c (R425): 0 INT, 1 TRAP, 2 BRST, 3 CRST, 4 PULSE. -/
def Dev.latch (s : Dev) (c : Nat) (e : Ev) : Dev :=
  if s.bit (Reg.FCO.LAT_ID.VALID c) then s.setBit (Reg.FCO.LAT_ID.OVERFLOW c) true
  else
    let s := ((s.set (Reg.FCO.LAT_ID.ID c) e.id).setBit (Reg.FCO.LAT_ID.VALID c) true).set (Reg.FCO.LAT_SYND.SYND c) e.synd.toNat
    s.setWide (Reg.FCO.LAT_TIME_LO.TIME c) (Reg.FCO.LAT_TIME_HI.TIME c) s.calNow

/-- Classes an entry selects, in the order of their numbers. -/
def Dev.classes (s : Dev) (i : Nat) : List Nat :=
  ([(0, Reg.FCO.REACT.INT i), (1, Reg.FCO.REACT.TRAP i), (2, Reg.FCO.REACT.BRST i), (3, Reg.FCO.REACT.CRST i),
    (4, Reg.FCO.REACT.PULSE i)].filter fun x => s.bit x.2).map (·.1)

/-- An event stops PULSE (R428). -/
def Dev.pulseStop (s : Dev) (e : Ev) : Dev :=
  if s.bit Reg.FCO.PULSE_STS.STOPPED then s
  else (s.setBit Reg.FCO.PULSE_STS.STOPPED true).raise (rowEv 0x243 0 e.id 0 0 0 0)

/-- Items of the event queue (R420). -/
def eventItem (e : Ev) (seq : Option Nat) : BitVec 64 :=
  BitVec.ofNat 64 (2 ^ 60 + 2 ^ 59 + e.id * 2 ^ 49 + (match seq with | some n => n % 2 ^ 17 | none => 0x1FFFF) * 2 ^ 32 + e.synd.toNat)
def lostItem (n : Nat) : BitVec 64 := BitVec.ofNat 64 (2 * 2 ^ 60 + 2 ^ 59 + 0x1FFFF * 2 ^ 32 + n % 2 ^ 32)

/-- Push an event's entry on queue 0, preceded by a LOST entry where entries were lost (R421). -/
def Dev.queueEvent (s : Dev) (e : Ev) (seq : Option Nat) : Dev :=
  let full := fun (s : Dev) => decide (4096 ≤ (s.skein 0).items.length)
  let lose := fun (s : Dev) =>
    ({ s with fco := { s.fco with evqSince := s.fco.evqSince + 1 } }).count Reg.FCO.EVQ_LOST.COUNT Reg.FCO.EVQ_LOST.SAT 1 fcoSat
  if full s then lose s
  else
    let n := s.fco.evqSince
    let s := if n = 0 then s
      else (({ s with fco := { s.fco with evqSince := 0 } }).queuePush (lostItem n)).raiseMs (rowEv 0x240 3 0 0 n 0 0)
    if full s then lose s else s.queuePush (eventItem e seq)

/-- Send an MSI-X message of FCO, or drop and count it (R419). -/
def Dev.fcoMsix (s : Dev) (target vector id : Nat) : Dev :=
  match s.msixDrop target vector with
  | some c => (s.count Reg.FCO.INT_DROP.COUNT Reg.FCO.INT_DROP.SAT 1 fcoSat).raiseMs (rowEv 0x241 c id 0 0 0 0)
  | none => s.msixSend target vector

/-- INT of an event (R419): a message, one per INT_GAP_US and (TARGET, VECTOR), or the management-core IRQ. -/
def Dev.interrupt (s : Dev) (id : Nat) : Dev :=
  let t := s.get (Reg.FCO.REACT.TARGET id)
  let v := s.get (Reg.FCO.REACT.VECTOR id)
  if t = 127 then
    let f := Reg.MGC.IRQ_PEND.PEND (id / 32)
    let s := s.set f (withBit (s.get f) (id % 32))
    if (s.get (Reg.MGC.IRQ_EN.EN (id / 32))).testBit (id % 32) then
      s.count Reg.MGC.IRQ_CNT.COUNT Reg.MGC.IRQ_CNT.SAT 1 (Ev.plain 0x211)
    else s
  else
    let k := t * 2048 + v
    let gap := s.get Reg.FCO.CFG.INT_GAP_US * fclkUs
    match s.fco.gaps.get? k with
    | some g =>
      if s.clock < g.last + gap then { s with fco := { s.fco with gaps := s.fco.gaps.put k { g with waiting := true, id } } }
      else ({ s with fco := { s.fco with gaps := s.fco.gaps.put k { last := s.clock } } }).fcoMsix t v id
    | none => ({ s with fco := { s.fco with gaps := s.fco.gaps.put k { last := s.clock } } }).fcoMsix t v id

/-- INT_GAP_EXPIRY of a (TARGET, VECTOR): the message that events inside the gap share (R419). -/
def execIntGapExpiry (target vector : Nat) (s : State) : Answer :=
  s.on fun s => (let k := target * 2048 + vector
    match s.fco.gaps.get? k with
    | some g =>
      let s := s.at (g.last + s.get Reg.FCO.CFG.INT_GAP_US * fclkUs)
      if g.waiting then ({ s with fco := { s.fco with gaps := s.fco.gaps.put k { last := s.clock } } }).fcoMsix target vector g.id
      else { s with fco := { s.fco with gaps := s.fco.gaps.del k } }
    | none => s)

/-- TRAP of an event on the cores of its entry, 0 being taken as core 0 (R417, R422). -/
def Dev.trap (s : Dev) (e : Ev) : Dev :=
  let m := s.get (Reg.FCO.REACT.CORES e.id)
  let m := if m = 0 then 1 else m
  ((List.range 4).filter fun k => m.testBit k).foldl (fun s k =>
    let s := ((s.set (Reg.MGC.TRAP_ID.ID k) e.id).setBit (Reg.MGC.TRAP_ID.VALID k) true).set (Reg.MGC.TRAP_SYND.SYND k) e.synd.toNat
    let f := Reg.MGC.CORE_STS.STATE k
    let s := s.set f (withBit (s.get f) 2)
    s.count48 (Reg.MGC.CNT_LO.COUNT k 2) (Reg.MGC.CNT_HI.COUNT k 2) 1 (Ev.plain 0x210)) s

/-- A block that BRST can reset (R423): HP0–HP3, STI, TWL, TWT, CCC, CMD, SNS. -/
def resetBlock (c : Nat) : Bool := [0x01, 0x02, 0x03, 0x04, 0x18, 0x1C, 0x1D, 0x1E, 0x22, 0x28].contains c

/-- Every Twinset port goes down and every association becomes DOWN. -/
def Dev.twinsetDown (s : Dev) : Dev :=
  let s := (List.range 4).foldl (fun s p =>
    if s.get (Reg.TWL.PORT_STS.SPEED p) = 0 then s
    else ((s.set (Reg.TWL.PORT_STS.SPEED p) 0).set (Reg.TWL.PORT_STS.LANES p) 0).raise (portEv 0x1C1 p)) s
  (s.assocs.list.filter fun e => e.2.state != 0).foldl (fun s e => s.assocDown e.1) s

/-- Effect of a block reset (R423). -/
def Dev.blockReset (s : Dev) (c : Nat) : Dev :=
  if 1 ≤ c ∧ c ≤ 4 then (s.headsOf (c - 1)).foldl (fun s H => s.headReset H false) s
  else if c = 0x18 then s.engStopAll 2
  else if c = 0x1C ∨ c = 0x1D ∨ c = 0x1E then s.twinsetDown
  else if c = 0x22 then { s with rings := s.rings.map fun _ x => if x.state = 1 then { x with state := 3, err := 1, mute := true } else x }
  else s

/-- BRST of an event (R423): held back within BRST_HOLD_MS of the block's last. -/
def Dev.brst (s : Dev) (e : Ev) : Dev :=
  let c := e.id / 16
  let held := match s.fco.brst.get? c with
    | some t => decide (s.clock < t + s.get Reg.FCO.CFG.BRST_HOLD_MS * fclkMs)
    | none => false
  if !resetBlock c then s
  else if held then (s.count Reg.FCO.BRST_SUPP.COUNT Reg.FCO.BRST_SUPP.SAT 1 fcoSat).raise (rowEv 0x242 0 e.id 0 0 0 0)
  else
    let f : Fco := { s.fco with brst := s.fco.brst.put c s.clock, resetting := s.fco.resetting.put c () }
    ({ s with fco := f }).blockReset c

/-- BLOCK_RESET_COMPLETE: the block raises events again (R423). -/
def execBlockResetComplete (block : Nat) (s : State) : Answer :=
  s.on fun s => { s with fco := { s.fco with resetting := s.fco.resetting.del block } }

/-- CRST of an event (R424, R460). -/
def Dev.crst (s : Dev) : Dev := s.requestReset 3

/-- The reactions of one event, in the order of R418; the record that LOG asks for precedes the queue entry, which names it. -/
def Dev.react (s : Dev) (e : Ev) : Dev :=
  let l := s.classes e.id
  let s := l.foldl (fun s c => s.latch c e) s
  let s := if l.contains 4 then s.pulseStop e else s
  let r := if !e.writes && e.seq.isNone && s.bit (Reg.FCO.REACT.LOG e.id) then s.holdRecord e true else (s, e.seq)
  let s := if r.1.bit (Reg.FCO.REACT.QUEUE e.id) then r.1.queueEvent e r.2 else r.1
  let s := if l.contains 0 then s.interrupt e.id else s
  let s := if l.contains 1 then s.trap e else s
  let s := if l.contains 2 then s.brst e else s
  if l.contains 3 then s.crst else s

/-- EVENT_REACTION: FCO takes the next event in the order of R416. -/
def execEventReaction (s : State) : Answer :=
  s.on fun s => (match s.fco.inbox with
    | (t, e) :: rest => ((({ s with fco := { s.fco with inbox := rest } }).at t).react e)
    | [] => s)

/-- FIRST_FAULT_LATCH_CLEAR of class c (R426). -/
def Dev.latchClear (s : Dev) (c : Nat) : Dev :=
  let s := ((s.set (Reg.FCO.LAT_ID.ID c) 0).setBit (Reg.FCO.LAT_ID.VALID c) false).setBit (Reg.FCO.LAT_ID.OVERFLOW c) false
  (s.set (Reg.FCO.LAT_SYND.SYND c) 0).setWide (Reg.FCO.LAT_TIME_LO.TIME c) (Reg.FCO.LAT_TIME_HI.TIME c) 0
def execFirstFaultLatchClear (c : Nat) (s : State) : Answer := s.on fun s => (if c < 5 then s.latchClear c else s)

/-- PULSE_TOGGLE: 25,000 OCLK after the last edge or restart (R427). -/
def execPulseToggle (s : State) : Answer :=
  s.on fun s => (if s.bit Reg.FCO.PULSE_CTL.RUN && !s.bit Reg.FCO.PULSE_STS.STOPPED then
      let s := s.at (s.fco.pulseAt + 25000 * fclkOclk)
      let v := !s.bit Reg.FCO.PULSE_STS.LEVEL
      (({ s with fco := { s.fco with pulseAt := s.clock } }).setBit Reg.FCO.PULSE_STS.LEVEL v).send (.pulse v)
    else s)

/-- A write of PULSE_CTL.RUN (R430): 1 restarts PULSE, unless the PULSE latch is valid, where the write is discarded. -/
def Dev.pulseRun (s : Dev) (on : Bool) : Dev :=
  if !on then s.setBit Reg.FCO.PULSE_CTL.RUN false
  else if s.bit (Reg.FCO.LAT_ID.VALID 4) then
    (s.discard 0x900008 0).raise (rowEv 0x244 0 (s.get (Reg.FCO.LAT_ID.ID 4)) 0 0 0 0)
  else ((({ s with fco := { s.fco with pulseAt := s.clock } }).setBit Reg.FCO.PULSE_CTL.RUN true).setBit
    Reg.FCO.PULSE_STS.STOPPED false)
def execPulseRunWrite (on : Bool) (s : State) : Answer := s.on fun s => (s.pulseRun on)

/-- PULSE stops at its level and RUN clears (R429). -/
def Dev.pulseHalt (s : Dev) : Dev := s.setBit Reg.FCO.PULSE_CTL.RUN false
def execVioAonOutOfRegulation (s : State) : Answer := s.on fun s => s.pulseHalt

/-- MSIX_VECTOR_UNMASK: a host unmasks a vector, or the function mask; messages held pending are sent (R419). -/
def execMsixVectorUnmask (func : Nat) (vector : Option Nat) (s : State) : Answer :=
  s.on fun s => (let m := s.msix func
    let m := match vector with | some v => { m with unmasked := m.unmasked.put v () } | none => { m with fmask := false }
    let go := if m.fmask then [] else m.pba.keys.filter m.unmasked.has
    let s := s.setMsix func { m with pba := m.pba.filter fun v _ => !go.contains v }
    go.foldl (fun s v => s.send (.msix func v)) s)

/-- SKQ_POP_READ: a read of POP_LO pops from a software queue, and latches POP_HI; from another queue it answers the idle item
(R412). -/
def Dev.skqPop (s : Dev) : Dev × Nat :=
  let q := s.get Reg.SKQ.Q_SEL.QUEUE
  let r := if skeinSw q then s.queuePop else (s, idleItem)
  ((r.1.set Reg.SKQ.POP_LO.ITEM (r.2.toNat % 2 ^ 32)).set Reg.SKQ.POP_HI.ITEM (r.2.toNat / 2 ^ 32), r.2.toNat % 2 ^ 32)
def execSkqPopRead (s : State) : Answer := s.on fun s => (let r := s.skqPop; r.1.send (.regData 0xA40014 r.2))

/-- DROP_PKT and RESET of the queue shown, on software queues only (R411, R412). -/
def Dev.skqDrop (s : Dev) : Dev :=
  let q := s.get Reg.SKQ.Q_SEL.QUEUE
  if skeinSw q then s.skeinDrop q else s.discard 0xA40010 0
def Dev.skqReset (s : Dev) : Dev :=
  let q := s.get Reg.SKQ.Q_SEL.QUEUE
  if skeinSw q then s.skeinReset q none else s.discard 0xA40010 0
def execDropPkt (s : State) : Answer := s.on fun s => s.skqDrop
def execSkqReset (s : State) : Answer := s.on fun s => s.skqReset

end Sys2Proof.Machine
end

