-- ==== Sys2Proof/Machine/Rings.lean ====
section
/-! DEFINITION. CMD: doorbells, descriptor fetch, ring enable and disable, and the commands a ring carries that no other block
defines — regions, tier hints, copies, persist fences and reads of the device's logs (R388–R406). -/

namespace Sys2Proof.Machine

/-- Bits `w` from bit `lo` of a descriptor. -/
def dBits (d : BitVec 512) (lo w : Nat) : Nat := (d.extractLsb' lo w).toNat

/-- Fields of the command an opcode names beside the header, PTR and LEN: first bit and width (R403); `none` = no command. -/
def descFields (op : Nat) : Option (List (Nat × Nat)) :=
  match op with
  | 0x01 => some [(160, 16), (176, 16), (192, 2), (196, 4), (224, 32), (256, 32)]
  | 0x02 => some [(160, 16), (176, 16)]
  | 0x03 => some [(160, 16), (176, 16), (192, 8)]
  | 0x04 => some [(160, 16), (176, 16), (192, 8)]
  | 0x08 => some []
  | 0x10 => some [(160, 16), (176, 16), (192, 8), (256, 64), (320, 32)]
  | 0x11 => some [(160, 16), (176, 16), (192, 16), (208, 16), (256, 64), (320, 64), (384, 32)]
  | 0x12 => some [(160, 16), (176, 16), (192, 8)]
  | 0x18 => some [(160, 8), (176, 16), (192, 16)]
  | 0x19 => some [(160, 8), (168, 8), (176, 16), (192, 16), (256, 256)]
  | 0x1A => some [(160, 8)]
  | 0x20 => some [(160, 16)]
  | 0x21 => some [(160, 64), (224, 32)]
  | 0x22 => some []
  | 0x23 => some [(160, 16)]
  | 0x24 => some [(160, 16), (256, 256)]
  | 0x28 => some [(160, 8)]
  | 0x29 => some [(160, 8)]
  | 0x2A => some [(160, 8)]
  | 0x2B => some [(160, 8), (168, 8), (176, 16)]
  | 0x30 => some [(160, 8), (192, 64)]
  | 0x31 => some []
  | _ => none

/-- The first byte of a descriptor with a bit set that must be 0 (R394). -/
def descReserved (d : BitVec 512) (fields : List (Nat × Nat)) : Option Nat :=
  let named := [(0, 10), (16, 16), (64, 96)] ++ fields
  let mask := named.foldl (fun (m : BitVec 512) f => m ||| (BitVec.allOnes 512 >>> (512 - f.2)) <<< f.1) 0
  (List.range 64).find? fun b => dBits (d &&& ~~~mask) (8 * b) 8 != 0

/-- Issuer class of a command (R402, R403). -/
inductive CmdClass | m | t | b | a
  deriving DecidableEq, Repr

/-- The class that a descriptor asks of its issuer; signed operations go with A, their signer being the authority. -/
def descClass (op : Nat) (d : BitVec 512) : CmdClass :=
  let page := dBits d 160 16
  if op ≤ 4 ∨ (0x10 ≤ op ∧ op ≤ 0x12) then .t
  else if op = 0x19 ∨ op = 0x1A then .b
  else if op = 0x20 ∨ op = 0x21 ∨ op = 0x28 ∨ op = 0x2A ∨ op = 0x2B ∨ op = 0x30 then .m
  else if op = 0x23 then (if page / 64 = 0x00 ∨ page / 64 = 0x28 ∨ page / 64 = 0x1B then .a else .m)
  else if op = 0x29 then (if dBits d 160 8 ≤ 1 then .m else .a)
  else .a

/-- The issuer's function meets a class as far as the descriptor alone shows. -/
def Dev.meetsClass (s : Dev) (f : Nat) : CmdClass → Bool
  | .m => f == 64
  | .t => f == 64 || s.island.store.bind.has f
  | .b => f == 64 || s.island.store.bind.has f
  | .a => true

/-- What a descriptor names for its record (R414): a region, engine or loan. -/
def descNamed (op : Nat) (d : BitVec 512) : Nat :=
  if op = 2 ∨ op = 3 ∨ op = 4 ∨ op = 0x10 ∨ op = 0x11 ∨ op = 0x12 then dBits d 160 16
  else if op = 0x18 ∨ op = 0x19 ∨ op = 0x1A then dBits d 160 8
  else if op = 0x2B then dBits d 176 16
  else 0xFFFF

/-- What a descriptor names device-wide (R400, R440). -/
def descWants (op : Nat) (d : BitVec 512) : List Nat :=
  if op = 1 then [resSlot (dBits d 176 16)]
  else if op = 2 ∨ op = 3 ∨ op = 4 ∨ op = 0x10 then [resRegion (dBits d 160 16)]
  else if op = 0x11 then [resRegion (dBits d 160 16), resRegion (dBits d 192 16)]
  else if op = 0x12 ∧ dBits d 192 8 = 0 then [resRegion (dBits d 160 16)]
  else if op = 0x18 ∨ op = 0x19 ∨ op = 0x1A then [resEngine (dBits d 160 8)]
  else if op = 0x30 then [resTarget (dBits d 160 8)]
  else if op = 0x21 ∨ op = 0x22 then [resLog]
  else []

/-- The byte of a descriptor's ACTION or SUBOP that names none of its command's (R403). -/
def descAction (op : Nat) (d : BitVec 512) : Option Nat :=
  if op = 0x10 then (if 3 < dBits d 192 8 then some 24 else none)
  else if op = 0x28 ∨ op = 0x2A ∨ op = 0x2B then (if 1 < dBits d 160 8 then some 20 else none)
  else if op = 0x29 then (if 4 < dBits d 160 8 then some 20 else none)
  else none

/-- The device has no valid configuration: only signed operations and ATTEST are served (R365). -/
def Dev.unserved (s : Dev) (op : Nat) (d : BitVec 512) : Bool :=
  s.get Reg.KSL.OWN_STS.STATE == 2 &&
    !(op == 0x08 || op == 0x22 || op == 0x24 || op == 0x31 || (op == 0x29 && dBits d 160 8 == 2))

/-- CMD takes one descriptor (R393, R394, R402): checked, and refused at once or passed on to wait for its start. An opcode that
is no command waits for its own completion. -/
def Dev.takeDesc (s : Dev) (f r : Nat) (d : BitVec 512) : Dev :=
  let x := s.ring f r
  let op := dBits d 0 8
  let t : Taken := { tag := dBits d 16 16, opcode := op, irq := d.getLsbD 9, fence := d.getLsbD 8, order := s.takes
                     wants := descWants op d, named := descNamed op d }
  let s : Dev := { s with takes := s.takes + 1 }
  let s := s.setRing f r { x with sqHead := (x.sqHead + 1) % 2 ^ x.sqLog2, taken := x.taken ++ [t] }
  let i : Issuer := { func := f, ring := r, tag := t.tag, irq := t.irq }
  match descFields op with
  | none => s
  | some l =>
    if !s.meetsClass f (descClass op d) then s.refuseCmd i cNotPermitted 0
    else if s.unserved op d then s.refuseCmd i cNotActive 0
    else match (descReserved d l).orElse fun _ => descAction op d with
      | some b => s.refuseCmd i cInvalidField b
      | none => s

/-- Descriptors of a ring that CMD may take now (R393): pending, within BURST, and with room in the completion queue. -/
def Dev.takeRoom (s : Dev) (x : Ring) : Nat :=
  let pending := (x.tail + 2 ^ x.sqLog2 - x.sqHead) % 2 ^ x.sqLog2
  let unread := (x.cqTail + 2 ^ x.cqLog2 - x.cqHead) % 2 ^ x.cqLog2
  min (min pending (s.get Reg.CMD.CFG.BURST)) (2 ^ x.cqLog2 - 1 - (x.taken.length + unread))

/-- A ring enters ERROR (R393): its completions are no longer written. -/
def Dev.ringError (s : Dev) (f r err addr : Nat) : Dev :=
  let x := s.ring f r
  let s := s.setRing f r { x with state := 3, err, mute := true }
  let s := s.count Reg.CMD.DMA_ERR.COUNT Reg.CMD.DMA_ERR.SAT 1 (Ev.plain 0x22A)
  s.raise (cmdEv 0x221 false f x.gring 0 0 0xFFFF 0 0 addr)

/-- DESCRIPTOR_FETCH of a ring: what its read of descriptors brings, or a failure of that read or of a completion write. -/
def execDescriptorFetch (func ring : Nat) (got : FetchEnd) (s : State) : Answer :=
  s.on fun s => (let x := s.ring func ring
    if x.state ≠ 1 then s
    else match got with
      | .writeFailed a => s.ringError func ring 2 a
      | .readFailed => s.ringError func ring 1 (x.sqBase + 64 * x.sqHead)
      | .descs l =>
        if s.bit Reg.CMD.CFG.ENABLE then (l.take (s.takeRoom x)).foldl (fun s d => s.takeDesc func ring d) s else s)

/-- INVALID_OPCODE: a taken descriptor whose opcode is no command (R396). -/
def execInvalidOpcode (i : Issuer) (s : State) : Answer :=
  s.on fun s => (match s.takenOf i with
    | some t => if (descFields t.opcode).isNone then s.ringCmd i t.opcode 0 0xFFFF [] fun s => s.refuseCmd i cInvalidOpcode 0 else s
    | none => s)

/-- A BAR0 offset of a management ring's doorbell page (R391). -/
def doorbellOff (ring reg : Nat) : Nat := 0x890000 + 0x1000 * ring + reg

/-- A doorbell write that a ring does not take (R392): counted with the discarded writes of BAR0 where it came through it. -/
def Dev.badDoorbell (s : Dev) (func ring reg cause id : Nat) : Dev :=
  let s := if func = 64 then s.discard (doorbellOff ring reg) cause else s
  if id = 0 then s else s.raise (cmdEv id false func (s.ring func ring).gring 0 0 0xFFFF 0 0 0)

/-- SQ_TAIL_WRITE (R392). -/
def Dev.tailWrite (s : Dev) (func ring tail : Nat) : Dev :=
  let x := s.ring func ring
  if x.state ≠ 1 then s.badDoorbell func ring 0 0 0x227
  else if 2 ^ x.sqLog2 ≤ tail then s.badDoorbell func ring 0 2 0x222
  else s.setRing func ring { x with tail }
def execSqTailWrite (func ring tail : Nat) (s : State) : Answer := s.on fun s => (s.tailWrite func ring tail)

/-- CQ_HEAD_WRITE (R393): entries up to HEAD are released. -/
def Dev.headWrite (s : Dev) (func ring head : Nat) : Dev :=
  let x := s.ring func ring
  if x.state = 0 then s.badDoorbell func ring 4 0 0
  else if 2 ^ x.cqLog2 ≤ head then s.badDoorbell func ring 4 2 0
  else s.setRing func ring { x with cqHead := head }
def execCqHeadWrite (func ring head : Nat) (s : State) : Answer := s.on fun s => (s.headWrite func ring head)

/-- Global ring numbers in the pool (R388). -/
def Dev.ringPool (s : Dev) : List Nat :=
  let used := (s.rings.list.filter fun e => e.2.state != 0).map fun e => e.2.gring
  (List.range 1024).filter fun n => !used.contains n

/-- RING_ENABLE (R390): a number is taken from the pool, whichever it is, and both indices start at 0. -/
def Dev.ringEnable (s : Dev) (func ring : Nat) : Dev :=
  let x := s.ring func ring
  let no := fun (err : Nat) => (s.setRing func ring { x with enable := true, err }).raise (cmdEv 0x226 false func 0 0 0 0xFFFF 0 0 0)
  if x.state ≠ 0 then s
  else if x.sqBase % 4096 ≠ 0 ∨ x.cqBase % 4096 ≠ 0 then no 4
  else if s.ringCount func ≤ s.ringsOf func ∨ s.ringPool.isEmpty then no 3
  else
    let p := s.ringPool
    let c := s.choose p.length
    let gring := p.getD c.1 0
    (c.2.setRing func ring { x with
      enable := true, state := 1, gring, err := 0, tail := 0, sqHead := 0, cqTail := 0, cqHead := 0, phase := true
      unsignalled := 0, mute := false }).raise (cmdEv 0x220 false func gring 0 0 0xFFFF 0 0 0)
def execRingEnable (func ring : Nat) (s : State) : Answer :=
  s.on fun s => (if func ≤ 64 ∧ ring < 16 then s.ringEnable func ring else s)

/-- RING_DISABLE (R390): the ring drains, and is DISABLED once nothing is outstanding. -/
def Dev.ringDisable (s : Dev) (func ring : Nat) : Dev :=
  let x := s.ring func ring
  let x := { x with enable := false }
  s.setRing func ring (if x.state = 0 then x else if x.taken.isEmpty then { x with state := 0 } else { x with state := 2 })
def execRingDisable (func ring : Nat) (s : State) : Answer := s.on fun s => (s.ringDisable func ring)

/-- COMPLETION_SIGNAL_TIMER: TIME_US after the first unsignalled completion (R398). -/
def execCompletionSignalTimer (func ring : Nat) (s : State) : Answer :=
  s.on fun s => (let x := s.ring func ring
    if x.irqEn ∧ x.coalTime ≠ 0 ∧ x.unsignalled ≠ 0 then (s.at (x.firstUnsig + x.coalTime * fclkUs)).signalRing func ring else s)

/-- A command that a device which does not serve refuses (R304). -/
def Dev.ringActive (s : Dev) (i : Issuer) (opcode kind named : Nat) (res : List Nat) (f : Dev → Dev) : Dev :=
  s.ringCmd i opcode kind named res fun s => if s.serves then f s else s.refuseCmd i cNotActive 0

/-- A command on one region, checked as R400 says when it starts. -/
def Dev.regionCmd (s : Dev) (i : Issuer) (opcode region gen : Nat) (f : Dev → Region → Dev) : Dev :=
  s.ringActive i opcode 0 region [resRegion region] fun s =>
    match s.regionFault i region gen, s.regions.get? region with
    | some (c, d), _ => s.refuseCmd i c d
    | none, some r => f s r
    | none, none => s.refuseCmd i cState 0

/-- The key slot a new region may name: ACTIVE, and of its owner (R404). -/
def Dev.slotMayServe (s : Dev) (owner : Nat) (slot : Option Nat) : Bool :=
  match slot with
  | none => true
  | some k => decide (k < 4096) && s.slotState k == .active && (s.slot k).tenant == owner

/-- REGION_CREATE (R34, R35, R230, R404). -/
def Dev.regionCreate (s : Dev) (i : Issuer) (tenant slot : Nat) (twin mirror : Bool) (policy base size : Nat) : Dev :=
  let owner := if i.isM then tenant else (s.tenantOf i).getD 0
  let key := if slot = 0xFFFF then none else some slot
  let n := s.regions.firstFree
  if if i.isM then 1023 < tenant else tenant ≠ 0 then s.refuseCmd i cInvalidField 20
  else if !s.slotMayServe owner key then s.refuseCmd i cNotPermitted 0
  else if twin && !mirror || policy.testBit 3 || policy.testBit 0 && key.isNone then s.refuseCmd i cInvalidField 24
  else if size = 0 ∨ 2 ^ 25 < base + size then s.refuseCmd i cInvalidField 32
  else if s.regions.list.any fun e => decide (base < e.2.base + e.2.size) && decide (e.2.base < base + size) then
    s.refuseCmd i cInvalidField 28
  else if 4096 ≤ n then s.refuseCmd i cNoResource 0
  else
    let gen := (s.gens.getD n 0 + 1) % 65536
    let r : Region := { base, size, tenant := owner, slot := key, twin, mirror, policy, gen }
    (s.enterRegion n r).logRegion n [.command (.regionCreate n r (s.regionFingerprint r)) (.ring i) (n + gen * 65536) 0]
def execRegionCreate (i : Issuer) (tenant slot : Nat) (twin mirror : Bool) (policy base size : Nat) (s : State) : Answer :=
  s.on fun s => (s.ringActive i 0x01 0 0xFFFF [resSlot slot] fun s => s.regionCreate i tenant slot twin mirror policy base size)

/-- REGION_DESTROY (R404). -/
def execRegionDestroy (i : Issuer) (region gen : Nat) (s : State) : Answer :=
  s.on fun s => (s.regionCmd i 0x02 region gen fun s r =>
    if !r.attached.isEmpty then s.refuseCmd i cState 0
    else ({ s with destroys := s.destroys.put region { issuer := i, gen } }).destroyCheck)

/-- REGION_ATTACH (R79, R404). -/
def execRegionAttach (i : Issuer) (region gen gld : Nat) (s : State) : Answer :=
  s.on fun s => (s.regionCmd i 0x03 region gen fun s r =>
    if 63 < gld then s.refuseCmd i cInvalidField 24
    else match s.offerFault gld region r with
      | some 1 => s.refuseCmd i cNoResource 0
      | some 2 => s.refuseCmd i cState 0
      | some _ => s.refuseCmd i cNotPermitted 0
      | none => s.openOffer gld region r (.ring i))

/-- Revoke a region from every LD (R80 Case C, R295): DRAINING at once, with its record; each host is asked, and a release that is
pending already is forced at its end. -/
def Dev.revokeWhole (s : Dev) (i : Issuer) (region : Nat) (r : Region) : Dev :=
  let s : Dev := { s with regions := s.regions.put region { r with draining := true }
                          revokes := s.revokes.put region { gld := none, issuer := i } }
  let s := (s.cutStreams region).logRegion region []
  let s := r.attached.foldl (fun s g =>
    let l := s.ld g
    if l.releases.has region then
      s.setLd g { l with releases := l.releases.upd region fun p => { p with forced := true } }
    else s.askRelease g region true false .revoke) s
  s.revokeCheck region

/-- REGION_REVOKE (R80, R295, R404). -/
def execRegionRevoke (i : Issuer) (region gen gld : Nat) (s : State) : Answer :=
  s.on fun s => (s.regionCmd i 0x04 region gen fun s r =>
    if gld = 0xFF then s.revokeWhole i region r
    else if 63 < gld then s.refuseCmd i cInvalidField 24
    else if !r.attached.contains gld then s.refuseCmd i cState 0
    else if (s.ld gld).releases.has region then s.refuseCmd i cBusy 0
    else ({ s with revokes := s.revokes.put region { gld := some gld, issuer := i } }).askRelease gld region true false .revoke)

/-- The run of granules a TIER_HINT names: its first granule and their number, clipped at the region's end (R231). -/
def hintRunOf (r : Region) (first count : Nat) : Nat × Nat :=
  let all := r.size * 512
  (r.base * 512 + first, min count (all - first))

/-- A TIER_HINT (R231): `go` acts on the run. -/
def Dev.tierHint (s : Dev) (i : Issuer) (region gen first count : Nat) (go : Dev → Nat → Nat → Dev) : Dev :=
  s.regionCmd i 0x10 region gen fun s r =>
    if r.size * 512 ≤ first then s.refuseCmd i cInvalidField 32
    else if count = 0 ∨ 2 ^ 24 < count then s.refuseCmd i cInvalidField 40
    else let x := hintRunOf r first count; go s x.1 x.2

/-- TIER_HINT PROMOTE: it completes when its fills are queued (R231, R404). -/
def execTierHintPromote (i : Issuer) (region gen first count : Nat) (s : State) : Answer :=
  s.on fun s => (s.tierHint i region gen first count fun s a n =>
    let key := match s.takenOf i with | some t => t.order | none => 0
    ({ s with hints := s.hints.put key { issuer := i, next := a, stop := a + n } }).hintPump)

/-- TIER_HINT COLD (R231). -/
def execTierHintCold (i : Issuer) (region gen first count : Nat) (s : State) : Answer :=
  s.on fun s => (s.tierHint i region gen first count fun s a n =>
    let r := (List.range n).foldl (fun (x : Dev × Nat) k =>
      let y := x.1.cold (a + k); (y.1, if y.2 then x.2 + 1 else x.2)) (s, 0)
    r.1.complete i cSuccess 0 r.2 0)

/-- Pin granules in order until one is refused (R229): the state, the count pinned, and whether all were. -/
def Dev.pinRun (s : Dev) (g count : Nat) : Nat → Dev × Nat × Bool
  | 0 => (s, count, true)
  | n + 1 =>
    let r := s.pinGran g
    if r.2 then r.1.pinRun (g + 1) (count + 1) n else (r.1, count, false)

/-- TIER_HINT PIN (R229, R231). -/
def execTierHintPin (i : Issuer) (region gen first count : Nat) (s : State) : Answer :=
  s.on fun s => (s.tierHint i region gen first count fun s a n =>
    let r := s.pinRun a 0 n
    r.1.complete i (if r.2.2 then cSuccess else cQuota) 0 r.2.1 0)

/-- TIER_HINT UNPIN (R229). -/
def execTierHintUnpin (i : Issuer) (region gen first count : Nat) (s : State) : Answer :=
  s.on fun s => (s.tierHint i region gen first count fun s a n =>
    let acted := ((List.range n).filter fun k => (s.fme (a + k)).pin).length
    ((List.range n).foldl (fun s k => s.unpin (a + k)) s).complete i cSuccess 0 acted 0)

/-- The checks of R400 on a COPY's source, which an issuer may also reach through an attachment (R402). -/
def Dev.sourceFault (s : Dev) (i : Issuer) (region gen : Nat) : Option (Nat × Nat) :=
  if 4095 < region then some (cInvalidField, 20)
  else match s.regions.get? region with
  | none => some (cState, 0)
  | some r => if !s.mayOwn i r.tenant && !r.attached.contains i.func then some (cNotPermitted, 0)
    else if r.gen ≠ gen then some (cStaleGen, 0) else none

/-- Two ranges of the same number of bytes overlap. -/
def overlaps (a b n : Nat) : Bool := decide (a < b + n) && decide (b < a + n)

/-- COPY (R401, R403, R404): its lines are read through RTE, and written as they come. -/
def Dev.copyStart (s : Dev) (i : Issuer) (src srcGen dst dstGen srcOfs dstOfs lines : Nat) : Dev :=
  match s.sourceFault i src srcGen, s.regionFault i dst dstGen, s.regions.get? src, s.regions.get? dst with
  | some (c, d), _, _, _ => s.refuseCmd i c d
  | none, some (c, d), _, _ => s.refuseCmd i c (if c = cInvalidField then d + 4 else d)
  | none, none, some a, some b =>
    if lines = 0 ∨ 2 ^ 24 < lines then s.refuseCmd i cInvalidField 48
    else if srcOfs % 64 ≠ 0 ∨ a.size * 2 ^ 21 < srcOfs + lines * 64 then s.refuseCmd i cInvalidField 32
    else if dstOfs % 64 ≠ 0 ∨ b.size * 2 ^ 21 < dstOfs + lines * 64 ∨ (src = dst ∧ overlaps srcOfs dstOfs (lines * 64)) then
      s.refuseCmd i cInvalidField 40
    else
      let key := match s.takenOf i with | some t => t.order | none => 0
      let srcLine := a.base * 2 ^ 15 + srcOfs / 64
      let j : CopyJob := { issuer := i, src, dst, srcLine, dstLine := b.base * 2 ^ 15 + dstOfs / 64, lines }
      let s : Dev := { s with copies := s.copies.put key j }
      ((List.range lines).foldl (fun s k =>
        s.arrive { head := copyHead, gld := i.func, tag := 0, line := srcLine + k, via := .copy key k }) s).settle
  | _, _, _, _ => s.refuseCmd i cState 0
def execCopyLines (i : Issuer) (src srcGen dst dstGen srcOfs dstOfs lines : Nat) (s : State) : Answer :=
  s.on fun s => (s.ringActive i 0x11 0 dst [resRegion src, resRegion dst] fun s => s.copyStart i src srcGen dst dstGen srcOfs dstOfs lines)

/-- PERSIST_FENCE (R47): `scope` 0 the region, 1 the issuer's tenant, or every region for the management function. -/
def Dev.persistFence (s : Dev) (i : Issuer) (region gen scope : Nat) : Dev :=
  let inScope := fun (n : Nat) (r : Region) => if scope = 0 then n == region else s.mayOwn i r.tenant
  let mine := fun (q : HostReq) => match s.regionAt (granOf q.line) with | some (n, r) => inScope n r | none => false
  let fault := if scope = 0 then s.regionFault i region gen else none
  match fault with
  | some (c, d) => s.refuseCmd i c d
  | none =>
    if 1 < scope then s.refuseCmd i cInvalidField 24
    else
      let busy := fun (n : Nat) => s.destroys.has n || s.revokes.has n || s.logWait.any fun w => w.recd.region == n
      let w : PersistWait := { issuer := i, stay := if s.lockstep then some s.mirror.stay else none, writes := s.openWrites.filter mine
                               regions := (s.regions.list.filter fun e => inScope e.1 e.2 && busy e.1).map (·.1)
                               mirrored := s.regions.list.any fun e => inScope e.1 e.2 && e.2.mirror }
      let m : Mirror := { s.mirror with persist := s.mirror.persist ++ [w] }
      ({ s with mirror := m }).gpfCheck
def execPersistFence (i : Issuer) (region gen scope : Nat) (s : State) : Answer :=
  s.on fun s => (s.ringActive i 0x12 0 (if scope = 0 then region else 0xFFFF) (if scope = 0 then [resRegion region] else []) fun s =>
    s.persistFence i region gen scope)

/-- Output of a command goes to its buffer, and the command completes; or the write of the buffer fails (R397). -/
def Dev.putBuffer (s : Dev) (i : Issuer) (ptr : Nat) (ok : Bool) (words : List (BitVec 64)) (r0 r1 : Nat) : Dev :=
  if ok then (s.send (.hostWrite i.func ptr words)).complete i cSuccess 0 r0 r1 else s.completeAt i cDma 0 0 0 ptr

/-- Pop up to `n` entries from queue 0 (R420). -/
def Dev.popEvents (s : Dev) : Nat → Dev × List (BitVec 64)
  | 0 => (s, [])
  | n + 1 =>
    if (s.skein 0).items.isEmpty then (s, [])
    else
      let r := s.queuePop
      if r.2 = idleItem then (r.1, []) else let x := r.1.popEvents n; (x.1, r.2 :: x.2)

/-- EVENT_READ (R397, R420): where its buffer write fails, the events stay. -/
def execEventRead (i : Issuer) (max ptr : Nat) (ok : Bool) (s : State) : Answer :=
  s.on fun s => (s.ringCmd i 0x20 1 0xFFFF [] fun s =>
    if !i.isM then s.refuseCmd i cNotPermitted 0
    else if ptr % 4 ≠ 0 then s.refuseCmd i cInvalidField 8
    else if !ok then s.completeAt i cDma 0 0 0 ptr
    else let r := s.popEvents max; r.1.putBuffer i ptr true r.2 r.2.length 0)

/-- A record as LOG_READ returns it: 64 bytes; the open record has no TAG (R432, R439). -/
def rowBytes (bad isOpen : Bool) (r : RowRec) : List (BitVec 64) := r.words bad isOpen ++ [if isOpen then 0 else BitVec.ofNat 64 r.tag]

/-- Records LOG_READ may return from FIRST on, in SEQ order, the open one last (R439). -/
def Dev.readable (s : Dev) (first : Nat) : List RowRec :=
  let gen := s.get Reg.ROW.CLRGEN.GEN
  let key := s.internalKey 1
  let closed := (s.row.slots.vals ++ s.row.programming ++ s.row.page).filter fun r => r.clrgen == gen && decide (first ≤ r.seq) && !r.skip
  let t : Tab RowRec := closed.foldl (fun t r => if (match t.get? r.seq with | some q => q.verifies key | none => false) then t else t.put r.seq r) .empty
  t.vals
def Dev.readableOpen (s : Dev) (first : Nat) : List RowRec :=
  s.row.open_.toList.filter fun r => decide (first ≤ r.seq)

/-- LOG_READ (R439), once the scan has ended; the freeze of each chunk takes no time here (log entry 45). -/
def Dev.logRead (s : Dev) (i : Issuer) (first count len ptr : Nat) (ok : Bool) : Dev :=
  if !i.isM then s.refuseCmd i cNotPermitted 0
  else if len < 64 * count then s.refuseCmd i cInvalidField 16
  else if ptr % 4 ≠ 0 then s.refuseCmd i cInvalidField 8
  else
    let closed := (s.readable first).take count
    let op := (s.readableOpen first).take (count - closed.length)
    let key := s.internalKey 1
    let bad := (closed.filter fun r => !r.verifies key).length
    let s := if bad = 0 then s else s.count Reg.ROW.BAD_TAG.COUNT Reg.ROW.BAD_TAG.SAT bad (rowPlain 0x237)
    let words := (closed.flatMap fun r => rowBytes (!r.verifies key) false r) ++ op.flatMap (rowBytes false true)
    match (closed ++ op).getLast? with
    | some r => s.putBuffer i ptr ok words (closed.length + op.length) (r.seq + 1)
    | none => let v := s.freeValue; v.2.putBuffer i ptr ok [] 0 v.1
def execLogRead (i : Issuer) (first count len ptr : Nat) (ok : Bool) (s : State) : Answer :=
  s.on fun s => (if s.rowState = 0 then s
    else s.ringCmd i 0x21 1 0xFFFF [resLog] fun s => s.logRead i first count len ptr ok)

/-- Words whose content the spec leaves to the implementation. -/
def freeWords (s : Dev) (n : Nat) : List (BitVec 64) := (List.range n).map fun k => BitVec.ofNat 64 (Config.value (s.fresh + k))

/-- TELEMETRY_READ of a page, 4,096 bytes whose content the spec does not lay out (R403, log entry 3). -/
def execTelemetryRead (i : Issuer) (page len ptr : Nat) (ok : Bool) (s : State) : Answer :=
  s.on fun s => (s.ringCmd i 0x23 1 0xFFFF [] fun s =>
    let all := page / 64 = 0x00 ∨ page / 64 = 0x28 ∨ page / 64 = 0x1B
    if !i.isM ∧ ¬ all then s.refuseCmd i cNotPermitted 0
    else if len < 4096 then s.refuseCmd i cInvalidField 16
    else if ptr % 4 ≠ 0 then s.refuseCmd i cInvalidField 8
    else ({ s with fresh := s.fresh + 512 }).putBuffer i ptr ok (freeWords s 512) 4096 0)

/-- Bytes of a staging target (R363). -/
def stageSize (target : Nat) : Nat := if target = 2 then 8 * 2 ^ 20 else 32 * 2 ^ 20

/-- FW_STAGE: `content` is what the target describes once this part of it is written; `none` = the buffer read failed. Data that
makes no image leaves an image that does not verify (R364, R380, R403). -/
def Dev.fwStage (s : Dev) (i : Issuer) (target offset len ptr : Nat) (content : Option StageData) : Dev :=
  if !i.isM then s.refuseCmd i cNotPermitted 0
  else if 2 < target then s.refuseCmd i cInvalidField 20
  else if len = 0 ∨ 2 ^ 20 < len then s.refuseCmd i cInvalidField 16
  else if stageSize target < offset + len then s.refuseCmd i cInvalidField 24
  else if ptr % 4 ≠ 0 then s.refuseCmd i cInvalidField 8
  else match content with
    | none => s.completeAt i cDma 0 0 0 ptr
    | some c =>
      let img : FwImage := match c with | .image m => m | .config _ => { signed := false, wardenOk := false, appOk := false }
      let cfg : CfgBlock := match c with | .config b => { b with tag := 0, lost := false } | .image _ => {}
      let isl : Island := match target with
        | 0 => { s.island with imageA := img }
        | 1 => { s.island with imageB := img }
        | _ => { s.island with cfgStage := some cfg }
      ({ s with island := isl }).complete i cSuccess 0 0 0
def execFwStage (i : Issuer) (target offset len ptr : Nat) (content : Option StageData) (s : State) : Answer :=
  s.on fun s => (s.ringCmd i 0x30 0 0xFFFF [resTarget target] fun s => s.fwStage i target offset len ptr content)

/-- REGION_LOG_RECORD_PROGRAMMED: the oldest record being programmed (R37). -/
def execRegionLogRecordProgrammed (s : State) : Answer := s.on fun s => s.regionLogged

end Sys2Proof.Machine
end

