-- ==== Sys2Proof/Machine/Power.lean ====
section
/-! DEFINITION. PSQ, CKS, CAL and SNS: step programs and sequencer states, rail faults, the always-on hold-up, clocks, RTC and
calendar time, the resets, calibration and the thermal rules (R443–R465, R477–R479, R488). -/

namespace Sys2Proof.Machine

/-- A sequencer event with what PSQ knows of the step in progress (R465). -/
def Dev.psqEv (s : Dev) (id slot kind before : Nat) : Ev :=
  let busy := before == 3 || before == 6 || before == 7
  s.pwrEv id slot kind 0 before (if busy then s.get Reg.PSQ.STS.STEP else 0xFF) 0 (s.psq.sense.getD slot 0)
    (if busy then (s.clock - s.psq.since) / fclkUs else 0)

def Dev.setPsqState (s : Dev) (st : Nat) : Dev := (s.set Reg.PSQ.STS.STATE st).setPsq fun p => { p with since := s.clock }

/-- FAIL takes a failure (R464). -/
def Dev.setFail (s : Dev) (slot kind : Nat) : Dev :=
  ((s.set Reg.PSQ.FAIL.SLOT slot).set Reg.PSQ.FAIL.KIND kind).setBit Reg.PSQ.FAIL.VALID true

/-- Nominal voltage of the privileged slots in mV (R443). -/
def nominalMv (n : Nat) : Nat := match n with | 2 => 700 | 3 => 800 | 4 => 1100 | _ => 0
def privSlot (n : Nat) : Bool := 2 ≤ n && n ≤ 4

/-- A slot's power-good condition: the on-die sense within 8 % for a privileged slot, else SEQ_PGn (R444, R451). -/
def Dev.pgOk (s : Dev) (n : Nat) : Bool :=
  if privSlot n then
    let v := s.psq.sense.getD n 0
    decide (100 * nominalMv n ≤ 100 * v + 8 * nominalMv n) && decide (100 * v ≤ 108 * nominalMv n)
  else (s.get Reg.PSQ.RAILS.PG).testBit n

/-- The sense of a privileged slot is below its threshold (R445). -/
def Dev.belowThreshold (s : Dev) (n : Nat) : Bool := decide (s.psq.sense.getD n 0 < 10 * s.get (Reg.PSQ.SLOT_CFG.THRESH_10MV n))

/-- The steps of UP (from 0) or DOWN (from 32), up to their END. -/
def Dev.program (s : Dev) (base : Nat) : List (Nat × Nat) :=
  ((List.range 32).map fun k => (base + k, s.stepWord (base + k))).takeWhile fun x => stepOp x.2 != 0

/-- Slots with an ON step, and the ON step of a slot. -/
def Dev.usedSlots (s : Dev) : List Nat := ((s.program 0).filter fun x => stepOp x.2 == 1).map fun x => stepSlot x.2
def Dev.slotCrit (s : Dev) (n : Nat) : Bool := (s.program 0).any fun x => stepOp x.2 == 1 && stepSlot x.2 == n && stepCrit x.2

/-- Drop a slot's enable; with VDD_CORE gone FCO accepts no events (R455) and a signed operation ends without effect (R373); with VDD_PLL
gone no PLL is locked (R443, R456). -/
def Dev.slotOff (s : Dev) (n : Nat) : Dev :=
  let s := s.slotEn n false
  if n = 2 then s.abandonSigned.setPsq fun p => { p with accepts := false }
  else if n = 1 then s.set Reg.CKS.PLL_STS.LOCKED 0 else s

/-- The device's RTC count now: 32,768 per second (R459). -/
def Dev.rtcNow (s : Dev) : Nat := (s.cks.rtc + (s.clock - s.cks.rtcAt) * 32768 / fclkS) % 2 ^ 48

/-- Nanoseconds of an RTC count, and the RTC count of a calendar time. -/
def rtcNs (c : Nat) : Nat := c * 1000000000 / 32768
def nsRtc (ns : Nat) : Nat := ns * 32768 / 1000000000 % 2 ^ 48

/-- Registers that a chip reset keeps (R473, R488), with the inputs that CKS and CAL sense at all times (log entry 52). -/
def keptReg (k : Nat) : Bool :=
  let a := k / 32
  (decide (0x940000 ≤ a) && decide (a < 0x980000)) ||      -- PSQ
  (decide (0xA80000 ≤ a) && decide (a < 0xA80014)) ||      -- PAD.GRP[0]–[4]
  (decide (0x900100 ≤ a) && decide (a < 0x900150)) || a == 0x90000C ||   -- latches, PULSE_STS
  a == 0x8C000C || k == Reg.ROW.STS.WRAPPED.key || k == Reg.ROW.STS.STATE.key ||
  a == 0x980014 || a == 0x98000C || k == Reg.CKS.PLL_STS.HOLDOVER.key || k == Reg.CKS.RTC_HI.VALID.key || k == Reg.CAL.STS.FUSE_OK.key

/-- What survives every reset in the island: identity, fuses, images, configuration block, key store (R361, R363, R384). -/
def Island.kept (i : Island) : Island :=
  { deviceHash := i.deviceHash, imageA := i.imageA
    imageB := i.imageB, cfg0 := i.cfg0, cfg1 := i.cfg1, cfgStage := i.cfgStage, store := i.store }

/-- The PLLs that can lock with the references present (R456): E needs EREFCLK, L0–L3 HREFCLK. -/
def lockedPlls (ref : Nat) : Nat :=
  0x0F7 + (if ref.testBit 3 then 0x008 else 0) + (if ref.testBit 2 then 0xF00 else 0)

/-- ROW handles what waits in its holding queue, and commits its page (R437). -/
def Dev.rowDrain (s : Dev) : Dev :=
  if s.rowState = 0 then s
  else
    let l := s.row.holding
    (l.foldl Dev.rowArrive (s.setRow fun r => { r with holding := [] })).rowCommit

/-- Present the events held for FCO (R455). -/
def Dev.presentHeld (s : Dev) : Dev :=
  let l := s.psq.held.vals
  (s.setPsq fun p => { p with held := .empty, accepts := true }).raiseAll l

/-- Events of the always-on domain that FCO has not yet reacted to are held over a reset (R455); their records are written. -/
def Dev.holdInbox (s : Dev) : Dev :=
  let l := s.fco.inbox.filter fun x => heldSource x.2.id
  s.setPsq fun p => { p with held := l.foldl (fun t x => t.put x.2.id { x.2 with writes := false }) p.held }

/-- The chip reset itself (R424, R437, R459, R460, R488): everything outside the always-on domain. -/
def Dev.chipReset (s : Dev) (cause : Nat) : Dev :=
  let s := s.rowDrain.holdInbox
  let cks : Cks := { rtc := s.cks.rtc, rtcAt := s.cks.rtcAt, rewrite := s.cks.rewrite, calBase := rtcNs s.rtcNow, calAt := s.clock
                     tnow0 := s.clock, kicked := s.clock }
  let ssc := s.bit Reg.CKS.SSC.EN
  let row : RowLog := { s.row with pushed := 8 * s.row.holding.length % 2048, lvlPend := false }
  let psq : Psq := { s.psq with reset := none, flush := none, linksDown := false, accepts := false, fuse := false }
  let t : Dev := { Dev.reset with
    clock := s.clock, fresh := s.fresh, regs := s.regs.filter fun k _ => keptReg k, media := s.media
    regionLog := s.regionLog, refLog := s.refLog, island := s.island.kept, row, psq, cks, out := s.out }
  let t := (t.set Reg.CKS.RST_CAUSE.CAUSE cause).setBit Reg.CKS.SSC.ACTIVE (ssc && !t.bit Reg.CKS.PLL_STS.HOLDOVER)
  let t := t.set Reg.CKS.PLL_STS.LOCKED (lockedPlls (t.get Reg.CKS.CLK_STS.REF_OK))
  let t := if t.rowState = 0 then t else (t.set Reg.ROW.STS.STATE 1).rowPump
  t.sramInit.presentHeld

/-- END of UP (R447, R460): the cold reset, all four references taken to be running; then ON. -/
def Dev.upEnd (s : Dev) : Dev :=
  let s := (s.set Reg.CKS.CLK_STS.REF_OK 0x0F).setBit Reg.CKS.PLL_STS.HOLDOVER false
  let s := ((s.setPsqState 4).setPsq fun p => { p with tries := 0 }).chipReset 1
  s.raise (s.psqEv 0x250 0 0 3)

/-- PSQ enters FAULT, which it leaves while PWRON is deasserted (R447). -/
def Dev.enterFault (s : Dev) : Dev := s.setPsqState (if s.bit Reg.PSQ.STS.PWRON then 8 else 1)

/-- END of DOWN, or of ABORT (R447–R449, R452). -/
def Dev.downEnd (s : Dev) : Dev :=
  let spent := s.psqState == 7 && decide (s.get Reg.PSQ.RETRY.UP_RETRY < s.psq.tries)
  let fault := s.psq.toFault
  let s := s.setPsq fun p => { p with toFault := false, earlyDone := false, linksDown := false, flush := none }
  if spent then ((s.setPsq fun p => { p with tries := 0 }).raise (s.psqEv 0x258 0 0 7)).enterFault
  else if fault then s.enterFault else s.setPsqState 1

/-- The step after one that completes; an off request during UP goes to the DOWN program instead (R448 Case A). -/
def Dev.nextStep (s : Dev) (i : Nat) : Dev × Nat :=
  if s.psqState = 3 ∧ s.psq.abort then ((s.setPsqState 7).setPsq fun p => { p with abort := false }, 32) else (s, i + 1)

/-- Run a program from a step, through every step that completes at once (R445, R448, R450); `n` bounds the steps. -/
def Dev.runFrom (s : Dev) (i : Nat) : Nat → Dev
  | 0 => s
  | n + 1 =>
    let w := s.stepWord i
    let slot := stepSlot w
    let s := (s.set Reg.PSQ.STS.STEP i).setPsq fun p => { p with since := s.clock }
    let on := (s.get Reg.PSQ.RAILS.EN).testBit slot
    let skip := (s.psqState == 7 && !on) || (s.psqState == 6 && s.psq.earlyDone && stepOp w == 2 && stepEarly w)
    match stepOp w with
    | 1 =>
      let s := s.slotEn slot true
      if s.pgOk slot then let r := s.nextStep i; r.1.runFrom r.2 n else s
    | 2 => if skip then s.runFrom (i + 1) n else s.slotOff slot
    | 3 =>
      if skip then s.runFrom (i + 1) n
      else let s := s.slotOff slot; if s.belowThreshold slot then s.runFrom (i + 1) n else s
    | 4 => s
    | _ => if s.psqState = 3 then s.upEnd else s.downEnd

/-- Steps in both programs, enough to run them through. -/
def stepFuel : Nat := 130

/-- The step in progress completes. -/
def Dev.stepDone (s : Dev) : Dev := let r := s.nextStep (s.get Reg.PSQ.STS.STEP); r.1.runFrom r.2 stepFuel

/-- Run DOWN, or the reverse shutdown of a partial power-up (R447). -/
def Dev.startDown (s : Dev) : Dev := ((s.setPsqState 6).setPsq fun p => { p with grace := .empty }).runFrom 32 stepFuel
def Dev.startAbort (s : Dev) : Dev := ((s.setPsqState 7).setPsq fun p => { p with abort := false }).runFrom 32 stepFuel

/-- The conditions of PREFLIGHT hold (R447). -/
def Dev.preflightOk (s : Dev) : Bool :=
  s.usedSlots.all (fun n => !(s.get Reg.PSQ.RAILS.PG).testBit n) && [2, 3, 4].all s.belowThreshold

/-- Preflight passes: UP starts. -/
def Dev.preflightCheck (s : Dev) : Dev :=
  if s.psqState = 2 ∧ s.preflightOk then (s.setPsqState 3).runFrom 0 stepFuel else s
def Dev.startPreflight (s : Dev) : Dev := (s.setPsqState 2).preflightCheck

/-- Power may come up: PWRON or CYCLE, and no power failure (R447, R448 Case D, R450). -/
def Dev.mayPowerUp (s : Dev) : Bool := (s.bit Reg.PSQ.STS.PWRON || s.psq.cycle) && !s.bit Reg.PSQ.STS.PFAIL

/-- A request crosses a transition and is recorded (R448). -/
def Dev.crossed (s : Dev) : Dev := s.raise (s.psqEv 0x25B 0 0 s.psqState)

/-- An on request while power goes down (R448 Case B). -/
def Dev.pendingOn (s : Dev) : Dev := (s.setBit Reg.PSQ.STS.PENDING_ON true).crossed

/-- An off request during UP (R448 Case A). -/
def Dev.offInUp (s : Dev) : Dev := (s.setPsq fun p => { p with abort := true }).crossed

/-- EARLY steps of a flush that became a power-down after its link drop. -/
def Dev.earlyNow (s : Dev) (k : FlushKind) : Dev := if s.psq.linksDown && !s.psq.earlyDone then s.linkDrop k else s

/-- A flush before power-down starts, or takes over the flush that precedes a chip reset (R450, R460). -/
def Dev.powerFlush (s : Dev) (k : FlushKind) : Dev :=
  let s := s.setPsqState 5
  match s.psq.flush with
  | some _ => (s.setPsq fun p => { p with flush := some k, reset := none }).earlyNow k
  | none => (s.setPsq fun p => { p with reset := none }).startFlush k

/-- An orderly off (R450). -/
def Dev.orderlyOff (s : Dev) : Dev := (s.raise (s.psqEv 0x254 0 0 4)).powerFlush .orderlyOff

/-- PWRON_ASSERT, filtered (R447, R448). -/
def Dev.pwronOn (s : Dev) : Dev :=
  let s := s.setBit Reg.PSQ.STS.PWRON true
  match s.psqState with
  | 0 => if s.mayPowerUp then s.startPreflight else s
  | 5 => s.pendingOn
  | 6 => s.pendingOn
  | 7 => s.pendingOn
  | _ => s
def execPwronAssert (s : State) : Answer := s.on fun s => s.pwronOn

/-- PWRON_DEASSERT, filtered (R447, R448, R450). -/
def Dev.pwronOff (s : Dev) : Dev :=
  let s := s.setBit Reg.PSQ.STS.PWRON false
  match s.psqState with
  | 2 => s.setPsqState 0
  | 3 => s.offInUp
  | 4 => s.orderlyOff
  | 8 => s.setPsqState 1
  | _ => s
def execPwronDeassert (s : State) : Answer := s.on fun s => s.pwronOff

/-- PFAIL_N_ASSERT, filtered (R20, R59, R373, R437, R448, R450). -/
def Dev.pfailOn (s : Dev) : Dev :=
  let s := s.setBit Reg.PSQ.STS.PFAIL true
  match s.psqState with
  | 2 => s.setPsqState 0
  | 3 => s.offInUp
  | 4 => (s.rowPowerFail.abandonSigned).powerFlush .powerFail
  | 5 => if s.psq.flush = some .powerFail then s
         else (s.rowPowerFail.abandonSigned).setPsq fun p => { p with flush := p.flush.map fun _ => .powerFail }
  | _ => s
def execPfailNAssert (s : State) : Answer := s.on fun s => s.pfailOn

/-- PFAIL_N_DEASSERT (R61, R448 Case C). -/
def Dev.pfailOff (s : Dev) : Dev :=
  let s := s.setBit Reg.PSQ.STS.PFAIL false
  if s.psqState = 0 ∧ s.mayPowerUp then s.startPreflight else s
def execPfailNDeassert (s : State) : Answer := s.on fun s => s.pfailOff

/-- FLUSH_DONE (R59 step 7, R460): EV 0x1B6 tells of a clean-shutdown mark, so it is not raised where the mark is withheld (R204), or
where no image could take one (log entry 56); power-down runs its remaining steps; a pending chip reset may start. -/
def Dev.flushDone (s : Dev) (k : FlushKind) : Dev :=
  let s := s.set Reg.HLD.STATUS.STATE 5
  let s := if s.get Reg.NVH.IMG_STS.STATE = 7 ∧ s.image.clean then s.raise (s.hldPlain 0x1B6 4 5) else s
  let s := s.setPsq fun p => { p with flush := none }
  if k = .preReset then s else s.startDown
def execFlushDone (s : State) : Answer :=
  s.on fun s => (match s.psq.flush with
    | some k => if s.flushEnded then s.flushDone k else s
    | none => s)

/-- PORST_N_ASSERT for 10 µs, and a write of RST_CTL.CHIP (R460). -/
def execPorstNAssert (s : State) : Answer := s.on fun s => (s.requestReset 2)
def execRstCtlChip (s : State) : Answer := s.on fun s => (s.requestReset 4)

/-- CHIP_RESET: the pending reset, once no flush runs before it (R424, R460). -/
def execChipReset (s : State) : Answer :=
  s.on fun s => (match s.psq.reset with
    | some c => if s.psq.flush.isSome then s else s.chipReset c
    | none => s)

/-- A running rail fails (R451); in a flush a failed rail counts as in ON. -/
def Dev.railFault (s : Dev) (slot : Nat) : Dev :=
  if (s.psqState = 4 ∨ s.psqState = 5) ∧ s.usedSlots.contains slot ∧ (s.get Reg.PSQ.RAILS.EN).testBit slot ∧ !s.psq.grace.has slot then
    (s.setPsq fun p => { p with grace := p.grace.put slot s.clock }).raise (s.psqEv 0x252 slot 0 s.psqState)
  else s

/-- What a rail's new level does (R444–R447, R451): a step completes, preflight passes, a running rail fails or recovers. -/
def Dev.railChanged (s : Dev) (slot : Nat) : Dev :=
  let w := s.stepWord (s.get Reg.PSQ.STS.STEP)
  let here := stepSlot w == slot
  match s.psqState with
  | 2 => s.preflightCheck
  | 3 => if stepOp w = 1 ∧ here ∧ s.pgOk slot then s.stepDone else s
  | 4 | 5 =>
    if !s.pgOk slot then s.railFault slot
    else if s.psq.grace.has slot then (s.setPsq fun p => { p with grace := p.grace.del slot }).setFail slot 2 else s
  | 6 | 7 => if stepOp w = 3 ∧ here ∧ s.belowThreshold slot then s.stepDone else s
  | _ => s

/-- A filtered power-good input, and the on-die sense of a privileged slot. -/
def Dev.railLevel (s : Dev) (slot : Nat) (good : Bool) (mv : Nat) : Dev :=
  let pg := s.get Reg.PSQ.RAILS.PG
  let s := s.set Reg.PSQ.RAILS.PG (if good then withBit pg slot else withoutBit pg slot)
  if privSlot slot then s.setPsq fun p => { p with sense := p.sense.put slot mv } else s

/-- SEQ_PG_CHANGE of a slot: its filtered power-good, and for slots 2–4 the sense in mV. -/
def execSeqPgChange (slot : Nat) (good : Bool) (mv : Nat) (s : State) : Answer :=
  s.on fun s => (if slot < 16 then (s.railLevel slot good mv).railChanged slot else s)

/-- RUNNING_RAIL_FAULT (R451). -/
def execRunningRailFault (slot mv : Nat) (s : State) : Answer :=
  s.on fun s => (if slot < 16 then (s.railLevel slot false mv).railFault slot else s)

/-- SEQUENCER_STEP_TIMER (R445, R449): the TIME of the step in progress passes. -/
def Dev.stepTimer (s : Dev) : Dev :=
  let w := s.stepWord (s.get Reg.PSQ.STS.STEP)
  let s := s.at (s.psq.since + stepTime w)
  let slot := stepSlot w
  match stepOp w with
  | 1 =>
    let s := ((s.setFail slot 1).raise (s.psqEv 0x251 slot 1 3)).setPsq fun p => { p with tries := p.tries + 1 }
    s.startAbort
  | 3 =>
    let s := s.setFail slot 4
    let s := s.count Reg.PSQ.THR_TMO.COUNT Reg.PSQ.THR_TMO.SAT 1 (s.psqEv 0x25C slot 4 s.psqState)
    (s.raise (s.psqEv 0x255 slot 4 s.psqState)).stepDone
  | 0 => s
  | _ => s.stepDone
def execSequencerStepTimer (s : State) : Answer :=
  s.on fun s => (if s.psqState = 3 ∨ s.psqState = 6 ∨ s.psqState = 7 then s.stepTimer else s)

/-- OFF_WAIT_EXPIRY (R447, R448, R450). -/
def Dev.offWaitEnd (s : Dev) : Dev :=
  let s := (s.at (s.psq.since + s.get Reg.PSQ.TIMES.OFF_MIN_MS * fclkMs)).setBit Reg.PSQ.STS.PENDING_ON false
  if s.mayPowerUp then (s.setPsq fun p => { p with cycle := false }).startPreflight
  else (s.setPsqState 0).setPsq fun p => { p with tries := 0, cycle := false }
def execOffWaitExpiry (s : State) : Answer := s.on fun s => (if s.psqState = 1 then s.offWaitEnd else s)

/-- PREFLIGHT_TIMEOUT (R447): the first used slot still up is the one that FAIL names. -/
def Dev.preflightFail (s : Dev) : Dev :=
  let s := s.at (s.psq.since + fclkS)
  let slot := (s.usedSlots.find? fun n => (s.get Reg.PSQ.RAILS.PG).testBit n || (privSlot n && !s.belowThreshold n)).getD 0
  ((s.setFail slot 5).raise (s.psqEv 0x256 slot 5 2)).enterFault
def execPreflightTimeout (s : State) : Answer := s.on fun s => (if s.psqState = 2 then s.preflightFail else s)

/-- Writes of PSQ.CTL (R448, R450). -/
def Dev.ctlOff (s : Dev) (cycle : Bool) : Dev :=
  let t := s.setPsq fun p => { p with cycle := p.cycle || cycle }
  if s.psqState = 4 then t.orderlyOff else if s.psqState = 3 then t.offInUp else s
def execPsqCtlOff (s : State) : Answer := s.on fun s => (s.ctlOff false)
def execPsqCtlCycle (s : State) : Answer := s.on fun s => (s.ctlOff true)

/-- The whole DOWN program at once, host admission closed first (R452 Case B, R478 Case C); a running flush is abandoned. -/
def Dev.downNow (s : Dev) : Dev :=
  let s := s.set Reg.HLD.STATUS.STATE 4
  let s := (List.range 16).foldl (fun s H => s.linkDown H 0) s
  let s := s.setPsq fun p => { p with flush := none, reset := none, toFault := true, grace := .empty }
  s.startDown

/-- A rail has not recovered within GRACE_US (R451, R452). -/
def Dev.graceEnd (s : Dev) (slot : Nat) : Dev :=
  let st := s.psqState
  let s := (s.setPsq fun p => { p with grace := p.grace.del slot }).setFail slot 3
  let s := s.raise (s.psqEv 0x253 slot 3 st)
  if s.slotCrit slot then s.downNow
  else if st = 5 then s.slotEn slot false
  else (s.rowPowerFail.setPsq fun p => { p with toFault := true }).powerFlush .powerFail
def execRailGraceExpiry (slot : Nat) (s : State) : Answer :=
  s.on fun s => (match s.psq.grace.get? slot with
    | some t => (s.at (t + s.get Reg.PSQ.TIMES.GRACE_US * fclkUs)).graceEnd slot
    | none => s)

/-- A KSL event that no signed operation causes (R386): channel 4. -/
def kslInner (id : Nat) : Ev := Ev.make id true 0 [(1, 1, 4), (16, 2, 0xFFFF)]

/-- The SVN fuses advance to those of an image, up to 64; from a full fuse no image with a higher SVN commits (R362). -/
def Fuses.advance (f : Fuses) (m : FwImage) : Fuses :=
  if (f.wsvn = 64 ∧ 64 < m.wsvn) ∨ (f.asvn = 64 ∧ 64 < m.asvn) then f
  else { f with wsvn := max f.wsvn (min 64 m.wsvn), asvn := max f.asvn (min 64 m.asvn) }

/-- What the device shows of a fuse request: a failure of VDD_FUSE, or fuses advanced. -/
def Dev.fuseDone (s : Dev) (good advanced : Bool) : Dev :=
  let s := s.setPsq fun p => { p with fuse := false }
  if !good then s.raise (s.psqEv 0x25A 9 1 s.psqState) else if advanced then s.raise (kslInner 0x08B) else s

/-- VDD_FUSE_REQUEST of the warden (R453): for a COMMIT, or for the factory's programming; `good` = power-good comes in 5 ms. -/
def execVddFuseRequest (good : Bool) (s : State) : Answer :=
  if s.dev.psq.fuse then
    let f := if good then s.fuses.advance s.dev.island.running else s.fuses
    ({ s with fuses := f } : State).on fun d => d.fuseDone good (f != s.fuses)
  else if s.fuses.lifecycle = 0 then s.on fun d => d.fuseDone good false
  else s.on fun d => d

/-- VAON_LOW: last-record mode (R373, R454). -/
def execVaonLow (s : State) : Answer :=
  s.on fun s => (let s := s.rowLast.abandonSigned
    s.setPsq fun p => { p with held := p.held.put 0x259 (s.psqEv 0x259 0 0 s.psqState) })

/-- First step of UP that breaks a rule of R446: `seen` = the slots switched on so far, the latest first. -/
def upFault (len : Nat) (seen : List Nat) : List (Nat × Nat) → Option Nat × List Nat
  | [] => (if (seen.filter (· < 9)).length = 9 then none else some len, seen)
  | (i, w) :: t =>
    let n := stepSlot w
    let plain := w / 4 % 4 == 0 && !stepEarly w
    let on := stepOp w == 1 && n != 9 && !seen.contains n && (decide (10 ≤ n) || n == (seen.filter (· < 9)).length) &&
      decide (w / 16 % 2 ^ 20 ≤ 10000)
    let wait := stepOp w == 4 && n == 0 && !stepCrit w
    if plain && (on || wait) then upFault len (if on then n :: seen else seen) t else (some i, seen)

/-- First step of DOWN that breaks a rule of R446: `want` = the slots still to switch off, in order; `sum` = the TIMEs so far. -/
def downFault (len : Nat) (crit : Nat → Bool) (want : List Nat) (sum : Nat) : List (Nat × Nat) → Option Nat
  | [] => if want.isEmpty then none else some len
  | (i, w) :: t =>
    let n := stepSlot w
    let sum := sum + w / 16 % 2 ^ 20
    let plain := w / 4 % 4 == 0 && !stepCrit w && decide (sum ≤ 15000)
    let off := want.head? == some n && stepOp w == (if privSlot n then 3 else 2) &&
      (!stepEarly w || (stepOp w == 2 && (n == 8 || (decide (10 ≤ n) && !crit n))))
    let wait := stepOp w == 4 && n == 0 && !stepEarly w
    if plain && (off || wait) then downFault len crit (if off then want.drop 1 else want) sum t else some i

/-- The first failing step of a step program, by R446. -/
def programFault (l : List Nat) : Option Nat :=
  let part := fun (base : Nat) => ((List.range 32).map fun k => (base + k, l.getD (base + k) 0)).takeWhile fun x => stepOp x.2 != 0
  let up := part 0
  let crit := fun (n : Nat) => up.any fun x => stepOp x.2 == 1 && stepSlot x.2 == n && stepCrit x.2
  let r := upFault up.length [] up
  match r.1 with
  | some i => some i
  | none => let down := part 32; downFault (32 + down.length) crit r.2 0 down

/-- The step program of a configuration block. -/
def CfgBlock.stepProgram (c : CfgBlock) : Option (List Nat) :=
  c.records.findSome? fun r => match r with | .program l => some (l.map (·.toNat)) | _ => none

/-- The configuration block that PSQ reads: at VAON power-up the island has no power, so that no tag can be checked; copy 0, or copy 1
where copy 0 is no block (R381, R446, log entry 12). -/
def Island.readableConfig (i : Island) : Option CfgBlock :=
  let ok := fun (c : CfgBlock) => c.magic == configMagic && c.version == 1
  (i.cfg0.filter ok).orElse fun _ => i.cfg1.filter ok

/-- PSQ copies the step program at VAON power-up, or takes the built-in one (R446). -/
def Dev.loadProgram (s : Dev) : Dev :=
  let l := ((s.island.readableConfig.bind CfgBlock.stepProgram).getD [])
  match programFault l with
  | none => (List.range 64).foldl (fun s i => s.set (Reg.PSQ.PROG.STEP i) (l.getD i 0)) s
  | some e => ((s.set Reg.PSQ.PROG_STS.SRC 1).set Reg.PSQ.PROG_STS.ERR_STEP e).raise (s.psqEv 0x257 0 0 0)

/-- VAON_RESET (R426, R429, R455, R459, R460, R462): `rtcKept` = the RTC counted on from VBAT; `fuseOk` = the CRC of the calibration
fuses. What is not volatile stays. -/
def Dev.vaonReset (s : Dev) (rtcKept fuseOk : Bool) : Dev :=
  let valid := rtcKept && s.bit Reg.CKS.RTC_HI.VALID
  let v := s.freeValue
  let cks : Cks := if rtcKept then { rtc := s.cks.rtc, rtcAt := s.cks.rtcAt } else { rtc := v.1 % 2 ^ 48, rtcAt := s.clock }
  let held := (s.psq.held.get? 0x259).toList
  let low := s.bit Reg.FCO.PULSE_STS.LEVEL
  let t : Dev := { Dev.reset with
    clock := s.clock, fresh := v.2.fresh, media := s.media, regionLog := s.regionLog, refLog := s.refLog, island := s.island.kept
    row := { slots := s.row.slots }, cks, out := s.out
    psq := { held := held.foldl (fun t e => t.put e.id e) .empty } }
  let t := t.setBit Reg.CKS.RTC_HI.VALID valid
  let t := { t with cks := { t.cks with calBase := rtcNs t.rtcNow, calAt := t.clock, tnow0 := t.clock, kicked := t.clock } }
  let t := if valid then t else t.raise (t.pwrPlain 0x264 0)
  let t := if fuseOk then t.setBit Reg.CAL.STS.FUSE_OK true else t.raise (t.pwrPlain 0x270 0)
  let t := if low then t.send (.pulse false) else t
  t.loadProgram
def execVaonReset (rtcKept fuseOk : Bool) (s : State) : Answer := s.on fun s => (s.vaonReset rtcKept fuseOk)

/-- XTAL_STOP (R458 Case A). -/
def Dev.xtalStop (s : Dev) : Dev :=
  let ref := s.get Reg.CKS.CLK_STS.REF_OK
  let s := s.set Reg.CKS.CLK_STS.REF_OK (withBit (withoutBit ref 0) 4)
  let s := (s.setBit Reg.CKS.PLL_STS.HOLDOVER true).setBit Reg.CKS.SSC.ACTIVE false
  let s := s.raise (s.pwrPlain 0x262 0)
  let s := if s.role = 1 then s.fenceSelf else s
  if s.psqState = 4 then (s.setPsq fun p => { p with toFault := true }).orderlyOff
  else if s.psqState = 5 then s.setPsq fun p => { p with toFault := true } else s
def execXtalStop (s : State) : Answer := s.on fun s => s.xtalStop

/-- A Twinset port loses its clock. -/
def Dev.portsDown (s : Dev) : Dev :=
  (List.range 4).foldl (fun s p =>
    if s.get (Reg.TWL.PORT_STS.SPEED p) = 0 then s
    else ((s.set (Reg.TWL.PORT_STS.SPEED p) 0).set (Reg.TWL.PORT_STS.LANES p) 0).raise (portEv 0x1C1 p)) s

/-- Heads of a CXL port go to Detect with the effects of a head reset (R71, R456). -/
def Dev.cxlDown (s : Dev) (n : Nat) : Dev := ((s.headsOf n).foldl (fun s H => s.headReset H false) s).gpfCheck

/-- Clients of a PLL shut down (R456): bits 0 F, 1 S, 2 N, 3 E, 4–7 D0–D3, 8–11 L0–L3. -/
def Dev.pllClients (s : Dev) (b : Nat) : Dev :=
  if b = 1 then s.requestReset 6
  else
    let s := s.raise (s.pwrPlain 0x261 b)
    if b = 2 then (List.range 8).foldl (fun s p =>
        let st := s.get (Reg.NVH.DRV.STATE p)
        if 1 ≤ st ∧ st ≤ 3 then s.driveOut p 5 8 0x1A2 0 0 noGran else s) s
    else if b = 3 then s.portsDown
    else if b ≤ 7 then (List.range 3).foldl (fun s k => if s.chanRuns (3 * (b - 4) + k) then s.chanOffline (3 * (b - 4) + k) else s) s
    else s.cxlDown (b - 8)

/-- A loss of lock is counted. -/
def Dev.pllLost (s : Dev) : Dev :=
  s.count Reg.CKS.PLL_LOST.COUNT Reg.CKS.PLL_LOST.SAT 1 (s.pwrPlain 0x26C 0)

/-- The emergency chip reset (R458 Case B): no flush goes before it. In FLUSH power-down follows whatever resets the chip (R460), so that
DOWN runs at once. -/
def Dev.emergency (s : Dev) : Dev :=
  let s := s.raise (s.pwrEv 0x269 0 0 0 s.psqState 0xFF 8 0 0)
  if s.psqState = 4 then s.setPsq fun p => { p with reset := some 8, flush := none }
  else if s.psqState = 5 then (s.setPsq fun p => { p with flush := none }).startDown
  else s

/-- PLL_LOCK_LOSS of a PLL that does not relock within 10 µs (R456, R458 Case B). -/
def execPllLockLoss (pll : Nat) (s : State) : Answer :=
  s.on fun s => (if 12 ≤ pll ∨ !(s.get Reg.CKS.PLL_STS.LOCKED).testBit pll then s
    else
      let s := (s.set Reg.CKS.PLL_STS.LOCKED (withoutBit (s.get Reg.CKS.PLL_STS.LOCKED) pll)).pllLost
      if pll = 0 then s.emergency else s.pllClients pll)

/-- PLL_RELOCK within 10 µs (R456). -/
def execPllRelock (pll : Nat) (s : State) : Answer :=
  s.on fun s => (if pll < 12 then s.pllLost.raise (s.pwrPlain 0x260 pll) else s)

/-- RTCX_FAILURE (R456, R459) and VBAT_LOW (R459). -/
def execRtcxFailure (s : State) : Answer :=
  s.on fun s => (let s := s.set Reg.CKS.CLK_STS.REF_OK (withoutBit (s.get Reg.CKS.CLK_STS.REF_OK) 1)
         (s.setBit Reg.CKS.RTC_HI.VALID false).raise (s.pwrPlain 0x263 0))
def execVbatLow (s : State) : Answer := s.on fun s => ((s.setBit Reg.CKS.CLK_STS.VBAT_LOW true).raise (s.pwrPlain 0x264 0))

/-- REFCLK_LOSS of HREFCLK (`host`) or EREFCLK (R456, R463). -/
def execRefclkLoss (host : Bool) (s : State) : Answer :=
  s.on fun s => (let ref := s.get Reg.CKS.CLK_STS.REF_OK
    let locked := s.get Reg.CKS.PLL_STS.LOCKED
    if host then
      let s := (s.set Reg.CKS.CLK_STS.REF_OK (withoutBit ref 2)).set Reg.CKS.PLL_STS.LOCKED (locked % 2 ^ 8)
      (List.range 4).foldl Dev.cxlDown (s.raise (s.pwrPlain 0x265 0))
    else
      let s := (s.set Reg.CKS.CLK_STS.REF_OK (withoutBit ref 3)).set Reg.CKS.PLL_STS.LOCKED (withoutBit locked 3)
      (s.raise (s.pwrPlain 0x266 0)).portsDown)

/-- RTC_SET: a write of RTC_SET_HI applies the pair, while OUT of a Round (R459). -/
def Dev.rtcSet (s : Dev) (hi : Nat) : Dev :=
  if s.get Reg.RND.STS.STATE = 0 then
    let c := s.cks.setLo % 2 ^ 32 + hi % 2 ^ 16 * 2 ^ 32
    let cks : Cks := { s.cks with rtc := c, rtcAt := s.clock, calBase := rtcNs c, calAt := s.clock, slew := 0, rewrite := false }
    (({ s with cks }).setBit Reg.CKS.RTC_HI.VALID true).raise (s.pwrPlain 0x26A 0)
  else (s.discard 0x98002C 0).raise (s.pwrPlain 0x26B 0)
def execRtcSet (hi : Nat) (s : State) : Answer := s.on fun s => (s.rtcSet hi)

/-- Part of a slew that one second lets through: 100 µs (R344). -/
def slewPart (d : Int) : Int := max (-100000) (min 100000 d)

/-- RTC_SECOND_REWRITE at a second boundary (R344, R459): calendar time slews, and the RTC takes its count. -/
def Dev.rtcRewrite (s : Dev) : Dev :=
  if !s.cks.rewrite then s
  else
    let p := slewPart s.cks.slew
    let now := ((s.calNow : Int) + p).toNat
    let cks : Cks := { s.cks with calBase := now, calAt := s.clock, slew := s.cks.slew - p, rewrite := s.cks.slew != p
                                  rtc := nsRtc now, rtcAt := s.clock }
    { s with cks }
def execRtcSecondRewrite (s : State) : Answer := s.on fun s => s.rtcRewrite

/-- WATCHDOG_KICK and WATCHDOG_EXPIRY (R461). -/
def Dev.kick (s : Dev) : Dev := { s with cks := { s.cks with kicked := s.clock } }
def execWatchdogKick (s : State) : Answer := s.on fun s => s.kick
def execWatchdogExpiry (s : State) : Answer :=
  s.on fun s => (let ms := s.get Reg.CKS.WDT.TIMEOUT_MS
    if ms = 0 then s
    else let s := (s.at (s.cks.kicked + ms * fclkMs)).kick
         (s.raise (s.pwrPlain 0x267 0)).requestReset 5)

/-- An SNS event (R479): hottest sensor, Tj and case. -/
def snsEv (id tj hot case : Nat) : Ev := Ev.make id true (tj % 256 + case * 256) [(1, 1, hot)]

/-- Tj of a sample in 0.125 °C, and the sensor that reads it (R477). -/
def SnsSample.hottest (x : SnsSample) : Int × Nat :=
  (x.temps.take 32).zipIdx.foldl (fun a t => if a.1 < t.1 then t else a) ((x.temps.headD 0), 0)

/-- Telemetry of a sample (R478, R495). -/
def Dev.telemetry (s : Dev) (x : SnsSample) (tj hot : Nat) : Dev :=
  let s := (s.set Reg.SNS.THROT.TJ_C tj).set Reg.SNS.THROT.HOT hot
  let s := s.set Reg.SNS.TJ_PEAK.DEG_C (max tj (s.get Reg.SNS.TJ_PEAK.DEG_C))
  let s := (x.temps.take 32).zipIdx.foldl (fun s t => s.set (Reg.SNS.TEMP.VALUE t.2) ((t.1 % 65536).toNat)) s
  let s := (x.mv.take 12).zipIdx.foldl (fun s t => s.set (Reg.SNS.RAIL_MV.MV t.2) t.1) s
  let s := (x.railP.take 12).zipIdx.foldl (fun s t => s.set (Reg.SNS.RAIL_P.P_10MW t.2) t.1) s
  let s := (x.dieP.take 5).zipIdx.foldl (fun s t => s.set (Reg.SNS.DIE_P.P_10MW t.2) t.1) s
  let s := (s.set Reg.SNS.PWR.P_10MW x.pwr).set Reg.SNS.PWR_PEAK.P_10MW (max (x.pwr % 65536) (s.get Reg.SNS.PWR_PEAK.P_10MW))
  let s := s.set Reg.SNS.VBAT.MV x.vbat
  s.setWide Reg.SNS.ENERGY_LO.MJ Reg.SNS.ENERGY_HI.MJ ((s.wide Reg.SNS.ENERGY_LO.MJ Reg.SNS.ENERGY_HI.MJ + x.mj) % 2 ^ 64)

/-- What SNS does on Tj (R478): throttle, critical off, hardware shutdown. -/
def Dev.thermalAct (s : Dev) (t8 : Int) (tj hot : Nat) : Dev :=
  let lim := (s.get Reg.SNS.THERM.THROTTLE_C : Int) * 8
  let s := if s.bit Reg.SNS.THROT.ACTIVE then
      (if t8 < lim - 40 then (s.setBit Reg.SNS.THROT.ACTIVE false).raise (snsEv 0x281 tj hot 0) else s)
    else if lim ≤ t8 then (s.setBit Reg.SNS.THROT.ACTIVE true).raise (snsEv 0x280 tj hot 0) else s
  if 960 ≤ t8 ∧ (s.psqState = 4 ∨ s.psqState = 5) then
    (s.setPsq fun p => { p with held := p.held.put 0x283 (snsEv 0x283 tj hot 2) }).downNow
  else if (s.get Reg.SNS.THERM.CRIT_C : Int) * 8 ≤ t8 ∧ s.psqState = 4 then
    ((s.raise (snsEv 0x282 tj hot 1)).setPsq fun p => { p with toFault := true }).orderlyOff
  else s

/-- THERMAL_SAMPLE (R477, R478, R495). -/
def execThermalSample (x : SnsSample) (s : State) : Answer :=
  s.on fun s => (let h := x.hottest
    let tj := (h.1 / 8 % 256).toNat
    (s.telemetry x tj h.2).thermalAct h.1 tj h.2)

/-- LIMIT_EFF_RECOMPUTE (R53, R496–R498) and FLUSH_EST_UPDATE (R58). -/
def execLimitEffRecompute (s : State) : Answer := s.on fun s => s.limitRecompute
def execFlushEstUpdate (s : State) : Answer := s.on fun s => s.flushEstimate

/-- User limit of a CAL item, and whether it is tracked (*CAL items*). -/
def calLimit (i : Nat) : Nat :=
  if 10 ≤ i ∧ i ≤ 12 then 20 else if 16 ≤ i ∧ i ≤ 47 then 40 else if 48 ≤ i ∧ i ≤ 63 then 6 else if 64 ≤ i ∧ i ≤ 167 then 8 else 0
def calTracked (i : Nat) : Bool := (10 ≤ i && i ≤ 12) || (48 ≤ i && i ≤ 63)
def calUsed (i : Nat) : Bool := i ≤ 12 || (16 ≤ i && i ≤ 167)

/-- An item's base layer; its offset within the limit, layer 2 and then layer 3 cut back; and whether one was (R462). -/
def Dev.calBaseOf (s : Dev) (i : Nat) : Int := if s.bit Reg.CAL.STS.FUSE_OK then Config.calFuse i else Config.calDefault i
def calClamp (i : Nat) (x : Int) : Int := max (-(calLimit i : Int)) (min (calLimit i : Int) x)
def CalItem.offset (c : CalItem) (i : Nat) : Int := calClamp i (calClamp i c.live + c.track)
def CalItem.clamped (c : CalItem) (i : Nat) : Bool :=
  calClamp i c.live != c.live || c.offset i != calClamp i c.live + c.track

/-- CALIBRATION_TRACKING_UPDATE of a tracked item: its layer-3 correction (R462). -/
def execCalibrationTrackingUpdate (item : Nat) (track : Int) (s : State) : Answer :=
  s.on fun s => (if !calTracked item then s
    else
      let x := s.cal.getD item {}
      let c : CalItem := { x with track, live := x.user }
      let s := { s with cal := s.cal.putD item c {} }
      if (calLimit item : Int) ≤ (c.offset item).natAbs then s.raise (s.pwrPlain 0x272 item) else s)

/-- The signed offset USER of an item (R462): in force at once for a sensor, and for the others at their next update or training. -/
def Dev.calUser (s : Dev) (item : Nat) (user : Int) : Dev :=
  if !calUsed item then s
  else
    let x := s.cal.getD item {}
    let c : CalItem := { x with user, live := if item < 48 then user else x.live }
    let s := { s with cal := s.cal.putD item c {} }
    if calClamp item user != user then s.raise (s.pwrPlain 0x271 item) else s

/-- EXTEST_INSTRUCTION_UPDATE: an EXTEST instruction is selected, or no longer (R382, R460). -/
def execExtestInstructionUpdate (selected : Bool) (s : State) : Answer :=
  s.on fun s => (let s := s.setPsq fun p => { p with extest := selected }
    if selected then s.requestReset 7 else s)

end Sys2Proof.Machine
end

