-- ==== Sys2Proof/Machine/RegRead.lean ====
section
/-! DEFINITION. Reading the registers of the management BAR0 and of the LD BARs (R480–R483, R489–R495): words the device keeps as
fields, and words that show other state; the latches of HI words. -/

namespace Sys2Proof.Machine

/-- A signed value in `w` bits. -/
def twos (w : Nat) (v : Int) : Nat := (v % (2 ^ w : Nat)).toNat

/-- Where a block's LOCK register stands, by block code (R487). -/
def lockOff (code : Nat) : Option Nat :=
  if (1 ≤ code ∧ code ≤ 4) ∨ code = 7 ∨ (10 ≤ code ∧ code ≤ 21) ∨ code = 23 ∨ code = 26 ∨ code = 28 ∨ code = 31 ∨ code = 32 ∨
      code = 34 ∨ code = 35 ∨ code = 38 then some 0x4
  else if code = 25 ∨ code = 29 ∨ code = 40 then some 0x8
  else if code = 27 then some 0x14
  else if code = 37 ∨ code = 39 then some 0x10
  else if code = 42 then some 0x40
  else none
def lockField (code : Nat) : Option Field := (lockOff code).map fun o => ⟨code * 0x40000 + o, 0, 1, 0⟩
/-- A block's LOCK is set. -/
def Dev.locked (s : Dev) (code : Nat) : Bool := match lockField code with | some f => s.bit f | none => false

/-- The index of a word in a register array: its places along each dimension, largest stride first. -/
def dimIndex : List (Nat × Nat) → Nat → Option (List Nat)
  | [], 0 => some []
  | [], _ => none
  | (stride, count) :: r, d =>
    if d / stride < count then (dimIndex r (d % stride)).map fun l => d / stride :: l
    else none

/-- The register at an offset of a block (R482), with its index. -/
def regAt (code o : Nat) : Option (RegTmpl × List Nat) :=
  (regBlock code).findSome? fun t =>
    if o < t.base then none else (dimIndex t.dims (o - t.base)).map fun i => (t, i)

/-- Reset value of a field of an array element. -/
def RegField.resetAt (f : RegField) (i : List Nat) : Nat := if f.resets.isEmpty then f.reset else f.resets.getD (i.headD 0) 0
/-- The stored field of a register word at BAR0 offset `off`. -/
def RegField.at_ (f : RegField) (off : Nat) (i : List Nat) : Field := ⟨off, f.lo, f.width, f.resetAt i⟩

/-- A word of stored fields; write-only fields read 0. -/
def Dev.storedWord (s : Dev) (off : Nat) (t : RegTmpl) (i : List Nat) : Nat :=
  t.fields.foldl (fun a f => if f.acc = .wo then a else a + s.get (f.at_ off i) * 2 ^ f.lo) 0

/-- Low indices that an event block assigns, as a mask over the 16 indices of a code (R415). -/
def evMask (code : Nat) : Nat :=
  match code with
  | 0x00 => 0x7 | 0x05 => 0xF | 0x06 => 0x7 | 0x07 => 0x7FFF | 0x08 => 0xFFFF | 0x09 => 0x3 | 0x16 => 0xFFFF | 0x17 => 0x7FFF
  | 0x18 => 0x7FFF | 0x19 => 0x3F | 0x1A => 0x7FFF | 0x1B => 0x1FF | 0x1C => 0x3F | 0x1D => 0x1FFF | 0x1E => 0x1F | 0x1F => 0x7FFF
  | 0x20 => 0x7FFF | 0x21 => 0x3 | 0x22 => 0x7FF | 0x23 => 0x2FF | 0x24 => 0x3F | 0x25 => 0x1FFF | 0x26 => 0x1FFF | 0x27 => 0x7
  | 0x28 => 0xF | 0x29 => 0x1F
  | _ => if code ≤ 0x15 then 0x7FFF else 0
def evAssigned (id : Nat) : Bool := (evMask (id / 16)).testBit (id % 16)

/-- GLB views (R489): STATE and the LOCK words. -/
def Dev.viewGlb (s : Dev) (o : Nat) : Option Nat :=
  let locks := fun (b : Nat) => bitsOf ((List.range 32).filter fun k => s.locked (b + k))
  if o = 0x2C then some (s.get Reg.ECS.FILL_STS.ALL_DONE + s.get Reg.NVH.IMG_STS.STATE * 2 + s.get Reg.HLD.STATUS.STATE * 16 +
    s.role * 128 + s.get Reg.ROW.STS.STATE * 1024)
  else if o = 0x44 then some (locks 0)
  else if o = 0x48 then some (locks 32)
  else none

/-- HP views (R491): the one DCR_CLASS array of the device. -/
def Dev.viewHp (s : Dev) (o : Nat) : Option Nat :=
  if 0x40 ≤ o ∧ o < 0x60 then some (s.get (Reg.HP.DCR_CLASS.CLASS 0 ((o - 0x40) / 4)))
  else none

/-- RTE views (R492): the region of REG_SEL, the request queues and the hold queues. -/
def Dev.viewRte (s : Dev) (o : Nat) : Option Nat :=
  let n := s.get Reg.RTE.REG_SEL.REGION
  let r := s.regions.get? n
  let show_ := fun (f : Region → Nat) => some (match r with | some x => f x | none => 0)
  if o = 0x4 then show_ (·.base)
  else if o = 0x8 then show_ (·.size)
  else if o = 0xC then show_ fun x => x.tenant + flagAt x.twin 10 + flagAt x.mirror 11 + x.policy % 16 * 2 ^ 12 + flagAt x.draining 16 +
    2 ^ 17 + flagAt x.home 18
  else if o = 0x10 then show_ fun x => x.slot.getD 0xFFFF + x.gen * 65536
  else if o = 0x14 then show_ fun _ => s.inflight n
  else if o = 0x18 then show_ fun x => loW (bitsOf x.attached)
  else if o = 0x1C then show_ fun x => hiW (bitsOf x.attached)
  else if 0x40 ≤ o ∧ o < 0x80 then let H := (o - 0x40) / 4; some (min 512 (s.queued H) + s.devLoad H * 1024)
  else if 0x80 ≤ o ∧ o < 0x90 then some (min 256 (s.heldAt ((o - 0x80) / 4)).length)
  else none

/-- LC view: DIRTY lines in arrays and buffers. -/
def Dev.viewLc (s : Dev) (o : Nat) : Option Nat :=
  if o = 4 then some (s.lc.list.filter fun e => e.2.ln.st == .dirty).length else none

/-- State of a key slot as a window shows it (R185). -/
def SlotState.code : SlotState → Nat
  | .empty => 0
  | .active => 1
  | .zeroised => 2

/-- Internal slots that hold a key: 0–3 once derived, 4 and 5 once installed (R167, R366). -/
def Dev.islotActive (s : Dev) (k : Nat) : Bool :=
  (decide (k < 4) && s.island.phase != 0) || (k == 4 && s.island.store.secret4.isSome) || (k == 5 && s.island.store.secret5.isSome)

/-- KSL views (R185, R387). -/
def Dev.viewKsl (s : Dev) (fu : Fuses) (o : Nat) : Option Nat :=
  let isl := s.island
  let t := s.get Reg.KSL.TEN_SEL.TENANT
  let glds := bitsOf ((isl.store.bind.list.filter fun e => e.2 == t).map (·.1))
  let seq := match isl.store.tenants.get? t with | some c => c.lastSeq | none => 0
  if o = 0x0 then some (fu.lifecycle % 4 + flagAt fu.dbgOff 2 + s.get Reg.KSL.LIFECYCLE.DBG_LEVEL * 8)
  else if o = 0x4 then
    let st := if isl.zeroising then 3 else if s.get Reg.KSL.OWN_STS.STATE = 2 then 2 else if isl.store.owner.isSome then 1 else 0
    some (st + flagAt isl.store.secret4.isSome 2 + flagAt isl.store.secret5.isSome 3 + flagAt isl.store.refKey.isSome 4)
  else if o = 0x8 then some (s.get Reg.KSL.BOOT_STS.IMAGE + s.get Reg.KSL.BOOT_STS.FALLBACK * 2 + s.get Reg.KSL.BOOT_STS.FAILED * 4 +
    flagAt isl.store.bootSel 3)
  else if o = 0x10 then some (fu.wsvn % 128 + fu.asvn % 128 * 2 ^ 8 + isl.running.wsvn % 128 * 2 ^ 16 + isl.running.asvn % 128 * 2 ^ 24)
  else if 0x20 ≤ o ∧ o < 0x40 then some (isl.deviceHash / 2 ^ (8 * (o - 0x20)) % 2 ^ 32)
  else if 0x40 ≤ o ∧ o < 0x60 then
    some (match isl.store.owner with | some c => Config.credHash c.key / 2 ^ (8 * (o - 0x40)) % 2 ^ 32 | none => 0)
  else if o = 0x64 then some (flagAt (isl.store.tenants.has t) 0 + min 4095 (s.tenantSlots t).length * 2)
  else if o = 0x68 then some (loW glds)
  else if o = 0x6C then some (hiW glds)
  else if o = 0x70 then some (loW seq)
  else if o = 0x74 then some (hiW seq)
  else if 0x10000 ≤ o ∧ o < 0x14000 then
    let k := (o - 0x10000) / 4
    let m := s.slot k
    let names := (s.regions.list.filter fun e => e.2.slot == some k).length
    some (m.st.code + m.epoch.toNat * 4 + flagAt m.prev.isSome 7 + m.tenant % 1024 * 2 ^ 8 + names * 2 ^ 18)
  else if 0x14000 ≤ o ∧ o < 0x14400 then
    some (match isl.links.get? ((o - 0x14000) / 4) with | some d => 1 + d.dir % 2 * 4 | none => 0)
  else if 0x14400 ≤ o ∧ o < 0x14440 then some (flagAt (s.islotActive ((o - 0x14400) / 4)) 0)
  else if 0x20000 ≤ o ∧ o < 0x24000 then some (flagAt (s.slot ((o - 0x20000) / 4)).next.isSome 0)
  else none

/-- DC views (R149–R153): LANE and GRP of the rank of TRN_SEL. -/
def Dev.viewDc (s : Dev) (n o : Nat) : Option Nat :=
  let c := s.channel n
  let rank := s.get (Reg.DC.TRN_SEL.RANK n)
  if 0x100 ≤ o ∧ o < 0x240 then
    let v := c.lanes.getD (rank * 128 + (o - 0x100) / 4) 0
    some (v % 2 ^ 10 + v / 2 ^ 16 % 2 ^ 10 * 2 ^ 16)
  else if 0x240 ≤ o ∧ o < 0x300 then
    let g := c.groups.getD (rank * 32 + (o - 0x240) / 4) (0, 0, 0)
    some (g.1 % 1024 + g.2.1 % 64 * 2 ^ 10 + g.2.2 % 128 * 2 ^ 16)
  else none

/-- MDC views (R493): modified words; metadata fetches queued at a channel. -/
def Dev.viewMdc (s : Dev) (o : Nat) : Option Nat :=
  if o = 0x1C then some (s.mdc.list.filter fun e => e.2).length
  else if 0x40 ≤ o ∧ o < 0x70 then
    some (min 64 (s.reads.list.filter fun e => e.2.chan == (o - 0x40) / 4 && e.2.md.isSome).length)
  else none

/-- ECS views: the poison index (R122), fill progress (R128). -/
def Dev.viewEcs (s : Dev) (o : Nat) : Option Nat :=
  if o = 0x8 then some s.fillPctAll
  else if o = 0x28 then some (min 65536 s.poison.size + s.get Reg.ECS.POISON_IDX.OVF * 2 ^ 17)
  else if 0x1000 ≤ o ∧ o < 0x1C00 ∧ o % 0x100 = 0xC then some (s.fillPct ((o - 0x1000) / 0x100))
  else none

/-- TMG views (R228, R238): frames, loan slots, and the tenant of TEN_SEL. -/
def Dev.viewTmg (s : Dev) (o : Nat) : Option Nat :=
  let t := s.get Reg.TMG.TEN_SEL.TENANT
  let q := s.quota t
  if o = 0xC then some (s.get Reg.TMG.STS.OVERCOMMIT + s.get Reg.TMG.STS.SA_SHORT * 2 +
    flagAt (s.bit Reg.TMG.STS.REBUILD || !s.mapLost.list.isEmpty) 2 + s.get Reg.TMG.STS.DEGRADED * 8 + s.get Reg.TMG.STS.LOST_CH * 16)
  else if o = 0x14 then some s.lFrames
  else if o = 0x18 then some s.freeFrames
  else if o = 0x1C then some s.lentFrames
  else if o = 0x20 then some (s.round.borrow.size * 16384)
  else if o = 0x24 then some (s.fm.list.filter fun e => e.2.tier == .N || e.2.tier == .staged).length
  else if o = 0x30 then some (s.qsumL % 2 ^ 31)
  else if 0x44 ≤ o ∧ o < 0x54 then some (q.read ((o - 0x44) / 4))
  else if o = 0x54 then some (s.useL t)
  else if o = 0x58 then some (s.useN t)
  else if o = 0x5C then some (s.pinned t)
  else if o = 0x60 then some (q.evict + flagAt q.evictSat 31)
  else none

/-- STI views (R263): TNOW, credits, the engines' composite words, general registers and the pattern window. -/
def Dev.viewSti (s : Dev) (o : Nat) : Option Nat :=
  if o = 0x4 then some s.tnow
  else if o = 0x8 then some s.creditSum
  else if o = 0x10 then some (bitsOf ((List.range 16).filter s.engOn))
  else if 0x1000 ≤ o ∧ o < 0x2000 then
    let e := (o - 0x1000) / 0x100
    let x := s.engine e
    let k := o % 0x100
    if k = 0x4 then some (s.engState e + s.get (Reg.ENG.STS.STOP_REASON e) * 8 + s.engPc e * 2 ^ 7 + x.streams.size * 2 ^ 17 +
      s.engLen e * 2 ^ 21)
    else if k = 0x14 then some (s.outst e)
    else if k = 0x1C then some (x.fifo.length + s.get (Reg.ENG.DB_STS.OVF e) * 32)
    else if k = 0x20 then
      let on := fun (p : Watch → Bool) => bitsOf ((x.watches.list.filter fun w => p w.2).map (·.1))
      some (on (·.armed) + on (·.fired) * 256)
    else if 0x80 ≤ k ∧ k < 0xC0 then
      let v := (s.reg e ((k - 0x80) / 8)).toNat
      some (if k % 8 = 0 then loW v else hiW v)
    else none
  else if 0x10000 ≤ o ∧ o < 0x30000 then
    let v := ((s.engine ((o - 0x10000) / 0x2000)).pattern.getD (o % 0x2000 / 8) 0).toNat
    some (if o % 8 = 0 then loW v else hiW v)
  else none

/-- CHN views (R197–R199): destages and learning reads outstanding, and bucket levels in MiB. -/
def Dev.viewChn (s : Dev) (o : Nat) : Option Nat :=
  if o = 0xC then some (s.destages.size + s.learns.size * 2 ^ 13)
  else if 0x20 ≤ o ∧ o < 0x40 then
    let d := s.slotOfPort ((o - 0x20) / 4)
    some (if d = 255 then 0 else min (2 ^ 24 - 1) (((s.refillTokens d).drive d).tokens / (tokenByte * 2 ^ 20)))
  else none

/-- NVH views: drives in service, and free rescue slots (R203). -/
def Dev.viewNvh (s : Dev) (o : Nat) : Option Nat :=
  if o = 0x14 then some (s.get Reg.NVH.IMG_STS.STATE + s.get Reg.NVH.IMG_STS.CLEAN_RESTORE * 8 + s.get Reg.NVH.IMG_STS.RESCUE_USED * 16 +
    s.healthy * 32)
  else if 0x40 ≤ o ∧ o < 0x60 then
    let d := s.slotOfPort ((o - 0x40) / 4)
    some (if d = 255 then 0 else s.rescueFree d)
  else none

/-- TWT views: the association of PA_SEL (R274–R276). -/
def Dev.viewTwt (s : Dev) (o : Nat) : Option Nat :=
  let a := s.assoc (s.get Reg.TWT.PA_SEL.ASSOC)
  if o = 0x44 then some (a.member + flagAt a.secret 5 + a.portMask * 2 ^ 6 + flagAt a.openSet 10 + flagAt a.rekeySet 11)
  else if o = 0x48 then some (a.state + flagAt a.kph 2 + a.aepoch % 65536 * 8)
  else if o = 0x4C then some (loW a.mac)
  else if o = 0x50 then some (hiW a.mac % 65536)
  else if 0x54 ≤ o ∧ o < 0x64 then some (a.ip / 2 ^ (8 * (o - 0x54)) % 2 ^ 32)
  else none

/-- CCC views: context counts, and the connection of CID_SEL (R278–R280, R299). -/
def Dev.viewCcc (s : Dev) (o : Nat) : Option Nat :=
  let a := s.get Reg.CCC.CID_SEL.ASSOC
  let cid := s.get Reg.CCC.CID_SEL.CID
  let cached := s.assocs.list.foldl (fun n e => n + (e.2.conns.list.filter fun c => c.2.cached).length) 0
  let show_ := fun (f : Conn → Nat) => some (match s.conn a cid with | some c => f c | none => 0)
  if o = 0x10 then some (cached + s.pinnedCount * 2 ^ 13 + s.refills * 2 ^ 22)
  else if o = 0x44 then show_ fun c => c.state + flagAt c.relaxed 2 + flagAt c.cached 3 + flagAt c.busy 4 + a * 32
  else if o = 0x48 then show_ fun c => if s.bit Reg.CCC.CFG.CC_EN then c.rc else s.lineRate a cid
  else if o = 0x4C then show_ fun c => min 65535 c.alpha
  else if o = 0x50 then show_ (·.una)
  else if o = 0x54 then show_ (·.exp)
  else none

/-- Remaining lease in µs, less the guard (R318). -/
def Dev.leaseLeft (s : Dev) : Nat :=
  match s.mirror.leaseEnd with
  | some t => (t - oGuard - s.oclk) * 40 / 1000
  | none => 0

/-- MIR views: lease, lag, divergence, lanes, and the pair of REF_SEL (R303–R325). -/
def Dev.viewMir (s : Dev) (o : Nat) : Option Nat :=
  let p := s.refPairs.getD (s.get Reg.MIR.REF_SEL.SLOT) {}
  if o = 0x18 then some (min (2 ^ 18 - 1) s.leaseLeft)
  else if o = 0x20 then some (min (2 ^ 17 - 1) (s.lagRecords / 16))
  else if o = 0x2C then some (loW s.mirror.div.size)
  else if o = 0x30 then some (hiW s.mirror.div.size)
  else if 0x50 ≤ o ∧ o < 0x90 then some (s.lane ((o - 0x50) / 4)).size
  else if o = 0x104 then some (p.pairId + p.memberA * 2 ^ 16 + p.memberB * 2 ^ 21 + flagAt p.en 26)
  else if o = 0x108 then some (p.holder + flagAt p.stbyOk 1 + flagAt (p.en && decide (s.oclk < p.end_)) 2)
  else if o = 0x10C then some (loW p.epoch)
  else if o = 0x110 then some (hiW p.epoch)
  else none

/-- RND views: digest, loans, and the member of MSEL (R345–R350). -/
def Dev.viewRnd (s : Dev) (o : Nat) : Option Nat :=
  let m := s.get Reg.RND.MSEL.MEMBER
  if 0x30 ≤ o ∧ o < 0x50 then some (s.round.digest / 2 ^ (8 * (o - 0x30)) % 2 ^ 32)
  else if o = 0x60 then some ((s.round.lend.list.filter fun e => e.2.member.isSome).length + s.round.borrow.size * 2 ^ 16)
  else if o = 0x74 then
    let a := s.assocOf m
    let one := match a with | some k => (s.assoc k).oneway.getD 0 / 1000 | none => 0
    let inRing := (s.get Reg.RND.RING.MEMBERS).testBit m
    some (min 65535 one + flagAt (s.round.slow.has m) 16 + flagAt inRing 17 + flagAt (match a with | some k => s.assocUp k | none => false) 18)
  else if o = 0x78 then
    some ((s.round.lend.list.filter fun e => e.2.member == some m).length +
      (s.round.borrow.list.filter fun e => e.1 / 1024 == m).length * 2 ^ 16)
  else none

/-- MGC views: the lowest pending enabled event; the sampled PC and the counters of a released core are free values (R494, log entry 3). -/
def Dev.viewMgc (s : Dev) (o : Nat) : Option Nat :=
  if o = 0x10 then
    some (match (List.range 1024).find? fun i =>
        (s.get (Reg.MGC.IRQ_PEND.PEND (i / 32))).testBit (i % 32) && (s.get (Reg.MGC.IRQ_EN.EN (i / 32))).testBit (i % 32) with
      | some i => i + 1024
      | none => 0)
  else if 0x110 ≤ o ∧ o < 0x200 ∧ (s.get Reg.MGC.CORE_EN.EN).testBit ((o - 0x100) / 0x40) = true then
    let r := (o - 0x100) % 0x40
    let free := Config.sample (0x840000 + o) s.clock
    if r = 0x10 ∨ r = 0x14 then some (free % 2 ^ 32)
    else if 0x18 ≤ r ∧ (r - 0x18) / 8 ≠ 2 ∧ r < 0x40 then some (if r % 8 = 0 then free % 2 ^ 32 else free % 2 ^ 16)
    else none
  else none

/-- A word of a ring's registers (R389). -/
def Dev.ringWord (s : Dev) (f r o : Nat) : Nat :=
  let x := s.ring f r
  match o with
  | 0x00 => loW x.sqBase
  | 0x04 => hiW x.sqBase
  | 0x08 => loW x.cqBase
  | 0x0C => hiW x.cqBase
  | 0x10 => x.sqLog2 + x.cqLog2 * 256
  | 0x14 => flagAt x.enable 0 + x.msix * 2 + flagAt x.irqEn 12
  | 0x18 => x.state + (if x.state = 0 then 0 else x.gring * 4) + x.err * 4096
  | 0x1C => x.coalCnt + x.coalTime * 256
  | 0x20 => x.taken.length
  | _ => 0

/-- A word of a doorbell page (R391). -/
def Dev.doorbellWord (s : Dev) (f r o : Nat) : Nat :=
  let x := s.ring f r
  match o with
  | 0x08 => x.sqHead + x.state * 65536
  | 0x10 => s.role + s.pstate * 8
  | 0x18 => loW s.epoch
  | 0x1C => hiW s.epoch
  | _ => 0

/-- CMD views (R388–R391). -/
def Dev.viewCmd (s : Dev) (o : Nat) : Option Nat :=
  if o = 0x14 then some (s.ringCount (s.get Reg.CMD.RQ_SEL.FUNC))
  else if o = 0x18 then some ((List.range 65).foldl (fun a f => a + s.ringCount f) 0)
  else if o = 0x24 then
    some (match s.rings.list.find? fun e => e.2.state != 0 && e.2.gring == s.get Reg.CMD.RING_SEL.GRING with
      | some e => e.2.state + e.1 / 16 * 4 + e.1 % 16 * 2 ^ 9 + e.2.taken.length * 2 ^ 13
      | none => 0)
  else if o = 0x7F00 then some (s.ringCount 64)
  else if 0x8000 ≤ o ∧ o < 0x8400 then some (s.ringWord 64 ((o - 0x8000) / 0x40) (o % 0x40))
  else if 0x10000 ≤ o ∧ o < 0x20000 then some (s.doorbellWord 64 ((o - 0x10000) / 0x1000) (o % 0x1000))
  else none

/-- Items a skein queue holds: queue 1 is ROW's holding queue, 8 items a record; queues 16–31 are the replay lanes', 10 items a
record (R407, R412, R431). -/
def Dev.skeinFill (s : Dev) (q : Nat) : Nat :=
  if q = 1 then 8 * s.row.holding.length
  else if 16 ≤ q ∧ q < 32 then 10 * min laneRecords (s.lane (q - 16)).queue.length
  else (s.skein q).items.length

/-- SKQ views: the queue of Q_SEL (R412). -/
def Dev.viewSkq (s : Dev) (o : Nat) : Option Nat :=
  let q := s.get Reg.SKQ.Q_SEL.QUEUE
  let k := s.skein q
  if o = 0x4 then some (skeinLog2 q + Config.skeinBase q % 2 ^ 18 * 32 + flagAt k.fullMode 23 + flagAt (skeinSw q) 24)
  else if o = 0x8 then some k.level
  else if o = 0xC then some (s.skeinFill q + flagAt k.dropping 17)
  else if o = 0x1C then some (k.resets + flagAt k.resetsSat 31)
  else if o = 0x20 then some (k.drops + flagAt k.dropsSat 31)
  else if o = 0x100 then some (s.get (Reg.SKQ.LVL_PEND.PEND 0) ||| flagAt s.row.lvlPend 1)
  else none

/-- ROW views (R431, R433). -/
def Dev.viewRow (s : Dev) (o : Nat) : Option Nat :=
  if o = 0x10 then some (loW s.rowOldest)
  else if o = 0x14 then some (hiW s.rowOldest % 65536)
  else if o = 0x18 then some (loW s.rowNewest)
  else if o = 0x1C then some (hiW s.rowNewest % 65536)
  else if o = 0x20 then some (match s.row.open_ with | some r => r.cnt + 65536 | none => 0)
  else none

/-- FCO view: the entry of an event that no chapter assigns reads 0 (R415). -/
def viewFco (o : Nat) : Option Nat := if 0x1000 ≤ o ∧ o < 0x2000 ∧ !evAssigned ((o - 0x1000) / 4) then some 0 else none

/-- CKS views (R459). -/
def Dev.viewCks (s : Dev) (o : Nat) : Option Nat :=
  if o = 0x20 then some (loW s.rtcNow)
  else if o = 0x24 then some (hiW s.rtcNow % 65536 + s.get Reg.CKS.RTC_HI.VALID * 65536)
  else if o = 0x30 then some (loW s.calNow)
  else if o = 0x34 then some (hiW s.calNow)
  else none

/-- CAL views: the item of SEL (R462); a reserved item reads 0. -/
def Dev.viewCal (s : Dev) (o : Nat) : Option Nat :=
  let i := s.get Reg.CAL.SEL.ITEM
  let c := s.cal.getD i {}
  let show_ := fun (v : Nat) => some (if calUsed i then v else 0)
  if o = 0x4 then show_ (twos 16 (s.calBaseOf i) + calLimit i * 65536)
  else if o = 0x8 then show_ (twos 16 c.user)
  else if o = 0xC then show_ (twos 16 (s.calBaseOf i + c.offset i) + flagAt (c.clamped i) 16)
  else none

/-- SNS views: for 10 ms after a block reset the telemetry reads as invalid, which the spec gives no value (R423, R495). -/
def Dev.viewSns (s : Dev) (o : Nat) : Option Nat :=
  match s.fco.brst.get? 0x28 with
  | some t => if 0x100 ≤ o ∧ s.clock < t + 10 * fclkMs then some (Config.value (s.fresh + o) % 2 ^ 16) else none
  | none => none

/-- What a word shows when it is not a word of stored fields. -/
def Dev.viewWord (s : Dev) (fu : Fuses) (code o : Nat) : Option Nat :=
  if code = 0 then s.viewGlb o
  else if code ≤ 4 then s.viewHp o
  else if code = 5 then s.viewRte o
  else if code = 6 then s.viewLc o
  else if code = 8 then s.viewKsl fu o
  else if 10 ≤ code ∧ code ≤ 21 then s.viewDc (code - 10) o
  else match code with
    | 0x09 => s.viewMdc o
    | 0x16 => s.viewEcs o
    | 0x17 => s.viewTmg o
    | 0x18 => s.viewSti o
    | 0x19 => s.viewChn o
    | 0x1A => s.viewNvh o
    | 0x1D => s.viewTwt o
    | 0x1E => s.viewCcc o
    | 0x1F => s.viewMir o
    | 0x20 => s.viewRnd o
    | 0x21 => s.viewMgc o
    | 0x22 => s.viewCmd o
    | 0x23 => s.viewRow o
    | 0x24 => viewFco o
    | 0x26 => s.viewCks o
    | 0x27 => s.viewCal o
    | 0x28 => s.viewSns o
    | 0x29 => s.viewSkq o
    | _ => none

/-- The present value of a BAR0 word: 0 where no register stands (R8, R483). -/
def Dev.word (s : Dev) (fu : Fuses) (off : Nat) : Nat :=
  let code := off / 0x40000
  match regAt code (off % 0x40000) with
  | none => 0
  | some (t, i) => (s.viewWord fu code (off % 0x40000)).getD (s.storedWord off t i)

/-- HI word latched by a read of a LO word: the HI offset (R184, R263, R426, R489, R493–R495 and the blocks' tables). -/
def latchOf (off : Nat) : Option Nat :=
  let o := off % 0x40000
  let pair := match off / 0x40000 with
    | 0x00 => o == 0x8
    | 0x06 => o == 0x10 || o == 0x18 || o == 0x20
    | 0x07 => decide (0x80 ≤ o) && decide (o < 0xC0) && o % 8 == 0
    | 0x08 => o == 0x70
    | 0x09 => o == 0x0 || o == 0x8
    | 0x17 => decide (0x80 ≤ o) && decide (o < 0xA0) && o % 8 == 0
    | 0x18 => decide (0x1000 ≤ o) && decide (o < 0x2000) && (o % 0x100 == 0x60 || (decide (0x80 ≤ o % 0x100) && decide (o % 0x100 < 0xC0) && o % 8 == 0))
    | 0x19 => o == 0x10 || o == 0x18
    | 0x1F => o == 0x10 || o == 0x2C || o == 0x10C
    | 0x20 => o == 0x20
    | 0x21 => decide (0x118 ≤ o) && decide (o < 0x200) && decide (0x18 ≤ o % 0x40) && o % 8 == 0
    | 0x22 => o == 0x30 || (decide (0x10000 ≤ o) && decide (o < 0x20000) && o % 0x1000 == 0x18)
    | 0x23 => o == 0x10 || o == 0x18
    | 0x24 => decide (0x100 ≤ o) && decide (o < 0x150) && o % 16 == 8
    | 0x26 => o == 0x20 || o == 0x30
    | 0x28 => o == 0x290
    | _ => false
  if pair then some (off + 4) else none

/-- The key of a function's latched HI word. -/
def latchKey (func off : Nat) : Nat := func * 2 ^ 25 + off

/-- A read of a BAR0 word of the management function (R483), with its side effects: latches, and the pop of SKQ.POP_LO. -/
def Dev.busRead (s : Dev) (fu : Fuses) (off : Nat) : Dev × Nat :=
  if off % 4 ≠ 0 ∨ 2 ^ 24 ≤ off then (s, 0)
  else if off = 0xA40014 then s.skqPop
  else match latchOf off with
    | some h => ({ s with cks := { s.cks with latched := s.cks.latched.put (latchKey 64 h) (s.word fu h) } }, s.word fu off)
    | none =>
      if 4 ≤ off ∧ (latchOf (off - 4)).isSome then
        let l := s.cks.latched.getD (latchKey 64 off) 0
        (s, if off = 0x980024 then l % 65536 + s.get Reg.CKS.RTC_HI.VALID * 65536 else l)
      else (s, s.word fu off)

/-- A word of a function's MSI-X table or PBA (R480, R481): entries of 16 bytes with the mask in bit 0 of the last word. -/
def Dev.msixWord (s : Dev) (f o pba : Nat) : Nat :=
  let m := s.msix f
  if o < 16 * vectorsOf f then
    let v := o / 16
    let e := m.entries.getD v (0, 0)
    match o / 4 % 4 with
    | 0 => loW e.1
    | 1 => hiW e.1
    | 2 => loW e.2
    | _ => flagAt (!m.unmasked.has v) 0
  else if pba ≤ o ∧ o < pba + vectorsOf f / 8 then
    bitsOf ((List.range 32).filter fun k => m.pba.has ((o - pba) * 8 + k))
  else 0

/-- A read of a word of an LD's BARs (R481, R389, R391). The component and device registers follow layouts that are outside the
spec: by offset they answer a free value; those that the spec gives a value are read by name (`.config`). -/
def Dev.ldRead (s : Dev) (f : Nat) (a : RegAddr) : Dev × Nat :=
  match a with
  | .bar0 o =>
    if o % 4 ≠ 0 then (s, 0)
    else if o < 0x6000 then let v := s.freeValue; (v.2, v.1 % 2 ^ 32)
    else if o < 0x7F00 then (s, s.msixWord f (o - 0x6000) 0x800)
    else if o = 0x7F00 then (s, s.ringCount f)
    else if 0x8000 ≤ o ∧ o < 0x8400 then (s, s.ringWord f ((o - 0x8000) / 0x40) (o % 0x40))
    else (s, 0)
  | .bar2 o =>
    if o % 4 ≠ 0 ∨ 0x10000 ≤ o then (s, 0)
    else
      let k := latchKey f o
      if o % 0x1000 = 0x18 then
        ({ s with cks := { s.cks with latched := s.cks.latched.put (k + 4) (hiW s.epoch) } }, loW s.epoch)
      else if o % 0x1000 = 0x1C then (s, s.cks.latched.getD k 0)
      else (s, s.doorbellWord f (o / 0x1000) (o % 0x1000))
  | .bar4 _ => (s, 0)
  | .msixControl => (s, flagAt (s.msix f).fmask 14 + flagAt (s.msix f).enable 15 + (vectorsOf f - 1))
  | .config r => (s, s.configRead f r)
  | .doe r => (s, s.doeRead f r)

/-- A read of a word by a host through a function: 64 is the management function, 0–63 the LDs, 128 + H the FM-owned LD of a head. -/
def Dev.hostRegRead (s : Dev) (fu : Fuses) (f : Nat) (a : RegAddr) : Dev × Nat :=
  if f < 64 then s.ldRead f a
  else match a with
    | .bar0 o => if f = 64 then s.busRead fu o else (s, 0)
    | .bar2 _ => (s, 0)
    | .bar4 o => (s, if f ≠ 64 then 0 else if o % 4 = 0 then s.msixWord 64 o 0x8000 else 0)
    | .msixControl => (s, flagAt (s.msix 64).fmask 14 + flagAt (s.msix 64).enable 15 + 2047)
    | .config r => (s, s.configRead f r)
    | .doe r => (s, s.doeRead f r)

/-- The address of the next word. -/
def RegAddr.next : RegAddr → RegAddr
  | .bar0 o => .bar0 (o + 4)
  | .bar2 o => .bar2 (o + 4)
  | .bar4 o => .bar4 (o + 4)
  | .msixControl => .msixControl
  | .config r => .config r
  | .doe r => .doe r

/-- The offset of an address. -/
def RegAddr.off : RegAddr → Nat
  | .bar0 o => o
  | .bar2 o => o
  | .bar4 o => o
  | .msixControl => 0
  | .config _ => 0
  | .doe _ => 0

/-- COUNTER_LO_READ: a register read by the host of a function, as one word, or (`wide`) as its low word and then its high word
(R184, R483); a LO word latches its HI word. The table has no other row for a read: this one carries a read of any offset. -/
def execCounterLoRead (func : Nat) (addr : RegAddr) (wide : Bool) (s : State) : Answer :=
  s.onF fun fu s => (if (s.headOfInst func).isNone then s
    else if wide && addr.off % 8 != 0 then s.send (.regData addr.off 0)
    else
      let r := s.hostRegRead fu func addr
      let s := r.1.send (.regData addr.off r.2)
      if wide then let h := s.hostRegRead fu func addr.next; h.1.send (.regData addr.next.off h.2) else s)

/-- Words read one after another from a BAR0 offset. -/
def Dev.readWords (s : Dev) (fu : Fuses) (off : Nat) : Nat → Dev × List Nat
  | 0 => (s, [])
  | n + 1 => let r := s.busRead fu off; let t := r.1.readWords fu (off + 4) n; (t.1, r.2 :: t.2)

/-- An MCTP request (R486): count and offset valid; code 1 otherwise. -/
def mctpOk (off count : Nat) : Bool := decide (1 ≤ count) && decide (count ≤ 64) && off % 4 == 0 && decide (off + 4 * count ≤ 2 ^ 24)

/-- MCTP_BAR0_READ of 1–64 words (R486). -/
def execMctpBar0Read (off count : Nat) (s : State) : Answer :=
  s.onF fun fu s => (if mctpOk off count then let r := s.readWords fu off count; r.1.send (.message mctpInst 0 r.2)
    else s.send (.message mctpInst 1 []))

end Sys2Proof.Machine
end

