-- ==== Sys2Proof/Machine/RegAccess.lean ====
section
/-! DEFINITION. Writing the registers of the management BAR0 and of the LD BARs (R483–R487, R494): which fields take a write, which
writes are discarded, and what a write sets in motion. -/

namespace Sys2Proof.Machine

/-- The bits `w` from bit `lo` of a written word. -/
def bitsAt (v lo w : Nat) : Nat := v / 2 ^ lo % 2 ^ w

/-- A field software can write at some time. -/
def RegField.writable (f : RegField) : Bool := !(f.acc == .ro || f.acc == .rof || f.acc == .rs)

/-- The code of the block whose LOCK governs a register: DCR_CLASS is one array under HP0's (R491). -/
def lockCode (code o : Nat) : Nat := if 1 ≤ code ∧ code ≤ 4 ∧ 0x40 ≤ o ∧ o < 0x60 then 1 else code

/-- A field takes a write now (R484): BRST of a source whose block has no block reset never does (R417). -/
def Dev.fieldOpen (s : Dev) (code o : Nat) (f : RegField) : Bool :=
  f.writable && !(f.acc == .rwl && s.locked (lockCode code o)) &&
    !(code == 0x24 && decide (0x1000 ≤ o) && f.lo == 3 && !resetBlock ((o - 0x1000) / 64))

/-- A register that takes no write at all in the case at hand: the entry of an unassigned event (R415), queue addresses and sizes
of a ring that is not DISABLED (R389), PA fields while the association is not DOWN (R301), MBOX_IN while the island owns it
(R494), USER of a reserved item (*CAL items*), a command for an internal skein queue (R412). -/
def Dev.shut (s : Dev) (code o v : Nat) : Bool :=
  if code = 0x24 then decide (0x1000 ≤ o) && !evAssigned ((o - 0x1000) / 4)
  else if code = 0x22 then decide (0x8000 ≤ o) && decide (o < 0x8400) && decide (o % 0x40 ≤ 0x10) && (s.ring 64 ((o - 0x8000) / 0x40)).state != 0
  else if code = 0x1D then
    let st := (s.assoc (s.get Reg.TWT.PA_SEL.ASSOC)).state
    if o = 0x44 then (if v.testBit 11 then st != 2 else st != 0 && st != 2) else decide (0x4C ≤ o) && decide (o < 0x64) && st != 0
  else if code = 0x21 then decide (0x1000 ≤ o) && decide (o < 0x1800) && s.bit Reg.MGC.MBOX_STS.BUSY
  else if code = 0x27 then o == 0x8 && !calUsed (s.get Reg.CAL.SEL.ITEM)
  else if code = 0x29 then o == 0x10 && !skeinSw (s.get Reg.SKQ.Q_SEL.QUEUE)
  else false

/-- A field's range is kept. -/
def RegField.inRange (f : RegField) (v : Nat) : Bool :=
  match f.range with
  | some (a, b) => let x := bitsAt v f.lo f.width; decide (a ≤ x) && decide (x ≤ b)
  | none => true

/-- Bytes of a FAILED_DEV word that name no device. -/
def badDevices (v : Nat) : Bool := (List.range 4).any fun k => v.testBit (8 * k + 7) && decide (9 < bitsAt v (8 * k) 4)

/-- Sums over the cipher classes with class c's fields as written (R175). -/
def Dev.classesOk (s : Dev) (c v : Nat) : Bool :=
  let depth := fun (k : Nat) => if k = c ∧ !s.bit Reg.RNT.LOCK.LOCK then bitsAt v 16 11 else s.get (Reg.RNT.CLS.DEPTH k)
  let min_ := fun (k : Nat) => if k = c then bitsAt v 0 6 else s.get (Reg.RNT.CLS.MIN k)
  decide ((List.range 8).foldl (fun a k => a + min_ k) 0 ≤ 48) && decide ((List.range 8).foldl (fun a k => a + depth k) 0 ≤ 1024)

/-- Rules of Meanings that bind several fields or leave gaps. -/
def Dev.ruleOk (s : Dev) (code o v : Nat) : Bool :=
  if code = 0x1B ∧ o = 0x10 then decide (bitsAt v 0 7 < bitsAt v 8 7) && decide (bitsAt v 8 7 < 100)
  else if code = 0x16 ∧ o = 0x14 then decide (bitsAt v 11 8 ≤ 136)
  else if code = 0x16 ∧ 0x1000 ≤ o ∧ (o % 0x100 = 0x1C ∨ o % 0x100 = 0x20) then !badDevices v
  else if 10 ≤ code ∧ code ≤ 21 ∧ o = 0x28 then decide (bitsAt v 8 6 < bitsAt v 0 6)
  else if code = 0x07 ∧ 0x40 ≤ o ∧ o < 0x60 then s.classesOk ((o - 0x40) / 4) v
  else if code = 0x22 ∧ 0x8000 ≤ o ∧ o % 0x40 = 0x10 then decide (bitsAt v 0 5 ≤ bitsAt v 8 5)
  else if code = 0x22 ∧ o = 0x14 then
    let f := s.get Reg.CMD.RQ_SEL.FUNC
    decide ((List.range 65).foldl (fun a k => a + if k = f then bitsAt v 0 5 else s.ringCount k) 0 ≤ 1024)
  else if code = 0x24 ∧ 0x1000 ≤ o then let t := bitsAt v 19 7; decide (t ≤ 64) || t == 127
  else true

/-- What a field stores of a written value: three fields store their maximum instead of a higher one; the reserved bits of a
FAILED_DEV byte stay 0. -/
def storedValue (code o : Nat) (x : Nat) : Nat :=
  if code = 0x1B ∧ o = 0 then min x 0x3000000
  else if code = 0x1A ∧ o = 0x10 then min x 0x2000000
  else if code = 0x20 ∧ o = 0x54 then (if 8192 < x % 2 ^ 14 then 8192 else x)
  else if code = 0x16 ∧ 0x1000 ≤ o ∧ (o % 0x100 = 0x1C ∨ o % 0x100 = 0x20) then x &&& 0x8F8F8F8F
  else x

/-- Store the fields that take a write: W1C clears the bits written 1, and SAT its COUNT with it (R485); of the W1S fields only a
LOCK is stored; write-only fields store nothing. -/
def Dev.storeFields (s : Dev) (code o v : Nat) (t : RegTmpl) (i : List Nat) : Dev :=
  let off := code * 0x40000 + o
  (t.fields.filter (s.fieldOpen code o)).foldl (fun s f =>
    let g := f.at_ off i
    let x := bitsAt v f.lo f.width
    match f.acc with
    | .w1c =>
      let s := s.set g (s.get g - (s.get g &&& x))
      if f.lo = 31 ∧ x = 1 then s.set ⟨off, 0, 31, 0⟩ 0 else s
    | .w1s => if lockOff code = some o ∧ x = 1 then s.set g 1 else s
    | .wo => s
    | _ => s.set g (storedValue code o x)) s

/-- COMMIT (R362): refused while a fallback image runs; else the warden asks for VDD_FUSE (R453). -/
def Dev.commitSvn (s : Dev) : Dev :=
  if s.bit Reg.KSL.BOOT_STS.FALLBACK then s.raise (kslInner 0x082)
  else if s.island.phase ≠ 2 then s else s.setPsq fun p => { p with fuse := true }

/-- Setting of MBOX_CTL.GO (R494): the island takes the mailbox. -/
def Dev.mboxGo (s : Dev) : Dev :=
  if s.bit Reg.MGC.MBOX_STS.BUSY then s
  else { s.setBit Reg.MGC.MBOX_STS.BUSY true with island := { s.island with mailbox := true } }

/-- A write of IRQ_ACK clears the pending bit it names (R494). -/
def Dev.irqAck (s : Dev) (id : Nat) : Dev :=
  let f := Reg.MGC.IRQ_PEND.PEND (id % 1024 / 32)
  s.set f (withoutBit (s.get f) (id % 32))

/-- A write to LOCK_ALL with bit 0 set (R487, R490): it shows the 1 written (R10). -/
def Dev.lockAll (s : Dev) : Dev :=
  let s := (List.range 64).foldl (fun s c => match lockField c with | some f => s.setBit f true | none => s) s
  (s.setBit Reg.GLB.LOCK_ALL.LOCK true).raise (s.glbEv 0x000)

/-- The newest verified record of a referee slot (R322). -/
def Dev.refNewest (s : Dev) (k : Nat) : Option RefLog :=
  s.refLog.foldl (fun a r => if r.slot = k ∧ r.verifies (s.internalKey 1) then some r else a) none

/-- REF_CFG of the slot selected (R321, R322): a pair that starts to be refereed takes its persisted state, and END as after a
restart. -/
def Dev.refCfg (s : Dev) (v : Nat) : Dev :=
  let k := s.get Reg.MIR.REF_SEL.SLOT
  let old := s.refPairs.getD k {}
  let p : RefPair := { old with pairId := bitsAt v 0 16, memberA := bitsAt v 16 5, memberB := bitsAt v 21 5, en := v.testBit 26 }
  let p : RefPair := if !p.en || (old.en && old.pairId == p.pairId) then p
    else match s.refNewest k with
      | some r =>
        if r.pairId = p.pairId then { p with epoch := r.epoch, holder := r.holder, stbyOk := r.stbyOk, end_ := s.oclk + oLease }
        else { p with epoch := 0, holder := 0, stbyOk := false, end_ := s.oclk + oLease }
      | none => { p with epoch := 0, holder := 0, stbyOk := false, end_ := s.oclk + oLease }
  { s with refPairs := s.refPairs.putD k p {} }

/-- A write of a word of a ring's registers (R389, R390), its checks done. -/
def Dev.ringStore (s : Dev) (f r o v : Nat) : Dev :=
  let x := s.ring f r
  match o with
  | 0x00 => s.setRing f r { x with sqBase := hiW x.sqBase * 2 ^ 32 + v % 2 ^ 32 }
  | 0x04 => s.setRing f r { x with sqBase := v % 2 ^ 32 * 2 ^ 32 + loW x.sqBase }
  | 0x08 => s.setRing f r { x with cqBase := hiW x.cqBase * 2 ^ 32 + v % 2 ^ 32 }
  | 0x0C => s.setRing f r { x with cqBase := v % 2 ^ 32 * 2 ^ 32 + loW x.cqBase }
  | 0x10 => s.setRing f r { x with sqLog2 := bitsAt v 0 5, cqLog2 := bitsAt v 8 5 }
  | 0x14 =>
    let s := s.setRing f r { x with msix := bitsAt v 1 11, irqEn := v.testBit 12 }
    if v.testBit 0 then s.ringEnable f r else s.ringDisable f r
  | 0x1C => s.setRing f r { x with coalCnt := bitsAt v 0 8, coalTime := bitsAt v 8 8 }
  | _ => s

/-- A write of a word of a doorbell page (R391, R392, R256). -/
def Dev.doorbellStore (s : Dev) (f r o v : Nat) : Dev :=
  if o = 0 then s.tailWrite f r (v % 65536)
  else if o = 4 then s.headWrite f r (v % 65536)
  else s.doorbell ((o - 0x800) / 4) (v % 65536) f

/-- PA fields of the association selected (R275, R277, R301). OPEN and REKEY show the 1 last written (R10); the spec names nothing but a
reset that clears them (DESIGN CHOICE, log entry 57). -/
def Dev.paStore (s : Dev) (o v : Nat) : Dev :=
  let k := s.get Reg.TWT.PA_SEL.ASSOC
  let a := s.assoc k
  if o = 0x44 then
    let a := if v.testBit 11 then { a with rekeySet := true } else a
    if v.testBit 11 then (s.setAssoc k a).paRekey k
    else if a.state = 0 then
      let a := if v.testBit 10 then { a with openSet := true } else a
      let s := s.setAssoc k { a with member := bitsAt v 0 5, secret := v.testBit 5, portMask := bitsAt v 6 4 }
      if v.testBit 10 then s.assocOpen k else s
    else s
  else if o = 0x4C then s.setAssoc k { a with mac := a.mac / 2 ^ 32 * 2 ^ 32 + v % 2 ^ 32 }
  else if o = 0x50 then s.setAssoc k { a with mac := v % 65536 * 2 ^ 32 + loW a.mac }
  else
    let sh := 8 * (o - 0x54)
    s.setAssoc k { a with ip := a.ip - a.ip / 2 ^ sh % 2 ^ 32 * 2 ^ sh + v % 2 ^ 32 * 2 ^ sh }

/-- SKQ writes (R411, R412): mode and level of the queue selected, its commands, and the SAT bits of its counters. -/
def Dev.skqStore (s : Dev) (o v : Nat) : Dev :=
  let q := s.get Reg.SKQ.Q_SEL.QUEUE
  let k := s.skein q
  if o = 0x4 then s.setSkein q { k with fullMode := v.testBit 23 }
  else if o = 0x8 then s.setSkein q { k with level := v % 2 ^ 17 }
  else if o = 0x10 then
    let s := if v.testBit 0 then s.skqDrop else s
    if v.testBit 1 then s.skqReset else s
  else if v.testBit 31 then
    s.setSkein q (if o = 0x1C then { k with resets := 0, resetsSat := false } else { k with drops := 0, dropsSat := false })
  else s

/-- DCR_CLASS of a DC region is written: a new class changes the CDATs (R84, R85). -/
def Dev.classWrite (s : Dev) (k c : Nat) : Dev :=
  let f := Reg.HP.DCR_CLASS.CLASS 0 k
  if s.get f = c then s else (s.set f c).cdatChanged

/-- Words whose write acts on state that no stored field holds: `none` = the word is a word of stored fields. -/
def Dev.actWrite (s : Dev) (code o v : Nat) : Option Dev :=
  if code = 0x00 ∧ o = 0x40 then some (if v.testBit 0 then s.lockAll else s)
  else if 1 ≤ code ∧ code ≤ 4 ∧ 0x40 ≤ o ∧ o < 0x60 then some (s.classWrite ((o - 0x40) / 4) (v % 4))
  else if code = 0x08 ∧ o = 0xC then some (if v.testBit 0 then s.commitSvn else s)
  else if code = 0x17 ∧ 0x44 ≤ o ∧ o < 0x54 then some (s.quotaWrite ((o - 0x44) / 4) v)
  else if code = 0x17 ∧ o = 0x60 then
    let t := s.get Reg.TMG.TEN_SEL.TENANT
    some (if v.testBit 31 then { s with quotas := s.quotas.putD t { s.quota t with evict := 0, evictSat := false } {} } else s)
  else if code = 0x18 ∧ 0x1000 ≤ o ∧ o % 0x100 = 0x18 then some (s.doorbell ((o - 0x1000) / 0x100) (v % 65536) 64)
  else if code = 0x1A ∧ o = 0x8 then some (if v.testBit 0 then s.imageCreate else s)
  else if code = 0x1D ∧ 0x44 ≤ o ∧ o < 0x64 then some (s.paStore o v)
  else if code = 0x1F ∧ o = 0x104 then some (s.refCfg v)
  else if code = 0x21 ∧ o = 0x14 then some (s.irqAck v)
  else if code = 0x22 ∧ o = 0x14 then
    let f := s.get Reg.CMD.RQ_SEL.FUNC
    some { s with rq := s.rq.putD f (bitsAt v 0 5) (rqReset f) }
  else if code = 0x22 ∧ 0x8000 ≤ o ∧ o < 0x8400 then some (s.ringStore 64 ((o - 0x8000) / 0x40) (o % 0x40) v)
  else if code = 0x22 ∧ 0x10000 ≤ o then some (s.doorbellStore 64 ((o - 0x10000) / 0x1000) (o % 0x1000) v)
  else if code = 0x24 ∧ o = 0x8 then some (s.pulseRun (v.testBit 0))
  else if code = 0x24 ∧ 0x100 ≤ o ∧ o < 0x150 then some (if v.testBit 10 then s.latchClear ((o - 0x100) / 16) else s)
  else if code = 0x25 ∧ o = 0x4 then
    let s := if v.testBit 1 then s.ctlOff true else s
    some (if v.testBit 0 then s.ctlOff false else s)
  else if code = 0x25 ∧ o = 0x18 then
    some (if v.testBit 7 then ((s.set Reg.PSQ.FAIL.SLOT 0).set Reg.PSQ.FAIL.KIND 0).setBit Reg.PSQ.FAIL.VALID false else s)
  else if code = 0x26 ∧ o = 0x10 then some (if v.testBit 0 then s.requestReset 4 else s)
  else if code = 0x26 ∧ o = 0x1C then some s.kick
  else if code = 0x26 ∧ o = 0x28 then some { s with cks := { s.cks with setLo := v % 2 ^ 32 } }
  else if code = 0x26 ∧ o = 0x2C then some (s.rtcSet (v % 65536))
  else if code = 0x27 ∧ o = 0x8 then some (s.calUser (s.get Reg.CAL.SEL.ITEM) (BitVec.ofNat 16 v).toInt)
  else if code = 0x29 ∧ (o = 0x4 ∨ o = 0x8 ∨ o = 0x10 ∨ o = 0x1C ∨ o = 0x20) then some (s.skqStore o v)
  else none

/-- What a write ends before its fields change: an enabled port, drives whose root port is disabled, the Twinset ports, and the
token refill at the old rate. -/
def Dev.beforeWrite (s : Dev) (code o v : Nat) : Dev :=
  if 1 ≤ code ∧ code ≤ 4 ∧ o = 0 then
    if s.bit (Reg.HP.PORT_CFG.ENABLE (code - 1)) && !v.testBit 5 && !s.locked code then s.portDisable (code - 1) else s
  else if code = 0x1A ∧ o = 0 ∧ !s.locked code then
    (setBits 8 (s.get Reg.NVH.CFG.PORT_EN)).foldl (fun s p =>
      let st := s.get (Reg.NVH.DRV.STATE p)
      if !v.testBit p && decide (1 ≤ st) && decide (st ≤ 3) then s.driveOut p 5 8 0x1A2 0 0 noGran else s) s
  else if code = 0x1C ∧ o = 0 then
    if s.bit Reg.TWL.CFG.ENABLE && !v.testBit 3 && !s.locked code then s.twinsetDown else s
  else if code = 0x19 ∧ o = 4 then (List.range s.imageN).foldl Dev.refillTokens s
  else s

/-- What a write of a word of channel n starts: ENABLE the SPD check, RATE the timings that firmware has not written; a timing word is
written from then on (R134, R139, R158); FORCE_2X acts at once (R146). -/
def Dev.dcAfter (s old : Dev) (n o : Nat) (lock : Bool) : Dev :=
  if o = 0 then
    let s := s.defaultTimings n
    if !old.bit (Reg.DC.CFG.ENABLE n) && s.bit (Reg.DC.CFG.ENABLE n) && s.get (Reg.DC.STS.STATE n) != 6 then s.set (Reg.DC.STS.STATE n) 1 else s
  else if o = 0x20 then s.timingWritten n 0
  else if o = 0x24 then s.timingWritten n 1
  else if o = 0x30 then (if lock then s else s.timingWritten n 2).forceRefresh n
  else s

/-- What a write starts once its fields have changed; `old` is the state before. -/
def Dev.afterWrite (s old : Dev) (code o v : Nat) : Dev :=
  let rose := fun (f : Field) => !old.bit f && s.bit f
  if 1 ≤ code ∧ code ≤ 4 ∧ o = 0 then
    let f := Reg.HP.PORT_CFG.ENABLE (code - 1)
    if rose f then (s.setBit f false).portEnable (code - 1) else s
  else if code = 0x1B ∧ o = 4 then s.energyWritten
  else if code = 0x06 ∧ o = 0 then s.lcTrim
  else if 10 ≤ code ∧ code ≤ 21 then s.dcAfter old (code - 10) o (s.locked code)
  else if code = 0x16 ∧ 0x1000 ≤ o ∧ o % 0x100 = 0x38 then
    let n := (o - 0x1000) / 0x100
    if rose (Reg.ECSC.INJ_CTL.ARM n) then s.injArm n else s
  else if code = 0x16 ∧ 0x1000 ≤ o ∧ o % 0x100 = 0x4 then
    if v.testBit 24 then s.set (Reg.ECSC.SCRUB_STS.PASSES ((o - 0x1000) / 0x100)) 0 else s
  else if code = 0x29 ∧ o = 0x100 then
    if v.testBit 1 then s.setRow fun r => { r with lvlPend := false } else s
  else if code = 0x18 ∧ o = 0 then
    if old.bit Reg.STI.CFG.ENABLE = s.bit Reg.STI.CFG.ENABLE then s else s.stiEnable (v.testBit 0)
  else if code = 0x1A ∧ o = 0 then
    (setBits 8 (s.get Reg.NVH.CFG.PORT_EN)).foldl (fun s p =>
      if (old.get Reg.NVH.CFG.PORT_EN).testBit p then s else s.setDrv p 0 0 0 0 0 noGran) s
  else if code = 0x1F ∧ o = 0 then
    if rose Reg.MIR.CFG.PAIRED then s.setRole 6
    else if old.bit Reg.MIR.CFG.PAIRED && !s.bit Reg.MIR.CFG.PAIRED then s.setRole 0 else s
  else if code = 0x20 ∧ o = 0 then if rose Reg.RND.CFG.ENABLE then s.roundEnable else s
  else if code = 0x21 ∧ o = 8 then if v.testBit 10 then s.mboxGo else s
  else if code = 0x23 ∧ o = 0 then
    if old.bit Reg.ROW.CFG.FULL_STOP && !s.bit Reg.ROW.CFG.FULL_STOP && s.rowState != 0 then s.rowPump else s
  else if code = 0x26 ∧ o = 0x18 then s.kick
  else s

/-- A write of an aligned BAR0 word (R484): discarded where no field takes it or a rule is broken; else it acts. -/
def Dev.wordWrite (s : Dev) (off v : Nat) : Dev :=
  let code := off / 0x40000
  let o := off % 0x40000
  match regAt code o with
  | none => s.discard off 0
  | some (t, i) =>
    let now := t.fields.filter (s.fieldOpen code o)
    if now.isEmpty then s.discard off (if t.fields.any RegField.writable then 1 else 0)
    else if s.shut code o v then s.discard off 0
    else if !(now.all (·.inRange v)) || !s.ruleOk code o v then s.discard off 2
    else match s.actWrite code o v with
      | some u => u
      | none => ((s.beforeWrite code o v).storeFields code o v t i).afterWrite s code o v

/-- A write of a word at a BAR0 offset (R483). -/
def Dev.busWrite (s : Dev) (off v : Nat) : Dev :=
  if off % 4 ≠ 0 then s.discard (off % 2 ^ 24) 3 else s.wordWrite (off % 2 ^ 24) (v % 2 ^ 32)

/-- A function's MSI-X state after a mask bit, or the function mask, is cleared or set. -/
def Dev.msixMask (s : Dev) (f : Nat) (m : Msix) : Dev :=
  let go := if m.fmask then [] else m.pba.keys.filter m.unmasked.has
  let s := s.setMsix f { m with pba := m.pba.filter fun v _ => !go.contains v }
  go.foldl (fun s v => s.send (.msix f v)) s

/-- A write of a word of a function's MSI-X table (R480, R481); the PBA takes none. -/
def Dev.msixWrite (s : Dev) (f o v : Nat) : Dev :=
  let m := s.msix f
  let n := o / 16
  let e := m.entries.getD n (0, 0)
  if 16 * vectorsOf f ≤ o then s
  else match o / 4 % 4 with
    | 0 => s.setMsix f { m with entries := m.entries.putD n (hiW e.1 * 2 ^ 32 + v % 2 ^ 32, e.2) (0, 0) }
    | 1 => s.setMsix f { m with entries := m.entries.putD n (v % 2 ^ 32 * 2 ^ 32 + loW e.1, e.2) (0, 0) }
    | 2 => s.setMsix f { m with entries := m.entries.putD n (e.1, v % 2 ^ 32) (0, 0) }
    | _ => s.msixMask f { m with unmasked := if v.testBit 0 then m.unmasked.del n else m.unmasked.put n () }

/-- A write of a function's MSI-X message control: bit 15 enables, bit 14 masks the function. -/
def Dev.msixControl (s : Dev) (f v : Nat) : Dev :=
  s.msixMask f { s.msix f with enable := v.testBit 15, fmask := v.testBit 14 }

/-- A ring register of an LD takes the write (R389). -/
def Dev.ringTakes (s : Dev) (f r o v : Nat) : Bool :=
  if o ≤ 0x10 then (s.ring f r).state == 0 && (o != 0x10 ||
    (decide (4 ≤ bitsAt v 0 5) && decide (bitsAt v 0 5 ≤ bitsAt v 8 5) && decide (bitsAt v 8 5 ≤ 16)))
  else o == 0x14 || o == 0x1C

/-- A write of a word of an LD's BARs (R481, R389, R391). -/
def Dev.ldWrite (s : Dev) (f : Nat) (a : RegAddr) (v : Nat) : Dev :=
  match a with
  | .bar0 o =>
    if o % 4 ≠ 0 then s
    else if 0x6000 ≤ o ∧ o < 0x6800 then s.msixWrite f (o - 0x6000) v
    else if 0x8000 ≤ o ∧ o < 0x8400 then
      if s.ringTakes f ((o - 0x8000) / 0x40) (o % 0x40) v then s.ringStore f ((o - 0x8000) / 0x40) (o % 0x40) v else s
    else s
  | .bar2 o =>
    let k := o % 0x1000
    if o % 4 = 0 ∧ o < 0x10000 ∧ (k = 0 ∨ k = 4 ∨ (0x800 ≤ k ∧ k < 0x840)) then s.doorbellStore f (o / 0x1000) k v else s
  | .bar4 _ => s
  | .msixControl => s.msixControl f v
  | .config r => s.configWrite f r v
  | .doe r => s.doeWrite f r v

/-- A word written by a host through a function: 64 is the management function, 0–63 the LDs. -/
def Dev.hostRegWrite (s : Dev) (f : Nat) (a : RegAddr) (v : Nat) : Dev :=
  if f < 64 then s.ldWrite f a v
  else match a with
    | .bar0 o => if f = 64 then s.busWrite o v else s
    | .bar2 _ => s
    | .bar4 o => if f = 64 ∧ o % 4 = 0 then s.msixWrite 64 o v else s
    | .msixControl => if f = 64 then s.msixControl 64 v else s
    | .config r => s.configWrite f r v
    | .doe r => s.doeWrite f r v

/-- REGISTER_WRITE (R483, R484): a host writes 4 or 8 bytes; 8 bytes are the low word and then the high word. -/
def execRegisterWrite (func : Nat) (addr : RegAddr) (width value : Nat) (s : State) : Answer :=
  s.on fun s => (if (s.headOfInst func).isNone then s
    else if width = 4 then s.hostRegWrite func addr value
    else if width = 8 ∧ addr.off % 8 = 0 then
      (s.hostRegWrite func addr (loW value)).hostRegWrite func addr.next (hiW value)
    else match func, addr with
      | 64, .bar0 o => s.discard (o % 2 ^ 24) 3
      | _, _ => s)

/-- LOCK_ALL_WRITE (R487, R490). -/
def execLockAllWrite (value : Nat) (s : State) : Answer := s.on fun s => (s.busWrite 0x40 value)

/-- MBOX_GO with the request's length (R494). -/
def execMboxGo (len : Nat) (s : State) : Answer := s.on fun s => (s.busWrite 0x840008 (len % 1024 + 1024))

/-- MBOX_ANSWER: the island's answer to the request it holds (R494). -/
def execMboxAnswer (result : Nat) (words : List Word) (s : State) : Answer :=
  s.on fun s => (if !s.island.mailbox then s
    else
      let w := words.take 512
      let s : Dev := { s with island := { s.island with mailbox := false } }
      let s := w.zipIdx.foldl (fun s x => s.set (Reg.MGC.MBOX_OUT.DATA x.2) x.1.toNat) s
      (((s.set Reg.MGC.MBOX_STS.LEN_OUT w.length).set Reg.MGC.MBOX_STS.RESULT result).setBit Reg.MGC.MBOX_STS.BUSY false).setBit
        Reg.MGC.MBOX_STS.DONE true)

/-- IRQ_ACK of an event (R494). -/
def execIrqAck (id : Nat) (s : State) : Answer := s.on fun s => (s.irqAck id)

/-- Words written one after another from a BAR0 offset (R486). -/
def Dev.writeWords (s : Dev) (off : Nat) : List Word → Dev
  | [] => s
  | w :: l => (s.busWrite off w.toNat).writeWords (off + 4) l

/-- MCTP_BAR0_WRITE of 1–64 words (R486). -/
def execMctpBar0Write (off : Nat) (words : List Word) (s : State) : Answer :=
  s.on fun s => (if mctpOk off words.length then (s.writeWords off words).send (.message mctpInst 0 []) else s.send (.message mctpInst 1 []))

end Sys2Proof.Machine
end

