-- ==== Sys2Proof/Machine/Island.lean ====
section
/-! DEFINITION. The security island: boot, excursions, signed operations and their effects, the key store, SPDM and attestation
(R358–R386, R405, R500, R501). -/

namespace Sys2Proof.Machine

def Dev.setIsland (s : Dev) (f : Island → Island) : Dev := { s with island := f s.island }

/-! ### Configuration block (R381) -/

/-- Register writes of a block, in block order. -/
def CfgBlock.writes (c : CfgBlock) : List (Nat × Word) :=
  c.records.flatMap fun r => match r with | .writes l => l | _ => []

/-- None of a block's register writes would be discarded (R484), made in order from the registers' resets. -/
def CfgBlock.writesOk (c : CfgBlock) : Bool :=
  (c.writes.foldl (fun (s : Dev) w => s.busWrite w.1 w.2.toNat) Dev.reset).get Reg.GLB.WR_DISC_CNT.COUNT == 0

/-- The format of a block is valid (R381): LENGTH is the end of the last record, and a copy holds block and tag. -/
def CfgBlock.valid (c : CfgBlock) : Bool :=
  let count := fun (t : Nat) => (c.records.filter fun r => r.type == t).length
  let program : Bool := match c.stepProgram with | some l => decide (l.length ≤ 64) && (programFault l).isNone | none => true
  c.magic == configMagic && c.version == 1 && c.length == c.body.length && decide (c.length + 32 ≤ 8 * 2 ^ 20) &&
    c.records.all (fun r => match r with | .unknown _ _ => false | _ => true) &&
    decide (count 2 ≤ 1) && decide (count 3 ≤ 1) && decide (count 4 ≤ 1) && program && c.writesOk

/-- The block in force after a boot: copy 0 if it verifies, else copy 1 if that does (R365). -/
def Island.bootConfig (i : Island) (key : List Nat) : Option CfgBlock :=
  let ok := fun (c : CfgBlock) => c.verifies key
  (i.cfg0.filter ok).orElse fun _ => i.cfg1.filter ok

/-- The records of a block that the Round uses. -/
def Dev.applyRound (s : Dev) (c : CfgBlock) : Dev :=
  c.records.foldl (fun s r => match r with
    | .members l => { s with round := { s.round with
        permitted := bitsOf (l.map (·.1)), idHashes := l.foldl (fun t m => t.put m.1 m.2.2.2) s.round.idHashes } }
    | .params v us nUs ms ref =>
      ((((s.set Reg.RND.VER.MIN_VER v).set Reg.RND.BUDGET.ROUND_US us).set Reg.RND.BUDGET.N_US nUs).set Reg.RND.TOKEN.PERIOD_MS ms).set
        Reg.RND.TIMEREF.REF_MEMBER ref
    | _ => s) { s with round := { s.round with digest := c.roundDigest } }

/-- The selected image, and its checks of steps 2 and 3: certificate and signature, the SVN rule of R362, and the digests. -/
def Island.image (i : Island) (b : Bool) : FwImage := if b then i.imageB else i.imageA
def Fuses.imageOk (i : Fuses) (m : FwImage) : Bool :=
  m.signed && m.wardenOk && m.appOk && decide (i.wsvn ≤ m.wsvn) && decide (i.asvn ≤ m.asvn)

/-! ### Signed operations (R372, R373, R500) -/

/-- The ring command that may carry an operation (R373). -/
def SignedBody.carrier : SignedBody → Option Nat
  | .takeOwnership _ => none
  | .transfer _ => none
  | .refereeSet _ _ _ => some 0x29
  | .fwActivate _ => some 0x31
  | .logClear => some 0x22
  | .debugUnlock _ _ => none
  | _ => some 0x08

/-- What an operation names device-wide (R400, R440). -/
def SignedBody.names : SignedBody → List Nat
  | .regionShare n _ _ _ => [resRegion n]
  | .keyInstall k _ _ _ => [resSlot k]
  | .keyRotate k _ _ => [resSlot k]
  | .keyRemove k => [resSlot k]
  | .zeroise 0 k _ => [resSlot k]
  | .fwActivate t => [resTarget t]
  | .logClear => [resLog]
  | _ => []

/-- Who may sign an operation: the owner, a tenant (R373). -/
def SignedBody.byOwner : SignedBody → Bool
  | .takeOwnership _ => true
  | .tenantBind _ _ => false
  | .regionShare _ _ _ _ => false
  | .keyInstall _ _ _ _ => false
  | .keyRotate _ _ _ => false
  | _ => true
def SignedBody.byTenant : SignedBody → Bool
  | .tenantBind _ _ => true
  | .tenantUnbind _ _ => true
  | .regionShare _ _ _ _ => true
  | .keyInstall _ _ _ _ => true
  | .keyRotate _ _ _ => true
  | .keyRemove _ => true
  | .zeroise _ _ _ => true
  | _ => false

/-- A slot whose TENANT is another tenant than the signer; the owner signs for any. -/
def Dev.otherSlot (s : Dev) (c k : Nat) : Bool :=
  c != 0xFFFF && (s.slot k).st != .empty && (s.slot k).tenant != c

/-- Binding conditions of an operation fail (R500): its objects are another tenant's. -/
def Dev.bindingFault (s : Dev) (o : SignedOp) : Bool :=
  let b := s.island.store.bind
  match o.body with
  | .regionShare n _ _ _ => match s.regions.get? n with | some r => r.tenant != o.cred | none => false
  | .keyInstall k _ _ _ => s.otherSlot o.cred k
  | .keyRotate k _ _ => s.otherSlot o.cred k
  | .keyRemove k => s.otherSlot o.cred k
  | .zeroise 0 k _ => s.otherSlot o.cred k
  | .zeroise 1 _ t => o.cred != 0xFFFF && t != o.cred
  | .tenantBind _ l => l.any fun g => match b.get? g with | some t => t != o.cred | none => false
  | .tenantUnbind t l => l.any fun g => b.get? g != some (if o.cred = 0xFFFF then t else o.cred)
  | _ => false

/-- Unwrapping fails, or the material would make a weak key (R376, R500). -/
def unwrapFault : SignedBody → Bool
  | .keyInstall _ _ m p => (match m with | some k => k.k1 == k.k2 | none => true) || (match p with | some k => k.k1 == k.k2 | none => false)
  | .keyRotate _ _ m => match m with | some k => k.k1 == k.k2 | none => true
  | .secretInstall _ x => x.isNone
  | .refereeSet host _ k => host && k.isNone
  | _ => false

/-- Grants of a device (R375). -/
def Dev.grantCount (s : Dev) : Nat := (s.island.store.shares.vals.map List.length).foldl (· + ·) 0

/-- A share grant beyond a limit (R375). -/
def Dev.grantFull (s : Dev) (n t : Nat) : Bool :=
  let l := s.island.store.shares.getD n []
  !(l.any fun x => x.tenant == t) && (decide (64 ≤ l.length) || decide (16384 ≤ s.grantCount))

/-- A tenant holds a credential. -/
def Dev.enrolled (s : Dev) (t : Nat) : Bool := s.island.store.tenants.has t

/-- The device rotates slots itself; others stage (R377). -/
def Dev.rotates (s : Dev) : Bool := decide (s.role ≤ 1)

/-- A rotation that R171 or R377 refuses: the slot is not ACTIVE, the epoch is not the next, or the previous epoch is still held. -/
def Dev.rotateFault (s : Dev) (k : Nat) (e : BitVec 5) : Bool :=
  let m := s.slot k
  m.st != .active || e != m.epoch + 1 || (s.rotates && m.prev.isSome)

/-- A debug unlock that R382 refuses. -/
def Dev.unlockFault (s : Dev) (fu : Fuses) (c level : Nat) : Bool :=
  let i := s.island
  let fresh : Bool := match i.challenge with | some (v, t) => v == c && decide (s.clock ≤ t + 60 * fclkS) | none => false
  fu.dbgOff || !fresh || !(level == 1 || (level == 2 && fu.lifecycle == 2))

/-- State conditions of an operation fail (R500). -/
def Dev.conditionFault (s : Dev) (fu : Fuses) (o : SignedOp) : Bool :=
  let st := s.island.store
  match o.body with
  | .takeOwnership _ => st.owner.isSome
  | .transfer _ => false
  | .tenantEnrol t _ => decide (1023 < t) || s.enrolled t
  | .tenantBind _ l => l.any fun g => decide (63 < g)
  | .tenantUnbind _ _ => false
  | .tenantRemove t => decide (1023 < t) || s.regions.vals.any fun r => r.tenant == t
  | .regionShare n gen t a => (match s.regions.get? n with | some r => r.gen != gen | none => true) ||
      !s.enrolled t || decide (2 < a) || (a != 0 && s.grantFull n t)
  | .keyInstall k _ _ _ => decide (4095 < k) || (s.slot k).st == .active
  | .keyRotate k e _ => decide (4095 < k) || s.rotateFault k e
  | .keyRemove k => decide (4095 < k) || s.regions.vals.any fun r => r.slot == some k
  | .zeroise sc k t => (sc == 0 && decide (4095 < k)) || (sc == 1 && decide (1023 < t)) || (sc == 2 && o.cred != 0xFFFF) || decide (2 < sc)
  | .secretInstall k _ => !(k == 4 || k == 5)
  | .refereeSet _ m _ => decide (31 < m) || (s.lockstep && s.role == 1)
  | .fwActivate t =>
    if t = 2 then !(match s.island.cfgStage with | some c => c.valid | none => false)
    else decide (2 < t) || !fu.imageOk (s.island.image (t == 1))
  | .logClear => false
  | .debugUnlock c level => s.unlockFault fu c level

/-- The signer a header may name for an operation (R371, R372 step 2): its public key, `none` = refused. -/
def Dev.signerKey (s : Dev) (o : SignedOp) : Option Nat :=
  match o.body with
  | .takeOwnership key => if o.cred = 0xFFFF then some key else none
  | b => if (o.cred = 0xFFFF ∧ b.byOwner) ∨ (o.cred ≤ 1023 ∧ b.byTenant) then (s.cred o.cred).map (·.key) else none

/-- LAST_SEQ an operation must exceed holds (R372 step 4); TAKE_OWNERSHIP has SEQ 1 (R371). -/
def Dev.seqOk (s : Dev) (o : SignedOp) : Bool :=
  match o.body with
  | .takeOwnership _ => o.seq == 1
  | _ => match s.cred o.cred with | some c => decide (c.lastSeq < o.seq) | none => false

/-- KSL result of the checks of R372, in their order; 0 = accepted. -/
def Dev.verify (s : Dev) (fu : Fuses) (o : SignedOp) : Nat :=
  if o.device ≠ s.island.deviceHash then 1
  else match s.signerKey o with
    | none => 1
    | some key =>
      if o.signer ≠ some key then 1
      else if !s.seqOk o then 2
      else if s.bindingFault o then 5
      else if unwrapFault o.body then 4
      else if s.conditionFault fu o then 3 else 0

/-- Channel code of a KSL record (R386). -/
def Channel2.code : Channel2 → Nat
  | .ring _ => 0
  | .spdm n => if n = mctpInst then 2 else 1

/-- The record of an operation (R386). -/
def PendingOp.record (p : PendingOp) (idx result obj : Nat) : Ev :=
  kslEv idx p.chan.code p.op.body.op p.op.cred result p.op.seq obj p.op.hash8

/-- An operation is refused (R372, R386, R501). A rotation refused for a previous epoch still held raises EV 0x07B too. -/
def Dev.refuseSigned (s : Dev) (p : PendingOp) (r : Nat) : Dev :=
  let full := kslInner 0x08E
  let s := if r = 1 then s.count Reg.KSL.SIG_FAIL.COUNT Reg.KSL.SIG_FAIL.SAT 1 full
    else if r = 2 then s.count Reg.KSL.SEQ_FAIL.COUNT Reg.KSL.SEQ_FAIL.SAT 1 full else s
  let s := match p.op.body with
    | .keyRotate k _ _ => if r = 3 ∧ s.rotates ∧ (s.slot k).prev.isSome then
        s.raise (rntEv 0x07B 6 0 0 k (s.slot k).epoch 0 (2 ^ 40 - 1) 0 true) else s
    | _ => s
  (s.raise (p.record (if r = 1 then 2 else 3) r (if r ≤ 2 then 0xFFFF else p.op.body.object))).signedDone p.chan r

/-- Verify an operation: it is refused, or waits for its key-store record (R372, R373). -/
def Dev.beginSigned (s : Dev) (fu : Fuses) (p : PendingOp) : Dev :=
  match s.verify fu p.op with
  | 0 => s.setIsland fun i => { i with pending := some p }
  | r => s.refuseSigned p r

/-- Operations run one at a time, in the order they came (R359). -/
def Dev.nextSigned (s : Dev) (fu : Fuses) : List PendingOp → Dev
  | [] => s.setIsland fun i => { i with queued := [] }
  | p :: l =>
    let s := s.beginSigned fu p
    if s.island.pending.isSome then s.setIsland fun i => { i with queued := l } else s.nextSigned fu l

/-- The island can take an operation now. -/
def Dev.islandFree (s : Dev) : Bool :=
  s.island.phase == 2 && s.island.pending.isNone && s.island.queued.isEmpty && !s.island.reloading && !s.island.zeroising

/-- An operation reaches the warden. -/
def Dev.submit (s : Dev) (fu : Fuses) (p : PendingOp) : Dev :=
  if s.islandFree then s.beginSigned fu p else s.setIsland fun i => { i with queued := i.queued ++ [p] }

/-- Codes of SPDM answers (log entry 39). -/
def spdmOk : Nat := 0x00
def spdmInvalid : Nat := 0x01
def spdmUnexpected : Nat := 0x04
def spdmDecrypt : Nat := 0x06
def spdmSessionLimit : Nat := 0x0A
def spdmSessionRequired : Nat := 0x0B
def spdmLarge : Nat := 0x0F

/-- An SPDM instance, without the sessions that have lapsed. -/
def Dev.spdmInst (s : Dev) (n : Nat) : SpdmInst :=
  let x := s.island.spdm.getD n {}
  { x with sessions := x.sessions.filter fun _ y => s.sessionLive y }
def Dev.setSpdm (s : Dev) (n : Nat) (x : SpdmInst) : Dev := s.setIsland fun i => { i with spdm := i.spdm.putD n x {} }

/-- An instance that can be reached: MCTP, or the DOE of a function whose head's link is up (R86, R368); the warden runs. -/
def Dev.spdmReachable (s : Dev) (n : Nat) : Bool :=
  s.island.phase == 2 && !s.does.has n && (n == mctpInst || match s.headOfInst n with | some H => decide (H < 16) && s.linkUp H | none => false)

/-- Carriers of signed operations. -/
def signedCarriers : List Nat := [0x08, 0x22, 0x29, 0x31]

/-- A ring command that carries a signed operation has read its buffer (R405). -/
def Dev.carried (s : Dev) (fu : Fuses) (h : SignedHdr) (i : Issuer) (opcode : Nat) (p : PendingOp) : Dev :=
  if h.ptr % 4 ≠ 0 then s.refuseCmd i cInvalidField 8
  else match h.dmaAt with
  | some a => s.completeAt i cDma 0 0 0 a
  | none =>
    if !h.lenOk then s.refuseCmd i cInvalidField 16
    else if p.op.body.carrier ≠ some opcode then s.refuseCmd i cInvalidField 35
    else s.submit fu p

/-- A signed operation by its channel (R373): a ring command, subject to R304, or a secured SPDM session. -/
def Dev.signed (s : Dev) (fu : Fuses) (h : SignedHdr) (b : SignedBody) : Dev :=
  let p : PendingOp := { op := { device := h.device, cred := h.cred, seq := h.seq, signer := h.signer, body := b, hash8 := h.hash8 }
                         chan := h.chan }
  match h.chan with
  | .spdm n =>
    if !s.spdmReachable n then s
    else if s.secured n then s.submit fu p else s.send (.message n spdmSessionRequired [])
  | .ring i => match s.takenOf i with
    | none => s
    | some t =>
      if !signedCarriers.contains t.opcode then s
      else if t.opcode = 0x29 then s.ringCmd i 0x29 2 0xFFFF b.names fun s => s.carried fu h i 0x29 p
      else s.ringActive i t.opcode 2 0xFFFF b.names fun s => s.carried fu h i t.opcode p

/-- TAKE_OWNERSHIP (R371). -/
def execTakeOwnership (h : SignedHdr) (key : Nat) (s : State) : Answer := s.onF fun fu s => (s.signed fu h (.takeOwnership key))
/-- TRANSFER (R371). -/
def execTransfer (h : SignedHdr) (key : Nat) (s : State) : Answer := s.onF fun fu s => (s.signed fu h (.transfer key))
/-- TENANT_ENROL (R373). -/
def execTenantEnrol (h : SignedHdr) (tenant key : Nat) (s : State) : Answer := s.onF fun fu s => (s.signed fu h (.tenantEnrol tenant key))
/-- TENANT_BIND (R374): the GLDs go to the signing tenant. -/
def execTenantBind (h : SignedHdr) (glds : List Nat) (s : State) : Answer := s.onF fun fu s => (s.signed fu h (.tenantBind h.cred glds))
/-- TENANT_UNBIND (R374): a tenant unbinds its own GLDs, the owner those of the tenant named. -/
def execTenantUnbind (h : SignedHdr) (tenant : Nat) (glds : List Nat) (s : State) : Answer :=
  s.onF fun fu s => (s.signed fu h (.tenantUnbind (if h.cred = 0xFFFF then tenant else h.cred) glds))
/-- TENANT_REMOVE (R373). -/
def execTenantRemove (h : SignedHdr) (tenant : Nat) (s : State) : Answer := s.onF fun fu s => (s.signed fu h (.tenantRemove tenant))
/-- REGION_SHARE (R375): ACCESS 0 NONE, 1 READ, 2 READ_WRITE. -/
def execRegionShare (h : SignedHdr) (region gen tenant access : Nat) (s : State) : Answer :=
  s.onF fun fu s => (s.signed fu h (.regionShare region gen tenant access))
/-- KEY_INSTALL (R376): `mat` is what unwraps, `none` = the GCM tag fails; `prev` is the material of e − 1. -/
def execKeyInstall (h : SignedHdr) (slot epoch : Nat) (mat prev : Option KeyMat) (s : State) : Answer :=
  s.onF fun fu s => (s.signed fu h (.keyInstall slot (BitVec.ofNat 5 epoch) mat prev))
/-- KEY_ROTATE (R377). -/
def execKeyRotate (h : SignedHdr) (slot epoch : Nat) (mat : Option KeyMat) (s : State) : Answer :=
  s.onF fun fu s => (s.signed fu h (.keyRotate slot (BitVec.ofNat 5 epoch) mat))
/-- KEY_REMOVE (R169, R373). -/
def execKeyRemove (h : SignedHdr) (slot : Nat) (s : State) : Answer := s.onF fun fu s => (s.signed fu h (.keyRemove slot))
/-- ZEROISE (R385): scope 0 SLOT, 1 TENANT, 2 DEVICE. -/
def execZeroise (h : SignedHdr) (scope slot tenant : Nat) (s : State) : Answer := s.onF fun fu s => (s.signed fu h (.zeroise scope slot tenant))
/-- SECRET_INSTALL (R378). -/
def execSecretInstall (h : SignedHdr) (slot : Nat) (secret : Option (BitVec 256)) (s : State) : Answer :=
  s.onF fun fu s => (s.signed fu h (.secretInstall slot secret))
/-- REFEREE_SET (R379). -/
def execRefereeSet (h : SignedHdr) (host : Bool) (member : Nat) (key : Option (BitVec 256)) (s : State) : Answer :=
  s.onF fun fu s => (s.signed fu h (.refereeSet host member key))
/-- FW_ACTIVATE (R380): 0 image A, 1 image B, 2 the staged configuration block. -/
def execFwActivate (h : SignedHdr) (target : Nat) (s : State) : Answer := s.onF fun fu s => (s.signed fu h (.fwActivate target))
/-- LOG_CLEAR (R440). -/
def execLogClear (h : SignedHdr) (s : State) : Answer := s.onF fun fu s => (s.signed fu h .logClear)
/-- DEBUG_UNLOCK (R382). -/
def execDebugUnlock (h : SignedHdr) (challenge level : Nat) (s : State) : Answer := s.onF fun fu s => (s.signed fu h (.debugUnlock challenge level))

/-! ### Effects -/

/-- What internal slots 0 and 2 sealed no longer verifies once OWNER_NONCE is replaced (R37, R385). -/
def ImgHeader.forget (h : ImgHeader) : ImgHeader := { h with lost := true }
def CfgBlock.forget (c : CfgBlock) : CfgBlock := { c with lost := true }
def LogHalf.forget (h : LogHalf) : LogHalf := { h with recs := h.recs.map fun r => { r with lost := true } }

/-- An IDE stream closes (R81, R385). -/
def Dev.closeIde (s : Dev) (H : Nat) : Dev :=
  if s.get (Reg.HP.LINK_STS.IDE (H / 4) (H % 4)) = 0 then s.dropIde H
  else ((s.dropIde H).set (Reg.HP.LINK_STS.IDE (H / 4) (H % 4)) 0).memUpdate H

/-- Device zeroisation (R385 Case C): slots, links, associations and streams, OWNER_NONCE, credentials and bindings; what internal
slots 0–3 sealed no longer verifies. -/
def Dev.zeroiseAll (s : Dev) : Dev :=
  let s := s.zeroise (List.range 4096)
  let s := (s.assocs.list.filter fun e => e.2.state != 0).foldl (fun s e => s.assocDown e.1) s
  let s := (List.range 16).foldl Dev.closeIde s
  let s := s.setIsland fun i => { i with
    links := .empty, cfg0 := i.cfg0.map CfgBlock.forget, cfg1 := i.cfg1.map CfgBlock.forget }
  let q := s.random
  let s := q.2.setStore fun k => { slots := k.slots, nonce := BitVec.ofNat 256 q.1, erased := true }
  let media := s.media.map fun _ m => { m with header0 := m.header0.map ImgHeader.forget, header1 := m.header1.map ImgHeader.forget }
  let regionLog : RegionLog := { half0 := s.regionLog.half0.forget, half1 := s.regionLog.half1.forget }
  { s with media, regionLog, row := { s.row with slots := s.row.slots.map (fun _ r => r.forget), page := s.row.page.map RowRec.forget
                                                 programming := s.row.programming.map RowRec.forget } }

/-- The staged configuration block is written with its tag to both copies (R380). -/
def Island.commitConfig (key : List Nat) (i : Island) : Island :=
  match i.cfgStage with
  | some c => { i with cfg0 := some (c.sealed key), cfg1 := some (c.sealed key) }
  | none => i

/-- A key is installed (R376): with PREV the sweep of R171 starts. -/
def Dev.installKey (s : Dev) (t k : Nat) (e : BitVec 5) (mat prev : Option KeyMat) : Dev :=
  let s := (s.setSlot k ({ st := .active, epoch := e, tenant := t, cur := mat, prev } : MemSlot).checked).slotChanged k
  if prev.isSome && s.serves then s.startSweep k else s

/-- What an operation does when its record is programmed (R373); LOG_CLEAR comes by `rowClear`. -/
def Dev.applySigned (s : Dev) (o : SignedOp) : Dev :=
  match o.body with
  | .takeOwnership key => s.setStore fun k => { k with owner := some { key, lastSeq := o.seq } }
  | .transfer key => s.setStore fun k => { k with owner := some { key, lastSeq := o.seq } }
  | .keyInstall k e mat prev => s.installKey o.cred k e mat prev
  | .keyRotate k e mat => match mat with
    | some x => if s.rotates then s.rotate k e x else s.setSlot k { s.slot k with next := some (e, x) }
    | none => s
  | .zeroise 2 _ _ => s.zeroiseAll
  | .secretInstall k x => s.setStore fun t => if k = 4 then { t with secret4 := x } else { t with secret5 := x }
  | .refereeSet host m key =>
    let s := (s.setBit Reg.MIR.CFG.REF_HOST host).set Reg.MIR.CFG.REF_MEMBER m
    if host then s.setStore fun t => { t with refKey := key } else s
  | .fwActivate t => if t = 2 then s.setIsland (Island.commitConfig (s.internalKey 0)) else s.setStore fun k => { k with bootSel := t == 1 }
  | .debugUnlock _ level =>
    let s := if level = 2 then s.zeroiseAll.raise (kslInner 0x087) else s
    (s.setIsland fun i => { i with challenge := none }).set Reg.KSL.LIFECYCLE.DBG_LEVEL level
  | b => s.applyBody b

/-- A rotation or removal is forwarded when a mirrored region names the slot, tenant operations always (R307, R377). -/
def Dev.forwardSigned (s : Dev) (o : SignedOp) : Option FwdCmd :=
  match o.body with
  | .keyRotate k e mat =>
    let named := s.regions.vals.any fun r => r.mirror && r.slot == some k
    if s.rotates && named then some (.keyRotate k e.toNat (s.fingerprint mat)) else none
  | b => if b.carrier == some 0x08 && s.forwardsOp b then some (.signed o.cred o.seq o.hash8 b) else none

/-- The operation completes with success, after the standby where it is forwarded (R309, R501). -/
def Dev.finishSigned (s : Dev) (c : Channel2) (f : Option FwdCmd) : Dev :=
  match f with
  | none => s.signedDone c 0
  | some cmd =>
    let r := match c with
      | .ring i => s.forward cmd (some i) 0 0
      | .spdm n => s.forward cmd none 0 0 (some n)
    if r.2 then r.1 else r.1.signedDone c 0

/-- The record of an operation is programmed (R373): it takes effect, LAST_SEQ becomes SEQ, the record of R386 is written, and it
completes; LOG_CLEAR completes with its clear record. A zeroised device then resets (R385). -/
def Dev.persistSigned (s : Dev) (p : PendingOp) : Dev :=
  let o := p.op
  let s := s.setStore fun k => { k with records := k.records + 1 }
  let fwd := s.forwardSigned o
  match o.body with
  | .logClear => (((s.setSeq o.cred o.seq).rowClear o.seq p.chan).raise (p.record o.body.event 0 o.body.object))
  | .zeroise 2 _ _ =>
    let s := ((s.applySigned o).raise (p.record 0x7 0 0xFFFF)).signedDone p.chan 0
    let v := s.freeValue
    (v.2.setIsland fun i => { i with zeroising := true }).requestReset (v.1 % 16)
  | b => (((s.applySigned o).setSeq o.cred o.seq).raise (p.record b.event 0 b.object)).finishSigned p.chan fwd

/-- KEY_STORE_RECORD_PERSISTED (R359, R373). -/
def execKeyStoreRecordPersisted (s : State) : Answer :=
  s.onF fun fu s => (match s.island.pending with
    | none => s
    | some p =>
      let s := (s.setIsland fun i => { i with pending := none }).persistSigned p
      if s.island.zeroising || s.island.pending.isSome then s else s.nextSigned fu s.island.queued)

/-- Live records of the store. -/
def KeyStore.live (k : KeyStore) : Nat :=
  k.slots.list.length + k.tenants.list.length + k.bind.list.length + k.shares.list.length + (if k.owner.isSome then 1 else 0) + 3

/-- A compaction goes one stage on (R384): the other half is erased and written, its COMPLETE record makes it the half in use, the
full half is erased. -/
def KeyStore.compactStep (k : KeyStore) : KeyStore :=
  match k.compact with
  | 0 => { k with compact := 1, otherComplete := false }
  | 1 => { k with compact := 2, half := !k.half, halfGen := k.halfGen + 1, records := k.live, otherComplete := true }
  | _ => { k with compact := 0, otherComplete := false }

/-- KEY_STORE_COMPACTION, one of its stages (R384). -/
def execKeyStoreCompaction (s : State) : Answer := s.on fun s => (if s.island.phase = 2 then s.setStore KeyStore.compactStep else s)

/-! ### Boot (R365) -/

/-- The key store as the warden loads it (R384): skipped records are counted; a store that fails as a whole, or that was erased,
leaves every slot EMPTY and no owner. -/
def Dev.loadStore (s : Dev) (ks : KsRead) : Dev :=
  let fresh : KeyStore := { nonce := s.island.store.nonce }
  let keep := fun (k : KeyStore) => if k.compact = 1 then k else { k with compact := 0 }
  if s.island.store.erased then s.setStore fun _ => fresh
  else match ks with
    | .whole => s.setStore keep
    | .partly n left =>
      let s := s.setStore fun _ => keep left
      let s := s.count Reg.KSL.KS_ERR.COUNT Reg.KSL.KS_ERR.SAT n (kslInner 0x08E)
      (List.range n).foldl (fun s _ => s.raise (kslInner 0x08E)) s
    | .failed => s.setStore fun _ => fresh

/-- Steps 3 to 5 of the boot: key store, configuration, release of the cores; application firmware then makes the block's register
writes and locks them (R365, R381). -/
def Dev.releaseCores (s : Dev) (fu : Fuses) (ks : KsRead) : Dev :=
  let s := s.loadStore ks
  let s := s.setIsland fun i => { i with phase := 2 }
  let s := s.set Reg.MGC.CORE_EN.EN 15
  let s := (List.range 4).foldl (fun s k => s.set (Reg.MGC.CORE_STS.STATE k) 1) s
  let s := s.raise (kslInner 0x080)
  let s := if s.bit Reg.KSL.BOOT_STS.FALLBACK then s.raise (kslInner 0x081) else s
  match s.island.bootConfig (s.internalKey 0) with
  | none => (s.set Reg.KSL.OWN_STS.STATE 2).nextSigned fu s.island.queued
  | some c =>
    let s := (s.setIsland fun i => { i with cfgRun := some c }).applyRound c
    let s := (c.writes.foldl (fun (s : Dev) w => s.busWrite w.1 w.2.toNat) s).lockAll
    s.nextSigned fu s.island.queued

/-- Start an image: `stuck` = its warden does not reach step 5. -/
def Dev.startImage (s : Dev) (fu : Fuses) (m : FwImage) (stuck : Bool) (ks : KsRead) : Dev :=
  let s := s.setIsland fun i => { i with running := m, phase := 1, bootTries := i.bootTries + 1 }
  if stuck then s else s.releaseCores fu ks

/-- The other image is tried once; if it fails too, no image boots. -/
def Dev.bootOther (s : Dev) (fu : Fuses) (b stuck : Bool) (ks : KsRead) : Dev :=
  if fu.imageOk (s.island.image b) then
    ((s.set Reg.KSL.BOOT_STS.IMAGE (if b then 1 else 0)).setBit Reg.KSL.BOOT_STS.FALLBACK true).startImage fu (s.island.image b) stuck ks
  else (s.setBit Reg.KSL.BOOT_STS.FAILED true).setIsland fun i => { i with phase := 0 }

/-- BOOT after a chip reset, held off while EXTEST is selected (R382): `ks` is what the key store reads as, `stuck` = the first
image to start does not reach step 5. -/
def execBoot (ks : KsRead) (stuck : Bool) (s : State) : Answer :=
  s.onF fun fu s => (if s.island.phase ≠ 0 ∨ s.bit Reg.KSL.BOOT_STS.FAILED ∨ s.psq.extest then s
    else
      let b := if ks = .failed ∨ s.island.store.erased then false else s.island.store.bootSel
      if fu.imageOk (s.island.image b) then
        (s.set Reg.KSL.BOOT_STS.IMAGE (if b then 1 else 0)).startImage fu (s.island.image b) stuck ks
      else s.bootOther fu (!b) stuck ks)

/-- BOOT_TIMEOUT: 2 s without step 5; the other image is tried once (R365). -/
def execBootTimeout (ks : KsRead) (stuck : Bool) (s : State) : Answer :=
  s.onF fun fu s => (if s.island.phase ≠ 1 then s
    else
      let s := s.at (s.cks.tnow0 + 2 * fclkS * s.island.bootTries)
      if s.bit Reg.KSL.BOOT_STS.FALLBACK ∨ s.bit Reg.KSL.BOOT_STS.FAILED then
        (s.setBit Reg.KSL.BOOT_STS.FAILED true).setIsland fun i => { i with phase := 0 }
      else s.bootOther fu (s.get Reg.KSL.BOOT_STS.IMAGE == 0) stuck ks)

/-- RECOVERY_IMAGE: with both images failed, an image that comes over MCTP is verified under the same rules and booted; the SPI NOR
is not written (R365). -/
def execRecoveryImage (m : FwImage) (ks : KsRead) (stuck : Bool) (s : State) : Answer :=
  s.onF fun fu s => (if !s.bit Reg.KSL.BOOT_STS.FAILED ∨ s.island.phase ≠ 0 then s
    else if fu.imageOk m then (s.setBit Reg.KSL.BOOT_STS.FALLBACK false).startImage fu m stuck ks
    else s)

/-- BOOT_CTL_COMMIT (R362). -/
def execBootCtlCommit (s : State) : Answer := s.on fun s => s.commitSvn

/-! ### Excursions (R360) -/

/-- ISLAND_EXCURSION: every operation is halted without effect, and the island resets; the third in 10 s locks the keys out. -/
def Dev.excursion (s : Dev) : Dev :=
  let s := s.abandonSigned.raise (kslInner 0x08F)
  let n := s.get Reg.KSL.ISL_STS.EXCURSIONS
  let s := s.set Reg.KSL.ISL_STS.EXCURSIONS (min 15 (n + 1))
  let recent := s.clock :: (s.island.excursions.filter fun t => decide (s.clock ≤ t + 10 * fclkS))
  let s := s.setIsland fun i => { i with excursions := recent, reloading := true, mailbox := false, challenge := none }
  let s := s.setBit Reg.MGC.MBOX_STS.BUSY false
  if 3 ≤ recent.length then (s.setBit Reg.KSL.ISL_STS.LOCKOUT true).settle else s
def execIslandExcursion (s : State) : Answer := s.on fun s => s.excursion

/-- ISLAND_RELOAD_COMPLETE: requests and operations that waited go on (R360). -/
def execIslandReloadComplete (s : State) : Answer :=
  s.onF fun fu s => (if !s.island.reloading then s
    else
      let s := s.setIsland fun i => { i with reloading := false }
      (s.nextSigned fu s.island.queued).settle)

/-! ### SPDM and attestation (R367–R370) -/

/-- Carry out a request of an instance that has reached `phase`. -/
def Dev.spdmAsk (s : Dev) (n phase : Nat) (f : SpdmInst → Dev) : Dev :=
  if !s.spdmReachable n then s
  else if (s.spdmInst n).phase < phase then s.send (.message n spdmUnexpected []) else f (s.spdmInst n)

/-- GET_VERSION: the connection starts anew (log entry 39); SPDM 1.3. -/
def execGetVersion (inst : Nat) (s : State) : Answer :=
  s.on fun s => (s.spdmAsk inst 0 fun _ => (s.setSpdm inst { phase := 1 }).send (.message inst spdmOk [0x13]))

/-- GET_CAPABILITIES. -/
def execGetCapabilities (inst : Nat) (s : State) : Answer :=
  s.on fun s => (s.spdmAsk inst 1 fun x =>
    if x.phase ≠ 1 then s.send (.message inst spdmUnexpected [])
    else (s.setSpdm inst { x with phase := 2 }).send (.message inst spdmOk [16384]))

/-- NEGOTIATE_ALGORITHMS: what the requester offers of ML-DSA-65, ML-KEM-768, SHA3-384 and AES-256-GCM is selected. -/
def execNegotiateAlgorithms (inst : Nat) (mlDsa mlKem sha3 aes : Bool) (s : State) : Answer :=
  s.on fun s => (s.spdmAsk inst 2 fun x =>
    if x.phase ≠ 2 then s.send (.message inst spdmUnexpected [])
    else if mlDsa && mlKem && sha3 && aes then (s.setSpdm inst { x with phase := 3 }).send (.message inst spdmOk [1, 1, 1, 1])
    else s.send (.message inst spdmInvalid []))

/-- SHAKE256-256 of the owner credential; zero when UNOWNED. -/
def Dev.ownerHash (s : Dev) : Nat := match s.island.store.owner with | some c => Config.credHash c.key | none => 0

/-- The measurements, indices 1–8 (R369). -/
def Dev.measurements (s : Dev) (fu : Fuses) : List Nat :=
  let i := s.island
  let b := fun (x : Bool) => if x then 1 else 0
  let r := i.running
  let secrets := [i.store.secret4, i.store.secret5, i.store.refKey].map fun x => match x with | some k => k.toNat + 1 | none => 0
  [Config.romValue, r.warden, r.app, Config.hash256 [4, r.version, fu.wsvn, fu.asvn, r.wsvn, r.asvn],
   Config.hash256 [5, fu.lifecycle, b fu.dbgOff, s.get Reg.KSL.LIFECYCLE.DBG_LEVEL, s.get Reg.KSL.BOOT_STS.FALLBACK],
   numOf (bytesOf 32 s.round.digest ++ ((i.cfgRun.map CfgBlock.digest).getD (List.replicate 32 0))), s.ownerHash,
   Config.hash256 ([8, s.get Reg.MIR.CFG.REF_HOST, s.get Reg.MIR.CFG.REF_MEMBER] ++ secrets)]

/-- The slot 0 chain: root, product CA, DeviceID, Alias (R367), by what its certificates carry. -/
def Dev.certChain (s : Dev) (fu : Fuses) : Nat :=
  let r := s.island.running
  Config.hash256 [0, s.island.deviceHash, r.warden, fu.wsvn, r.wsvn, r.asvn]

/-- The Wrap certificate, by the key and the owner hash it carries (R366, R367). -/
def Dev.wrapCert (s : Dev) : Nat := Config.hash256 [1, s.island.deviceHash, s.island.store.nonce.toNat, s.ownerHash]

/-- A fresh signature of the Alias key over values. -/
def Dev.aliasSign (s : Dev) (l : List Nat) : Nat × Dev :=
  let r := s.random
  (Config.hash256 (2 :: r.1 :: s.island.running.warden :: l), r.2)

/-- GET_DIGESTS: the slot mask and the digest of slot 0's chain. -/
def execGetDigests (inst : Nat) (s : State) : Answer :=
  s.onF fun fu s => (s.spdmAsk inst 3 fun _ => s.send (.message inst spdmOk [1, Config.hash256 [3, s.certChain fu]]))

/-- Bytes that one object of an instance's buffer brings (R86, log entry 39). -/
def spdmChunk : Nat := 16384 - 16

/-- GET_CERTIFICATE of slot 0: a portion beyond the buffer is sent in chunks; slots 1–7 are not provisioned. -/
def execGetCertificate (inst slot offset len : Nat) (s : State) : Answer :=
  s.onF fun fu s => (s.spdmAsk inst 3 fun x =>
    if slot ≠ 0 then s.send (.message inst spdmInvalid [])
    else if spdmChunk < len then
      (s.setSpdm inst { x with chunkOut := some (s.fresh % 256, 0, len) }).send (.message inst spdmLarge [s.fresh % 256])
    else s.send (.message inst spdmOk [s.certChain fu, offset, len]))

/-- CHALLENGE for slot 0. -/
def execChallenge (inst slot nonce : Nat) (s : State) : Answer :=
  s.onF fun fu s => (s.spdmAsk inst 3 fun _ =>
    if slot ≠ 0 then s.send (.message inst spdmInvalid [])
    else
      let g := s.aliasSign [nonce, s.certChain fu, Config.hash256 (s.measurements fu)]
      g.2.send (.message inst spdmOk [s.certChain fu, Config.hash256 (s.measurements fu), g.1]))

/-- GET_MEASUREMENTS (R369): index 0 asks for their number, 1–8 for one, 0xFF for all; the signature covers what is current. -/
def execGetMeasurements (inst index nonce : Nat) (sign : Bool) (s : State) : Answer :=
  s.onF fun fu s => (s.spdmAsk inst 3 fun _ =>
    let all := s.measurements fu
    let l := if index = 0 then some [8] else if index = 0xFF then some all
      else if index ≤ 8 then some [all.getD (index - 1) 0] else none
    match l with
    | none => s.send (.message inst spdmInvalid [])
    | some l =>
      if sign then let g := s.aliasSign (nonce :: l); g.2.send (.message inst spdmOk (l ++ [g.1]))
      else s.send (.message inst spdmOk l))

/-- Sessions an instance holds at most (R368). -/
def sessionLimit (inst : Nat) : Nat := if inst = mctpInst then 8 else 4

/-- KEY_EXCHANGE: a session in handshake. -/
def execKeyExchange (inst session : Nat) (s : State) : Answer :=
  s.on fun s => (s.spdmAsk inst 3 fun x =>
    if sessionLimit inst ≤ x.sessions.list.length then s.send (.message inst spdmSessionLimit [])
    else if x.sessions.has session then s.send (.message inst spdmInvalid [])
    else
      let g := s.aliasSign [session]
      (g.2.setSpdm inst { x with sessions := x.sessions.put session { phase := 0, lastBeat := s.clock } }).send
        (.message inst spdmOk [session, g.1]))

/-- A request within a session that has reached `phase`. -/
def Dev.inSession (s : Dev) (n session phase : Nat) (f : SpdmInst → Session → Dev) : Dev :=
  s.spdmAsk n 3 fun x => match x.sessions.get? session with
    | some y => if y.phase = phase then f x y else s.send (.message n spdmUnexpected [])
    | none => s.send (.message n spdmSessionRequired [])

/-- FINISH: the session is established if the requester's check verifies, and ends otherwise. -/
def execFinish (inst session : Nat) (ok : Bool) (s : State) : Answer :=
  s.on fun s => (s.inSession inst session 0 fun x y =>
    if ok then (s.setSpdm inst { x with sessions := x.sessions.put session { y with phase := 1, lastBeat := s.clock } }).send (.message inst spdmOk [])
    else (s.setSpdm inst { x with sessions := x.sessions.del session }).send (.message inst spdmDecrypt []))

/-- HEARTBEAT: the period is 60 s. -/
def execHeartbeat (inst session : Nat) (s : State) : Answer :=
  s.on fun s => (s.inSession inst session 1 fun x y =>
    (s.setSpdm inst { x with sessions := x.sessions.put session { y with lastBeat := s.clock } }).send (.message inst spdmOk []))

/-- KEY_UPDATE of a session. -/
def execKeyUpdate (inst session : Nat) (s : State) : Answer :=
  s.on fun s => (s.inSession inst session 1 fun x y =>
    (s.setSpdm inst { x with sessions := x.sessions.put session { y with keyGen := y.keyGen + 1, lastBeat := s.clock } }).send
      (.message inst spdmOk []))

/-- END_SESSION. -/
def execEndSession (inst session : Nat) (s : State) : Answer :=
  s.on fun s => (s.inSession inst session 1 fun x _ =>
    (s.setSpdm inst { x with sessions := x.sessions.del session }).send (.message inst spdmOk []))

/-- CHUNK_SEND: a chunk of a large request; chunks come in order, and the last ends the transfer. -/
def execChunkSend (inst handle seq len : Nat) (last : Bool) (s : State) : Answer :=
  s.on fun s => (s.spdmAsk inst 2 fun x =>
    let want := match x.chunkIn with | some (h, n, b) => if h = handle ∧ n = seq then some b else none | none => if seq = 0 then some 0 else none
    match want with
    | none => (s.setSpdm inst { x with chunkIn := none }).send (.message inst spdmInvalid [])
    | some got =>
      let next := if last then none else some (handle, seq + 1, got + len)
      (s.setSpdm inst { x with chunkIn := next }).send (.message inst spdmOk [handle, seq]))

/-- CHUNK_GET: the next chunk of a large response. -/
def execChunkGet (inst handle seq : Nat) (s : State) : Answer :=
  s.on fun s => (s.spdmAsk inst 2 fun x => match x.chunkOut with
    | some (h, n, left) =>
      if h ≠ handle ∨ n ≠ seq then s.send (.message inst spdmInvalid [])
      else
        let len := min left spdmChunk
        let next := if left ≤ spdmChunk then none else some (h, n + 1, left - len)
        (s.setSpdm inst { x with chunkOut := next }).send (.message inst spdmOk [handle, seq, len, if next.isNone then 1 else 0])
    | none => s.send (.message inst spdmUnexpected []))

/-- DEBUG_CHALLENGE over the signed-operation channel (R382): 32 fresh bytes, good for one use within 60 s. -/
def execDebugChallenge (inst : Nat) (s : State) : Answer :=
  s.on fun s => (if !s.spdmReachable inst then s
    else if !s.secured inst then s.send (.message inst spdmSessionRequired [])
    else
      let r := s.random
      (r.2.setIsland fun i => { i with challenge := some (r.1, s.clock), challenges := i.challenges + 1 }).send (.message inst spdmOk [r.1]))

/-- GET_WRAP_CERT (R367). -/
def execGetWrapCert (inst : Nat) (s : State) : Answer :=
  s.on fun s => (s.spdmAsk inst 3 fun _ => s.send (.message inst spdmOk [s.wrapCert]))

/-- What an ATTEST report says of a tenant (R370): credential hash, bound LDs, and each of its slots. -/
def Dev.tenantReport (s : Dev) (t : Nat) : List Nat :=
  let k := s.island.store
  let cred := match k.tenants.get? t with | some c => Config.credHash c.key | none => 0
  let b := fun (x : Bool) => if x then 1 else 0
  [cred, bitsOf ((k.bind.list.filter fun e => e.2 == t).map (·.1))] ++ (s.tenantSlots t).flatMap fun n =>
    let m := s.slot n
    [n, (match m.st with | .empty => 0 | .active => 1 | .zeroised => 2), m.epoch.toNat, b m.prev.isSome, (s.fingerprint m.cur).toNat]

/-- The values of a report (R370). -/
def Dev.attestation (s : Dev) (fu : Fuses) (t nonce : Nat) : List Nat :=
  nonce :: s.measurements fu ++ [s.island.deviceHash, s.wrapCert, s.role, s.epoch, s.get Reg.MIR.PAIR_ID.ID] ++ s.tenantReport t

/-- ATTEST (R370, R403): any ring, any role. -/
def execAttest (i : Issuer) (tenant nonce len ptr : Nat) (ok : Bool) (s : State) : Answer :=
  s.onF fun fu s => (s.ringCmd i 0x24 1 0xFFFF [] fun s =>
    if 1023 < tenant then s.refuseCmd i cInvalidField 20
    else if len < 16384 then s.refuseCmd i cInvalidField 16
    else if ptr % 4 ≠ 0 then s.refuseCmd i cInvalidField 8
    else
      let g := s.aliasSign (s.attestation fu tenant nonce)
      let words := (Config.report (s.attestation fu tenant nonce ++ [g.1])).take 2048
      g.2.putBuffer i ptr ok words (8 * words.length) 0)

end Sys2Proof.Machine
end

