-- ==== Sys2Proof/Machine/Dispatch.lean ====
section
/-! DEFINITION. Which meaning each command has: one arm per constructor. -/

namespace Sys2Proof.Machine

def exec (i : Instr) (s : State) : Host.Outcome State Fault Refusal :=
  match i with
  | .hostRead h ld hpa tag fmNoise mdNoise checks => Sys2Proof.Machine.execHostRead h ld hpa tag fmNoise mdNoise checks s
  | .hostWrite h ld hpa tag be data poison noise checks => Sys2Proof.Machine.execHostWrite h ld hpa tag be data poison noise checks s
  | .admissionHoldRelease port => Sys2Proof.Machine.execAdmissionHoldRelease port s
  | .dramReadComplete read noise checks => Sys2Proof.Machine.execDramReadComplete read noise checks s
  | .katComplete core unit pass powerOn last => Sys2Proof.Machine.execKatComplete core unit pass powerOn last s
  | .flashReadComplete gran flips ns => Sys2Proof.Machine.execFlashReadComplete gran flips ns s
  | .fillComplete gran => Sys2Proof.Machine.execFillComplete gran s
  | .lcEvictionWriteback slice => Sys2Proof.Machine.execLcEvictionWriteback slice s
  | .globalPersistentFlush h => Sys2Proof.Machine.execGlobalPersistentFlush h s
  | .headReset h kind => Sys2Proof.Machine.execHeadReset h kind s
  | .headLinkUp h rate width flit phy => Sys2Proof.Machine.execHeadLinkUp h rate width flit phy s
  | .headLinkDown h => Sys2Proof.Machine.execHeadLinkDown h s
  | .portEnableWrite n => Sys2Proof.Machine.execPortEnableWrite n s
  | .hdmDecoderCommit gld dec commit base size ways gran skip lock => Sys2Proof.Machine.execHdmDecoderCommit gld dec commit base size ways gran skip lock s
  | .ideIntegrityFailure h keyset => Sys2Proof.Machine.execIdeIntegrityFailure h keyset s
  | .ideKmKeyProg h set k => Sys2Proof.Machine.execIdeKmKeyProg h set k s
  | .kSetGo h set cont epochLen => Sys2Proof.Machine.execKSetGo h set cont epochLen s
  | .doeAbort inst => Sys2Proof.Machine.execDoeAbort inst s
  | .identifyMemoryDevice gld => Sys2Proof.Machine.execIdentifyMemoryDevice gld s
  | .getPartitionInfo gld => Sys2Proof.Machine.execGetPartitionInfo gld s
  | .getEventRecords gld log => Sys2Proof.Machine.execGetEventRecords gld log s
  | .clearEventRecords gld log n all => Sys2Proof.Machine.execClearEventRecords gld log n all s
  | .getEventInterruptPolicy gld => Sys2Proof.Machine.execGetEventInterruptPolicy gld s
  | .setEventInterruptPolicy gld policy => Sys2Proof.Machine.execSetEventInterruptPolicy gld policy s
  | .getSupportedLogs gld => Sys2Proof.Machine.execGetSupportedLogs gld s
  | .getLog gld cel first count => Sys2Proof.Machine.execGetLog gld cel first count s
  | .getHealthInfo gld => Sys2Proof.Machine.execGetHealthInfo gld s
  | .getShutdownState gld => Sys2Proof.Machine.execGetShutdownState gld s
  | .setShutdownState gld state => Sys2Proof.Machine.execSetShutdownState gld state s
  | .getPoisonList gld line lines => Sys2Proof.Machine.execGetPoisonList gld line lines s
  | .injectPoison gld line => Sys2Proof.Machine.execInjectPoison gld line s
  | .clearPoison gld line data => Sys2Proof.Machine.execClearPoison gld line data s
  | .getDcConfiguration gld => Sys2Proof.Machine.execGetDcConfiguration gld s
  | .getDcExtentList gld => Sys2Proof.Machine.execGetDcExtentList gld s
  | .addDcResponse gld extent => Sys2Proof.Machine.execAddDcResponse gld extent s
  | .releaseDc gld dpa len => Sys2Proof.Machine.execReleaseDc gld dpa len s
  | .getTimestamp gld => Sys2Proof.Machine.execGetTimestamp gld s
  | .mailboxUnsupported gld opcode => Sys2Proof.Machine.execMailboxUnsupported gld opcode s
  | .fmIdentify src => Sys2Proof.Machine.execFmIdentify src s
  | .getMultiHeadedInfo src => Sys2Proof.Machine.execGetMultiHeadedInfo src s
  | .getHeadInfo src first count => Sys2Proof.Machine.execGetHeadInfo src first count s
  | .getLdInfo src => Sys2Proof.Machine.execGetLdInfo src s
  | .getLdAllocations src first count => Sys2Proof.Machine.execGetLdAllocations src first count s
  | .setLdAllocations src req => Sys2Proof.Machine.execSetLdAllocations src req s
  | .getQosControl src => Sys2Proof.Machine.execGetQosControl src s
  | .setQosControl src low high => Sys2Proof.Machine.execSetQosControl src low high s
  | .getQosStatus src => Sys2Proof.Machine.execGetQosStatus src s
  | .getQosAllocatedBw src first count => Sys2Proof.Machine.execGetQosAllocatedBw src first count s
  | .setQosAllocatedBw src first bw => Sys2Proof.Machine.execSetQosAllocatedBw src first bw s
  | .getQosBwLimit src first count => Sys2Proof.Machine.execGetQosBwLimit src first count s
  | .setQosBwLimit src first bw => Sys2Proof.Machine.execSetQosBwLimit src first bw s
  | .getDcdInfo src => Sys2Proof.Machine.execGetDcdInfo src s
  | .getHostDcRegionConfiguration src gld => Sys2Proof.Machine.execGetHostDcRegionConfiguration src gld s
  | .setDcRegionConfiguration src region block => Sys2Proof.Machine.execSetDcRegionConfiguration src region block s
  | .getDcRegionExtentLists src gld => Sys2Proof.Machine.execGetDcRegionExtentLists src gld s
  | .initiateDynamicCapacityAdd src gld region gen tenant => Sys2Proof.Machine.execInitiateDynamicCapacityAdd src gld region gen tenant s
  | .initiateDynamicCapacityRelease src gld region gen tenant forced => Sys2Proof.Machine.execInitiateDynamicCapacityRelease src gld region gen tenant forced s
  | .tunnelManagementCommand src h inner => Sys2Proof.Machine.execTunnelManagementCommand src h inner s
  | .fmApiUnsupported src opcode => Sys2Proof.Machine.execFmApiUnsupported src opcode s
  | .dcdOfferTimeout gld region => Sys2Proof.Machine.execDcdOfferTimeout gld region s
  | .dcdReleaseTimeout gld region => Sys2Proof.Machine.execDcdReleaseTimeout gld region s
  | .patrolScrubRead n extra noise parity => Sys2Proof.Machine.execPatrolScrubRead n extra noise parity s
  | .patrolPromote n => Sys2Proof.Machine.execPatrolPromote n s
  | .scrubEnableWrite on => Sys2Proof.Machine.execScrubEnableWrite on s
  | .deviceCounterLeak n => Sys2Proof.Machine.execDeviceCounterLeak n s
  | .injArm n => Sys2Proof.Machine.execInjArm n s
  | .sramInjArm target a b two => Sys2Proof.Machine.execSramInjArm target a b two s
  | .sramPowerOnInit => Sys2Proof.Machine.execSramPowerOnInit s
  | .channelFillComplete n => Sys2Proof.Machine.execChannelFillComplete n s
  | .channelEnableWrite n bus i3c => Sys2Proof.Machine.execChannelEnableWrite n bus i3c s
  | .trainingComplete n t1 t2 t3 t4 t5 t6 t7 => Sys2Proof.Machine.execTrainingComplete n t1 t2 t3 t4 t5 t6 t7 s
  | .refreshDue n rank bank => Sys2Proof.Machine.execRefreshDue n rank bank s
  | .refreshPostponeLimit n rank bank => Sys2Proof.Machine.execRefreshPostponeLimit n rank bank s
  | .dimmSensorPoll n temps mr4 pmic => Sys2Proof.Machine.execDimmSensorPoll n temps mr4 pmic s
  | .dimmEventNAssert n source temps mr4 pmic => Sys2Proof.Machine.execDimmEventNAssert n source temps mr4 pmic s
  | .powerDownEntry n pair => Sys2Proof.Machine.execPowerDownEntry n pair s
  | .pageIdleClose n bank => Sys2Proof.Machine.execPageIdleClose n bank s
  | .requestAgePromote req => Sys2Proof.Machine.execRequestAgePromote req s
  | .dqsOscillatorPoll n rank drift => Sys2Proof.Machine.execDqsOscillatorPoll n rank drift s
  | .zqCalibration n rank => Sys2Proof.Machine.execZqCalibration n rank s
  | .caParityAlert n sub phase => Sys2Proof.Machine.execCaParityAlert n sub phase s
  | .caParityRetryDone n sub clean cs ca inTime => Sys2Proof.Machine.execCaParityRetryDone n sub clean cs ca inTime s
  | .rekeySweepStep slot => Sys2Proof.Machine.execRekeySweepStep slot s
  | .drivePortEnable port link => Sys2Proof.Machine.execDrivePortEnable port link s
  | .driveInitComplete port ok qpairs cap1 cap2 => Sys2Proof.Machine.execDriveInitComplete port ok qpairs cap1 cap2 s
  | .imageCreate => Sys2Proof.Machine.execImageCreate s
  | .imageCreateComplete => Sys2Proof.Machine.execImageCreateComplete s
  | .restoreStart => Sys2Proof.Machine.execRestoreStart s
  | .restoreComplete => Sys2Proof.Machine.execRestoreComplete s
  | .destageStart => Sys2Proof.Machine.execDestageStart s
  | .destageTagWriteDone gran => Sys2Proof.Machine.execDestageTagWriteDone gran s
  | .destageComplete gran => Sys2Proof.Machine.execDestageComplete gran s
  | .learningReadComplete gran => Sys2Proof.Machine.execLearningReadComplete gran s
  | .driveCommandError drive op gran retryOk status lba => Sys2Proof.Machine.execDriveCommandError drive op gran retryOk status lba s
  | .driveCommandTimeout drive => Sys2Proof.Machine.execDriveCommandTimeout drive s
  | .driveLinkDown port => Sys2Proof.Machine.execDriveLinkDown port s
  | .tokenBucketRefill drive => Sys2Proof.Machine.execTokenBucketRefill drive s
  | .rebuildStep drive => Sys2Proof.Machine.execRebuildStep drive s
  | .driveFlushComplete drive => Sys2Proof.Machine.execDriveFlushComplete drive s
  | .ageTick => Sys2Proof.Machine.execAgeTick s
  | .backgroundEviction => Sys2Proof.Machine.execBackgroundEviction s
  | .allocationRetry => Sys2Proof.Machine.execAllocationRetry s
  | .quotaWrite which value => Sys2Proof.Machine.execQuotaWrite which value s
  | .frameMapLineRebuild n k => Sys2Proof.Machine.execFrameMapLineRebuild n k s
  | .channelLossRebuild => Sys2Proof.Machine.execChannelLossRebuild s
  | .patternLoad iss engine first count len ptr words => Sys2Proof.Machine.execPatternLoad iss engine first count len ptr words s
  | .patternStart iss engine prio entry credits g => Sys2Proof.Machine.execPatternStart iss engine prio entry credits g s
  | .patternStop iss engine => Sys2Proof.Machine.execPatternStop iss engine s
  | .nop engine ecc => Sys2Proof.Machine.execNop engine ecc s
  | .halt engine ecc => Sys2Proof.Machine.execHalt engine ecc s
  | .seti engine ecc => Sys2Proof.Machine.execSeti engine ecc s
  | .addi engine ecc => Sys2Proof.Machine.execAddi engine ecc s
  | .alu engine ecc => Sys2Proof.Machine.execAlu engine ecc s
  | .br engine ecc => Sys2Proof.Machine.execBr engine ecc s
  | .loopStitch engine ecc => Sys2Proof.Machine.execLoopStitch engine ecc s
  | .tagStitch engine ecc => Sys2Proof.Machine.execTagStitch engine ecc s
  | .dline engine ecc => Sys2Proof.Machine.execDline engine ecc s
  | .rdt engine ecc => Sys2Proof.Machine.execRdt engine ecc s
  | .note engine ecc => Sys2Proof.Machine.execNote engine ecc s
  | .fetch engine ecc => Sys2Proof.Machine.execFetch engine ecc s
  | .hint engine ecc => Sys2Proof.Machine.execHint engine ecc s
  | .armw engine ecc => Sys2Proof.Machine.execArmw engine ecc s
  | .waitdb engine ecc => Sys2Proof.Machine.execWaitdb engine ecc s
  | .waitw engine ecc => Sys2Proof.Machine.execWaitw engine ecc s
  | .waitt engine ecc => Sys2Proof.Machine.execWaitt engine ecc s
  | .stitcherDoorbell engine value func => Sys2Proof.Machine.execStitcherDoorbell engine value func s
  | .stitcherWake engine => Sys2Proof.Machine.execStitcherWake engine s
  | .stitcherWaitTimeout engine => Sys2Proof.Machine.execStitcherWaitTimeout engine s
  | .streamGranuleIssue engine => Sys2Proof.Machine.execStreamGranuleIssue engine s
  | .qfullRetry engine slot => Sys2Proof.Machine.execQfullRetry engine slot s
  | .stiEnableWrite on => Sys2Proof.Machine.execStiEnableWrite on s
  | .associationOpen assoc => Sys2Proof.Machine.execAssociationOpen assoc s
  | .hello h nonce idHash secret aepoch mac => Sys2Proof.Machine.execHello h nonce idHash secret aepoch mac s
  | .helloRsp h nonce idHash secret aepoch mac => Sys2Proof.Machine.execHelloRsp h nonce idHash secret aepoch mac s
  | .openReq h cid relaxed purpose window lane prio psn => Sys2Proof.Machine.execOpenReq h cid relaxed purpose window lane prio psn s
  | .openRsp h cid relaxed purpose window lane prio psn status => Sys2Proof.Machine.execOpenRsp h cid relaxed purpose window lane prio psn status s
  | .closePkt h cid => Sys2Proof.Machine.execClosePkt h cid s
  | .keepalive h => Sys2Proof.Machine.execKeepalive h s
  | .keepaliveTimer assoc => Sys2Proof.Machine.execKeepaliveTimer assoc s
  | .associationDownTimeout assoc => Sys2Proof.Machine.execAssociationDownTimeout assoc s
  | .paCfgRekey assoc => Sys2Proof.Machine.execPaCfgRekey assoc s
  | .rekey h nonce => Sys2Proof.Machine.execRekey h nonce s
  | .oldKeyPhaseRetire assoc => Sys2Proof.Machine.execOldKeyPhaseRetire assoc s
  | .laneRec h lane recs => Sys2Proof.Machine.execLaneRec h lane recs s
  | .cmdFwd h frag last cmd => Sys2Proof.Machine.execCmdFwd h frag last cmd s
  | .fencePkt h => Sys2Proof.Machine.execFencePkt h s
  | .readPkt h loan target gen granule count addr tag => Sys2Proof.Machine.execReadPkt h loan target gen granule count addr tag s
  | .readResp h ask duplicate poison valid served lines => Sys2Proof.Machine.execReadResp h ask duplicate poison valid served lines s
  | .writePkt h loan target gen granule count addr tag lines => Sys2Proof.Machine.execWritePkt h loan target gen granule count addr tag lines s
  | .ackPkt h psn sack ceCnt pktCnt tsEcho => Sys2Proof.Machine.execAckPkt h psn sack ceCnt pktCnt tsEcho s
  | .nakPkt h psn code rnrUs about tsEcho => Sys2Proof.Machine.execNakPkt h psn code rnrUs about tsEcho s
  | .retransmitTimeout assoc cid psn => Sys2Proof.Machine.execRetransmitTimeout assoc cid psn s
  | .rnrRetry assoc cid psn => Sys2Proof.Machine.execRnrRetry assoc cid psn s
  | .ackDelayExpiry assoc cid => Sys2Proof.Machine.execAckDelayExpiry assoc cid s
  | .rateRecoveryTick assoc cid => Sys2Proof.Machine.execRateRecoveryTick assoc cid s
  | .contextRefillDone assoc cid lost => Sys2Proof.Machine.execContextRefillDone assoc cid lost s
  | .twinsetPortUp port => Sys2Proof.Machine.execTwinsetPortUp port s
  | .twinsetPortDown port lanes => Sys2Proof.Machine.execTwinsetPortDown port lanes s
  | .pfcPause port prio on => Sys2Proof.Machine.execPfcPause port prio on s
  | .renew h m => Sys2Proof.Machine.execRenew h m s
  | .acquire h m => Sys2Proof.Machine.execAcquire h m s
  | .detach h m => Sys2Proof.Machine.execDetach h m s
  | .attach h m => Sys2Proof.Machine.execAttach h m s
  | .releaseMsg h m => Sys2Proof.Machine.execReleaseMsg h m s
  | .leaseGrant h m => Sys2Proof.Machine.execLeaseGrant h m s
  | .leaseDeny h m => Sys2Proof.Machine.execLeaseDeny h m s
  | .leaseRenewTimer => Sys2Proof.Machine.execLeaseRenewTimer s
  | .leaseRetryTimer => Sys2Proof.Machine.execLeaseRetryTimer s
  | .leaseFencePoint => Sys2Proof.Machine.execLeaseFencePoint s
  | .drainExpiry => Sys2Proof.Machine.execDrainExpiry s
  | .detachTimeout lane => Sys2Proof.Machine.execDetachTimeout lane s
  | .refereeLapse slot => Sys2Proof.Machine.execRefereeLapse slot s
  | .refereeHoldWait slot => Sys2Proof.Machine.execRefereeHoldWait slot s
  | .mirrorCtlDetach iss => Sys2Proof.Machine.execMirrorCtlDetach iss s
  | .mirrorCtlResync iss => Sys2Proof.Machine.execMirrorCtlResync iss s
  | .resyncStart => Sys2Proof.Machine.execResyncStart s
  | .tableMsg h entries last joined => Sys2Proof.Machine.execTableMsg h entries last joined s
  | .divrun h runs last keyWait => Sys2Proof.Machine.execDivrun h runs last keyWait s
  | .resyncCopyStep => Sys2Proof.Machine.execResyncCopyStep s
  | .leaseCtlSwitchover iss => Sys2Proof.Machine.execLeaseCtlSwitchover iss s
  | .leaseCtlForceAcquire iss => Sys2Proof.Machine.execLeaseCtlForceAcquire iss s
  | .refSend iss ptr answer => Sys2Proof.Machine.execRefSend iss ptr answer s
  | .refRecv iss ptr ok => Sys2Proof.Machine.execRefRecv iss ptr ok s
  | .tokenPeriodTimer => Sys2Proof.Machine.execTokenPeriodTimer s
  | .tokenMsg h t => Sys2Proof.Machine.execTokenMsg h t s
  | .leaderLostTimeout => Sys2Proof.Machine.execLeaderLostTimeout s
  | .roundCtlJoin iss => Sys2Proof.Machine.execRoundCtlJoin iss s
  | .roundCtlLeave iss => Sys2Proof.Machine.execRoundCtlLeave iss s
  | .roundEnableWrite => Sys2Proof.Machine.execRoundEnableWrite s
  | .joinMsg h j => Sys2Proof.Machine.execJoinMsg h j s
  | .joinRsp h member reason => Sys2Proof.Machine.execJoinRsp h member reason s
  | .offerMsg h avail => Sys2Proof.Machine.execOfferMsg h avail s
  | .loanRequest h rseq => Sys2Proof.Machine.execLoanRequest h rseq s
  | .loanGrant h loan gen rseq => Sys2Proof.Machine.execLoanGrant h loan gen rseq s
  | .loanRefuse h reason rseq => Sys2Proof.Machine.execLoanRefuse h reason rseq s
  | .reclaim h loan gen => Sys2Proof.Machine.execReclaim h loan gen s
  | .loanReturn h loan gen => Sys2Proof.Machine.execLoanReturn h loan gen s
  | .loanReclaim => Sys2Proof.Machine.execLoanReclaim s
  | .loanCtlReclaim iss member loan => Sys2Proof.Machine.execLoanCtlReclaim iss member loan s
  | .loanCtlReturn iss member loan => Sys2Proof.Machine.execLoanCtlReturn iss member loan s
  | .loanIdleReturn key => Sys2Proof.Machine.execLoanIdleReturn key s
  | .neighbourWindowTick => Sys2Proof.Machine.execNeighbourWindowTick s
  | .nFillTimeout gran => Sys2Proof.Machine.execNFillTimeout gran s
  | .boot ks stuck => Sys2Proof.Machine.execBoot ks stuck s
  | .bootTimeout ks stuck => Sys2Proof.Machine.execBootTimeout ks stuck s
  | .islandExcursion => Sys2Proof.Machine.execIslandExcursion s
  | .islandReloadComplete => Sys2Proof.Machine.execIslandReloadComplete s
  | .bootCtlCommit => Sys2Proof.Machine.execBootCtlCommit s
  | .takeOwnership h key => Sys2Proof.Machine.execTakeOwnership h key s
  | .transfer h key => Sys2Proof.Machine.execTransfer h key s
  | .tenantEnrol h tenant key => Sys2Proof.Machine.execTenantEnrol h tenant key s
  | .tenantBind h glds => Sys2Proof.Machine.execTenantBind h glds s
  | .tenantUnbind h tenant glds => Sys2Proof.Machine.execTenantUnbind h tenant glds s
  | .tenantRemove h tenant => Sys2Proof.Machine.execTenantRemove h tenant s
  | .regionShare h region gen tenant access => Sys2Proof.Machine.execRegionShare h region gen tenant access s
  | .keyInstall h slot epoch mat prev => Sys2Proof.Machine.execKeyInstall h slot epoch mat prev s
  | .keyRotate h slot epoch mat => Sys2Proof.Machine.execKeyRotate h slot epoch mat s
  | .keyRemove h slot => Sys2Proof.Machine.execKeyRemove h slot s
  | .zeroise h scope slot tenant => Sys2Proof.Machine.execZeroise h scope slot tenant s
  | .secretInstall h slot secret => Sys2Proof.Machine.execSecretInstall h slot secret s
  | .refereeSet h host member key => Sys2Proof.Machine.execRefereeSet h host member key s
  | .fwActivate h target => Sys2Proof.Machine.execFwActivate h target s
  | .logClear h => Sys2Proof.Machine.execLogClear h s
  | .debugUnlock h challenge level => Sys2Proof.Machine.execDebugUnlock h challenge level s
  | .keyStoreRecordPersisted => Sys2Proof.Machine.execKeyStoreRecordPersisted s
  | .keyStoreCompaction => Sys2Proof.Machine.execKeyStoreCompaction s
  | .debugChallenge inst => Sys2Proof.Machine.execDebugChallenge inst s
  | .getWrapCert inst => Sys2Proof.Machine.execGetWrapCert inst s
  | .getVersion inst => Sys2Proof.Machine.execGetVersion inst s
  | .getCapabilities inst => Sys2Proof.Machine.execGetCapabilities inst s
  | .negotiateAlgorithms inst mlDsa mlKem sha3 aes => Sys2Proof.Machine.execNegotiateAlgorithms inst mlDsa mlKem sha3 aes s
  | .getDigests inst => Sys2Proof.Machine.execGetDigests inst s
  | .getCertificate inst slot offset len => Sys2Proof.Machine.execGetCertificate inst slot offset len s
  | .challenge inst slot nonce => Sys2Proof.Machine.execChallenge inst slot nonce s
  | .getMeasurements inst index nonce sign => Sys2Proof.Machine.execGetMeasurements inst index nonce sign s
  | .keyExchange inst session => Sys2Proof.Machine.execKeyExchange inst session s
  | .finish inst session ok => Sys2Proof.Machine.execFinish inst session ok s
  | .heartbeat inst session => Sys2Proof.Machine.execHeartbeat inst session s
  | .keyUpdate inst session => Sys2Proof.Machine.execKeyUpdate inst session s
  | .endSession inst session => Sys2Proof.Machine.execEndSession inst session s
  | .chunkSend inst handle seq len last => Sys2Proof.Machine.execChunkSend inst handle seq len last s
  | .chunkGet inst handle seq => Sys2Proof.Machine.execChunkGet inst handle seq s
  | .regionCreate iss tenant slot twin mirror policy base size => Sys2Proof.Machine.execRegionCreate iss tenant slot twin mirror policy base size s
  | .regionDestroy iss region gen => Sys2Proof.Machine.execRegionDestroy iss region gen s
  | .regionAttach iss region gen gld => Sys2Proof.Machine.execRegionAttach iss region gen gld s
  | .regionRevoke iss region gen gld => Sys2Proof.Machine.execRegionRevoke iss region gen gld s
  | .tierHintPromote iss region gen first count => Sys2Proof.Machine.execTierHintPromote iss region gen first count s
  | .tierHintCold iss region gen first count => Sys2Proof.Machine.execTierHintCold iss region gen first count s
  | .tierHintPin iss region gen first count => Sys2Proof.Machine.execTierHintPin iss region gen first count s
  | .tierHintUnpin iss region gen first count => Sys2Proof.Machine.execTierHintUnpin iss region gen first count s
  | .copyLines iss src srcGen dst dstGen srcOfs dstOfs lines => Sys2Proof.Machine.execCopyLines iss src srcGen dst dstGen srcOfs dstOfs lines s
  | .persistFence iss region gen scope => Sys2Proof.Machine.execPersistFence iss region gen scope s
  | .eventRead iss max ptr ok => Sys2Proof.Machine.execEventRead iss max ptr ok s
  | .logRead iss first count len ptr ok => Sys2Proof.Machine.execLogRead iss first count len ptr ok s
  | .telemetryRead iss page len ptr ok => Sys2Proof.Machine.execTelemetryRead iss page len ptr ok s
  | .attest iss tenant nonce len ptr ok => Sys2Proof.Machine.execAttest iss tenant nonce len ptr ok s
  | .fwStage iss target offset len ptr content => Sys2Proof.Machine.execFwStage iss target offset len ptr content s
  | .invalidOpcode iss => Sys2Proof.Machine.execInvalidOpcode iss s
  | .sqTailWrite func ring tail => Sys2Proof.Machine.execSqTailWrite func ring tail s
  | .descriptorFetch func ring got => Sys2Proof.Machine.execDescriptorFetch func ring got s
  | .cqHeadWrite func ring head => Sys2Proof.Machine.execCqHeadWrite func ring head s
  | .ringEnable func ring => Sys2Proof.Machine.execRingEnable func ring s
  | .ringDisable func ring => Sys2Proof.Machine.execRingDisable func ring s
  | .completionSignalTimer func ring => Sys2Proof.Machine.execCompletionSignalTimer func ring s
  | .skqPopRead => Sys2Proof.Machine.execSkqPopRead s
  | .dropPkt => Sys2Proof.Machine.execDropPkt s
  | .skqReset => Sys2Proof.Machine.execSkqReset s
  | .eventReaction => Sys2Proof.Machine.execEventReaction s
  | .intGapExpiry target vector => Sys2Proof.Machine.execIntGapExpiry target vector s
  | .blockResetComplete block => Sys2Proof.Machine.execBlockResetComplete block s
  | .firstFaultLatchClear c => Sys2Proof.Machine.execFirstFaultLatchClear c s
  | .pulseToggle => Sys2Proof.Machine.execPulseToggle s
  | .pulseRunWrite on => Sys2Proof.Machine.execPulseRunWrite on s
  | .rowRecordArrival => Sys2Proof.Machine.execRowRecordArrival s
  | .rowPageFlushTimer => Sys2Proof.Machine.execRowPageFlushTimer s
  | .rowProgramDone good => Sys2Proof.Machine.execRowProgramDone good s
  | .rowEraseDone => Sys2Proof.Machine.execRowEraseDone s
  | .rowScan => Sys2Proof.Machine.execRowScan s
  | .pwronAssert => Sys2Proof.Machine.execPwronAssert s
  | .pwronDeassert => Sys2Proof.Machine.execPwronDeassert s
  | .pfailNAssert => Sys2Proof.Machine.execPfailNAssert s
  | .pfailNDeassert => Sys2Proof.Machine.execPfailNDeassert s
  | .flushLinkDrop => Sys2Proof.Machine.execFlushLinkDrop s
  | .flushDone => Sys2Proof.Machine.execFlushDone s
  | .porstNAssert => Sys2Proof.Machine.execPorstNAssert s
  | .rstCtlChip => Sys2Proof.Machine.execRstCtlChip s
  | .chipReset => Sys2Proof.Machine.execChipReset s
  | .seqPgChange slot good mv => Sys2Proof.Machine.execSeqPgChange slot good mv s
  | .sequencerStepTimer => Sys2Proof.Machine.execSequencerStepTimer s
  | .offWaitExpiry => Sys2Proof.Machine.execOffWaitExpiry s
  | .preflightTimeout => Sys2Proof.Machine.execPreflightTimeout s
  | .psqCtlOff => Sys2Proof.Machine.execPsqCtlOff s
  | .psqCtlCycle => Sys2Proof.Machine.execPsqCtlCycle s
  | .runningRailFault slot mv => Sys2Proof.Machine.execRunningRailFault slot mv s
  | .railGraceExpiry slot => Sys2Proof.Machine.execRailGraceExpiry slot s
  | .vddFuseRequest good => Sys2Proof.Machine.execVddFuseRequest good s
  | .vaonLow => Sys2Proof.Machine.execVaonLow s
  | .vaonReset rtcKept fuseOk => Sys2Proof.Machine.execVaonReset rtcKept fuseOk s
  | .xtalStop => Sys2Proof.Machine.execXtalStop s
  | .pllLockLoss pll => Sys2Proof.Machine.execPllLockLoss pll s
  | .pllRelock pll => Sys2Proof.Machine.execPllRelock pll s
  | .rtcxFailure => Sys2Proof.Machine.execRtcxFailure s
  | .vbatLow => Sys2Proof.Machine.execVbatLow s
  | .refclkLoss host => Sys2Proof.Machine.execRefclkLoss host s
  | .rtcSet hi => Sys2Proof.Machine.execRtcSet hi s
  | .rtcSecondRewrite => Sys2Proof.Machine.execRtcSecondRewrite s
  | .watchdogKick => Sys2Proof.Machine.execWatchdogKick s
  | .watchdogExpiry => Sys2Proof.Machine.execWatchdogExpiry s
  | .thermalSample x => Sys2Proof.Machine.execThermalSample x s
  | .limitEffRecompute => Sys2Proof.Machine.execLimitEffRecompute s
  | .flushEstUpdate => Sys2Proof.Machine.execFlushEstUpdate s
  | .lockAllWrite value => Sys2Proof.Machine.execLockAllWrite value s
  | .counterLoRead func addr wide => Sys2Proof.Machine.execCounterLoRead func addr wide s
  | .mboxGo len => Sys2Proof.Machine.execMboxGo len s
  | .mboxAnswer result words => Sys2Proof.Machine.execMboxAnswer result words s
  | .irqAck id => Sys2Proof.Machine.execIrqAck id s
  | .mctpBar0Read off count => Sys2Proof.Machine.execMctpBar0Read off count s
  | .mctpBar0Write off words => Sys2Proof.Machine.execMctpBar0Write off words s
  | .registerWrite func addr width value => Sys2Proof.Machine.execRegisterWrite func addr width value s
  | .cxlLinkError h kind replay => Sys2Proof.Machine.execCxlLinkError h kind replay s
  | .poisonedTlp h => Sys2Proof.Machine.execPoisonedTlp h s
  | .fecUncorrectableCodeword port => Sys2Proof.Machine.execFecUncorrectableCodeword port s
  | .pfcPauseLimit port prio => Sys2Proof.Machine.execPfcPauseLimit port prio s
  | .tokenForwardTimeout => Sys2Proof.Machine.execTokenForwardTimeout s
  | .loanOfferTimer => Sys2Proof.Machine.execLoanOfferTimer s
  | .driveLinkUp port wide => Sys2Proof.Machine.execDriveLinkUp port wide s
  | .calibrationTrackingUpdate item track => Sys2Proof.Machine.execCalibrationTrackingUpdate item track s
  | .recoveryImage m ks stuck => Sys2Proof.Machine.execRecoveryImage m ks stuck s
  | .extestInstructionUpdate selected => Sys2Proof.Machine.execExtestInstructionUpdate selected s
  | .regionLogRecordProgrammed => Sys2Proof.Machine.execRegionLogRecordProgrammed s
  | .refereeLogRecordProgrammed slot => Sys2Proof.Machine.execRefereeLogRecordProgrammed slot s
  | .vioAonOutOfRegulation => Sys2Proof.Machine.execVioAonOutOfRegulation s
  | .msixVectorUnmask func vector => Sys2Proof.Machine.execMsixVectorUnmask func vector s

end Sys2Proof.Machine
end

