-- ==== Sys2Proof/Machine/Tick.lean ====
section
/-! DEFINITION. What happens while no command waits: time passes, and what waited for its condition goes on. -/

namespace Sys2Proof.Machine

/-- One FCLK cycle passes (R11, log entry 2): the channel front ends come up to the present; revocations, region destructions and parked
requests whose condition now holds go on (R24, R80, R295, R404). -/
def Dev.tick (s : Dev) : Dev := ({ s with clock := s.clock + 1 } : Dev).dramPump.revokeAll.destroyCheck.settle

/-- The machine with an empty queue. -/
def State.idle (s : State) : Answer := s.on Dev.tick

end Sys2Proof.Machine
end

