-- ==== Sys2Proof/Machine/Step.lean ====
section
/-! DEFINITION. One step: the command at the front of the queue is carried out; with an empty queue time passes. -/

namespace Sys2Proof.Machine

/-- Put a command at the front of the queue. -/
def State.offer (s : State) (c : Instr) : State := { s with pending := c :: s.pending }

/-- One step: the command at the front, carried out with the queue's rest; a tick of FCLK on an empty queue. -/
def step (s : State) : Host.Outcome State Fault Refusal :=
  match s.pending with
  | [] => s.idle
  | c :: rest => exec c { s with pending := rest }

/-- The state with the command a table word spells at the front of its queue; unchanged where it spells none. -/
def State.withFetchWord (s : State) (nbits w : Nat) : State :=
  match decodeTableWord nbits w with
  | some c => s.offer c
  | none => s

end Sys2Proof.Machine
end

