-- ==== Sys2Proof/Machine/Durable.lean ====
section
/-! DEFINITION. What survives a loss of power or of the appliance, by the instant a write has reached (R50, R51, R60). -/

namespace Sys2Proof.Machine

/-- A line as the flash image gives it: zeros where its granule was never written, POISON where no drive can serve it (R39, R41). -/
def Dev.imageLn (s : Dev) (line : Nat) : Ln :=
  let g := granOf line
  if !(s.fme g).ew then {}
  else match s.flashPlace g with
    | some (d, lba, r) => (s.flashRead g d lba r).1.getD (line % 64) {}
    | none => { st := .poison }

/-- A line as its frame or, below it, the image gives it. -/
def Dev.belowLn (s : Dev) (line : Nat) : Ln :=
  let e := s.fme (granOf line)
  if e.tier = .L ∧ (s.frameLn e.loc (line % 64)).st = .dirty then { s.frameLn e.loc (line % 64) with st := .clean } else s.imageLn line

/-- A line as it reads after a loss of input power with hold-up energy configured (R50, R60): the flush takes DIRTY lines of LC through
DRAM to the image; all else is what the image holds already. Writes held, on the link or not yet accepted by LC are in none of these, so
they are lost. -/
def Dev.durableLn (s : Dev) (line : Nat) : Ln :=
  if s.poison.has line then { st := .poison }
  else match s.lc.get? line with
    | some c => if c.ln.st = .dirty then { c.ln with st := .clean } else s.belowLn line
    | none => s.belowLn line

/-- A write that left the line as `ln` survives a power loss. -/
def Dev.survivesPower (s : Dev) (line : Nat) (ln : Ln) : Bool := s.durableLn line == { ln with st := .clean }

/-- What has been written to the line survives the loss of the appliance (R50): its region is mirrored, and the standby has acknowledged
every forward record of it. -/
def Dev.survivesAppliance (s : Dev) (line : Nat) : Bool :=
  match s.regionAt (granOf line) with
  | some (_, r) => r.mirror && s.forwards && !(s.unacked.any fun x => x.line == line)
  | none => false

end Sys2Proof.Machine
end

