-- ==== Sys2Proof/Safety.lean ====
section
/-! DEFINITION. What counts as a safe state, and the terms the claims use: what a command may
change, and the conditions under which a family of commands has its effect. -/

namespace Sys2Proof

open Machine

/-- The anti-rollback fuses lie in their range: thermometers of 64 bits (R361). -/
def fuseRange (s : State) : Prop := s.fuses.wsvn ≤ 64 ∧ s.fuses.asvn ≤ 64

/-- No output of a finished command is still with the device: what commands have sent stands in `sent`. -/
def quiet (s : State) : Prop := s.dev.out = []

/-- The state with one more thing sent. -/
def sends (s : State) (o : Output) : State := { s with sent := o :: s.sent }

/-- The state with another device. -/
def withDev (s : State) (d : Dev) : State := { s with dev := d }

/-- From `s` to `t` a Fabric Manager command has been refused with this return code: an event has been raised, and nothing else has changed
(R88, R89). -/
def fmRefused (s t : State) (opcode code : Nat) : Prop :=
  t.sent = .fm opcode code [] :: s.sent ∧ ∃ regs row fco psq, t.dev = { s.dev with regs, row, fco, psq }

/-! ## Stitches -/

/-- Engine `e` is RUNNING at a stitch `w` of opcode `op`, which it may issue now or once its last stitch is through (R245, R247). -/
def comesTo (s : State) (e op : Nat) (w : BitVec 64) : Prop :=
  e < 16 ∧ s.dev.engState e = 2 ∧ s.dev.engPc e < s.dev.engLen e ∧ (s.dev.engine e).pattern.getD (s.dev.engPc e) 0 = w ∧ opOf w = op

/-- Engine `e` is RUNNING at a stitch `w` of opcode `op`, and its last stitch no longer occupies it (R245, R247). -/
def atStitch (s : State) (e op : Nat) (w : BitVec 64) : Prop := comesTo s e op w ∧ (s.dev.engine e).ready ≤ s.dev.clock

/-- The stitches, each with its opcode (R247), for engine `e` with the finding `ecc` of its pattern memory's code. -/
def stitchesOf (e ecc : Nat) : List (Nat × Instr) :=
  [(0x00, .nop e ecc), (0x01, .halt e ecc), (0x02, .seti e ecc), (0x03, .addi e ecc), (0x04, .alu e ecc), (0x05, .br e ecc),
    (0x06, .loopStitch e ecc), (0x07, .tagStitch e ecc), (0x08, .dline e ecc), (0x09, .rdt e ecc), (0x0A, .note e ecc),
    (0x0B, .fetch e ecc), (0x0C, .hint e ecc), (0x0D, .armw e ecc), (0x0E, .waitdb e ecc), (0x0F, .waitw e ecc), (0x10, .waitt e ecc)]

/-- From `s` to `t` engine `e` alone has moved: of all else only registers, ROW, FCO and PSQ may differ. -/
def movedOnly (s t : State) (e : Nat) : Prop :=
  (∃ regs engines row fco psq, t = withDev s { s.dev with regs, engines, row, fco, psq }) ∧
    ∀ i, i ≠ e → t.dev.engine i = s.dev.engine i

/-- The same, the clock having moved on as well. -/
def movedLater (s t : State) (e : Nat) : Prop :=
  s.dev.clock ≤ t.dev.clock ∧ movedOnly (withDev s { s.dev with clock := t.dev.clock }) t e

/-- Engine `e` goes on at stitch `pc`: RUNNING, or, when `pc` has reached LEN, stopped with reason 1 (R245). -/
def goesOn (s t : State) (e pc : Nat) : Prop :=
  t.dev.engPc e = pc % 1024 ∧ (pc < s.dev.engLen e → t.dev.engState e = 2) ∧
    (s.dev.engLen e ≤ pc → t.dev.engState e = 6 ∧ t.dev.get (Reg.ENG.STS.STOP_REASON e) = 1)

/-- General register `d` of engine `e` holds `v`, its others as before. -/
def wroteReg (s t : State) (e d : Nat) (v : BitVec 64) : Prop :=
  t.dev.reg e d = v ∧ ∀ i, i ≠ d → t.dev.reg e i = s.dev.reg e i

/-- The general registers of engine `e` are as before. -/
def keptRegs (s t : State) (e : Nat) : Prop := ∀ i, t.dev.reg e i = s.dev.reg e i

/-- Engine `e` may use region `n`, which is `r`: the region is there and ACTIVE, the engine is bound to the management function, to the
region's tenant or to an LD the region is attached to, and the region is not a later one of its number (R241, R250). -/
def usable (s : State) (e n : Nat) (r : Region) : Prop :=
  s.dev.regions.get? n = some r ∧ r.draining = false ∧
    (s.dev.bit (Reg.ENG.BIND.MGMT e) = true ∨ ((s.dev.engine e).bound = true ∧ r.tenant = s.dev.get (Reg.ENG.BIND.TENANT e)) ∨
      s.dev.get (Reg.ENG.BIND.GLD e) ∈ r.attached) ∧
    ∀ g, (s.dev.engine e).gens.get? n = some g → g = r.gen

/-- The stream that FETCH or HINT `w` of engine `e` makes over region `r`: its granules clipped at the region's end, with the engine's LT, DL
and PC (R250). -/
def streamOf (s : State) (e : Nat) (w : BitVec 64) (r : Region) (act : Option Nat) (urg pin : Bool) (age : Nat) : Stream :=
  let off := (s.dev.reg e (stS w)).toNat
  { id := (s.dev.engine e).made, act, urg, pin, ageBias := age, region := fieldOf w 51 40, gen := r.gen
    next := r.base * 512 + min off (r.size * 512), stop := r.base * 512 + min (off + fieldOf w 39 20) (r.size * 512)
    lt := s.dev.get (Reg.ENG.LTAG.LT e), dl := s.dev.get (Reg.ENG.DL.DL e), pc := s.dev.engPc e }

/-- The stitch `w` of opcode `op` and its command make this stream (R247, R255). -/
def makes (s : State) (e ecc : Nat) (w : BitVec 64) (r : Region) (c : Instr) (x : Stream) : Prop :=
  (c = .fetch e ecc ∧ atStitch s e 0x0B w ∧ x = streamOf s e w r none (fieldOf w 19 19 == 1) (fieldOf w 18 18 == 1) (fieldOf w 15 0)) ∨
  (c = .hint e ecc ∧ atStitch s e 0x0C w ∧ x = streamOf s e w r (some (fieldOf w 57 55)) false false 0)

/-- The command issues a granule of the stream `x` in slot `k`: the next of the engine's streams, or the one refused by a full queue, whose time
has come or comes now (R251, R252). -/
def issues (s : State) (e k : Nat) (x : Stream) (c : Instr) : Prop :=
  e < 16 ∧ ((c = .streamGranuleIssue e ∧ ((s.dev.engine e).streams.list.find? fun y => y.2.retry.isNone) = some (k, x) ∧
      (s.dev.engine e).streams.get? k = some x) ∨ c = .qfullRetry e k ∧ ∃ p, (s.dev.engine e).streams.get? k = some { x with retry := some p } ∧ x.retry = none)

/-- The streams of an engine with the stream `x` of slot `k` one granule further, or gone after its last. -/
def passed (t : Tab Stream) (k : Nat) (x : Stream) : Tab Stream :=
  if x.next + 1 < x.stop then t.put k { x with next := x.next + 1, retry := none } else t.del k

/-! ## The hosts' memory -/

/-- Nothing waits behind the memory: no write for a frame, no fill or granule for one, no request in RTE, on the links or in a copy, no prefetch of a
hint, no read of the twin, no fence or flush, no write-accept entry, and every counted granule has a line or is in flight (R52, R107, R222). -/
def calm (d : Dev) : Prop :=
  d.allocWait = [] ∧ d.rteWait = [] ∧ d.linkWait = [] ∧ d.copies.list = [] ∧ d.hints.list = [] ∧ d.waits.list = [] ∧ d.mirror.serving = [] ∧
    d.mirror.persist = [] ∧ d.mirror.gpf = [] ∧ d.wabSince = none ∧ (∀ e ∈ d.fills.list, e.2.frame.isSome = true) ∧
    (∀ e ∈ d.dirty.list, (e.2.lines || e.2.inFlight) = true) ∧ ∀ e ∈ d.lc.list, e.2.place ≠ .accept ∧ e.2.place ≠ .install

/-- A host's request whose head has not been reset since. -/
def asked (s : State) (q : HostReq) : Prop := q.via = .host ∧ (s.dev.head q.head).resets = q.epoch

/-! ## Ports and heads -/

/-- No fence and no flush waits for writes (R43, R47). -/
def unfenced (d : Dev) : Prop := d.mirror.persist = [] ∧ d.mirror.gpf = []

/-- From `s` to `t` what memory, regions and media hold, and what the LDs hold of capacity, is as before. -/
def keptMemory (s t : State) : Prop :=
  t.dev.frames = s.dev.frames ∧ t.dev.fm = s.dev.fm ∧ t.dev.rm = s.dev.rm ∧ t.dev.media = s.dev.media ∧ t.dev.regions = s.dev.regions

/-- In `t` the link of head `h` is down and nothing of it waits that a link still carried: of its requests the ones that admission had passed
stay; completions that were to come go nowhere, since the head counts a reset (R71). -/
def linkLost (s t : State) (h : Nat) : Prop :=
  t.dev.linkUp h = false ∧ t.dev.get (Reg.HP.LINK_STS.WIDTH (h / 4) (h % 4)) = 0 ∧ t.dev.bit (Reg.HP.LINK_STS.MEM_EN (h / 4) (h % 4)) = false ∧
    (s.dev.head h).resets < (t.dev.head h).resets ∧ (∀ x ∈ t.dev.heldAt (h / 4), x.req.head ≠ h) ∧ (∀ x ∈ t.dev.linkWait, x.head ≠ h) ∧
    ∀ x ∈ t.dev.rteWait, x.via = .host → x.head = h → x.admitted = true

/-- LINK_ERR of head `h` one higher for kind `k`, until it saturates (R82). -/
def linkErr (d : Dev) (h k : Nat) : Dev := (d.countUp (Reg.HP.ERR.COUNT (h / 4) (h % 4) k) (Reg.HP.ERR.SAT (h / 4) (h % 4) k) 1).1

/-! ## Ring commands -/

/-- A completion of the command that `i` issued would be written: its ring is RUNNING or DRAINING, neither it nor the command has been
muted by an error or a reset, and no power failure has taken the links down (R389, R393, R401). -/
def writesFor (s : State) (i : Issuer) : Prop :=
  s.dev.psq.linksDown = false ∧ ((s.dev.ring i.func i.ring).state = 1 ∨ (s.dev.ring i.func i.ring).state = 2) ∧ (s.dev.ring i.func i.ring).mute = false ∧
    ∃ x, s.dev.takenOf i = some x ∧ x.mute = false

/-- The command that `i` issued with this opcode may start: taken, not yet started, and nothing it names or waits for stands in its way
(R399, R400); its completion would be written. -/
def mayRun (s : State) (i : Issuer) (op : Nat) (res : List Nat) : Prop := s.dev.mayStart i op res = true ∧ writesFor s i

/-- From `s` to `t` the completion of the command that `i` issued has been written, with this STATUS and DETAIL (R395). -/
def completedWith (s t : State) (i : Issuer) (status detail : Nat) : Prop :=
  ∃ l e, t.sent = l ++ s.sent ∧ Output.completion i.func i.ring e ∈ l ∧ e.tag = i.tag ∧ e.status = status ∧ e.detail = detail

/-- From `s` to `t` nothing has changed but the rings, registers, ROW, FCO, PSQ and what has been sent: no memory, region, key, engine or
medium. -/
def onlyAnswered (s t : State) : Prop :=
  ∃ rings regs row fco psq, t = { s with dev := { s.dev with rings, regs, row, fco, psq }, sent := t.sent }

/-- The command that `i` issued with this opcode, once it may start, is refused: it completes with this STATUS and DETAIL, and nothing but
what a completion changes has changed. -/
def refusedAs (s : State) (c : Instr) (i : Issuer) (op : Nat) (res : List Nat) (status detail : Nat) : Prop :=
  mayRun s i op res → ∃ t, exec c s = .next t ∧ onlyAnswered s t ∧ completedWith s t i status detail

/-- A ring command of the table but the signed operations: its issuer, its opcode, and what it holds while it runs (R399, R403). -/
def ringOf : Instr → Option (Issuer × Nat × List Nat)
  | .regionCreate i _ slot _ _ _ _ _ => some (i, 0x01, [resSlot slot])
  | .regionDestroy i n _ => some (i, 0x02, [resRegion n])
  | .regionAttach i n _ _ => some (i, 0x03, [resRegion n])
  | .regionRevoke i n _ _ => some (i, 0x04, [resRegion n])
  | .tierHintPromote i n _ _ _ => some (i, 0x10, [resRegion n])
  | .tierHintCold i n _ _ _ => some (i, 0x10, [resRegion n])
  | .tierHintPin i n _ _ _ => some (i, 0x10, [resRegion n])
  | .tierHintUnpin i n _ _ _ => some (i, 0x10, [resRegion n])
  | .copyLines i src _ dst _ _ _ _ => some (i, 0x11, [resRegion src, resRegion dst])
  | .persistFence i n _ scope => some (i, 0x12, if scope = 0 then [resRegion n] else [])
  | .patternLoad i e _ _ _ _ _ => some (i, 0x18, [resEngine e])
  | .patternStart i e _ _ _ _ => some (i, 0x19, [resEngine e])
  | .patternStop i e => some (i, 0x1A, [resEngine e])
  | .eventRead i _ _ _ => some (i, 0x20, [])
  | .logRead i _ _ _ _ _ => some (i, 0x21, [resLog])
  | .telemetryRead i _ _ _ _ => some (i, 0x23, [])
  | .attest i _ _ _ _ _ => some (i, 0x24, [])
  | .mirrorCtlDetach i => some (i, 0x28, [])
  | .mirrorCtlResync i => some (i, 0x28, [])
  | .leaseCtlSwitchover i => some (i, 0x29, [])
  | .leaseCtlForceAcquire i => some (i, 0x29, [])
  | .refSend i _ _ => some (i, 0x29, [])
  | .refRecv i _ _ => some (i, 0x29, [])
  | .roundCtlJoin i => some (i, 0x2A, [])
  | .roundCtlLeave i => some (i, 0x2A, [])
  | .loanCtlReclaim i _ _ => some (i, 0x2B, [])
  | .loanCtlReturn i _ _ => some (i, 0x2B, [])
  | .fwStage i target _ _ _ _ => some (i, 0x30, [resTarget target])
  | _ => none

/-! ## Packets -/

/-- The sealed packet that a command of the table brings (R270, R271). -/
def packetOf : Instr → Option (RxHdr × Payload)
  | .openReq h cid relaxed purpose window lane prio psn => some (h, .open cid relaxed purpose window lane prio psn)
  | .openRsp h cid relaxed purpose window lane prio psn status => some (h, .openRsp cid relaxed purpose window lane prio psn status)
  | .closePkt h cid => some (h, .close cid)
  | .keepalive h => some (h, .keepalive)
  | .rekey h nonce => some (h, .rekey nonce)
  | .laneRec h lane recs => some (h, .laneRec lane recs)
  | .cmdFwd h frag last cmd => some (h, .cmdFwd frag last cmd)
  | .fencePkt h => some ({ h with fence := true, ar := true }, .fence)
  | .readPkt h loan target gen granule count addr tag => some (h, .read loan target gen granule count addr tag)
  | .readResp h ask duplicate poison valid served lines => some (h, ask.answer duplicate poison valid served lines)
  | .writePkt h loan target gen granule count addr tag lines => some (h, .write loan target gen granule count addr tag lines)
  | .ackPkt h psn sack ce pkt ts => some (h, .ack psn sack ce pkt ts)
  | .nakPkt h psn code rnr about ts => some (h, .nak psn code rnr about.1 about.2 ts)
  | .renew h m => some (h, .lease { m with subtype := 1 })
  | .acquire h m => some (h, .lease { m with subtype := 2 })
  | .detach h m => some (h, .lease { m with subtype := 3 })
  | .attach h m => some (h, .lease { m with subtype := 4 })
  | .releaseMsg h m => some (h, .lease { m with subtype := 5 })
  | .leaseGrant h m => some (h, .lease { m with subtype := 6 })
  | .leaseDeny h m => some (h, .lease { m with subtype := 7 })
  | .tableMsg h entries last joined => some (h, .table entries last joined)
  | .divrun h _ _ (some region) => some (h, .keyWait region)
  | .divrun h runs last none => some (h, .divrun runs last)
  | .tokenMsg h t => some (h, .token t)
  | .joinMsg h j => some (h, .join j)
  | .joinRsp h member reason => some (h, .joinRsp member reason)
  | .offerMsg h avail => some (h, .loanMsg { subtype := 1, avail })
  | .loanRequest h rseq => some (h, .loanMsg { subtype := 2, rseq })
  | .loanGrant h loan gen rseq => some (h, .loanMsg { subtype := 3, loan, gen, rseq })
  | .loanRefuse h reason rseq => some (h, .loanMsg { subtype := 4, reason, rseq })
  | .reclaim h loan gen => some (h, .loanMsg { subtype := 5, loan, gen })
  | .loanReturn h loan gen => some (h, .loanMsg { subtype := 6, loan, gen })
  | _ => none

/-- What a packet brings has an opcode of the sequence: neither HELLO, HELLO_RSP, KEEPALIVE, ACK, NAK nor READ_RESP (R271). -/
def sequenced : Payload → Bool
  | .hello .. => false
  | .helloRsp .. => false
  | .keepalive => false
  | .ack .. => false
  | .nak .. => false
  | .readResp .. => false
  | _ => true

/-- RNT's job that opens a packet received on association `a` (R173, R177): what it leaves, and whether its checks agree. -/
def opened (s : State) (h : RxHdr) (a : Nat) (p : Payload) : Dev × Bool :=
  let d := s.dev.pfcSend h
  (d.report h.checks).gcmJob 4 (linkSlot a h.kph false) (p.wire d.fragRoom).length

/-- A sealed packet verifies on association `a` (R266, R269, R276, R277, R296): its sender is the peer of `a`, the association is not DOWN, the
frame is not filtered, of the running epoch and under a key that is held, the job that opens it succeeds, its ICV is that of its bytes under
the key of its slot, and its TXSEQ is fresh. -/
def verifies (s : State) (h : RxHdr) (a : Nat) (p : Payload) : Prop :=
  s.dev.rxAssoc h.src = some a ∧ s.dev.filters h p = false ∧ (s.dev.assoc a).state ≠ 0 ∧ h.aepoch = (s.dev.assoc a).aepoch ∧
    (if h.kph then (s.dev.assoc a).phase1 else (s.dev.assoc a).phase0) = true ∧ (opened s h a p).2 = true ∧
    h.icv = (opened s h a p).1.rxIcv a h p ∧ (s.dev.assoc a).fresh h = true

/-- The device once the packet has verified on `a`: opened, a PAUSE sent where one is due, its TXSEQ noted, an association in HELLO become UP,
and in REKEY the first packet of the new phase setting the end of the old one (R269, R276, R277, R300). -/
def heard (s : State) (h : RxHdr) (a : Nat) (p : Payload) : Dev :=
  let x := s.dev.assoc a
  let y : Assoc := { x.note h with lastRx := s.dev.clock }
  let late := x.state == 3 && x.rekeySent.isNone && h.kph == x.kph && x.retire.isNone
  let d := (opened s h a p).1.setAssoc a (if late then { y with retire := some (s.dev.clock + fclkMs) } else y)
  if x.state = 1 then d.assocBecomesUp a else d

/-- The connection once it knows its initial PSN (CID 0 learns it from the first packet's UNA, R278). -/
def started (c : Conn) (h : RxHdr) : Conn := if c.expOpen then { c with exp := h.una, expOpen := false } else c

/-- The packet verifies, and its turn has come on connection `c` of its CID: open, its context on chip, the PSN the expected one or, on a
relaxed connection, one in the window that is not yet executed nor held back by a FENCE (R278, R284, R292). -/
def inTurn (s : State) (h : RxHdr) (a : Nat) (c : Conn) (p : Payload) : Prop :=
  verifies s h a p ∧ (heard s h a p).conn a h.cid = some c ∧ c.state ≠ 2 ∧ c.cached = true ∧ h.badOp = false ∧
    psnDist (started c h).exp h.psn < c.window ∧
    (if c.relaxed then (started c h).executed.has h.psn = false ∧ (h.fence && psnDist (started c h).exp h.psn != 0) = false ∧
        (started c h).fenceBefore h.psn = false
      else psnDist (started c h).exp h.psn = 0)

/-- The device as the packet is executed: its connection has noted it and its congestion mark (R268, R288, R298). -/
def taken (s : State) (h : RxHdr) (a : Nat) (c : Conn) (p : Payload) : Dev :=
  let d := heard s h a p
  let c := started c h
  let marked := h.ce || (d.bit Reg.CCC.CFG.RX_MARK && decide (d.get Reg.CCC.RX_KMIN.KIB < h.buffer))
  let c : Conn := { c with used := d.clock, pktCnt := c.pktCnt + 1, lastTs := h.ts,
                           refusals := c.refusals.filter fun q _ => !(q != h.una && decide (psnDist q h.una < 2 ^ 31)) }
  if marked then (d.setConn a h.cid { c with ceCnt := c.ceCnt + 1 }).count Reg.CCC.CE_RX.COUNT Reg.CCC.CE_RX.SAT 1 (Ev.plain 0x1E4)
  else d.setConn a h.cid c

/-- The device `v` that an execution on `d` left, with the packet's PSN passed, and acknowledged where it is due: at once for AR, a FENCE and a
filled gap, after ACK.COAL_PKTS executions, not yet for `later`; then the packets held behind it, and the waits it ends (R284–R292). -/
def passedWith (d v : Dev) (h : RxHdr) (a : Nat) (c : Conn) (r : RxResult) (fence : Bool) : Dev :=
  let gap := c.relaxed && (started c h).exp == h.psn && !c.executed.list.isEmpty
  let w := match v.conn a h.cid with
    | none => v
    | some k =>
      let m := k.mark h.psn (r == RxResult.later)
      let ok : Conn := { m with unacked := m.unacked + 1, unackedSince := if m.unacked = 0 then d.clock else m.unackedSince }
      let u := v.setConn a h.cid (if r = RxResult.ok then ok else m)
      let due := match r with
        | .ok => h.ar || fence || gap || decide (v.get Reg.TWT.ACK.COAL_PKTS ≤ m.unacked + 1)
        | .answered => h.ar
        | _ => false
      if due then u.sendAck a h.cid else u
  (if c.relaxed then w.runHeld a h.cid 65 else w).revokeAll

/-! ## Signed operations -/

/-- The signed operation that a command of the table brings: its header and its body (R371–R386). -/
def signedOf : Instr → Option (SignedHdr × SignedBody)
  | .takeOwnership h key => some (h, .takeOwnership key)
  | .transfer h key => some (h, .transfer key)
  | .tenantEnrol h t key => some (h, .tenantEnrol t key)
  | .tenantBind h l => some (h, .tenantBind h.cred l)
  | .tenantUnbind h t l => some (h, .tenantUnbind (if h.cred = 0xFFFF then t else h.cred) l)
  | .tenantRemove h t => some (h, .tenantRemove t)
  | .regionShare h n g t a => some (h, .regionShare n g t a)
  | .keyInstall h k e m p => some (h, .keyInstall k (BitVec.ofNat 5 e) m p)
  | .keyRotate h k e m => some (h, .keyRotate k (BitVec.ofNat 5 e) m)
  | .keyRemove h k => some (h, .keyRemove k)
  | .zeroise h c k t => some (h, .zeroise c k t)
  | .secretInstall h k x => some (h, .secretInstall k x)
  | .refereeSet h o m k => some (h, .refereeSet o m k)
  | .fwActivate h t => some (h, .fwActivate t)
  | .logClear h => some (h, .logClear)
  | .debugUnlock h c l => some (h, .debugUnlock c l)
  | _ => none

/-- The operation that a header and a body make. -/
def signedAs (h : SignedHdr) (b : SignedBody) : PendingOp :=
  { op := { device := h.device, cred := h.cred, seq := h.seq, signer := h.signer, body := b, hash8 := h.hash8 }, chan := h.chan }

/-- The operation comes to the warden, `d` being the device as it does: over an SPDM instance with an established session, or by the ring
command that carries it, which may start, on a device that serves, with a well-formed buffer that was read (R304, R373, R405). -/
def reaches (s : State) (h : SignedHdr) (b : SignedBody) (d : Dev) : Prop :=
  (∃ n, h.chan = .spdm n ∧ s.dev.spdmReachable n = true ∧ s.dev.secured n = true ∧ d = s.dev) ∨
    ∃ i x, h.chan = .ring i ∧ s.dev.takenOf i = some x ∧ b.carrier = some x.opcode ∧ s.dev.mayStart i x.opcode b.names = true ∧
      d = s.dev.start i 2 0xFFFF b.names ∧ (x.opcode = 0x29 ∨ d.serves = true) ∧ h.ptr % 4 = 0 ∧ h.dmaAt = none ∧ h.lenOk = true

/-- The device as the pending operation's record is programmed: nothing pending, one record more (R373, R384). -/
def recorded (s : State) : Dev :=
  (s.dev.setIsland fun i => { i with pending := none }).setStore fun k => { k with records := k.records + 1 }

end Sys2Proof
end

