-- ==== Sys2Proof/WellFormed.lean ====
section
/-! DEFINITION. Which operands a command can carry: each number fits the field of the spec that carries it. A meaning is total: it
takes any operand, and one that names nothing has no effect. -/

namespace Sys2Proof

open Machine

/-- A number of `w` bits. -/
def fitsIn (w x : Nat) : Bool := decide (x < 2 ^ w)

/-- A function: an LD, or 64, the management function (R388). -/
def funcOk (f : Nat) : Bool := decide (f ≤ 64)

/-- A DRAM channel (R131). -/
def channelOk (n : Nat) : Bool := decide (n < 12)

/-- An association number (R274). -/
def assocOk (a : Nat) : Bool := decide (a < 48)

/-- An SPDM or DOE instance: a function, MCTP (65), or the FM-owned LD of head H (128 + H) (R86, R368). -/
def instOk (n : Nat) : Bool := decide (n ≤ 65) || (decide (128 ≤ n) && decide (n < 144))

end Sys2Proof

namespace Sys2Proof.Machine

/-- Issuer of a ring command: function, local ring, TAG (R388, R394). -/
def Issuer.wf (i : Issuer) : Bool := funcOk i.func && fitsIn 4 i.ring && fitsIn 16 i.tag

/-- Header fields of a received packet (R268). -/
def RxHdr.wf (h : RxHdr) : Bool := fitsIn 5 h.src && fitsIn 16 h.cid && fitsIn 32 h.psn && fitsIn 32 h.una && fitsIn 5 h.dst &&
  fitsIn 16 h.srcCid && fitsIn 48 h.txSeq && fitsIn 128 h.icv

/-- Signed header (R372). -/
def SignedHdr.wf (h : SignedHdr) : Bool :=
  fitsIn 256 h.device && fitsIn 16 h.cred && fitsIn 64 h.seq && fitsIn 64 h.ptr &&
    match h.chan with | .ring i => i.wf | .spdm n => instOk n

end Sys2Proof.Machine

namespace Sys2Proof

/-- A command whose operands fit their fields. -/
def Instr.wf : Instr → Bool
  | .hostRead h ld hpa tag _ _ _ => fitsIn 4 h && fitsIn 4 ld && fitsIn 52 hpa && fitsIn 16 tag
  | .hostWrite h ld hpa tag _ _ _ _ _ => fitsIn 4 h && fitsIn 4 ld && fitsIn 52 hpa && fitsIn 16 tag
  | .admissionHoldRelease port => fitsIn 2 port
  | .dramReadComplete _ _ _ => true
  | .katComplete _ unit _ _ _ => fitsIn 8 unit
  | .flashReadComplete gran _ _ => fitsIn 34 gran
  | .fillComplete gran => fitsIn 34 gran
  | .lcEvictionWriteback _ => true
  | .globalPersistentFlush h => fitsIn 4 h
  | .headReset h _ => fitsIn 4 h
  | .headLinkUp h _ _ _ _ => fitsIn 4 h
  | .headLinkDown h => fitsIn 4 h
  | .portEnableWrite n => fitsIn 2 n
  | .hdmDecoderCommit gld _ _ base size _ _ _ _ => fitsIn 6 gld && fitsIn 64 base && fitsIn 64 size
  | .ideIntegrityFailure h _ => fitsIn 4 h
  | .ideKmKeyProg h _ _ => fitsIn 4 h
  | .kSetGo h _ _ _ => fitsIn 4 h
  | .doeAbort inst => instOk inst
  | .identifyMemoryDevice gld => fitsIn 6 gld
  | .getPartitionInfo gld => fitsIn 6 gld
  | .getEventRecords gld _ => fitsIn 6 gld
  | .clearEventRecords gld _ _ _ => fitsIn 6 gld
  | .getEventInterruptPolicy gld => fitsIn 6 gld
  | .setEventInterruptPolicy gld _ => fitsIn 6 gld
  | .getSupportedLogs gld => fitsIn 6 gld
  | .getLog gld _ _ _ => fitsIn 6 gld
  | .getHealthInfo gld => fitsIn 6 gld
  | .getShutdownState gld => fitsIn 6 gld
  | .setShutdownState gld _ => fitsIn 6 gld
  | .getPoisonList gld line lines => fitsIn 6 gld && fitsIn 40 line && fitsIn 40 lines
  | .injectPoison gld line => fitsIn 6 gld && fitsIn 40 line
  | .clearPoison gld line _ => fitsIn 6 gld && fitsIn 40 line
  | .getDcConfiguration gld => fitsIn 6 gld
  | .getDcExtentList gld => fitsIn 6 gld
  | .addDcResponse gld _ => fitsIn 6 gld
  | .releaseDc gld dpa len => fitsIn 6 gld && fitsIn 46 dpa && fitsIn 32 len
  | .getTimestamp gld => fitsIn 6 gld
  | .mailboxUnsupported gld _ => fitsIn 6 gld
  | .fmIdentify _ => true
  | .getMultiHeadedInfo _ => true
  | .getHeadInfo _ _ _ => true
  | .getLdInfo _ => true
  | .getLdAllocations _ _ _ => true
  | .setLdAllocations _ _ => true
  | .getQosControl _ => true
  | .setQosControl _ _ _ => true
  | .getQosStatus _ => true
  | .getQosAllocatedBw _ _ _ => true
  | .setQosAllocatedBw _ _ _ => true
  | .getQosBwLimit _ _ _ => true
  | .setQosBwLimit _ _ _ => true
  | .getDcdInfo _ => true
  | .getHostDcRegionConfiguration _ gld => fitsIn 6 gld
  | .setDcRegionConfiguration _ region _ => fitsIn 16 region
  | .getDcRegionExtentLists _ gld => fitsIn 6 gld
  | .initiateDynamicCapacityAdd _ gld region gen tenant => fitsIn 6 gld && fitsIn 16 region && fitsIn 16 gen && fitsIn 16 tenant
  | .initiateDynamicCapacityRelease _ gld region gen tenant _ => fitsIn 6 gld && fitsIn 16 region && fitsIn 16 gen && fitsIn 16 tenant
  | .tunnelManagementCommand _ h _ => fitsIn 4 h
  | .fmApiUnsupported _ _ => true
  | .dcdOfferTimeout gld region => fitsIn 6 gld && fitsIn 12 region
  | .dcdReleaseTimeout gld region => fitsIn 6 gld && fitsIn 12 region
  | .patrolScrubRead n _ _ _ => channelOk n
  | .patrolPromote n => channelOk n
  | .scrubEnableWrite _ => true
  | .deviceCounterLeak n => channelOk n
  | .injArm n => channelOk n
  | .sramInjArm _ _ _ _ => true
  | .sramPowerOnInit => true
  | .channelFillComplete n => channelOk n
  | .channelEnableWrite n _ _ => channelOk n
  | .trainingComplete n _ _ _ _ _ _ _ => channelOk n
  | .refreshDue n rank _ => channelOk n && fitsIn 2 rank
  | .refreshPostponeLimit n rank _ => channelOk n && fitsIn 2 rank
  | .dimmSensorPoll n _ _ _ => channelOk n
  | .dimmEventNAssert n _ _ _ _ => channelOk n
  | .powerDownEntry n pair => channelOk n && fitsIn 2 pair
  | .pageIdleClose n _ => channelOk n
  | .requestAgePromote _ => true
  | .dqsOscillatorPoll n rank _ => channelOk n && fitsIn 2 rank
  | .zqCalibration n rank => channelOk n && fitsIn 2 rank
  | .caParityAlert n _ phase => channelOk n && decide (phase < 1848)
  | .caParityRetryDone n _ _ _ _ _ => channelOk n
  | .rekeySweepStep slot => fitsIn 12 slot
  | .drivePortEnable port _ => fitsIn 3 port
  | .driveInitComplete port _ _ _ _ => fitsIn 3 port
  | .imageCreate => true
  | .imageCreateComplete => true
  | .restoreStart => true
  | .restoreComplete => true
  | .destageStart => true
  | .destageTagWriteDone gran => fitsIn 34 gran
  | .destageComplete gran => fitsIn 34 gran
  | .learningReadComplete gran => fitsIn 34 gran
  | .driveCommandError drive _ gran _ _ _ => fitsIn 3 drive && fitsIn 34 gran
  | .driveCommandTimeout drive => fitsIn 3 drive
  | .driveLinkDown port => fitsIn 3 port
  | .tokenBucketRefill drive => fitsIn 3 drive
  | .rebuildStep drive => fitsIn 3 drive
  | .driveFlushComplete drive => fitsIn 3 drive
  | .ageTick => true
  | .backgroundEviction => true
  | .allocationRetry => true
  | .quotaWrite _ value => fitsIn 32 value
  | .frameMapLineRebuild n k => channelOk n && fitsIn 40 k
  | .channelLossRebuild => true
  | .patternLoad iss engine first count len ptr _ => iss.wf && fitsIn 8 engine && fitsIn 16 first && fitsIn 16 count && fitsIn 32 len && fitsIn 64 ptr
  | .patternStart iss engine prio entry credits _ => iss.wf && fitsIn 8 engine && fitsIn 8 prio && fitsIn 16 entry && fitsIn 16 credits
  | .patternStop iss engine => iss.wf && fitsIn 8 engine
  | .nop engine _ => fitsIn 4 engine
  | .halt engine _ => fitsIn 4 engine
  | .seti engine _ => fitsIn 4 engine
  | .addi engine _ => fitsIn 4 engine
  | .alu engine _ => fitsIn 4 engine
  | .br engine _ => fitsIn 4 engine
  | .loopStitch engine _ => fitsIn 4 engine
  | .tagStitch engine _ => fitsIn 4 engine
  | .dline engine _ => fitsIn 4 engine
  | .rdt engine _ => fitsIn 4 engine
  | .note engine _ => fitsIn 4 engine
  | .fetch engine _ => fitsIn 4 engine
  | .hint engine _ => fitsIn 4 engine
  | .armw engine _ => fitsIn 4 engine
  | .waitdb engine _ => fitsIn 4 engine
  | .waitw engine _ => fitsIn 4 engine
  | .waitt engine _ => fitsIn 4 engine
  | .stitcherDoorbell engine value func => fitsIn 4 engine && fitsIn 32 value && funcOk func
  | .stitcherWake engine => fitsIn 4 engine
  | .stitcherWaitTimeout engine => fitsIn 4 engine
  | .streamGranuleIssue engine => fitsIn 4 engine
  | .qfullRetry engine slot => fitsIn 4 engine && fitsIn 8 slot
  | .stiEnableWrite _ => true
  | .associationOpen assoc => assocOk assoc
  | .hello h nonce idHash _ aepoch mac => h.wf && fitsIn 256 nonce && fitsIn 256 idHash && fitsIn 16 aepoch && fitsIn 128 mac
  | .helloRsp h nonce idHash _ aepoch mac => h.wf && fitsIn 256 nonce && fitsIn 256 idHash && fitsIn 16 aepoch && fitsIn 128 mac
  | .openReq h cid _ _ _ _ prio psn => h.wf && fitsIn 16 cid && fitsIn 3 prio && fitsIn 32 psn
  | .openRsp h cid _ _ _ _ prio psn _ => h.wf && fitsIn 16 cid && fitsIn 3 prio && fitsIn 32 psn
  | .closePkt h cid => h.wf && fitsIn 16 cid
  | .keepalive h => h.wf
  | .keepaliveTimer assoc => assocOk assoc
  | .associationDownTimeout assoc => assocOk assoc
  | .paCfgRekey assoc => assocOk assoc
  | .rekey h nonce => h.wf && fitsIn 256 nonce
  | .oldKeyPhaseRetire assoc => assocOk assoc
  | .laneRec h _ _ => h.wf
  | .cmdFwd h _ _ _ => h.wf
  | .fencePkt h => h.wf
  | .readPkt h _ _ gen _ _ _ tag => h.wf && fitsIn 16 gen && fitsIn 16 tag
  | .readResp h ask _ _ _ _ _ => h.wf && fitsIn 16 ask.gen && fitsIn 16 ask.tag
  | .writePkt h _ _ gen _ _ _ tag _ => h.wf && fitsIn 16 gen && fitsIn 16 tag
  | .ackPkt h psn _ _ _ _ => h.wf && fitsIn 32 psn
  | .nakPkt h psn code _ about _ => h.wf && fitsIn 32 psn && fitsIn 8 code && fitsIn 16 about.2
  | .retransmitTimeout assoc cid psn => assocOk assoc && fitsIn 16 cid && fitsIn 32 psn
  | .rnrRetry assoc cid psn => assocOk assoc && fitsIn 16 cid && fitsIn 32 psn
  | .ackDelayExpiry assoc cid => assocOk assoc && fitsIn 16 cid
  | .rateRecoveryTick assoc cid => assocOk assoc && fitsIn 16 cid
  | .contextRefillDone assoc cid _ => assocOk assoc && fitsIn 16 cid
  | .twinsetPortUp port => fitsIn 3 port
  | .twinsetPortDown port _ => fitsIn 3 port
  | .pfcPause port prio _ => fitsIn 3 port && fitsIn 3 prio
  | .renew h _ => h.wf
  | .acquire h _ => h.wf
  | .detach h _ => h.wf
  | .attach h _ => h.wf
  | .releaseMsg h _ => h.wf
  | .leaseGrant h _ => h.wf
  | .leaseDeny h _ => h.wf
  | .leaseRenewTimer => true
  | .leaseRetryTimer => true
  | .leaseFencePoint => true
  | .drainExpiry => true
  | .detachTimeout _ => true
  | .refereeLapse slot => fitsIn 16 slot
  | .refereeHoldWait slot => fitsIn 16 slot
  | .mirrorCtlDetach iss => iss.wf
  | .mirrorCtlResync iss => iss.wf
  | .resyncStart => true
  | .tableMsg h _ _ _ => h.wf
  | .divrun h _ _ _ => h.wf
  | .resyncCopyStep => true
  | .leaseCtlSwitchover iss => iss.wf
  | .leaseCtlForceAcquire iss => iss.wf
  | .refSend iss ptr answer => iss.wf && fitsIn 64 ptr && (answer.all fun a => fitsIn 128 a.2)
  | .refRecv iss ptr _ => iss.wf && fitsIn 64 ptr
  | .tokenPeriodTimer => true
  | .tokenMsg h _ => h.wf
  | .leaderLostTimeout => true
  | .roundCtlJoin iss => iss.wf
  | .roundCtlLeave iss => iss.wf
  | .roundEnableWrite => true
  | .joinMsg h _ => h.wf
  | .joinRsp h member _ => h.wf && fitsIn 8 member
  | .offerMsg h _ => h.wf
  | .loanRequest h _ => h.wf
  | .loanGrant h loan gen _ => h.wf && fitsIn 16 loan && fitsIn 16 gen
  | .loanRefuse h _ _ => h.wf
  | .reclaim h loan gen => h.wf && fitsIn 16 loan && fitsIn 16 gen
  | .loanReturn h loan gen => h.wf && fitsIn 16 loan && fitsIn 16 gen
  | .loanReclaim => true
  | .loanCtlReclaim iss member loan => iss.wf && fitsIn 8 member && fitsIn 16 loan
  | .loanCtlReturn iss member loan => iss.wf && fitsIn 8 member && fitsIn 16 loan
  | .loanIdleReturn _ => true
  | .neighbourWindowTick => true
  | .nFillTimeout gran => fitsIn 34 gran
  | .boot _ _ => true
  | .bootTimeout _ _ => true
  | .islandExcursion => true
  | .islandReloadComplete => true
  | .bootCtlCommit => true
  | .takeOwnership h _ => h.wf
  | .transfer h _ => h.wf
  | .tenantEnrol h tenant _ => h.wf && fitsIn 16 tenant
  | .tenantBind h _ => h.wf
  | .tenantUnbind h tenant _ => h.wf && fitsIn 16 tenant
  | .tenantRemove h tenant => h.wf && fitsIn 16 tenant
  | .regionShare h region gen tenant access => h.wf && fitsIn 16 region && fitsIn 16 gen && fitsIn 16 tenant && fitsIn 8 access
  | .keyInstall h slot epoch _ _ => h.wf && fitsIn 16 slot && fitsIn 5 epoch
  | .keyRotate h slot epoch _ => h.wf && fitsIn 16 slot && fitsIn 5 epoch
  | .keyRemove h slot => h.wf && fitsIn 16 slot
  | .zeroise h scope slot tenant => h.wf && fitsIn 8 scope && fitsIn 16 slot && fitsIn 16 tenant
  | .secretInstall h slot _ => h.wf && fitsIn 16 slot
  | .refereeSet h _ member _ => h.wf && fitsIn 8 member
  | .fwActivate h _ => h.wf
  | .logClear h => h.wf
  | .debugUnlock h _ level => h.wf && fitsIn 8 level
  | .keyStoreRecordPersisted => true
  | .keyStoreCompaction => true
  | .debugChallenge inst => instOk inst
  | .getWrapCert inst => instOk inst
  | .getVersion inst => instOk inst
  | .getCapabilities inst => instOk inst
  | .negotiateAlgorithms inst _ _ _ _ => instOk inst
  | .getDigests inst => instOk inst
  | .getCertificate inst slot _ len => instOk inst && fitsIn 16 slot && fitsIn 32 len
  | .challenge inst slot nonce => instOk inst && fitsIn 16 slot && fitsIn 256 nonce
  | .getMeasurements inst _ nonce _ => instOk inst && fitsIn 256 nonce
  | .keyExchange inst _ => instOk inst
  | .finish inst _ _ => instOk inst
  | .heartbeat inst _ => instOk inst
  | .keyUpdate inst _ => instOk inst
  | .endSession inst _ => instOk inst
  | .chunkSend inst _ _ len _ => instOk inst && fitsIn 32 len
  | .chunkGet inst _ _ => instOk inst
  | .regionCreate iss tenant slot _ _ _ base size => iss.wf && fitsIn 16 tenant && fitsIn 16 slot && fitsIn 32 base && fitsIn 32 size
  | .regionDestroy iss region gen => iss.wf && fitsIn 16 region && fitsIn 16 gen
  | .regionAttach iss region gen gld => iss.wf && fitsIn 16 region && fitsIn 16 gen && fitsIn 8 gld
  | .regionRevoke iss region gen gld => iss.wf && fitsIn 16 region && fitsIn 16 gen && fitsIn 8 gld
  | .tierHintPromote iss region gen first count => iss.wf && fitsIn 16 region && fitsIn 16 gen && fitsIn 64 first && fitsIn 32 count
  | .tierHintCold iss region gen first count => iss.wf && fitsIn 16 region && fitsIn 16 gen && fitsIn 64 first && fitsIn 32 count
  | .tierHintPin iss region gen first count => iss.wf && fitsIn 16 region && fitsIn 16 gen && fitsIn 64 first && fitsIn 32 count
  | .tierHintUnpin iss region gen first count => iss.wf && fitsIn 16 region && fitsIn 16 gen && fitsIn 64 first && fitsIn 32 count
  | .copyLines iss src srcGen dst dstGen srcOfs dstOfs lines => iss.wf && fitsIn 16 src && fitsIn 16 srcGen && fitsIn 16 dst && fitsIn 16 dstGen && fitsIn 64 srcOfs && fitsIn 64 dstOfs && fitsIn 32 lines
  | .persistFence iss region gen scope => iss.wf && fitsIn 16 region && fitsIn 16 gen && fitsIn 8 scope
  | .eventRead iss max ptr _ => iss.wf && fitsIn 16 max && fitsIn 64 ptr
  | .logRead iss first count len ptr _ => iss.wf && fitsIn 64 first && fitsIn 32 count && fitsIn 32 len && fitsIn 64 ptr
  | .telemetryRead iss page len ptr _ => iss.wf && fitsIn 16 page && fitsIn 32 len && fitsIn 64 ptr
  | .attest iss tenant nonce len ptr _ => iss.wf && fitsIn 16 tenant && fitsIn 256 nonce && fitsIn 32 len && fitsIn 64 ptr
  | .fwStage iss target offset len ptr _ => iss.wf && fitsIn 8 target && fitsIn 32 offset && fitsIn 32 len && fitsIn 64 ptr
  | .invalidOpcode iss => iss.wf
  | .sqTailWrite func ring tail => funcOk func && fitsIn 4 ring && fitsIn 16 tail
  | .descriptorFetch func ring _ => funcOk func && fitsIn 4 ring
  | .cqHeadWrite func ring head => funcOk func && fitsIn 4 ring && fitsIn 16 head
  | .ringEnable func ring => funcOk func && fitsIn 4 ring
  | .ringDisable func ring => funcOk func && fitsIn 4 ring
  | .completionSignalTimer func ring => funcOk func && fitsIn 4 ring
  | .skqPopRead => true
  | .dropPkt => true
  | .skqReset => true
  | .eventReaction => true
  | .intGapExpiry _ vector => fitsIn 11 vector
  | .blockResetComplete _ => true
  | .firstFaultLatchClear c => fitsIn 3 c
  | .pulseToggle => true
  | .pulseRunWrite _ => true
  | .rowRecordArrival => true
  | .rowPageFlushTimer => true
  | .rowProgramDone _ => true
  | .rowEraseDone => true
  | .rowScan => true
  | .pwronAssert => true
  | .pwronDeassert => true
  | .pfailNAssert => true
  | .pfailNDeassert => true
  | .flushLinkDrop => true
  | .flushDone => true
  | .porstNAssert => true
  | .rstCtlChip => true
  | .chipReset => true
  | .seqPgChange slot _ mv => fitsIn 4 slot && fitsIn 16 mv
  | .sequencerStepTimer => true
  | .offWaitExpiry => true
  | .preflightTimeout => true
  | .psqCtlOff => true
  | .psqCtlCycle => true
  | .runningRailFault slot mv => fitsIn 4 slot && fitsIn 16 mv
  | .railGraceExpiry slot => fitsIn 4 slot
  | .vddFuseRequest _ => true
  | .vaonLow => true
  | .vaonReset _ _ => true
  | .xtalStop => true
  | .pllLockLoss _ => true
  | .pllRelock _ => true
  | .rtcxFailure => true
  | .vbatLow => true
  | .refclkLoss _ => true
  | .rtcSet hi => fitsIn 16 hi
  | .rtcSecondRewrite => true
  | .watchdogKick => true
  | .watchdogExpiry => true
  | .thermalSample _ => true
  | .limitEffRecompute => true
  | .flushEstUpdate => true
  | .lockAllWrite value => fitsIn 32 value
  | .counterLoRead func _ _ => instOk func
  | .mboxGo len => fitsIn 32 len
  | .mboxAnswer _ _ => true
  | .irqAck id => fitsIn 10 id
  | .mctpBar0Read off _ => fitsIn 24 off
  | .mctpBar0Write off _ => fitsIn 24 off
  | .registerWrite func _ _ value => instOk func && fitsIn 64 value
  | .cxlLinkError h _ _ => fitsIn 4 h
  | .poisonedTlp h => fitsIn 4 h
  | .fecUncorrectableCodeword port => fitsIn 3 port
  | .pfcPauseLimit port prio => fitsIn 3 port && fitsIn 3 prio
  | .tokenForwardTimeout => true
  | .loanOfferTimer => true
  | .driveLinkUp port _ => fitsIn 3 port
  | .calibrationTrackingUpdate _ _ => true
  | .recoveryImage _ _ _ => true
  | .extestInstructionUpdate _ => true
  | .regionLogRecordProgrammed => true
  | .refereeLogRecordProgrammed slot => fitsIn 16 slot
  | .vioAonOutOfRegulation => true
  | .msixVectorUnmask func _ => funcOk func

end Sys2Proof
end

