-- ==== Sys2Proof/Certificates/Slice0/Obligations.lean ====
section
/-! DEFINITION. The statements for the provers. Where a statement rests on a choice of the model, its comment names the entry of
notes/assumptions. -/

open Sys2Proof Sys2Proof.Machine

/-! ## The queue and the fuses -/

/-- A step of a state with a command at the front of its queue carries out that command with the queue's rest. -/
def Obligations.StepRunsFrontCommand : Prop :=
  ∀ (c : Instr) (s : State), step (s.offer c) = exec c s ∧
    ∀ t, exec c s = .next t → t.pending = s.pending

/-- With an empty queue a step is one FCLK cycle (the model's choice, log entry 2): never a fault, and nothing is taken from or
added to the queue. -/
def Obligations.EmptyQueueLetsTimePass : Prop :=
  ∀ s : State, s.pending = [] → step s = .next (s.did s.dev.tick) ∧ (s.did s.dev.tick).pending = [] ∧
    (s.did s.dev.tick).fuses = s.fuses

/-- A queue of commands is carried out to its end, in as many steps as it has commands, and each step takes exactly the oldest. -/
def Obligations.EveryQueueIsCarriedOut : Prop :=
  ∀ s : State, (∃ t, Host.Core.run core s.pending.length s = .next t ∧ t.pending = []) ∧
    ∀ k, k ≤ s.pending.length → ∃ t, Host.Core.run core k s = .next t ∧ t.pending = s.pending.drop k

/-- What a command does depends on the device, the fuses and the command alone: not on what waits behind it, nor on what has been
sent before, and it adds to what has been sent. -/
def Obligations.CommandsIgnoreTheQueueAndTheLog : Prop :=
  ∀ (c : Instr) (s u : State), s.dev = u.dev → s.fuses = u.fuses →
    ∃ (t : State) (l : List Output), exec c s = .next { t with sent := l ++ s.sent, pending := s.pending } ∧
      exec c u = .next { t with sent := l ++ u.sent, pending := u.pending }

/-- What has been sent stays sent, through any number of steps: only more is sent. -/
def Obligations.SentStaysSent : Prop :=
  ∀ (k : Nat) (s t : State), Host.Core.run core k s = .next t → ∃ l, t.sent = l ++ s.sent

/-- After every step the outputs of the finished command stand in `sent`, none with the device. -/
def Obligations.StepLeavesNoOutputBehind : Prop := ∀ s t : State, step s = .next t → quiet t

/-- Anti-rollback: the fuses never leave their range, no version ever falls, and LIFECYCLE and DBG_OFF never change; they change at
all only in VDD_FUSE_REQUEST with the rail good while a COMMIT has asked for it, and then to the versions of the running image where
those are higher (R361, R362, R453). -/
def Obligations.FuseVersionsNeverFall : Prop :=
  ∀ s t : State, step s = .next t →
    (fuseRange s → fuseRange t) ∧ s.fuses.wsvn ≤ t.fuses.wsvn ∧ s.fuses.asvn ≤ t.fuses.asvn ∧
    t.fuses.lifecycle = s.fuses.lifecycle ∧ t.fuses.dbgOff = s.fuses.dbgOff ∧
    (t.fuses ≠ s.fuses → s.dev.psq.fuse = true ∧ s.pending.head? = some (.vddFuseRequest true) ∧
      t.fuses.wsvn = max s.fuses.wsvn (min 64 s.dev.island.running.wsvn) ∧
      t.fuses.asvn = max s.fuses.asvn (min 64 s.dev.island.running.asvn))

/-- Commands that wait stay well formed: a step takes the oldest and invents none. -/
def Obligations.WaitingCommandsStayWellFormed : Prop :=
  ∀ s t : State, step s = .next t → s.pending.all Instr.wf = true → t.pending.all Instr.wf = true ∧ t.pending = s.pending.tail

/-- Right after the first power nothing waits, nothing has been sent, the clock stands at 0, the device is in role SINGLE with its
power sequencer OFF and no interrupt pending, the fuses lie in their range, and a register field that no write has changed reads its
reset value. -/
def Obligations.ResetLeaves : Prop :=
  State.reset.pending = [] ∧ State.reset.sent = [] ∧ State.reset.dev.clock = 0 ∧ quiet State.reset ∧
    State.reset.dev.get Reg.MIR.ROLE.ROLE = 0 ∧ State.reset.dev.psqState = 0 ∧ State.reset.dev.memWf = true ∧
    fuseRange State.reset ∧ ∀ f : Field, State.reset.dev.get f = f.reset

/-- The table gives the block no words: none spells a command, and offering one changes nothing. -/
def Obligations.NoWordSpellsACommand : Prop :=
  ∀ (s : State) (n w : Nat), decodeTableWord n w = none ∧ s.withFetchWord n w = s

/-! ## The stores -/

/-- DRAM: a line written into a frame reads back, every other line of every frame reads as before, and the store keeps its one canonical
form, in which equal contents are equal data; so does giving frames up. A written line that LC accepts survives a loss of power wherever LC
puts it, and so does a DIRTY line of a frame; a line never written still reads zeros after it (R38, R50, R93, R94, R210). -/
def Obligations.DramLineWriteReadsBack : Prop :=
  ∀ (d : Dev) (fn k : Nat) (l : Ln), k < 64 →
    (d.setFrameLn fn k l).frameLn fn k = l ∧
    (∀ gn j, j < 64 → (gn, j) ≠ (fn, k) → (d.setFrameLn fn k l).frameLn gn j = d.frameLn gn j) ∧
    (d.memWf = true → (d.setFrameLn fn k l).memWf = true ∧ (d.freeFn fn).memWf = true) ∧
    (∀ gn j, j < 64 → (d.freeFn fn).frameLn gn j = if gn = fn then {} else d.frameLn gn j) ∧
    (∀ line, d.poison.has line = false →
      (l.st = .dirty → (d.lcAccept line l).survivesPower line l = true ∧ (d.lcAccept line l).frames = d.frames ∧
        (d.lcAccept line l).poison = d.poison) ∧
      (d.lc.get? line = none → (d.fme (granOf line)).tier = .L → (d.frameLn (d.fme (granOf line)).loc (line % 64)).st = .dirty →
        d.survivesPower line (d.frameLn (d.fme (granOf line)).loc (line % 64)) = true) ∧
      (d.lc.get? line = none → (d.fme (granOf line)).tier ≠ .L → (d.fme (granOf line)).ew = false → d.durableLn line = {}))

/-- A register field holds what hardware writes to it, cut to its width, and the write changes no other field, nothing else of the device.
Raising an event changes registers, ROW, FCO and PSQ alone, and of the registers only ROW's count of lost records; it sends nothing. -/
def Obligations.FieldAndEventFrame : Prop :=
  (∀ (d : Dev) (f g : Field) (v : Nat), (d.set f v).get f = v % 2 ^ f.width ∧
    (g.key ≠ f.key → (d.set f v).get g = d.get g) ∧ { d.set f v with regs := d.regs } = d) ∧
  ∀ (d : Dev) (e : Ev), d.raise e = { d with regs := (d.raise e).regs, row := (d.raise e).row, fco := (d.raise e).fco, psq := (d.raise e).psq } ∧
    ∀ f : Field, f.key ≠ Reg.ROW.LOST.COUNT.key → f.key ≠ Reg.ROW.LOST.SAT.key → (d.raise e).get f = d.get f

/-! ## The LD mailboxes and the Fabric Manager's commands -/

/-- A mailbox command that only reports answers with what the device holds and changes nothing else; GET_POISON_LIST answers the poisoned
lines of a range that lies in attached extents with their source, and the overflow flag, and over any other range it is refused (R87, R499;
opcodes and codes: log entry 9). -/
def Obligations.MailboxReportsAnswer : Prop :=
  ∀ (s : State) (g : Nat), quiet s → s.dev.mboxOn g = true →
    exec (.identifyMemoryDevice g) s = .next (sends s (.mailbox g 0x4000 rcSuccess [2 ^ 46, 0, 0])) ∧
    exec (.getPartitionInfo g) s = .next (sends s (.mailbox g 0x4100 rcSuccess [0, 0, 0, 0])) ∧
    exec (.getEventRecords g 4) s = .next (sends s (.mailbox g 0x0100 rcSuccess ((s.dev.ld g).events.flatMap LdRecord.words))) ∧
    (∀ log, log ≠ 4 → exec (.getEventRecords g log) s = .next (sends s (.mailbox g 0x0100 rcSuccess []))) ∧
    exec (.getEventInterruptPolicy g) s = .next (sends s (.mailbox g 0x0102 rcSuccess [(s.dev.ld g).policy])) ∧
    exec (.getSupportedLogs g) s = .next (sends s (.mailbox g 0x0400 rcSuccess [1, 4 * celOpcodes.length])) ∧
    (∀ first count, exec (.getLog g true first count) s =
      .next (sends s (.mailbox g 0x0401 rcSuccess ((celOpcodes.drop first).take count))) ∧
      exec (.getLog g false first count) s = .next (sends s (.mailbox g 0x0401 rcInvalidLog []))) ∧
    exec (.getHealthInfo g) s = .next (sends s (.mailbox g 0x4200 rcSuccess [s.dev.get Reg.HLD.DSC.COUNT])) ∧
    exec (.getShutdownState g) s = .next (sends s (.mailbox g 0x4203 rcSuccess [(s.dev.ld g).shutdownState])) ∧
    exec (.getDcConfiguration g) s =
      .next (sends s (.mailbox g 0x4800 rcSuccess (8 :: (List.range 8).flatMap fun k => [k * 2 ^ 43, 2 ^ 43, 2 ^ 21]))) ∧
    exec (.getDcExtentList g) s = .next (sends s (.mailbox g 0x4801 rcSuccess (s.dev.extentWords g))) ∧
    exec (.getTimestamp g) s = .next (sends s (.mailbox g 0x0300 rcSuccess [s.dev.calNow])) ∧
    (∀ op, exec (.mailboxUnsupported g op) s = .next (sends s (.mailbox g op rcUnsupported []))) ∧
    (∀ line lines, s.dev.allAttached g line lines = true → exec (.getPoisonList g line lines) s = .next (sends s (.mailbox g 0x4300 rcSuccess
      ((if s.dev.bit Reg.ECS.POISON_IDX.OVF then 1 else 0) ::
        ((s.dev.poison.list.filter fun e => decide (line ≤ e.1) && decide (e.1 < line + lines)).flatMap fun e =>
          [e.1, poisonSource e.2.cls]))))) ∧
    (∀ line lines, s.dev.allAttached g line lines = false →
      exec (.getPoisonList g line lines) s = .next (sends s (.mailbox g 0x4300 rcInvalidPa [])))

/-- A mailbox command that writes changes its field of its LD, and reads back; every other LD and all else stays (R87). -/
def Obligations.MailboxWritesItsLd : Prop :=
  ∀ (s : State) (g : Nat), quiet s → s.dev.mboxOn g = true →
    (∀ p, exec (.setEventInterruptPolicy g p) s = .next (sends (withDev s (s.dev.setLd g { s.dev.ld g with policy := p % 2 ^ 40 }))
      (.mailbox g 0x0103 rcSuccess []))) ∧
    (∀ v, exec (.setShutdownState g v) s = .next (sends (withDev s (s.dev.setLd g { s.dev.ld g with shutdownState := v % 256 }))
      (.mailbox g 0x4204 rcSuccess []))) ∧
    (∀ n all, exec (.clearEventRecords g 4 n all) s =
      .next (sends (withDev s (s.dev.setLd g { s.dev.ld g with events := if all then [] else (s.dev.ld g).events.drop n }))
        (.mailbox g 0x0101 rcSuccess []))) ∧
    (∀ log n all, log ≠ 4 → exec (.clearEventRecords g log n all) s = .next (sends s (.mailbox g 0x0101 rcSuccess []))) ∧
    (∀ l h, ((s.dev.setLd g l).ld g = l) ∧ (h ≠ g → (s.dev.setLd g l).ld h = s.dev.ld h))

/-- A mailbox takes nothing while no head presents its LD or the head's link is down: every mailbox command leaves the machine as it is
(R87; log entry 1). -/
def Obligations.ClosedMailboxTakesNothing : Prop :=
  ∀ (s : State) (g : Nat), quiet s → s.dev.mboxOn g = false →
    ∀ c ∈ [Instr.identifyMemoryDevice g, .getPartitionInfo g, .getEventInterruptPolicy g, .getSupportedLogs g, .getHealthInfo g,
      .getShutdownState g, .getDcConfiguration g, .getDcExtentList g, .getTimestamp g], exec c s = .next s ∧
      ∀ log n a p v first count line lines op (dt : LineData) (x : Option (Nat × Nat)) dpa len,
        ∀ e ∈ [Instr.getEventRecords g log, .clearEventRecords g log n a, .setEventInterruptPolicy g p, .setShutdownState g v,
          .getLog g a first count, .getPoisonList g line lines, .injectPoison g line, .clearPoison g line dt, .addDcResponse g x,
          .releaseDc g dpa len, .mailboxUnsupported g op], exec e s = .next s

/-- INJECT_POISON and CLEAR_POISON of a line in a region attached to the LD: the line becomes POISON with class 5 and an injected mark,
a record is held and a mirrored region's peer is told; the clear is a full-line write of the data given, which arrives as every write
does. A line in no attached region is refused, and nothing else changes (R87; the record's event id: log entry 57). -/
def Obligations.MailboxPoison : Prop :=
  ∀ (s : State) (g line n H : Nat) (r : Region) (data : LineData), quiet s → s.dev.mboxOn g = true → s.dev.headOfGld g = some H →
    (s.dev.regionAt (granOf line) = none → exec (.injectPoison g line) s = .next (sends s (.mailbox g 0x4301 rcInvalidPa [])) ∧
      exec (.clearPoison g line data) s = .next (sends s (.mailbox g 0x4302 rcInvalidPa []))) ∧
    (s.dev.regionAt (granOf line) = some (n, r) → r.attached.contains g = true →
      exec (.injectPoison g line) s = .next (s.did
        (((((s.dev.poisonLine line 5 true).holdRecord (hpRec (H / 4) 7 (line * 64)) false).1.mirrorLine n r line { st := .poison } none).1).send
          (.mailbox g 0x4301 rcSuccess []))) ∧
      exec (.clearPoison g line data) s = .next (s.did (s.dev.arrive
        { head := H, gld := g, tag := 0, line := line, write := some (BitVec.allOnes 64, data)
          epoch := (s.dev.head H).resets, via := .mailbox }))) ∧
    (s.dev.regionAt (granOf line) = some (n, r) → r.attached.contains g = false →
      exec (.injectPoison g line) s = .next (sends s (.mailbox g 0x4301 rcInvalidPa [])) ∧
      exec (.clearPoison g line data) s = .next (sends s (.mailbox g 0x4302 rcInvalidPa [])))

/-- The host's answer to an offer and its release of capacity: an accepted extent is attached, a rejected one drops the offer and
answers whoever offered it, a released one is detached, and an answer that names no open offer or no extent of the LD is refused and changes
nothing; an offer or a release that its host never answers runs out (R79, R80; an accepted offer is not checked again: log entry 57). -/
def Obligations.CapacityChangesHands : Prop :=
  ∀ (s : State) (g n : Nat) (o : Offer) (r : Region), quiet s → s.dev.mboxOn g = true →
    (∀ dpa len, s.dev.offerAt g dpa len = some (n, o) →
      exec (.addDcResponse g (some (dpa, len))) s = .next (s.did ((s.dev.dropOffer g n).attach g n o.issuer 0x4802))) ∧
    (s.dev.oldestOffer g = some (n, o) → exec (.addDcResponse g none) s =
      .next (s.did (((s.dev.dropOffer g n).dcAnswer o.issuer cRejected 0 0 opDcAdd rcInvalidInput).send (.mailbox g 0x4802 rcSuccess [])))) ∧
    (∀ dpa len, (s.dev.regions.list.find? fun e => e.2.base * 2 ^ 21 == dpa && e.2.size * 2 ^ 21 == len) = some (n, r) →
      r.attached.contains g = true →
      exec (.releaseDc g dpa len) s = .next (s.did (s.dev.hostRelease g n [.mailbox g 0x4803]))) ∧
    (∀ dpa len, s.dev.offerAt g dpa len = none →
      exec (.addDcResponse g (some (dpa, len))) s = .next (sends s (.mailbox g 0x4802 rcInvalidInput []))) ∧
    (s.dev.oldestOffer g = none → exec (.addDcResponse g none) s = .next (sends s (.mailbox g 0x4802 rcInvalidInput []))) ∧
    (∀ dpa len, (s.dev.regions.list.find? fun e => e.2.base * 2 ^ 21 == dpa && e.2.size * 2 ^ 21 == len) = none →
      exec (.releaseDc g dpa len) s = .next (sends s (.mailbox g 0x4803 rcInvalidInput []))) ∧
    ((s.dev.ld g).offers.get? n = some o → o.issuer = .fm → ∃ t, exec (.dcdOfferTimeout g n) s = .next t ∧
      t.dev.clock = max s.dev.clock (o.opened + s.dev.dcdTimeout g) ∧ t.sent = .fm opDcAdd 5 [] :: s.sent ∧
      (t.dev.ld g).offers.get? n = none) ∧
    (∀ p, (s.dev.ld g).releases.get? n = some p →
      exec (.dcdReleaseTimeout g n) s = .next (s.did ((s.dev.at (p.opened + s.dev.dcdTimeout g)).releaseTimeout g n)))

/-- A Fabric Manager command that only reports answers with what the device holds and changes nothing else (R88; opcodes: log entry 9). -/
def Obligations.FmReportsAnswer : Prop :=
  ∀ (s : State) (src : Nat), quiet s → s.dev.fmOn src = true →
    exec (.fmIdentify src) s = .next (sends s (.fm 0x0001 rcSuccess
      [s.dev.get Reg.GLB.ID.PART, s.dev.get Reg.GLB.ID.STEP, s.dev.wide Reg.GLB.SERIAL_LO.SERIAL Reg.GLB.SERIAL_HI.SERIAL])) ∧
    exec (.getMultiHeadedInfo src) s =
      .next (sends s (.fm 0x5500 rcSuccess (64 :: 16 :: (List.range 64).map fun g => (s.dev.headOfGld g).getD 255))) ∧
    (∀ first count, exec (.getHeadInfo src first count) s = .next (sends s (.fm 0x5501 rcSuccess
      (((List.range' first count).filter (· < 16)).flatMap fun H => [H, s.dev.maxWidth (H / 4),
        s.dev.get (Reg.HP.LINK_STS.WIDTH (H / 4) (H % 4)), s.dev.get (Reg.HP.LINK_STS.RATE (H / 4) (H % 4)), s.dev.ldCnt H])))) ∧
    exec (.getLdInfo src) s = .next (sends s (.fm 0x5400 rcSuccess [2 ^ 46, 64])) ∧
    (∀ first count, let lds := (List.range' first count).filter (· < 64)
      exec (.getLdAllocations src first count) s = .next (sends s (.fm 0x5401 rcSuccess (lds.flatMap fun g => [g, 0, 2 ^ 46]))) ∧
      exec (.getQosAllocatedBw src first count) s = .next (sends s (.fm 0x5406 rcSuccess (lds.flatMap fun g => [g, (s.dev.ld g).qosAlloc]))) ∧
      exec (.getQosBwLimit src first count) s = .next (sends s (.fm 0x5408 rcSuccess (lds.flatMap fun g => [g, (s.dev.ld g).qosLimit])))) ∧
    exec (.getQosControl src) s = .next (sends s (.fm 0x5403 rcSuccess [s.dev.loadLow, s.dev.loadHigh])) ∧
    exec (.getQosStatus src) s = .next (sends s (.fm 0x5405 rcSuccess ((List.range 16).map s.dev.devLoad))) ∧
    exec (.getDcdInfo src) s = .next (sends s (.fm 0x5600 rcSuccess [64, 8, 2 ^ 46, 2 ^ 21, 512])) ∧
    (∀ g, exec (.getHostDcRegionConfiguration src g) s =
      .next (sends s (.fm 0x5601 rcSuccess (g :: 8 :: (List.range 8).flatMap fun k => [k * 2 ^ 43, 2 ^ 43, 2 ^ 21]))) ∧
      exec (.getDcRegionExtentLists src g) s = .next (sends s (.fm 0x5603 rcSuccess (s.dev.extentWords g))))

/-- A Fabric Manager command that changes something is logged, has its effect and answers success; with an operand out of range it is
answered "invalid input", raises the port's event and changes nothing else (R75, R77, R88, R89). -/
def Obligations.FmChangesAnswer : Prop :=
  ∀ (s : State) (src : Nat), quiet s → s.dev.fmOn src = true →
    (∀ low high, low ≤ high → high ≤ 100 → ∃ t, exec (.setQosControl src low high) s = .next t ∧ t.dev.loadLow = low ∧
      t.dev.loadHigh = high ∧ t.sent = .fm 0x5404 rcSuccess [] :: s.sent ∧ t.dev.lds = s.dev.lds ∧ t.dev.frames = s.dev.frames) ∧
    (∀ low high, (high < low ∨ 100 < high) → ∃ t, exec (.setQosControl src low high) s = .next t ∧ fmRefused s t 0x5404 rcInvalidInput) ∧
    (∀ first bw, first + bw.length ≤ 64 → (∀ x ∈ bw, x < 256) → ∃ t u, exec (.setQosAllocatedBw src first bw) s = .next t ∧
      exec (.setQosBwLimit src first bw) s = .next u ∧
      (∀ g, (t.dev.ld g).qosAlloc = (if first ≤ g ∧ g < first + bw.length then bw.getD (g - first) 0 else (s.dev.ld g).qosAlloc) ∧
        (u.dev.ld g).qosLimit = (if first ≤ g ∧ g < first + bw.length then bw.getD (g - first) 0 else (s.dev.ld g).qosLimit) ∧
        (t.dev.ld g).offers = (s.dev.ld g).offers ∧ (u.dev.ld g).offers = (s.dev.ld g).offers) ∧
      t.sent = .fm 0x5407 rcSuccess [] :: s.sent ∧ u.sent = .fm 0x5409 rcSuccess [] :: s.sent) ∧
    (∀ first bw, (64 < first + bw.length ∨ ∃ x ∈ bw, 256 ≤ x) → ∃ t u, exec (.setQosAllocatedBw src first bw) s = .next t ∧
      exec (.setQosBwLimit src first bw) s = .next u ∧ fmRefused s t 0x5407 rcInvalidInput ∧ fmRefused s u 0x5409 rcInvalidInput) ∧
    (∀ req, (∀ x ∈ req, x.1 < 64 ∧ x.2.1 = 0 ∧ x.2.2 = 2 ^ 46) → ∃ t, exec (.setLdAllocations src req) s = .next t ∧
      t.sent = .fm 0x5402 rcSuccess [] :: s.sent ∧ t.dev.lds = s.dev.lds) ∧
    (∀ req, (∃ x ∈ req, ¬ (x.1 < 64 ∧ x.2.1 = 0 ∧ x.2.2 = 2 ^ 46)) → ∃ t, exec (.setLdAllocations src req) s = .next t ∧
      fmRefused s t 0x5402 rcInvalidInput) ∧
    (∀ k, k < 8 → ∃ t, exec (.setDcRegionConfiguration src k (2 ^ 21)) s = .next t ∧ t.sent = .fm 0x5602 rcSuccess [] :: s.sent ∧
      t.dev.lds = s.dev.lds) ∧
    (∀ k b, (8 ≤ k ∨ b ≠ 2 ^ 21) → ∃ t, exec (.setDcRegionConfiguration src k b) s = .next t ∧ fmRefused s t 0x5602 rcInvalidInput)

/-- Through the Fabric Manager: a region is offered to an LD, asked back from one, a command is tunnelled to an LD of a head that presents
several, and an opcode the device does not support is answered so; a tag that names no region, or an LD that does not hold it, is refused as
"invalid input", a release already under way as "busy" (R79, R80, R88, R89). -/
def Obligations.FmMovesCapacityAndTunnels : Prop :=
  ∀ (s : State) (src g n : Nat) (r : Region), quiet s → s.dev.fmOn src = true →
    (s.dev.regions.get? n = some r → g < 64 → s.dev.offerFault g n r = none →
      exec (.initiateDynamicCapacityAdd src g n r.gen r.tenant) s =
        .next (s.did ((s.dev.fmRecord src opDcAdd).openOffer g n r .fm))) ∧
    (∀ forced, s.dev.regions.get? n = some r → r.attached.contains g = true → (s.dev.ld g).releases.has n = false →
      exec (.initiateDynamicCapacityRelease src g n r.gen r.tenant forced) s =
        .next (s.did ((s.dev.fmRecord src opDcRelease).askRelease g n forced false .fm))) ∧
    (∀ gen tenant forced, s.dev.tagged n gen tenant = none → ∃ t u, exec (.initiateDynamicCapacityAdd src g n gen tenant) s = .next t ∧
      exec (.initiateDynamicCapacityRelease src g n gen tenant forced) s = .next u ∧
      fmRefused s t opDcAdd rcInvalidInput ∧ fmRefused s u opDcRelease rcInvalidInput) ∧
    (∀ forced, s.dev.regions.get? n = some r → r.attached.contains g = true → (s.dev.ld g).releases.has n = true → ∃ t,
      exec (.initiateDynamicCapacityRelease src g n r.gen r.tenant forced) s = .next t ∧ fmRefused s t opDcRelease rcBusy) ∧
    (∀ h inner, h < 16 → s.dev.headOn h = true → 2 ≤ s.dev.ldCnt h →
      exec (.tunnelManagementCommand src h inner) s = .next (sends s (.fm 0x5300 rcSuccess [h, inner]))) ∧
    (∀ h inner, (16 ≤ h ∨ s.dev.ldCnt h < 2) → ∃ t, exec (.tunnelManagementCommand src h inner) s = .next t ∧
      fmRefused s t 0x5300 rcInvalidInput) ∧
    (∀ op, ∃ t, exec (.fmApiUnsupported src op) s = .next t ∧ fmRefused s t op rcUnsupported)

/-! ## The Stitcher -/

/-- SETI, ADDI, ALU and RDT write their destination register with the value R247 gives them and go on at the next stitch; no other
register, no other engine, no memory changes, whether or not pattern memory corrected the word. -/
def Obligations.StitchWritesItsRegister : Prop :=
  ∀ (s : State) (e ecc : Nat) (w : BitVec 64), quiet s → ecc ≠ 2 →
    (atStitch s e 0x02 w → ∃ t, exec (.seti e ecc) s = .next t ∧ movedOnly s t e ∧ goesOn s t e (s.dev.engPc e + 1) ∧
      wroteReg s t e (stD w) (BitVec.ofNat 64 (fieldOf w 47 0))) ∧
    (atStitch s e 0x03 w → ∃ t, exec (.addi e ecc) s = .next t ∧ movedOnly s t e ∧ goesOn s t e (s.dev.engPc e + 1) ∧
      wroteReg s t e (stD w) (s.dev.reg e (stS w) + (w.extractLsb' 0 32).signExtend 64)) ∧
    (atStitch s e 0x04 w → ∃ t, exec (.alu e ecc) s = .next t ∧ movedOnly s t e ∧ goesOn s t e (s.dev.engPc e + 1) ∧
      wroteReg s t e (stD w) (aluFn (fieldOf w 48 46) (s.dev.reg e (stS w)) (s.dev.reg e (stT w)))) ∧
    (atStitch s e 0x09 w → ∃ t, exec (.rdt e ecc) s = .next t ∧ movedOnly s t e ∧ goesOn s t e (s.dev.engPc e + 1) ∧
      wroteReg s t e (stD w) (BitVec.ofNat 64 s.dev.tnow))

/-- NOP goes on at the next stitch; BR at its target when its condition holds and at the next stitch otherwise; LOOP takes one from its
register and branches while that is not zero; HALT stops the engine with reason 1. Whatever the stitch, an engine that its last one still
occupies comes to it at the clock at which it is free, and then it acts as at that clock (R245, R247). -/
def Obligations.StitchSteersItsEngine : Prop :=
  ∀ (s : State) (e ecc : Nat) (w : BitVec 64), quiet s → ecc ≠ 2 →
    (atStitch s e 0x00 w → ∃ t, exec (.nop e ecc) s = .next t ∧ movedOnly s t e ∧ goesOn s t e (s.dev.engPc e + 1) ∧ keptRegs s t e) ∧
    (atStitch s e 0x01 w → ∃ t, exec (.halt e ecc) s = .next t ∧ movedOnly s t e ∧ keptRegs s t e ∧ t.dev.engState e = 6 ∧
      t.dev.get (Reg.ENG.STS.STOP_REASON e) = 1 ∧ (t.dev.engine e).streams = .empty ∧ (t.dev.engine e).fifo = []) ∧
    (atStitch s e 0x05 w → ∃ t, exec (.br e ecc) s = .next t ∧ movedOnly s t e ∧ keptRegs s t e ∧ goesOn s t e
      (if brTaken (fieldOf w 57 55) (s.dev.reg e (stS w))
          (if fieldOf w 48 48 = 1 then BitVec.ofNat 64 (fieldOf w 47 16) else s.dev.reg e (stT w))
        then fieldOf w 9 0 else s.dev.engPc e + 1)) ∧
    (atStitch s e 0x06 w → ∃ t, exec (.loopStitch e ecc) s = .next t ∧ movedOnly s t e ∧
      wroteReg s t e (stS w) (s.dev.reg e (stS w) - 1) ∧
      goesOn s t e (if s.dev.reg e (stS w) = 1 then s.dev.engPc e + 1 else fieldOf w 9 0)) ∧
    (∀ op, comesTo s e op w → s.dev.clock < (s.dev.engine e).ready → ∀ c ∈ stitchesOf e ecc, c.1 = op →
      exec c.2 s = exec c.2 (withDev s { s.dev with clock := (s.dev.engine e).ready }) ∧
      atStitch (withDev s { s.dev with clock := (s.dev.engine e).ready }) e op w)

/-- TAG, DLINE and NOTE write LT, DL and NOTE.VALUE with the values R247 gives and go on at the next stitch; NOTE with EV = 1 raises
EV 0x184 of its engine first; no general register changes. -/
def Obligations.StitchWritesTagDeadlineNote : Prop :=
  ∀ (s : State) (e ecc : Nat) (w : BitVec 64), quiet s → ecc ≠ 2 →
    (atStitch s e 0x07 w → ∃ t, exec (.tagStitch e ecc) s = .next t ∧ movedOnly s t e ∧ goesOn s t e (s.dev.engPc e + 1) ∧
      keptRegs s t e ∧ t.dev.get (Reg.ENG.LTAG.LT e) = ((s.dev.reg e (stS w)).toNat + fieldOf w 15 0) % 65536) ∧
    (atStitch s e 0x08 w → ∃ t, exec (.dline e ecc) s = .next t ∧ movedOnly s t e ∧ goesOn s t e (s.dev.engPc e + 1) ∧
      keptRegs s t e ∧ t.dev.get (Reg.ENG.DL.DL e) = ((match fieldOf w 57 56 with
        | 0 => s.dev.tnow
        | 1 => s.dev.get (Reg.ENG.DL.DL e)
        | _ => (s.dev.reg e (stS w)).toNat % 2 ^ 32) + fieldOf w 31 0) % 2 ^ 32) ∧
    (atStitch s e 0x0A w → ∃ t, exec (.note e ecc) s = .next t ∧ movedOnly s t e ∧ goesOn s t e (s.dev.engPc e + 1) ∧
      keptRegs s t e ∧ t.dev.get (Reg.ENG.NOTE.VALUE e) = fieldOf w 31 0)

/-- The waits: WAITDB takes the oldest doorbell value or waits, WAITW the lowest fired watch of its mask or waits, WAITT goes on once TNOW
has reached its register in a 2^31 window and waits until then otherwise. Waiting moves neither PC nor any general register
(R256–R258). -/
def Obligations.StitchWaits : Prop :=
  ∀ (s : State) (e ecc : Nat) (w : BitVec 64), quiet s → ecc ≠ 2 →
    (atStitch s e 0x0E w → (∀ v rest, (s.dev.engine e).fifo = v :: rest → ∃ t, exec (.waitdb e ecc) s = .next t ∧ movedOnly s t e ∧
        goesOn s t e (s.dev.engPc e + 1) ∧ wroteReg s t e (stD w) (BitVec.ofNat 64 v) ∧
        (s.dev.engPc e + 1 < s.dev.engLen e → (t.dev.engine e).fifo = rest)) ∧
      ((s.dev.engine e).fifo = [] → ∃ t, exec (.waitdb e ecc) s = .next t ∧ movedOnly s t e ∧ keptRegs s t e ∧
        t.dev.engState e = 3 ∧ t.dev.engPc e = s.dev.engPc e)) ∧
    (atStitch s e 0x0F w → (∀ k v, k < 8 → (fieldOf w 47 40).testBit k = true → (s.dev.engine e).watches.get? k = some v → v.fired = true →
        (∀ j, j < k → (fieldOf w 47 40).testBit j = true → ∀ u, (s.dev.engine e).watches.get? j = some u → u.fired = false) →
        ∃ t, exec (.waitw e ecc) s = .next t ∧ movedOnly s t e ∧ goesOn s t e (s.dev.engPc e + 1) ∧
          wroteReg s t e (stD w) (BitVec.ofNat 64 k)) ∧
      ((∀ j, j < 8 → (fieldOf w 47 40).testBit j = true → ∀ u, (s.dev.engine e).watches.get? j = some u → u.fired = false) →
        ∃ t, exec (.waitw e ecc) s = .next t ∧ movedOnly s t e ∧ keptRegs s t e ∧ t.dev.engState e = 4 ∧
          t.dev.engPc e = s.dev.engPc e)) ∧
    (atStitch s e 0x10 w → (atOrAfter 32 s.dev.tnow ((s.dev.reg e (stS w)).toNat % 2 ^ 32) = true →
        ∃ t, exec (.waitt e ecc) s = .next t ∧ movedOnly s t e ∧ keptRegs s t e ∧ goesOn s t e (s.dev.engPc e + 1)) ∧
      (atOrAfter 32 s.dev.tnow ((s.dev.reg e (stS w)).toNat % 2 ^ 32) = false →
        ∃ t, exec (.waitt e ecc) s = .next t ∧ movedOnly s t e ∧ keptRegs s t e ∧ t.dev.engState e = 5 ∧
          t.dev.engPc e = s.dev.engPc e ∧ (t.dev.engine e).waitTarget = (s.dev.reg e (stS w)).toNat % 2 ^ 32))

/-- An uncorrectable word of pattern memory stops the engine with reason 3, in FAULT, before its stitch has any effect, whatever the
stitch (R245, R249). -/
def Obligations.UncorrectableWordFaults : Prop :=
  ∀ (s : State) (e op : Nat) (w : BitVec 64), quiet s → atStitch s e op w → ∀ c ∈ stitchesOf e 2, c.1 = op →
    ∃ t, exec c.2 s = .next t ∧ movedOnly s t e ∧ keptRegs s t e ∧ t.dev.engState e = 7 ∧
      t.dev.get (Reg.ENG.STS.STOP_REASON e) = 3 ∧ (t.dev.engine e).streams = .empty ∧ (t.dev.engine e).fifo = []

/-- FETCH and HINT (`makes`) over a region their engine may use make a stream in the lowest free slot, clipped at the region's end and with the
engine's LT and DL, and go on; with no slot free they wait, and nothing moves; over any other region they make none and go on. ARMW arms
its watch over the clipped range. STREAM_GRANULE_ISSUE and QFULL_RETRY (`issues`) issue a granule: over a region that is no longer
ACTIVE its stream ends; one never written is skipped, one in L
whole needs no fill, one being filled joins that fill and takes a credit, and without a credit it waits
(R250–R252, R255, R257, *FETCH outcome per granule*). -/
def Obligations.StitchStreams : Prop :=
  ∀ (s : State) (e ecc : Nat) (w : BitVec 64) (r : Region) (c : Instr) (k : Nat) (x : Stream), quiet s → ecc ≠ 2 →
    (makes s e ecc w r c x → usable s e (fieldOf w 51 40) r →
      (freeSlotOf (s.dev.engine e) = some k → ∃ t, exec c s = .next t ∧ movedOnly s t e ∧ goesOn s t e (s.dev.engPc e + 1) ∧ keptRegs s t e ∧
        (s.dev.engPc e + 1 < s.dev.engLen e → (t.dev.engine e).streams =
          if x.next < x.stop then (s.dev.engine e).streams.put k x else (s.dev.engine e).streams)) ∧
      (freeSlotOf (s.dev.engine e) = none → ∃ t, exec c s = .next t ∧ movedOnly s t e ∧ keptRegs s t e ∧ t.dev.engState e = 2 ∧
        t.dev.engPc e = s.dev.engPc e ∧ (t.dev.engine e).streams = (s.dev.engine e).streams)) ∧
    (((∀ r, ¬ usable s e (fieldOf w 51 40) r) ∧
        (makes s e ecc w r c x ∨ (c = .armw e ecc ∧ atStitch s e 0x0D w)) → ∃ t, exec c s = .next t ∧ movedOnly s t e ∧
        goesOn s t e (s.dev.engPc e + 1) ∧ keptRegs s t e ∧
        (s.dev.engPc e + 1 < s.dev.engLen e → (t.dev.engine e).streams = (s.dev.engine e).streams))) ∧
    (atStitch s e 0x0D w → usable s e (fieldOf w 51 40) r → ∃ t, exec (.armw e ecc) s = .next t ∧
      movedOnly s t e ∧ goesOn s t e (s.dev.engPc e + 1) ∧ keptRegs s t e ∧
      (s.dev.engPc e + 1 < s.dev.engLen e → ∃ v, (t.dev.engine e).watches.get? (fieldOf w 57 55) = some v ∧ v.armed = true ∧
        v.fired = false ∧ v.region = fieldOf w 51 40 ∧ v.gen = r.gen ∧
        v.first = r.base * 512 + min (s.dev.reg e (stS w)).toNat (r.size * 512) ∧
        v.stop = r.base * 512 + min ((s.dev.reg e (stS w)).toNat + fieldOf w 39 20) (r.size * 512))) ∧
    (issues s e k x c →
      ((∀ r, s.dev.regions.get? x.region = some r → r.draining = true ∨ r.gen ≠ x.gen) → ∃ t, exec c s = .next t ∧ keptRegs s t e ∧
        (t.dev.engine e).streams = (s.dev.engine e).streams.del k ∧ t.dev.fills = s.dev.fills ∧ t.dev.fm = s.dev.fm) ∧
      (s.dev.regions.get? x.region = some r → r.draining = false → r.gen = x.gen → x.act = none →
        ((s.dev.fme x.next).ew = false → (s.dev.fme x.next).tier = .F → (s.dev.fme x.next).pin = false → x.pin = false →
          ∃ t, exec c s = .next t ∧ keptRegs s t e ∧ t.dev.fills = s.dev.fills ∧ t.dev.fm = s.dev.fm ∧
            (t.dev.engine e).streams = passed (s.dev.engine e).streams k x) ∧
        ((s.dev.fme x.next).tier = .L → x.pin = false →
          (∀ j, j < 64 → (s.dev.frameLn (s.dev.fme x.next).loc j).st ≠ .absent) →
          ∃ t, exec c s = .next t ∧ keptRegs s t e ∧ t.dev.fills = s.dev.fills ∧ t.dev.frames = s.dev.frames ∧
            (t.dev.engine e).streams = passed (s.dev.engine e).streams k x) ∧
        ((s.dev.fme x.next).ew = true → (s.dev.fme x.next).tier = .F ∨ (s.dev.fme x.next).tier = .N →
          (s.dev.get (Reg.ENG.CTL.CREDITS e) ≤ s.dev.outst e → ∃ t, exec c s = .next t ∧ keptRegs s t e ∧ t.dev.fills = s.dev.fills ∧
            (t.dev.engine e).streams.get? k = some x) ∧
          (∀ f, s.dev.outst e < s.dev.get (Reg.ENG.CTL.CREDITS e) → s.dev.fills.get? x.next = some f → x.pin = false →
            ∃ t g, exec c s = .next t ∧ keptRegs s t e ∧ (t.dev.engine e).streams = passed (s.dev.engine e).streams k x ∧
              t.dev.fills.get? x.next = some g ∧ g.waiters = f.waiters ∧
              ∃ y : StiGran, g.sti = f.sti ++ [y] ∧ y.engine = e ∧ y.slot = k ∧ y.stream = x.id ∧ y.dl = x.dl))))

/-- What ends a wait: a doorbell value for an engine in WAIT_DB, a fired watch in WAIT_WATCH, 6 FCLK after the admission that fired it, TNOW's
target in WAIT_TIME; and the time-out, which gives 0x10000 in WAIT_DB and 8 in WAIT_WATCH. A value for a running engine enters its queue, and
a 17th is lost (R256–R258). -/
def Obligations.WaitsEnd : Prop :=
  ∀ (s : State) (e : Nat), quiet s → e < 16 →
    (∀ v, s.dev.engState e = 3 → (s.dev.engine e).fifo = [] → ∃ t, exec (.stitcherDoorbell e v 64) s = .next t ∧ movedOnly s t e ∧
      wroteReg s t e (s.dev.engine e).waitReg (BitVec.ofNat 64 (v % 65536)) ∧ goesOn s t e (s.dev.engPc e + 1)) ∧
    (∀ v, s.dev.engState e = 2 → (s.dev.engine e).fifo.length < 16 → ∃ t, exec (.stitcherDoorbell e v 64) s = .next t ∧ movedOnly s t e ∧
      keptRegs s t e ∧ (t.dev.engine e).fifo = (s.dev.engine e).fifo ++ [v % 65536] ∧ t.dev.engState e = 2) ∧
    (∀ v, s.dev.engState e = 2 → 16 ≤ (s.dev.engine e).fifo.length → ∃ t, exec (.stitcherDoorbell e v 64) s = .next t ∧ movedOnly s t e ∧
      t.dev.engine e = s.dev.engine e ∧ t.dev.get (Reg.ENG.DB_STS.OVF e) = 1) ∧
    (s.dev.engState e = 5 → ∃ t, exec (.stitcherWake e) s = .next t ∧ movedLater s t e ∧ goesOn s t e (s.dev.engPc e + 1) ∧
      keptRegs s t e) ∧
    (∀ k v, s.dev.engState e = 4 → (s.dev.engine e).watches.get? k = some v → v.fired = true → k < 8 →
      (s.dev.engine e).waitMask = 2 ^ k → ∃ t, exec (.stitcherWake e) s = .next t ∧ movedLater s t e ∧
        t.dev.clock = max s.dev.clock (v.at_ + 6) ∧
        wroteReg s t e (s.dev.engine e).waitReg (BitVec.ofNat 64 k) ∧ goesOn s t e (s.dev.engPc e + 1)) ∧
    ((s.dev.engine e).waitTimeout ≠ 0 → s.dev.engState e = 3 → ∃ t, exec (.stitcherWaitTimeout e) s = .next t ∧ movedLater s t e ∧
      wroteReg s t e (s.dev.engine e).waitReg 0x10000 ∧ goesOn s t e (s.dev.engPc e + 1)) ∧
    ((s.dev.engine e).waitTimeout ≠ 0 → s.dev.engState e = 4 →
      (∀ k v, k < 8 → (s.dev.engine e).waitMask.testBit k = true → (s.dev.engine e).watches.get? k = some v → v.fired = false) →
      ∃ t, exec (.stitcherWaitTimeout e) s = .next t ∧ movedLater s t e ∧
      wroteReg s t e (s.dev.engine e).waitReg 8 ∧ goesOn s t e (s.dev.engPc e + 1))

/-! ## The command rings -/

/-- Completing a command writes one entry with its TAG, the SQ head, STATUS, DETAIL, the two results and the ring's phase, and the command
leaves the ring's list; nothing else of the device changes but rings, registers, ROW, FCO and PSQ (R395, R396). -/
def Obligations.CompletionIsWritten : Prop :=
  ∀ (s : State) (i : Issuer) (status detail r0 r1 addr : Nat), quiet s → writesFor s i →
    onlyAnswered s (s.did (s.dev.completeAt i status detail r0 r1 addr)) ∧
    (∃ l e, (s.did (s.dev.completeAt i status detail r0 r1 addr)).sent = l ++ s.sent ∧ .completion i.func i.ring e ∈ l ∧
      e.tag = i.tag ∧ e.status = status ∧ e.detail = detail ∧ e.result0 = r0 ∧ e.result1 = r1 ∧
      e.sqHead = (s.dev.ring i.func i.ring).sqHead ∧ e.phase = (s.dev.ring i.func i.ring).phase) ∧
    ((s.did (s.dev.completeAt i status detail r0 r1 addr)).dev.ring i.func i.ring).taken.length + 1 =
      (s.dev.ring i.func i.ring).taken.length

/-- A descriptor whose opcode is not in the table completes with INVALID_OPCODE, and has no other effect. A command that may not start yet
(an older one of its ring or of what it names is in its way, or its fence waits) changes nothing; one on regions completes with NOT_ACTIVE on
a device that does not serve (R304, R396, R399, R400). -/
def Obligations.UnknownOpcodeIsRefused : Prop :=
  ∀ (s : State) (i : Issuer), quiet s →
    (∀ x, s.dev.takenOf i = some x → descFields x.opcode = none →
      (mayRun s i x.opcode [] → ∃ t, exec (.invalidOpcode i) s = .next t ∧ onlyAnswered s t ∧ completedWith s t i cInvalidOpcode 0) ∧
      (s.dev.mayStart i x.opcode [] = false → exec (.invalidOpcode i) s = .next s)) ∧
    ((∀ x, s.dev.takenOf i = some x → descFields x.opcode ≠ none) → exec (.invalidOpcode i) s = .next s) ∧
    ∀ c op res, ringOf c = some (i, op, res) →
      (s.dev.mayStart i op res = false → exec c s = .next s) ∧
      (op ≤ 0x12 → s.dev.serves = false → refusedAs s c i op res cNotActive 0)

/-- Commands of the management function, issued by an LD, complete with NOT_PERMITTED and have no other effect (R402). -/
def Obligations.ManagementCommandsNeedTheManagementFunction : Prop :=
  ∀ (s : State) (i : Issuer), quiet s → i.func ≠ 64 → ∀ max ptr ok first count len page target offset content m loan,
    (∀ c ∈ [(Instr.mirrorCtlDetach i, 0x28, []), (.mirrorCtlResync i, 0x28, []), (.leaseCtlSwitchover i, 0x29, []),
      (.leaseCtlForceAcquire i, 0x29, []), (.roundCtlJoin i, 0x2A, []), (.roundCtlLeave i, 0x2A, []), (.loanCtlReclaim i m loan, 0x2B, []),
      (.loanCtlReturn i m loan, 0x2B, []), (.eventRead i max ptr ok, 0x20, []),
      (.fwStage i target offset len ptr content, 0x30, [resTarget target])],
      refusedAs s c.1 i c.2.1 c.2.2 cNotPermitted 0) ∧
    (s.dev.rowState ≠ 0 → refusedAs s (.logRead i first count len ptr ok) i 0x21 [resLog] cNotPermitted 0) ∧
    (page / 64 ≠ 0x00 → page / 64 ≠ 0x28 → page / 64 ≠ 0x1B → refusedAs s (.telemetryRead i page len ptr ok) i 0x23 [] cNotPermitted 0)

/-- The region a command names is checked in the order of R400: number, existence, authority, generation. A command that fails a check
completes with that check's code and has no other effect. A region that passes is still refused: destroying while attached, attaching outside
the LDs or where no offer can be made, revoking what is not attached or already asked for, a hint outside the region or its count. A creation,
a copy and a fence are refused for their own operands (R79, R231, R401, R404). -/
def Obligations.RegionChecksDecideInOrder : Prop :=
  ∀ (s : State) (i : Issuer) (n gen code detail : Nat), quiet s → s.dev.serves = true →
    (s.dev.regionFault i n gen = some (code, detail) ↔
      (4095 < n ∧ code = cInvalidField ∧ detail = 20) ∨
      (n ≤ 4095 ∧ s.dev.regions.get? n = none ∧ code = cState ∧ detail = 0) ∨
      (n ≤ 4095 ∧ ∃ r, s.dev.regions.get? n = some r ∧ s.dev.mayOwn i r.tenant = false ∧ code = cNotPermitted ∧ detail = 0) ∨
      (n ≤ 4095 ∧ ∃ r, s.dev.regions.get? n = some r ∧ s.dev.mayOwn i r.tenant = true ∧ r.gen ≠ gen ∧ code = cStaleGen ∧ detail = 0)) ∧
    (s.dev.regionFault i n gen = some (code, detail) → ∀ c op, (c, op) ∈ [(Instr.regionDestroy i n gen, 0x02),
        (.tierHintPromote i n gen 0 1, 0x10), (.tierHintCold i n gen 0 1, 0x10), (.tierHintPin i n gen 0 1, 0x10),
        (.tierHintUnpin i n gen 0 1, 0x10)] → mayRun s i op [resRegion n] →
      ∃ t, exec c s = .next t ∧ onlyAnswered s t ∧ completedWith s t i code detail) ∧
    (∀ r g first count, s.dev.regions.get? n = some r → n ≤ 4095 → s.dev.mayOwn i r.tenant = true → r.gen = gen →
      (r.attached ≠ [] → refusedAs s (.regionDestroy i n gen) i 0x02 [resRegion n] cState 0) ∧
      (63 < g → refusedAs s (.regionAttach i n gen g) i 0x03 [resRegion n] cInvalidField 24) ∧
      (g ≤ 63 → ∀ k, s.dev.offerFault g n r = some k → refusedAs s (.regionAttach i n gen g) i 0x03 [resRegion n]
        (if k = 1 then cNoResource else if k = 2 then cState else cNotPermitted) 0) ∧
      (63 < g → g ≠ 0xFF → refusedAs s (.regionRevoke i n gen g) i 0x04 [resRegion n] cInvalidField 24) ∧
      (g ≤ 63 → r.attached.contains g = false → refusedAs s (.regionRevoke i n gen g) i 0x04 [resRegion n] cState 0) ∧
      (g ≤ 63 → r.attached.contains g = true → (s.dev.ld g).releases.has n = true →
        refusedAs s (.regionRevoke i n gen g) i 0x04 [resRegion n] cBusy 0) ∧
      ∀ c ∈ [Instr.tierHintPromote i n gen first count, .tierHintCold i n gen first count, .tierHintPin i n gen first count,
          .tierHintUnpin i n gen first count],
        (r.size * 512 ≤ first → refusedAs s c i 0x10 [resRegion n] cInvalidField 32) ∧
        (first < r.size * 512 → count = 0 ∨ 2 ^ 24 < count → refusedAs s c i 0x10 [resRegion n] cInvalidField 40)) ∧
    (∀ tenant slot twin mirror policy base size, let refused := refusedAs s (.regionCreate i tenant slot twin mirror policy base size) i 0x01 [resSlot slot]
      let named := if i.func = 64 then tenant ≤ 1023 else tenant = 0
      let fits := s.dev.slotMayServe (if i.func = 64 then tenant else (s.dev.tenantOf i).getD 0) (if slot = 0xFFFF then none else some slot)
      let kinds := (twin && !mirror || policy.testBit 3 || policy.testBit 0 && slot == 0xFFFF) = false
      let room := 0 < size ∧ base + size ≤ 2 ^ 25
      let free := (s.dev.regions.list.any fun e => decide (base < e.2.base + e.2.size) && decide (e.2.base < base + size)) = false
      (¬ named → refused cInvalidField 20) ∧
      (named → fits = false → refused cNotPermitted 0) ∧
      (named → fits = true → ¬ kinds → refused cInvalidField 24) ∧
      (named → fits = true → kinds → ¬ room → refused cInvalidField 32) ∧
      (named → fits = true → kinds → room → ¬ free → refused cInvalidField 28) ∧
      (named → fits = true → kinds → room → free → 4096 ≤ s.dev.regions.firstFree → refused cNoResource 0)) ∧
    (∀ src sg so do' lines, let refused := refusedAs s (.copyLines i src sg n gen so do' lines) i 0x11 [resRegion src, resRegion n]
      (∀ c d, s.dev.sourceFault i src sg = some (c, d) → refused c d) ∧
      (s.dev.sourceFault i src sg = none → s.dev.regionFault i n gen = some (code, detail) →
        refused code (if code = cInvalidField then detail + 4 else detail)) ∧
      (∀ a b, s.dev.sourceFault i src sg = none → s.dev.regionFault i n gen = none → s.dev.regions.get? src = some a →
        s.dev.regions.get? n = some b →
        (lines = 0 ∨ 2 ^ 24 < lines → refused cInvalidField 48) ∧
        (0 < lines → lines ≤ 2 ^ 24 → so % 64 ≠ 0 ∨ a.size * 2 ^ 21 < so + lines * 64 → refused cInvalidField 32) ∧
        (0 < lines → lines ≤ 2 ^ 24 → so % 64 = 0 → so + lines * 64 ≤ a.size * 2 ^ 21 →
          do' % 64 ≠ 0 ∨ b.size * 2 ^ 21 < do' + lines * 64 ∨ (src = n ∧ overlaps so do' (lines * 64) = true) → refused cInvalidField 40))) ∧
    (∀ scope, 1 < scope → refusedAs s (.persistFence i n gen scope) i 0x12 [] cInvalidField 24) ∧
    (s.dev.regionFault i n gen = some (code, detail) → refusedAs s (.persistFence i n gen 0) i 0x12 [resRegion n] code detail)

/-- REGION_CREATE that names ack mode TWIN with the mirror flag at 0 creates no region; issued with authority on a device that serves, it
completes with INVALID_FIELD and has no other effect. -/
def Obligations.TwinWithoutMirrorIsRefused : Prop :=
  ∀ (s : State) (i : Issuer) (tenant slot policy base size : Nat), quiet s →
    ∃ t, exec (.regionCreate i tenant slot true false policy base size) s = .next t ∧ t.dev.regions = s.dev.regions ∧
      t.dev.gens = s.dev.gens ∧
      (mayRun s i 0x01 [resSlot slot] → s.dev.serves = true → (if i.func = 64 then tenant ≤ 1023 else tenant = 0) →
        s.dev.slotMayServe (if i.func = 64 then tenant else (s.dev.tenantOf i).getD 0) (if slot = 0xFFFF then none else some slot) = true →
        onlyAnswered s t ∧ completedWith s t i cInvalidField 24)

/-- The region commands, with their region's checks passed: a new region takes the lowest free number and its next generation and waits
for its log record; an unattached one is destroyed once nothing of it is in flight; an attach opens an offer to the host; a revoke starts
the drain; a copy starts every line; a fence waits for the writes in its scope (R47, R79, R404). -/
def Obligations.RegionCommandsTakeEffect : Prop :=
  ∀ (s : State) (i : Issuer) (n : Nat) (r : Region), s.dev.serves = true →
    (∀ tenant base size, s.dev.mayStart i 0x01 [resSlot 0xFFFF] = true → i.func = 64 → tenant ≤ 1023 → 0 < size → base + size ≤ 2 ^ 25 →
      (s.dev.regions.list.any fun e => decide (base < e.2.base + e.2.size) && decide (e.2.base < base + size)) = false →
      s.dev.regions.firstFree < 4096 → ∃ t new, exec (.regionCreate i tenant 0xFFFF false false 0 base size) s = .next t ∧
        t.dev.regions = s.dev.regions.put s.dev.regions.firstFree new ∧ new.base = base ∧ new.size = size ∧ new.tenant = tenant ∧
        new.slot = none ∧ new.twin = false ∧ new.mirror = false ∧ new.gen = (s.dev.gens.getD s.dev.regions.firstFree 0 + 1) % 65536 ∧
        t.dev.frames = s.dev.frames ∧ t.dev.logWait.length = s.dev.logWait.length + 1) ∧
    (s.dev.regions.get? n = some r → n ≤ 4095 → s.dev.mayOwn i r.tenant = true →
      (s.dev.mayStart i 0x02 [resRegion n] = true → r.attached = [] → exec (.regionDestroy i n r.gen) s = .next (s.did
        (let d := s.dev.start i 0 n [resRegion n]; ({ d with destroys := d.destroys.put n { issuer := i, gen := r.gen } } : Dev).destroyCheck))) ∧
      (∀ g, g ≤ 63 → s.dev.mayStart i 0x03 [resRegion n] = true → (s.dev.start i 0 n [resRegion n]).offerFault g n r = none →
        exec (.regionAttach i n r.gen g) s = .next (s.did ((s.dev.start i 0 n [resRegion n]).openOffer g n r (.ring i)))) ∧
      (s.dev.mayStart i 0x04 [resRegion n] = true →
        exec (.regionRevoke i n r.gen 0xFF) s = .next (s.did ((s.dev.start i 0 n [resRegion n]).revokeWhole i n r))) ∧
      (∀ g, g ≤ 63 → s.dev.mayStart i 0x04 [resRegion n] = true → r.attached.contains g = true → (s.dev.ld g).releases.has n = false →
        exec (.regionRevoke i n r.gen g) s = .next (s.did (let d := s.dev.start i 0 n [resRegion n]
          ({ d with revokes := d.revokes.put n { gld := some g, issuer := i } } : Dev).askRelease g n true false .revoke)))) ∧
    (∀ src sg dst dg so do' lines, s.dev.mayStart i 0x11 [resRegion src, resRegion dst] = true →
      exec (.copyLines i src sg dst dg so do' lines) s =
        .next (s.did ((s.dev.start i 0 dst [resRegion src, resRegion dst]).copyStart i src sg dst dg so do' lines))) ∧
    (s.dev.mayStart i 0x12 [] = true → ∀ scope gen, scope = 1 → exec (.persistFence i n gen scope) s =
      .next (s.did ((s.dev.start i 0 0xFFFF []).persistFence i n gen scope)))

/-- TIER_HINT on an owned region with a run in range: PROMOTE queues its fills, COLD ages, PIN pins until a quota stops it, UNPIN
unpins, and each answers the number of granules acted on (R229, R231). -/
def Obligations.TierHintsActOnTheirRun : Prop :=
  ∀ (s : State) (i : Issuer) (n first count : Nat) (r : Region), s.dev.serves = true → s.dev.mayStart i 0x10 [resRegion n] = true →
    n ≤ 4095 → s.dev.regions.get? n = some r → s.dev.mayOwn i r.tenant = true → first < r.size * 512 → 0 < count → count ≤ 2 ^ 24 →
    let d := s.dev.start i 0 n [resRegion n]
    let a := r.base * 512 + first
    let m := min count (r.size * 512 - first)
    (∀ x, d.takenOf i = some x → exec (.tierHintPromote i n r.gen first count) s = .next (s.did
      (({ d with hints := d.hints.put x.order { issuer := i, next := a, stop := a + m } } : Dev).hintPump))) ∧
    exec (.tierHintCold i n r.gen first count) s = .next (s.did
      (let x := (List.range m).foldl (fun (x : Dev × Nat) k => let y := x.1.cold (a + k); (y.1, if y.2 then x.2 + 1 else x.2)) (d, 0)
       x.1.complete i cSuccess 0 x.2 0)) ∧
    exec (.tierHintPin i n r.gen first count) s = .next (s.did
      ((d.pinRun a 0 m).1.complete i (if (d.pinRun a 0 m).2.2 then cSuccess else cQuota) 0 (d.pinRun a 0 m).2.1 0)) ∧
    exec (.tierHintUnpin i n r.gen first count) s = .next (s.did
      (((List.range m).foldl (fun d k => d.unpin (a + k)) d).complete i cSuccess 0
        ((List.range m).filter fun k => (d.fme (a + k)).pin).length 0))

/-- The management function's commands take effect when the state allows: leaving lockstep, resynchronising, switching over, forcing an
acquire, casting on to and off a Round, taking a loan back and giving one back (R316, R330, R332, R345, R347, R351, R353). -/
def Obligations.ManagementCommandsTakeEffect : Prop :=
  ∀ (s : State) (i : Issuer), i.func = 64 →
    (s.dev.mayStart i 0x28 [] = true → let d := s.dev.start i 0 0xFFFF []
      (d.lockstep = true → exec (.mirrorCtlDetach i) s = .next (s.did
        (({ d with mirror := { d.mirror with detachIssuer := some i } } : Dev).startDetach))) ∧
      (d.resyncReady = true → exec (.mirrorCtlResync i) s = .next (s.did (d.startResync.complete i cSuccess 0 3 0)))) ∧
    (s.dev.mayStart i 0x29 [] = true → let d := s.dev.start i 0 0xFFFF []
      (d.lockstep = true → d.mirror.switchover = none → exec (.leaseCtlSwitchover i) s = .next (s.did
        (({ d with mirror := { d.mirror with switchover := some i } } : Dev).switchCheck))) ∧
      (1 < d.role → d.mirror.forceIssuer = none → exec (.leaseCtlForceAcquire i) s = .next (s.did
        (let u := d.raise (mirEv d 0x1FD true d.role none 0 0 none none)
         ({ u with mirror := { u.mirror with forceIssuer := some i } } : Dev).leaseRequest 2 { LeaseMsg.plain 2 with force := true })))) ∧
    (s.dev.mayStart i 0x2A [] = true → let d := s.dev.start i 0 s.dev.me []
      (d.rndState = 0 ∨ d.rndState = 4 → d.round.joining = none → exec (.roundCtlJoin i) s = .next (s.did (d.castOn (some i)))) ∧
      (d.get Reg.RND.TIMEREF.REF_MEMBER ≠ d.me → d.refPairs.vals.any (·.en) = false → d.rndState = 2 →
        exec (.roundCtlLeave i) s = .next (s.did (
          let u := d.reclaimAll
          let v := (u.round.borrow.keys.foldl Dev.returnLoan u).setRndState 3
          ((v.setRnd { v.round with leaving := some i, remove := v.round.remove ||| 2 ^ v.me }).overcommit false).settle)))) ∧
    (∀ m loan, s.dev.mayStart i 0x2B [] = true → m ≤ 31 → loan ≤ 32767 → let d := s.dev.start i 0 loan []
      ((d.lendOf loan).member = some m → exec (.loanCtlReclaim i m loan) s = .next (s.did
        ((((d.reclaimLoan loan true).overcommit false).settle.offerCheck).complete i cSuccess 0 0 0))) ∧
      (∀ e, (d.round.borrow.list.find? fun e => e.1 / 1024 == m && e.2.loan == loan) = some e →
        exec (.loanCtlReturn i m loan) s = .next (s.did ((d.returnLoan e.1).complete i cSuccess 0 0 0))))

/-- Commands with a buffer: EVENT_READ, LOG_READ, TELEMETRY_READ, ATTEST, FW_STAGE and the two halves of the referee's exchange through
the host (R370, R403, R406, R420, R439). -/
def Obligations.BufferCommandsTakeEffect : Prop :=
  ∀ (s : State) (i : Issuer) (ptr : Nat), ptr % 4 = 0 →
    (∀ max, s.dev.mayStart i 0x20 [] = true → i.func = 64 → let r := (s.dev.start i 1 0xFFFF []).popEvents max
      exec (.eventRead i max ptr true) s = .next (s.did (r.1.putBuffer i ptr true r.2 r.2.length 0))) ∧
    (∀ first count len ok, s.dev.rowState ≠ 0 → s.dev.mayStart i 0x21 [resLog] = true → exec (.logRead i first count len ptr ok) s =
      .next (s.did ((s.dev.start i 1 0xFFFF [resLog]).logRead i first count len ptr ok))) ∧
    (∀ page len ok, s.dev.mayStart i 0x23 [] = true → i.func = 64 → 4096 ≤ len → let d := s.dev.start i 1 0xFFFF []
      exec (.telemetryRead i page len ptr ok) s =
        .next (s.did (({ d with fresh := d.fresh + 512 } : Dev).putBuffer i ptr ok (freeWords d 512) 4096 0))) ∧
    (∀ tenant nonce len ok, s.dev.mayStart i 0x24 [] = true → tenant ≤ 1023 → 16384 ≤ len → let d := s.dev.start i 1 0xFFFF []
      exec (.attest i tenant nonce len ptr ok) s = .next (s.did (
        let g := d.aliasSign (d.attestation s.fuses tenant nonce)
        let words := (Config.report (d.attestation s.fuses tenant nonce ++ [g.1])).take 2048
        g.2.putBuffer i ptr ok words (8 * words.length) 0))) ∧
    (∀ offset len m, s.dev.mayStart i 0x30 [resTarget 0] = true → i.func = 64 → 0 < len → len ≤ 2 ^ 20 → offset + len ≤ 32 * 2 ^ 20 →
      let d := s.dev.start i 0 0xFFFF [resTarget 0]
      exec (.fwStage i 0 offset len ptr (some (.image m))) s =
        .next (s.did (({ d with island := { d.island with imageA := m } } : Dev).complete i cSuccess 0 0 0))) ∧
    (s.dev.mayStart i 0x29 [] = true → let d := s.dev.start i 1 0xFFFF []
      exec (.refRecv i ptr true) s = .next (s.did { d with refRecv := d.refRecv ++ [(i, ptr, true)] }) ∧
      ∀ m key, d.island.store.refKey = some key → (exec (.refSend i ptr (some (m, m.tag key 0))) s =
        .next (s.did ((d.leaseAnswer m).complete i cSuccess 0 (d.leaseAnswer m).epoch 0))) ∧
        ∀ tag, tag ≠ m.tag key 0 → exec (.refSend i ptr (some (m, tag))) s = .next (s.did (d.leaseTagFailed.refuseCmd i cSignature 0)))

/-- A buffer command whose PTR is not 4-byte aligned, or whose buffer is too short, completes with INVALID_FIELD at that field and has no
other effect; so does any other command with an operand out of its range, at that operand; a buffer that cannot be read or written gives
DMA; a command whose time has not come gives STATE, BUSY, NOT_ACTIVE or NO_RESOURCE (R242–R244, R246, R316, R330, R332, R345, R347, R351,
R353, R394, R403). -/
def Obligations.MisplacedBuffersAreRefused : Prop :=
  ∀ (s : State) (i : Issuer) (ptr : Nat), quiet s →
    (i.func = 64 → ptr % 4 ≠ 0 →
      (∀ max ok, mayRun s i 0x20 [] → ∃ t, exec (.eventRead i max ptr ok) s = .next t ∧ onlyAnswered s t ∧
        completedWith s t i cInvalidField 8) ∧
      (∀ page len ok, mayRun s i 0x23 [] → 4096 ≤ len → ∃ t, exec (.telemetryRead i page len ptr ok) s = .next t ∧ onlyAnswered s t ∧
        completedWith s t i cInvalidField 8) ∧
      (∀ page len ok, mayRun s i 0x23 [] → len < 4096 → ∃ t, exec (.telemetryRead i page len ptr ok) s = .next t ∧ onlyAnswered s t ∧
        completedWith s t i cInvalidField 16) ∧
      (∀ tenant nonce len ok, mayRun s i 0x24 [] → tenant ≤ 1023 → 16384 ≤ len → ∃ t, exec (.attest i tenant nonce len ptr ok) s = .next t ∧
        onlyAnswered s t ∧ completedWith s t i cInvalidField 8)) ∧
    (∀ tenant nonce len ok, (1023 < tenant → refusedAs s (.attest i tenant nonce len ptr ok) i 0x24 [] cInvalidField 20) ∧
      (tenant ≤ 1023 → len < 16384 → refusedAs s (.attest i tenant nonce len ptr ok) i 0x24 [] cInvalidField 16)) ∧
    (i.func = 64 → ∀ first count len ok, s.dev.rowState ≠ 0 → let refused := refusedAs s (.logRead i first count len ptr ok) i 0x21 [resLog]
      (len < 64 * count → refused cInvalidField 16) ∧ (64 * count ≤ len → ptr % 4 ≠ 0 → refused cInvalidField 8)) ∧
    (∀ first count len ok, s.dev.rowState = 0 → exec (.logRead i first count len ptr ok) s = .next s) ∧
    (i.func = 64 → ∀ max, ptr % 4 = 0 → refusedAs s (.eventRead i max ptr false) i 0x20 [] cDma 0) ∧
    (i.func = 64 → ∀ target offset len content, let refused := refusedAs s (.fwStage i target offset len ptr content) i 0x30 [resTarget target]
      (2 < target → refused cInvalidField 20) ∧
      (target ≤ 2 → len = 0 ∨ 2 ^ 20 < len → refused cInvalidField 16) ∧
      (target ≤ 2 → 0 < len → len ≤ 2 ^ 20 → stageSize target < offset + len → refused cInvalidField 24) ∧
      (target ≤ 2 → 0 < len → len ≤ 2 ^ 20 → offset + len ≤ stageSize target → ptr % 4 ≠ 0 → refused cInvalidField 8) ∧
      (target ≤ 2 → 0 < len → len ≤ 2 ^ 20 → offset + len ≤ stageSize target → ptr % 4 = 0 → content = none → refused cDma 0)) ∧
    (∀ answer ok, ptr % 4 ≠ 0 → refusedAs s (.refSend i ptr answer) i 0x29 [] cInvalidField 8 ∧
      refusedAs s (.refRecv i ptr ok) i 0x29 [] cInvalidField 8) ∧
    (ptr % 4 = 0 → refusedAs s (.refSend i ptr none) i 0x29 [] cDma 0) ∧
    (∀ e first count len words, let refused := refusedAs s (.patternLoad i e first count len ptr words) i 0x18 [resEngine e]
      (15 < e → refused cInvalidField 20) ∧
      (e ≤ 15 → count = 0 ∨ 1024 < count → refused cInvalidField 24) ∧
      (e ≤ 15 → 0 < count → count ≤ 1024 → 1024 < first + count → refused cInvalidField 22) ∧
      (e ≤ 15 → 0 < count → count ≤ 1024 → first + count ≤ 1024 → len ≠ 8 * count → refused cInvalidField 16) ∧
      (e ≤ 15 → 0 < count → count ≤ 1024 → first + count ≤ 1024 → len = 8 * count →
        (ptr % 4 ≠ 0 → refused cInvalidField 8) ∧ (ptr % 4 = 0 → s.dev.engOn e = true → refused cBusy 0) ∧
        (ptr % 4 = 0 → s.dev.engOn e = false → words = none → refused cDma 0))) ∧
    (∀ e prio entry credits g, let refused := refusedAs s (.patternStart i e prio entry credits g) i 0x19 [resEngine e]
      (15 < e → refused cInvalidField 20) ∧ (e ≤ 15 → 3 < prio → refused cInvalidField 21) ∧
      (e ≤ 15 → prio ≤ 3 → credits = 0 ∨ 1024 < credits → refused cInvalidField 24) ∧
      (e ≤ 15 → prio ≤ 3 → 0 < credits → credits ≤ 1024 →
        (s.dev.holdsBinding i e = false → refused cNotPermitted 0) ∧
        (s.dev.holdsBinding i e = true →
          (s.dev.engOn e = true ∨ s.dev.engState e = 0 ∨ s.dev.engLen e = 0 ∨ s.dev.bit Reg.STI.CFG.ENABLE = false → refused cState 0) ∧
          (s.dev.engOn e = false → s.dev.engState e ≠ 0 → s.dev.engLen e ≠ 0 → s.dev.bit Reg.STI.CFG.ENABLE = true →
            (s.dev.mayStitch = false → refused cNotActive 0) ∧
            (s.dev.mayStitch = true → 3072 < s.dev.creditSum + credits → refused cNoResource 0) ∧
            (s.dev.mayStitch = true → s.dev.creditSum + credits ≤ 3072 → ∀ k, k < s.dev.engLen e →
              stitchOk (s.dev.engLen e) ((s.dev.engine e).pattern.getD k 0) = false → refused cInvalidField 0) ∧
            (s.dev.mayStitch = true → s.dev.creditSum + credits ≤ 3072 →
              (∀ k, k < s.dev.engLen e → stitchOk (s.dev.engLen e) ((s.dev.engine e).pattern.getD k 0) = true) →
              s.dev.engLen e ≤ entry → refused cInvalidField 22))))) ∧
    (∀ e, let refused := refusedAs s (.patternStop i e) i 0x1A [resEngine e]
      (15 < e → refused cInvalidField 20) ∧ (e ≤ 15 → s.dev.holdsBinding i e = false → refused cNotPermitted 0) ∧
      (e ≤ 15 → s.dev.holdsBinding i e = true → s.dev.engOn e = false → refused cState 0)) ∧
    (i.func = 64 →
      (s.dev.lockstep = false → refusedAs s (.mirrorCtlDetach i) i 0x28 [] cState 0 ∧
        refusedAs s (.leaseCtlSwitchover i) i 0x29 [] cState 0) ∧
      (s.dev.resyncReady = false → refusedAs s (.mirrorCtlResync i) i 0x28 [] cState 0) ∧
      (s.dev.lockstep = true → s.dev.mirror.switchover ≠ none → refusedAs s (.leaseCtlSwitchover i) i 0x29 [] cBusy 0) ∧
      (s.dev.role ≤ 1 → refusedAs s (.leaseCtlForceAcquire i) i 0x29 [] cState 0) ∧
      (1 < s.dev.role → s.dev.mirror.forceIssuer ≠ none → refusedAs s (.leaseCtlForceAcquire i) i 0x29 [] cBusy 0) ∧
      ((s.dev.rndState ≠ 0 ∧ s.dev.rndState ≠ 4) ∨ s.dev.round.joining ≠ none → refusedAs s (.roundCtlJoin i) i 0x2A [] cState 0) ∧
      (s.dev.get Reg.RND.TIMEREF.REF_MEMBER = s.dev.me ∨ s.dev.refPairs.vals.any (·.en) = true →
        refusedAs s (.roundCtlLeave i) i 0x2A [] cInvalidField 20) ∧
      (s.dev.get Reg.RND.TIMEREF.REF_MEMBER ≠ s.dev.me → s.dev.refPairs.vals.any (·.en) = false → s.dev.rndState ≠ 2 →
        refusedAs s (.roundCtlLeave i) i 0x2A [] cState 0) ∧
      ∀ m loan,
        (31 < m ∨ 32767 < loan → refusedAs s (.loanCtlReclaim i m loan) i 0x2B [] cInvalidField (if 31 < m then 21 else 22) ∧
          refusedAs s (.loanCtlReturn i m loan) i 0x2B [] cInvalidField (if 31 < m then 21 else 22)) ∧
        (m ≤ 31 → loan ≤ 32767 →
          ((s.dev.lendOf loan).member ≠ some m → refusedAs s (.loanCtlReclaim i m loan) i 0x2B [] cState 0) ∧
          ((s.dev.round.borrow.list.find? fun e => e.1 / 1024 == m && e.2.loan == loan) = none →
            refusedAs s (.loanCtlReturn i m loan) i 0x2B [] cState 0)))

/-- A ring pair: enabling a DISABLED one with its bases aligned takes a global ring number and empties both queues; a tail in range moves
the tail; a head in range moves the head; disabling stops a ring that owes no completion and drains one that does; the signal timer signals
what has not been signalled. No other ring changes (R389–R393, R398). -/
def Obligations.RingsRun : Prop :=
  ∀ (s : State) (f r : Nat), quiet s → r < 16 → let x := s.dev.ring f r
    (f ≤ 64 → x.state = 0 → x.sqBase % 4096 = 0 → x.cqBase % 4096 = 0 → s.dev.ringsOf f < s.dev.ringCount f → s.dev.ringPool.isEmpty = false →
      ∃ t, exec (.ringEnable f r) s = .next t ∧ (t.dev.ring f r).state = 1 ∧ (t.dev.ring f r).tail = 0 ∧ (t.dev.ring f r).sqHead = 0 ∧
        (t.dev.ring f r).cqTail = 0 ∧ (t.dev.ring f r).cqHead = 0 ∧ (t.dev.ring f r).phase = true ∧
        ∀ g q, q < 16 → (g, q) ≠ (f, r) → t.dev.ring g q = s.dev.ring g q) ∧
    (∀ n, x.state = 1 → n < 2 ^ x.sqLog2 → exec (.sqTailWrite f r n) s = .next (withDev s (s.dev.setRing f r { x with tail := n }))) ∧
    (∀ n, x.state ≠ 0 → n < 2 ^ x.cqLog2 → exec (.cqHeadWrite f r n) s = .next (withDev s (s.dev.setRing f r { x with cqHead := n }))) ∧
    (x.state ≠ 0 → x.taken = [] → exec (.ringDisable f r) s =
      .next (withDev s (s.dev.setRing f r { x with enable := false, state := 0 }))) ∧
    (x.state ≠ 0 → x.taken ≠ [] → exec (.ringDisable f r) s =
      .next (withDev s (s.dev.setRing f r { x with enable := false, state := 2 }))) ∧
    (x.irqEn = true → x.coalTime ≠ 0 → x.unsignalled ≠ 0 → exec (.completionSignalTimer f r) s =
      .next (s.did ((s.dev.at (x.firstUnsig + x.coalTime * fclkUs)).signalRing f r)))

/-- A descriptor fetch takes no more descriptors than were submitted, than the burst allows and than the completion queue has room for, in
the queue's order; a fetch that fails puts the ring in ERROR (R393). -/
def Obligations.DescriptorFetchTakesWhatFits : Prop :=
  ∀ (s : State) (f r : Nat), quiet s → let x := s.dev.ring f r
    x.state = 1 →
    (∀ l, s.dev.bit Reg.CMD.CFG.ENABLE = true → exec (.descriptorFetch f r (.descs l)) s =
      .next (s.did ((l.take (s.dev.takeRoom x)).foldl (fun d w => d.takeDesc f r w) s.dev))) ∧
    s.dev.takeRoom x ≤ (x.tail + 2 ^ x.sqLog2 - x.sqHead) % 2 ^ x.sqLog2 ∧ s.dev.takeRoom x ≤ s.dev.get Reg.CMD.CFG.BURST ∧
    (∀ a, ∃ t, exec (.descriptorFetch f r (.writeFailed a)) s = .next t ∧ (t.dev.ring f r).state = 3 ∧ (t.dev.ring f r).err = 2 ∧
      (t.dev.ring f r).mute = true ∧ t.dev.frames = s.dev.frames ∧ t.dev.regions = s.dev.regions)

/-- Loading, starting and stopping a pattern, with the engine's binding held and its conditions met (R243, R244, R246); clearing
STI.CFG.ENABLE stops every engine, setting it stops none (R245). -/
def Obligations.PatternCommandsTakeEffect : Prop :=
  ∀ (s : State) (i : Issuer) (e : Nat), e < 16 →
    (∀ first count ptr words, s.dev.mayStart i 0x18 [resEngine e] = true → 0 < count → count ≤ 1024 → first + count ≤ 1024 → ptr % 4 = 0 →
      s.dev.engOn e = false → ∃ d : Dev, exec (.patternLoad i e first count (8 * count) ptr (some words)) s =
        .next (s.did (d.complete i cSuccess 0 0 0)) ∧ d.engState e = 1 ∧ d.engLen e = max (s.dev.engLen e) (first + count) % 2048 ∧
        (∀ k, k < count → (d.engine e).pattern.getD (first + k) 0 = words.getD k 0) ∧ ∀ j, j ≠ e → d.engine j = s.dev.engine j) ∧
    (∀ prio entry credits g, s.dev.mayStart i 0x19 [resEngine e] = true → prio ≤ 3 → 0 < credits → credits ≤ 1024 →
      s.dev.holdsBinding i e = true → s.dev.engState e = 1 → entry < s.dev.engLen e → s.dev.bit Reg.STI.CFG.ENABLE = true →
      s.dev.mayStitch = true → s.dev.creditSum + credits ≤ 3072 →
      (∀ k, k < s.dev.engLen e → stitchOk (s.dev.engLen e) ((s.dev.engine e).pattern.getD k 0) = true) →
      ∃ d : Dev, exec (.patternStart i e prio entry credits g) s = .next (s.did (d.complete i cSuccess 0 0 0)) ∧ d.engState e = 2 ∧
        d.engPc e = entry % 1024 ∧ (∀ k, k < 4 → d.reg e k = g.getD k 0) ∧ (∀ k, 4 ≤ k → d.reg e k = 0) ∧ (d.engine e).fifo = [] ∧
        d.get (Reg.ENG.LTAG.LT e) = 0 ∧ d.get (Reg.ENG.DL.DL e) = s.dev.tnow ∧ ∀ j, j ≠ e → d.engine j = s.dev.engine j) ∧
    (s.dev.mayStart i 0x1A [resEngine e] = true → s.dev.holdsBinding i e = true → s.dev.engOn e = true →
      exec (.patternStop i e) s = .next (s.did (((s.dev.start i 0 e [resEngine e]).engStop e 2).complete i cSuccess 0 2 0))) ∧
    exec (.stiEnableWrite true) s = .next (s.did (s.dev.setBit Reg.STI.CFG.ENABLE true)) ∧
    exec (.stiEnableWrite false) s = .next (s.did ((s.dev.setBit Reg.STI.CFG.ENABLE false).engStopAll 5))

/-! ## The hosts' memory -/

/-- A host's read or write reaches its line as one request: of its LD and DPA line, with the head's reset count and the link's added latency. It
waits on the link while the head has no credit; a read that no decoder covers, or of a region not attached to the LD, answers poison, and
such a write is done and stores nothing; a head whose CXL.mem is not open sends none (R41, R43, R65, R73, R107). -/
def Obligations.HostRequestsReachTheirLine : Prop :=
  ∀ (s : State) (c : Instr) (H ld hpa tag : Nat) (w : Option (BitVec 64 × LineData)) (bad : Bool) (noise : BitVec 640 × BitVec 640) (l : List Check),
    (c = .hostRead H ld hpa tag noise.1 noise.2 l ∧ w = none ∧ bad = false ∨ ∃ be x, c = .hostWrite H ld hpa tag be x bad noise l ∧ w = some (be, x)) →
    let d := s.dev.report l
    let u := (d.headAdd H).2
    (∀ g dpa n r, d.gldOf H ld = some g → d.memOpen H = true → d.noCredit ⟨H, ld, hpa, tag, w, bad, noise⟩ = false → d.hpaToDpa g hpa = some dpa →
      d.serves = true → d.regionAt (granOf (dpa / 64)) = some (n, r) → r.attached.contains g = true → r.home = true ∨ r.mirror = true →
      exec c s = .next (s.did (u.arrive { head := H, gld := g, tag, line := dpa / 64, write := w, poisoned := bad
                                          epoch := (s.dev.head H).resets, lat := (d.headAdd H).1, noise }))) ∧
    (∀ g, d.gldOf H ld = some g → d.memOpen H = true → d.noCredit ⟨H, ld, hpa, tag, w, bad, noise⟩ = true →
      exec c s = .next (s.did { d with linkWait := d.linkWait ++ [⟨H, ld, hpa, tag, w, bad, noise⟩] })) ∧
    (d.gldOf H ld = none ∨ d.memOpen H = false → exec c s = .next (s.did d)) ∧
    (∀ g, quiet s → d.gldOf H ld = some g → d.memOpen H = true → d.noCredit ⟨H, ld, hpa, tag, w, bad, noise⟩ = false →
      (d.hpaToDpa g hpa = none ∨ d.serves = true ∧ ∃ dpa, d.hpaToDpa g hpa = some dpa ∧
        ∀ n r, d.regionAt (granOf (dpa / 64)) = some (n, r) → r.attached.contains g = false) →
      ∃ t x y, exec c s = .next t ∧ t.dev.frames = s.dev.frames ∧ t.dev.lc = s.dev.lc ∧ t.dev.fm = s.dev.fm ∧
        t.sent = (if w.isNone then .readData H g tag none x y else .writeDone H g tag x y) :: s.sent)

/-- A read of a line of a granule whose ever-written bit is 0, not resident, its frame-map line in the cache, returns 64 zero bytes, and no memory,
frame map or medium changes (R39, R41 row 4): for a device that serves, in an attached region whose key is not reloading, with no earlier
request on the line. -/
def Obligations.UnwrittenGranuleReadsZero : Prop :=
  ∀ (s : State) (H ld hpa tag g dpa n : Nat) (r : Region) (noise : BitVec 640 × BitVec 640) (l : List Check), quiet s →
    let d := s.dev.report l
    d.gldOf H ld = some g → d.memOpen H = true → d.noCredit ⟨H, ld, hpa, tag, none, false, noise⟩ = false → d.hpaToDpa g hpa = some dpa →
    d.serves = true → d.regionAt (granOf (dpa / 64)) = some (n, r) → r.attached.contains g = true → r.home = true ∨ r.mirror = true →
    d.lineBusy (dpa / 64) = false → d.memoryLost = false → d.rebuilding (granOf (dpa / 64)) = false → (r.enc && d.reloads) = false →
    d.lc.get? (dpa / 64) = none → d.flips.list = [] → d.fmc.has (granOf (dpa / 64) / 8) = true → d.poison.has (dpa / 64) = false →
    (d.fme (granOf (dpa / 64))).tier = .F → (d.fme (granOf (dpa / 64))).ew = false →
    ∃ t x y, exec (.hostRead H ld hpa tag noise.1 noise.2 l) s = .next t ∧ t.sent = .readData H g tag (some 0) x y :: s.sent ∧
      t.dev.frames = s.dev.frames ∧ t.dev.lc = s.dev.lc ∧ t.dev.fm = s.dev.fm ∧ t.dev.media = s.dev.media ∧ t.dev.poison = s.dev.poison

/-- What goes on in the memory behind a request: a held write passes, a DRAM read and a flash read bring their lines, a fill completes, a
tested lane or core is judged, an evicted line is written back, a flush waits for the writes before it, the age clock advances, frames are
freed, waiting allocations are retried, a quota is set, a frame-map line or a lost channel is rebuilt, and a lender that does not answer
gives way to flash (R26, R43, R48, R55, R94, R178, R219–R236). -/
def Obligations.MemoryGoesOn : Prop :=
  ∀ (s : State), quiet s →
    -- the oldest held write that may pass leaves its queue and is served; while none may, nothing changes
    (∀ p, (takeFirst (fun h => s.dev.mayPass h.req) (s.dev.heldAt p) = none → exec (.admissionHoldRelease p) s = .next s) ∧
      ∀ h rest, takeFirst (fun h => s.dev.mayPass h.req) (s.dev.heldAt p) = some (h, rest) →
        let u : Dev := { s.dev with held := if rest.isEmpty then s.dev.held.del p else s.dev.held.put p rest }
        exec (.admissionHoldRelease p) s = .next (s.did (u.serve h.req).settle) ∧
        (calm s.dev → asked s h.req → h.req.write.isSome = true → s.dev.regionAt (granOf h.req.line) = none →
          ∃ x y, exec (.admissionHoldRelease p) s =
            .next (sends (withDev s u) (.writeDone h.req.head h.req.gld h.req.tag x y)))) ∧
    -- a DRAM read brings its line to its request once it has been issued; without its channel or its region it answers poison
    (calm s.dev → ∀ no noise d, s.dev.reads.get? no = some d →
      (∀ n, d.issued = some n → (s.dev.channel d.chan).retry.has (subOf d.cl) = false →
        let u : Dev := { s.dev.at (fclkAt n) with reads := s.dev.reads.del no }
        (d.what = .background → exec (.dramReadComplete no noise []) s = .next (withDev s u)) ∧
        ∀ q, d.what = .host q → asked s q → q.write = none →
          (s.dev.regionAt (granOf q.line) = none ∨ s.dev.chanUp d.chan = false →
            ∃ x y, exec (.dramReadComplete no noise []) s = .next (sends (withDev s u) (.readData q.head q.gld q.tag none x y))) ∧
          ∀ k r e, s.dev.regionAt (granOf q.line) = some (k, r) → s.dev.chanUp d.chan = true → r.slot = none → r.enc = false →
            u.eccRead d.chan d.cl (d.noise noise) = (u, e) → e.ok = true → e.corrected = false → s.dev.bit Reg.LC.CFG.RD_ALLOC = false →
            d.ln.st ≠ .poison → d.ln.tagged = false → s.dev.flips.list = [] → s.dev.bit Reg.ECS.SRAM_INJ.ARM = false →
            ∃ x y, exec (.dramReadComplete no noise []) s =
              .next (sends (withDev s u) (.readData q.head q.gld q.tag (some (d.ln.data ^^^ e.left)) x y))) ∧
      ((s.dev.channel d.chan).retry.has (subOf d.cl) = true → d.issued.isSome = true →
        ∃ t, exec (.dramReadComplete no noise []) s = .next t ∧ t.dev.reads = s.dev.reads ∧ t.sent = s.sent)) ∧
    (calm s.dev → ∀ no noise, s.dev.reads.get? no = none → exec (.dramReadComplete no noise []) s = .next s) ∧
    -- a read of flash brings the lines of its fill, bit errors and all
    (∀ g flips ns, s.dev.mergeReading g = false →
      ((∀ f, s.dev.fills.get? g = some f → f.src ≠ .F ∨ f.frame = none ∨ f.data.isSome = true) →
        exec (.flashReadComplete g flips ns) s = .next s) ∧
      ∀ f d lba rescue, s.dev.fills.get? g = some f → f.src = .F → f.frame.isSome = true → f.data = none →
        s.dev.flashPlace g = some (d, lba, rescue) → ∀ r l, r = s.dev.flashRead g d lba rescue →
        l = flips.foldl (fun (t : Tab Ln) x => t.upd x.1 fun y => { y with data := y.data ^^^ x.2 }) r.1 →
        exec (.flashReadComplete g flips ns) s = .next (s.did ((s.dev.setFme g { s.dev.fme g with tslot := r.2, tslotKnown := true }).fillData
          g .F l (some r.2) (latFlash + ns * latNs)).settle) ∧
        (calm s.dev → f.waiters = [] → s.dev.regionAt g ≠ none →
          ∃ t, exec (.flashReadComplete g flips ns) s = .next t ∧ t.dev.fills = s.dev.fills.put g { f with data := some l } ∧
            t.dev.frames = s.dev.frames ∧ t.dev.media = s.dev.media ∧ t.sent = s.sent)) ∧
    -- a fill whose data has arrived stands in its frame, and is over
    (∀ g f, s.dev.fills.get? g = some f →
      (f.data = none → exec (.fillComplete g) s = .next s) ∧
      (f.data.isSome = true → exec (.fillComplete g) s =
        .next (s.did (f.sti.foldl (fun d x => d.accountGran g f x) (s.dev.fillDone g)).settle.revokeAll)) ∧
      ∀ l, calm s.dev → s.dev.revokes.list = [] → f.data = some l → f.sti = [] → f.src = .F → (s.dev.fme g).tier = .L →
        s.dev.poison.list = [] → (∀ k, k < 64 → s.dev.mdc.has (((s.dev.fme g).loc * 64 + k) / 2) = true) → (∀ k, k < 64 → (l.getD k { st := .clean }).st ≠ .poison ∧
          ∀ c, s.dev.lc.get? (g * 64 + k) = some c → c.ln.st ≠ .dirty) →
        ∃ t, exec (.fillComplete g) s = .next t ∧ t.dev.fills = s.dev.fills.del g ∧ t.sent = s.sent ∧ t.dev.lc = s.dev.lc ∧
          (∀ k, k < 64 → t.dev.frameLn (s.dev.fme g).loc k = if (s.dev.frameLn (s.dev.fme g).loc k).st = .absent then
            { l.getD k { st := .clean } with st := .clean } else s.dev.frameLn (s.dev.fme g).loc k) ∧
          ∀ fn k, k < 64 → fn ≠ (s.dev.fme g).loc → t.dev.frameLn fn k = s.dev.frameLn fn k) ∧
    -- a self-test ends: a lane or core that fails leaves service
    (∀ core u on last, u < (if core then 24 else 48) → ∀ f c : Field,
      f = (if core then Reg.RNT.KECCAK_FAIL.CORES else if u < 32 then Reg.RNT.LANE_FAIL_LO.LANES else Reg.RNT.LANE_FAIL_HI.LANES) →
      c = (if core then Reg.RNT.STS.KECCAK_OK else Reg.RNT.STS.LANES_OK) → ∀ pass, ∃ t, exec (.katComplete core u pass on last) s = .next t ∧
        t.dev.frames = s.dev.frames ∧ t.dev.island = s.dev.island ∧ t.sent = s.sent ∧
        (pass = true ∨ (s.dev.get f).testBit (u % 32) = true → t.dev.get f = s.dev.get f ∧ t.dev.get c = s.dev.get c) ∧
        (pass = false → (s.dev.get f).testBit (u % 32) = false →
          t.dev.get f = withBit (s.dev.get f) (u % 32) % 2 ^ f.width ∧ t.dev.get c = (s.dev.get c - 1) % 2 ^ c.width) ∧
        (pass = true → on = true → last = true → s.dev.get Reg.RNT.STS.LANES_OK = 48 → s.dev.get Reg.RNT.STS.KECCAK_OK = 24 →
          t.dev.bit Reg.RNT.STS.KAT_DONE = true)) ∧
    -- the least recently used line of an eviction buffer goes to its frame
    (∀ slice, (lruWay (s.dev.lcBuffer slice) = none → exec (.lcEvictionWriteback slice) s = .next s) ∧
      ∀ line c, lruWay (s.dev.lcBuffer slice) = some (line, c) →
        exec (.lcEvictionWriteback slice) s = .next (s.did (s.dev.lcWriteback line).settle) ∧
        (calm s.dev → s.dev.lc.get? line = some c → c.ln.st = .dirty → (s.dev.fme (granOf line)).tier = .L →
          s.dev.queueFull (s.dev.fme (granOf line)).loc (line % 64) = false → s.dev.flips.list = [] →
          s.dev.mdc.has (((s.dev.fme (granOf line)).loc * 64 + line % 64) / 2) = true →
          ∃ t, exec (.lcEvictionWriteback slice) s = .next t ∧ t.dev.lc = s.dev.lc.del line ∧ t.sent = s.sent ∧
            t.dev.frameLn (s.dev.fme (granOf line)).loc (line % 64) = c.ln ∧
            ∀ fn k, k < 64 → (fn, k) ≠ ((s.dev.fme (granOf line)).loc, line % 64) → t.dev.frameLn fn k = s.dev.frameLn fn k)) ∧
    -- a Global Persistent Flush waits for the writes taken before it, then ends: at once where none is open and no twin takes part
    (∀ h, (s.dev.memOpen h = false → exec (.globalPersistentFlush h) s = .next s) ∧
      (s.dev.memOpen h = true → exec (.globalPersistentFlush h) s = .next (s.did
        ({ s.dev with mirror := { s.dev.mirror with gpf := s.dev.mirror.gpf ++ [(h, s.dev.openWrites)] } } : Dev).gpfCheck)) ∧
      (calm s.dev → s.dev.memOpen h = true → s.dev.openWrites = [] → s.dev.lockstep = false →
        ∃ t, exec (.globalPersistentFlush h) s = .next t ∧ t.sent = .gpfDone h :: s.sent ∧ t.dev.frames = s.dev.frames ∧
          t.dev.mirror = s.dev.mirror) ∧
      (calm s.dev → s.dev.memOpen h = true → s.dev.openWrites ≠ [] →
        exec (.globalPersistentFlush h) s = .next (withDev s { s.dev with mirror := { s.dev.mirror with gpf := [(h, s.dev.openWrites)] } }))) ∧
    -- the age clock
    (∃ t, exec .ageTick s = .next t ∧ t.dev.get Reg.TMG.AGE_NOW.NOW = (s.dev.ageNow + 1) % 65536 ∧ t.dev.frames = s.dev.frames ∧
      t.dev.rm = s.dev.rm ∧ t.sent = s.sent ∧ (∀ l c, s.dev.lc.get? l = some c → t.dev.lc.get? l = some { c with touch := false }) ∧
      ∀ g e, s.dev.fm.get? g = some e → t.dev.fm.get? g = some { e with age :=
        if e.tier ≠ .F ∧ 32767 < ((s.dev.ageNow + 1) % 65536 + 65536 - e.age) % 65536 then ((s.dev.ageNow + 1) % 65536 + 32769) % 65536 else e.age }) ∧
    -- frames are freed down to FREE_MIN
    (calm s.dev → s.dev.get Reg.TMG.FREE_MIN.FRAMES ≤ s.dev.freeFrames → exec .backgroundEviction s = .next s) ∧
    (∀ u v n, s.dev.freeFrames < s.dev.get Reg.TMG.FREE_MIN.FRAMES → s.dev.rm.size = n + 1 →
      s.dev.oldest (fun t => decide ((s.dev.quota t).lQuota < s.dev.useL t)) = (u, some v) →
      exec .backgroundEviction s = .next (s.did ((u.evictFrame v.1 v.2).evictBelow n).settle)) ∧
    -- what waits for memory is tried again; with nothing waiting nothing changes
    (exec .allocationRetry s = .next (s.did s.dev.settle) ∧ (calm s.dev → exec .allocationRetry s = .next s)) ∧
    -- a quota
    (∀ which v, which < 4 →
      let x := s.dev.get Reg.TMG.TEN_SEL.TENANT
      let old := s.dev.quota x
      let new := old.write which v
      let bad := old.lQuota < new.lQuota ∧ s.dev.lFrames < s.dev.qsumL - old.lQuota + new.lQuota + 4096 ∨ new.lQuota < new.pinQuota ∨ new.lMax < new.lQuota
      (¬ bad → exec (.quotaWrite which v) s = .next (s.did
        (((({ s.dev with quotas := s.dev.quotas.putD x new {} } : Dev).raise
          (tmgEv 0x17E 255 x 0 (2 ^ 40 - 1) (old.read which) (new.read which) true)).overcommit false).settle))) ∧
      (calm s.dev → ¬ bad → ∃ t, exec (.quotaWrite which v) s = .next t ∧ t.dev.quota x = new ∧ (∀ y, y ≠ x → t.dev.quota y = s.dev.quota y) ∧
        t.dev.frames = s.dev.frames ∧ t.dev.fm = s.dev.fm ∧ t.sent = s.sent) ∧
      (bad → ∃ t, exec (.quotaWrite which v) s = .next t ∧ t.dev.quotas = s.dev.quotas ∧ t.dev.frames = s.dev.frames ∧ t.sent = s.sent)) ∧
    -- a lost line of the frame map
    (∀ n k, s.dev.populated.contains n = false → exec (.frameMapLineRebuild n k) s = .next s) ∧
    (∀ n k line, s.dev.populated.contains n = true → s.dev.fmLineOf n k = line → s.dev.fmc.has line = true → calm s.dev →
      ∃ t, exec (.frameMapLineRebuild n k) s = .next t ∧ t.dev.mapLost = s.dev.mapLost.del line ∧ t.dev.fm = s.dev.fm ∧ t.sent = s.sent) ∧
    (∀ n k line, s.dev.populated.contains n = true → s.dev.fmLineOf n k = line → s.dev.fmc.has line = false → calm s.dev →
      ∃ t, exec (.frameMapLineRebuild n k) s = .next t ∧ t.dev.mapLost = s.dev.mapLost.del line ∧ t.dev.frames = s.dev.frames ∧
        t.dev.rm = s.dev.rm ∧ t.sent = s.sent ∧ (∀ g, g / 8 ≠ line → t.dev.fme g = s.dev.fme g) ∧
        ∀ g, g / 8 = line → (t.dev.fme g).ew = (if s.dev.driveOk (homeSlot s.dev.imageN g) then
            (s.dev.medium (homeSlot s.dev.imageN g)).map.has (homeIndex s.dev.imageN g) else (s.dev.fme g).ew) ∧
          ((t.dev.fme g).tier = .L ↔ ∃ x ∈ s.dev.rm.list, x.2.fstate = .inUse ∧ x.2.owned = true ∧ x.2.gran = g)) ∧
    -- the tables of a lost channel
    (s.dev.bit Reg.TMG.STS.REBUILD = false → exec .channelLossRebuild s = .next s) ∧
    (s.dev.bit Reg.TMG.STS.REBUILD = true → exec .channelLossRebuild s = .next (s.did s.dev.lossRebuild)) ∧
    (calm s.dev → s.dev.bit Reg.TMG.STS.REBUILD = true → s.dev.fmsDone = true → s.dev.mapLost.list = [] → s.dev.rm.list = [] →
      ∃ t, exec .channelLossRebuild s = .next t ∧ t.dev.bit Reg.TMG.STS.REBUILD = false ∧ t.dev.frames = s.dev.frames ∧ t.dev.fm = s.dev.fm ∧
        t.sent = s.sent) ∧
    -- a lender that does not answer
    (∀ g, (∀ f, s.dev.fills.get? g = some f → f.src ≠ .N ∨ f.data.isSome = true ∨ f.frame = none) → exec (.nFillTimeout g) s = .next s) ∧
    (∀ g f, s.dev.fills.get? g = some f → f.src = .N → f.data = none → f.frame.isSome = true → ∀ u v : Dev,
      u = s.dev.at (f.readAt + s.dev.get Reg.RND.N_TMO.N_TIMEOUT_US * fclkUs) →
      v = u.count Reg.RND.N_TIMEOUT.COUNT Reg.RND.N_TIMEOUT.SAT 1 (u.rndPlain 0x20E 255) →
      exec (.nFillTimeout g) s = .next (s.did ((v.raiseFirst (v.rndPlain 0x20D 255)).nFallback g)) ∧
      (calm s.dev → f.waiters = [] → s.dev.mergeReading g = false → s.dev.mergedLines g = none → ∀ p, s.dev.flashPlace g = some p →
        ∃ t, exec (.nFillTimeout g) s = .next t ∧ t.dev.fills = s.dev.fills.put g { f with src := .F, loan := none } ∧
          t.dev.frames = s.dev.frames ∧ (∀ i, f.loan = some i → t.dev.lbm = s.dev.lbm.del i) ∧
          .nvme p.1 .read 1 p.2.1 1 ∈ t.sent))

/-! ## Ports, heads and links -/

/-- A head's link trains to the rate, width and flit mode it reports where it may train and its port allows them, and does nothing otherwise; a link
that is lost, a reset, the start and end of PERST and an IDE failure have their effect on their head, its LDs keep their capacity and memory
is as before; link errors are counted. Enabling a port whose configuration is consistent enables it, and one whose is not does not; an HDM
decoder committed takes the next DPA, one whose values are not allowed shows its error; IDE keys, the switch to a key set, and a DOE abort
(R65–R73, R81–R86). -/
def Obligations.PortsAndHeadsTakeEffect : Prop :=
  (∀ (s : State) (h : Nat), quiet s → h < 16 →
    -- link up
    (∀ rate width flit phy, (s.dev.bit (Reg.HP.PORT_CFG.LANE_REV (h / 4)) = true ∨ lanesReversed phy = false) →
      s.dev.mayTrain h = true → s.dev.linkUp h = false → 1 ≤ rate → rate ≤ maxRate (s.dev.get (Reg.HP.PORT_CFG.MAX_RATE (h / 4))) →
      rate < 8 → width ∈ [1, 2, 4, 8, 16] → width ≤ s.dev.maxWidth (h / 4) →
      ∃ t, exec (.headLinkUp h rate width flit phy) s = .next t ∧ t.dev.get (Reg.HP.LINK_STS.RATE (h / 4) (h % 4)) = rate ∧
        t.dev.get (Reg.HP.LINK_STS.WIDTH (h / 4) (h % 4)) = width ∧ t.dev.get (Reg.HP.LINK_STS.FLIT (h / 4) (h % 4)) =
          (if rate = 6 then (if flit = 2 then 2 else 3) else if 4 ≤ rate then 1 else 0) ∧
        keptMemory s t ∧ t.dev.lds = s.dev.lds ∧ t.sent = s.sent) ∧
    (∀ rate width flit phy, (s.dev.mayTrain h = false ∨ s.dev.linkUp h = true ∨ rate = 0 ∨
        maxRate (s.dev.get (Reg.HP.PORT_CFG.MAX_RATE (h / 4))) < rate ∨ width ∉ [1, 2, 4, 8, 16] ∨ s.dev.maxWidth (h / 4) < width ∨
        s.dev.bit (Reg.HP.PORT_CFG.LANE_REV (h / 4)) = false ∧ lanesReversed phy = true) →
      exec (.headLinkUp h rate width flit phy) s = .next s) ∧
    -- link down
    (unfenced s.dev → s.dev.linkUp h = false → exec (.headLinkDown h) s = .next s) ∧
    (unfenced s.dev → s.dev.linkUp h = true → ∃ t, exec (.headLinkDown h) s = .next t ∧ linkLost s t h ∧ keptMemory s t ∧
      t.dev.lds = s.dev.lds ∧ t.sent = s.sent) ∧
    exec (.headLinkDown h) s = .next (s.did (s.dev.linkDown h 0).gpfCheck) ∧
    -- resets: hot reset, link disable and function-level reset of one head, PERST of a port's heads
    (∀ kind, kind ≠ 0 → kind ≠ 3 → h % 4 < s.dev.headCount (h / 4) →
      exec (.headReset h kind) s = .next (s.did (s.dev.headReset h false).gpfCheck) ∧
      (unfenced s.dev → ∃ t, exec (.headReset h kind) s = .next t ∧ linkLost s t h ∧ keptMemory s t ∧ (t.dev.head h).set0 = {} ∧
        (t.dev.head h).set1 = {} ∧ (4 ≤ s.dev.get Reg.HLD.STATUS.STATE → (t.dev.head h).detect = true) ∧ t.sent = s.sent ∧
        ∀ g, (t.dev.ld g).extents = (s.dev.ld g).extents)) ∧
    (∀ kind, kind ≠ 0 → kind ≠ 3 → s.dev.headCount (h / 4) ≤ h % 4 → exec (.headReset h kind) s = .next s) ∧
    exec (.headReset h 0) s = .next (s.did ((s.dev.headsOf (h / 4)).foldl (fun d H => d.headReset H true) s.dev).gpfCheck) ∧
    (s.dev.get (Reg.HP.PORT_STS.PERST (h / 4)) = 0 → exec (.headReset h 3) s = .next s) ∧
    (s.dev.get (Reg.HP.PORT_STS.PERST (h / 4)) ≠ 0 → s.dev.get Reg.HLD.STATUS.STATE < 4 →
      exec (.headReset h 3) s = .next (withDev s (s.dev.set (Reg.HP.PORT_STS.PERST (h / 4)) 0))) ∧
    (s.dev.get (Reg.HP.PORT_STS.PERST (h / 4)) ≠ 0 → 4 ≤ s.dev.get Reg.HLD.STATUS.STATE →
      ∃ t, exec (.headReset h 3) s = .next t ∧ t.dev.get (Reg.HP.PORT_STS.PERST (h / 4)) = 0 ∧ keptMemory s t ∧ t.sent = s.sent ∧
        ∀ H ∈ s.dev.headsOf (h / 4), (t.dev.head H).detect = true) ∧
    -- IDE and link errors
    (∀ keyset, s.dev.get (Reg.HP.LINK_STS.IDE (h / 4) (h % 4)) = 1 →
      exec (.ideIntegrityFailure h keyset) s = .next (s.did (((((linkErr s.dev h 5).raise (hpRec (h / 4) 4 keyset)).linkDown h 2).dropIde h).gpfCheck)) ∧
      (unfenced s.dev → s.dev.linkUp h = true → ∃ t, exec (.ideIntegrityFailure h keyset) s = .next t ∧ linkLost s t h ∧ keptMemory s t ∧
        t.dev.get (Reg.HP.LINK_STS.IDE (h / 4) (h % 4)) = 2 ∧ (t.dev.head h).set0 = {} ∧ (t.dev.head h).set1 = {} ∧
        t.dev.lds = s.dev.lds ∧ t.sent = s.sent)) ∧
    (∀ keyset, s.dev.get (Reg.HP.LINK_STS.IDE (h / 4) (h % 4)) ≠ 1 → exec (.ideIntegrityFailure h keyset) s = .next s) ∧
    (s.dev.linkUp h = true → ∀ replay,
      let e := linkErr s.dev h
      (∀ u, u = e 0 →
        exec (.cxlLinkError h 0 replay) s = .next (withDev s (if u.get (Reg.HP.ERR.COUNT (h / 4) (h % 4) 0) = u.get (Reg.HP.CE_THRESH.THRESH (h / 4))
          then u.raise (hpEv (h / 4) 9) else u))) ∧
      exec (.cxlLinkError h 1 replay) s = .next (withDev s (if replay then linkErr (e 1) h 3 else e 1)) ∧
      exec (.cxlLinkError h 2 replay) s = .next (withDev s (e 2)) ∧
      exec (.cxlLinkError h 4 replay) s = .next (withDev s (if replay then (linkErr (e 4) h 3).raise (hpEv (h / 4) 14) else e 4)) ∧
      exec (.poisonedTlp h) s = .next (withDev s ((s.dev.setHead h { s.dev.head h with aerPoisoned := true }).raise (hpEv (h / 4) 8)))) ∧
    (∀ kind replay, s.dev.linkUp h = false ∨ kind = 3 ∨ 4 < kind → exec (.cxlLinkError h kind replay) s = .next s) ∧
    (s.dev.linkUp h = false → exec (.poisonedTlp h) s = .next s)) ∧
  ∀ (s : State), quiet s →
    -- enabling a port
    (∀ n, n < 4 → s.dev.bit (Reg.HP.LOCK.LOCK n) = false → s.dev.bit (Reg.HP.PORT_CFG.ENABLE n) = false →
      let ok := disjoint (s.dev.ldRanges n) && (s.dev.ldRanges n).all (fun r => decide (r.2 ≤ 64)) &&
        (List.range 4).all (fun h => decide (h < s.dev.headCount n) || s.dev.ldCnt (4 * n + h) == 0)
      (ok = false → exec (.portEnableWrite n) s = .next (withDev s ((s.dev.setBit (Reg.HP.PORT_STS.CFG_ERR n) true).raise (hpEv n 13)))) ∧
      (ok = true → ∃ t, exec (.portEnableWrite n) s = .next t ∧ t.dev.bit (Reg.HP.PORT_CFG.ENABLE n) = true ∧ keptMemory s t ∧
        t.dev.lds = s.dev.lds ∧ t.dev.heads = s.dev.heads ∧ t.sent = s.sent ∧ (∀ H, s.dev.mgmt = some H → t.dev.mgmt = some H) ∧
        (s.dev.mgmt = none → t.dev.mgmt = ((s.dev.headsOf n).filter fun H => s.dev.bit (Reg.HP.HEAD_CFG.MGMT n (H % 4))).head?))) ∧
    (∀ n, n < 4 → s.dev.bit (Reg.HP.LOCK.LOCK n) = true →
      exec (.portEnableWrite n) s = .next (withDev s (s.dev.discard (Reg.HP.PORT_CFG.ENABLE n).addr 1))) ∧
    (∀ n, n < 4 → s.dev.bit (Reg.HP.LOCK.LOCK n) = false → s.dev.bit (Reg.HP.PORT_CFG.ENABLE n) = true → exec (.portEnableWrite n) s = .next s) ∧
    -- HDM decoders
    (∀ g i H base size ways gran skip lock, g < 64 → i < 8 → s.dev.headOfGld g = some H →
      let l := s.dev.ld g
      let prev := l.decoders.getD (i - 1) {}
      let start := (if i = 0 then 0 else prev.dpaBase + prev.size / prev.ways) + skip
      let ok := decoderOk base size ways gran skip = true ∧ (i = 0 ∨ prev.committed = true) ∧ start + size / ways ≤ 2 ^ 46
      let d : Decoder := { hpaBase := base, size, skip, ways, gran, dpaBase := start }
      ((l.decoders.getD i {}).lock = false → (l.decoders.getD i {}).committed = false →
        (ok → exec (.hdmDecoderCommit g i true base size ways gran skip lock) s =
          .next (withDev s (s.dev.setLd g { l with decoders := l.decoders.put i { d with lock, committed := true } }))) ∧
        (¬ ok → exec (.hdmDecoderCommit g i true base size ways gran skip lock) s =
          .next (withDev s ((s.dev.setLd g { l with decoders := l.decoders.put i { d with error := true } }).raise (hpEv (H / 4) 13))))) ∧
      ((l.decoders.getD i {}).lock = true ∨ (l.decoders.getD i {}).committed = true →
        exec (.hdmDecoderCommit g i true base size ways gran skip lock) s = .next s) ∧
      ((l.decoders.getD i {}).lock = false → exec (.hdmDecoderCommit g i false base size ways gran skip lock) s = .next (withDev s
        (s.dev.setLd g { l with decoders := l.decoders.upd i fun d => { d with committed := false, error := false } }))) ∧
      ((l.decoders.getD i {}).lock = true → exec (.hdmDecoderCommit g i false base size ways gran skip lock) s = .next s)) ∧
    (∀ g i commit base size ways gran skip lock, s.dev.headOfGld g = none →
      exec (.hdmDecoderCommit g i commit base size ways gran skip lock) s = .next s) ∧
    -- IDE keys
    (∀ h set tx key salt, h < 16 → set < 2 → s.dev.headOn h = true → s.dev.secured (s.dev.ideInst h) = true →
      ∃ t, exec (.ideKmKeyProg h set ⟨tx, key, salt⟩) s = .next t ∧
        t.sent = .message (s.dev.ideInst h) 0 [set, if tx then 1 else 0] :: s.sent ∧
        t.dev.island.links.get? (4 * h + (if tx then 2 else 0) + set) = some { key, salt, dir := if tx then 1 else 0 } ∧
        (∀ k : KeySet, k = (if set = 0 then (t.dev.head h).set0 else (t.dev.head h).set1) → if tx then k.tx = true else k.rx = true) ∧
        (if set = 0 then (t.dev.head h).set1 = (s.dev.head h).set1 else (t.dev.head h).set0 = (s.dev.head h).set0) ∧
        keptMemory s t ∧ t.dev.regs = s.dev.regs ∧ t.dev.lds = s.dev.lds) ∧
    (∀ h set k, 16 ≤ h ∨ 2 ≤ set ∨ s.dev.headOn h = false ∨ s.dev.secured (s.dev.ideInst h) = false →
      exec (.ideKmKeyProg h set k) s = .next s) ∧
    (∀ h set cont len, h < 16 → set < 2 → s.dev.linkUp h = true →
      let k := if set = 0 then (s.dev.head h).set0 else (s.dev.head h).set1
      let may := s.dev.bit (if cont then Reg.HP.HEAD_CFG.IDE_CONT_OK (h / 4) (h % 4) else Reg.HP.HEAD_CFG.IDE_SKID_OK (h / 4) (h % 4))
      (k.rx = true → k.tx = true → may = true → 0 < len → len ≤ 5 →
        ∃ t, exec (.kSetGo h set cont len) s = .next t ∧ (t.dev.head h).current = set ∧ (t.dev.head h).epochLen = len ∧
          t.dev.get (Reg.HP.LINK_STS.IDE (h / 4) (h % 4)) = 1 ∧ keptMemory s t ∧ t.dev.lds = s.dev.lds ∧ t.sent = s.sent) ∧
      (k.rx = false ∨ k.tx = false → exec (.kSetGo h set cont len) s = .next (withDev s (s.dev.raise (hpEv (h / 4) 5)))) ∧
      (k.rx = true → k.tx = true → may = false ∨ len = 0 ∨ 5 < len → exec (.kSetGo h set cont len) s = .next s)) ∧
    (∀ h set cont len, s.dev.linkUp h = false → exec (.kSetGo h set cont len) s = .next s) ∧
    -- DOE
    (∀ inst, (∀ H, s.dev.headOfInst inst = some H → exec (.doeAbort inst) s = .next (withDev s
        (({ s.dev with does := s.dev.does.del inst
                       island := { s.dev.island with spdm := s.dev.island.spdm.upd inst fun x => { x with chunkIn := none, chunkOut := none } } } :
          Dev).raise (hpEv (H / 4) 10)))) ∧
      (s.dev.headOfInst inst = none → exec (.doeAbort inst) s = .next s))

/-! ## Error correction, scrub and the DRAM controllers -/

/-- Patrol scrub, leaks, injections, start-up and re-encryption. A patrol read looks at the line it has reached, while SCRUB_EN is set, and the
patrol goes on to the next line or ends its pass; a line that demand scrub queued is looked at on its own; a leak lowers every counter by one
and drops those at zero; an armed SRAM injection flips the next word written to its target, once; a channel's fill puts it in service and its
patrol at its start; a rekey sweep stands still while its rate is 0, goes on granule by granule, fetches what is not in DRAM, and ends when no
granule is left (R114, R117–R129, R171). -/
def Obligations.ScrubAndInjectionTakeEffect : Prop :=
  (∀ (s : State) (n : Nat), quiet s → n < 12 →
    -- patrol
    (∀ extra noise parity, s.dev.chanUp n = false → exec (.patrolScrubRead n extra noise parity) s = .next s) ∧
    (∀ noise parity, s.dev.chanUp n = true → s.dev.bit Reg.ECS.CFG.SCRUB_EN = false → exec (.patrolScrubRead n false noise parity) s = .next s) ∧
    (∀ noise parity, s.dev.chanUp n = true → s.dev.bit Reg.ECS.CFG.SCRUB_EN = true →
      let c := s.dev.channel n
      let u := (s.dev.at (s.dev.patrolDue n)).patrolLine n c.patrol (s.dev.patrolDue n) c.patrolPromoted (lineNoise noise parity)
      (c.patrol + 1 < u.chanLines n → ∃ t, exec (.patrolScrubRead n false noise parity) s = .next t ∧ (t.dev.channel n).patrol = c.patrol + 1 ∧
        (t.dev.channel n).patrolPromoted = false ∧ t.dev.get (Reg.ECSC.SCRUB_POS.GRANULE n) = (c.patrol + 1) / 64 % 2 ^ 27 ∧
        (t.dev.channel n).hist = (u.channel n).hist ∧ t.dev.frames = u.frames ∧ t.dev.errors = u.errors ∧ t.dev.poison = u.poison) ∧
      (u.chanLines n ≤ c.patrol + 1 → ∃ t, exec (.patrolScrubRead n false noise parity) s = .next t ∧ (t.dev.channel n).patrol = 0 ∧
        t.dev.get (Reg.ECSC.SCRUB_STS.PASS_PCT n) = 0 ∧ (t.dev.channel n).passStart = u.clock ∧
        (t.dev.channel n).interval = t.dev.get (Reg.ECSC.SCRUB_CFG.INTERVAL_H n) ∧ (t.dev.channel n).hist = (u.channel n).hist ∧
        t.dev.frames = u.frames ∧ t.dev.errors = u.errors ∧ t.dev.poison = u.poison)) ∧
    (∀ noise parity x rest, s.dev.chanUp n = true → (s.dev.channel n).extra = x :: rest → exec (.patrolScrubRead n true noise parity) s =
      .next (s.did ((s.dev.setChannel n { s.dev.channel n with extra := rest }).patrolLine n x.1 x.2
        (decide (x.2 + s.dev.passSpan n / max 1 (s.dev.chanLines n) ≤ s.dev.clock)) (lineNoise noise parity)))) ∧
    (∀ noise parity, (s.dev.channel n).extra = [] → exec (.patrolScrubRead n true noise parity) s = .next s) ∧
    (s.dev.chanUp n = true → s.dev.bit Reg.ECS.CFG.SCRUB_EN = true → ∃ t, exec (.patrolPromote n) s = .next t ∧
      (t.dev.channel n).patrolPromoted = true ∧ t.dev.frames = s.dev.frames ∧ t.dev.regs = s.dev.regs ∧ t.sent = s.sent ∧
      t.dev.clock = max s.dev.clock (s.dev.patrolDue n + s.dev.passSpan n / max 1 (s.dev.chanLines n))) ∧
    (s.dev.chanUp n = false ∨ s.dev.bit Reg.ECS.CFG.SCRUB_EN = false → exec (.patrolPromote n) s = .next s) ∧
    -- device counters
    (s.dev.get Reg.ECS.DEV_THRESH.LEAK_S ≠ 0 →
      let d := s.dev.at ((s.dev.channel n).leaked + s.dev.get Reg.ECS.DEV_THRESH.LEAK_S * fclkS)
      let down := ((s.dev.channel n).devCtr.map fun _ v => v - 1).filter fun _ v => v != 0
      exec (.deviceCounterLeak n) s = .next (withDev s (d.setChannel n { s.dev.channel n with
        leaked := d.clock, devCtr := down,
        devTold := (s.dev.channel n).devTold.filter fun k _ => decide (s.dev.get Reg.ECS.DEV_THRESH.THRESH ≤ down.getD k 0) }))) ∧
    (s.dev.get Reg.ECS.DEV_THRESH.LEAK_S = 0 → exec (.deviceCounterLeak n) s = .next s) ∧
    -- injection into codewords
    (((s.dev.channel n).hist.list.filter fun e => e.2.inj).length < 16 →
      exec (.injArm n) s = .next (withDev s (s.dev.setBit (Reg.ECSC.INJ_CTL.ARM n) true))) ∧
    (16 ≤ ((s.dev.channel n).hist.list.filter fun e => e.2.inj).length → exec (.injArm n) s = .next (withDev s
      ((s.dev.setBit (Reg.ECSC.INJ_CTL.ARM n) false).setBit (Reg.ECSC.INJ_STS.FULL n) true))) ∧
    -- the fill
    (s.dev.get (Reg.DC.STS.STATE n) = 3 → ∃ t, exec (.channelFillComplete n) s = .next t ∧ t.dev.get (Reg.DC.STS.STATE n) = 4 ∧
      (t.dev.get Reg.ECS.FILL_STS.CH_DONE).testBit n = true ∧ (t.dev.channel n).patrol = 0 ∧ (t.dev.channel n).cleanPass = false ∧
      (t.dev.channel n).writes = .empty ∧ (∀ fn, fn % s.dev.chanCount = s.dev.populated.idxOf n → ∀ i, i < 64 →
        t.dev.frames.get? (fn * 64 + i) = none) ∧ t.sent = s.sent) ∧
    (s.dev.get (Reg.DC.STS.STATE n) ≠ 3 → exec (.channelFillComplete n) s = .next s)) ∧
  ∀ (s : State), quiet s →
    (∀ on, exec (.scrubEnableWrite on) s = .next (withDev s (s.dev.setBit Reg.ECS.CFG.SCRUB_EN on))) ∧
    -- injection into SRAM words
    (∀ target a b two, target ≤ 4 → a ≤ 136 → b ≤ 136 → ∃ t, exec (.sramInjArm target a b two) s = .next t ∧
      t.dev.bit Reg.ECS.SRAM_INJ.ARM = true ∧ t.dev.frames = s.dev.frames ∧ t.sent = s.sent ∧ ∀ place,
        (t.dev.sramWrite target place).bit Reg.ECS.SRAM_INJ.ARM = false ∧
        (t.dev.sramWrite target place).flips.get? (target * 2 ^ 44 + place) =
          if two = true ∧ a = b then none else some (a, if two then some b else none)) ∧
    (∀ target a b two, (4 < target ∨ 136 < a ∨ 136 < b) →
      exec (.sramInjArm target a b two) s = .next (withDev s (s.dev.discard Reg.ECS.SRAM_INJ.ARM.addr 2))) ∧
    (∃ t, exec .sramPowerOnInit s = .next t ∧ t.dev.lc = .empty ∧ t.dev.mdc = .empty ∧ t.dev.fmc = .empty ∧ t.dev.flips = .empty ∧
      t.dev.skeins = .empty ∧ t.dev.frames = s.dev.frames ∧ t.dev.regs = s.dev.regs ∧ t.sent = s.sent ∧
      ∀ e k, (t.dev.engine e).pattern.getD k 0 = 0) ∧
    -- the rekey sweep
    (∀ slot, s.dev.sweeps.get? slot = none ∨ s.dev.get Reg.RNT.REKEY.RATE = 0 ∨ s.dev.serves = false ∨ s.dev.slotState slot ≠ .active ∨
        s.dev.rntShut 6 = true → exec (.rekeySweepStep slot) s = .next s) ∧
    (∀ slot w, s.dev.sweeps.get? slot = some w → s.dev.get Reg.RNT.REKEY.RATE ≠ 0 → s.dev.serves = true → s.dev.slotState slot = .active →
      s.dev.rntShut 6 = false →
      (s.dev.sweepNext slot w.next = none → exec (.rekeySweepStep slot) s = .next (s.did (s.dev.sweepDone slot)) ∧
        (s.dev.role ≠ 1 → ∃ t, exec (.rekeySweepStep slot) s = .next t ∧ t.dev.sweeps.get? slot = none ∧ (t.dev.slot slot).prev = none ∧
          t.dev.frames = s.dev.frames ∧ t.dev.lc = s.dev.lc ∧ t.sent = s.sent)) ∧
      ∀ g n r, s.dev.sweepNext slot w.next = some g → s.dev.regionAt g = some (n, r) →
        ((s.dev.fme g).tier = .staged → exec (.rekeySweepStep slot) s = .next s) ∧
        ((s.dev.fme g).tier ≠ .staged → (s.dev.fme g).tier ≠ .L → (s.dev.fme g).ew = true →
          exec (.rekeySweepStep slot) s = .next (s.did (s.dev.requestFill g .background [] []).1)) ∧
        ((s.dev.fme g).tier = .L → s.dev.fills.has g = true → exec (.rekeySweepStep slot) s = .next (s.did (s.dev.requestFill g .background [] []).1)) ∧
        ((s.dev.fme g).tier ≠ .staged → (s.dev.fme g).ew = false → s.dev.fills.has g = false → s.dev.sweepLines slot g = [] →
          ∃ t, exec (.rekeySweepStep slot) s = .next t ∧ t.dev.sweeps.get? slot = some { w with next := g + 1, visited := w.visited + 1 } ∧
            t.dev.get Reg.RNT.REKEY_STS.SLOT = slot % 2 ^ 12 ∧ t.dev.frames = s.dev.frames ∧ t.dev.lc = s.dev.lc ∧ t.sent = s.sent) ∧
        ((s.dev.fme g).tier = .L → s.dev.fills.has g = false → ((s.dev.fme g).ew = true → ∀ i, i < 64 → (s.dev.frameLn (s.dev.fme g).loc i).st ≠ .absent) →
          ∀ u, u = (s.dev.sweepLines slot g).foldl (fun d x =>
              if (d.holdReason r { head := copyHead, gld := 64, tag := 0, line := g * 64, write := some (BitVec.allOnes 64, 0) }).isSome || d.lineBusy x.1 || d.acceptFull x.1 then d else d.sweepLine n r x.1) s.dev →
            exec (.rekeySweepStep slot) s = .next (s.did (if u.sweepLines slot g = [] ∧ u.slotState slot = .active then
              ({ u with sweeps := u.sweeps.put slot { w with next := g + 1, visited := w.visited + 1 } } : Dev).sweepShow slot (w.visited + 1)
              else u))))

/-- A DRAM channel's own steps: a refresh that is due closes its rank's rows, or is put off while reads wait, and beyond the limit the oldest is
forced; a power-down, an idle page, an aged request, an oscillator drift, a parity alert and the end of its retry change what they name; sensors
are read; ZQ calibration occupies its rank (R132–R157). -/
def Obligations.DramChannelsTakeEffect : Prop :=
  ∀ (s : State) (n : Nat), quiet s → n < 12 →
    (s.dev.chanUp n = true →
      -- refresh
      (∀ rank bank, rank ≤ s.dev.get (Reg.DC.POP.RANKS n) →
        let due := (s.dev.channel n).refreshAt.getD rank 0
        let d := s.dev.at (fclkAt due)
        let owed := (s.dev.channel n).postponed.getD rank [] ++ [bank]
        let u := d.setChannel n { s.dev.channel n with
          postponed := (s.dev.channel n).postponed.put rank owed,
          refreshAt := (s.dev.channel n).refreshAt.put rank ((if due = 0 then d.now else due) + d.refreshEvery n) }
        (s.dev.rankQueued n rank = true → owed.length ≤ s.dev.get (Reg.DC.REF_CTL.POSTPONE n) →
          exec (.refreshDue n rank bank) s = .next (withDev s u)) ∧
        (s.dev.rankQueued n rank = true → s.dev.get (Reg.DC.REF_CTL.POSTPONE n) < owed.length →
          exec (.refreshDue n rank bank) s = .next (withDev s (u.refreshForced n rank))) ∧
        (s.dev.rankQueued n rank = false → ∃ t, exec (.refreshDue n rank bank) s = .next t ∧
          (t.dev.channel n).postponed.get? rank = none ∧ t.dev.frames = s.dev.frames ∧ t.dev.regs = s.dev.regs ∧ t.sent = s.sent ∧
          ∀ k, k / 64 = rank → (s.dev.get (Reg.DC.REF_CTL.MODE n) ≠ 1 ∨ k % 32 / 8 = bank) → (t.dev.channel n).openRows.get? k = none)) ∧
      (∀ rank b rest, (s.dev.channel n).postponed.getD rank [] = b :: rest →
        s.dev.get (Reg.DC.REF_CTL.POSTPONE n) ≤ (b :: rest).length → exec (.refreshPostponeLimit n rank b) s = .next (withDev s
          (((s.dev.setChannel n { s.dev.channel n with postponed := (s.dev.channel n).postponed.putD rank rest [] }).refresh n rank b).raise
            (s.dev.dcPlain n 11)))) ∧
      (∀ rank bank, ((s.dev.channel n).postponed.getD rank []).length < s.dev.get (Reg.DC.REF_CTL.POSTPONE n) ∨
          ((s.dev.channel n).postponed.getD rank []).head? ≠ some bank → exec (.refreshPostponeLimit n rank bank) s = .next s) ∧
      (∀ rank bank k, (s.dev.get (Reg.DC.REF_CTL.MODE n) ≠ 1 ∨ k % 32 / 8 = bank) → k / 64 = rank →
        ((s.dev.refresh n rank bank).channel n).openRows.get? k = none) ∧
      -- idle pairs and pages
      (∀ pair, s.dev.bit (Reg.DC.PD_CTL.EN n) = true → ((s.dev.channel n).openRows.list.any fun e => e.1 / 32 == pair) = false →
        s.dev.pairQueued n pair = false → pair < 2 * (s.dev.get (Reg.DC.POP.RANKS n) + 1) → ∃ t, exec (.powerDownEntry n pair) s = .next t ∧
          (t.dev.channel n).powerDown = (s.dev.channel n).powerDown.put pair () ∧ t.dev.regs = s.dev.regs ∧ t.dev.frames = s.dev.frames ∧
          s.dev.clock ≤ t.dev.clock ∧ t.sent = s.sent) ∧
      (∀ pair, s.dev.bit (Reg.DC.PD_CTL.EN n) = false ∨ ((s.dev.channel n).openRows.list.any fun e => e.1 / 32 == pair) = true ∨
        s.dev.pairQueued n pair = true ∨ 2 * (s.dev.get (Reg.DC.POP.RANKS n) + 1) ≤ pair → exec (.powerDownEntry n pair) s = .next s) ∧
      (∀ bank, s.dev.bankQueued n bank = false → (s.dev.channel n).openRows.has bank = true → ∃ t, exec (.pageIdleClose n bank) s = .next t ∧
        (t.dev.channel n).openRows.get? bank = none ∧ (∀ b, b ≠ bank → (t.dev.channel n).openRows.get? b = (s.dev.channel n).openRows.get? b) ∧
        t.dev.regs = s.dev.regs ∧ t.dev.frames = s.dev.frames ∧ s.dev.clock ≤ t.dev.clock ∧ t.sent = s.sent) ∧
      (∀ bank, s.dev.bankQueued n bank = true ∨ (s.dev.channel n).openRows.has bank = false → exec (.pageIdleClose n bank) s = .next s) ∧
      -- ZQ calibration
      (∀ rank, rank ≤ s.dev.get (Reg.DC.POP.RANKS n) → ∃ t, exec (.zqCalibration n rank) s = .next t ∧ s.dev.now + 30 * latNs ≤ (t.dev.channel n).busy.getD rank 0 ∧
        (t.dev.channel n).openRows = (s.dev.channel n).openRows ∧ (t.dev.channel n).powerDown = (s.dev.channel n).powerDown ∧
        t.dev.regs = s.dev.regs ∧ t.dev.frames = s.dev.frames ∧ t.sent = s.sent)) ∧
    -- aged requests
    (∀ no d, s.dev.reads.get? no = some d → d.chan = n → d.issued = none → s.dev.get (Reg.DC.SCHED.AGE_MAX n) ≠ 0 →
      exec (.requestAgePromote (.read n no)) s = .next (withDev s
        { s.dev.at (d.arrived + s.dev.dclkFclk n (s.dev.get (Reg.DC.SCHED.AGE_MAX n))) with
          reads := s.dev.reads.put no { d with promoted := true } })) ∧
    (∀ cl w, (s.dev.channel n).writes.get? cl = some w → s.dev.get (Reg.DC.SCHED.AGE_MAX n) ≠ 0 →
      exec (.requestAgePromote (.write n cl)) s = .next (withDev s
        ((s.dev.at (w.arrived + s.dev.dclkFclk n (s.dev.get (Reg.DC.SCHED.AGE_MAX n)))).setChannel n
          { s.dev.channel n with writes := (s.dev.channel n).writes.put cl { w with promoted := true } }))) ∧
    (∀ key, s.dev.get (Reg.DC.SCHED.AGE_MAX n) = 0 →
      exec (.requestAgePromote (.read n key)) s = .next s ∧ exec (.requestAgePromote (.write n key)) s = .next s) ∧
    -- sensors
    (∀ temps mr4 pmic, s.dev.chanRuns n = true →
      exec (.dimmSensorPoll n temps mr4 pmic) s = .next (s.did (s.dev.sensorPoll n (temps.take (s.dev.slotCount n)) mr4 pmic)) ∧
      exec (.dimmEventNAssert n none temps mr4 pmic) s = exec (.dimmSensorPoll n temps mr4 pmic) s ∧
      (∀ k, exec (.dimmEventNAssert n (some k) temps mr4 pmic) s =
        .next (s.did ((s.dev.raise (s.dev.dcEv n 8 false (8 * (k % 2)) 0 0 0)).sensorPoll n (temps.take (s.dev.slotCount n)) mr4 pmic)))) ∧
    (∀ temps mr4 pmic, s.dev.chanRuns n = false → exec (.dimmSensorPoll n temps mr4 pmic) s = .next s ∧
      ∀ source, exec (.dimmEventNAssert n source temps mr4 pmic) s = .next s) ∧
    (∀ temps mr4, s.dev.chanRuns n = true → s.dev.slotCount n = 1 → ∀ t0 : Int, temps = [some t0] → t0 < s.dev.get (Reg.DC.THERM.TS_HIGH n) →
      t0 < s.dev.get (Reg.DC.THERM.TS_CRIT n) → ∃ t, exec (.dimmSensorPoll n temps mr4 []) s = .next t ∧
        t.dev.get (Reg.DC.DIMM_TEMP.T0 n) = tempByte t0 % 256 ∧ (t.dev.channel n).sensorFail.getD 0 0 = 0 ∧
        ((mr4 || s.dev.bit (Reg.DC.REF_CTL.FORCE_2X n)) = true → (t.dev.channel n).halved = true) ∧
        t.dev.frames = s.dev.frames ∧ t.dev.get (Reg.DC.STS.STATE n) = s.dev.get (Reg.DC.STS.STATE n) ∧ t.sent = s.sent) ∧
    -- drift
    (∀ rank drift, s.dev.chanTrained n = true → s.dev.bit (Reg.DC.CFG.TRACK n) = true → s.dev.bit (Reg.DC.CFG.TRN_MODE n) = false →
      rank ≤ s.dev.get (Reg.DC.POP.RANKS n) → 2 ≤ drift.natAbs → ∃ t, exec (.dqsOscillatorPoll n rank drift) s = .next t ∧
        (t.dev.channel n).drift.getD rank 0 = (s.dev.channel n).drift.getD rank 0 + drift ∧
        (t.dev.channel n).driftPending.getD rank 0 = (s.dev.channel n).driftPending.getD rank 0 + drift ∧
        (t.dev.channel n).lanes = (s.dev.channel n).lanes ∧ t.dev.frames = s.dev.frames ∧ t.sent = s.sent) ∧
    (∀ rank drift, s.dev.chanTrained n = false ∨ s.dev.bit (Reg.DC.CFG.TRACK n) = false ∨ s.dev.bit (Reg.DC.CFG.TRN_MODE n) = true ∨
      s.dev.get (Reg.DC.POP.RANKS n) < rank ∨ drift.natAbs < 2 → exec (.dqsOscillatorPoll n rank drift) s = .next s) ∧
    -- command parity
    (∀ sub phase, sub < 2 → (s.dev.channel n).retry.has sub = false → s.dev.chanTrained n = true → ∃ t, exec (.caParityAlert n sub phase) s = .next t ∧
      t.dev.get (Reg.DC.STS.STATE n) = 5 ∧ (t.dev.channel n).retry.get? sub = some (s.dev.replayLog n sub phase) ∧
      (∀ k, k / 32 % 2 = sub → (t.dev.channel n).openRows.get? k = none) ∧ t.dev.frames = s.dev.frames ∧ t.sent = s.sent) ∧
    (∀ sub phase, 2 ≤ sub ∨ (s.dev.channel n).retry.has sub = true ∨ s.dev.chanTrained n = false → exec (.caParityAlert n sub phase) s = .next s) ∧
    (∀ sub v cs ca inTime, calm s.dev → (s.dev.channel n).retry.get? sub = some v →
      (((s.dev.channel n).retry.del sub).list = [] → ∃ t, exec (.caParityRetryDone n sub true cs ca inTime) s = .next t ∧
        t.dev.get (Reg.DC.STS.STATE n) = (if (s.dev.get Reg.ECS.FILL_STS.CH_DONE).testBit n then 4 else 3) ∧
        (t.dev.channel n).retry.get? sub = none ∧ t.dev.frames = s.dev.frames ∧ t.dev.reads = s.dev.reads ∧ t.sent = s.sent) ∧
      (((s.dev.channel n).retry.del sub).list ≠ [] → ∃ t, exec (.caParityRetryDone n sub true cs ca inTime) s = .next t ∧
        t.dev.get (Reg.DC.STS.STATE n) = s.dev.get (Reg.DC.STS.STATE n) ∧ (t.dev.channel n).retry.get? sub = none ∧
        t.dev.frames = s.dev.frames ∧ t.dev.reads = s.dev.reads ∧ t.sent = s.sent) ∧
      (s.dev.filling n = true → ∃ t, exec (.caParityRetryDone n sub false cs ca inTime) s = .next t ∧ t.dev.get (Reg.DC.STS.STATE n) = 0 ∧
        (t.dev.get Reg.ECS.FILL_STS.CH_ERR).testBit n = true ∧ t.dev.bit Reg.ECS.FILL_STS.ALL_DONE = false ∧ (t.dev.channel n).retry = .empty ∧
        t.dev.frames = s.dev.frames ∧ t.sent = s.sent)) ∧
    (∀ sub cs ca inTime, exec (.caParityRetryDone n sub false cs ca inTime) s = .next (s.did (s.dev.retryDone n sub false (retryT1 cs ca inTime)).settle)) ∧
    (∀ sub clean cs ca inTime, calm s.dev → (s.dev.channel n).retry.get? sub = none → exec (.caParityRetryDone n sub clean cs ca inTime) s = .next s)

/-- Enabling a channel checks its DIMMs and starts training; one that fails a check is refused with its code; one without DIMMs counts as filled.
The end of training takes the channel to its fill, or leaves it off with the failing step (R132–R134, R149–R152). -/
def Obligations.ChannelsTrain : Prop :=
  ∀ (s : State) (n : Nat), quiet s → n < 12 →
    (∀ bus i3c, (s.dev.bit (Reg.DC.CFG.ENABLE n) = true ∧ s.dev.get (Reg.DC.STS.STATE n) = 1 ∨
        s.dev.bit (Reg.DC.CFG.ENABLE n) = false ∧ s.dev.bit (Reg.DC.LOCK.LOCK n) = false ∧ s.dev.get (Reg.DC.STS.STATE n) ≠ 6) →
      let dimms := slotDimms n bus
      let code := (s.dev.setBit (Reg.DC.CFG.ENABLE n) true).refuseCode n dimms
      (dimms = [] → exec (.channelEnableWrite n bus i3c) s = .next (withDev s ((s.dev.setBit (Reg.DC.CFG.ENABLE n) true).fillCheck n))) ∧
      (dimms ≠ [] → code = 0 → ∃ t, exec (.channelEnableWrite n bus i3c) s = .next t ∧ t.dev.get (Reg.DC.STS.STATE n) = 2 ∧
        t.dev.get (Reg.DC.TRN_STS.STEP n) = (if s.dev.bit (Reg.DC.CFG.TRN_MODE n) then 7 else 1) ∧ t.dev.get (Reg.DC.STS.REFUSE n) = 0 ∧
        (t.dev.get Reg.ECS.FILL_STS.CH_DONE).testBit n = false ∧ t.dev.bit Reg.ECS.FILL_STS.ALL_DONE = false ∧ (t.dev.channel n).i3c = i3c ∧
        t.dev.frames = s.dev.frames ∧ t.sent = s.sent) ∧
      (dimms ≠ [] → 0 < code → ∃ t, exec (.channelEnableWrite n bus i3c) s = .next t ∧ t.dev.get (Reg.DC.STS.STATE n) = 0 ∧
        t.dev.get (Reg.DC.STS.REFUSE n) = code ∧ (t.dev.get Reg.ECS.FILL_STS.CH_ERR).testBit n = true ∧
        t.dev.bit Reg.ECS.FILL_STS.ALL_DONE = false ∧ t.dev.frames = s.dev.frames ∧ t.sent = s.sent)) ∧
    (∀ bus i3c, s.dev.bit (Reg.DC.CFG.ENABLE n) = true → s.dev.get (Reg.DC.STS.STATE n) ≠ 1 →
      exec (.channelEnableWrite n bus i3c) s = .next (withDev s (if s.dev.bit (Reg.DC.LOCK.LOCK n) then s.dev.discard (Reg.DC.CFG.ENABLE n).addr 1 else s.dev))) ∧
    (∀ bus i3c, s.dev.bit (Reg.DC.CFG.ENABLE n) = false → s.dev.bit (Reg.DC.LOCK.LOCK n) = true →
      exec (.channelEnableWrite n bus i3c) s = .next (withDev s (s.dev.discard (Reg.DC.CFG.ENABLE n).addr 1))) ∧
    (∀ bus i3c, s.dev.bit (Reg.DC.CFG.ENABLE n) = false → s.dev.bit (Reg.DC.LOCK.LOCK n) = false → s.dev.get (Reg.DC.STS.STATE n) = 6 →
      exec (.channelEnableWrite n bus i3c) s = .next (withDev s (s.dev.setBit (Reg.DC.CFG.ENABLE n) true))) ∧
    (∀ t1 t2 t3 t4 t5 t6 t7, s.dev.get (Reg.DC.STS.STATE n) = 2 →
      let fixed := s.dev.bit (Reg.DC.CFG.TRN_MODE n)
      let ranks := (List.range (s.dev.get (Reg.DC.POP.RANKS n) + 1)).map fun r => (r, (trainRanks t2 t3 t4 t5 t6 t7).getD r {})
      let fault := trainFault (s.dev.get (Reg.DC.TRN_SEL.EYE_MIN n)) fixed t1 ranks
      (fault = none → ∃ t, exec (.trainingComplete n t1 t2 t3 t4 t5 t6 t7) s = .next t ∧ t.dev.get (Reg.DC.STS.STATE n) = 3 ∧
        t.dev.get (Reg.DC.TRN_STS.STEP n) = 7 ∧ t.dev.bit (Reg.DC.TRN_STS.FAIL n) = false ∧
        t.dev.get (Reg.DC.TRN_STS.MIN_EYE n) = (if fixed then 0 else minEye ranks) % 2 ^ (Reg.DC.TRN_STS.MIN_EYE n).width ∧
        (t.dev.channel n).drift = .empty ∧ (t.dev.channel n).driftPending = .empty ∧ (t.dev.channel n).fillFrom = s.dev.clock ∧
        (fixed = true → (t.dev.channel n).lanes = (s.dev.channel n).lanes ∧ (t.dev.channel n).groups = (s.dev.channel n).groups) ∧
        t.dev.frames = s.dev.frames ∧ t.sent = s.sent) ∧
      (∀ step lane rank run, fault = some (step, lane, rank, run) → ∃ t, exec (.trainingComplete n t1 t2 t3 t4 t5 t6 t7) s = .next t ∧
        t.dev.get (Reg.DC.STS.STATE n) = 0 ∧ t.dev.bit (Reg.DC.TRN_STS.FAIL n) = true ∧
        t.dev.get (Reg.DC.TRN_STS.STEP n) = step % 2 ^ (Reg.DC.TRN_STS.STEP n).width ∧
        t.dev.get (Reg.DC.TRN_STS.FAIL_LANE n) = lane % 2 ^ (Reg.DC.TRN_STS.FAIL_LANE n).width ∧
        (t.dev.get Reg.ECS.FILL_STS.CH_ERR).testBit n = true ∧ t.dev.bit Reg.ECS.FILL_STS.ALL_DONE = false ∧
        t.dev.frames = s.dev.frames ∧ t.sent = s.sent)) ∧
    (∀ t1 t2 t3 t4 t5 t6 t7, s.dev.get (Reg.DC.STS.STATE n) ≠ 2 → exec (.trainingComplete n t1 t2 t3 t4 t5 t6 t7) s = .next s)

/-! ## Flash backing and the churn engine -/

/-- Drives: enabling a root port brings its link up, where the port is not locked; a drive whose link trains wide starts its set-up, a narrow one is
refused; set-up that fails, or offers fewer than 8 queue pairs, refuses the drive, and a set-up that succeeds makes it ready; a drive in service or in
set-up that times out or loses its link leaves it; a clean retry leaves the drive in service, a failed one does what the command calls for; the last
flush of all drives writes the headers. What a change of a drive's state shows (R187–R189, R200–R204). -/
def Obligations.DrivesTakeEffect : Prop :=
  ∀ (s : State) (p : Nat), quiet s → p < 8 →
    -- root ports
    (∀ link, s.dev.bit Reg.NVH.LOCK.LOCK = true → exec (.drivePortEnable p link) s = .next (withDev s (s.dev.discard Reg.NVH.CFG.PORT_EN.addr 1))) ∧
    (∀ link, s.dev.bit Reg.NVH.LOCK.LOCK = false → (s.dev.get Reg.NVH.CFG.PORT_EN).testBit p = true → exec (.drivePortEnable p link) s = .next s) ∧
    (∀ link, s.dev.bit Reg.NVH.LOCK.LOCK = false → (s.dev.get Reg.NVH.CFG.PORT_EN).testBit p = false →
      let u := s.dev.set Reg.NVH.CFG.PORT_EN (withBit (s.dev.get Reg.NVH.CFG.PORT_EN) p)
      exec (.drivePortEnable p link) s = .next (s.did (if link = 0 then u.setDrv p 0 0 0 0 0 noGran else u.driveLink p (link == 1))) ∧
      (u.get Reg.NVH.CFG.PORT_EN).testBit p = true) ∧
    -- links and set-up
    (∀ wide, (s.dev.get Reg.NVH.CFG.PORT_EN).testBit p = true → inService (s.dev.get (Reg.NVH.DRV.STATE p)) = false →
      exec (.driveLinkUp p wide) s =
        .next (s.did (if wide then (s.dev.setDrv p 1 0 0 0 0 noGran).driveAdmin p else s.dev.setDrv p 6 1 0x1A3 0 0 noGran))) ∧
    (∀ wide, (s.dev.get Reg.NVH.CFG.PORT_EN).testBit p = false ∨ inService (s.dev.get (Reg.NVH.DRV.STATE p)) = true →
      exec (.driveLinkUp p wide) s = .next s) ∧
    (∀ ok q c1 c2, s.dev.get (Reg.NVH.DRV.STATE p) ≠ 1 → exec (.driveInitComplete p ok q c1 c2) s = .next s) ∧
    (∀ ok q c1 c2, s.dev.get (Reg.NVH.DRV.STATE p) = 1 → ok = false ∨ q < 8 →
      exec (.driveInitComplete p ok q c1 c2) s = .next (s.did (s.dev.setDrv p 6 2 0x1A3 0 0 noGran))) ∧
    (∀ q c1 c2, s.dev.get (Reg.NVH.DRV.STATE p) = 1 → 8 ≤ q →
      let u := (({ s.dev with media := s.dev.media.put p { s.dev.media.getD p {} with cap1 := c1, cap2 := c2 } } : Dev).calTrained (136 + 4 * p) 4).set
        (Reg.NVH.DRV.QPAIRS p) (min 64 q)
      exec (.driveInitComplete p true q c1 c2) s = .next (s.did
        ((if u.slotOfPort p = 255 then u else u.nvme (u.slotOfPort p) .createQueue 0 0 (min 64 q)).driveReady p))) ∧
    (1 ≤ s.dev.get (Reg.NVH.DRV.STATE p) → s.dev.get (Reg.NVH.DRV.STATE p) ≤ 3 →
      exec (.driveLinkDown p) s = .next (s.did (s.dev.driveOut p 5 8 0x1A2 0 0 noGran))) ∧
    (s.dev.get (Reg.NVH.DRV.STATE p) = 0 ∨ 3 < s.dev.get (Reg.NVH.DRV.STATE p) → exec (.driveLinkDown p) s = .next s) ∧
    -- what a change of state shows
    (∀ st reason id status lba gran, st < 8 → reason < 16 → inService (s.dev.get (Reg.NVH.DRV.STATE p)) = inService st →
      let u := s.dev.setDrv p st reason id status lba gran
      u.get (Reg.NVH.DRV.STATE p) = st ∧ u.get (Reg.NVH.DRV.REASON p) = reason ∧ (¬ (1 ≤ st ∧ st ≤ 3) → u.get (Reg.NVH.DRV.QPAIRS p) = 0) ∧
        u.frames = s.dev.frames ∧ u.media = s.dev.media ∧ u.dirty = s.dev.dirty ∧ u.out = s.dev.out ∧
        (s.dev.slotOfPort p = 255 → s.dev.driveOut p st reason id status lba gran = u)) ∧
    -- timeouts and errors of the drives of the image
    (∀ d, d < s.dev.imageN →
      (inService (s.dev.driveSt d) = true ∨ s.dev.driveSt d = 1 → exec (.driveCommandTimeout d) s =
        .next (s.did ((s.dev.count Reg.NVH.TIMEOUTS.COUNT Reg.NVH.TIMEOUTS.SAT 1 nvhSat).driveOut (s.dev.portOfDrive d) 4 6 0x1A6 0 0 noGran))) ∧
      (inService (s.dev.driveSt d) = false → s.dev.driveSt d ≠ 1 → exec (.driveCommandTimeout d) s = .next s ∧
        ∀ op g ok status lba, exec (.driveCommandError d op g ok status lba) s = .next s) ∧
      (inService (s.dev.driveSt d) = true → ∀ g status lba,
        exec (.driveCommandError d 0 g true status lba) s = .next (withDev s
          ((s.dev.count Reg.NVH.RD_RETRY.COUNT Reg.NVH.RD_RETRY.SAT 1 nvhSat).raise
            (s.dev.drvEv 0x1A4 (s.dev.portOfDrive d) (s.dev.driveSt d) status lba g))) ∧
        exec (.driveCommandError d 1 g true status lba) s = .next s ∧
        exec (.driveCommandError d 2 g true status lba) s = .next s ∧
        exec (.driveCommandError d 1 g false status lba) s = .next (s.did (s.dev.driveOut (s.dev.portOfDrive d) 4 5 0x1A1 status lba g)) ∧
        exec (.driveCommandError d 2 g false status lba) s = .next (s.did (s.dev.driveOut (s.dev.portOfDrive d) 4 5 0x1A1 status lba noGran)) ∧
        (∀ ok, exec (.driveCommandError d 3 g ok status lba) s =
          .next (s.did (s.dev.driveOut (s.dev.portOfDrive d) 4 7 0x1A1 status lba noGran))) ∧
        (calm s.dev → s.dev.learns.list = [] → s.dev.fills.get? g = none → s.dev.destages.list = [] →
          exec (.driveCommandError d 0 g false status lba) s =
            .next (s.did (s.dev.readFailed (s.dev.portOfDrive d) (s.dev.driveSt d) status lba g))))) ∧
    (∀ d op g ok status lba, s.dev.imageN ≤ d → exec (.driveCommandError d op g ok status lba) s = .next s ∧
      exec (.driveCommandTimeout d) s = .next s) ∧
    -- flushes
    (∀ d, (s.dev.drive d).flushing = false → exec (.driveFlushComplete d) s = .next s) ∧
    (∀ d, (s.dev.drive d).flushing = true →
      let u := s.dev.setDrive d { s.dev.drive d with flushing := false, flushed := true }
      let l := (List.range u.imageN).filter u.driveOk
      (l ≠ [] → (∀ x ∈ l, (u.drive x).flushed = true) → s.dev.get Reg.HLD.STATUS.STATE = 4 → s.dev.get Reg.NVH.IMG_STS.STATE = 6 →
        ∃ t, exec (.driveFlushComplete d) s = .next t ∧ t = s.did (u.flushHeaders.set Reg.NVH.IMG_STS.STATE 7) ∧
          t.dev.get Reg.NVH.IMG_STS.STATE = 7) ∧
      ((∃ x ∈ l, (u.drive x).flushed = false) ∨ s.dev.get Reg.HLD.STATUS.STATE ≠ 4 ∨ s.dev.get Reg.NVH.IMG_STS.STATE ≠ 6 →
        exec (.driveFlushComplete d) s = .next (withDev s u)))

/-- The image and the churn engine: an image is created on healthy drives that hold none, and not on others; restore begins with the header
it chooses, once the DRAM is filled, and completes where the stored map fits; a destage starts with the next eligible granule and goes on
from its tags to its end; a learning read tells a granule's tag slot; a token refill and a rebuild step act on their drive (R194–R199,
R205–R207, R218). -/
def Obligations.TheImageIsKept : Prop :=
  ∀ (s : State), quiet s →
    -- creation
    (s.dev.get Reg.NVH.IMG_STS.STATE ≠ 0 → exec .imageCreate s = .next s) ∧
    (s.dev.get Reg.NVH.IMG_STS.STATE = 0 → s.dev.imageDrives ≠ [] →
      (s.dev.imageDrives.any fun p => s.dev.get (Reg.NVH.DRV.STATE p) != 2) = false →
      (∀ p ∈ s.dev.imageDrives, s.dev.createRefusal p = 0) → ∃ t, exec .imageCreate s = .next t ∧ t.dev.get Reg.NVH.IMG_STS.STATE = 1 ∧
        t.dev.image.n = s.dev.imageN ∧ t.dev.image.g = s.dev.newG ∧ t.dev.image.r = s.dev.newR ∧ t.dev.image.seq = 1 ∧
        t.dev.image.clean = true ∧ t.dev.imageMask = s.dev.get Reg.NVH.IMG_CFG.DRIVE_MASK ∧ t.dev.frames = s.dev.frames) ∧
    (s.dev.get Reg.NVH.IMG_STS.STATE = 0 →
      let bad := s.dev.imageDrives.filter fun p => s.dev.get (Reg.NVH.DRV.STATE p) == 2 && s.dev.createRefusal p != 0
      (bad ≠ [] ∨ (s.dev.imageDrives.any fun p => s.dev.get (Reg.NVH.DRV.STATE p) != 2) = true ∨ s.dev.imageDrives = []) →
      exec .imageCreate s = .next (s.did ((bad.foldl (fun d p => d.setDrv p 6 (d.createRefusal p) 0x1A3 0 0 noGran) s.dev).raise (nvhPlain 0x1AD)))) ∧
    (s.dev.get Reg.NVH.IMG_STS.STATE = 1 → (s.dev.saCheck).2 = false → exec .imageCreateComplete s = .next (s.did
      (((((s.dev.saCheck).1.setBit Reg.NVH.IMG_CTL.CREATE false).set Reg.NVH.IMG_STS.STATE 3).raise (nvhPlain 0x1AC)).memUpdateAll))) ∧
    (s.dev.get Reg.NVH.IMG_STS.STATE = 1 → (s.dev.saCheck).2 = true → ∃ t, exec .imageCreateComplete s = .next t ∧
      t.dev.get Reg.NVH.IMG_STS.STATE = 0 ∧ t.dev.bit Reg.NVH.IMG_CTL.CREATE = false ∧ t.dev.image = {} ∧ t.dev.imageMask = 0 ∧
      t.dev.bit Reg.TMG.STS.SA_SHORT = true ∧ t.dev.frames = s.dev.frames ∧ t.sent = s.sent) ∧
    (s.dev.get Reg.NVH.IMG_STS.STATE ≠ 1 → exec .imageCreateComplete s = .next s) ∧
    -- restore
    (s.dev.get Reg.NVH.IMG_STS.STATE ≠ 0 ∨ s.dev.bit Reg.ECS.FILL_STS.ALL_DONE = false → exec .restoreStart s = .next s) ∧
    (s.dev.get Reg.NVH.IMG_STS.STATE = 0 → s.dev.bit Reg.ECS.FILL_STS.ALL_DONE = true →
      let u := ((List.range s.dev.imageN).filter fun d => s.dev.driveSt d == 2).foldl (fun d k => d.nvme k .read 1 0 32) s.dev
      (∀ h, u.restoreHeader = some h →
        let v := ({ u with image := h, imageMask := u.get Reg.NVH.IMG_CFG.DRIVE_MASK } : Dev).set Reg.NVH.IMG_STS.STATE 2
        exec .restoreStart s = .next (s.did ((List.range v.imageN).foldl (fun d k => d.restoreDrive h k) v))) ∧
      (u.restoreHeader = none → exec .restoreStart s = .next (s.did ((((List.range u.imageN).filter fun d =>
        u.driveSt d == 2 && (u.medium d).foreign u.imageKey).foldl (fun d k => d.setDrv (d.portOfDrive k) 6 3 0x1A3 0 0 noGran) u).raise (nvhPlain 0x1AD))))) ∧
    (s.dev.get Reg.NVH.IMG_STS.STATE = 2 → (s.dev.saCheck).2 = false → exec .restoreComplete s = .next (s.did (s.dev.saCheck).1.restoreOnline)) ∧
    (s.dev.get Reg.NVH.IMG_STS.STATE = 2 → (s.dev.saCheck).2 = true → exec .restoreComplete s = .next (withDev s (s.dev.saCheck).1) ∧
      (s.dev.saCheck).1.bit Reg.TMG.STS.SA_SHORT = true ∧ (s.dev.saCheck).1.get Reg.NVH.IMG_STS.STATE = 2) ∧
    (s.dev.get Reg.NVH.IMG_STS.STATE ≠ 2 → exec .restoreComplete s = .next s) ∧
    -- destaging
    (s.dev.destageNext = none → exec .destageStart s = .next s) ∧
    (∀ g, s.dev.destageNext = some g → exec .destageStart s = .next (s.did (s.dev.startDestage g))) ∧
    (∀ g x, s.dev.destages.get? g = some x → x.wait = none →
      (x.step = .tags → exec (.destageTagWriteDone g) s = .next (s.did
        ((s.dev.putTags (s.dev.destageTag g x).1 (s.dev.destageTag g x).2 x.lines).destageGo g))) ∧
      (x.step = .data → exec (.destageComplete g) s = .next (s.did (s.dev.destageDone g x)))) ∧
    (∀ g, (∀ x, s.dev.destages.get? g = some x → x.step ≠ .tags ∨ x.wait ≠ none) → exec (.destageTagWriteDone g) s = .next s) ∧
    (∀ g, (∀ x, s.dev.destages.get? g = some x → x.step ≠ .data ∨ x.wait ≠ none) → exec (.destageComplete g) s = .next s) ∧
    (∀ g, s.dev.learns.has g = true →
      let slot := match s.dev.flashPlace g with | some (d, lba, r) => (s.dev.flashRead g d lba r).2 | none => false
      let u := ({ s.dev with learns := s.dev.learns.del g } : Dev).setFme g { s.dev.fme g with tslot := slot, tslotKnown := true }
      (u.fme g).tslot = slot ∧ (u.fme g).tslotKnown = true ∧
      (∀ x, u.destages.get? g = some x → x.step = .learn → exec (.learningReadComplete g) s = .next (s.did (u.destageGo g).retryLearns.settle)) ∧
      ((∀ x, u.destages.get? g = some x → x.step ≠ .learn) → exec (.learningReadComplete g) s = .next (s.did u.retryLearns.settle))) ∧
    (∀ g, s.dev.learns.has g = false → exec (.learningReadComplete g) s = .next s) ∧
    -- tokens and rebuild
    (∀ d, d < s.dev.imageN → exec (.tokenBucketRefill d) s = .next (s.did (s.dev.tokenRefill d))) ∧
    (∀ d, s.dev.imageN ≤ d → exec (.tokenBucketRefill d) s = .next s) ∧
    (∀ d, s.dev.rebuild.get? d = none ∨ s.dev.get Reg.NVH.REBUILD.RATE = 0 → exec (.rebuildStep d) s = .next s) ∧
    (∀ d b, s.dev.rebuild.get? d = some b → s.dev.get Reg.NVH.REBUILD.RATE ≠ 0 → imageD s.dev.imageN s.dev.imageG ≤ b.cursor →
      exec (.rebuildStep d) s = .next (s.did (s.dev.rebuildDone d))) ∧
    (∀ d b, s.dev.rebuild.get? d = some b → s.dev.get Reg.NVH.REBUILD.RATE ≠ 0 → b.cursor < imageD s.dev.imageN s.dev.imageG → b.resumed = false →
      ((s.dev.rebuildWants d b.cursor).filter fun g => decide (g < s.dev.imageG)) = [] →
      let at_ := s.dev.atIndex d b.cursor
      let u := [at_.1, at_.2].foldl Dev.freeRescue s.dev
      let v := ({ u with rebuild := u.rebuild.upd d fun x => { x with cursor := b.cursor + 1 } } : Dev).set
        (Reg.NVH.DRV.REBUILD_PCT (u.portOfDrive d)) (100 * (b.cursor + 1) / imageD s.dev.imageN s.dev.imageG)
      exec (.rebuildStep d) s = .next (s.did (if imageD s.dev.imageN s.dev.imageG ≤ b.cursor + 1 then v.rebuildDone d else v).settle))

/-! ## Twinset transport and congestion control -/

/-- Links, associations and timers of the Twinset transport: an association opens with HELLO; HELLO is answered and keys the association as responder,
HELLO_RSP keys it as initiator, and what fails a check does neither; an idle association keeps alive, a silent one goes down, a running one changes
keys and retires the old phase; ports come up and down; a paused priority holds its packets; requests are sent again, acknowledged and paced, and a
context comes back on chip (R265, R267, R275–R277, R282, R289, R291, R299, R300, R302). -/
def Obligations.LinkEventsTakeEffect : Prop :=
  ∀ (s : State) (a : Nat), quiet s →
    -- an association opens
    (48 ≤ a ∨ (s.dev.assoc a).state ≠ 0 → exec (.associationOpen a) s = .next s) ∧
    (a < 48 → (s.dev.assoc a).state = 0 →
      let e := ((s.dev.assoc a).storedEpoch + 1) % 65536
      let k := if (s.dev.assoc a).secret then 1 else 0
      ∃ t n, exec (.associationOpen a) s = .next t ∧ (t.dev.assoc a).state = 1 ∧
        (t.dev.assoc a).nonce = some n ∧ (t.dev.assoc a).aepoch = e ∧
        (t.dev.assoc a).phase0 = false ∧ (t.dev.assoc a).phase1 = false ∧ t.dev.regs = s.dev.regs ∧
        (s.dev.portOf a 0 = none → t.sent = s.sent) ∧
        ∀ port, s.dev.portOf a 0 = some port → ∃ h mac, t.sent = Output.packet a 0 0 h (.hello n s.dev.island.deviceHash k e mac) :: s.sent ∧
          h.port = port ∧ h.prio = 2 ∧ h.kph = false ∧ h.txSeq = 0 ∧ h.aepoch = e ∧ h.src = s.dev.get Reg.RND.CFG.MEMBER ∧
          h.dst = (s.dev.assoc a).member) ∧
    -- HELLO
    (∀ (h : RxHdr) nonce idHash secret e mac,
      let p := Payload.hello nonce idHash secret e mac
      let d := (e + 65536 - (s.dev.assoc a).storedEpoch % 65536) % 65536
      (s.dev.rxAssoc h.src = none → exec (.hello h nonce idHash secret e mac) s = .next (withDev s s.dev.rxDrop)) ∧
      (s.dev.rxAssoc h.src = some a →
        (s.dev.filters h p = true → exec (.hello h nonce idHash secret e mac) s = .next (withDev s s.dev.rxDrop)) ∧
        (s.dev.filters h p = false → s.dev.secretHeld secret = false ∨ s.dev.helloOk h secret mac p = false ∨ s.dev.permittedId h.src idHash = false ∨
          d = 0 ∨ 2 ^ 15 ≤ d → exec (.hello h nonce idHash secret e mac) s =
            .next (withDev s (s.dev.raise (twRec s.dev 0x1D9 true (some a) h.port 0 0 0x01 0 noPlace 0 false)))) ∧
        (s.dev.filters h p = false → s.dev.secretHeld secret = true → s.dev.helloOk h secret mac p = true → s.dev.permittedId h.src idHash = true →
          d ≠ 0 → d < 2 ^ 15 → (s.dev.assoc a).state < 2 →
          let n := s.dev.random.1
          let k := s.dev.random.2.keyed0 a e false (secret == 1) n nonce
          exec (.hello h nonce idHash secret e mac) s = .next (s.did (k.sendHello a (.helloRsp n k.island.deviceHash secret e
            (k.helloMacTx a e secret (.helloRsp n k.island.deviceHash secret e 0))))) ∧
          (k.assoc a).state = 1 ∧ (k.assoc a).phase0 = true ∧ (k.assoc a).phase1 = false ∧ (k.assoc a).aepoch = e ∧
          (k.assoc a).storedEpoch = e ∧ (k.assoc a).initiator = false ∧ (k.assoc a).txSeq = 0 ∧ (∀ b, b ≠ a → k.assoc b = s.dev.assoc b)))) ∧
    -- HELLO_RSP
    (∀ (h : RxHdr) nonce idHash secret e mac,
      let p := Payload.helloRsp nonce idHash secret e mac
      (s.dev.rxAssoc h.src = none → exec (.helloRsp h nonce idHash secret e mac) s = .next (withDev s s.dev.rxDrop)) ∧
      (s.dev.rxAssoc h.src = some a →
        (s.dev.filters h p = true ∨ (s.dev.assoc a).state ≠ 1 ∨ (s.dev.assoc a).nonce = none ∨ s.dev.helloOk h secret mac p = false ∨
          e ≠ (s.dev.assoc a).aepoch ∨ secret ≠ (if (s.dev.assoc a).secret then 1 else 0) ∨ s.dev.permittedId h.src idHash = false →
          exec (.helloRsp h nonce idHash secret e mac) s = .next (withDev s s.dev.rxDrop)) ∧
        (∀ n, s.dev.filters h p = false → (s.dev.assoc a).state = 1 → (s.dev.assoc a).nonce = some n → s.dev.helloOk h secret mac p = true →
          e = (s.dev.assoc a).aepoch → secret = (if (s.dev.assoc a).secret then 1 else 0) → s.dev.permittedId h.src idHash = true →
          let k := s.dev.keyed0 a e true (s.dev.assoc a).secret n nonce
          exec (.helloRsp h nonce idHash secret e mac) s = .next (s.did (k.transmit
            { assoc := a, cid := 0, psn := 0, payload := .keepalive, flags := {}, prio := 2 })) ∧
          (k.assoc a).state = 1 ∧ (k.assoc a).phase0 = true ∧ (k.assoc a).phase1 = false ∧ (k.assoc a).aepoch = e ∧
          (k.assoc a).storedEpoch = e ∧ (k.assoc a).initiator = true ∧ (k.assoc a).txSeq = 0 ∧ (∀ b, b ≠ a → k.assoc b = s.dev.assoc b)))) ∧
    -- the association's timers and its change of keys
    ((s.dev.assoc a).phase0 = true ∨ (s.dev.assoc a).phase1 = true → exec (.keepaliveTimer a) s =
      .next (s.did ((s.dev.at ((s.dev.assoc a).lastTx + fclkMs)).transmit { assoc := a, cid := 0, psn := 0, payload := .keepalive, flags := {}, prio := 2 }))) ∧
    ((s.dev.assoc a).phase0 = false → (s.dev.assoc a).phase1 = false → exec (.keepaliveTimer a) s = .next s) ∧
    ((s.dev.assoc a).state = 0 → exec (.associationDownTimeout a) s = .next s) ∧
    ((s.dev.assoc a).state ≠ 0 → let u := s.dev.at ((s.dev.assoc a).lastRx + 10 * fclkMs)
      exec (.associationDownTimeout a) s = .next (s.did (u.assocDown a).settle) ∧
      ((s.dev.assoc a).conns.list = [] → s.dev.bit Reg.MIR.CFG.PAIRED = false → s.dev.round.borrow.list = [] →
        let v := u.assocDown a
        (v.assoc a).state = 0 ∧ (v.assoc a).phase0 = false ∧ (v.assoc a).phase1 = false ∧ (v.assoc a).nonce = none ∧
        (∀ b, b ≠ a → v.assoc b = s.dev.assoc b) ∧ v.frames = s.dev.frames ∧ v.out = s.dev.out)) ∧
    ((s.dev.assoc a).state ≠ 2 → exec (.paCfgRekey a) s = .next s) ∧
    ((s.dev.assoc a).state = 2 → exec (.paCfgRekey a) s = .next (s.did ((s.dev.rekeyAsk a).pump a 0)) ∧
      (∀ c, s.dev.conn a 0 = some c → (s.dev.assoc a).rekeySent = none → let u := s.dev.rekeyAsk a
        (u.assoc a).state = 3 ∧ (∃ n, (u.assoc a).rekeySent = some n ∧ ∃ c', u.conn a 0 = some c' ∧ c'.nextPsn = psnNext c.nextPsn ∧
          ∃ e, c'.sent.get? c.nextPsn = some e ∧ e.payload = .rekey n ∧ e.unsent = true))) ∧
    ((s.dev.assoc a).retire = none → exec (.oldKeyPhaseRetire a) s = .next s) ∧
    (∀ at_, (s.dev.assoc a).retire = some at_ → ∃ t, exec (.oldKeyPhaseRetire a) s = .next t ∧ (t.dev.assoc a).state = 2 ∧
      (t.dev.assoc a).retire = none ∧ (t.dev.assoc a).phase0 = ((s.dev.assoc a).phase0 && !(s.dev.assoc a).kph) ∧
      (t.dev.assoc a).phase1 = ((s.dev.assoc a).phase1 && (s.dev.assoc a).kph) ∧
      t.dev.island.links.get? (linkSlot a (!(s.dev.assoc a).kph) true) = none ∧ t.dev.island.links.get? (linkSlot a (!(s.dev.assoc a).kph) false) = none ∧
      (∀ b, b ≠ a → t.dev.assoc b = s.dev.assoc b) ∧ t.sent = s.sent) ∧
    -- Ethernet ports
    (∀ p, s.dev.bit Reg.TWL.CFG.ENABLE = true → p < s.dev.twlPorts → s.dev.get (Reg.TWL.PORT_STS.SPEED p) = 0 →
      exec (.twinsetPortUp p) s = .next (withDev s ((((s.dev.set (Reg.TWL.PORT_STS.SPEED p) (s.dev.twlFull p).1).set
        (Reg.TWL.PORT_STS.LANES p) (s.dev.twlFull p).2).calTrained (128 + 8 / s.dev.twlPorts * p) (8 / s.dev.twlPorts)).raise (portEv 0x1C0 p)))) ∧
    (∀ p, s.dev.bit Reg.TWL.CFG.ENABLE = false ∨ s.dev.twlPorts ≤ p ∨ s.dev.get (Reg.TWL.PORT_STS.SPEED p) ≠ 0 → exec (.twinsetPortUp p) s = .next s) ∧
    (∀ p lanes, p < s.dev.twlPorts → s.dev.get (Reg.TWL.PORT_STS.SPEED p) ≠ 0 → exec (.twinsetPortDown p lanes) s =
      .next (withDev s (if s.dev.get Reg.TWL.CFG.PORTS = 2 ∧ (lanes = 2 ^ (2 * p) ∨ lanes = 2 ^ (2 * p + 1)) ∧
          s.dev.get (Reg.TWL.PORT_STS.SPEED p) = 2
        then ((s.dev.set (Reg.TWL.PORT_STS.SPEED p) 1).set (Reg.TWL.PORT_STS.LANES p) lanes).raise (portEv 0x1C2 p)
        else ((s.dev.set (Reg.TWL.PORT_STS.SPEED p) 0).set (Reg.TWL.PORT_STS.LANES p) 0).raise (portEv 0x1C1 p)))) ∧
    (∀ p lanes, s.dev.twlPorts ≤ p ∨ s.dev.get (Reg.TWL.PORT_STS.SPEED p) = 0 → exec (.twinsetPortDown p lanes) s = .next s) ∧
    (∀ p prio, s.dev.bit Reg.TWL.CFG.PFC_EN = true → (s.dev.get Reg.TWL.PFC.PRI).testBit prio = true →
      (exec (.pfcPause p prio true) s = .next (withDev s
        { s.dev with paused := s.dev.paused.put (p * 8 + prio) (s.dev.paused.getD (p * 8 + prio) s.dev.clock) })) ∧
      (let mine := fun (h : TxHeld) => s.dev.portOf h.assoc h.cid == some p && s.dev.pcp h.prio == prio
       exec (.pfcPause p prio false) s = .next (s.did ((s.dev.txHeld.filter mine).foldl Dev.emit
          { s.dev with paused := s.dev.paused.del (p * 8 + prio), txHeld := s.dev.txHeld.filter fun h => !mine h })))) ∧
    (∀ p prio b, s.dev.bit Reg.TWL.CFG.PFC_EN = false ∨ (s.dev.get Reg.TWL.PFC.PRI).testBit prio = false → exec (.pfcPause p prio b) s = .next s) ∧
    (∀ p prio at_, s.dev.paused.get? (p * 8 + prio) = some at_ →
      exec (.pfcPauseLimit p prio) s = .next (withDev s ((s.dev.at (at_ + 100 * fclkMs + 1)).raise (portEv 0x1C4 p)))) ∧
    (∀ p prio, s.dev.paused.get? (p * 8 + prio) = none → exec (.pfcPauseLimit p prio) s = .next s) ∧
    (∀ p, p < 4 → exec (.fecUncorrectableCodeword p) s = .next (withDev s
      ((s.dev.count (Reg.TWL.FEC_UE.COUNT p) (Reg.TWL.FEC_UE.SAT p) 1 (Ev.plain 0x1C5)).raise (portEv 0x1C3 p)))) ∧
    (∀ p, 4 ≤ p → exec (.fecUncorrectableCodeword p) s = .next s) ∧
    -- requests sent again
    (∀ cid psn c e, s.dev.conn a cid = some c → c.sent.get? psn = some e →
      (c.state = 1 → e.unsent = false → e.rnr = none → (c.relaxed = true → e.sacked = false) →
        let u := s.dev.at (e.at_ + s.dev.get Reg.TWT.RETX.RTO_US * 2 ^ min e.timeouts (s.dev.get Reg.TWT.RETX.BACKOFF) * fclkUs)
        (s.dev.get Reg.TWT.RETX.RETRY_MAX ≤ e.timeouts + 1 → exec (.retransmitTimeout a cid psn) s = .next (s.did (u.connError a cid 0 psn).settle)) ∧
        (e.timeouts + 1 < s.dev.get Reg.TWT.RETX.RETRY_MAX →
          let v := u.setConn a cid { c with sent := c.sent.put psn { e with timeouts := e.timeouts + 1 } }
          exec (.retransmitTimeout a cid psn) s = .next (s.did (if c.relaxed then v.resend a cid psn else v.goBack a cid c.una).settle))) ∧
      (c.state ≠ 1 ∨ e.unsent = true ∨ e.rnr ≠ none ∨ (c.relaxed = true ∧ e.sacked = true) → calm s.dev →
        exec (.retransmitTimeout a cid psn) s = .next s) ∧
      (e.rnr = none → exec (.rnrRetry a cid psn) s = .next s) ∧
      (∀ at_, e.rnr = some at_ → let v := (s.dev.at at_).setConn a cid { c with sent := c.sent.put psn { e with rnr := none } }
        exec (.rnrRetry a cid psn) s = .next (s.did (if c.relaxed then v.resend a cid psn else v.goBack a cid psn)))) ∧
    -- a request sent again leaves with AR and RETX, and is counted
    (∀ cid psn c e p, s.dev.conn a cid = some c → c.sent.get? psn = some e → s.dev.portOf a cid = some p →
      s.dev.paused.has (p * 8 + s.dev.pcp c.prio) = true →
      let u := s.dev.resend a cid psn
      ∃ h, u.txHeld = s.dev.txHeld ++ [h] ∧ h.assoc = a ∧ h.cid = cid ∧ h.psn = psn ∧ h.payload = e.payload ∧ h.flags.ar = true ∧ h.flags.retx = true ∧
        h.flags.fence = e.fence ∧ u.out = s.dev.out) ∧
    (∀ cid psn, (s.dev.conn a cid = none ∨ ∃ c, s.dev.conn a cid = some c ∧ c.sent.get? psn = none) →
      exec (.rnrRetry a cid psn) s = .next s ∧ (calm s.dev → exec (.retransmitTimeout a cid psn) s = .next s)) ∧
    -- acknowledgements, rates and contexts
    (∀ cid c, s.dev.conn a cid = some c →
      (c.unacked = 0 → exec (.ackDelayExpiry a cid) s = .next s) ∧
      (0 < c.unacked → let u := s.dev.at (c.unackedSince + s.dev.get Reg.TWT.ACK.DELAY_100NS * 200)
        exec (.ackDelayExpiry a cid) s = .next (s.did (u.sendAck a cid).retryContexts)) ∧
      (c.cached = true → s.dev.bit Reg.CCC.CFG.CC_EN = true →
        let u := s.dev.at (c.stepAt + s.dev.get Reg.CCC.TIMERS.RAI_US * fclkUs)
        exec (.rateRecoveryTick a cid) s = .next (s.did ((u.setConn a cid { u.rateStep a cid c with stepAt := u.clock }).rateFloor a cid)) ∧
        (u.rateStep a cid c).steps = c.steps + 1 ∧ (u.rateStep a cid c).rc = min (s.dev.lineRate a cid) ((c.rc + (u.rateStep a cid c).rt) / 2) ∧
        (u.rateStep a cid c).rt = if s.dev.get Reg.CCC.CFG.F_STEPS < c.steps + 1 then min (s.dev.lineRate a cid) (c.rt + s.dev.get Reg.CCC.RATES.R_AI_MBPS)
          else c.rt) ∧
      (c.cached = false ∨ s.dev.bit Reg.CCC.CFG.CC_EN = false → exec (.rateRecoveryTick a cid) s = .next s) ∧
      (∀ lost, c.refill = false → exec (.contextRefillDone a cid lost) s = .next s) ∧
      (∀ lost, c.refill = true →
        let u := (s.dev.at (c.refillAt + refillFclk)).xptReadAll c.context
        (u.2 = false ∨ (lost = true ∧ u.1.chanCount < 2) →
          let v := u.1.setConn a cid { c with refill := false, cached := true, refillHeld := [] }
          exec (.contextRefillDone a cid lost) s = .next (s.did ((v.connError a cid 0 0).raise
            (twEv v 0x1E2 true (some a) cid 0 0 0 noPlace 0 false)))) ∧
        (u.2 = true → lost = false ∨ 2 ≤ u.1.chanCount → c.refillHeld = [] → u.1.bit Reg.CCC.CFG.CC_EN = false →
          exec (.contextRefillDone a cid lost) s = .next (s.did
            (((u.1.setConn a cid { c with refill := false, cached := true, refillHeld := [], used := u.1.clock }).pump a cid).retryContexts).settle)))) ∧
    (∀ cid lost, s.dev.conn a cid = none → exec (.ackDelayExpiry a cid) s = .next s ∧ exec (.rateRecoveryTick a cid) s = .next s ∧
      exec (.contextRefillDone a cid lost) s = .next s)

/-- Received packets: one from no peer, filtered or of another epoch is dropped, one that does not verify or comes twice is counted and reported;
one that verifies, and a sequenced one whose turn has come, is carried out by its opcode, its PSN passed and its acknowledgement sent where it is due;
one on a closed connection is refused (R266, R269, R271, R273, R278, R279, R284–R296, R306, R312, R319, R332, R339, R345, R350). -/
def Obligations.PacketsAreCarriedOut : Prop :=
  ∀ (s : State) (a : Nat),
    -- every packet of the table is received; after a READ the waits it may end are looked at
    (∀ i h p, packetOf i = some (h, p) → exec i s =
      .next (s.did (match p with | .read .. => (s.dev.receive h p).settle | _ => s.dev.receive h p))) ∧
    -- what is not carried out
    (∀ h p, s.dev.rxAssoc h.src = none → s.dev.receive h p = s.dev.rxDrop) ∧
    (∀ h p, s.dev.rxAssoc h.src = some a → (s.dev.pfcSend h).filters h p = true ∨ ((s.dev.assoc a).state ≠ 0 ∧ h.aepoch ≠ (s.dev.assoc a).aepoch) →
      s.dev.receive h p = (s.dev.pfcSend h).rxDrop) ∧
    (∀ h p, s.dev.rxAssoc h.src = some a → (s.dev.pfcSend h).filters h p = false → (s.dev.assoc a).state = 0 ∨
        (h.aepoch = (s.dev.assoc a).aepoch ∧ (if h.kph then (s.dev.assoc a).phase1 else (s.dev.assoc a).phase0) = false) →
      let u := s.dev.pfcSend h
      s.dev.receive h p = ((u.count Reg.TWT.ICV_FAIL.COUNT Reg.TWT.ICV_FAIL.SAT 1 (Ev.plain 0x1DC)).raise
        (twRec u 0x1D2 true (some a) h.port h.cid 0 p.opcode h.psn noPlace 0 false)).icvFallback a h p) ∧
    (∀ h p, s.dev.rxAssoc h.src = some a → (s.dev.pfcSend h).filters h p = false → (s.dev.assoc a).state ≠ 0 → h.aepoch = (s.dev.assoc a).aepoch →
      (if h.kph then (s.dev.assoc a).phase1 else (s.dev.assoc a).phase0) = true →
      let u := opened s h a p
      (u.2 = false ∨ h.icv ≠ u.1.rxIcv a h p → s.dev.receive h p =
        ((u.1.count Reg.TWT.ICV_FAIL.COUNT Reg.TWT.ICV_FAIL.SAT 1 (Ev.plain 0x1DC)).raise
          (twRec u.1 0x1D2 true (some a) h.port h.cid 0 p.opcode h.psn noPlace 0 (!u.2))).icvFallback a h p) ∧
      (u.2 = true → h.icv = u.1.rxIcv a h p → (s.dev.assoc a).fresh h = false → s.dev.receive h p =
        (u.1.count Reg.TWT.REPLAY.COUNT Reg.TWT.REPLAY.SAT 1 (Ev.plain 0x1DC)).raise (twRx u.1 0x1D3 a h p 0 0))) ∧
    (∀ i h p, packetOf i = some (h, p) → verifies s h a p → sequenced p = false → h.badOp = true → s.dev.receive h p = ((heard s h a p).refuseNak a h p 0x0A 0).revokeAll) ∧
    (∀ h p, verifies s h a p → sequenced p = true → ((heard s h a p).conn a h.cid = none ∨ ∃ c, (heard s h a p).conn a h.cid = some c ∧ c.state = 2) →
      s.dev.receive h p = ((heard s h a p).refuseNak a h p 0x0B 0).revokeAll) ∧
    -- outside the sequence
    (∀ (h : RxHdr), h.badOp = false →
      (verifies s h a .keepalive → exec (.keepalive h) s = .next (s.did (heard s h a .keepalive).revokeAll)) ∧
      (∀ psn sack ce pkt ts, verifies s h a (.ack psn sack ce pkt ts) → exec (.ackPkt h psn sack ce pkt ts) s =
        .next (s.did ((heard s h a (.ack psn sack ce pkt ts)).rxAck a h psn sack ce pkt ts).revokeAll)) ∧
      (∀ psn code rnr target gen ts, verifies s h a (.nak psn code rnr target gen ts) → exec (.nakPkt h psn code rnr (target, gen) ts) s =
        .next (s.did ((heard s h a (.nak psn code rnr target gen ts)).rxNak a h psn code rnr target gen).revokeAll)) ∧
      (∀ loan target gen granule count addr tag dup poison valid service tgtGen lines,
        let p := Payload.readResp loan target gen granule count addr tag dup poison valid service tgtGen lines
        verifies s h a p → exec (.readResp h ⟨loan, target, gen, granule, count, addr, tag⟩ dup poison valid (service, tgtGen) lines) s =
          .next (s.did ((heard s h a p).rxReadResp a h tag dup poison valid lines).revokeAll))) ∧
    -- refused, and not ready, in its turn
    (∀ h p c u code gen, inTurn s h a c p → sequenced p = true → (taken s h a c p).execute a h.cid h p = (u, .refuse code gen) →
      (∀ k, (taken s h a c p).conn a h.cid = some k → k.refusals.size < 64) →
      let v := match u.conn a h.cid with
        | some k => u.setConn a h.cid { k.mark h.psn false with refusals := (k.mark h.psn false).refusals.put h.psn code }
        | none => u
      let w := v.refuseNak a h p code gen
      s.dev.receive h p = (if c.relaxed then w.runHeld a h.cid 65 else w).revokeAll) ∧
    (∀ h p c u, inTurn s h a c p → sequenced p = true → (taken s h a c p).execute a h.cid h p = (u, .rnr) →
      let w := u.sendNak a h h.psn 0x02 10 p.place.1 0
      s.dev.receive h p = (if c.relaxed then w.runHeld a h.cid 65 else w).revokeAll) ∧
    -- in its turn
    (∀ (h : RxHdr) c,
      let d := fun (p : Payload) => taken s h a c p
      let ok := fun (p : Payload) (v : Dev) => Host.Outcome.next (φ := Fault) (ρ := Refusal) (s.did (passedWith (d p) v h a c .ok false))
      (h.cid = 0 →
        (∀ cid relaxed purpose window lane prio psn, let p := Payload.open cid relaxed purpose window lane prio psn
          inTurn s h a c p → 0 < window → window ≤ 4096 → exec (.openReq h cid relaxed purpose window lane prio psn) s =
            ok p ((d p).rxOpen a cid relaxed purpose window lane prio psn)) ∧
        (∀ cid relaxed purpose window lane prio psn status, let p := Payload.openRsp cid relaxed purpose window lane prio psn status
          inTurn s h a c p → exec (.openRsp h cid relaxed purpose window lane prio psn status) s =
            ok p ((d p).rxOpenRsp a cid relaxed purpose window lane prio psn status)) ∧
        (∀ cid, inTurn s h a c (.close cid) → exec (.closePkt h cid) s = ok (.close cid) ((d (.close cid)).rxClose a cid)) ∧
        (∀ nonce, inTurn s h a c (.rekey nonce) → exec (.rekey h nonce) s = ok (.rekey nonce) ((d (.rekey nonce)).rxRekey a nonce))) ∧
      (∀ lane recs, let p := Payload.laneRec lane recs
        inTurn s h a c p → ((d p).rxLane a recs).2 = .ok → exec (.laneRec h lane recs) s = ok p ((d p).rxLane a recs).1) ∧
      (∀ frag last cmd, let p := Payload.cmdFwd frag last cmd
        let q := (d p).rxCmd a h.cid h.psn frag last cmd
        inTurn s h a c p → q.2 = .ok ∨ q.2 = .later → exec (.cmdFwd h frag last cmd) s = .next (s.did (passedWith (d p) q.1 h a c q.2 false))) ∧
      (∀ loan target gen granule count addr tag, let p := Payload.read loan target gen granule count addr tag
        let q := (d p).rxRead a h.cid h.psn loan target gen granule count addr tag
        inTurn s h a c p → q.2 = .answered ∨ q.2 = .later → exec (.readPkt h loan target gen granule count addr tag) s =
          .next (s.did (passedWith (d p) q.1 h a c q.2 false).settle)) ∧
      (∀ loan target gen granule count addr tag lines, let p := Payload.write loan target gen granule count addr tag lines
        let q := (d p).rxWrite a loan target gen granule count addr tag lines
        inTurn s h a c p → q.2 = .ok → exec (.writePkt h loan target gen granule count addr tag lines) s = ok p q.1) ∧
      (∀ (m : LeaseMsg), let p := fun (k : Nat) => Payload.lease { m with subtype := k }
        let goes := fun (k : Nat) => ok (p k) ((d (p k)).referee ((d (p k)).assoc a).member { m with subtype := k })
        (inTurn s h a c (p 1) → exec (.renew h m) s = goes 1) ∧ (inTurn s h a c (p 2) → exec (.acquire h m) s = goes 2) ∧
        (inTurn s h a c (p 3) → exec (.detach h m) s = goes 3) ∧ (inTurn s h a c (p 4) → exec (.attach h m) s = goes 4) ∧
        (inTurn s h a c (p 5) → exec (.releaseMsg h m) s = goes 5) ∧
        (∀ k, k = 6 ∨ k = 7 → inTurn s h a c (p k) →
          let i := if k = 6 then Instr.leaseGrant h m else Instr.leaseDeny h m
          ((d (p k)).bit Reg.MIR.CFG.REF_HOST = false → ((d (p k)).assoc a).member = (d (p k)).get Reg.MIR.CFG.REF_MEMBER →
            exec i s = ok (p k) ((d (p k)).leaseAnswer { m with subtype := k })) ∧
          ((d (p k)).bit Reg.MIR.CFG.REF_HOST = true ∨ ((d (p k)).assoc a).member ≠ (d (p k)).get Reg.MIR.CFG.REF_MEMBER →
            exec i s = ok (p k) (d (p k))))) ∧
      (∀ entries last joined, let p := Payload.table entries last joined
        let q := (d p).rxTable a h.psn entries last joined
        inTurn s h a c p → q.2 = .ok ∨ q.2 = .later → exec (.tableMsg h entries last joined) s = .next (s.did (passedWith (d p) q.1 h a c q.2 false))) ∧
      (∀ runs last, let p := Payload.divrun runs last
        inTurn s h a c p → ((d p).rxDivrun a runs last).2 = .ok → exec (.divrun h runs last none) s = ok p ((d p).rxDivrun a runs last).1) ∧
      (∀ runs last region, let p := Payload.keyWait region
        inTurn s h a c p → ((d p).rxKeyWait a region).2 = .ok → exec (.divrun h runs last (some region)) s = ok p ((d p).rxKeyWait a region).1) ∧
      (∀ t, inTurn s h a c (.token t) → exec (.tokenMsg h t) s = ok (.token t) ((d (.token t)).rxToken t h.hopNs)) ∧
      (∀ j, inTurn s h a c (.join j) → exec (.joinMsg h j) s = ok (.join j) ((d (.join j)).rxJoin a j)) ∧
      (∀ member reason, let p := Payload.joinRsp member reason
        inTurn s h a c p → exec (.joinRsp h member reason) s = ok p ((d p).rxJoinRsp ((d p).assoc a).member member reason)) ∧
      (∀ (m : LoanMsg), let p := Payload.loanMsg m
        inTurn s h a c p → let t := ok p ((d p).rxLoan ((d p).assoc a).member m)
        (m = { subtype := 1, avail := m.avail } → exec (.offerMsg h m.avail) s = t) ∧
        (m = { subtype := 2, rseq := m.rseq } → exec (.loanRequest h m.rseq) s = t) ∧
        (m = { subtype := 3, loan := m.loan, gen := m.gen, rseq := m.rseq } → exec (.loanGrant h m.loan m.gen m.rseq) s = t) ∧
        (m = { subtype := 4, reason := m.reason, rseq := m.rseq } → exec (.loanRefuse h m.reason m.rseq) s = t) ∧
        (m = { subtype := 5, loan := m.loan, gen := m.gen } → exec (.reclaim h m.loan m.gen) s = t) ∧
        (m = { subtype := 6, loan := m.loan, gen := m.gen } → exec (.loanReturn h m.loan m.gen) s = t))) ∧
    (∀ h c, let g : RxHdr := { h with fence := true, ar := true }
      let d := taken s g a c .fence
      inTurn s g a c .fence → d.applies a = true → exec (.fencePkt h) s = .next (s.did (passedWith d d g a c .ok true)))

/-! ## Mirroring, leases and the Round -/

/-- Timers of the lease, the referee, resync and the Round: each request, fence, grant, copy, token, return and reclaim that the time or the
free memory calls for happens, from the state the rules name, and from another one nothing does (R316, R320–R323, R331, R332, R339, R340, R342, R345,
R351, R352, R354). -/
def Obligations.LeaseAndRoundTimersTakeEffect : Prop :=
  ∀ (s : State), quiet s →
    -- the lease
    (let v := s.dev.at ((s.dev.mirror.lastRenew + oRenew) * fclkOclk)
      let u : Dev := { v with mirror := { v.mirror with lastRenew := v.oclk } }
      (s.dev.bit Reg.CKS.PLL_STS.HOLDOVER = true → exec .leaseRenewTimer s = .next (s.did u)) ∧
      (s.dev.bit Reg.CKS.PLL_STS.HOLDOVER = false →
        (s.dev.role = 1 ∨ s.dev.role = 3 → exec .leaseRenewTimer s = .next (s.did (u.leaseRequest 1 (.plain 1)))) ∧
        (s.dev.role = 2 → exec .leaseRenewTimer s = .next (s.did (u.leaseRequest 2 { LeaseMsg.plain 2 with running := true }))) ∧
        (s.dev.role = 6 → s.dev.imageOnline = true → s.dev.get Reg.NVH.IMG_STS.STATE < 6 → exec .leaseRenewTimer s =
          .next (s.did (u.leaseRequest 2 { LeaseMsg.plain 2 with clean := s.dev.mirror.clean }))) ∧
        (s.dev.role ∉ [1, 2, 3, 6] ∨ s.dev.role = 6 ∧ (s.dev.imageOnline = false ∨ 6 ≤ s.dev.get Reg.NVH.IMG_STS.STATE) →
          exec .leaseRenewTimer s = .next (s.did u)))) ∧
    (∀ at_ m rest, s.dev.mirror.requests = (at_, m) :: rest → m.running = false →
      let u := s.dev.at ((at_ + oRetry) * fclkOclk)
      (m.subtype ≠ 1 → exec .leaseRetryTimer s = .next (s.did (u.leaseRequest m.subtype m))) ∧
      (m.subtype = 1 → exec .leaseRetryTimer s = .next (s.did ((u.count Reg.MIR.RENEW_FAIL.COUNT Reg.MIR.RENEW_FAIL.SAT 1
        (mirEv u 0x1FE false u.role none 0 0 none none)).leaseRequest 1 m)))) ∧
    (s.dev.mirror.requests = [] ∨ (∃ at_ m rest, s.dev.mirror.requests = (at_, m) :: rest ∧ m.running = true) → exec .leaseRetryTimer s = .next s) ∧
    (∀ e, s.dev.role = 1 → s.dev.mirror.leaseEnd = some e → exec .leaseFencePoint s =
      .next (s.did (s.dev.at ((e - oGuard) * fclkOclk)).fenceSelf)) ∧
    (s.dev.role ≠ 1 ∨ s.dev.mirror.leaseEnd = none → exec .leaseFencePoint s = .next s) ∧
    (s.dev.role = 3 → s.dev.mirror.draining = true → exec .drainExpiry s =
      .next (s.did (s.dev.at ((s.dev.mirror.fencedAt + oDrain) * fclkOclk)).drainEnd)) ∧
    (s.dev.role ≠ 3 ∨ s.dev.mirror.draining = false → exec .drainExpiry s = .next s) ∧
    (∀ l, s.dev.lockstep = true → l < 16 → (s.dev.lane l).pending.list ≠ [] ∨ (s.dev.lane l).refused ≠ [] ∨ (s.dev.lane l).queue ≠ [] →
      exec (.detachTimeout l) s = .next (s.did (s.dev.at ((s.dev.lane l).advanced + s.dev.get Reg.MIR.DETACH.DETACH_MS * fclkMs)).startDetach)) ∧
    (∀ l, s.dev.lockstep = false ∨ 16 ≤ l ∨ ((s.dev.lane l).pending.list = [] ∧ (s.dev.lane l).refused = [] ∧ (s.dev.lane l).queue = []) →
      exec (.detachTimeout l) s = .next s) ∧
    -- the referee
    (∀ k p m w rest, s.dev.refPairs.get? k = some p → p.en = true → p.held = m :: rest → p.twin m.1 = some w →
      (p.when w m.2 = some p.lapse → exec (.refereeLapse k) s = .next (s.did ((s.dev.at (p.lapse * fclkOclk)).refGrant k p w m.2 []))) ∧
      (p.when w m.2 = some (p.lapse + oHoldWait) → exec (.refereeHoldWait k) s =
        .next (s.did ((s.dev.at ((p.lapse + oHoldWait) * fclkOclk)).refGrant k p w m.2 [])))) ∧
    (∀ d k p w m also, ∃ q, (Dev.refGrant d k p w m also).refPairs.get? k = some q ∧ q.epoch = p.epoch + 1 ∧ q.holder = w ∧ q.stbyOk = false ∧
      q.end_ = d.oclk + oLease ∧ q.en = p.en ∧ q.pairId = p.pairId ∧ (∀ x ∈ q.held, x.1 ≠ p.member w) ∧
      ∃ r l, q.waiting = p.waiting ++ [(r, l)] ∧ r.epoch = p.epoch + 1 ∧ r.holder = w) ∧
    (∀ k, (s.dev.refPairs.get? k = none ∨ ∃ p, s.dev.refPairs.get? k = some p ∧ (p.en = false ∨ p.held = [])) →
      exec (.refereeLapse k) s = .next s ∧ exec (.refereeHoldWait k) s = .next s) ∧
    (∀ k p r answers rest, s.dev.refPairs.get? k = some p → p.waiting = (r, answers) :: rest → exec (.refereeLogRecordProgrammed k) s =
      .next (s.did (({ s.dev with refPairs := s.dev.refPairs.put k { p with waiting := rest },
                                  refLog := (s.dev.refLog.filter fun x => x.slot != k) ++
                                    [({ r with seq := s.dev.refLog.foldl (fun m x => max m (x.seq + 1)) 0 } : RefLog).sealed (s.dev.internalKey 1)] } :
                                      Dev).refSendAll answers))) ∧
    (∀ k, (s.dev.refPairs.get? k = none ∨ ∃ p, s.dev.refPairs.get? k = some p ∧ p.waiting = []) → exec (.refereeLogRecordProgrammed k) s = .next s) ∧
    -- resync
    (s.dev.resyncReady = true → s.dev.bit Reg.MIR.CFG.AUTO_RESYNC = true → exec .resyncStart s = .next (s.did s.dev.startResync)) ∧
    (s.dev.resyncReady = false ∨ s.dev.bit Reg.MIR.CFG.AUTO_RESYNC = false → exec .resyncStart s = .next s) ∧
    (s.dev.role = 1 → s.dev.pstate = 3 → s.dev.mirror.resyncStep = 4 → s.dev.get Reg.MIR.RESYNC.RATE ≠ 0 →
      let u := s.dev.at s.dev.mirror.copyAt
      (s.dev.mirror.div = .empty → exec .resyncCopyStep s = .next (s.did (u.setBit Reg.MIR.RSYNC_STS.KEY_WAIT false).joinCheck)) ∧
      (∀ g, s.dev.mirror.div = ⟨[(g, ())]⟩ → s.dev.mirror.copies = .empty → s.dev.copyNeed g = .ready →
        let v := u.setBit Reg.MIR.RSYNC_STS.KEY_WAIT false
        v.copyNeed g = .ready → let w := (v.choose 1).2
          exec .resyncCopyStep s = .next (s.did (({ w with mirror := { w.mirror with copyAt := w.clock + ceilDiv fclkMs (w.get Reg.MIR.RESYNC.RATE) } } :
            Dev).copyGran g)))) ∧
    (s.dev.role ≠ 1 ∨ s.dev.pstate ≠ 3 ∨ s.dev.mirror.resyncStep ≠ 4 ∨ s.dev.get Reg.MIR.RESYNC.RATE = 0 → exec .resyncCopyStep s = .next s) ∧
    -- the Round
    (s.dev.rndState = 2 ∨ s.dev.rndState = 3 → s.dev.leader = some s.dev.me →
      exec .tokenPeriodTimer s = .next (s.did (s.dev.originate s.dev.roundEpoch 0))) ∧
    (s.dev.rndState ≠ 2 ∧ s.dev.rndState ≠ 3 ∨ s.dev.leader ≠ some s.dev.me → exec .tokenPeriodTimer s = .next s) ∧
    (∀ m x y tok at_, s.dev.round.forwarded = some (m, x, y, tok, at_) →
      let v := s.dev.at (at_ + s.dev.get Reg.RND.BUDGET.ROUND_US * fclkUs / 4)
      let u := v.setRnd { v.round with forwarded := none }
      exec .tokenForwardTimeout s = .next (s.did (u.tokenTo { tok with remove := tok.remove ||| 2 ^ m }
        (((afterIn u.me (membersOf tok.members)).dropWhile (· != m)).drop 1)).1)) ∧
    (s.dev.round.forwarded = none → exec .tokenForwardTimeout s = .next s) ∧
    (∀ l, s.dev.leader = some l → s.dev.rndState = 2 ∨ s.dev.rndState = 3 → l ≠ s.dev.me →
      (membersOf s.dev.ringMask).find? (fun m => m == s.dev.me || s.dev.memberUp m) = some s.dev.me →
      let u := (s.dev.at (s.dev.round.lastAt + 3 * s.dev.get Reg.RND.TOKEN.PERIOD_MS * fclkMs + s.dev.get Reg.RND.BUDGET.ROUND_US * fclkUs)).rndRaise
        0x205 l 0 0 0
      ∃ e, exec .leaderLostTimeout s = .next (s.did (u.originate (e + 1) (2 ^ l))) ∧
        (e = match u.round.last with | some t => t.epoch | none => u.roundEpoch)) ∧
    (s.dev.leader = none ∨ s.dev.leader = some s.dev.me ∨ (s.dev.rndState ≠ 2 ∧ s.dev.rndState ≠ 3) ∨
      (membersOf s.dev.ringMask).find? (fun m => m == s.dev.me || s.dev.memberUp m) ≠ some s.dev.me → exec .leaderLostTimeout s = .next s) ∧
    (s.dev.bit Reg.RND.LOCK.LOCK = true → exec .roundEnableWrite s = .next (withDev s (s.dev.discard 0x800000 1))) ∧
    (s.dev.bit Reg.RND.LOCK.LOCK = false → exec .roundEnableWrite s = .next (s.did s.dev.roundEnable)) ∧
    -- loans
    (∀ d, s.dev.freeFrames < s.dev.get Reg.RND.LEND.KEEP_FRAMES → s.dev.reclaimAny = some d →
      exec .loanReclaim s = .next (s.did (d.overcommit false).settle)) ∧
    (s.dev.get Reg.RND.LEND.KEEP_FRAMES ≤ s.dev.freeFrames ∨ s.dev.reclaimAny = none → exec .loanReclaim s = .next s) ∧
    (∀ k b at_, s.dev.round.borrow.get? k = some b → b.idleSince = some at_ → s.dev.get Reg.RND.BORROW.IDLE_S ≠ 0 → s.dev.loanIdle k = true →
      exec (.loanIdleReturn k) s = .next (s.did ((s.dev.at (at_ + s.dev.get Reg.RND.BORROW.IDLE_S * fclkS)).returnLoan k))) ∧
    (∀ k, (s.dev.round.borrow.get? k = none ∨ (∃ b, s.dev.round.borrow.get? k = some b ∧ b.idleSince = none) ∨
        s.dev.get Reg.RND.BORROW.IDLE_S = 0 ∨ s.dev.loanIdle k = false) → exec (.loanIdleReturn k) s = .next s) ∧
    (∀ x, s.dev.round.offered = some x → exec .loanOfferTimer s = .next (s.did (s.dev.at (x.2 + 100 * fclkMs)).offerCheck)) ∧
    (s.dev.round.offered = none → exec .loanOfferTimer s = .next (s.did s.dev.offerCheck)) ∧
    (let u := s.dev.assocs.list.foldl (fun d e => if d.round.borrow.keys.any fun k => k / 1024 == e.2.member then
        d.judgeLender e.1 e.2.member else d) s.dev
      let b : Tab Borrow := u.round.borrow.map fun k x => { x with idleSince := if u.loanIdle k then some (x.idleSince.getD u.clock) else none }
      exec .neighbourWindowTick s = .next (s.did (u.setRnd { u.round with borrow := b }).wantLoan)) ∧
    (s.dev.assocs.list = [] → s.dev.round.borrow.list = [] → s.dev.bit Reg.TMG.CFG.N_EN = false → exec .neighbourWindowTick s = .next s)

/-! ## Security island -/

/-- A signed operation that reaches the warden waits for its key-store record if every check passes, is refused with the result of the first
check that fails, and waits its turn behind another (R359, R371–R373, R500, R501). Its record programmed, it takes its effect: credentials,
secrets, keys, the image chosen, LAST_SEQ, and the record and completion that tell of it (R371–R386). -/
def Obligations.SignedOperationsTakeEffect : Prop :=
  ∀ (s : State),
    (∀ (d : Dev) p, (d.islandFree = false → d.submit s.fuses p = d.setIsland fun i => { i with queued := i.queued ++ [p] }) ∧
      (d.islandFree = true → (d.verify s.fuses p.op = 0 → d.submit s.fuses p = d.setIsland fun i => { i with pending := some p }) ∧
        (d.verify s.fuses p.op ≠ 0 → d.submit s.fuses p = d.refuseSigned p (d.verify s.fuses p.op)))) ∧
    -- every signed operation of the table; one over SPDM without a session, or whose ring command was not taken, is none
    (∀ i h b, signedOf i = some (h, b) → exec i s = .next (s.did (s.dev.signed s.fuses h b)) ∧
      (quiet s → (∀ n, h.chan = .spdm n → s.dev.spdmReachable n = false → exec i s = .next s) ∧
        (∀ n, h.chan = .spdm n → s.dev.spdmReachable n = true → s.dev.secured n = false → exec i s = .next (sends s (.message n spdmSessionRequired []))) ∧
        (∀ r, h.chan = .ring r → s.dev.takenOf r = none → exec i s = .next s))) ∧
    (∀ h d, let goes := fun b => Host.Outcome.next (φ := Fault) (ρ := Refusal) (s.did (d.submit s.fuses (signedAs h b)))
      (∀ key, reaches s h (.takeOwnership key) d → exec (.takeOwnership h key) s = goes (.takeOwnership key)) ∧
      (∀ key, reaches s h (.transfer key) d → exec (.transfer h key) s = goes (.transfer key)) ∧
      (∀ t key, reaches s h (.tenantEnrol t key) d → exec (.tenantEnrol h t key) s = goes (.tenantEnrol t key)) ∧
      (∀ l, reaches s h (.tenantBind h.cred l) d → exec (.tenantBind h l) s = goes (.tenantBind h.cred l)) ∧
      (∀ t l, h.cred ≠ 0xFFFF → reaches s h (.tenantUnbind h.cred l) d → exec (.tenantUnbind h t l) s = goes (.tenantUnbind h.cred l)) ∧
      (∀ t l, h.cred = 0xFFFF → reaches s h (.tenantUnbind t l) d → exec (.tenantUnbind h t l) s = goes (.tenantUnbind t l)) ∧
      (∀ t, reaches s h (.tenantRemove t) d → exec (.tenantRemove h t) s = goes (.tenantRemove t)) ∧
      (∀ n g t a, reaches s h (.regionShare n g t a) d → exec (.regionShare h n g t a) s = goes (.regionShare n g t a)) ∧
      (∀ k e m p, reaches s h (.keyInstall k (BitVec.ofNat 5 e) m p) d → exec (.keyInstall h k e m p) s = goes (.keyInstall k (BitVec.ofNat 5 e) m p)) ∧
      (∀ k e m, reaches s h (.keyRotate k (BitVec.ofNat 5 e) m) d → exec (.keyRotate h k e m) s = goes (.keyRotate k (BitVec.ofNat 5 e) m)) ∧
      (∀ k, reaches s h (.keyRemove k) d → exec (.keyRemove h k) s = goes (.keyRemove k)) ∧
      (∀ c k t, reaches s h (.zeroise c k t) d → exec (.zeroise h c k t) s = goes (.zeroise c k t)) ∧
      (∀ k x, reaches s h (.secretInstall k x) d → exec (.secretInstall h k x) s = goes (.secretInstall k x)) ∧
      (∀ o m k, reaches s h (.refereeSet o m k) d → exec (.refereeSet h o m k) s = goes (.refereeSet o m k)) ∧
      (∀ t, reaches s h (.fwActivate t) d → exec (.fwActivate h t) s = goes (.fwActivate t)) ∧
      (reaches s h .logClear d → exec (.logClear h) s = goes .logClear) ∧
      (∀ c l, reaches s h (.debugUnlock c l) d → exec (.debugUnlock h c l) s = goes (.debugUnlock c l))) ∧
    (s.dev.island.pending = none → quiet s → exec .keyStoreRecordPersisted s = .next s) ∧
    (∀ p, s.dev.island.pending = some p → let v := (s.dev.setIsland fun i => { i with pending := none }).persistSigned p
      exec .keyStoreRecordPersisted s =
        .next (s.did (if v.island.zeroising || v.island.pending.isSome then v else v.nextSigned s.fuses v.island.queued)) ∧
      (p.op.body ≠ .logClear → (∀ k t, p.op.body ≠ .zeroise 2 k t) → v = (((((recorded s).applySigned p.op).setSeq p.op.cred p.op.seq).raise
        (p.record p.op.body.event 0 p.op.body.object)).finishSigned p.chan ((recorded s).forwardSigned p.op)))) ∧
    (∀ (d : Dev) o, let u := d.applySigned o
      (∀ key, o.body = .takeOwnership key ∨ o.body = .transfer key → u.island.store.owner = some { key, lastSeq := o.seq }) ∧
      (∀ t key, o.body = .tenantEnrol t key → u.island.store.tenants.get? t = some { key, lastSeq := 0 }) ∧
      (∀ g l, o.body = .tenantBind o.cred l → g ∈ l → u.island.store.bind.get? g = some o.cred) ∧
      (∀ k e m, o.body = .keyInstall k e m none → u.slot k = ({ st := .active, epoch := e, tenant := o.cred, cur := m } : MemSlot).checked) ∧
      (∀ k, o.body = .keyRemove k → (u.slot k).st = .empty ∧ (u.slot k).cur = none ∧ (u.slot k).prev = none) ∧
      (∀ k t, o.body = .zeroise 0 k t → (u.slot k).st = .zeroised ∧ (u.slot k).cur = none ∧ (u.slot k).prev = none) ∧
      (∀ x, o.body = .secretInstall 4 x → u.island.store.secret4 = x) ∧ (∀ x, o.body = .secretInstall 5 x → u.island.store.secret5 = x) ∧
      (∀ t, o.body = .fwActivate t → t ≠ 2 → u.island.store.bootSel = (t == 1)) ∧
      (∀ c l, o.body = .debugUnlock c l → u.island.challenge = none ∧ u.get Reg.KSL.LIFECYCLE.DBG_LEVEL = l % 4))

/-- Boot, the key store and excursions: a verified image boots and releases the cores, else the other is tried once; a boot not done within
2 s falls back; a recovery image boots under the same rules; an excursion halts what runs, the third within 10 s locks the device out, and
the reload takes up what waits (R359, R360, R362, R365, R384). -/
def Obligations.TheIslandBoots : Prop :=
  ∀ (s : State), quiet s →
    (∀ ks stuck, s.dev.island.phase = 0 → s.dev.bit Reg.KSL.BOOT_STS.FAILED = false → s.dev.psq.extest = false →
      let b := if ks = .failed ∨ s.dev.island.store.erased then false else s.dev.island.store.bootSel
      (s.fuses.imageOk (s.dev.island.image b) = true → exec (.boot ks stuck) s = .next (s.did
        ((s.dev.set Reg.KSL.BOOT_STS.IMAGE (if b then 1 else 0)).startImage s.fuses (s.dev.island.image b) stuck ks))) ∧
      (s.fuses.imageOk (s.dev.island.image b) = false → s.fuses.imageOk (s.dev.island.image !b) = true → exec (.boot ks stuck) s =
        .next (s.did (((s.dev.set Reg.KSL.BOOT_STS.IMAGE (if !b then 1 else 0)).setBit Reg.KSL.BOOT_STS.FALLBACK true).startImage s.fuses
          (s.dev.island.image !b) stuck ks))) ∧
      (s.fuses.imageOk (s.dev.island.image b) = false → s.fuses.imageOk (s.dev.island.image !b) = false → ∃ t,
        exec (.boot ks stuck) s = .next t ∧ t.dev.bit Reg.KSL.BOOT_STS.FAILED = true ∧ t.dev.island.phase = 0 ∧ t.sent = s.sent)) ∧
    (∀ (d : Dev) m ks, let u := d.startImage s.fuses m true ks
      u.island.running = m ∧ u.island.phase = 1 ∧ u.regs = d.regs ∧ d.startImage s.fuses m false ks = u.releaseCores s.fuses ks) ∧
    (∀ ks stuck, s.dev.island.phase = 1 → let u := s.dev.at (s.dev.cks.tnow0 + 2 * fclkS * s.dev.island.bootTries)
      (s.dev.bit Reg.KSL.BOOT_STS.FALLBACK = true → ∃ t, exec (.bootTimeout ks stuck) s = .next t ∧
        t.dev.bit Reg.KSL.BOOT_STS.FAILED = true ∧ t.dev.island.phase = 0 ∧ t.sent = s.sent) ∧
      (s.dev.bit Reg.KSL.BOOT_STS.FALLBACK = false → s.dev.bit Reg.KSL.BOOT_STS.FAILED = false → exec (.bootTimeout ks stuck) s =
        .next (s.did (u.bootOther s.fuses (s.dev.get Reg.KSL.BOOT_STS.IMAGE == 0) stuck ks)))) ∧
    (∀ m ks stuck, s.dev.bit Reg.KSL.BOOT_STS.FAILED = true → s.dev.island.phase = 0 → s.fuses.imageOk m = true →
      exec (.recoveryImage m ks stuck) s = .next (s.did ((s.dev.setBit Reg.KSL.BOOT_STS.FALLBACK false).startImage s.fuses m stuck ks))) ∧
    (s.dev.island.phase = 2 → s.dev.bit Reg.KSL.BOOT_STS.FALLBACK = false →
      exec .bootCtlCommit s = .next (withDev s (s.dev.setPsq fun p => { p with fuse := true }))) ∧
    (s.dev.bit Reg.KSL.BOOT_STS.FALLBACK = true → exec .bootCtlCommit s = .next (withDev s (s.dev.raise (kslInner 0x082)))) ∧
    (s.dev.bit Reg.KSL.BOOT_STS.FALLBACK = false → s.dev.island.phase ≠ 2 → exec .bootCtlCommit s = .next s) ∧
    (∀ ks stuck, s.dev.island.phase ≠ 0 ∨ s.dev.bit Reg.KSL.BOOT_STS.FAILED = true ∨ s.dev.psq.extest = true → exec (.boot ks stuck) s = .next s) ∧
    (∀ ks stuck, s.dev.island.phase ≠ 1 → exec (.bootTimeout ks stuck) s = .next s) ∧
    (∀ m ks stuck, s.dev.bit Reg.KSL.BOOT_STS.FAILED = false ∨ s.dev.island.phase ≠ 0 ∨ s.fuses.imageOk m = false → exec (.recoveryImage m ks stuck) s = .next s) ∧
    (s.dev.island.phase ≠ 2 → exec .keyStoreCompaction s = .next s) ∧
    (s.dev.island.phase = 2 → exec .keyStoreCompaction s = .next (withDev s (s.dev.setStore KeyStore.compactStep))) ∧
    (∃ u, exec .islandExcursion s = .next (s.did u) ∧
      ((s.dev.island.excursions.filter fun x => decide (s.dev.clock ≤ x + 10 * fclkS)).length < 2 ∨ calm s.dev →
        u.island.pending = none ∧ u.island.queued = [] ∧ u.island.reloading = true ∧ u.island.challenge = none ∧ u.bit Reg.MGC.MBOX_STS.BUSY = false ∧
        u.island.store = s.dev.island.store ∧ u.get Reg.KSL.ISL_STS.EXCURSIONS = min 15 (s.dev.get Reg.KSL.ISL_STS.EXCURSIONS + 1) ∧ u.out = s.dev.out ∧
        u.bit Reg.KSL.ISL_STS.LOCKOUT = (s.dev.bit Reg.KSL.ISL_STS.LOCKOUT ||
          decide (2 ≤ (s.dev.island.excursions.filter fun x => decide (s.dev.clock ≤ x + 10 * fclkS)).length)))) ∧
    (s.dev.island.reloading = false → exec .islandReloadComplete s = .next s) ∧
    (s.dev.island.reloading = true → let u := s.dev.setIsland fun i => { i with reloading := false }
      exec .islandReloadComplete s = .next (s.did (u.nextSigned s.fuses s.dev.island.queued).settle))

/-- SPDM on an instance that can be reached: a request before its turn is answered UnexpectedRequest; in its turn it is answered, and leads
the connection and its sessions on: version, capabilities, algorithms, certificates, measurements, the key exchange and what a session then
does; the debug challenge is kept for one use (R86, R366–R370, R382; codes, phases and chunk size: log entry 39). -/
def Obligations.SpdmAnswers : Prop :=
  ∀ (s : State) (n : Nat), s.dev.spdmReachable n = true → let x := s.dev.spdmInst n
    let replies := fun (d : Dev) (code : Nat) (l : List Nat) => Host.Outcome.next (φ := Fault) (ρ := Refusal) (s.did (d.send (.message n code l)))
    let put := fun (y : SpdmInst) => s.dev.setSpdm n y
    exec (.getVersion n) s = replies (put { phase := 1 }) spdmOk [0x13] ∧
    (x.phase = 1 → exec (.getCapabilities n) s = replies (put { x with phase := 2 }) spdmOk [16384]) ∧
    (x.phase ≠ 1 → exec (.getCapabilities n) s = replies s.dev spdmUnexpected []) ∧
    (x.phase = 2 → exec (.negotiateAlgorithms n true true true true) s = replies (put { x with phase := 3 }) spdmOk [1, 1, 1, 1] ∧
      ∀ a b c d, (a && b && c && d) = false → exec (.negotiateAlgorithms n a b c d) s = replies s.dev spdmInvalid []) ∧
    (x.phase < 3 → exec (.getDigests n) s = replies s.dev spdmUnexpected [] ∧ (∀ i o l, exec (.getCertificate n i o l) s = replies s.dev spdmUnexpected []) ∧
      (∀ i v, exec (.challenge n i v) s = replies s.dev spdmUnexpected []) ∧ (∀ i v g, exec (.getMeasurements n i v g) s = replies s.dev spdmUnexpected []) ∧
      (∀ k, exec (.keyExchange n k) s = replies s.dev spdmUnexpected []) ∧ exec (.getWrapCert n) s = replies s.dev spdmUnexpected []) ∧
    (3 ≤ x.phase →
      exec (.getDigests n) s = replies s.dev spdmOk [1, Config.hash256 [3, s.dev.certChain s.fuses]] ∧
      exec (.getWrapCert n) s = replies s.dev spdmOk [s.dev.wrapCert] ∧
      (∀ o l, l ≤ spdmChunk → exec (.getCertificate n 0 o l) s = replies s.dev spdmOk [s.dev.certChain s.fuses, o, l]) ∧
      (∀ o l, spdmChunk < l → exec (.getCertificate n 0 o l) s =
        replies (put { x with chunkOut := some (s.dev.fresh % 256, 0, l) }) spdmLarge [s.dev.fresh % 256]) ∧
      (∀ i o l, i ≠ 0 → exec (.getCertificate n i o l) s = replies s.dev spdmInvalid []) ∧
      (∀ v, let m := Config.hash256 (s.dev.measurements s.fuses)
        let g := s.dev.aliasSign [v, s.dev.certChain s.fuses, m]
        exec (.challenge n 0 v) s = replies g.2 spdmOk [s.dev.certChain s.fuses, m, g.1]) ∧
      (∀ v, exec (.getMeasurements n 0 v false) s = replies s.dev spdmOk [8]) ∧
      (∀ v, exec (.getMeasurements n 0xFF v false) s = replies s.dev spdmOk (s.dev.measurements s.fuses)) ∧
      (∀ i v, 1 ≤ i → i ≤ 8 → exec (.getMeasurements n i v false) s = replies s.dev spdmOk [(s.dev.measurements s.fuses).getD (i - 1) 0] ∧
        let g := s.dev.aliasSign [v, (s.dev.measurements s.fuses).getD (i - 1) 0]
        exec (.getMeasurements n i v true) s = replies g.2 spdmOk [(s.dev.measurements s.fuses).getD (i - 1) 0, g.1]) ∧
      (∀ k, sessionLimit n ≤ x.sessions.list.length → exec (.keyExchange n k) s = replies s.dev spdmSessionLimit []) ∧
      (∀ k, x.sessions.list.length < sessionLimit n → x.sessions.has k = false → let g := s.dev.aliasSign [k]
        exec (.keyExchange n k) s = replies (g.2.setSpdm n { x with sessions := x.sessions.put k { phase := 0, lastBeat := s.dev.clock } }) spdmOk [k, g.1]) ∧
      (∀ k y, x.sessions.get? k = some y →
        (y.phase = 0 → exec (.finish n k true) s =
            replies (put { x with sessions := x.sessions.put k { y with phase := 1, lastBeat := s.dev.clock } }) spdmOk [] ∧
          exec (.finish n k false) s = replies (put { x with sessions := x.sessions.del k }) spdmDecrypt []) ∧
        (y.phase = 1 → exec (.heartbeat n k) s = replies (put { x with sessions := x.sessions.put k { y with lastBeat := s.dev.clock } }) spdmOk [] ∧
          exec (.keyUpdate n k) s =
            replies (put { x with sessions := x.sessions.put k { y with keyGen := y.keyGen + 1, lastBeat := s.dev.clock } }) spdmOk [] ∧
          exec (.endSession n k) s = replies (put { x with sessions := x.sessions.del k }) spdmOk [])) ∧
      (∀ k, x.sessions.get? k = none → exec (.heartbeat n k) s = replies s.dev spdmSessionRequired [] ∧
        exec (.finish n k true) s = replies s.dev spdmSessionRequired [])) ∧
    (2 ≤ x.phase → (∀ h l, x.chunkIn = none →
        exec (.chunkSend n h 0 l false) s = replies (put { x with chunkIn := some (h, 1, l) }) spdmOk [h, 0]) ∧
      (∀ h q l got, x.chunkIn = some (h, q, got) →
        exec (.chunkSend n h q l false) s = replies (put { x with chunkIn := some (h, q + 1, got + l) }) spdmOk [h, q] ∧
        exec (.chunkSend n h q l true) s = replies (put { x with chunkIn := none }) spdmOk [h, q]) ∧
      (∀ h q left, x.chunkOut = some (h, q, left) → let next := if left ≤ spdmChunk then none else some (h, q + 1, left - min left spdmChunk)
        exec (.chunkGet n h q) s = replies (put { x with chunkOut := next }) spdmOk [h, q, min left spdmChunk, if next.isNone then 1 else 0]) ∧
      (∀ h q, x.chunkOut = none → exec (.chunkGet n h q) s = replies s.dev spdmUnexpected [])) ∧
    (s.dev.secured n = false → exec (.debugChallenge n) s = replies s.dev spdmSessionRequired []) ∧
    (s.dev.secured n = true → let d := s.dev.random.2
      exec (.debugChallenge n) s = replies (d.setIsland fun i => { i with challenge := some (s.dev.random.1, s.dev.clock), challenges := i.challenges + 1 })
        spdmOk [s.dev.random.1])

/-! ## Skein queues, events and the Row log -/

/-- The level of a skein queue (R410): a push that takes its fill from LEVEL − 1 to LEVEL sets its LVL_PEND bit and raises EV 0x291; while
the bit is set, while LEVEL is 0 and at every other fill a push does neither, and a pop leaves the bit. The first part is a queue whose items
are pushed one by one, the second the holding queue (8 items a record), the third a replay lane's queue (10 items a record). -/
def Obligations.LevelIsSignalledOnce : Prop :=
  ∀ (d : Dev),
    (∀ q i, q < 512 → let k := d.skein q
      let f := Reg.SKQ.LVL_PEND.PEND (q / 32)
      let w := (k.wr + 1) % 2 ^ skeinLog2 q
      let u := d.setSkein q { k with items := k.items ++ [i], wr := w, wr2 := w }
      itemKind i ≠ 15 → k.rd = k.rd2 → k.wr = k.wr2 → k.dropping = false → k.items.length < 2 ^ skeinLog2 q →
        (k.items.length + 1 = k.level → (d.get f).testBit (q % 32) = false →
          d.skeinPush q i = ((u.set f (d.get f ||| 2 ^ (q % 32))).raise (skqEv 0x291 q 0 k 0), true) ∧
          ((d.skeinPush q i).1.get f).testBit (q % 32) = true) ∧
        (k.items.length + 1 ≠ k.level ∨ k.level = 0 ∨ (d.get f).testBit (q % 32) = true → d.skeinPush q i = (u, true) ∧
          ((d.skeinPush q i).1.get f).testBit (q % 32) = (d.get f).testBit (q % 32)) ∧
        (d.skeinPop q).1.get f = d.get f) ∧
    (∀ e byLog, d.row.holding.length < 256 → let n := 8 * d.row.holding.length
      let L := (d.skein 1).level
      (n < L → L ≤ n + 8 → d.row.lvlPend = false → (d.holdRecord e byLog).1.row.lvlPend = true ∧
        (d.psq.accepts = true → ∃ x ∈ (d.holdRecord e byLog).1.fco.inbox, x.2.id = 0x291)) ∧
      (L ≤ n ∨ n + 8 < L ∨ L = 0 ∨ d.row.lvlPend = true → (d.holdRecord e byLog).1.row.lvlPend = d.row.lvlPend ∧
        (d.holdRecord e byLog).1.fco = d.fco)) ∧
    (∀ l n, l < 16 → let L := (d.skein (16 + l)).level
      let f := Reg.SKQ.LVL_PEND.PEND 0
      (n < L → L ≤ n + 10 → (d.get f).testBit (16 + l) = false →
        d.laneLevel l n = (d.set f (d.get f ||| 2 ^ (16 + l))).raise (skqEv 0x291 (16 + l) 0 (d.skein (16 + l)) 0)) ∧
      (L ≤ n ∨ n + 10 < L ∨ L = 0 ∨ (d.get f).testBit (16 + l) = true → d.laneLevel l n = d))

/-- A pop of queue 0 takes its oldest item, of any other queue or an empty one the idle item; DROP_PKT and RESET discard; FCO reacts to the
oldest event, a latch keeps the first and a clear empties it; PULSE toggles, stops and restarts, but not under a valid latch; a vector
unmasked sends what was pending. ROW takes the oldest record that waits, flushes its page after FLUSH_MS, notes what was programmed and
erased, and finds its place again by the scan; while it scans or is frozen it takes no record (R408, R409, R411, R412, R416, R419, R423,
R425–R431, R433, R434, R436, R438, R439). -/
def Obligations.QueuesReactionsAndRowTakeEffect : Prop :=
  ∀ (s : State), quiet s →
    (let pops := fun (d : Dev) (i : BitVec 64) => ((d.set Reg.SKQ.POP_LO.ITEM (i.toNat % 2 ^ 32)).set Reg.SKQ.POP_HI.ITEM (i.toNat / 2 ^ 32)).send
        (.regData 0xA40014 (i.toNat % 2 ^ 32));
      (s.dev.get Reg.SKQ.Q_SEL.QUEUE ≠ 0 → exec .skqPopRead s = .next (s.did (pops s.dev 0xF000000000000000#64)) ∧
        exec .dropPkt s = .next (withDev s (s.dev.discard 0xA40010 0)) ∧ exec .skqReset s = .next (withDev s (s.dev.discard 0xA40010 0))) ∧
      (s.dev.get Reg.SKQ.Q_SEL.QUEUE = 0 →
        ((s.dev.skein 0).items = [] → (s.dev.skein 0).rd = (s.dev.skein 0).rd2 → (s.dev.skein 0).wr = (s.dev.skein 0).wr2 →
          exec .skqPopRead s = .next (s.did (pops s.dev 0xF000000000000000#64))) ∧
        (∀ i l, (s.dev.skein 0).items = i :: l → (s.dev.skein 0).rd = (s.dev.skein 0).rd2 → (s.dev.skein 0).wr = (s.dev.skein 0).wr2 →
          s.dev.flips.get? (flipSkein * 2 ^ 44 + (s.dev.skein 0).rd) = none → let p := ((s.dev.skein 0).rd + 1) % 2 ^ 12
          exec .skqPopRead s = .next (s.did (pops (s.dev.setSkein 0 { s.dev.skein 0 with items := l, rd := p, rd2 := p }) i))) ∧
        (∀ l, (s.dev.skein 0).dropping = false → dropPacket (s.dev.skein 0).items = some l →
          let p := ((s.dev.skein 0).rd + ((s.dev.skein 0).items.length - l.length)) % 2 ^ 12
          exec .dropPkt s = .next (withDev s (s.dev.setSkein 0 { s.dev.skein 0 with items := l, rd := p, rd2 := p }))) ∧
        ((s.dev.skein 0).dropping = false → dropPacket (s.dev.skein 0).items = none → let p := (s.dev.skein 0).wr
          exec .dropPkt s = .next (withDev s (s.dev.setSkein 0 { s.dev.skein 0 with items := [], dropping := true, rd := p, rd2 := p }))) ∧
        (∃ t, exec .skqReset s = .next t ∧ (t.dev.skein 0).items = [] ∧ (t.dev.skein 0).dropping = false ∧ (t.dev.skein 0).rd = 0 ∧
          (t.dev.skein 0).rd2 = 0 ∧ (t.dev.skein 0).wr = 0 ∧ (t.dev.skein 0).wr2 = 0 ∧ t.sent = s.sent))) ∧
    (∀ at_ e l, s.dev.fco.inbox = (at_, e) :: l →
      exec .eventReaction s = .next (s.did ((({ s.dev with fco := { s.dev.fco with inbox := l } } : Dev).at at_).react e))) ∧
    (s.dev.fco.inbox = [] → exec .eventReaction s = .next s) ∧
    (∀ (d : Dev) c e, c < 5 →
      (d.bit (Reg.FCO.LAT_ID.VALID c) = true → d.latch c e = d.setBit (Reg.FCO.LAT_ID.OVERFLOW c) true) ∧
      (d.bit (Reg.FCO.LAT_ID.VALID c) = false → (d.latch c e).bit (Reg.FCO.LAT_ID.VALID c) = true ∧
        (d.latch c e).get (Reg.FCO.LAT_ID.ID c) = e.id % 2 ^ 10 ∧ (d.latch c e).get (Reg.FCO.LAT_SYND.SYND c) = e.synd.toNat)) ∧
    (∀ tg v g, s.dev.fco.gaps.get? (tg * 2048 + v) = some g → let u := s.dev.at (g.last + s.dev.get Reg.FCO.CFG.INT_GAP_US * fclkUs)
      (g.waiting = false → exec (.intGapExpiry tg v) s =
        .next (withDev s { u with fco := { u.fco with gaps := u.fco.gaps.del (tg * 2048 + v) } })) ∧
      (g.waiting = true → exec (.intGapExpiry tg v) s = .next (s.did
        (({ u with fco := { u.fco with gaps := u.fco.gaps.put (tg * 2048 + v) { last := u.clock } } } : Dev).fcoMsix tg v g.id)))) ∧
    (∀ tg v, s.dev.fco.gaps.get? (tg * 2048 + v) = none → exec (.intGapExpiry tg v) s = .next s) ∧
    (∀ b, exec (.blockResetComplete b) s = .next (withDev s { s.dev with fco := { s.dev.fco with resetting := s.dev.fco.resetting.del b } })) ∧
    (∀ c, 5 ≤ c → exec (.firstFaultLatchClear c) s = .next s) ∧
    (∀ c, c < 5 → ∃ t, exec (.firstFaultLatchClear c) s = .next t ∧ t.dev.get (Reg.FCO.LAT_ID.ID c) = 0 ∧ t.dev.bit (Reg.FCO.LAT_ID.VALID c) = false ∧
      t.dev.bit (Reg.FCO.LAT_ID.OVERFLOW c) = false ∧ t.dev.get (Reg.FCO.LAT_SYND.SYND c) = 0 ∧ t.dev.get (Reg.FCO.LAT_TIME_LO.TIME c) = 0 ∧
      t.dev.get (Reg.FCO.LAT_TIME_HI.TIME c) = 0 ∧ t.sent = s.sent) ∧
    ((s.dev.bit Reg.FCO.PULSE_CTL.RUN = false ∨ s.dev.bit Reg.FCO.PULSE_STS.STOPPED = true → exec .pulseToggle s = .next s) ∧
      (s.dev.bit Reg.FCO.PULSE_CTL.RUN = true → s.dev.bit Reg.FCO.PULSE_STS.STOPPED = false → ∃ t, exec .pulseToggle s = .next t ∧
        t.dev.clock = max s.dev.clock (s.dev.fco.pulseAt + 25000 * fclkOclk) ∧ t.dev.bit Reg.FCO.PULSE_STS.LEVEL = !s.dev.bit Reg.FCO.PULSE_STS.LEVEL ∧
        t.sent = .pulse (!s.dev.bit Reg.FCO.PULSE_STS.LEVEL) :: s.sent)) ∧
    (s.dev.bit (Reg.FCO.LAT_ID.VALID 4) = true → ∃ t, exec (.pulseRunWrite true) s = .next t ∧ t.sent = s.sent ∧
      t.dev.get Reg.FCO.PULSE_CTL.RUN = s.dev.get Reg.FCO.PULSE_CTL.RUN ∧ t.dev.get Reg.FCO.PULSE_STS.STOPPED = s.dev.get Reg.FCO.PULSE_STS.STOPPED) ∧
    (s.dev.bit (Reg.FCO.LAT_ID.VALID 4) = false → ∃ t, exec (.pulseRunWrite true) s = .next t ∧ t.dev.bit Reg.FCO.PULSE_CTL.RUN = true ∧
      t.dev.bit Reg.FCO.PULSE_STS.STOPPED = false ∧ t.dev.fco.pulseAt = s.dev.clock ∧ t.sent = s.sent) ∧
    exec (.pulseRunWrite false) s = .next (withDev s (s.dev.setBit Reg.FCO.PULSE_CTL.RUN false)) ∧
    exec .vioAonOutOfRegulation s = .next (withDev s (s.dev.setBit Reg.FCO.PULSE_CTL.RUN false)) ∧
    (∀ f v, (s.dev.msix f).fmask = true → exec (.msixVectorUnmask f (some v)) s = .next (s.did (s.dev.setMsix f
      { s.dev.msix f with unmasked := (s.dev.msix f).unmasked.put v (), pba := (s.dev.msix f).pba.filter fun v _ => !List.contains [] v }))) ∧
    (∀ f v, (s.dev.msix f).fmask = false → let m := s.dev.msix f
      let go := m.pba.keys.filter (m.unmasked.put v ()).has
      exec (.msixVectorUnmask f (some v)) s = .next (s.did (go.foldl (fun d v => d.send (.msix f v)) (s.dev.setMsix f
        { m with unmasked := m.unmasked.put v (), pba := m.pba.filter fun v _ => !go.contains v })))) ∧
    (∀ f, let m := s.dev.msix f
      let go := m.pba.keys.filter m.unmasked.has
      exec (.msixVectorUnmask f none) s = .next (s.did (go.foldl (fun d v => d.send (.msix f v)) (s.dev.setMsix f
        { m with fmask := false, pba := m.pba.filter fun v _ => !go.contains v })))) ∧
    (s.dev.row.holding = [] → exec .rowRecordArrival s = .next s) ∧
    (∀ h l, s.dev.row.holding = h :: l → (s.dev.rowState = 0 ∨ s.dev.rowState = 2 → exec .rowRecordArrival s = .next s) ∧
      (s.dev.rowState ≠ 0 → s.dev.rowState ≠ 2 → let u := (s.dev.setRow fun r => { r with holding := l }).rowArrive h
        exec .rowRecordArrival s = .next (s.did (if u.rowState = 4 then u.rowClose false else u).rowPump))) ∧
    (∀ (d : Dev) h r, d.row.open_ = some r → sameRecord h.ev.id h.ev.payload r = true → r.cnt < 65535 →
      (d.rowArrive h).row.open_ = some { r with cnt := r.cnt + 1, lastUs := min 0xFFFFFFFF ((h.time - r.time) / 1000) }) ∧
    (s.dev.row.page = [] → exec .rowPageFlushTimer s = .next s) ∧
    (s.dev.row.page ≠ [] → exec .rowPageFlushTimer s =
      .next (s.did ((s.dev.at (s.dev.row.pageSince + s.dev.get Reg.ROW.CFG.FLUSH_MS * fclkMs)).rowFull.rowErase.rowProgram true))) ∧
    (∀ good, s.dev.row.programming = [] → exec (.rowProgramDone good) s = .next s) ∧
    (∀ good, s.dev.row.programming ≠ [] → let l := s.dev.row.programming
      let w := (s.dev.rowPlace (l.map fun r => { r with tagOk := good, skip := !good && s.dev.bit Reg.ROW.CFG.MODE })).setRow fun r => { r with programming := [], second := false }
      (good = true ∨ s.dev.bit Reg.ROW.CFG.MODE = false → exec (.rowProgramDone good) s = .next (s.did (w.clearCheck l).rowPump)) ∧
      (good = false → s.dev.bit Reg.ROW.CFG.MODE = true → let u := w.count Reg.ROW.VERIFY_FAIL.COUNT Reg.ROW.VERIFY_FAIL.SAT 1 (rowPlain 0x237)
        exec (.rowProgramDone good) s = .next (s.did (if s.dev.row.second then ((u.setBit Reg.ROW.STS.NOR_ERR true).raise (rowPlain 0x233)).rowPump
          else (u.setRow fun r => { r with programming := l, second := true }).rowErase)))) ∧
    (s.dev.row.erasing = none → exec .rowEraseDone s = .next s) ∧
    (∀ b, s.dev.row.erasing = some b → s.dev.bit Reg.ROW.STS.WRAPPED = true → exec .rowEraseDone s =
      .next (s.did (s.dev.setRow fun r => { r with erasing := none, slots := r.slots.filter fun i _ => i / rowBlock != b }).rowPump)) ∧
    (∀ b, s.dev.row.erasing = some b → s.dev.bit Reg.ROW.STS.WRAPPED = false → exec .rowEraseDone s = .next (s.did
      (((s.dev.setRow fun r => { r with erasing := none, slots := r.slots.filter fun i _ => i / rowBlock != b }).setBit
        Reg.ROW.STS.WRAPPED true).raise (rowPlain 0x235)).rowPump)) ∧
    (s.dev.rowState ≠ 0 → exec .rowScan s = .next s) ∧
    (s.dev.rowState = 0 → exec .rowScan s = .next (s.did s.dev.rowScan)) ∧
    (s.dev.row.slots = .empty → s.dev.rowScan = ((((s.dev.setRow fun r => { r with next := 0, seq := 0 }).set Reg.ROW.CLRGEN.GEN 0).set
      Reg.ROW.STS.STATE 1).raise (rowPlain 0x239)).rowPump)

/-- Power, resets, clocks, RTC, watchdog and thermal commands take their effect in the sequencer state that has one, through the device's own
operations (R20, R59, R444–R464, R477, R478, R488, R496). `d` is the device as the input is noted. -/
def Obligations.PowerAndClocksTakeEffect : Prop :=
  ∀ (s : State), quiet s → ∀ (d : Dev),
    (d = s.dev.setBit Reg.PSQ.STS.PWRON true → s.dev.psqState = 0 → d.mayPowerUp = true →
      exec .pwronAssert s = .next (s.did d.startPreflight)) ∧
    (d = s.dev.setBit Reg.PSQ.STS.PWRON true → s.dev.psqState = 5 ∨ s.dev.psqState = 6 ∨ s.dev.psqState = 7 →
      exec .pwronAssert s = .next (s.did d.pendingOn)) ∧
    (d = s.dev.setBit Reg.PSQ.STS.PWRON true → (s.dev.psqState = 0 ∧ d.mayPowerUp = false) ∨
      (s.dev.psqState ≠ 0 ∧ s.dev.psqState ≠ 5 ∧ s.dev.psqState ≠ 6 ∧ s.dev.psqState ≠ 7) → exec .pwronAssert s = .next (withDev s d)) ∧
    (d = s.dev.setBit Reg.PSQ.STS.PWRON false →
      (s.dev.psqState = 4 → exec .pwronDeassert s = .next (s.did d.orderlyOff)) ∧
      (s.dev.psqState = 3 → exec .pwronDeassert s = .next (s.did d.offInUp)) ∧
      (s.dev.psqState = 2 → exec .pwronDeassert s = .next (withDev s (d.setPsqState 0))) ∧
      (s.dev.psqState = 8 → exec .pwronDeassert s = .next (withDev s (d.setPsqState 1))) ∧
      (s.dev.psqState ≠ 2 → s.dev.psqState ≠ 3 → s.dev.psqState ≠ 4 → s.dev.psqState ≠ 8 → exec .pwronDeassert s = .next (withDev s d))) ∧
    (d = s.dev.setBit Reg.PSQ.STS.PFAIL true →
      (s.dev.psqState = 4 → exec .pfailNAssert s = .next (s.did (d.rowPowerFail.abandonSigned.powerFlush .powerFail))) ∧
      (s.dev.psqState = 3 → exec .pfailNAssert s = .next (s.did d.offInUp)) ∧
      (s.dev.psqState = 2 → exec .pfailNAssert s = .next (withDev s (d.setPsqState 0))) ∧
      (s.dev.psqState = 5 → s.dev.psq.flush = some .powerFail → exec .pfailNAssert s = .next (withDev s d)) ∧
      (s.dev.psqState = 5 → s.dev.psq.flush ≠ some .powerFail → exec .pfailNAssert s =
        .next (s.did ((d.rowPowerFail.abandonSigned).setPsq fun p => { p with flush := p.flush.map fun _ => .powerFail }))) ∧
      (s.dev.psqState ≠ 2 → s.dev.psqState ≠ 3 → s.dev.psqState ≠ 4 → s.dev.psqState ≠ 5 → exec .pfailNAssert s = .next (withDev s d))) ∧
    (d = s.dev.setBit Reg.PSQ.STS.PFAIL false → s.dev.psqState = 0 → exec .pfailNDeassert s =
      .next (s.did (if d.mayPowerUp then d.startPreflight else d))) ∧
    (d = s.dev.setBit Reg.PSQ.STS.PFAIL false → s.dev.psqState ≠ 0 → exec .pfailNDeassert s = .next (withDev s d)) ∧
    (s.dev.psq.flush = none ∨ s.dev.psq.linksDown = true → exec .flushLinkDrop s = .next s) ∧
    (∀ k, s.dev.psq.flush = some k → s.dev.psq.linksDown = false →
      exec .flushLinkDrop s = .next (s.did ((s.dev.at (s.dev.psq.flushAt + fclkMs)).linkDrop k))) ∧
    (∀ k, s.dev.psq.flush = some k → s.dev.flushEnded = true →
      d = ((if s.dev.get Reg.NVH.IMG_STS.STATE = 7 ∧ s.dev.image.clean = true then
        (s.dev.set Reg.HLD.STATUS.STATE 5).raise (s.dev.hldPlain 0x1B6 4 5) else s.dev.set Reg.HLD.STATUS.STATE 5).setPsq
        fun p => { p with flush := none }) →
      exec .flushDone s = .next (s.did (if k = .preReset then d else d.startDown))) ∧
    (s.dev.psq.flush = none ∨ s.dev.flushEnded = false → exec .flushDone s = .next s) ∧
    (s.dev.psqState = 4 → s.dev.psq.flush = none → s.dev.psq.reset = none → ∀ c,
      d = ((s.dev.setPsq fun p => { p with reset := some c }).raise
        (s.dev.pwrEv 0x268 0 0 0 4 0xFF c 0 0)).startFlush .preReset →
      (c = 2 → exec .porstNAssert s = .next (s.did d)) ∧ (c = 4 → exec .rstCtlChip s = .next (s.did d))) ∧
    (s.dev.psqState ≠ 4 ∨ s.dev.psq.flush.isSome = true ∨ s.dev.psq.reset.isSome = true → exec .porstNAssert s = .next s ∧ exec .rstCtlChip s = .next s) ∧
    (∀ c, s.dev.psq.reset = some c → s.dev.psq.flush = none → exec .chipReset s = .next (s.did (s.dev.chipReset c)) ∧
      (s.dev.chipReset c).lc = .empty ∧ (s.dev.chipReset c).mdc = .empty ∧ (s.dev.chipReset c).fmc = .empty ∧ (s.dev.chipReset c).frames = .empty ∧
      (s.dev.chipReset c).held = .empty ∧ (s.dev.chipReset c).rteWait = []) ∧
    (s.dev.psq.reset = none ∨ s.dev.psq.flush.isSome = true → exec .chipReset s = .next s) ∧
    (∀ slot good mv, 16 ≤ slot → exec (.seqPgChange slot good mv) s = .next s ∧ exec (.runningRailFault slot mv) s = .next s) ∧
    (∀ slot good mv, slot < 16 → exec (.seqPgChange slot good mv) s =
      .next (s.did ((s.dev.railLevel slot good mv).railChanged slot))) ∧
    (∀ slot mv, slot < 16 → d = s.dev.railLevel slot false mv → d.psqState = 4 → d.usedSlots.contains slot = true →
      (d.get Reg.PSQ.RAILS.EN).testBit slot = true → d.psq.grace.has slot = false →
      exec (.runningRailFault slot mv) s = .next (s.did ((d.setPsq fun p => { p with grace := p.grace.put slot d.clock }).raise
        (d.psqEv 0x252 slot 0 4)))) ∧
    (∀ slot mv, slot < 16 → d = s.dev.railLevel slot false mv → (d.psqState ≠ 4 ∧ d.psqState ≠ 5) ∨ d.usedSlots.contains slot = false ∨
      (d.get Reg.PSQ.RAILS.EN).testBit slot = false ∨ d.psq.grace.has slot = true → exec (.runningRailFault slot mv) s = .next (withDev s d)) ∧
    (s.dev.psqState ≠ 3 → s.dev.psqState ≠ 6 → s.dev.psqState ≠ 7 → exec .sequencerStepTimer s = .next s) ∧
    (s.dev.psqState ≠ 1 → exec .offWaitExpiry s = .next s) ∧
    (s.dev.psqState ≠ 2 → exec .preflightTimeout s = .next s) ∧
    (s.dev.psqState ≠ 3 → s.dev.psqState ≠ 4 → exec .psqCtlOff s = .next s ∧ exec .psqCtlCycle s = .next s) ∧
    (∀ slot, s.dev.psq.grace.get? slot = none → exec (.railGraceExpiry slot) s = .next s) ∧
    (s.dev.psqState = 3 ∨ s.dev.psqState = 6 ∨ s.dev.psqState = 7 → exec .sequencerStepTimer s = .next (s.did s.dev.stepTimer)) ∧
    (s.dev.psqState = 1 → exec .offWaitExpiry s = .next (s.did s.dev.offWaitEnd)) ∧
    (s.dev.psqState = 2 → exec .preflightTimeout s = .next (s.did s.dev.preflightFail)) ∧
    (s.dev.psqState = 4 → exec .psqCtlOff s = .next (s.did s.dev.orderlyOff) ∧
      exec .psqCtlCycle s = .next (s.did (s.dev.setPsq fun p => { p with cycle := true }).orderlyOff)) ∧
    (s.dev.psqState = 3 → exec .psqCtlOff s = .next (s.did s.dev.offInUp) ∧
      exec .psqCtlCycle s = .next (s.did (s.dev.setPsq fun p => { p with cycle := true }).offInUp)) ∧
    (∀ slot t, s.dev.psq.grace.get? slot = some t → exec (.railGraceExpiry slot) s =
      .next (s.did ((s.dev.at (t + s.dev.get Reg.PSQ.TIMES.GRACE_US * fclkUs)).graceEnd slot))) ∧
    (∃ t, exec .vaonLow s = .next t ∧ t.dev.island.pending = none ∧ t.dev.island.queued = [] ∧ t.dev.psq.held.has 0x259 = true) ∧
    (∀ rk fo, exec (.vaonReset rk fo) s = .next (s.did (s.dev.vaonReset rk fo)) ∧
      (s.dev.vaonReset rk fo).media = s.dev.media ∧ (s.dev.vaonReset rk fo).regionLog = s.dev.regionLog ∧
      (s.dev.vaonReset rk fo).refLog = s.dev.refLog ∧ (s.dev.vaonReset rk fo).island = s.dev.island.kept ∧
      (s.dev.vaonReset rk fo).frames = .empty ∧ (s.dev.vaonReset rk fo).lc = .empty) ∧
    (∀ p, 12 ≤ p ∨ (s.dev.get Reg.CKS.PLL_STS.LOCKED).testBit p = false → exec (.pllLockLoss p) s = .next s) ∧
    (∀ p, 12 ≤ p → exec (.pllRelock p) s = .next s) ∧
    exec .xtalStop s = .next (s.did s.dev.xtalStop) ∧
    (∀ p, p < 12 → (s.dev.get Reg.CKS.PLL_STS.LOCKED).testBit p = true →
      d = (s.dev.set Reg.CKS.PLL_STS.LOCKED (withoutBit (s.dev.get Reg.CKS.PLL_STS.LOCKED) p)).pllLost →
      exec (.pllLockLoss p) s = .next (s.did (if p = 0 then d.emergency else d.pllClients p))) ∧
    (let u := s.dev.raise (s.dev.pwrEv 0x269 0 0 0 s.dev.psqState 0xFF 8 0 0)
     (s.dev.psqState = 4 → s.dev.emergency = u.setPsq fun q => { q with reset := some 8, flush := none }) ∧
     (s.dev.psqState = 5 → s.dev.emergency = (u.setPsq fun q => { q with flush := none }).startDown) ∧
     (s.dev.psqState ≠ 4 → s.dev.psqState ≠ 5 → s.dev.emergency = u)) ∧
    (∀ p, p < 12 → exec (.pllRelock p) s = .next (s.did (s.dev.pllLost.raise (s.dev.pwrPlain 0x260 p)))) ∧
    (∃ t, exec .rtcxFailure s = .next t ∧ t.dev.bit Reg.CKS.RTC_HI.VALID = false ∧
      t.dev.get Reg.CKS.CLK_STS.REF_OK = withoutBit (s.dev.get Reg.CKS.CLK_STS.REF_OK) 1 % 32) ∧
    (∃ t, exec .vbatLow s = .next t ∧ t.dev.bit Reg.CKS.CLK_STS.VBAT_LOW = true) ∧
    (d = (s.dev.set Reg.CKS.CLK_STS.REF_OK (withoutBit (s.dev.get Reg.CKS.CLK_STS.REF_OK) 2)).set Reg.CKS.PLL_STS.LOCKED
        (s.dev.get Reg.CKS.PLL_STS.LOCKED % 2 ^ 8) →
      exec (.refclkLoss true) s = .next (s.did ((List.range 4).foldl Dev.cxlDown (d.raise (d.pwrPlain 0x265 0))))) ∧
    (d = (s.dev.set Reg.CKS.CLK_STS.REF_OK (withoutBit (s.dev.get Reg.CKS.CLK_STS.REF_OK) 3)).set Reg.CKS.PLL_STS.LOCKED
        (withoutBit (s.dev.get Reg.CKS.PLL_STS.LOCKED) 3) →
      exec (.refclkLoss false) s = .next (s.did (d.raise (d.pwrPlain 0x266 0)).portsDown)) ∧
    (s.dev.get Reg.RND.STS.STATE = 0 → ∀ hi, ∃ t, exec (.rtcSet hi) s = .next t ∧ t.dev.bit Reg.CKS.RTC_HI.VALID = true ∧
      t.dev.cks.rtc = s.dev.cks.setLo % 2 ^ 32 + hi % 2 ^ 16 * 2 ^ 32 ∧ t.dev.cks.rtcAt = s.dev.clock) ∧
    (s.dev.get Reg.RND.STS.STATE ≠ 0 → ∀ hi, ∃ t, exec (.rtcSet hi) s = .next t ∧ t.dev.cks = s.dev.cks) ∧
    (s.dev.cks.rewrite = false → exec .rtcSecondRewrite s = .next s) ∧
    (s.dev.cks.rewrite = true → ∃ t, exec .rtcSecondRewrite s = .next t ∧ t.dev.cks.slew = s.dev.cks.slew - slewPart s.dev.cks.slew ∧
      t.dev.cks.rewrite = (s.dev.cks.slew != slewPart s.dev.cks.slew) ∧
      t.dev.cks.rtc = nsRtc ((s.dev.calNow : Int) + slewPart s.dev.cks.slew).toNat ∧ t.dev.cks.rtcAt = s.dev.clock ∧ t.sent = s.sent) ∧
    exec .watchdogKick s = .next (withDev s s.dev.kick) ∧
    (s.dev.get Reg.CKS.WDT.TIMEOUT_MS = 0 → exec .watchdogExpiry s = .next s) ∧
    (s.dev.get Reg.CKS.WDT.TIMEOUT_MS ≠ 0 → d = (s.dev.at (s.dev.cks.kicked + s.dev.get Reg.CKS.WDT.TIMEOUT_MS * fclkMs)).kick →
      exec .watchdogExpiry s = .next (s.did ((d.raise (d.pwrPlain 0x267 0)).requestReset 5))) ∧
    (∀ x, exec (.thermalSample x) s = .next (s.did ((s.dev.telemetry x (x.hottest.1 / 8 % 256).toNat x.hottest.2).thermalAct x.hottest.1
      (x.hottest.1 / 8 % 256).toNat x.hottest.2))) ∧
    exec .limitEffRecompute s = .next (s.did s.dev.limitRecompute) ∧
    exec .flushEstUpdate s = .next (s.did s.dev.flushEstimate)

/-! ## Registers -/

/-- A host reads and writes the registers of a function in its BARs as aligned 32-bit words; 64 bits at an address that is a multiple of 8
are the low word, then the high word; any other width or alignment reads 0 and discards the write: no register takes it (R483). A function
that no head presents takes neither. -/
def Obligations.RegistersAreWords : Prop :=
  ∀ (s : State) (f : Nat) (a : RegAddr), quiet s →
    (s.dev.headOfInst f = none → (∀ w v, exec (.registerWrite f a w v) s = .next s) ∧ (∀ w, exec (.counterLoRead f a w) s = .next s)) ∧
    ((s.dev.headOfInst f).isSome = true →
      (a.off % 4 = 0 →
        (∀ v, exec (.registerWrite f a 4 v) s = .next (s.did (s.dev.hostRegWrite f a v))) ∧
        (∀ r, r = s.dev.hostRegRead s.fuses f a → exec (.counterLoRead f a false) s = .next (s.did (r.1.send (.regData a.off r.2))))) ∧
      (a.off % 8 = 0 →
        (∀ lo hi, lo < 2 ^ 32 → hi < 2 ^ 32 →
          exec (.registerWrite f a 8 (hi * 2 ^ 32 + lo)) s = .next (s.did ((s.dev.hostRegWrite f a lo).hostRegWrite f a.next hi))) ∧
        (∀ l h, l = s.dev.hostRegRead s.fuses f a → h = (l.1.send (.regData a.off l.2)).hostRegRead s.fuses f a.next →
          exec (.counterLoRead f a true) s = .next (s.did (h.1.send (.regData a.next.off h.2))))) ∧
      (∀ width v, a.off % 4 ≠ 0 ∨ (width ≠ 4 ∧ width ≠ 8) ∨ (width = 8 ∧ a.off % 8 ≠ 0) →
        (f ≠ 64 → exec (.registerWrite f a width v) s = .next s) ∧
        (f = 64 → (∀ o, a = .bar0 o → exec (.registerWrite f a width v) s = .next (withDev s (s.dev.discard (o % 2 ^ 24) 3))) ∧
          ((∀ o, a ≠ .bar0 o) → exec (.registerWrite f a width v) s = .next s))) ∧
      (a.off % 4 ≠ 0 → exec (.counterLoRead f a false) s = .next (sends s (.regData a.off 0))) ∧
      (a.off % 8 ≠ 0 → exec (.counterLoRead f a true) s = .next (sends s (.regData a.off 0))))

/-- LOCK_ALL sets every lock; the mailbox takes a request and gives its answer; IRQ_ACK clears its bit; MCTP reads and writes words; a
calibration item follows its tracking; EXTEST resets the chip; a region-log record programmed lets go what waited (R37, R382, R486, R487,
R490, R494, R496). -/
def Obligations.RegisterCommandsTakeEffect : Prop :=
  ∀ (s : State), quiet s →
    (∀ v, exec (.lockAllWrite v) s = .next (if v % 2 = 1 then withDev s s.dev.lockAll else s)) ∧
    s.dev.lockAll.bit Reg.GLB.LOCK_ALL.LOCK = true ∧
    (∀ c fd, c < 64 → lockField c = some fd → s.dev.lockAll.bit fd = true) ∧
    (∀ len, 1 ≤ len → len ≤ 512 → s.dev.bit Reg.MGC.MBOX_STS.BUSY = false → ∃ t, exec (.mboxGo len) s = .next t ∧
      t.dev.get Reg.MGC.MBOX_CTL.LEN_IN = len ∧ t.dev.bit Reg.MGC.MBOX_STS.BUSY = true ∧ t.dev.island.mailbox = true ∧ t.sent = s.sent) ∧
    (∀ len, 1 ≤ len → len ≤ 512 → s.dev.bit Reg.MGC.MBOX_STS.BUSY = true →
      exec (.mboxGo len) s = .next (withDev s (s.dev.set Reg.MGC.MBOX_CTL.LEN_IN len))) ∧
    (∀ len, len = 0 ∨ (512 < len ∧ len < 1024) → exec (.mboxGo len) s = .next (withDev s (s.dev.discard 0x840008 2))) ∧
    (s.dev.island.mailbox = false → ∀ r l, exec (.mboxAnswer r l) s = .next s) ∧
    (s.dev.island.mailbox = true → ∀ r l, ∃ t, exec (.mboxAnswer r l) s = .next t ∧ t.dev.bit Reg.MGC.MBOX_STS.BUSY = false ∧
      t.dev.bit Reg.MGC.MBOX_STS.DONE = true ∧ t.dev.get Reg.MGC.MBOX_STS.RESULT = r % 2 ^ Reg.MGC.MBOX_STS.RESULT.width ∧
      t.dev.get Reg.MGC.MBOX_STS.LEN_OUT = min 512 l.length ∧ t.dev.island.mailbox = false ∧ t.sent = s.sent) ∧
    (∀ id, exec (.irqAck id) s = .next (withDev s (s.dev.set (Reg.MGC.IRQ_PEND.PEND (id % 1024 / 32))
      (withoutBit (s.dev.get (Reg.MGC.IRQ_PEND.PEND (id % 1024 / 32))) (id % 32))))) ∧
    (∀ off n, mctpOk off n = true → let r := s.dev.readWords s.fuses off n
      exec (.mctpBar0Read off n) s = .next (s.did (r.1.send (.message mctpInst 0 r.2)))) ∧
    (∀ off n, mctpOk off n = false → exec (.mctpBar0Read off n) s = .next (sends s (.message mctpInst 1 []))) ∧
    (∀ off l, mctpOk off l.length = true → exec (.mctpBar0Write off l) s =
      .next (s.did ((s.dev.writeWords off l).send (.message mctpInst 0 [])))) ∧
    (∀ off l, mctpOk off l.length = false → exec (.mctpBar0Write off l) s = .next (sends s (.message mctpInst 1 []))) ∧
    (∀ i tr, calTracked i = true → ∃ t, exec (.calibrationTrackingUpdate i tr) s = .next t ∧
      t.dev.cal.getD i {} = { s.dev.cal.getD i {} with track := tr, live := (s.dev.cal.getD i {}).user } ∧ (∀ j, j ≠ i → t.dev.cal.getD j {} = s.dev.cal.getD j {}) ∧ t.sent = s.sent) ∧
    (∀ i tr, calTracked i = false → exec (.calibrationTrackingUpdate i tr) s = .next s) ∧
    exec (.extestInstructionUpdate true) s = .next (s.did ((s.dev.setPsq fun p => { p with extest := true }).requestReset 7)) ∧
    exec (.extestInstructionUpdate false) s = .next (withDev s (s.dev.setPsq fun p => { p with extest := false })) ∧
    (s.dev.logWait = [] → exec .regionLogRecordProgrammed s = .next s) ∧
    (∀ w rest d, s.dev.logWait = w :: rest →
      d = ({ s.dev with logWait := rest, regionLog := s.dev.regionLog.program s.dev.imageKey s.dev.image.imageId w.recd } : Dev) →
      (w.after = [] → exec .regionLogRecordProgrammed s = .next (withDev s d)) ∧
      (∀ cmd who r0 r1, w.after = [.command cmd who r0 r1] →
        exec .regionLogRecordProgrammed s = .next (s.did (d.commandDone cmd who r0 r1))) ∧
      (∀ g op, w.after = [.mailbox g op] → exec .regionLogRecordProgrammed s = .next (sends (withDev s d) (.mailbox g op 0 []))) ∧
      (∀ a cid psn, w.after = [.ackCmd a cid psn] → exec .regionLogRecordProgrammed s = .next (s.did (d.ackLater a cid psn))) ∧
      (∀ who, w.after = [.released who] →
        exec .regionLogRecordProgrammed s = .next (s.did (d.dcAnswer who cSuccess 0 0 opDcRelease 0)))) ∧
    (∀ (l : RegionLog) key image r,
      (l.current.recs.length < logHalfRecs → (l.program key image r).current = { l.current with recs := l.current.recs ++ [r] } ∧
        (l.program key image r).inUse = l.inUse) ∧
      (logHalfRecs ≤ l.current.recs.length → (l.program key image r).inUse = !l.inUse ∧
        (l.program key image r).current = { gen := l.current.gen + 1, complete := true, recs := liveRecs key image l.current.recs ++ [r] }))
end

