-- ==== Sys2Proof/Laws/State.lean ====
section
/-! SUPPORT. What the updates of the state leave unchanged and what they write: one lemma per field per update. -/

namespace Sys2Proof.Machine

variable (s : Dev) (m : State)


/-! `send` -/

@[simp] theorem Dev.send_clock (o : Output) : (s.send o).clock = s.clock := rfl
@[simp] theorem Dev.send_fresh (o : Output) : (s.send o).fresh = s.fresh := rfl
@[simp] theorem Dev.send_uses (o : Output) : (s.send o).uses = s.uses := rfl
@[simp] theorem Dev.send_regs (o : Output) : (s.send o).regs = s.regs := rfl
@[simp] theorem Dev.send_lc (o : Output) : (s.send o).lc = s.lc := rfl
@[simp] theorem Dev.send_frames (o : Output) : (s.send o).frames = s.frames := rfl
@[simp] theorem Dev.send_errors (o : Output) : (s.send o).errors = s.errors := rfl
@[simp] theorem Dev.send_fm (o : Output) : (s.send o).fm = s.fm := rfl
@[simp] theorem Dev.send_rm (o : Output) : (s.send o).rm = s.rm := rfl
@[simp] theorem Dev.send_lbm (o : Output) : (s.send o).lbm = s.lbm := rfl
@[simp] theorem Dev.send_staged (o : Output) : (s.send o).staged = s.staged := rfl
@[simp] theorem Dev.send_dirty (o : Output) : (s.send o).dirty = s.dirty := rfl
@[simp] theorem Dev.send_destages (o : Output) : (s.send o).destages = s.destages := rfl
@[simp] theorem Dev.send_fills (o : Output) : (s.send o).fills = s.fills := rfl
@[simp] theorem Dev.send_held (o : Output) : (s.send o).held = s.held := rfl
@[simp] theorem Dev.send_rteWait (o : Output) : (s.send o).rteWait = s.rteWait := rfl
@[simp] theorem Dev.send_linkWait (o : Output) : (s.send o).linkWait = s.linkWait := rfl
@[simp] theorem Dev.send_reads (o : Output) : (s.send o).reads = s.reads := rfl
@[simp] theorem Dev.send_poison (o : Output) : (s.send o).poison = s.poison := rfl
@[simp] theorem Dev.send_flips (o : Output) : (s.send o).flips = s.flips := rfl
@[simp] theorem Dev.send_mdc (o : Output) : (s.send o).mdc = s.mdc := rfl
@[simp] theorem Dev.send_fmc (o : Output) : (s.send o).fmc = s.fmc := rfl
@[simp] theorem Dev.send_mapLost (o : Output) : (s.send o).mapLost = s.mapLost := rfl
@[simp] theorem Dev.send_channels (o : Output) : (s.send o).channels = s.channels := rfl
@[simp] theorem Dev.send_regions (o : Output) : (s.send o).regions = s.regions := rfl
@[simp] theorem Dev.send_gens (o : Output) : (s.send o).gens = s.gens := rfl
@[simp] theorem Dev.send_quotas (o : Output) : (s.send o).quotas = s.quotas := rfl
@[simp] theorem Dev.send_sweeps (o : Output) : (s.send o).sweeps = s.sweeps := rfl
@[simp] theorem Dev.send_media (o : Output) : (s.send o).media = s.media := rfl
@[simp] theorem Dev.send_drives (o : Output) : (s.send o).drives = s.drives := rfl
@[simp] theorem Dev.send_image (o : Output) : (s.send o).image = s.image := rfl
@[simp] theorem Dev.send_imageMask (o : Output) : (s.send o).imageMask = s.imageMask := rfl
@[simp] theorem Dev.send_lostMaps (o : Output) : (s.send o).lostMaps = s.lostMaps := rfl
@[simp] theorem Dev.send_rebuild (o : Output) : (s.send o).rebuild = s.rebuild := rfl
@[simp] theorem Dev.send_regionLog (o : Output) : (s.send o).regionLog = s.regionLog := rfl
@[simp] theorem Dev.send_logWait (o : Output) : (s.send o).logWait = s.logWait := rfl
@[simp] theorem Dev.send_lds (o : Output) : (s.send o).lds = s.lds := rfl
@[simp] theorem Dev.send_does (o : Output) : (s.send o).does = s.does := rfl
@[simp] theorem Dev.send_heads (o : Output) : (s.send o).heads = s.heads := rfl
@[simp] theorem Dev.send_mgmt (o : Output) : (s.send o).mgmt = s.mgmt := rfl
@[simp] theorem Dev.send_loadLow (o : Output) : (s.send o).loadLow = s.loadLow := rfl
@[simp] theorem Dev.send_loadHigh (o : Output) : (s.send o).loadHigh = s.loadHigh := rfl
@[simp] theorem Dev.send_allowance (o : Output) : (s.send o).allowance = s.allowance := rfl
@[simp] theorem Dev.send_wabSince (o : Output) : (s.send o).wabSince = s.wabSince := rfl
@[simp] theorem Dev.send_learns (o : Output) : (s.send o).learns = s.learns := rfl
@[simp] theorem Dev.send_allocWait (o : Output) : (s.send o).allocWait = s.allocWait := rfl
@[simp] theorem Dev.send_waits (o : Output) : (s.send o).waits = s.waits := rfl
@[simp] theorem Dev.send_fmsDone (o : Output) : (s.send o).fmsDone = s.fmsDone := rfl
@[simp] theorem Dev.send_rnt (o : Output) : (s.send o).rnt = s.rnt := rfl
@[simp] theorem Dev.send_engines (o : Output) : (s.send o).engines = s.engines := rfl
@[simp] theorem Dev.send_stiPass (o : Output) : (s.send o).stiPass = s.stiPass := rfl
@[simp] theorem Dev.send_assocs (o : Output) : (s.send o).assocs = s.assocs := rfl
@[simp] theorem Dev.send_paused (o : Output) : (s.send o).paused = s.paused := rfl
@[simp] theorem Dev.send_txHeld (o : Output) : (s.send o).txHeld = s.txHeld := rfl
@[simp] theorem Dev.send_mirror (o : Output) : (s.send o).mirror = s.mirror := rfl
@[simp] theorem Dev.send_refPairs (o : Output) : (s.send o).refPairs = s.refPairs := rfl
@[simp] theorem Dev.send_refLog (o : Output) : (s.send o).refLog = s.refLog := rfl
@[simp] theorem Dev.send_round (o : Output) : (s.send o).round = s.round := rfl
@[simp] theorem Dev.send_island (o : Output) : (s.send o).island = s.island := rfl
@[simp] theorem Dev.send_rings (o : Output) : (s.send o).rings = s.rings := rfl
@[simp] theorem Dev.send_rq (o : Output) : (s.send o).rq = s.rq := rfl
@[simp] theorem Dev.send_takes (o : Output) : (s.send o).takes = s.takes := rfl
@[simp] theorem Dev.send_revokes (o : Output) : (s.send o).revokes = s.revokes := rfl
@[simp] theorem Dev.send_destroys (o : Output) : (s.send o).destroys = s.destroys := rfl
@[simp] theorem Dev.send_copies (o : Output) : (s.send o).copies = s.copies := rfl
@[simp] theorem Dev.send_hints (o : Output) : (s.send o).hints = s.hints := rfl
@[simp] theorem Dev.send_refRecv (o : Output) : (s.send o).refRecv = s.refRecv := rfl
@[simp] theorem Dev.send_skeins (o : Output) : (s.send o).skeins = s.skeins := rfl
@[simp] theorem Dev.send_row (o : Output) : (s.send o).row = s.row := rfl
@[simp] theorem Dev.send_fco (o : Output) : (s.send o).fco = s.fco := rfl
@[simp] theorem Dev.send_psq (o : Output) : (s.send o).psq = s.psq := rfl
@[simp] theorem Dev.send_cks (o : Output) : (s.send o).cks = s.cks := rfl
@[simp] theorem Dev.send_cal (o : Output) : (s.send o).cal = s.cal := rfl
@[simp] theorem Dev.send_out (o : Output) : (s.send o).out = o :: s.out := rfl

/-! `at` -/

@[simp] theorem Dev.at_clock (t : Nat) : (s.at t).clock = max s.clock t := rfl
@[simp] theorem Dev.at_fresh (t : Nat) : (s.at t).fresh = s.fresh := rfl
@[simp] theorem Dev.at_uses (t : Nat) : (s.at t).uses = s.uses := rfl
@[simp] theorem Dev.at_regs (t : Nat) : (s.at t).regs = s.regs := rfl
@[simp] theorem Dev.at_lc (t : Nat) : (s.at t).lc = s.lc := rfl
@[simp] theorem Dev.at_frames (t : Nat) : (s.at t).frames = s.frames := rfl
@[simp] theorem Dev.at_errors (t : Nat) : (s.at t).errors = s.errors := rfl
@[simp] theorem Dev.at_fm (t : Nat) : (s.at t).fm = s.fm := rfl
@[simp] theorem Dev.at_rm (t : Nat) : (s.at t).rm = s.rm := rfl
@[simp] theorem Dev.at_lbm (t : Nat) : (s.at t).lbm = s.lbm := rfl
@[simp] theorem Dev.at_staged (t : Nat) : (s.at t).staged = s.staged := rfl
@[simp] theorem Dev.at_dirty (t : Nat) : (s.at t).dirty = s.dirty := rfl
@[simp] theorem Dev.at_destages (t : Nat) : (s.at t).destages = s.destages := rfl
@[simp] theorem Dev.at_fills (t : Nat) : (s.at t).fills = s.fills := rfl
@[simp] theorem Dev.at_held (t : Nat) : (s.at t).held = s.held := rfl
@[simp] theorem Dev.at_rteWait (t : Nat) : (s.at t).rteWait = s.rteWait := rfl
@[simp] theorem Dev.at_linkWait (t : Nat) : (s.at t).linkWait = s.linkWait := rfl
@[simp] theorem Dev.at_reads (t : Nat) : (s.at t).reads = s.reads := rfl
@[simp] theorem Dev.at_poison (t : Nat) : (s.at t).poison = s.poison := rfl
@[simp] theorem Dev.at_flips (t : Nat) : (s.at t).flips = s.flips := rfl
@[simp] theorem Dev.at_mdc (t : Nat) : (s.at t).mdc = s.mdc := rfl
@[simp] theorem Dev.at_fmc (t : Nat) : (s.at t).fmc = s.fmc := rfl
@[simp] theorem Dev.at_mapLost (t : Nat) : (s.at t).mapLost = s.mapLost := rfl
@[simp] theorem Dev.at_channels (t : Nat) : (s.at t).channels = s.channels := rfl
@[simp] theorem Dev.at_regions (t : Nat) : (s.at t).regions = s.regions := rfl
@[simp] theorem Dev.at_gens (t : Nat) : (s.at t).gens = s.gens := rfl
@[simp] theorem Dev.at_quotas (t : Nat) : (s.at t).quotas = s.quotas := rfl
@[simp] theorem Dev.at_sweeps (t : Nat) : (s.at t).sweeps = s.sweeps := rfl
@[simp] theorem Dev.at_media (t : Nat) : (s.at t).media = s.media := rfl
@[simp] theorem Dev.at_drives (t : Nat) : (s.at t).drives = s.drives := rfl
@[simp] theorem Dev.at_image (t : Nat) : (s.at t).image = s.image := rfl
@[simp] theorem Dev.at_imageMask (t : Nat) : (s.at t).imageMask = s.imageMask := rfl
@[simp] theorem Dev.at_lostMaps (t : Nat) : (s.at t).lostMaps = s.lostMaps := rfl
@[simp] theorem Dev.at_rebuild (t : Nat) : (s.at t).rebuild = s.rebuild := rfl
@[simp] theorem Dev.at_regionLog (t : Nat) : (s.at t).regionLog = s.regionLog := rfl
@[simp] theorem Dev.at_logWait (t : Nat) : (s.at t).logWait = s.logWait := rfl
@[simp] theorem Dev.at_lds (t : Nat) : (s.at t).lds = s.lds := rfl
@[simp] theorem Dev.at_does (t : Nat) : (s.at t).does = s.does := rfl
@[simp] theorem Dev.at_heads (t : Nat) : (s.at t).heads = s.heads := rfl
@[simp] theorem Dev.at_mgmt (t : Nat) : (s.at t).mgmt = s.mgmt := rfl
@[simp] theorem Dev.at_loadLow (t : Nat) : (s.at t).loadLow = s.loadLow := rfl
@[simp] theorem Dev.at_loadHigh (t : Nat) : (s.at t).loadHigh = s.loadHigh := rfl
@[simp] theorem Dev.at_allowance (t : Nat) : (s.at t).allowance = s.allowance := rfl
@[simp] theorem Dev.at_wabSince (t : Nat) : (s.at t).wabSince = s.wabSince := rfl
@[simp] theorem Dev.at_learns (t : Nat) : (s.at t).learns = s.learns := rfl
@[simp] theorem Dev.at_allocWait (t : Nat) : (s.at t).allocWait = s.allocWait := rfl
@[simp] theorem Dev.at_waits (t : Nat) : (s.at t).waits = s.waits := rfl
@[simp] theorem Dev.at_fmsDone (t : Nat) : (s.at t).fmsDone = s.fmsDone := rfl
@[simp] theorem Dev.at_rnt (t : Nat) : (s.at t).rnt = s.rnt := rfl
@[simp] theorem Dev.at_engines (t : Nat) : (s.at t).engines = s.engines := rfl
@[simp] theorem Dev.at_stiPass (t : Nat) : (s.at t).stiPass = s.stiPass := rfl
@[simp] theorem Dev.at_assocs (t : Nat) : (s.at t).assocs = s.assocs := rfl
@[simp] theorem Dev.at_paused (t : Nat) : (s.at t).paused = s.paused := rfl
@[simp] theorem Dev.at_txHeld (t : Nat) : (s.at t).txHeld = s.txHeld := rfl
@[simp] theorem Dev.at_mirror (t : Nat) : (s.at t).mirror = s.mirror := rfl
@[simp] theorem Dev.at_refPairs (t : Nat) : (s.at t).refPairs = s.refPairs := rfl
@[simp] theorem Dev.at_refLog (t : Nat) : (s.at t).refLog = s.refLog := rfl
@[simp] theorem Dev.at_round (t : Nat) : (s.at t).round = s.round := rfl
@[simp] theorem Dev.at_island (t : Nat) : (s.at t).island = s.island := rfl
@[simp] theorem Dev.at_rings (t : Nat) : (s.at t).rings = s.rings := rfl
@[simp] theorem Dev.at_rq (t : Nat) : (s.at t).rq = s.rq := rfl
@[simp] theorem Dev.at_takes (t : Nat) : (s.at t).takes = s.takes := rfl
@[simp] theorem Dev.at_revokes (t : Nat) : (s.at t).revokes = s.revokes := rfl
@[simp] theorem Dev.at_destroys (t : Nat) : (s.at t).destroys = s.destroys := rfl
@[simp] theorem Dev.at_copies (t : Nat) : (s.at t).copies = s.copies := rfl
@[simp] theorem Dev.at_hints (t : Nat) : (s.at t).hints = s.hints := rfl
@[simp] theorem Dev.at_refRecv (t : Nat) : (s.at t).refRecv = s.refRecv := rfl
@[simp] theorem Dev.at_skeins (t : Nat) : (s.at t).skeins = s.skeins := rfl
@[simp] theorem Dev.at_row (t : Nat) : (s.at t).row = s.row := rfl
@[simp] theorem Dev.at_fco (t : Nat) : (s.at t).fco = s.fco := rfl
@[simp] theorem Dev.at_psq (t : Nat) : (s.at t).psq = s.psq := rfl
@[simp] theorem Dev.at_cks (t : Nat) : (s.at t).cks = s.cks := rfl
@[simp] theorem Dev.at_cal (t : Nat) : (s.at t).cal = s.cal := rfl
@[simp] theorem Dev.at_out (t : Nat) : (s.at t).out = s.out := rfl

/-! `set` -/

@[simp] theorem Dev.set_clock (f : Field) (v : Nat) : (s.set f v).clock = s.clock := rfl
@[simp] theorem Dev.set_fresh (f : Field) (v : Nat) : (s.set f v).fresh = s.fresh := rfl
@[simp] theorem Dev.set_uses (f : Field) (v : Nat) : (s.set f v).uses = s.uses := rfl
@[simp] theorem Dev.set_regs (f : Field) (v : Nat) : (s.set f v).regs = s.regs.putD f.key (v % 2 ^ f.width) f.reset := rfl
@[simp] theorem Dev.set_lc (f : Field) (v : Nat) : (s.set f v).lc = s.lc := rfl
@[simp] theorem Dev.set_frames (f : Field) (v : Nat) : (s.set f v).frames = s.frames := rfl
@[simp] theorem Dev.set_errors (f : Field) (v : Nat) : (s.set f v).errors = s.errors := rfl
@[simp] theorem Dev.set_fm (f : Field) (v : Nat) : (s.set f v).fm = s.fm := rfl
@[simp] theorem Dev.set_rm (f : Field) (v : Nat) : (s.set f v).rm = s.rm := rfl
@[simp] theorem Dev.set_lbm (f : Field) (v : Nat) : (s.set f v).lbm = s.lbm := rfl
@[simp] theorem Dev.set_staged (f : Field) (v : Nat) : (s.set f v).staged = s.staged := rfl
@[simp] theorem Dev.set_dirty (f : Field) (v : Nat) : (s.set f v).dirty = s.dirty := rfl
@[simp] theorem Dev.set_destages (f : Field) (v : Nat) : (s.set f v).destages = s.destages := rfl
@[simp] theorem Dev.set_fills (f : Field) (v : Nat) : (s.set f v).fills = s.fills := rfl
@[simp] theorem Dev.set_held (f : Field) (v : Nat) : (s.set f v).held = s.held := rfl
@[simp] theorem Dev.set_rteWait (f : Field) (v : Nat) : (s.set f v).rteWait = s.rteWait := rfl
@[simp] theorem Dev.set_linkWait (f : Field) (v : Nat) : (s.set f v).linkWait = s.linkWait := rfl
@[simp] theorem Dev.set_reads (f : Field) (v : Nat) : (s.set f v).reads = s.reads := rfl
@[simp] theorem Dev.set_poison (f : Field) (v : Nat) : (s.set f v).poison = s.poison := rfl
@[simp] theorem Dev.set_flips (f : Field) (v : Nat) : (s.set f v).flips = s.flips := rfl
@[simp] theorem Dev.set_mdc (f : Field) (v : Nat) : (s.set f v).mdc = s.mdc := rfl
@[simp] theorem Dev.set_fmc (f : Field) (v : Nat) : (s.set f v).fmc = s.fmc := rfl
@[simp] theorem Dev.set_mapLost (f : Field) (v : Nat) : (s.set f v).mapLost = s.mapLost := rfl
@[simp] theorem Dev.set_channels (f : Field) (v : Nat) : (s.set f v).channels = s.channels := rfl
@[simp] theorem Dev.set_regions (f : Field) (v : Nat) : (s.set f v).regions = s.regions := rfl
@[simp] theorem Dev.set_gens (f : Field) (v : Nat) : (s.set f v).gens = s.gens := rfl
@[simp] theorem Dev.set_quotas (f : Field) (v : Nat) : (s.set f v).quotas = s.quotas := rfl
@[simp] theorem Dev.set_sweeps (f : Field) (v : Nat) : (s.set f v).sweeps = s.sweeps := rfl
@[simp] theorem Dev.set_media (f : Field) (v : Nat) : (s.set f v).media = s.media := rfl
@[simp] theorem Dev.set_drives (f : Field) (v : Nat) : (s.set f v).drives = s.drives := rfl
@[simp] theorem Dev.set_image (f : Field) (v : Nat) : (s.set f v).image = s.image := rfl
@[simp] theorem Dev.set_imageMask (f : Field) (v : Nat) : (s.set f v).imageMask = s.imageMask := rfl
@[simp] theorem Dev.set_lostMaps (f : Field) (v : Nat) : (s.set f v).lostMaps = s.lostMaps := rfl
@[simp] theorem Dev.set_rebuild (f : Field) (v : Nat) : (s.set f v).rebuild = s.rebuild := rfl
@[simp] theorem Dev.set_regionLog (f : Field) (v : Nat) : (s.set f v).regionLog = s.regionLog := rfl
@[simp] theorem Dev.set_logWait (f : Field) (v : Nat) : (s.set f v).logWait = s.logWait := rfl
@[simp] theorem Dev.set_lds (f : Field) (v : Nat) : (s.set f v).lds = s.lds := rfl
@[simp] theorem Dev.set_does (f : Field) (v : Nat) : (s.set f v).does = s.does := rfl
@[simp] theorem Dev.set_heads (f : Field) (v : Nat) : (s.set f v).heads = s.heads := rfl
@[simp] theorem Dev.set_mgmt (f : Field) (v : Nat) : (s.set f v).mgmt = s.mgmt := rfl
@[simp] theorem Dev.set_loadLow (f : Field) (v : Nat) : (s.set f v).loadLow = s.loadLow := rfl
@[simp] theorem Dev.set_loadHigh (f : Field) (v : Nat) : (s.set f v).loadHigh = s.loadHigh := rfl
@[simp] theorem Dev.set_allowance (f : Field) (v : Nat) : (s.set f v).allowance = s.allowance := rfl
@[simp] theorem Dev.set_wabSince (f : Field) (v : Nat) : (s.set f v).wabSince = s.wabSince := rfl
@[simp] theorem Dev.set_learns (f : Field) (v : Nat) : (s.set f v).learns = s.learns := rfl
@[simp] theorem Dev.set_allocWait (f : Field) (v : Nat) : (s.set f v).allocWait = s.allocWait := rfl
@[simp] theorem Dev.set_waits (f : Field) (v : Nat) : (s.set f v).waits = s.waits := rfl
@[simp] theorem Dev.set_fmsDone (f : Field) (v : Nat) : (s.set f v).fmsDone = s.fmsDone := rfl
@[simp] theorem Dev.set_rnt (f : Field) (v : Nat) : (s.set f v).rnt = s.rnt := rfl
@[simp] theorem Dev.set_engines (f : Field) (v : Nat) : (s.set f v).engines = s.engines := rfl
@[simp] theorem Dev.set_stiPass (f : Field) (v : Nat) : (s.set f v).stiPass = s.stiPass := rfl
@[simp] theorem Dev.set_assocs (f : Field) (v : Nat) : (s.set f v).assocs = s.assocs := rfl
@[simp] theorem Dev.set_paused (f : Field) (v : Nat) : (s.set f v).paused = s.paused := rfl
@[simp] theorem Dev.set_txHeld (f : Field) (v : Nat) : (s.set f v).txHeld = s.txHeld := rfl
@[simp] theorem Dev.set_mirror (f : Field) (v : Nat) : (s.set f v).mirror = s.mirror := rfl
@[simp] theorem Dev.set_refPairs (f : Field) (v : Nat) : (s.set f v).refPairs = s.refPairs := rfl
@[simp] theorem Dev.set_refLog (f : Field) (v : Nat) : (s.set f v).refLog = s.refLog := rfl
@[simp] theorem Dev.set_round (f : Field) (v : Nat) : (s.set f v).round = s.round := rfl
@[simp] theorem Dev.set_island (f : Field) (v : Nat) : (s.set f v).island = s.island := rfl
@[simp] theorem Dev.set_rings (f : Field) (v : Nat) : (s.set f v).rings = s.rings := rfl
@[simp] theorem Dev.set_rq (f : Field) (v : Nat) : (s.set f v).rq = s.rq := rfl
@[simp] theorem Dev.set_takes (f : Field) (v : Nat) : (s.set f v).takes = s.takes := rfl
@[simp] theorem Dev.set_revokes (f : Field) (v : Nat) : (s.set f v).revokes = s.revokes := rfl
@[simp] theorem Dev.set_destroys (f : Field) (v : Nat) : (s.set f v).destroys = s.destroys := rfl
@[simp] theorem Dev.set_copies (f : Field) (v : Nat) : (s.set f v).copies = s.copies := rfl
@[simp] theorem Dev.set_hints (f : Field) (v : Nat) : (s.set f v).hints = s.hints := rfl
@[simp] theorem Dev.set_refRecv (f : Field) (v : Nat) : (s.set f v).refRecv = s.refRecv := rfl
@[simp] theorem Dev.set_skeins (f : Field) (v : Nat) : (s.set f v).skeins = s.skeins := rfl
@[simp] theorem Dev.set_row (f : Field) (v : Nat) : (s.set f v).row = s.row := rfl
@[simp] theorem Dev.set_fco (f : Field) (v : Nat) : (s.set f v).fco = s.fco := rfl
@[simp] theorem Dev.set_psq (f : Field) (v : Nat) : (s.set f v).psq = s.psq := rfl
@[simp] theorem Dev.set_cks (f : Field) (v : Nat) : (s.set f v).cks = s.cks := rfl
@[simp] theorem Dev.set_cal (f : Field) (v : Nat) : (s.set f v).cal = s.cal := rfl
@[simp] theorem Dev.set_out (f : Field) (v : Nat) : (s.set f v).out = s.out := rfl

/-! `setFrameLn` -/

@[simp] theorem Dev.setFrameLn_clock (fn k : Nat) (l : Ln) : (s.setFrameLn fn k l).clock = s.clock := rfl
@[simp] theorem Dev.setFrameLn_fresh (fn k : Nat) (l : Ln) : (s.setFrameLn fn k l).fresh = s.fresh := rfl
@[simp] theorem Dev.setFrameLn_uses (fn k : Nat) (l : Ln) : (s.setFrameLn fn k l).uses = s.uses := rfl
@[simp] theorem Dev.setFrameLn_regs (fn k : Nat) (l : Ln) : (s.setFrameLn fn k l).regs = s.regs := rfl
@[simp] theorem Dev.setFrameLn_lc (fn k : Nat) (l : Ln) : (s.setFrameLn fn k l).lc = s.lc := rfl
@[simp] theorem Dev.setFrameLn_frames (fn k : Nat) (l : Ln) : (s.setFrameLn fn k l).frames = s.frames.putD (fn * 64 + k) l {} := rfl
@[simp] theorem Dev.setFrameLn_errors (fn k : Nat) (l : Ln) : (s.setFrameLn fn k l).errors = s.errors := rfl
@[simp] theorem Dev.setFrameLn_fm (fn k : Nat) (l : Ln) : (s.setFrameLn fn k l).fm = s.fm := rfl
@[simp] theorem Dev.setFrameLn_rm (fn k : Nat) (l : Ln) : (s.setFrameLn fn k l).rm = s.rm := rfl
@[simp] theorem Dev.setFrameLn_lbm (fn k : Nat) (l : Ln) : (s.setFrameLn fn k l).lbm = s.lbm := rfl
@[simp] theorem Dev.setFrameLn_staged (fn k : Nat) (l : Ln) : (s.setFrameLn fn k l).staged = s.staged := rfl
@[simp] theorem Dev.setFrameLn_dirty (fn k : Nat) (l : Ln) : (s.setFrameLn fn k l).dirty = s.dirty := rfl
@[simp] theorem Dev.setFrameLn_destages (fn k : Nat) (l : Ln) : (s.setFrameLn fn k l).destages = s.destages := rfl
@[simp] theorem Dev.setFrameLn_fills (fn k : Nat) (l : Ln) : (s.setFrameLn fn k l).fills = s.fills := rfl
@[simp] theorem Dev.setFrameLn_held (fn k : Nat) (l : Ln) : (s.setFrameLn fn k l).held = s.held := rfl
@[simp] theorem Dev.setFrameLn_rteWait (fn k : Nat) (l : Ln) : (s.setFrameLn fn k l).rteWait = s.rteWait := rfl
@[simp] theorem Dev.setFrameLn_linkWait (fn k : Nat) (l : Ln) : (s.setFrameLn fn k l).linkWait = s.linkWait := rfl
@[simp] theorem Dev.setFrameLn_reads (fn k : Nat) (l : Ln) : (s.setFrameLn fn k l).reads = s.reads := rfl
@[simp] theorem Dev.setFrameLn_poison (fn k : Nat) (l : Ln) : (s.setFrameLn fn k l).poison = s.poison := rfl
@[simp] theorem Dev.setFrameLn_flips (fn k : Nat) (l : Ln) : (s.setFrameLn fn k l).flips = s.flips := rfl
@[simp] theorem Dev.setFrameLn_mdc (fn k : Nat) (l : Ln) : (s.setFrameLn fn k l).mdc = s.mdc := rfl
@[simp] theorem Dev.setFrameLn_fmc (fn k : Nat) (l : Ln) : (s.setFrameLn fn k l).fmc = s.fmc := rfl
@[simp] theorem Dev.setFrameLn_mapLost (fn k : Nat) (l : Ln) : (s.setFrameLn fn k l).mapLost = s.mapLost := rfl
@[simp] theorem Dev.setFrameLn_channels (fn k : Nat) (l : Ln) : (s.setFrameLn fn k l).channels = s.channels := rfl
@[simp] theorem Dev.setFrameLn_regions (fn k : Nat) (l : Ln) : (s.setFrameLn fn k l).regions = s.regions := rfl
@[simp] theorem Dev.setFrameLn_gens (fn k : Nat) (l : Ln) : (s.setFrameLn fn k l).gens = s.gens := rfl
@[simp] theorem Dev.setFrameLn_quotas (fn k : Nat) (l : Ln) : (s.setFrameLn fn k l).quotas = s.quotas := rfl
@[simp] theorem Dev.setFrameLn_sweeps (fn k : Nat) (l : Ln) : (s.setFrameLn fn k l).sweeps = s.sweeps := rfl
@[simp] theorem Dev.setFrameLn_media (fn k : Nat) (l : Ln) : (s.setFrameLn fn k l).media = s.media := rfl
@[simp] theorem Dev.setFrameLn_drives (fn k : Nat) (l : Ln) : (s.setFrameLn fn k l).drives = s.drives := rfl
@[simp] theorem Dev.setFrameLn_image (fn k : Nat) (l : Ln) : (s.setFrameLn fn k l).image = s.image := rfl
@[simp] theorem Dev.setFrameLn_imageMask (fn k : Nat) (l : Ln) : (s.setFrameLn fn k l).imageMask = s.imageMask := rfl
@[simp] theorem Dev.setFrameLn_lostMaps (fn k : Nat) (l : Ln) : (s.setFrameLn fn k l).lostMaps = s.lostMaps := rfl
@[simp] theorem Dev.setFrameLn_rebuild (fn k : Nat) (l : Ln) : (s.setFrameLn fn k l).rebuild = s.rebuild := rfl
@[simp] theorem Dev.setFrameLn_regionLog (fn k : Nat) (l : Ln) : (s.setFrameLn fn k l).regionLog = s.regionLog := rfl
@[simp] theorem Dev.setFrameLn_logWait (fn k : Nat) (l : Ln) : (s.setFrameLn fn k l).logWait = s.logWait := rfl
@[simp] theorem Dev.setFrameLn_lds (fn k : Nat) (l : Ln) : (s.setFrameLn fn k l).lds = s.lds := rfl
@[simp] theorem Dev.setFrameLn_does (fn k : Nat) (l : Ln) : (s.setFrameLn fn k l).does = s.does := rfl
@[simp] theorem Dev.setFrameLn_heads (fn k : Nat) (l : Ln) : (s.setFrameLn fn k l).heads = s.heads := rfl
@[simp] theorem Dev.setFrameLn_mgmt (fn k : Nat) (l : Ln) : (s.setFrameLn fn k l).mgmt = s.mgmt := rfl
@[simp] theorem Dev.setFrameLn_loadLow (fn k : Nat) (l : Ln) : (s.setFrameLn fn k l).loadLow = s.loadLow := rfl
@[simp] theorem Dev.setFrameLn_loadHigh (fn k : Nat) (l : Ln) : (s.setFrameLn fn k l).loadHigh = s.loadHigh := rfl
@[simp] theorem Dev.setFrameLn_allowance (fn k : Nat) (l : Ln) : (s.setFrameLn fn k l).allowance = s.allowance := rfl
@[simp] theorem Dev.setFrameLn_wabSince (fn k : Nat) (l : Ln) : (s.setFrameLn fn k l).wabSince = s.wabSince := rfl
@[simp] theorem Dev.setFrameLn_learns (fn k : Nat) (l : Ln) : (s.setFrameLn fn k l).learns = s.learns := rfl
@[simp] theorem Dev.setFrameLn_allocWait (fn k : Nat) (l : Ln) : (s.setFrameLn fn k l).allocWait = s.allocWait := rfl
@[simp] theorem Dev.setFrameLn_waits (fn k : Nat) (l : Ln) : (s.setFrameLn fn k l).waits = s.waits := rfl
@[simp] theorem Dev.setFrameLn_fmsDone (fn k : Nat) (l : Ln) : (s.setFrameLn fn k l).fmsDone = s.fmsDone := rfl
@[simp] theorem Dev.setFrameLn_rnt (fn k : Nat) (l : Ln) : (s.setFrameLn fn k l).rnt = s.rnt := rfl
@[simp] theorem Dev.setFrameLn_engines (fn k : Nat) (l : Ln) : (s.setFrameLn fn k l).engines = s.engines := rfl
@[simp] theorem Dev.setFrameLn_stiPass (fn k : Nat) (l : Ln) : (s.setFrameLn fn k l).stiPass = s.stiPass := rfl
@[simp] theorem Dev.setFrameLn_assocs (fn k : Nat) (l : Ln) : (s.setFrameLn fn k l).assocs = s.assocs := rfl
@[simp] theorem Dev.setFrameLn_paused (fn k : Nat) (l : Ln) : (s.setFrameLn fn k l).paused = s.paused := rfl
@[simp] theorem Dev.setFrameLn_txHeld (fn k : Nat) (l : Ln) : (s.setFrameLn fn k l).txHeld = s.txHeld := rfl
@[simp] theorem Dev.setFrameLn_mirror (fn k : Nat) (l : Ln) : (s.setFrameLn fn k l).mirror = s.mirror := rfl
@[simp] theorem Dev.setFrameLn_refPairs (fn k : Nat) (l : Ln) : (s.setFrameLn fn k l).refPairs = s.refPairs := rfl
@[simp] theorem Dev.setFrameLn_refLog (fn k : Nat) (l : Ln) : (s.setFrameLn fn k l).refLog = s.refLog := rfl
@[simp] theorem Dev.setFrameLn_round (fn k : Nat) (l : Ln) : (s.setFrameLn fn k l).round = s.round := rfl
@[simp] theorem Dev.setFrameLn_island (fn k : Nat) (l : Ln) : (s.setFrameLn fn k l).island = s.island := rfl
@[simp] theorem Dev.setFrameLn_rings (fn k : Nat) (l : Ln) : (s.setFrameLn fn k l).rings = s.rings := rfl
@[simp] theorem Dev.setFrameLn_rq (fn k : Nat) (l : Ln) : (s.setFrameLn fn k l).rq = s.rq := rfl
@[simp] theorem Dev.setFrameLn_takes (fn k : Nat) (l : Ln) : (s.setFrameLn fn k l).takes = s.takes := rfl
@[simp] theorem Dev.setFrameLn_revokes (fn k : Nat) (l : Ln) : (s.setFrameLn fn k l).revokes = s.revokes := rfl
@[simp] theorem Dev.setFrameLn_destroys (fn k : Nat) (l : Ln) : (s.setFrameLn fn k l).destroys = s.destroys := rfl
@[simp] theorem Dev.setFrameLn_copies (fn k : Nat) (l : Ln) : (s.setFrameLn fn k l).copies = s.copies := rfl
@[simp] theorem Dev.setFrameLn_hints (fn k : Nat) (l : Ln) : (s.setFrameLn fn k l).hints = s.hints := rfl
@[simp] theorem Dev.setFrameLn_refRecv (fn k : Nat) (l : Ln) : (s.setFrameLn fn k l).refRecv = s.refRecv := rfl
@[simp] theorem Dev.setFrameLn_skeins (fn k : Nat) (l : Ln) : (s.setFrameLn fn k l).skeins = s.skeins := rfl
@[simp] theorem Dev.setFrameLn_row (fn k : Nat) (l : Ln) : (s.setFrameLn fn k l).row = s.row := rfl
@[simp] theorem Dev.setFrameLn_fco (fn k : Nat) (l : Ln) : (s.setFrameLn fn k l).fco = s.fco := rfl
@[simp] theorem Dev.setFrameLn_psq (fn k : Nat) (l : Ln) : (s.setFrameLn fn k l).psq = s.psq := rfl
@[simp] theorem Dev.setFrameLn_cks (fn k : Nat) (l : Ln) : (s.setFrameLn fn k l).cks = s.cks := rfl
@[simp] theorem Dev.setFrameLn_cal (fn k : Nat) (l : Ln) : (s.setFrameLn fn k l).cal = s.cal := rfl
@[simp] theorem Dev.setFrameLn_out (fn k : Nat) (l : Ln) : (s.setFrameLn fn k l).out = s.out := rfl

/-! `setRing` -/

@[simp] theorem Dev.setRing_clock (f r : Nat) (x : Ring) : (s.setRing f r x).clock = s.clock := rfl
@[simp] theorem Dev.setRing_fresh (f r : Nat) (x : Ring) : (s.setRing f r x).fresh = s.fresh := rfl
@[simp] theorem Dev.setRing_uses (f r : Nat) (x : Ring) : (s.setRing f r x).uses = s.uses := rfl
@[simp] theorem Dev.setRing_regs (f r : Nat) (x : Ring) : (s.setRing f r x).regs = s.regs := rfl
@[simp] theorem Dev.setRing_lc (f r : Nat) (x : Ring) : (s.setRing f r x).lc = s.lc := rfl
@[simp] theorem Dev.setRing_frames (f r : Nat) (x : Ring) : (s.setRing f r x).frames = s.frames := rfl
@[simp] theorem Dev.setRing_errors (f r : Nat) (x : Ring) : (s.setRing f r x).errors = s.errors := rfl
@[simp] theorem Dev.setRing_fm (f r : Nat) (x : Ring) : (s.setRing f r x).fm = s.fm := rfl
@[simp] theorem Dev.setRing_rm (f r : Nat) (x : Ring) : (s.setRing f r x).rm = s.rm := rfl
@[simp] theorem Dev.setRing_lbm (f r : Nat) (x : Ring) : (s.setRing f r x).lbm = s.lbm := rfl
@[simp] theorem Dev.setRing_staged (f r : Nat) (x : Ring) : (s.setRing f r x).staged = s.staged := rfl
@[simp] theorem Dev.setRing_dirty (f r : Nat) (x : Ring) : (s.setRing f r x).dirty = s.dirty := rfl
@[simp] theorem Dev.setRing_destages (f r : Nat) (x : Ring) : (s.setRing f r x).destages = s.destages := rfl
@[simp] theorem Dev.setRing_fills (f r : Nat) (x : Ring) : (s.setRing f r x).fills = s.fills := rfl
@[simp] theorem Dev.setRing_held (f r : Nat) (x : Ring) : (s.setRing f r x).held = s.held := rfl
@[simp] theorem Dev.setRing_rteWait (f r : Nat) (x : Ring) : (s.setRing f r x).rteWait = s.rteWait := rfl
@[simp] theorem Dev.setRing_linkWait (f r : Nat) (x : Ring) : (s.setRing f r x).linkWait = s.linkWait := rfl
@[simp] theorem Dev.setRing_reads (f r : Nat) (x : Ring) : (s.setRing f r x).reads = s.reads := rfl
@[simp] theorem Dev.setRing_poison (f r : Nat) (x : Ring) : (s.setRing f r x).poison = s.poison := rfl
@[simp] theorem Dev.setRing_flips (f r : Nat) (x : Ring) : (s.setRing f r x).flips = s.flips := rfl
@[simp] theorem Dev.setRing_mdc (f r : Nat) (x : Ring) : (s.setRing f r x).mdc = s.mdc := rfl
@[simp] theorem Dev.setRing_fmc (f r : Nat) (x : Ring) : (s.setRing f r x).fmc = s.fmc := rfl
@[simp] theorem Dev.setRing_mapLost (f r : Nat) (x : Ring) : (s.setRing f r x).mapLost = s.mapLost := rfl
@[simp] theorem Dev.setRing_channels (f r : Nat) (x : Ring) : (s.setRing f r x).channels = s.channels := rfl
@[simp] theorem Dev.setRing_regions (f r : Nat) (x : Ring) : (s.setRing f r x).regions = s.regions := rfl
@[simp] theorem Dev.setRing_gens (f r : Nat) (x : Ring) : (s.setRing f r x).gens = s.gens := rfl
@[simp] theorem Dev.setRing_quotas (f r : Nat) (x : Ring) : (s.setRing f r x).quotas = s.quotas := rfl
@[simp] theorem Dev.setRing_sweeps (f r : Nat) (x : Ring) : (s.setRing f r x).sweeps = s.sweeps := rfl
@[simp] theorem Dev.setRing_media (f r : Nat) (x : Ring) : (s.setRing f r x).media = s.media := rfl
@[simp] theorem Dev.setRing_drives (f r : Nat) (x : Ring) : (s.setRing f r x).drives = s.drives := rfl
@[simp] theorem Dev.setRing_image (f r : Nat) (x : Ring) : (s.setRing f r x).image = s.image := rfl
@[simp] theorem Dev.setRing_imageMask (f r : Nat) (x : Ring) : (s.setRing f r x).imageMask = s.imageMask := rfl
@[simp] theorem Dev.setRing_lostMaps (f r : Nat) (x : Ring) : (s.setRing f r x).lostMaps = s.lostMaps := rfl
@[simp] theorem Dev.setRing_rebuild (f r : Nat) (x : Ring) : (s.setRing f r x).rebuild = s.rebuild := rfl
@[simp] theorem Dev.setRing_regionLog (f r : Nat) (x : Ring) : (s.setRing f r x).regionLog = s.regionLog := rfl
@[simp] theorem Dev.setRing_logWait (f r : Nat) (x : Ring) : (s.setRing f r x).logWait = s.logWait := rfl
@[simp] theorem Dev.setRing_lds (f r : Nat) (x : Ring) : (s.setRing f r x).lds = s.lds := rfl
@[simp] theorem Dev.setRing_does (f r : Nat) (x : Ring) : (s.setRing f r x).does = s.does := rfl
@[simp] theorem Dev.setRing_heads (f r : Nat) (x : Ring) : (s.setRing f r x).heads = s.heads := rfl
@[simp] theorem Dev.setRing_mgmt (f r : Nat) (x : Ring) : (s.setRing f r x).mgmt = s.mgmt := rfl
@[simp] theorem Dev.setRing_loadLow (f r : Nat) (x : Ring) : (s.setRing f r x).loadLow = s.loadLow := rfl
@[simp] theorem Dev.setRing_loadHigh (f r : Nat) (x : Ring) : (s.setRing f r x).loadHigh = s.loadHigh := rfl
@[simp] theorem Dev.setRing_allowance (f r : Nat) (x : Ring) : (s.setRing f r x).allowance = s.allowance := rfl
@[simp] theorem Dev.setRing_wabSince (f r : Nat) (x : Ring) : (s.setRing f r x).wabSince = s.wabSince := rfl
@[simp] theorem Dev.setRing_learns (f r : Nat) (x : Ring) : (s.setRing f r x).learns = s.learns := rfl
@[simp] theorem Dev.setRing_allocWait (f r : Nat) (x : Ring) : (s.setRing f r x).allocWait = s.allocWait := rfl
@[simp] theorem Dev.setRing_waits (f r : Nat) (x : Ring) : (s.setRing f r x).waits = s.waits := rfl
@[simp] theorem Dev.setRing_fmsDone (f r : Nat) (x : Ring) : (s.setRing f r x).fmsDone = s.fmsDone := rfl
@[simp] theorem Dev.setRing_rnt (f r : Nat) (x : Ring) : (s.setRing f r x).rnt = s.rnt := rfl
@[simp] theorem Dev.setRing_engines (f r : Nat) (x : Ring) : (s.setRing f r x).engines = s.engines := rfl
@[simp] theorem Dev.setRing_stiPass (f r : Nat) (x : Ring) : (s.setRing f r x).stiPass = s.stiPass := rfl
@[simp] theorem Dev.setRing_assocs (f r : Nat) (x : Ring) : (s.setRing f r x).assocs = s.assocs := rfl
@[simp] theorem Dev.setRing_paused (f r : Nat) (x : Ring) : (s.setRing f r x).paused = s.paused := rfl
@[simp] theorem Dev.setRing_txHeld (f r : Nat) (x : Ring) : (s.setRing f r x).txHeld = s.txHeld := rfl
@[simp] theorem Dev.setRing_mirror (f r : Nat) (x : Ring) : (s.setRing f r x).mirror = s.mirror := rfl
@[simp] theorem Dev.setRing_refPairs (f r : Nat) (x : Ring) : (s.setRing f r x).refPairs = s.refPairs := rfl
@[simp] theorem Dev.setRing_refLog (f r : Nat) (x : Ring) : (s.setRing f r x).refLog = s.refLog := rfl
@[simp] theorem Dev.setRing_round (f r : Nat) (x : Ring) : (s.setRing f r x).round = s.round := rfl
@[simp] theorem Dev.setRing_island (f r : Nat) (x : Ring) : (s.setRing f r x).island = s.island := rfl
@[simp] theorem Dev.setRing_rings (f r : Nat) (x : Ring) : (s.setRing f r x).rings = s.rings.putD (f * 16 + r) x {} := rfl
@[simp] theorem Dev.setRing_rq (f r : Nat) (x : Ring) : (s.setRing f r x).rq = s.rq := rfl
@[simp] theorem Dev.setRing_takes (f r : Nat) (x : Ring) : (s.setRing f r x).takes = s.takes := rfl
@[simp] theorem Dev.setRing_revokes (f r : Nat) (x : Ring) : (s.setRing f r x).revokes = s.revokes := rfl
@[simp] theorem Dev.setRing_destroys (f r : Nat) (x : Ring) : (s.setRing f r x).destroys = s.destroys := rfl
@[simp] theorem Dev.setRing_copies (f r : Nat) (x : Ring) : (s.setRing f r x).copies = s.copies := rfl
@[simp] theorem Dev.setRing_hints (f r : Nat) (x : Ring) : (s.setRing f r x).hints = s.hints := rfl
@[simp] theorem Dev.setRing_refRecv (f r : Nat) (x : Ring) : (s.setRing f r x).refRecv = s.refRecv := rfl
@[simp] theorem Dev.setRing_skeins (f r : Nat) (x : Ring) : (s.setRing f r x).skeins = s.skeins := rfl
@[simp] theorem Dev.setRing_row (f r : Nat) (x : Ring) : (s.setRing f r x).row = s.row := rfl
@[simp] theorem Dev.setRing_fco (f r : Nat) (x : Ring) : (s.setRing f r x).fco = s.fco := rfl
@[simp] theorem Dev.setRing_psq (f r : Nat) (x : Ring) : (s.setRing f r x).psq = s.psq := rfl
@[simp] theorem Dev.setRing_cks (f r : Nat) (x : Ring) : (s.setRing f r x).cks = s.cks := rfl
@[simp] theorem Dev.setRing_cal (f r : Nat) (x : Ring) : (s.setRing f r x).cal = s.cal := rfl
@[simp] theorem Dev.setRing_out (f r : Nat) (x : Ring) : (s.setRing f r x).out = s.out := rfl

/-! `setEngine` -/

@[simp] theorem Dev.setEngine_clock (e : Nat) (x : Engine) : (s.setEngine e x).clock = s.clock := rfl
@[simp] theorem Dev.setEngine_fresh (e : Nat) (x : Engine) : (s.setEngine e x).fresh = s.fresh := rfl
@[simp] theorem Dev.setEngine_uses (e : Nat) (x : Engine) : (s.setEngine e x).uses = s.uses := rfl
@[simp] theorem Dev.setEngine_regs (e : Nat) (x : Engine) : (s.setEngine e x).regs = s.regs := rfl
@[simp] theorem Dev.setEngine_lc (e : Nat) (x : Engine) : (s.setEngine e x).lc = s.lc := rfl
@[simp] theorem Dev.setEngine_frames (e : Nat) (x : Engine) : (s.setEngine e x).frames = s.frames := rfl
@[simp] theorem Dev.setEngine_errors (e : Nat) (x : Engine) : (s.setEngine e x).errors = s.errors := rfl
@[simp] theorem Dev.setEngine_fm (e : Nat) (x : Engine) : (s.setEngine e x).fm = s.fm := rfl
@[simp] theorem Dev.setEngine_rm (e : Nat) (x : Engine) : (s.setEngine e x).rm = s.rm := rfl
@[simp] theorem Dev.setEngine_lbm (e : Nat) (x : Engine) : (s.setEngine e x).lbm = s.lbm := rfl
@[simp] theorem Dev.setEngine_staged (e : Nat) (x : Engine) : (s.setEngine e x).staged = s.staged := rfl
@[simp] theorem Dev.setEngine_dirty (e : Nat) (x : Engine) : (s.setEngine e x).dirty = s.dirty := rfl
@[simp] theorem Dev.setEngine_destages (e : Nat) (x : Engine) : (s.setEngine e x).destages = s.destages := rfl
@[simp] theorem Dev.setEngine_fills (e : Nat) (x : Engine) : (s.setEngine e x).fills = s.fills := rfl
@[simp] theorem Dev.setEngine_held (e : Nat) (x : Engine) : (s.setEngine e x).held = s.held := rfl
@[simp] theorem Dev.setEngine_rteWait (e : Nat) (x : Engine) : (s.setEngine e x).rteWait = s.rteWait := rfl
@[simp] theorem Dev.setEngine_linkWait (e : Nat) (x : Engine) : (s.setEngine e x).linkWait = s.linkWait := rfl
@[simp] theorem Dev.setEngine_reads (e : Nat) (x : Engine) : (s.setEngine e x).reads = s.reads := rfl
@[simp] theorem Dev.setEngine_poison (e : Nat) (x : Engine) : (s.setEngine e x).poison = s.poison := rfl
@[simp] theorem Dev.setEngine_flips (e : Nat) (x : Engine) : (s.setEngine e x).flips = s.flips := rfl
@[simp] theorem Dev.setEngine_mdc (e : Nat) (x : Engine) : (s.setEngine e x).mdc = s.mdc := rfl
@[simp] theorem Dev.setEngine_fmc (e : Nat) (x : Engine) : (s.setEngine e x).fmc = s.fmc := rfl
@[simp] theorem Dev.setEngine_mapLost (e : Nat) (x : Engine) : (s.setEngine e x).mapLost = s.mapLost := rfl
@[simp] theorem Dev.setEngine_channels (e : Nat) (x : Engine) : (s.setEngine e x).channels = s.channels := rfl
@[simp] theorem Dev.setEngine_regions (e : Nat) (x : Engine) : (s.setEngine e x).regions = s.regions := rfl
@[simp] theorem Dev.setEngine_gens (e : Nat) (x : Engine) : (s.setEngine e x).gens = s.gens := rfl
@[simp] theorem Dev.setEngine_quotas (e : Nat) (x : Engine) : (s.setEngine e x).quotas = s.quotas := rfl
@[simp] theorem Dev.setEngine_sweeps (e : Nat) (x : Engine) : (s.setEngine e x).sweeps = s.sweeps := rfl
@[simp] theorem Dev.setEngine_media (e : Nat) (x : Engine) : (s.setEngine e x).media = s.media := rfl
@[simp] theorem Dev.setEngine_drives (e : Nat) (x : Engine) : (s.setEngine e x).drives = s.drives := rfl
@[simp] theorem Dev.setEngine_image (e : Nat) (x : Engine) : (s.setEngine e x).image = s.image := rfl
@[simp] theorem Dev.setEngine_imageMask (e : Nat) (x : Engine) : (s.setEngine e x).imageMask = s.imageMask := rfl
@[simp] theorem Dev.setEngine_lostMaps (e : Nat) (x : Engine) : (s.setEngine e x).lostMaps = s.lostMaps := rfl
@[simp] theorem Dev.setEngine_rebuild (e : Nat) (x : Engine) : (s.setEngine e x).rebuild = s.rebuild := rfl
@[simp] theorem Dev.setEngine_regionLog (e : Nat) (x : Engine) : (s.setEngine e x).regionLog = s.regionLog := rfl
@[simp] theorem Dev.setEngine_logWait (e : Nat) (x : Engine) : (s.setEngine e x).logWait = s.logWait := rfl
@[simp] theorem Dev.setEngine_lds (e : Nat) (x : Engine) : (s.setEngine e x).lds = s.lds := rfl
@[simp] theorem Dev.setEngine_does (e : Nat) (x : Engine) : (s.setEngine e x).does = s.does := rfl
@[simp] theorem Dev.setEngine_heads (e : Nat) (x : Engine) : (s.setEngine e x).heads = s.heads := rfl
@[simp] theorem Dev.setEngine_mgmt (e : Nat) (x : Engine) : (s.setEngine e x).mgmt = s.mgmt := rfl
@[simp] theorem Dev.setEngine_loadLow (e : Nat) (x : Engine) : (s.setEngine e x).loadLow = s.loadLow := rfl
@[simp] theorem Dev.setEngine_loadHigh (e : Nat) (x : Engine) : (s.setEngine e x).loadHigh = s.loadHigh := rfl
@[simp] theorem Dev.setEngine_allowance (e : Nat) (x : Engine) : (s.setEngine e x).allowance = s.allowance := rfl
@[simp] theorem Dev.setEngine_wabSince (e : Nat) (x : Engine) : (s.setEngine e x).wabSince = s.wabSince := rfl
@[simp] theorem Dev.setEngine_learns (e : Nat) (x : Engine) : (s.setEngine e x).learns = s.learns := rfl
@[simp] theorem Dev.setEngine_allocWait (e : Nat) (x : Engine) : (s.setEngine e x).allocWait = s.allocWait := rfl
@[simp] theorem Dev.setEngine_waits (e : Nat) (x : Engine) : (s.setEngine e x).waits = s.waits := rfl
@[simp] theorem Dev.setEngine_fmsDone (e : Nat) (x : Engine) : (s.setEngine e x).fmsDone = s.fmsDone := rfl
@[simp] theorem Dev.setEngine_rnt (e : Nat) (x : Engine) : (s.setEngine e x).rnt = s.rnt := rfl
@[simp] theorem Dev.setEngine_engines (e : Nat) (x : Engine) : (s.setEngine e x).engines = s.engines.putD e x {} := rfl
@[simp] theorem Dev.setEngine_stiPass (e : Nat) (x : Engine) : (s.setEngine e x).stiPass = s.stiPass := rfl
@[simp] theorem Dev.setEngine_assocs (e : Nat) (x : Engine) : (s.setEngine e x).assocs = s.assocs := rfl
@[simp] theorem Dev.setEngine_paused (e : Nat) (x : Engine) : (s.setEngine e x).paused = s.paused := rfl
@[simp] theorem Dev.setEngine_txHeld (e : Nat) (x : Engine) : (s.setEngine e x).txHeld = s.txHeld := rfl
@[simp] theorem Dev.setEngine_mirror (e : Nat) (x : Engine) : (s.setEngine e x).mirror = s.mirror := rfl
@[simp] theorem Dev.setEngine_refPairs (e : Nat) (x : Engine) : (s.setEngine e x).refPairs = s.refPairs := rfl
@[simp] theorem Dev.setEngine_refLog (e : Nat) (x : Engine) : (s.setEngine e x).refLog = s.refLog := rfl
@[simp] theorem Dev.setEngine_round (e : Nat) (x : Engine) : (s.setEngine e x).round = s.round := rfl
@[simp] theorem Dev.setEngine_island (e : Nat) (x : Engine) : (s.setEngine e x).island = s.island := rfl
@[simp] theorem Dev.setEngine_rings (e : Nat) (x : Engine) : (s.setEngine e x).rings = s.rings := rfl
@[simp] theorem Dev.setEngine_rq (e : Nat) (x : Engine) : (s.setEngine e x).rq = s.rq := rfl
@[simp] theorem Dev.setEngine_takes (e : Nat) (x : Engine) : (s.setEngine e x).takes = s.takes := rfl
@[simp] theorem Dev.setEngine_revokes (e : Nat) (x : Engine) : (s.setEngine e x).revokes = s.revokes := rfl
@[simp] theorem Dev.setEngine_destroys (e : Nat) (x : Engine) : (s.setEngine e x).destroys = s.destroys := rfl
@[simp] theorem Dev.setEngine_copies (e : Nat) (x : Engine) : (s.setEngine e x).copies = s.copies := rfl
@[simp] theorem Dev.setEngine_hints (e : Nat) (x : Engine) : (s.setEngine e x).hints = s.hints := rfl
@[simp] theorem Dev.setEngine_refRecv (e : Nat) (x : Engine) : (s.setEngine e x).refRecv = s.refRecv := rfl
@[simp] theorem Dev.setEngine_skeins (e : Nat) (x : Engine) : (s.setEngine e x).skeins = s.skeins := rfl
@[simp] theorem Dev.setEngine_row (e : Nat) (x : Engine) : (s.setEngine e x).row = s.row := rfl
@[simp] theorem Dev.setEngine_fco (e : Nat) (x : Engine) : (s.setEngine e x).fco = s.fco := rfl
@[simp] theorem Dev.setEngine_psq (e : Nat) (x : Engine) : (s.setEngine e x).psq = s.psq := rfl
@[simp] theorem Dev.setEngine_cks (e : Nat) (x : Engine) : (s.setEngine e x).cks = s.cks := rfl
@[simp] theorem Dev.setEngine_cal (e : Nat) (x : Engine) : (s.setEngine e x).cal = s.cal := rfl
@[simp] theorem Dev.setEngine_out (e : Nat) (x : Engine) : (s.setEngine e x).out = s.out := rfl

/-! `setAssoc` -/

@[simp] theorem Dev.setAssoc_clock (a : Nat) (x : Assoc) : (s.setAssoc a x).clock = s.clock := rfl
@[simp] theorem Dev.setAssoc_fresh (a : Nat) (x : Assoc) : (s.setAssoc a x).fresh = s.fresh := rfl
@[simp] theorem Dev.setAssoc_uses (a : Nat) (x : Assoc) : (s.setAssoc a x).uses = s.uses := rfl
@[simp] theorem Dev.setAssoc_regs (a : Nat) (x : Assoc) : (s.setAssoc a x).regs = s.regs := rfl
@[simp] theorem Dev.setAssoc_lc (a : Nat) (x : Assoc) : (s.setAssoc a x).lc = s.lc := rfl
@[simp] theorem Dev.setAssoc_frames (a : Nat) (x : Assoc) : (s.setAssoc a x).frames = s.frames := rfl
@[simp] theorem Dev.setAssoc_errors (a : Nat) (x : Assoc) : (s.setAssoc a x).errors = s.errors := rfl
@[simp] theorem Dev.setAssoc_fm (a : Nat) (x : Assoc) : (s.setAssoc a x).fm = s.fm := rfl
@[simp] theorem Dev.setAssoc_rm (a : Nat) (x : Assoc) : (s.setAssoc a x).rm = s.rm := rfl
@[simp] theorem Dev.setAssoc_lbm (a : Nat) (x : Assoc) : (s.setAssoc a x).lbm = s.lbm := rfl
@[simp] theorem Dev.setAssoc_staged (a : Nat) (x : Assoc) : (s.setAssoc a x).staged = s.staged := rfl
@[simp] theorem Dev.setAssoc_dirty (a : Nat) (x : Assoc) : (s.setAssoc a x).dirty = s.dirty := rfl
@[simp] theorem Dev.setAssoc_destages (a : Nat) (x : Assoc) : (s.setAssoc a x).destages = s.destages := rfl
@[simp] theorem Dev.setAssoc_fills (a : Nat) (x : Assoc) : (s.setAssoc a x).fills = s.fills := rfl
@[simp] theorem Dev.setAssoc_held (a : Nat) (x : Assoc) : (s.setAssoc a x).held = s.held := rfl
@[simp] theorem Dev.setAssoc_rteWait (a : Nat) (x : Assoc) : (s.setAssoc a x).rteWait = s.rteWait := rfl
@[simp] theorem Dev.setAssoc_linkWait (a : Nat) (x : Assoc) : (s.setAssoc a x).linkWait = s.linkWait := rfl
@[simp] theorem Dev.setAssoc_reads (a : Nat) (x : Assoc) : (s.setAssoc a x).reads = s.reads := rfl
@[simp] theorem Dev.setAssoc_poison (a : Nat) (x : Assoc) : (s.setAssoc a x).poison = s.poison := rfl
@[simp] theorem Dev.setAssoc_flips (a : Nat) (x : Assoc) : (s.setAssoc a x).flips = s.flips := rfl
@[simp] theorem Dev.setAssoc_mdc (a : Nat) (x : Assoc) : (s.setAssoc a x).mdc = s.mdc := rfl
@[simp] theorem Dev.setAssoc_fmc (a : Nat) (x : Assoc) : (s.setAssoc a x).fmc = s.fmc := rfl
@[simp] theorem Dev.setAssoc_mapLost (a : Nat) (x : Assoc) : (s.setAssoc a x).mapLost = s.mapLost := rfl
@[simp] theorem Dev.setAssoc_channels (a : Nat) (x : Assoc) : (s.setAssoc a x).channels = s.channels := rfl
@[simp] theorem Dev.setAssoc_regions (a : Nat) (x : Assoc) : (s.setAssoc a x).regions = s.regions := rfl
@[simp] theorem Dev.setAssoc_gens (a : Nat) (x : Assoc) : (s.setAssoc a x).gens = s.gens := rfl
@[simp] theorem Dev.setAssoc_quotas (a : Nat) (x : Assoc) : (s.setAssoc a x).quotas = s.quotas := rfl
@[simp] theorem Dev.setAssoc_sweeps (a : Nat) (x : Assoc) : (s.setAssoc a x).sweeps = s.sweeps := rfl
@[simp] theorem Dev.setAssoc_media (a : Nat) (x : Assoc) : (s.setAssoc a x).media = s.media := rfl
@[simp] theorem Dev.setAssoc_drives (a : Nat) (x : Assoc) : (s.setAssoc a x).drives = s.drives := rfl
@[simp] theorem Dev.setAssoc_image (a : Nat) (x : Assoc) : (s.setAssoc a x).image = s.image := rfl
@[simp] theorem Dev.setAssoc_imageMask (a : Nat) (x : Assoc) : (s.setAssoc a x).imageMask = s.imageMask := rfl
@[simp] theorem Dev.setAssoc_lostMaps (a : Nat) (x : Assoc) : (s.setAssoc a x).lostMaps = s.lostMaps := rfl
@[simp] theorem Dev.setAssoc_rebuild (a : Nat) (x : Assoc) : (s.setAssoc a x).rebuild = s.rebuild := rfl
@[simp] theorem Dev.setAssoc_regionLog (a : Nat) (x : Assoc) : (s.setAssoc a x).regionLog = s.regionLog := rfl
@[simp] theorem Dev.setAssoc_logWait (a : Nat) (x : Assoc) : (s.setAssoc a x).logWait = s.logWait := rfl
@[simp] theorem Dev.setAssoc_lds (a : Nat) (x : Assoc) : (s.setAssoc a x).lds = s.lds := rfl
@[simp] theorem Dev.setAssoc_does (a : Nat) (x : Assoc) : (s.setAssoc a x).does = s.does := rfl
@[simp] theorem Dev.setAssoc_heads (a : Nat) (x : Assoc) : (s.setAssoc a x).heads = s.heads := rfl
@[simp] theorem Dev.setAssoc_mgmt (a : Nat) (x : Assoc) : (s.setAssoc a x).mgmt = s.mgmt := rfl
@[simp] theorem Dev.setAssoc_loadLow (a : Nat) (x : Assoc) : (s.setAssoc a x).loadLow = s.loadLow := rfl
@[simp] theorem Dev.setAssoc_loadHigh (a : Nat) (x : Assoc) : (s.setAssoc a x).loadHigh = s.loadHigh := rfl
@[simp] theorem Dev.setAssoc_allowance (a : Nat) (x : Assoc) : (s.setAssoc a x).allowance = s.allowance := rfl
@[simp] theorem Dev.setAssoc_wabSince (a : Nat) (x : Assoc) : (s.setAssoc a x).wabSince = s.wabSince := rfl
@[simp] theorem Dev.setAssoc_learns (a : Nat) (x : Assoc) : (s.setAssoc a x).learns = s.learns := rfl
@[simp] theorem Dev.setAssoc_allocWait (a : Nat) (x : Assoc) : (s.setAssoc a x).allocWait = s.allocWait := rfl
@[simp] theorem Dev.setAssoc_waits (a : Nat) (x : Assoc) : (s.setAssoc a x).waits = s.waits := rfl
@[simp] theorem Dev.setAssoc_fmsDone (a : Nat) (x : Assoc) : (s.setAssoc a x).fmsDone = s.fmsDone := rfl
@[simp] theorem Dev.setAssoc_rnt (a : Nat) (x : Assoc) : (s.setAssoc a x).rnt = s.rnt := rfl
@[simp] theorem Dev.setAssoc_engines (a : Nat) (x : Assoc) : (s.setAssoc a x).engines = s.engines := rfl
@[simp] theorem Dev.setAssoc_stiPass (a : Nat) (x : Assoc) : (s.setAssoc a x).stiPass = s.stiPass := rfl
@[simp] theorem Dev.setAssoc_assocs (a : Nat) (x : Assoc) : (s.setAssoc a x).assocs = s.assocs.putD a x {} := rfl
@[simp] theorem Dev.setAssoc_paused (a : Nat) (x : Assoc) : (s.setAssoc a x).paused = s.paused := rfl
@[simp] theorem Dev.setAssoc_txHeld (a : Nat) (x : Assoc) : (s.setAssoc a x).txHeld = s.txHeld := rfl
@[simp] theorem Dev.setAssoc_mirror (a : Nat) (x : Assoc) : (s.setAssoc a x).mirror = s.mirror := rfl
@[simp] theorem Dev.setAssoc_refPairs (a : Nat) (x : Assoc) : (s.setAssoc a x).refPairs = s.refPairs := rfl
@[simp] theorem Dev.setAssoc_refLog (a : Nat) (x : Assoc) : (s.setAssoc a x).refLog = s.refLog := rfl
@[simp] theorem Dev.setAssoc_round (a : Nat) (x : Assoc) : (s.setAssoc a x).round = s.round := rfl
@[simp] theorem Dev.setAssoc_island (a : Nat) (x : Assoc) : (s.setAssoc a x).island = s.island := rfl
@[simp] theorem Dev.setAssoc_rings (a : Nat) (x : Assoc) : (s.setAssoc a x).rings = s.rings := rfl
@[simp] theorem Dev.setAssoc_rq (a : Nat) (x : Assoc) : (s.setAssoc a x).rq = s.rq := rfl
@[simp] theorem Dev.setAssoc_takes (a : Nat) (x : Assoc) : (s.setAssoc a x).takes = s.takes := rfl
@[simp] theorem Dev.setAssoc_revokes (a : Nat) (x : Assoc) : (s.setAssoc a x).revokes = s.revokes := rfl
@[simp] theorem Dev.setAssoc_destroys (a : Nat) (x : Assoc) : (s.setAssoc a x).destroys = s.destroys := rfl
@[simp] theorem Dev.setAssoc_copies (a : Nat) (x : Assoc) : (s.setAssoc a x).copies = s.copies := rfl
@[simp] theorem Dev.setAssoc_hints (a : Nat) (x : Assoc) : (s.setAssoc a x).hints = s.hints := rfl
@[simp] theorem Dev.setAssoc_refRecv (a : Nat) (x : Assoc) : (s.setAssoc a x).refRecv = s.refRecv := rfl
@[simp] theorem Dev.setAssoc_skeins (a : Nat) (x : Assoc) : (s.setAssoc a x).skeins = s.skeins := rfl
@[simp] theorem Dev.setAssoc_row (a : Nat) (x : Assoc) : (s.setAssoc a x).row = s.row := rfl
@[simp] theorem Dev.setAssoc_fco (a : Nat) (x : Assoc) : (s.setAssoc a x).fco = s.fco := rfl
@[simp] theorem Dev.setAssoc_psq (a : Nat) (x : Assoc) : (s.setAssoc a x).psq = s.psq := rfl
@[simp] theorem Dev.setAssoc_cks (a : Nat) (x : Assoc) : (s.setAssoc a x).cks = s.cks := rfl
@[simp] theorem Dev.setAssoc_cal (a : Nat) (x : Assoc) : (s.setAssoc a x).cal = s.cal := rfl
@[simp] theorem Dev.setAssoc_out (a : Nat) (x : Assoc) : (s.setAssoc a x).out = s.out := rfl

/-! `setIsland` -/

@[simp] theorem Dev.setIsland_clock (f : Island → Island) : (s.setIsland f).clock = s.clock := rfl
@[simp] theorem Dev.setIsland_fresh (f : Island → Island) : (s.setIsland f).fresh = s.fresh := rfl
@[simp] theorem Dev.setIsland_uses (f : Island → Island) : (s.setIsland f).uses = s.uses := rfl
@[simp] theorem Dev.setIsland_regs (f : Island → Island) : (s.setIsland f).regs = s.regs := rfl
@[simp] theorem Dev.setIsland_lc (f : Island → Island) : (s.setIsland f).lc = s.lc := rfl
@[simp] theorem Dev.setIsland_frames (f : Island → Island) : (s.setIsland f).frames = s.frames := rfl
@[simp] theorem Dev.setIsland_errors (f : Island → Island) : (s.setIsland f).errors = s.errors := rfl
@[simp] theorem Dev.setIsland_fm (f : Island → Island) : (s.setIsland f).fm = s.fm := rfl
@[simp] theorem Dev.setIsland_rm (f : Island → Island) : (s.setIsland f).rm = s.rm := rfl
@[simp] theorem Dev.setIsland_lbm (f : Island → Island) : (s.setIsland f).lbm = s.lbm := rfl
@[simp] theorem Dev.setIsland_staged (f : Island → Island) : (s.setIsland f).staged = s.staged := rfl
@[simp] theorem Dev.setIsland_dirty (f : Island → Island) : (s.setIsland f).dirty = s.dirty := rfl
@[simp] theorem Dev.setIsland_destages (f : Island → Island) : (s.setIsland f).destages = s.destages := rfl
@[simp] theorem Dev.setIsland_fills (f : Island → Island) : (s.setIsland f).fills = s.fills := rfl
@[simp] theorem Dev.setIsland_held (f : Island → Island) : (s.setIsland f).held = s.held := rfl
@[simp] theorem Dev.setIsland_rteWait (f : Island → Island) : (s.setIsland f).rteWait = s.rteWait := rfl
@[simp] theorem Dev.setIsland_linkWait (f : Island → Island) : (s.setIsland f).linkWait = s.linkWait := rfl
@[simp] theorem Dev.setIsland_reads (f : Island → Island) : (s.setIsland f).reads = s.reads := rfl
@[simp] theorem Dev.setIsland_poison (f : Island → Island) : (s.setIsland f).poison = s.poison := rfl
@[simp] theorem Dev.setIsland_flips (f : Island → Island) : (s.setIsland f).flips = s.flips := rfl
@[simp] theorem Dev.setIsland_mdc (f : Island → Island) : (s.setIsland f).mdc = s.mdc := rfl
@[simp] theorem Dev.setIsland_fmc (f : Island → Island) : (s.setIsland f).fmc = s.fmc := rfl
@[simp] theorem Dev.setIsland_mapLost (f : Island → Island) : (s.setIsland f).mapLost = s.mapLost := rfl
@[simp] theorem Dev.setIsland_channels (f : Island → Island) : (s.setIsland f).channels = s.channels := rfl
@[simp] theorem Dev.setIsland_regions (f : Island → Island) : (s.setIsland f).regions = s.regions := rfl
@[simp] theorem Dev.setIsland_gens (f : Island → Island) : (s.setIsland f).gens = s.gens := rfl
@[simp] theorem Dev.setIsland_quotas (f : Island → Island) : (s.setIsland f).quotas = s.quotas := rfl
@[simp] theorem Dev.setIsland_sweeps (f : Island → Island) : (s.setIsland f).sweeps = s.sweeps := rfl
@[simp] theorem Dev.setIsland_media (f : Island → Island) : (s.setIsland f).media = s.media := rfl
@[simp] theorem Dev.setIsland_drives (f : Island → Island) : (s.setIsland f).drives = s.drives := rfl
@[simp] theorem Dev.setIsland_image (f : Island → Island) : (s.setIsland f).image = s.image := rfl
@[simp] theorem Dev.setIsland_imageMask (f : Island → Island) : (s.setIsland f).imageMask = s.imageMask := rfl
@[simp] theorem Dev.setIsland_lostMaps (f : Island → Island) : (s.setIsland f).lostMaps = s.lostMaps := rfl
@[simp] theorem Dev.setIsland_rebuild (f : Island → Island) : (s.setIsland f).rebuild = s.rebuild := rfl
@[simp] theorem Dev.setIsland_regionLog (f : Island → Island) : (s.setIsland f).regionLog = s.regionLog := rfl
@[simp] theorem Dev.setIsland_logWait (f : Island → Island) : (s.setIsland f).logWait = s.logWait := rfl
@[simp] theorem Dev.setIsland_lds (f : Island → Island) : (s.setIsland f).lds = s.lds := rfl
@[simp] theorem Dev.setIsland_does (f : Island → Island) : (s.setIsland f).does = s.does := rfl
@[simp] theorem Dev.setIsland_heads (f : Island → Island) : (s.setIsland f).heads = s.heads := rfl
@[simp] theorem Dev.setIsland_mgmt (f : Island → Island) : (s.setIsland f).mgmt = s.mgmt := rfl
@[simp] theorem Dev.setIsland_loadLow (f : Island → Island) : (s.setIsland f).loadLow = s.loadLow := rfl
@[simp] theorem Dev.setIsland_loadHigh (f : Island → Island) : (s.setIsland f).loadHigh = s.loadHigh := rfl
@[simp] theorem Dev.setIsland_allowance (f : Island → Island) : (s.setIsland f).allowance = s.allowance := rfl
@[simp] theorem Dev.setIsland_wabSince (f : Island → Island) : (s.setIsland f).wabSince = s.wabSince := rfl
@[simp] theorem Dev.setIsland_learns (f : Island → Island) : (s.setIsland f).learns = s.learns := rfl
@[simp] theorem Dev.setIsland_allocWait (f : Island → Island) : (s.setIsland f).allocWait = s.allocWait := rfl
@[simp] theorem Dev.setIsland_waits (f : Island → Island) : (s.setIsland f).waits = s.waits := rfl
@[simp] theorem Dev.setIsland_fmsDone (f : Island → Island) : (s.setIsland f).fmsDone = s.fmsDone := rfl
@[simp] theorem Dev.setIsland_rnt (f : Island → Island) : (s.setIsland f).rnt = s.rnt := rfl
@[simp] theorem Dev.setIsland_engines (f : Island → Island) : (s.setIsland f).engines = s.engines := rfl
@[simp] theorem Dev.setIsland_stiPass (f : Island → Island) : (s.setIsland f).stiPass = s.stiPass := rfl
@[simp] theorem Dev.setIsland_assocs (f : Island → Island) : (s.setIsland f).assocs = s.assocs := rfl
@[simp] theorem Dev.setIsland_paused (f : Island → Island) : (s.setIsland f).paused = s.paused := rfl
@[simp] theorem Dev.setIsland_txHeld (f : Island → Island) : (s.setIsland f).txHeld = s.txHeld := rfl
@[simp] theorem Dev.setIsland_mirror (f : Island → Island) : (s.setIsland f).mirror = s.mirror := rfl
@[simp] theorem Dev.setIsland_refPairs (f : Island → Island) : (s.setIsland f).refPairs = s.refPairs := rfl
@[simp] theorem Dev.setIsland_refLog (f : Island → Island) : (s.setIsland f).refLog = s.refLog := rfl
@[simp] theorem Dev.setIsland_round (f : Island → Island) : (s.setIsland f).round = s.round := rfl
@[simp] theorem Dev.setIsland_island (f : Island → Island) : (s.setIsland f).island = f s.island := rfl
@[simp] theorem Dev.setIsland_rings (f : Island → Island) : (s.setIsland f).rings = s.rings := rfl
@[simp] theorem Dev.setIsland_rq (f : Island → Island) : (s.setIsland f).rq = s.rq := rfl
@[simp] theorem Dev.setIsland_takes (f : Island → Island) : (s.setIsland f).takes = s.takes := rfl
@[simp] theorem Dev.setIsland_revokes (f : Island → Island) : (s.setIsland f).revokes = s.revokes := rfl
@[simp] theorem Dev.setIsland_destroys (f : Island → Island) : (s.setIsland f).destroys = s.destroys := rfl
@[simp] theorem Dev.setIsland_copies (f : Island → Island) : (s.setIsland f).copies = s.copies := rfl
@[simp] theorem Dev.setIsland_hints (f : Island → Island) : (s.setIsland f).hints = s.hints := rfl
@[simp] theorem Dev.setIsland_refRecv (f : Island → Island) : (s.setIsland f).refRecv = s.refRecv := rfl
@[simp] theorem Dev.setIsland_skeins (f : Island → Island) : (s.setIsland f).skeins = s.skeins := rfl
@[simp] theorem Dev.setIsland_row (f : Island → Island) : (s.setIsland f).row = s.row := rfl
@[simp] theorem Dev.setIsland_fco (f : Island → Island) : (s.setIsland f).fco = s.fco := rfl
@[simp] theorem Dev.setIsland_psq (f : Island → Island) : (s.setIsland f).psq = s.psq := rfl
@[simp] theorem Dev.setIsland_cks (f : Island → Island) : (s.setIsland f).cks = s.cks := rfl
@[simp] theorem Dev.setIsland_cal (f : Island → Island) : (s.setIsland f).cal = s.cal := rfl
@[simp] theorem Dev.setIsland_out (f : Island → Island) : (s.setIsland f).out = s.out := rfl

/-! `setRow` -/

@[simp] theorem Dev.setRow_clock (f : RowLog → RowLog) : (s.setRow f).clock = s.clock := rfl
@[simp] theorem Dev.setRow_fresh (f : RowLog → RowLog) : (s.setRow f).fresh = s.fresh := rfl
@[simp] theorem Dev.setRow_uses (f : RowLog → RowLog) : (s.setRow f).uses = s.uses := rfl
@[simp] theorem Dev.setRow_regs (f : RowLog → RowLog) : (s.setRow f).regs = s.regs := rfl
@[simp] theorem Dev.setRow_lc (f : RowLog → RowLog) : (s.setRow f).lc = s.lc := rfl
@[simp] theorem Dev.setRow_frames (f : RowLog → RowLog) : (s.setRow f).frames = s.frames := rfl
@[simp] theorem Dev.setRow_errors (f : RowLog → RowLog) : (s.setRow f).errors = s.errors := rfl
@[simp] theorem Dev.setRow_fm (f : RowLog → RowLog) : (s.setRow f).fm = s.fm := rfl
@[simp] theorem Dev.setRow_rm (f : RowLog → RowLog) : (s.setRow f).rm = s.rm := rfl
@[simp] theorem Dev.setRow_lbm (f : RowLog → RowLog) : (s.setRow f).lbm = s.lbm := rfl
@[simp] theorem Dev.setRow_staged (f : RowLog → RowLog) : (s.setRow f).staged = s.staged := rfl
@[simp] theorem Dev.setRow_dirty (f : RowLog → RowLog) : (s.setRow f).dirty = s.dirty := rfl
@[simp] theorem Dev.setRow_destages (f : RowLog → RowLog) : (s.setRow f).destages = s.destages := rfl
@[simp] theorem Dev.setRow_fills (f : RowLog → RowLog) : (s.setRow f).fills = s.fills := rfl
@[simp] theorem Dev.setRow_held (f : RowLog → RowLog) : (s.setRow f).held = s.held := rfl
@[simp] theorem Dev.setRow_rteWait (f : RowLog → RowLog) : (s.setRow f).rteWait = s.rteWait := rfl
@[simp] theorem Dev.setRow_linkWait (f : RowLog → RowLog) : (s.setRow f).linkWait = s.linkWait := rfl
@[simp] theorem Dev.setRow_reads (f : RowLog → RowLog) : (s.setRow f).reads = s.reads := rfl
@[simp] theorem Dev.setRow_poison (f : RowLog → RowLog) : (s.setRow f).poison = s.poison := rfl
@[simp] theorem Dev.setRow_flips (f : RowLog → RowLog) : (s.setRow f).flips = s.flips := rfl
@[simp] theorem Dev.setRow_mdc (f : RowLog → RowLog) : (s.setRow f).mdc = s.mdc := rfl
@[simp] theorem Dev.setRow_fmc (f : RowLog → RowLog) : (s.setRow f).fmc = s.fmc := rfl
@[simp] theorem Dev.setRow_mapLost (f : RowLog → RowLog) : (s.setRow f).mapLost = s.mapLost := rfl
@[simp] theorem Dev.setRow_channels (f : RowLog → RowLog) : (s.setRow f).channels = s.channels := rfl
@[simp] theorem Dev.setRow_regions (f : RowLog → RowLog) : (s.setRow f).regions = s.regions := rfl
@[simp] theorem Dev.setRow_gens (f : RowLog → RowLog) : (s.setRow f).gens = s.gens := rfl
@[simp] theorem Dev.setRow_quotas (f : RowLog → RowLog) : (s.setRow f).quotas = s.quotas := rfl
@[simp] theorem Dev.setRow_sweeps (f : RowLog → RowLog) : (s.setRow f).sweeps = s.sweeps := rfl
@[simp] theorem Dev.setRow_media (f : RowLog → RowLog) : (s.setRow f).media = s.media := rfl
@[simp] theorem Dev.setRow_drives (f : RowLog → RowLog) : (s.setRow f).drives = s.drives := rfl
@[simp] theorem Dev.setRow_image (f : RowLog → RowLog) : (s.setRow f).image = s.image := rfl
@[simp] theorem Dev.setRow_imageMask (f : RowLog → RowLog) : (s.setRow f).imageMask = s.imageMask := rfl
@[simp] theorem Dev.setRow_lostMaps (f : RowLog → RowLog) : (s.setRow f).lostMaps = s.lostMaps := rfl
@[simp] theorem Dev.setRow_rebuild (f : RowLog → RowLog) : (s.setRow f).rebuild = s.rebuild := rfl
@[simp] theorem Dev.setRow_regionLog (f : RowLog → RowLog) : (s.setRow f).regionLog = s.regionLog := rfl
@[simp] theorem Dev.setRow_logWait (f : RowLog → RowLog) : (s.setRow f).logWait = s.logWait := rfl
@[simp] theorem Dev.setRow_lds (f : RowLog → RowLog) : (s.setRow f).lds = s.lds := rfl
@[simp] theorem Dev.setRow_does (f : RowLog → RowLog) : (s.setRow f).does = s.does := rfl
@[simp] theorem Dev.setRow_heads (f : RowLog → RowLog) : (s.setRow f).heads = s.heads := rfl
@[simp] theorem Dev.setRow_mgmt (f : RowLog → RowLog) : (s.setRow f).mgmt = s.mgmt := rfl
@[simp] theorem Dev.setRow_loadLow (f : RowLog → RowLog) : (s.setRow f).loadLow = s.loadLow := rfl
@[simp] theorem Dev.setRow_loadHigh (f : RowLog → RowLog) : (s.setRow f).loadHigh = s.loadHigh := rfl
@[simp] theorem Dev.setRow_allowance (f : RowLog → RowLog) : (s.setRow f).allowance = s.allowance := rfl
@[simp] theorem Dev.setRow_wabSince (f : RowLog → RowLog) : (s.setRow f).wabSince = s.wabSince := rfl
@[simp] theorem Dev.setRow_learns (f : RowLog → RowLog) : (s.setRow f).learns = s.learns := rfl
@[simp] theorem Dev.setRow_allocWait (f : RowLog → RowLog) : (s.setRow f).allocWait = s.allocWait := rfl
@[simp] theorem Dev.setRow_waits (f : RowLog → RowLog) : (s.setRow f).waits = s.waits := rfl
@[simp] theorem Dev.setRow_fmsDone (f : RowLog → RowLog) : (s.setRow f).fmsDone = s.fmsDone := rfl
@[simp] theorem Dev.setRow_rnt (f : RowLog → RowLog) : (s.setRow f).rnt = s.rnt := rfl
@[simp] theorem Dev.setRow_engines (f : RowLog → RowLog) : (s.setRow f).engines = s.engines := rfl
@[simp] theorem Dev.setRow_stiPass (f : RowLog → RowLog) : (s.setRow f).stiPass = s.stiPass := rfl
@[simp] theorem Dev.setRow_assocs (f : RowLog → RowLog) : (s.setRow f).assocs = s.assocs := rfl
@[simp] theorem Dev.setRow_paused (f : RowLog → RowLog) : (s.setRow f).paused = s.paused := rfl
@[simp] theorem Dev.setRow_txHeld (f : RowLog → RowLog) : (s.setRow f).txHeld = s.txHeld := rfl
@[simp] theorem Dev.setRow_mirror (f : RowLog → RowLog) : (s.setRow f).mirror = s.mirror := rfl
@[simp] theorem Dev.setRow_refPairs (f : RowLog → RowLog) : (s.setRow f).refPairs = s.refPairs := rfl
@[simp] theorem Dev.setRow_refLog (f : RowLog → RowLog) : (s.setRow f).refLog = s.refLog := rfl
@[simp] theorem Dev.setRow_round (f : RowLog → RowLog) : (s.setRow f).round = s.round := rfl
@[simp] theorem Dev.setRow_island (f : RowLog → RowLog) : (s.setRow f).island = s.island := rfl
@[simp] theorem Dev.setRow_rings (f : RowLog → RowLog) : (s.setRow f).rings = s.rings := rfl
@[simp] theorem Dev.setRow_rq (f : RowLog → RowLog) : (s.setRow f).rq = s.rq := rfl
@[simp] theorem Dev.setRow_takes (f : RowLog → RowLog) : (s.setRow f).takes = s.takes := rfl
@[simp] theorem Dev.setRow_revokes (f : RowLog → RowLog) : (s.setRow f).revokes = s.revokes := rfl
@[simp] theorem Dev.setRow_destroys (f : RowLog → RowLog) : (s.setRow f).destroys = s.destroys := rfl
@[simp] theorem Dev.setRow_copies (f : RowLog → RowLog) : (s.setRow f).copies = s.copies := rfl
@[simp] theorem Dev.setRow_hints (f : RowLog → RowLog) : (s.setRow f).hints = s.hints := rfl
@[simp] theorem Dev.setRow_refRecv (f : RowLog → RowLog) : (s.setRow f).refRecv = s.refRecv := rfl
@[simp] theorem Dev.setRow_skeins (f : RowLog → RowLog) : (s.setRow f).skeins = s.skeins := rfl
@[simp] theorem Dev.setRow_row (f : RowLog → RowLog) : (s.setRow f).row = f s.row := rfl
@[simp] theorem Dev.setRow_fco (f : RowLog → RowLog) : (s.setRow f).fco = s.fco := rfl
@[simp] theorem Dev.setRow_psq (f : RowLog → RowLog) : (s.setRow f).psq = s.psq := rfl
@[simp] theorem Dev.setRow_cks (f : RowLog → RowLog) : (s.setRow f).cks = s.cks := rfl
@[simp] theorem Dev.setRow_cal (f : RowLog → RowLog) : (s.setRow f).cal = s.cal := rfl
@[simp] theorem Dev.setRow_out (f : RowLog → RowLog) : (s.setRow f).out = s.out := rfl

/-! `setPsq` -/

@[simp] theorem Dev.setPsq_clock (f : Psq → Psq) : (s.setPsq f).clock = s.clock := rfl
@[simp] theorem Dev.setPsq_fresh (f : Psq → Psq) : (s.setPsq f).fresh = s.fresh := rfl
@[simp] theorem Dev.setPsq_uses (f : Psq → Psq) : (s.setPsq f).uses = s.uses := rfl
@[simp] theorem Dev.setPsq_regs (f : Psq → Psq) : (s.setPsq f).regs = s.regs := rfl
@[simp] theorem Dev.setPsq_lc (f : Psq → Psq) : (s.setPsq f).lc = s.lc := rfl
@[simp] theorem Dev.setPsq_frames (f : Psq → Psq) : (s.setPsq f).frames = s.frames := rfl
@[simp] theorem Dev.setPsq_errors (f : Psq → Psq) : (s.setPsq f).errors = s.errors := rfl
@[simp] theorem Dev.setPsq_fm (f : Psq → Psq) : (s.setPsq f).fm = s.fm := rfl
@[simp] theorem Dev.setPsq_rm (f : Psq → Psq) : (s.setPsq f).rm = s.rm := rfl
@[simp] theorem Dev.setPsq_lbm (f : Psq → Psq) : (s.setPsq f).lbm = s.lbm := rfl
@[simp] theorem Dev.setPsq_staged (f : Psq → Psq) : (s.setPsq f).staged = s.staged := rfl
@[simp] theorem Dev.setPsq_dirty (f : Psq → Psq) : (s.setPsq f).dirty = s.dirty := rfl
@[simp] theorem Dev.setPsq_destages (f : Psq → Psq) : (s.setPsq f).destages = s.destages := rfl
@[simp] theorem Dev.setPsq_fills (f : Psq → Psq) : (s.setPsq f).fills = s.fills := rfl
@[simp] theorem Dev.setPsq_held (f : Psq → Psq) : (s.setPsq f).held = s.held := rfl
@[simp] theorem Dev.setPsq_rteWait (f : Psq → Psq) : (s.setPsq f).rteWait = s.rteWait := rfl
@[simp] theorem Dev.setPsq_linkWait (f : Psq → Psq) : (s.setPsq f).linkWait = s.linkWait := rfl
@[simp] theorem Dev.setPsq_reads (f : Psq → Psq) : (s.setPsq f).reads = s.reads := rfl
@[simp] theorem Dev.setPsq_poison (f : Psq → Psq) : (s.setPsq f).poison = s.poison := rfl
@[simp] theorem Dev.setPsq_flips (f : Psq → Psq) : (s.setPsq f).flips = s.flips := rfl
@[simp] theorem Dev.setPsq_mdc (f : Psq → Psq) : (s.setPsq f).mdc = s.mdc := rfl
@[simp] theorem Dev.setPsq_fmc (f : Psq → Psq) : (s.setPsq f).fmc = s.fmc := rfl
@[simp] theorem Dev.setPsq_mapLost (f : Psq → Psq) : (s.setPsq f).mapLost = s.mapLost := rfl
@[simp] theorem Dev.setPsq_channels (f : Psq → Psq) : (s.setPsq f).channels = s.channels := rfl
@[simp] theorem Dev.setPsq_regions (f : Psq → Psq) : (s.setPsq f).regions = s.regions := rfl
@[simp] theorem Dev.setPsq_gens (f : Psq → Psq) : (s.setPsq f).gens = s.gens := rfl
@[simp] theorem Dev.setPsq_quotas (f : Psq → Psq) : (s.setPsq f).quotas = s.quotas := rfl
@[simp] theorem Dev.setPsq_sweeps (f : Psq → Psq) : (s.setPsq f).sweeps = s.sweeps := rfl
@[simp] theorem Dev.setPsq_media (f : Psq → Psq) : (s.setPsq f).media = s.media := rfl
@[simp] theorem Dev.setPsq_drives (f : Psq → Psq) : (s.setPsq f).drives = s.drives := rfl
@[simp] theorem Dev.setPsq_image (f : Psq → Psq) : (s.setPsq f).image = s.image := rfl
@[simp] theorem Dev.setPsq_imageMask (f : Psq → Psq) : (s.setPsq f).imageMask = s.imageMask := rfl
@[simp] theorem Dev.setPsq_lostMaps (f : Psq → Psq) : (s.setPsq f).lostMaps = s.lostMaps := rfl
@[simp] theorem Dev.setPsq_rebuild (f : Psq → Psq) : (s.setPsq f).rebuild = s.rebuild := rfl
@[simp] theorem Dev.setPsq_regionLog (f : Psq → Psq) : (s.setPsq f).regionLog = s.regionLog := rfl
@[simp] theorem Dev.setPsq_logWait (f : Psq → Psq) : (s.setPsq f).logWait = s.logWait := rfl
@[simp] theorem Dev.setPsq_lds (f : Psq → Psq) : (s.setPsq f).lds = s.lds := rfl
@[simp] theorem Dev.setPsq_does (f : Psq → Psq) : (s.setPsq f).does = s.does := rfl
@[simp] theorem Dev.setPsq_heads (f : Psq → Psq) : (s.setPsq f).heads = s.heads := rfl
@[simp] theorem Dev.setPsq_mgmt (f : Psq → Psq) : (s.setPsq f).mgmt = s.mgmt := rfl
@[simp] theorem Dev.setPsq_loadLow (f : Psq → Psq) : (s.setPsq f).loadLow = s.loadLow := rfl
@[simp] theorem Dev.setPsq_loadHigh (f : Psq → Psq) : (s.setPsq f).loadHigh = s.loadHigh := rfl
@[simp] theorem Dev.setPsq_allowance (f : Psq → Psq) : (s.setPsq f).allowance = s.allowance := rfl
@[simp] theorem Dev.setPsq_wabSince (f : Psq → Psq) : (s.setPsq f).wabSince = s.wabSince := rfl
@[simp] theorem Dev.setPsq_learns (f : Psq → Psq) : (s.setPsq f).learns = s.learns := rfl
@[simp] theorem Dev.setPsq_allocWait (f : Psq → Psq) : (s.setPsq f).allocWait = s.allocWait := rfl
@[simp] theorem Dev.setPsq_waits (f : Psq → Psq) : (s.setPsq f).waits = s.waits := rfl
@[simp] theorem Dev.setPsq_fmsDone (f : Psq → Psq) : (s.setPsq f).fmsDone = s.fmsDone := rfl
@[simp] theorem Dev.setPsq_rnt (f : Psq → Psq) : (s.setPsq f).rnt = s.rnt := rfl
@[simp] theorem Dev.setPsq_engines (f : Psq → Psq) : (s.setPsq f).engines = s.engines := rfl
@[simp] theorem Dev.setPsq_stiPass (f : Psq → Psq) : (s.setPsq f).stiPass = s.stiPass := rfl
@[simp] theorem Dev.setPsq_assocs (f : Psq → Psq) : (s.setPsq f).assocs = s.assocs := rfl
@[simp] theorem Dev.setPsq_paused (f : Psq → Psq) : (s.setPsq f).paused = s.paused := rfl
@[simp] theorem Dev.setPsq_txHeld (f : Psq → Psq) : (s.setPsq f).txHeld = s.txHeld := rfl
@[simp] theorem Dev.setPsq_mirror (f : Psq → Psq) : (s.setPsq f).mirror = s.mirror := rfl
@[simp] theorem Dev.setPsq_refPairs (f : Psq → Psq) : (s.setPsq f).refPairs = s.refPairs := rfl
@[simp] theorem Dev.setPsq_refLog (f : Psq → Psq) : (s.setPsq f).refLog = s.refLog := rfl
@[simp] theorem Dev.setPsq_round (f : Psq → Psq) : (s.setPsq f).round = s.round := rfl
@[simp] theorem Dev.setPsq_island (f : Psq → Psq) : (s.setPsq f).island = s.island := rfl
@[simp] theorem Dev.setPsq_rings (f : Psq → Psq) : (s.setPsq f).rings = s.rings := rfl
@[simp] theorem Dev.setPsq_rq (f : Psq → Psq) : (s.setPsq f).rq = s.rq := rfl
@[simp] theorem Dev.setPsq_takes (f : Psq → Psq) : (s.setPsq f).takes = s.takes := rfl
@[simp] theorem Dev.setPsq_revokes (f : Psq → Psq) : (s.setPsq f).revokes = s.revokes := rfl
@[simp] theorem Dev.setPsq_destroys (f : Psq → Psq) : (s.setPsq f).destroys = s.destroys := rfl
@[simp] theorem Dev.setPsq_copies (f : Psq → Psq) : (s.setPsq f).copies = s.copies := rfl
@[simp] theorem Dev.setPsq_hints (f : Psq → Psq) : (s.setPsq f).hints = s.hints := rfl
@[simp] theorem Dev.setPsq_refRecv (f : Psq → Psq) : (s.setPsq f).refRecv = s.refRecv := rfl
@[simp] theorem Dev.setPsq_skeins (f : Psq → Psq) : (s.setPsq f).skeins = s.skeins := rfl
@[simp] theorem Dev.setPsq_row (f : Psq → Psq) : (s.setPsq f).row = s.row := rfl
@[simp] theorem Dev.setPsq_fco (f : Psq → Psq) : (s.setPsq f).fco = s.fco := rfl
@[simp] theorem Dev.setPsq_psq (f : Psq → Psq) : (s.setPsq f).psq = f s.psq := rfl
@[simp] theorem Dev.setPsq_cks (f : Psq → Psq) : (s.setPsq f).cks = s.cks := rfl
@[simp] theorem Dev.setPsq_cal (f : Psq → Psq) : (s.setPsq f).cal = s.cal := rfl
@[simp] theorem Dev.setPsq_out (f : Psq → Psq) : (s.setPsq f).out = s.out := rfl

/-! `setLd` -/

@[simp] theorem Dev.setLd_clock (g : Nat) (l : Ld) : (s.setLd g l).clock = s.clock := rfl
@[simp] theorem Dev.setLd_fresh (g : Nat) (l : Ld) : (s.setLd g l).fresh = s.fresh := rfl
@[simp] theorem Dev.setLd_uses (g : Nat) (l : Ld) : (s.setLd g l).uses = s.uses := rfl
@[simp] theorem Dev.setLd_regs (g : Nat) (l : Ld) : (s.setLd g l).regs = s.regs := rfl
@[simp] theorem Dev.setLd_lc (g : Nat) (l : Ld) : (s.setLd g l).lc = s.lc := rfl
@[simp] theorem Dev.setLd_frames (g : Nat) (l : Ld) : (s.setLd g l).frames = s.frames := rfl
@[simp] theorem Dev.setLd_errors (g : Nat) (l : Ld) : (s.setLd g l).errors = s.errors := rfl
@[simp] theorem Dev.setLd_fm (g : Nat) (l : Ld) : (s.setLd g l).fm = s.fm := rfl
@[simp] theorem Dev.setLd_rm (g : Nat) (l : Ld) : (s.setLd g l).rm = s.rm := rfl
@[simp] theorem Dev.setLd_lbm (g : Nat) (l : Ld) : (s.setLd g l).lbm = s.lbm := rfl
@[simp] theorem Dev.setLd_staged (g : Nat) (l : Ld) : (s.setLd g l).staged = s.staged := rfl
@[simp] theorem Dev.setLd_dirty (g : Nat) (l : Ld) : (s.setLd g l).dirty = s.dirty := rfl
@[simp] theorem Dev.setLd_destages (g : Nat) (l : Ld) : (s.setLd g l).destages = s.destages := rfl
@[simp] theorem Dev.setLd_fills (g : Nat) (l : Ld) : (s.setLd g l).fills = s.fills := rfl
@[simp] theorem Dev.setLd_held (g : Nat) (l : Ld) : (s.setLd g l).held = s.held := rfl
@[simp] theorem Dev.setLd_rteWait (g : Nat) (l : Ld) : (s.setLd g l).rteWait = s.rteWait := rfl
@[simp] theorem Dev.setLd_linkWait (g : Nat) (l : Ld) : (s.setLd g l).linkWait = s.linkWait := rfl
@[simp] theorem Dev.setLd_reads (g : Nat) (l : Ld) : (s.setLd g l).reads = s.reads := rfl
@[simp] theorem Dev.setLd_poison (g : Nat) (l : Ld) : (s.setLd g l).poison = s.poison := rfl
@[simp] theorem Dev.setLd_flips (g : Nat) (l : Ld) : (s.setLd g l).flips = s.flips := rfl
@[simp] theorem Dev.setLd_mdc (g : Nat) (l : Ld) : (s.setLd g l).mdc = s.mdc := rfl
@[simp] theorem Dev.setLd_fmc (g : Nat) (l : Ld) : (s.setLd g l).fmc = s.fmc := rfl
@[simp] theorem Dev.setLd_mapLost (g : Nat) (l : Ld) : (s.setLd g l).mapLost = s.mapLost := rfl
@[simp] theorem Dev.setLd_channels (g : Nat) (l : Ld) : (s.setLd g l).channels = s.channels := rfl
@[simp] theorem Dev.setLd_regions (g : Nat) (l : Ld) : (s.setLd g l).regions = s.regions := rfl
@[simp] theorem Dev.setLd_gens (g : Nat) (l : Ld) : (s.setLd g l).gens = s.gens := rfl
@[simp] theorem Dev.setLd_quotas (g : Nat) (l : Ld) : (s.setLd g l).quotas = s.quotas := rfl
@[simp] theorem Dev.setLd_sweeps (g : Nat) (l : Ld) : (s.setLd g l).sweeps = s.sweeps := rfl
@[simp] theorem Dev.setLd_media (g : Nat) (l : Ld) : (s.setLd g l).media = s.media := rfl
@[simp] theorem Dev.setLd_drives (g : Nat) (l : Ld) : (s.setLd g l).drives = s.drives := rfl
@[simp] theorem Dev.setLd_image (g : Nat) (l : Ld) : (s.setLd g l).image = s.image := rfl
@[simp] theorem Dev.setLd_imageMask (g : Nat) (l : Ld) : (s.setLd g l).imageMask = s.imageMask := rfl
@[simp] theorem Dev.setLd_lostMaps (g : Nat) (l : Ld) : (s.setLd g l).lostMaps = s.lostMaps := rfl
@[simp] theorem Dev.setLd_rebuild (g : Nat) (l : Ld) : (s.setLd g l).rebuild = s.rebuild := rfl
@[simp] theorem Dev.setLd_regionLog (g : Nat) (l : Ld) : (s.setLd g l).regionLog = s.regionLog := rfl
@[simp] theorem Dev.setLd_logWait (g : Nat) (l : Ld) : (s.setLd g l).logWait = s.logWait := rfl
@[simp] theorem Dev.setLd_lds (g : Nat) (l : Ld) : (s.setLd g l).lds = s.lds.putD g l {} := rfl
@[simp] theorem Dev.setLd_does (g : Nat) (l : Ld) : (s.setLd g l).does = s.does := rfl
@[simp] theorem Dev.setLd_heads (g : Nat) (l : Ld) : (s.setLd g l).heads = s.heads := rfl
@[simp] theorem Dev.setLd_mgmt (g : Nat) (l : Ld) : (s.setLd g l).mgmt = s.mgmt := rfl
@[simp] theorem Dev.setLd_loadLow (g : Nat) (l : Ld) : (s.setLd g l).loadLow = s.loadLow := rfl
@[simp] theorem Dev.setLd_loadHigh (g : Nat) (l : Ld) : (s.setLd g l).loadHigh = s.loadHigh := rfl
@[simp] theorem Dev.setLd_allowance (g : Nat) (l : Ld) : (s.setLd g l).allowance = s.allowance := rfl
@[simp] theorem Dev.setLd_wabSince (g : Nat) (l : Ld) : (s.setLd g l).wabSince = s.wabSince := rfl
@[simp] theorem Dev.setLd_learns (g : Nat) (l : Ld) : (s.setLd g l).learns = s.learns := rfl
@[simp] theorem Dev.setLd_allocWait (g : Nat) (l : Ld) : (s.setLd g l).allocWait = s.allocWait := rfl
@[simp] theorem Dev.setLd_waits (g : Nat) (l : Ld) : (s.setLd g l).waits = s.waits := rfl
@[simp] theorem Dev.setLd_fmsDone (g : Nat) (l : Ld) : (s.setLd g l).fmsDone = s.fmsDone := rfl
@[simp] theorem Dev.setLd_rnt (g : Nat) (l : Ld) : (s.setLd g l).rnt = s.rnt := rfl
@[simp] theorem Dev.setLd_engines (g : Nat) (l : Ld) : (s.setLd g l).engines = s.engines := rfl
@[simp] theorem Dev.setLd_stiPass (g : Nat) (l : Ld) : (s.setLd g l).stiPass = s.stiPass := rfl
@[simp] theorem Dev.setLd_assocs (g : Nat) (l : Ld) : (s.setLd g l).assocs = s.assocs := rfl
@[simp] theorem Dev.setLd_paused (g : Nat) (l : Ld) : (s.setLd g l).paused = s.paused := rfl
@[simp] theorem Dev.setLd_txHeld (g : Nat) (l : Ld) : (s.setLd g l).txHeld = s.txHeld := rfl
@[simp] theorem Dev.setLd_mirror (g : Nat) (l : Ld) : (s.setLd g l).mirror = s.mirror := rfl
@[simp] theorem Dev.setLd_refPairs (g : Nat) (l : Ld) : (s.setLd g l).refPairs = s.refPairs := rfl
@[simp] theorem Dev.setLd_refLog (g : Nat) (l : Ld) : (s.setLd g l).refLog = s.refLog := rfl
@[simp] theorem Dev.setLd_round (g : Nat) (l : Ld) : (s.setLd g l).round = s.round := rfl
@[simp] theorem Dev.setLd_island (g : Nat) (l : Ld) : (s.setLd g l).island = s.island := rfl
@[simp] theorem Dev.setLd_rings (g : Nat) (l : Ld) : (s.setLd g l).rings = s.rings := rfl
@[simp] theorem Dev.setLd_rq (g : Nat) (l : Ld) : (s.setLd g l).rq = s.rq := rfl
@[simp] theorem Dev.setLd_takes (g : Nat) (l : Ld) : (s.setLd g l).takes = s.takes := rfl
@[simp] theorem Dev.setLd_revokes (g : Nat) (l : Ld) : (s.setLd g l).revokes = s.revokes := rfl
@[simp] theorem Dev.setLd_destroys (g : Nat) (l : Ld) : (s.setLd g l).destroys = s.destroys := rfl
@[simp] theorem Dev.setLd_copies (g : Nat) (l : Ld) : (s.setLd g l).copies = s.copies := rfl
@[simp] theorem Dev.setLd_hints (g : Nat) (l : Ld) : (s.setLd g l).hints = s.hints := rfl
@[simp] theorem Dev.setLd_refRecv (g : Nat) (l : Ld) : (s.setLd g l).refRecv = s.refRecv := rfl
@[simp] theorem Dev.setLd_skeins (g : Nat) (l : Ld) : (s.setLd g l).skeins = s.skeins := rfl
@[simp] theorem Dev.setLd_row (g : Nat) (l : Ld) : (s.setLd g l).row = s.row := rfl
@[simp] theorem Dev.setLd_fco (g : Nat) (l : Ld) : (s.setLd g l).fco = s.fco := rfl
@[simp] theorem Dev.setLd_psq (g : Nat) (l : Ld) : (s.setLd g l).psq = s.psq := rfl
@[simp] theorem Dev.setLd_cks (g : Nat) (l : Ld) : (s.setLd g l).cks = s.cks := rfl
@[simp] theorem Dev.setLd_cal (g : Nat) (l : Ld) : (s.setLd g l).cal = s.cal := rfl
@[simp] theorem Dev.setLd_out (g : Nat) (l : Ld) : (s.setLd g l).out = s.out := rfl

/-! `setChannel` -/

@[simp] theorem Dev.setChannel_clock (n : Nat) (c : Channel) : (s.setChannel n c).clock = s.clock := rfl
@[simp] theorem Dev.setChannel_fresh (n : Nat) (c : Channel) : (s.setChannel n c).fresh = s.fresh := rfl
@[simp] theorem Dev.setChannel_uses (n : Nat) (c : Channel) : (s.setChannel n c).uses = s.uses := rfl
@[simp] theorem Dev.setChannel_regs (n : Nat) (c : Channel) : (s.setChannel n c).regs = s.regs := rfl
@[simp] theorem Dev.setChannel_lc (n : Nat) (c : Channel) : (s.setChannel n c).lc = s.lc := rfl
@[simp] theorem Dev.setChannel_frames (n : Nat) (c : Channel) : (s.setChannel n c).frames = s.frames := rfl
@[simp] theorem Dev.setChannel_errors (n : Nat) (c : Channel) : (s.setChannel n c).errors = s.errors := rfl
@[simp] theorem Dev.setChannel_fm (n : Nat) (c : Channel) : (s.setChannel n c).fm = s.fm := rfl
@[simp] theorem Dev.setChannel_rm (n : Nat) (c : Channel) : (s.setChannel n c).rm = s.rm := rfl
@[simp] theorem Dev.setChannel_lbm (n : Nat) (c : Channel) : (s.setChannel n c).lbm = s.lbm := rfl
@[simp] theorem Dev.setChannel_staged (n : Nat) (c : Channel) : (s.setChannel n c).staged = s.staged := rfl
@[simp] theorem Dev.setChannel_dirty (n : Nat) (c : Channel) : (s.setChannel n c).dirty = s.dirty := rfl
@[simp] theorem Dev.setChannel_destages (n : Nat) (c : Channel) : (s.setChannel n c).destages = s.destages := rfl
@[simp] theorem Dev.setChannel_fills (n : Nat) (c : Channel) : (s.setChannel n c).fills = s.fills := rfl
@[simp] theorem Dev.setChannel_held (n : Nat) (c : Channel) : (s.setChannel n c).held = s.held := rfl
@[simp] theorem Dev.setChannel_rteWait (n : Nat) (c : Channel) : (s.setChannel n c).rteWait = s.rteWait := rfl
@[simp] theorem Dev.setChannel_linkWait (n : Nat) (c : Channel) : (s.setChannel n c).linkWait = s.linkWait := rfl
@[simp] theorem Dev.setChannel_reads (n : Nat) (c : Channel) : (s.setChannel n c).reads = s.reads := rfl
@[simp] theorem Dev.setChannel_poison (n : Nat) (c : Channel) : (s.setChannel n c).poison = s.poison := rfl
@[simp] theorem Dev.setChannel_flips (n : Nat) (c : Channel) : (s.setChannel n c).flips = s.flips := rfl
@[simp] theorem Dev.setChannel_mdc (n : Nat) (c : Channel) : (s.setChannel n c).mdc = s.mdc := rfl
@[simp] theorem Dev.setChannel_fmc (n : Nat) (c : Channel) : (s.setChannel n c).fmc = s.fmc := rfl
@[simp] theorem Dev.setChannel_mapLost (n : Nat) (c : Channel) : (s.setChannel n c).mapLost = s.mapLost := rfl
@[simp] theorem Dev.setChannel_channels (n : Nat) (c : Channel) : (s.setChannel n c).channels = s.channels.putD n c {} := rfl
@[simp] theorem Dev.setChannel_regions (n : Nat) (c : Channel) : (s.setChannel n c).regions = s.regions := rfl
@[simp] theorem Dev.setChannel_gens (n : Nat) (c : Channel) : (s.setChannel n c).gens = s.gens := rfl
@[simp] theorem Dev.setChannel_quotas (n : Nat) (c : Channel) : (s.setChannel n c).quotas = s.quotas := rfl
@[simp] theorem Dev.setChannel_sweeps (n : Nat) (c : Channel) : (s.setChannel n c).sweeps = s.sweeps := rfl
@[simp] theorem Dev.setChannel_media (n : Nat) (c : Channel) : (s.setChannel n c).media = s.media := rfl
@[simp] theorem Dev.setChannel_drives (n : Nat) (c : Channel) : (s.setChannel n c).drives = s.drives := rfl
@[simp] theorem Dev.setChannel_image (n : Nat) (c : Channel) : (s.setChannel n c).image = s.image := rfl
@[simp] theorem Dev.setChannel_imageMask (n : Nat) (c : Channel) : (s.setChannel n c).imageMask = s.imageMask := rfl
@[simp] theorem Dev.setChannel_lostMaps (n : Nat) (c : Channel) : (s.setChannel n c).lostMaps = s.lostMaps := rfl
@[simp] theorem Dev.setChannel_rebuild (n : Nat) (c : Channel) : (s.setChannel n c).rebuild = s.rebuild := rfl
@[simp] theorem Dev.setChannel_regionLog (n : Nat) (c : Channel) : (s.setChannel n c).regionLog = s.regionLog := rfl
@[simp] theorem Dev.setChannel_logWait (n : Nat) (c : Channel) : (s.setChannel n c).logWait = s.logWait := rfl
@[simp] theorem Dev.setChannel_lds (n : Nat) (c : Channel) : (s.setChannel n c).lds = s.lds := rfl
@[simp] theorem Dev.setChannel_does (n : Nat) (c : Channel) : (s.setChannel n c).does = s.does := rfl
@[simp] theorem Dev.setChannel_heads (n : Nat) (c : Channel) : (s.setChannel n c).heads = s.heads := rfl
@[simp] theorem Dev.setChannel_mgmt (n : Nat) (c : Channel) : (s.setChannel n c).mgmt = s.mgmt := rfl
@[simp] theorem Dev.setChannel_loadLow (n : Nat) (c : Channel) : (s.setChannel n c).loadLow = s.loadLow := rfl
@[simp] theorem Dev.setChannel_loadHigh (n : Nat) (c : Channel) : (s.setChannel n c).loadHigh = s.loadHigh := rfl
@[simp] theorem Dev.setChannel_allowance (n : Nat) (c : Channel) : (s.setChannel n c).allowance = s.allowance := rfl
@[simp] theorem Dev.setChannel_wabSince (n : Nat) (c : Channel) : (s.setChannel n c).wabSince = s.wabSince := rfl
@[simp] theorem Dev.setChannel_learns (n : Nat) (c : Channel) : (s.setChannel n c).learns = s.learns := rfl
@[simp] theorem Dev.setChannel_allocWait (n : Nat) (c : Channel) : (s.setChannel n c).allocWait = s.allocWait := rfl
@[simp] theorem Dev.setChannel_waits (n : Nat) (c : Channel) : (s.setChannel n c).waits = s.waits := rfl
@[simp] theorem Dev.setChannel_fmsDone (n : Nat) (c : Channel) : (s.setChannel n c).fmsDone = s.fmsDone := rfl
@[simp] theorem Dev.setChannel_rnt (n : Nat) (c : Channel) : (s.setChannel n c).rnt = s.rnt := rfl
@[simp] theorem Dev.setChannel_engines (n : Nat) (c : Channel) : (s.setChannel n c).engines = s.engines := rfl
@[simp] theorem Dev.setChannel_stiPass (n : Nat) (c : Channel) : (s.setChannel n c).stiPass = s.stiPass := rfl
@[simp] theorem Dev.setChannel_assocs (n : Nat) (c : Channel) : (s.setChannel n c).assocs = s.assocs := rfl
@[simp] theorem Dev.setChannel_paused (n : Nat) (c : Channel) : (s.setChannel n c).paused = s.paused := rfl
@[simp] theorem Dev.setChannel_txHeld (n : Nat) (c : Channel) : (s.setChannel n c).txHeld = s.txHeld := rfl
@[simp] theorem Dev.setChannel_mirror (n : Nat) (c : Channel) : (s.setChannel n c).mirror = s.mirror := rfl
@[simp] theorem Dev.setChannel_refPairs (n : Nat) (c : Channel) : (s.setChannel n c).refPairs = s.refPairs := rfl
@[simp] theorem Dev.setChannel_refLog (n : Nat) (c : Channel) : (s.setChannel n c).refLog = s.refLog := rfl
@[simp] theorem Dev.setChannel_round (n : Nat) (c : Channel) : (s.setChannel n c).round = s.round := rfl
@[simp] theorem Dev.setChannel_island (n : Nat) (c : Channel) : (s.setChannel n c).island = s.island := rfl
@[simp] theorem Dev.setChannel_rings (n : Nat) (c : Channel) : (s.setChannel n c).rings = s.rings := rfl
@[simp] theorem Dev.setChannel_rq (n : Nat) (c : Channel) : (s.setChannel n c).rq = s.rq := rfl
@[simp] theorem Dev.setChannel_takes (n : Nat) (c : Channel) : (s.setChannel n c).takes = s.takes := rfl
@[simp] theorem Dev.setChannel_revokes (n : Nat) (c : Channel) : (s.setChannel n c).revokes = s.revokes := rfl
@[simp] theorem Dev.setChannel_destroys (n : Nat) (c : Channel) : (s.setChannel n c).destroys = s.destroys := rfl
@[simp] theorem Dev.setChannel_copies (n : Nat) (c : Channel) : (s.setChannel n c).copies = s.copies := rfl
@[simp] theorem Dev.setChannel_hints (n : Nat) (c : Channel) : (s.setChannel n c).hints = s.hints := rfl
@[simp] theorem Dev.setChannel_refRecv (n : Nat) (c : Channel) : (s.setChannel n c).refRecv = s.refRecv := rfl
@[simp] theorem Dev.setChannel_skeins (n : Nat) (c : Channel) : (s.setChannel n c).skeins = s.skeins := rfl
@[simp] theorem Dev.setChannel_row (n : Nat) (c : Channel) : (s.setChannel n c).row = s.row := rfl
@[simp] theorem Dev.setChannel_fco (n : Nat) (c : Channel) : (s.setChannel n c).fco = s.fco := rfl
@[simp] theorem Dev.setChannel_psq (n : Nat) (c : Channel) : (s.setChannel n c).psq = s.psq := rfl
@[simp] theorem Dev.setChannel_cks (n : Nat) (c : Channel) : (s.setChannel n c).cks = s.cks := rfl
@[simp] theorem Dev.setChannel_cal (n : Nat) (c : Channel) : (s.setChannel n c).cal = s.cal := rfl
@[simp] theorem Dev.setChannel_out (n : Nat) (c : Channel) : (s.setChannel n c).out = s.out := rfl

/-! `did`: an effect on the device, and `offer`: a command put in front -/

@[simp] theorem State.did_clock (d : Dev) : (m.did d).dev.clock = d.clock := rfl
@[simp] theorem State.did_fresh (d : Dev) : (m.did d).dev.fresh = d.fresh := rfl
@[simp] theorem State.did_uses (d : Dev) : (m.did d).dev.uses = d.uses := rfl
@[simp] theorem State.did_regs (d : Dev) : (m.did d).dev.regs = d.regs := rfl
@[simp] theorem State.did_lc (d : Dev) : (m.did d).dev.lc = d.lc := rfl
@[simp] theorem State.did_frames (d : Dev) : (m.did d).dev.frames = d.frames := rfl
@[simp] theorem State.did_errors (d : Dev) : (m.did d).dev.errors = d.errors := rfl
@[simp] theorem State.did_fm (d : Dev) : (m.did d).dev.fm = d.fm := rfl
@[simp] theorem State.did_rm (d : Dev) : (m.did d).dev.rm = d.rm := rfl
@[simp] theorem State.did_lbm (d : Dev) : (m.did d).dev.lbm = d.lbm := rfl
@[simp] theorem State.did_staged (d : Dev) : (m.did d).dev.staged = d.staged := rfl
@[simp] theorem State.did_dirty (d : Dev) : (m.did d).dev.dirty = d.dirty := rfl
@[simp] theorem State.did_destages (d : Dev) : (m.did d).dev.destages = d.destages := rfl
@[simp] theorem State.did_fills (d : Dev) : (m.did d).dev.fills = d.fills := rfl
@[simp] theorem State.did_held (d : Dev) : (m.did d).dev.held = d.held := rfl
@[simp] theorem State.did_rteWait (d : Dev) : (m.did d).dev.rteWait = d.rteWait := rfl
@[simp] theorem State.did_linkWait (d : Dev) : (m.did d).dev.linkWait = d.linkWait := rfl
@[simp] theorem State.did_reads (d : Dev) : (m.did d).dev.reads = d.reads := rfl
@[simp] theorem State.did_poison (d : Dev) : (m.did d).dev.poison = d.poison := rfl
@[simp] theorem State.did_flips (d : Dev) : (m.did d).dev.flips = d.flips := rfl
@[simp] theorem State.did_mdc (d : Dev) : (m.did d).dev.mdc = d.mdc := rfl
@[simp] theorem State.did_fmc (d : Dev) : (m.did d).dev.fmc = d.fmc := rfl
@[simp] theorem State.did_mapLost (d : Dev) : (m.did d).dev.mapLost = d.mapLost := rfl
@[simp] theorem State.did_channels (d : Dev) : (m.did d).dev.channels = d.channels := rfl
@[simp] theorem State.did_regions (d : Dev) : (m.did d).dev.regions = d.regions := rfl
@[simp] theorem State.did_gens (d : Dev) : (m.did d).dev.gens = d.gens := rfl
@[simp] theorem State.did_quotas (d : Dev) : (m.did d).dev.quotas = d.quotas := rfl
@[simp] theorem State.did_sweeps (d : Dev) : (m.did d).dev.sweeps = d.sweeps := rfl
@[simp] theorem State.did_media (d : Dev) : (m.did d).dev.media = d.media := rfl
@[simp] theorem State.did_drives (d : Dev) : (m.did d).dev.drives = d.drives := rfl
@[simp] theorem State.did_image (d : Dev) : (m.did d).dev.image = d.image := rfl
@[simp] theorem State.did_imageMask (d : Dev) : (m.did d).dev.imageMask = d.imageMask := rfl
@[simp] theorem State.did_lostMaps (d : Dev) : (m.did d).dev.lostMaps = d.lostMaps := rfl
@[simp] theorem State.did_rebuild (d : Dev) : (m.did d).dev.rebuild = d.rebuild := rfl
@[simp] theorem State.did_regionLog (d : Dev) : (m.did d).dev.regionLog = d.regionLog := rfl
@[simp] theorem State.did_logWait (d : Dev) : (m.did d).dev.logWait = d.logWait := rfl
@[simp] theorem State.did_lds (d : Dev) : (m.did d).dev.lds = d.lds := rfl
@[simp] theorem State.did_does (d : Dev) : (m.did d).dev.does = d.does := rfl
@[simp] theorem State.did_heads (d : Dev) : (m.did d).dev.heads = d.heads := rfl
@[simp] theorem State.did_mgmt (d : Dev) : (m.did d).dev.mgmt = d.mgmt := rfl
@[simp] theorem State.did_loadLow (d : Dev) : (m.did d).dev.loadLow = d.loadLow := rfl
@[simp] theorem State.did_loadHigh (d : Dev) : (m.did d).dev.loadHigh = d.loadHigh := rfl
@[simp] theorem State.did_allowance (d : Dev) : (m.did d).dev.allowance = d.allowance := rfl
@[simp] theorem State.did_wabSince (d : Dev) : (m.did d).dev.wabSince = d.wabSince := rfl
@[simp] theorem State.did_learns (d : Dev) : (m.did d).dev.learns = d.learns := rfl
@[simp] theorem State.did_allocWait (d : Dev) : (m.did d).dev.allocWait = d.allocWait := rfl
@[simp] theorem State.did_waits (d : Dev) : (m.did d).dev.waits = d.waits := rfl
@[simp] theorem State.did_fmsDone (d : Dev) : (m.did d).dev.fmsDone = d.fmsDone := rfl
@[simp] theorem State.did_rnt (d : Dev) : (m.did d).dev.rnt = d.rnt := rfl
@[simp] theorem State.did_engines (d : Dev) : (m.did d).dev.engines = d.engines := rfl
@[simp] theorem State.did_stiPass (d : Dev) : (m.did d).dev.stiPass = d.stiPass := rfl
@[simp] theorem State.did_assocs (d : Dev) : (m.did d).dev.assocs = d.assocs := rfl
@[simp] theorem State.did_paused (d : Dev) : (m.did d).dev.paused = d.paused := rfl
@[simp] theorem State.did_txHeld (d : Dev) : (m.did d).dev.txHeld = d.txHeld := rfl
@[simp] theorem State.did_mirror (d : Dev) : (m.did d).dev.mirror = d.mirror := rfl
@[simp] theorem State.did_refPairs (d : Dev) : (m.did d).dev.refPairs = d.refPairs := rfl
@[simp] theorem State.did_refLog (d : Dev) : (m.did d).dev.refLog = d.refLog := rfl
@[simp] theorem State.did_round (d : Dev) : (m.did d).dev.round = d.round := rfl
@[simp] theorem State.did_island (d : Dev) : (m.did d).dev.island = d.island := rfl
@[simp] theorem State.did_rings (d : Dev) : (m.did d).dev.rings = d.rings := rfl
@[simp] theorem State.did_rq (d : Dev) : (m.did d).dev.rq = d.rq := rfl
@[simp] theorem State.did_takes (d : Dev) : (m.did d).dev.takes = d.takes := rfl
@[simp] theorem State.did_revokes (d : Dev) : (m.did d).dev.revokes = d.revokes := rfl
@[simp] theorem State.did_destroys (d : Dev) : (m.did d).dev.destroys = d.destroys := rfl
@[simp] theorem State.did_copies (d : Dev) : (m.did d).dev.copies = d.copies := rfl
@[simp] theorem State.did_hints (d : Dev) : (m.did d).dev.hints = d.hints := rfl
@[simp] theorem State.did_refRecv (d : Dev) : (m.did d).dev.refRecv = d.refRecv := rfl
@[simp] theorem State.did_skeins (d : Dev) : (m.did d).dev.skeins = d.skeins := rfl
@[simp] theorem State.did_row (d : Dev) : (m.did d).dev.row = d.row := rfl
@[simp] theorem State.did_fco (d : Dev) : (m.did d).dev.fco = d.fco := rfl
@[simp] theorem State.did_psq (d : Dev) : (m.did d).dev.psq = d.psq := rfl
@[simp] theorem State.did_cks (d : Dev) : (m.did d).dev.cks = d.cks := rfl
@[simp] theorem State.did_cal (d : Dev) : (m.did d).dev.cal = d.cal := rfl
@[simp] theorem State.did_out (d : Dev) : (m.did d).dev.out = [] := rfl
@[simp] theorem State.did_fuses (d : Dev) : (m.did d).fuses = m.fuses := rfl
@[simp] theorem State.did_sent (d : Dev) : (m.did d).sent = d.out ++ m.sent := rfl
@[simp] theorem State.did_pending (d : Dev) : (m.did d).pending = m.pending := rfl
@[simp] theorem State.offer_dev (c : Instr) : (m.offer c).dev = m.dev := rfl
@[simp] theorem State.offer_fuses (c : Instr) : (m.offer c).fuses = m.fuses := rfl
@[simp] theorem State.offer_sent (c : Instr) : (m.offer c).sent = m.sent := rfl
@[simp] theorem State.offer_pending (c : Instr) : (m.offer c).pending = c :: m.pending := rfl

end Sys2Proof.Machine
end

