-- ==== Sys2Proof/Laws/Effects.lean ====
section
/-! SUPPORT. What a command can do, said once: an effect on the device and on the fuses, whatever waits and whatever has been sent;
and what a step can do. -/

namespace Sys2Proof.Machine

/-- The command is an effect `f` on the device and an effect `g` on the fuses, whatever waits and whatever has been sent; the fuses
change only in VDD_FUSE_REQUEST with the rail good while a COMMIT has asked for it. -/
def HasEffect (c : Instr) : Prop := ∃ (f : Fuses → Dev → Dev) (g : Fuses → Dev → Fuses),
  (∀ s : State, exec c s = .next (({ s with fuses := g s.fuses s.dev } : State).did (f s.fuses s.dev))) ∧
  ∀ fu d, g fu d = fu ∨ c = .vddFuseRequest true ∧ d.psq.fuse = true ∧ g fu d = fu.advance d.island.running

theorem HasEffect.of_on {c : Instr} {f : Dev → Dev} (h : ∀ s, exec c s = s.on f) : HasEffect c :=
  ⟨fun _ => f, fun fu _ => fu, h, fun _ _ => .inl rfl⟩

theorem HasEffect.of_onF {c : Instr} {f : Fuses → Dev → Dev} (h : ∀ s, exec c s = s.onF f) : HasEffect c :=
  ⟨f, fun fu _ => fu, h, fun _ _ => .inl rfl⟩

theorem vddFuseRequest_effect (good : Bool) : HasEffect (.vddFuseRequest good) := by
  refine ⟨fun fu d => if d.psq.fuse then d.fuseDone good ((if good then fu.advance d.island.running else fu) != fu)
      else if fu.lifecycle = 0 then d.fuseDone good false else d,
    fun fu d => if d.psq.fuse ∧ good then fu.advance d.island.running else fu, fun s => ?_, fun fu d => ?_⟩
  · show execVddFuseRequest good s = _
    unfold execVddFuseRequest
    by_cases h : s.dev.psq.fuse = true
    · cases good <;> simp [h, State.on]
    · by_cases k : s.fuses.lifecycle = 0 <;> simp [h, k, State.on]
  · cases good
    · simp
    · by_cases h : d.psq.fuse = true <;> simp [h]

theorem exec_effect (c : Instr) : HasEffect c := by
  cases c
  case hostRead => exact .of_on fun s => by dsimp only [exec, execHostRead]
  case hostWrite => exact .of_on fun s => by dsimp only [exec, execHostWrite]
  case admissionHoldRelease => exact .of_on fun s => by dsimp only [exec, execAdmissionHoldRelease]
  case dramReadComplete => exact .of_on fun s => by dsimp only [exec, execDramReadComplete]
  case katComplete => exact .of_on fun s => by dsimp only [exec, execKatComplete]
  case flashReadComplete => exact .of_on fun s => by dsimp only [exec, execFlashReadComplete]
  case fillComplete => exact .of_on fun s => by dsimp only [exec, execFillComplete]
  case lcEvictionWriteback => exact .of_on fun s => by dsimp only [exec, execLcEvictionWriteback]
  case globalPersistentFlush => exact .of_on fun s => by dsimp only [exec, execGlobalPersistentFlush]
  case headReset => exact .of_on fun s => by dsimp only [exec, execHeadReset]
  case headLinkUp => exact .of_on fun s => by dsimp only [exec, execHeadLinkUp]
  case headLinkDown => exact .of_on fun s => by dsimp only [exec, execHeadLinkDown]
  case portEnableWrite => exact .of_on fun s => by dsimp only [exec, execPortEnableWrite]
  case hdmDecoderCommit => exact .of_on fun s => by dsimp only [exec, execHdmDecoderCommit]
  case ideIntegrityFailure => exact .of_on fun s => by dsimp only [exec, execIdeIntegrityFailure]
  case ideKmKeyProg => exact .of_on fun s => by dsimp only [exec, execIdeKmKeyProg]
  case kSetGo => exact .of_on fun s => by dsimp only [exec, execKSetGo]
  case doeAbort => exact .of_on fun s => by dsimp only [exec, execDoeAbort]
  case identifyMemoryDevice => exact .of_on fun s => by dsimp only [exec, execIdentifyMemoryDevice]
  case getPartitionInfo => exact .of_on fun s => by dsimp only [exec, execGetPartitionInfo]
  case getEventRecords => exact .of_on fun s => by dsimp only [exec, execGetEventRecords]
  case clearEventRecords => exact .of_on fun s => by dsimp only [exec, execClearEventRecords]
  case getEventInterruptPolicy => exact .of_on fun s => by dsimp only [exec, execGetEventInterruptPolicy]
  case setEventInterruptPolicy => exact .of_on fun s => by dsimp only [exec, execSetEventInterruptPolicy]
  case getSupportedLogs => exact .of_on fun s => by dsimp only [exec, execGetSupportedLogs]
  case getLog => exact .of_on fun s => by dsimp only [exec, execGetLog]
  case getHealthInfo => exact .of_on fun s => by dsimp only [exec, execGetHealthInfo]
  case getShutdownState => exact .of_on fun s => by dsimp only [exec, execGetShutdownState]
  case setShutdownState => exact .of_on fun s => by dsimp only [exec, execSetShutdownState]
  case getPoisonList => exact .of_on fun s => by dsimp only [exec, execGetPoisonList]
  case injectPoison => exact .of_on fun s => by dsimp only [exec, execInjectPoison]
  case clearPoison => exact .of_on fun s => by dsimp only [exec, execClearPoison]
  case getDcConfiguration => exact .of_on fun s => by dsimp only [exec, execGetDcConfiguration]
  case getDcExtentList => exact .of_on fun s => by dsimp only [exec, execGetDcExtentList]
  case addDcResponse => exact .of_on fun s => by dsimp only [exec, execAddDcResponse]
  case releaseDc => exact .of_on fun s => by dsimp only [exec, execReleaseDc]
  case getTimestamp => exact .of_on fun s => by dsimp only [exec, execGetTimestamp]
  case mailboxUnsupported => exact .of_on fun s => by dsimp only [exec, execMailboxUnsupported]
  case fmIdentify => exact .of_on fun s => by dsimp only [exec, execFmIdentify]
  case getMultiHeadedInfo => exact .of_on fun s => by dsimp only [exec, execGetMultiHeadedInfo]
  case getHeadInfo => exact .of_on fun s => by dsimp only [exec, execGetHeadInfo]
  case getLdInfo => exact .of_on fun s => by dsimp only [exec, execGetLdInfo]
  case getLdAllocations => exact .of_on fun s => by dsimp only [exec, execGetLdAllocations]
  case setLdAllocations => exact .of_on fun s => by dsimp only [exec, execSetLdAllocations]
  case getQosControl => exact .of_on fun s => by dsimp only [exec, execGetQosControl]
  case setQosControl => exact .of_on fun s => by dsimp only [exec, execSetQosControl]
  case getQosStatus => exact .of_on fun s => by dsimp only [exec, execGetQosStatus]
  case getQosAllocatedBw => exact .of_on fun s => by dsimp only [exec, execGetQosAllocatedBw]
  case setQosAllocatedBw => exact .of_on fun s => by dsimp only [exec, execSetQosAllocatedBw]
  case getQosBwLimit => exact .of_on fun s => by dsimp only [exec, execGetQosBwLimit]
  case setQosBwLimit => exact .of_on fun s => by dsimp only [exec, execSetQosBwLimit]
  case getDcdInfo => exact .of_on fun s => by dsimp only [exec, execGetDcdInfo]
  case getHostDcRegionConfiguration => exact .of_on fun s => by dsimp only [exec, execGetHostDcRegionConfiguration]
  case setDcRegionConfiguration => exact .of_on fun s => by dsimp only [exec, execSetDcRegionConfiguration]
  case getDcRegionExtentLists => exact .of_on fun s => by dsimp only [exec, execGetDcRegionExtentLists]
  case initiateDynamicCapacityAdd => exact .of_on fun s => by dsimp only [exec, execInitiateDynamicCapacityAdd]
  case initiateDynamicCapacityRelease => exact .of_on fun s => by dsimp only [exec, execInitiateDynamicCapacityRelease]
  case tunnelManagementCommand => exact .of_on fun s => by dsimp only [exec, execTunnelManagementCommand]
  case fmApiUnsupported => exact .of_on fun s => by dsimp only [exec, execFmApiUnsupported]
  case dcdOfferTimeout => exact .of_on fun s => by dsimp only [exec, execDcdOfferTimeout]
  case dcdReleaseTimeout => exact .of_on fun s => by dsimp only [exec, execDcdReleaseTimeout]
  case patrolScrubRead => exact .of_on fun s => by dsimp only [exec, execPatrolScrubRead]
  case patrolPromote => exact .of_on fun s => by dsimp only [exec, execPatrolPromote]
  case scrubEnableWrite => exact .of_on fun s => by dsimp only [exec, execScrubEnableWrite]
  case deviceCounterLeak => exact .of_on fun s => by dsimp only [exec, execDeviceCounterLeak]
  case injArm => exact .of_on fun s => by dsimp only [exec, execInjArm]
  case sramInjArm => exact .of_on fun s => by dsimp only [exec, execSramInjArm]
  case sramPowerOnInit => exact .of_on fun s => by dsimp only [exec, execSramPowerOnInit]
  case channelFillComplete => exact .of_on fun s => by dsimp only [exec, execChannelFillComplete]
  case channelEnableWrite => exact .of_on fun s => by dsimp only [exec, execChannelEnableWrite]
  case trainingComplete => exact .of_on fun s => by dsimp only [exec, execTrainingComplete]
  case refreshDue => exact .of_on fun s => by dsimp only [exec, execRefreshDue]
  case refreshPostponeLimit => exact .of_on fun s => by dsimp only [exec, execRefreshPostponeLimit]
  case dimmSensorPoll => exact .of_on fun s => by dsimp only [exec, execDimmSensorPoll]
  case dimmEventNAssert => exact .of_on fun s => by dsimp only [exec, execDimmEventNAssert]
  case powerDownEntry => exact .of_on fun s => by dsimp only [exec, execPowerDownEntry]
  case pageIdleClose => exact .of_on fun s => by dsimp only [exec, execPageIdleClose]
  case requestAgePromote => exact .of_on fun s => by dsimp only [exec, execRequestAgePromote]
  case dqsOscillatorPoll => exact .of_on fun s => by dsimp only [exec, execDqsOscillatorPoll]
  case zqCalibration => exact .of_on fun s => by dsimp only [exec, execZqCalibration]
  case caParityAlert => exact .of_on fun s => by dsimp only [exec, execCaParityAlert]
  case caParityRetryDone => exact .of_on fun s => by dsimp only [exec, execCaParityRetryDone]
  case rekeySweepStep => exact .of_on fun s => by dsimp only [exec, execRekeySweepStep]
  case drivePortEnable => exact .of_on fun s => by dsimp only [exec, execDrivePortEnable]
  case driveInitComplete => exact .of_on fun s => by dsimp only [exec, execDriveInitComplete]
  case imageCreate => exact .of_on fun s => by dsimp only [exec, execImageCreate]
  case imageCreateComplete => exact .of_on fun s => by dsimp only [exec, execImageCreateComplete]
  case restoreStart => exact .of_on fun s => by dsimp only [exec, execRestoreStart]
  case restoreComplete => exact .of_on fun s => by dsimp only [exec, execRestoreComplete]
  case destageStart => exact .of_on fun s => by dsimp only [exec, execDestageStart]
  case destageTagWriteDone => exact .of_on fun s => by dsimp only [exec, execDestageTagWriteDone]
  case destageComplete => exact .of_on fun s => by dsimp only [exec, execDestageComplete]
  case learningReadComplete => exact .of_on fun s => by dsimp only [exec, execLearningReadComplete]
  case driveCommandError => exact .of_on fun s => by dsimp only [exec, execDriveCommandError]
  case driveCommandTimeout => exact .of_on fun s => by dsimp only [exec, execDriveCommandTimeout]
  case driveLinkDown => exact .of_on fun s => by dsimp only [exec, execDriveLinkDown]
  case tokenBucketRefill => exact .of_on fun s => by dsimp only [exec, execTokenBucketRefill]
  case rebuildStep => exact .of_on fun s => by dsimp only [exec, execRebuildStep]
  case driveFlushComplete => exact .of_on fun s => by dsimp only [exec, execDriveFlushComplete]
  case ageTick => exact .of_on fun s => by dsimp only [exec, execAgeTick]
  case backgroundEviction => exact .of_on fun s => by dsimp only [exec, execBackgroundEviction]
  case allocationRetry => exact .of_on fun s => by dsimp only [exec, execAllocationRetry]
  case quotaWrite => exact .of_on fun s => by dsimp only [exec, execQuotaWrite]
  case frameMapLineRebuild => exact .of_on fun s => by dsimp only [exec, execFrameMapLineRebuild]
  case channelLossRebuild => exact .of_on fun s => by dsimp only [exec, execChannelLossRebuild]
  case patternLoad => exact .of_on fun s => by dsimp only [exec, execPatternLoad]
  case patternStart => exact .of_on fun s => by dsimp only [exec, execPatternStart]
  case patternStop => exact .of_on fun s => by dsimp only [exec, execPatternStop]
  case nop => exact .of_on fun s => by dsimp only [exec, execNop]
  case halt => exact .of_on fun s => by dsimp only [exec, execHalt]
  case seti => exact .of_on fun s => by dsimp only [exec, execSeti]
  case addi => exact .of_on fun s => by dsimp only [exec, execAddi]
  case alu => exact .of_on fun s => by dsimp only [exec, execAlu]
  case br => exact .of_on fun s => by dsimp only [exec, execBr]
  case loopStitch => exact .of_on fun s => by dsimp only [exec, execLoopStitch]
  case tagStitch => exact .of_on fun s => by dsimp only [exec, execTagStitch]
  case dline => exact .of_on fun s => by dsimp only [exec, execDline]
  case rdt => exact .of_on fun s => by dsimp only [exec, execRdt]
  case note => exact .of_on fun s => by dsimp only [exec, execNote]
  case fetch => exact .of_on fun s => by dsimp only [exec, execFetch]
  case hint => exact .of_on fun s => by dsimp only [exec, execHint]
  case armw => exact .of_on fun s => by dsimp only [exec, execArmw]
  case waitdb => exact .of_on fun s => by dsimp only [exec, execWaitdb]
  case waitw => exact .of_on fun s => by dsimp only [exec, execWaitw]
  case waitt => exact .of_on fun s => by dsimp only [exec, execWaitt]
  case stitcherDoorbell => exact .of_on fun s => by dsimp only [exec, execStitcherDoorbell]
  case stitcherWake => exact .of_on fun s => by dsimp only [exec, execStitcherWake]
  case stitcherWaitTimeout => exact .of_on fun s => by dsimp only [exec, execStitcherWaitTimeout]
  case streamGranuleIssue => exact .of_on fun s => by dsimp only [exec, execStreamGranuleIssue]
  case qfullRetry => exact .of_on fun s => by dsimp only [exec, execQfullRetry]
  case stiEnableWrite => exact .of_on fun s => by dsimp only [exec, execStiEnableWrite]
  case associationOpen => exact .of_on fun s => by dsimp only [exec, execAssociationOpen]
  case hello => exact .of_on fun s => by dsimp only [exec, execHello]
  case helloRsp => exact .of_on fun s => by dsimp only [exec, execHelloRsp]
  case openReq => exact .of_on fun s => by dsimp only [exec, execOpenReq]
  case openRsp => exact .of_on fun s => by dsimp only [exec, execOpenRsp]
  case closePkt => exact .of_on fun s => by dsimp only [exec, execClosePkt]
  case keepalive => exact .of_on fun s => by dsimp only [exec, execKeepalive]
  case keepaliveTimer => exact .of_on fun s => by dsimp only [exec, execKeepaliveTimer]
  case associationDownTimeout => exact .of_on fun s => by dsimp only [exec, execAssociationDownTimeout]
  case paCfgRekey => exact .of_on fun s => by dsimp only [exec, execPaCfgRekey]
  case rekey => exact .of_on fun s => by dsimp only [exec, execRekey]
  case oldKeyPhaseRetire => exact .of_on fun s => by dsimp only [exec, execOldKeyPhaseRetire]
  case laneRec => exact .of_on fun s => by dsimp only [exec, execLaneRec]
  case cmdFwd => exact .of_on fun s => by dsimp only [exec, execCmdFwd]
  case fencePkt => exact .of_on fun s => by dsimp only [exec, execFencePkt]
  case readPkt => exact .of_on fun s => by dsimp only [exec, execReadPkt]
  case readResp => exact .of_on fun s => by dsimp only [exec, execReadResp]
  case writePkt => exact .of_on fun s => by dsimp only [exec, execWritePkt]
  case ackPkt => exact .of_on fun s => by dsimp only [exec, execAckPkt]
  case nakPkt => exact .of_on fun s => by dsimp only [exec, execNakPkt]
  case retransmitTimeout => exact .of_on fun s => by dsimp only [exec, execRetransmitTimeout]
  case rnrRetry => exact .of_on fun s => by dsimp only [exec, execRnrRetry]
  case ackDelayExpiry => exact .of_on fun s => by dsimp only [exec, execAckDelayExpiry]
  case rateRecoveryTick => exact .of_on fun s => by dsimp only [exec, execRateRecoveryTick]
  case contextRefillDone => exact .of_on fun s => by dsimp only [exec, execContextRefillDone]
  case twinsetPortUp => exact .of_on fun s => by dsimp only [exec, execTwinsetPortUp]
  case twinsetPortDown => exact .of_on fun s => by dsimp only [exec, execTwinsetPortDown]
  case pfcPause => exact .of_on fun s => by dsimp only [exec, execPfcPause]
  case renew => exact .of_on fun s => by dsimp only [exec, execRenew]
  case acquire => exact .of_on fun s => by dsimp only [exec, execAcquire]
  case detach => exact .of_on fun s => by dsimp only [exec, execDetach]
  case attach => exact .of_on fun s => by dsimp only [exec, execAttach]
  case releaseMsg => exact .of_on fun s => by dsimp only [exec, execReleaseMsg]
  case leaseGrant => exact .of_on fun s => by dsimp only [exec, execLeaseGrant]
  case leaseDeny => exact .of_on fun s => by dsimp only [exec, execLeaseDeny]
  case leaseRenewTimer => exact .of_on fun s => by dsimp only [exec, execLeaseRenewTimer]
  case leaseRetryTimer => exact .of_on fun s => by dsimp only [exec, execLeaseRetryTimer]
  case leaseFencePoint => exact .of_on fun s => by dsimp only [exec, execLeaseFencePoint]
  case drainExpiry => exact .of_on fun s => by dsimp only [exec, execDrainExpiry]
  case detachTimeout => exact .of_on fun s => by dsimp only [exec, execDetachTimeout]
  case refereeLapse => exact .of_on fun s => by dsimp only [exec, execRefereeLapse]
  case refereeHoldWait => exact .of_on fun s => by dsimp only [exec, execRefereeHoldWait]
  case mirrorCtlDetach => exact .of_on fun s => by dsimp only [exec, execMirrorCtlDetach]
  case mirrorCtlResync => exact .of_on fun s => by dsimp only [exec, execMirrorCtlResync]
  case resyncStart => exact .of_on fun s => by dsimp only [exec, execResyncStart]
  case tableMsg => exact .of_on fun s => by dsimp only [exec, execTableMsg]
  case divrun => exact .of_on fun s => by dsimp only [exec, execDivrun]
  case resyncCopyStep => exact .of_on fun s => by dsimp only [exec, execResyncCopyStep]
  case leaseCtlSwitchover => exact .of_on fun s => by dsimp only [exec, execLeaseCtlSwitchover]
  case leaseCtlForceAcquire => exact .of_on fun s => by dsimp only [exec, execLeaseCtlForceAcquire]
  case refSend => exact .of_on fun s => by dsimp only [exec, execRefSend]
  case refRecv => exact .of_on fun s => by dsimp only [exec, execRefRecv]
  case tokenPeriodTimer => exact .of_on fun s => by dsimp only [exec, execTokenPeriodTimer]
  case tokenMsg => exact .of_on fun s => by dsimp only [exec, execTokenMsg]
  case leaderLostTimeout => exact .of_on fun s => by dsimp only [exec, execLeaderLostTimeout]
  case roundCtlJoin => exact .of_on fun s => by dsimp only [exec, execRoundCtlJoin]
  case roundCtlLeave => exact .of_on fun s => by dsimp only [exec, execRoundCtlLeave]
  case roundEnableWrite => exact .of_on fun s => by dsimp only [exec, execRoundEnableWrite]
  case joinMsg => exact .of_on fun s => by dsimp only [exec, execJoinMsg]
  case joinRsp => exact .of_on fun s => by dsimp only [exec, execJoinRsp]
  case offerMsg => exact .of_on fun s => by dsimp only [exec, execOfferMsg]
  case loanRequest => exact .of_on fun s => by dsimp only [exec, execLoanRequest]
  case loanGrant => exact .of_on fun s => by dsimp only [exec, execLoanGrant]
  case loanRefuse => exact .of_on fun s => by dsimp only [exec, execLoanRefuse]
  case reclaim => exact .of_on fun s => by dsimp only [exec, execReclaim]
  case loanReturn => exact .of_on fun s => by dsimp only [exec, execLoanReturn]
  case loanReclaim => exact .of_on fun s => by dsimp only [exec, execLoanReclaim]
  case loanCtlReclaim => exact .of_on fun s => by dsimp only [exec, execLoanCtlReclaim]
  case loanCtlReturn => exact .of_on fun s => by dsimp only [exec, execLoanCtlReturn]
  case loanIdleReturn => exact .of_on fun s => by dsimp only [exec, execLoanIdleReturn]
  case neighbourWindowTick => exact .of_on fun s => by dsimp only [exec, execNeighbourWindowTick]
  case nFillTimeout => exact .of_on fun s => by dsimp only [exec, execNFillTimeout]
  case boot => exact .of_onF fun s => by dsimp only [exec, execBoot]
  case bootTimeout => exact .of_onF fun s => by dsimp only [exec, execBootTimeout]
  case islandExcursion => exact .of_on fun s => by dsimp only [exec, execIslandExcursion]
  case islandReloadComplete => exact .of_onF fun s => by dsimp only [exec, execIslandReloadComplete]
  case bootCtlCommit => exact .of_on fun s => by dsimp only [exec, execBootCtlCommit]
  case takeOwnership => exact .of_onF fun s => by dsimp only [exec, execTakeOwnership]
  case transfer => exact .of_onF fun s => by dsimp only [exec, execTransfer]
  case tenantEnrol => exact .of_onF fun s => by dsimp only [exec, execTenantEnrol]
  case tenantBind => exact .of_onF fun s => by dsimp only [exec, execTenantBind]
  case tenantUnbind => exact .of_onF fun s => by dsimp only [exec, execTenantUnbind]
  case tenantRemove => exact .of_onF fun s => by dsimp only [exec, execTenantRemove]
  case regionShare => exact .of_onF fun s => by dsimp only [exec, execRegionShare]
  case keyInstall => exact .of_onF fun s => by dsimp only [exec, execKeyInstall]
  case keyRotate => exact .of_onF fun s => by dsimp only [exec, execKeyRotate]
  case keyRemove => exact .of_onF fun s => by dsimp only [exec, execKeyRemove]
  case zeroise => exact .of_onF fun s => by dsimp only [exec, execZeroise]
  case secretInstall => exact .of_onF fun s => by dsimp only [exec, execSecretInstall]
  case refereeSet => exact .of_onF fun s => by dsimp only [exec, execRefereeSet]
  case fwActivate => exact .of_onF fun s => by dsimp only [exec, execFwActivate]
  case logClear => exact .of_onF fun s => by dsimp only [exec, execLogClear]
  case debugUnlock => exact .of_onF fun s => by dsimp only [exec, execDebugUnlock]
  case keyStoreRecordPersisted => exact .of_onF fun s => by dsimp only [exec, execKeyStoreRecordPersisted]
  case keyStoreCompaction => exact .of_on fun s => by dsimp only [exec, execKeyStoreCompaction]
  case debugChallenge => exact .of_on fun s => by dsimp only [exec, execDebugChallenge]
  case getWrapCert => exact .of_on fun s => by dsimp only [exec, execGetWrapCert]
  case getVersion => exact .of_on fun s => by dsimp only [exec, execGetVersion]
  case getCapabilities => exact .of_on fun s => by dsimp only [exec, execGetCapabilities]
  case negotiateAlgorithms => exact .of_on fun s => by dsimp only [exec, execNegotiateAlgorithms]
  case getDigests => exact .of_onF fun s => by dsimp only [exec, execGetDigests]
  case getCertificate => exact .of_onF fun s => by dsimp only [exec, execGetCertificate]
  case challenge => exact .of_onF fun s => by dsimp only [exec, execChallenge]
  case getMeasurements => exact .of_onF fun s => by dsimp only [exec, execGetMeasurements]
  case keyExchange => exact .of_on fun s => by dsimp only [exec, execKeyExchange]
  case finish => exact .of_on fun s => by dsimp only [exec, execFinish]
  case heartbeat => exact .of_on fun s => by dsimp only [exec, execHeartbeat]
  case keyUpdate => exact .of_on fun s => by dsimp only [exec, execKeyUpdate]
  case endSession => exact .of_on fun s => by dsimp only [exec, execEndSession]
  case chunkSend => exact .of_on fun s => by dsimp only [exec, execChunkSend]
  case chunkGet => exact .of_on fun s => by dsimp only [exec, execChunkGet]
  case regionCreate => exact .of_on fun s => by dsimp only [exec, execRegionCreate]
  case regionDestroy => exact .of_on fun s => by dsimp only [exec, execRegionDestroy]
  case regionAttach => exact .of_on fun s => by dsimp only [exec, execRegionAttach]
  case regionRevoke => exact .of_on fun s => by dsimp only [exec, execRegionRevoke]
  case tierHintPromote => exact .of_on fun s => by dsimp only [exec, execTierHintPromote]
  case tierHintCold => exact .of_on fun s => by dsimp only [exec, execTierHintCold]
  case tierHintPin => exact .of_on fun s => by dsimp only [exec, execTierHintPin]
  case tierHintUnpin => exact .of_on fun s => by dsimp only [exec, execTierHintUnpin]
  case copyLines => exact .of_on fun s => by dsimp only [exec, execCopyLines]
  case persistFence => exact .of_on fun s => by dsimp only [exec, execPersistFence]
  case eventRead => exact .of_on fun s => by dsimp only [exec, execEventRead]
  case logRead => exact .of_on fun s => by dsimp only [exec, execLogRead]
  case telemetryRead => exact .of_on fun s => by dsimp only [exec, execTelemetryRead]
  case attest => exact .of_onF fun s => by dsimp only [exec, execAttest]
  case fwStage => exact .of_on fun s => by dsimp only [exec, execFwStage]
  case invalidOpcode => exact .of_on fun s => by dsimp only [exec, execInvalidOpcode]
  case sqTailWrite => exact .of_on fun s => by dsimp only [exec, execSqTailWrite]
  case descriptorFetch => exact .of_on fun s => by dsimp only [exec, execDescriptorFetch]
  case cqHeadWrite => exact .of_on fun s => by dsimp only [exec, execCqHeadWrite]
  case ringEnable => exact .of_on fun s => by dsimp only [exec, execRingEnable]
  case ringDisable => exact .of_on fun s => by dsimp only [exec, execRingDisable]
  case completionSignalTimer => exact .of_on fun s => by dsimp only [exec, execCompletionSignalTimer]
  case skqPopRead => exact .of_on fun s => by dsimp only [exec, execSkqPopRead]
  case dropPkt => exact .of_on fun s => by dsimp only [exec, execDropPkt]
  case skqReset => exact .of_on fun s => by dsimp only [exec, execSkqReset]
  case eventReaction => exact .of_on fun s => by dsimp only [exec, execEventReaction]
  case intGapExpiry => exact .of_on fun s => by dsimp only [exec, execIntGapExpiry]
  case blockResetComplete => exact .of_on fun s => by dsimp only [exec, execBlockResetComplete]
  case firstFaultLatchClear => exact .of_on fun s => by dsimp only [exec, execFirstFaultLatchClear]
  case pulseToggle => exact .of_on fun s => by dsimp only [exec, execPulseToggle]
  case pulseRunWrite => exact .of_on fun s => by dsimp only [exec, execPulseRunWrite]
  case rowRecordArrival => exact .of_on fun s => by dsimp only [exec, execRowRecordArrival]
  case rowPageFlushTimer => exact .of_on fun s => by dsimp only [exec, execRowPageFlushTimer]
  case rowProgramDone => exact .of_on fun s => by dsimp only [exec, execRowProgramDone]
  case rowEraseDone => exact .of_on fun s => by dsimp only [exec, execRowEraseDone]
  case rowScan => exact .of_on fun s => by dsimp only [exec, execRowScan]
  case pwronAssert => exact .of_on fun s => by dsimp only [exec, execPwronAssert]
  case pwronDeassert => exact .of_on fun s => by dsimp only [exec, execPwronDeassert]
  case pfailNAssert => exact .of_on fun s => by dsimp only [exec, execPfailNAssert]
  case pfailNDeassert => exact .of_on fun s => by dsimp only [exec, execPfailNDeassert]
  case flushLinkDrop => exact .of_on fun s => by dsimp only [exec, execFlushLinkDrop]
  case flushDone => exact .of_on fun s => by dsimp only [exec, execFlushDone]
  case porstNAssert => exact .of_on fun s => by dsimp only [exec, execPorstNAssert]
  case rstCtlChip => exact .of_on fun s => by dsimp only [exec, execRstCtlChip]
  case chipReset => exact .of_on fun s => by dsimp only [exec, execChipReset]
  case seqPgChange => exact .of_on fun s => by dsimp only [exec, execSeqPgChange]
  case sequencerStepTimer => exact .of_on fun s => by dsimp only [exec, execSequencerStepTimer]
  case offWaitExpiry => exact .of_on fun s => by dsimp only [exec, execOffWaitExpiry]
  case preflightTimeout => exact .of_on fun s => by dsimp only [exec, execPreflightTimeout]
  case psqCtlOff => exact .of_on fun s => by dsimp only [exec, execPsqCtlOff]
  case psqCtlCycle => exact .of_on fun s => by dsimp only [exec, execPsqCtlCycle]
  case runningRailFault => exact .of_on fun s => by dsimp only [exec, execRunningRailFault]
  case railGraceExpiry => exact .of_on fun s => by dsimp only [exec, execRailGraceExpiry]
  case vddFuseRequest good => exact vddFuseRequest_effect good
  case vaonLow => exact .of_on fun s => by dsimp only [exec, execVaonLow]
  case vaonReset => exact .of_on fun s => by dsimp only [exec, execVaonReset]
  case xtalStop => exact .of_on fun s => by dsimp only [exec, execXtalStop]
  case pllLockLoss => exact .of_on fun s => by dsimp only [exec, execPllLockLoss]
  case pllRelock => exact .of_on fun s => by dsimp only [exec, execPllRelock]
  case rtcxFailure => exact .of_on fun s => by dsimp only [exec, execRtcxFailure]
  case vbatLow => exact .of_on fun s => by dsimp only [exec, execVbatLow]
  case refclkLoss => exact .of_on fun s => by dsimp only [exec, execRefclkLoss]
  case rtcSet => exact .of_on fun s => by dsimp only [exec, execRtcSet]
  case rtcSecondRewrite => exact .of_on fun s => by dsimp only [exec, execRtcSecondRewrite]
  case watchdogKick => exact .of_on fun s => by dsimp only [exec, execWatchdogKick]
  case watchdogExpiry => exact .of_on fun s => by dsimp only [exec, execWatchdogExpiry]
  case thermalSample => exact .of_on fun s => by dsimp only [exec, execThermalSample]
  case limitEffRecompute => exact .of_on fun s => by dsimp only [exec, execLimitEffRecompute]
  case flushEstUpdate => exact .of_on fun s => by dsimp only [exec, execFlushEstUpdate]
  case lockAllWrite => exact .of_on fun s => by dsimp only [exec, execLockAllWrite]
  case counterLoRead => exact .of_onF fun s => by dsimp only [exec, execCounterLoRead]
  case mboxGo => exact .of_on fun s => by dsimp only [exec, execMboxGo]
  case mboxAnswer => exact .of_on fun s => by dsimp only [exec, execMboxAnswer]
  case irqAck => exact .of_on fun s => by dsimp only [exec, execIrqAck]
  case mctpBar0Read => exact .of_onF fun s => by dsimp only [exec, execMctpBar0Read]
  case mctpBar0Write => exact .of_on fun s => by dsimp only [exec, execMctpBar0Write]
  case registerWrite => exact .of_on fun s => by dsimp only [exec, execRegisterWrite]
  case cxlLinkError => exact .of_on fun s => by dsimp only [exec, execCxlLinkError]
  case poisonedTlp => exact .of_on fun s => by dsimp only [exec, execPoisonedTlp]
  case fecUncorrectableCodeword => exact .of_on fun s => by dsimp only [exec, execFecUncorrectableCodeword]
  case pfcPauseLimit => exact .of_on fun s => by dsimp only [exec, execPfcPauseLimit]
  case tokenForwardTimeout => exact .of_on fun s => by dsimp only [exec, execTokenForwardTimeout]
  case loanOfferTimer => exact .of_on fun s => by dsimp only [exec, execLoanOfferTimer]
  case driveLinkUp => exact .of_on fun s => by dsimp only [exec, execDriveLinkUp]
  case calibrationTrackingUpdate => exact .of_on fun s => by dsimp only [exec, execCalibrationTrackingUpdate]
  case recoveryImage => exact .of_onF fun s => by dsimp only [exec, execRecoveryImage]
  case extestInstructionUpdate => exact .of_on fun s => by dsimp only [exec, execExtestInstructionUpdate]
  case regionLogRecordProgrammed => exact .of_on fun s => by dsimp only [exec, execRegionLogRecordProgrammed]
  case refereeLogRecordProgrammed => exact .of_on fun s => by dsimp only [exec, execRefereeLogRecordProgrammed]
  case vioAonOutOfRegulation => exact .of_on fun s => by dsimp only [exec, execVioAonOutOfRegulation]
  case msixVectorUnmask => exact .of_on fun s => by dsimp only [exec, execMsixVectorUnmask]

/-- Every command answers a next state. -/
theorem exec_answers (c : Instr) (s : State) : ∃ d fu, exec c s = .next (({ s with fuses := fu } : State).did d) ∧
    (fu = s.fuses ∨ c = .vddFuseRequest true ∧ s.dev.psq.fuse = true ∧ fu = s.fuses.advance s.dev.island.running) := by
  obtain ⟨f, g, h, k⟩ := exec_effect c
  exact ⟨_, _, h s, k s.fuses s.dev⟩

/-! ## A step -/

theorem step_offer (c : Instr) (s : State) : step (s.offer c) = exec c s := by
  obtain ⟨d, fu, l, q⟩ := s
  rfl

theorem step_cons {s : State} {c : Instr} {r : List Instr} (h : s.pending = c :: r) : step s = exec c { s with pending := r } := by
  unfold step
  rw [h]

theorem step_nil {s : State} (h : s.pending = []) : step s = .next (s.did s.dev.tick) := by
  unfold step
  rw [h]
  rfl

/-- Every step answers a next state whose queue has lost its oldest command. -/
theorem step_answers (s : State) : ∃ t, step s = .next t ∧ t.pending = s.pending.tail := by
  cases h : s.pending with
  | nil => exact ⟨_, step_nil h, by rw [State.did_pending, h]; rfl⟩
  | cons c r =>
    obtain ⟨d, fu, e, -⟩ := exec_answers c { s with pending := r }
    exact ⟨_, (step_cons h).trans e, by rw [State.did_pending]; rfl⟩

end Sys2Proof.Machine
end

