-- ==== Sys2Proof/Laws/Tab.lean ====
section
/-! SUPPORT. The laws of the sparse tables: what an entry reads after a change, and the canonical form, which every
change keeps. -/

namespace Sys2Proof.Machine

variable {α : Type}

theorem Tab.find_insert_same (k : Nat) (v : α) (l : List (Nat × α)) : Tab.find k (Tab.insert k v l) = some v := by
  induction l with
  | nil => simp [Tab.insert, Tab.find]
  | cons e r ih =>
    obtain ⟨j, w⟩ := e
    rcases Nat.lt_trichotomy k j with h | h | h
    · simp [Tab.insert, Tab.find, h]
    · simp [Tab.insert, Tab.find, h]
    · have h1 : ¬ k < j := by omega
      have h2 : ¬ k = j := by omega
      have h3 : ¬ j = k := by omega
      simp [Tab.insert, Tab.find, h1, h2, h3, ih]

theorem Tab.find_insert_ne {k i : Nat} (h : i ≠ k) (v : α) (l : List (Nat × α)) :
    Tab.find i (Tab.insert k v l) = Tab.find i l := by
  induction l with
  | nil => simp [Tab.insert, Tab.find, Ne.symm h]
  | cons e r ih =>
    obtain ⟨j, w⟩ := e
    by_cases h1 : k < j
    · simp [Tab.insert, Tab.find, h1, Ne.symm h]
    · by_cases h2 : k = j
      · subst h2; simp [Tab.insert, Tab.find, Ne.symm h]
      · simp only [Tab.insert, h1, h2, if_false, Tab.find, ih]

theorem Tab.find_erase_ne {k i : Nat} (h : i ≠ k) (l : List (Nat × α)) : Tab.find i (Tab.erase k l) = Tab.find i l := by
  induction l with
  | nil => simp [Tab.erase]
  | cons e r ih =>
    obtain ⟨j, w⟩ := e
    by_cases h2 : j = k
    · subst h2; simp [Tab.erase, Tab.find, Ne.symm h, ih]
    · simp only [Tab.erase, h2, if_false, Tab.find, ih]

theorem Tab.find_erase_same (k : Nat) (l : List (Nat × α)) : Tab.find k (Tab.erase k l) = none := by
  induction l with
  | nil => rfl
  | cons e r ih =>
    obtain ⟨j, w⟩ := e
    by_cases h : j = k <;> simp [Tab.erase, Tab.find, h, ih]

theorem Tab.risingFrom_mono {lo hi : Nat} (h : lo ≤ hi) {l : List (Nat × α)} (w : Tab.risingFrom hi l = true) :
    Tab.risingFrom lo l = true := by
  cases l with
  | nil => rfl
  | cons e r =>
    obtain ⟨j, v⟩ := e
    simp only [Tab.risingFrom, Bool.and_eq_true, decide_eq_true_eq] at w ⊢
    exact ⟨by omega, w.2⟩

theorem Tab.risingFrom_insert {lo k : Nat} (h : lo ≤ k) (v : α) {l : List (Nat × α)} (w : Tab.risingFrom lo l = true) :
    Tab.risingFrom lo (Tab.insert k v l) = true := by
  induction l generalizing lo with
  | nil => simp [Tab.insert, Tab.risingFrom, h]
  | cons e r ih =>
    obtain ⟨j, u⟩ := e
    simp only [Tab.risingFrom, Bool.and_eq_true, decide_eq_true_eq] at w
    by_cases h1 : k < j
    · simp [Tab.insert, h1, Tab.risingFrom, h, w.2] <;> omega
    · by_cases h2 : k = j
      · subst h2; simp [Tab.insert, Tab.risingFrom, w]
      · simp [Tab.insert, h1, h2, Tab.risingFrom, w.1, ih (lo := j + 1) (by omega) w.2]

theorem Tab.risingFrom_erase {lo : Nat} (k : Nat) {l : List (Nat × α)} (w : Tab.risingFrom lo l = true) :
    Tab.risingFrom lo (Tab.erase k l) = true := by
  induction l generalizing lo with
  | nil => rfl
  | cons e r ih =>
    obtain ⟨j, u⟩ := e
    simp only [Tab.risingFrom, Bool.and_eq_true, decide_eq_true_eq] at w
    by_cases h : j = k
    · simpa [Tab.erase, h] using ih (Tab.risingFrom_mono (by omega) w.2)
    · simp [Tab.erase, h, Tab.risingFrom, w.1, ih w.2]

theorem Tab.risingFrom_filter {lo : Nat} (p : Nat × α → Bool) {l : List (Nat × α)} (w : Tab.risingFrom lo l = true) :
    Tab.risingFrom lo (l.filter p) = true := by
  induction l generalizing lo with
  | nil => rfl
  | cons e r ih =>
    obtain ⟨j, u⟩ := e
    simp only [Tab.risingFrom, Bool.and_eq_true, decide_eq_true_eq] at w
    by_cases h : p (j, u) = true
    · simp [List.filter, h, Tab.risingFrom, w.1, ih w.2]
    · simpa [List.filter, h] using Tab.risingFrom_mono (by omega) (ih w.2)

theorem Tab.risingFrom_map {lo : Nat} (f : Nat → α → α) {l : List (Nat × α)} (w : Tab.risingFrom lo l = true) :
    Tab.risingFrom lo (l.map fun e => (e.1, f e.1 e.2)) = true := by
  induction l generalizing lo with
  | nil => rfl
  | cons e r ih =>
    obtain ⟨j, u⟩ := e
    simp only [Tab.risingFrom, Bool.and_eq_true, decide_eq_true_eq] at w
    simp [Tab.risingFrom, w.1, ih w.2]

@[simp] theorem Tab.get?_empty (k : Nat) : (Tab.empty : Tab α).get? k = none := rfl

@[simp] theorem Tab.getD_empty (k : Nat) (d : α) : (Tab.empty : Tab α).getD k d = d := rfl

@[simp] theorem Tab.wf_empty : (Tab.empty : Tab α).wf = true := rfl

@[simp] theorem Tab.get?_put_same (t : Tab α) (k : Nat) (v : α) : (t.put k v).get? k = some v :=
  Tab.find_insert_same k v t.list

theorem Tab.get?_put_ne (t : Tab α) {k i : Nat} (h : i ≠ k) (v : α) : (t.put k v).get? i = t.get? i :=
  Tab.find_insert_ne h v t.list

theorem Tab.get?_del_ne (t : Tab α) {k i : Nat} (h : i ≠ k) : (t.del k).get? i = t.get? i := Tab.find_erase_ne h t.list

@[simp] theorem Tab.get?_del_same (t : Tab α) (k : Nat) : (t.del k).get? k = none := Tab.find_erase_same k t.list

/-- Keeping the keys that satisfy `p` leaves their entries alone. -/
theorem Tab.get?_filter_key (t : Tab α) (p : Nat → Bool) (k : Nat) :
    (t.filter fun j _ => p j).get? k = if p k then t.get? k else none := by
  obtain ⟨l⟩ := t
  show Tab.find k (l.filter fun e => p e.1) = if p k then Tab.find k l else none
  induction l with
  | nil => simp [Tab.find]
  | cons e r ih =>
    obtain ⟨j, v⟩ := e
    by_cases hj : j = k
    · subst hj; by_cases hp : p j = true <;> simp [List.filter, Tab.find, hp, ih]
    · by_cases hp : p j = true <;> simp [List.filter, Tab.find, hp, hj, ih]

theorem Tab.wf_put {t : Tab α} (w : t.wf = true) (k : Nat) (v : α) : (t.put k v).wf = true :=
  Tab.risingFrom_insert (Nat.zero_le k) v w

theorem Tab.wf_del {t : Tab α} (w : t.wf = true) (k : Nat) : (t.del k).wf = true := Tab.risingFrom_erase k w

theorem Tab.wf_filter {t : Tab α} (w : t.wf = true) (p : Nat → α → Bool) : (t.filter p).wf = true :=
  Tab.risingFrom_filter _ w

theorem Tab.wf_map {t : Tab α} (w : t.wf = true) (f : Nat → α → α) : (t.map f).wf = true := Tab.risingFrom_map f w

theorem Tab.wf_upd {t : Tab α} (w : t.wf = true) (k : Nat) (f : α → α) : (t.upd k f).wf = true := by
  unfold Tab.upd
  split
  · exact Tab.wf_put w _ _
  · exact w

theorem Tab.wf_putD [DecidableEq α] {t : Tab α} (w : t.wf = true) (k : Nat) (v d : α) : (t.putD k v d).wf = true := by
  unfold Tab.putD
  split
  · exact Tab.wf_del w k
  · exact Tab.wf_put w k v

/-- A store reads back, whatever the table's unlisted entries read. -/
@[simp] theorem Tab.getD_putD_same [DecidableEq α] (t : Tab α) (k : Nat) (v d : α) : (t.putD k v d).getD k d = v := by
  unfold Tab.putD
  split
  · next h => subst h; simp [Tab.getD]
  · simp [Tab.getD]

theorem Tab.getD_putD_ne [DecidableEq α] (t : Tab α) {k i : Nat} (h : i ≠ k) (v d e : α) :
    (t.putD k v d).getD i e = t.getD i e := by
  unfold Tab.putD
  split <;> simp [Tab.getD, Tab.get?_del_ne t h, Tab.get?_put_ne t h]

theorem Tab.getD_put_same (t : Tab α) (k : Nat) (v d : α) : (t.put k v).getD k d = v := by simp [Tab.getD]

theorem Tab.getD_put_ne (t : Tab α) {k i : Nat} (h : i ≠ k) (v d : α) : (t.put k v).getD i d = t.getD i d := by
  simp [Tab.getD, Tab.get?_put_ne t h]

end Sys2Proof.Machine
end

