-- ==== Sys2Proof/Laws/Ops.lean ====
section
/-! SUPPORT. What the shared operations can do, once each: register fields read back, the bookkeeping operations (counters,
records, events) change nothing but registers, ROW, FCO and PSQ, the operations on DRAM keep its
canonical form, and what the device seals verifies. -/

namespace Sys2Proof.Machine

/-! ## Register fields -/

/-- A field reads back what was written, cut to its width. -/
@[simp] theorem Dev.get_set_same (s : Dev) (f : Field) (v : Nat) : (s.set f v).get f = v % 2 ^ f.width :=
  Tab.getD_putD_same s.regs f.key _ _

/-- A write leaves every other field alone. -/
theorem Dev.get_set_ne (s : Dev) {f g : Field} (h : g.key ≠ f.key) (v : Nat) : (s.set f v).get g = s.get g :=
  Tab.getD_putD_ne s.regs h _ _ _

/-- The register store keeps its canonical form. -/
theorem Dev.set_regs_wf (s : Dev) (w : s.regs.wf = true) (f : Field) (v : Nat) : (s.set f v).regs.wf = true :=
  Tab.wf_putD w _ _ _

/-! ## Answers -/

/-- An effect on the device answers the next state that `did` gives, and no other. -/
theorem State.on_next {s t : State} {f : Dev → Dev} : s.on f = .next t ↔ t = s.did (f s.dev) :=
  ⟨fun h => by injection h with h; exact h.symm, fun h => by rw [h]; rfl⟩

theorem State.onF_next {s t : State} {f : Fuses → Dev → Dev} : s.onF f = .next t ↔ t = s.did (f s.fuses s.dev) := State.on_next

/-! ## Bookkeeping -/

/-- `t` is `s` with other registers, ROW, FCO and PSQ state at most. -/
def Dev.Books (s t : Dev) : Prop := ∃ regs row fco psq, t = { s with regs, row, fco, psq }

theorem Dev.Books.refl (s : Dev) : Dev.Books s s := ⟨s.regs, s.row, s.fco, s.psq, rfl⟩

theorem Dev.Books.trans {s t u : Dev} (h : Dev.Books s t) (k : Dev.Books t u) : Dev.Books s u := by
  obtain ⟨a, b, c, d, rfl⟩ := h
  obtain ⟨a', b', c', d', rfl⟩ := k
  exact ⟨a', b', c', d', rfl⟩

theorem Dev.set_books (s : Dev) (f : Field) (v : Nat) : Dev.Books s (s.set f v) := ⟨_, s.row, s.fco, s.psq, rfl⟩

theorem Dev.setBit_books (s : Dev) (f : Field) (b : Bool) : Dev.Books s (s.setBit f b) := s.set_books f _

theorem Dev.setRow_books (s : Dev) (f : RowLog → RowLog) : Dev.Books s (s.setRow f) := ⟨s.regs, _, s.fco, s.psq, rfl⟩

theorem Dev.setPsq_books (s : Dev) (f : Psq → Psq) : Dev.Books s (s.setPsq f) := ⟨s.regs, s.row, s.fco, _, rfl⟩

theorem Dev.countUp_books (s : Dev) (c f : Field) (n : Nat) : Dev.Books s (s.countUp c f n).1 := by
  unfold Dev.countUp
  split
  · exact .refl s
  · split
    · exact s.set_books _ _
    · exact (s.set_books _ _).trans (Dev.setBit_books _ _ _)

/-- The holding queue's level changes ROW's pending bit and FCO's queue alone. -/
theorem Dev.heldLevel_eq (s : Dev) (n : Nat) :
    ∃ p f, s.heldLevel n = { s with row := { s.row with lvlPend := p }, fco := f } := by
  unfold Dev.heldLevel
  dsimp only
  split
  · exact ⟨s.row.lvlPend, s.fco, rfl⟩
  · split
    · exact ⟨true, _, rfl⟩
    · exact ⟨true, s.fco, rfl⟩

theorem Dev.holdRecord_books (s : Dev) (e : Ev) (b : Bool) : Dev.Books s (s.holdRecord e b).1 := by
  obtain ⟨p, f, h⟩ := s.heldLevel_eq (8 * s.row.holding.length)
  unfold Dev.holdRecord
  split
  · rw [h]
    exact ⟨s.regs, _, f, s.psq, rfl⟩
  · exact Dev.Books.trans ⟨s.regs, _, s.fco, s.psq, rfl⟩ (Dev.countUp_books _ _ _ _)

/-- Raising an event: its record, its place in FCO's queue, or PSQ's holding of it. -/
theorem Dev.raise_books (s : Dev) (e : Ev) : Dev.Books s (s.raise e) := by
  unfold Dev.raise
  split
  · exact .refl s
  · split
    · refine Dev.Books.trans (t := (if e.writes = true then s.holdRecord e false else (s, none)).1) ?_ ⟨_, _, _, _, rfl⟩
      split
      · exact s.holdRecord_books e false
      · exact .refl s
    · split
      · exact ⟨s.regs, s.row, s.fco, _, rfl⟩
      · split
        · exact s.holdRecord_books e false
        · exact .refl s

theorem Dev.raiseAll_books (l : List Ev) (s : Dev) : Dev.Books s (s.raiseAll l) := by
  unfold Dev.raiseAll
  induction l generalizing s with
  | nil => exact .refl s
  | cons e r ih => exact (s.raise_books e).trans (ih _)

theorem Dev.raiseMs_books (s : Dev) (e : Ev) : Dev.Books s (s.raiseMs e) := by
  unfold Dev.raiseMs
  split
  · split
    · exact .refl s
    · exact Dev.Books.trans ⟨s.regs, s.row, _, s.psq, rfl⟩ (Dev.raise_books _ _)
  · exact Dev.Books.trans ⟨s.regs, s.row, _, s.psq, rfl⟩ (Dev.raise_books _ _)

theorem Dev.raiseFirst_books (s : Dev) (e : Ev) : Dev.Books s (s.raiseFirst e) := by
  unfold Dev.raiseFirst
  refine Dev.Books.trans (t := { s with fco := { s.fco with lastAt := s.fco.lastAt.put e.id s.clock } })
    ⟨s.regs, s.row, _, s.psq, rfl⟩ ?_
  split <;> dsimp only <;> (try split) <;> first | exact Dev.raise_books _ _ | exact .refl _

theorem Dev.count_books (s : Dev) (c f : Field) (n : Nat) (e : Ev) : Dev.Books s (s.count c f n e) := by
  unfold Dev.count
  dsimp only
  split
  · exact (s.countUp_books c f n).trans (Dev.raise_books _ e)
  · exact s.countUp_books c f n

theorem Dev.count48_books (s : Dev) (lo hi : Field) (n : Nat) (e : Ev) : Dev.Books s (s.count48 lo hi n e) := by
  unfold Dev.count48
  dsimp only
  split
  · exact ((s.set_books lo _).trans (Dev.set_books _ hi _)).trans (Dev.raise_books _ e)
  · exact (s.set_books lo _).trans (Dev.set_books _ hi _)

theorem Dev.discard_books (s : Dev) (off cause : Nat) : Dev.Books s (s.discard off cause) := by
  have h : ∀ u : Dev, Dev.Books s u → Dev.Books s ((u.countUp Reg.GLB.WR_DISC_CNT.COUNT Reg.GLB.WR_DISC_CNT.SAT 1).1.raiseFirst
      ((u.countUp Reg.GLB.WR_DISC_CNT.COUNT Reg.GLB.WR_DISC_CNT.SAT 1).1.glbEv 0x001)) :=
    fun u k => (k.trans (Dev.countUp_books _ _ _ _)).trans (Dev.raiseFirst_books _ _)
  have k := h _ ((s.set_books Reg.GLB.WR_DISC.OFFSET off).trans (Dev.set_books _ Reg.GLB.WR_DISC.CAUSE cause))
  unfold Dev.discard
  dsimp only
  split
  · exact k.trans (Dev.raise_books _ _)
  · exact k

/-- Bookkeeping sends nothing and leaves DRAM, the drives' media and the region table alone. -/
theorem Dev.Books.keeps {s t : Dev} (h : Dev.Books s t) :
    t.out = s.out ∧ t.frames = s.frames ∧ t.lc = s.lc ∧ t.media = s.media ∧ t.regions = s.regions ∧ t.clock = s.clock := by
  obtain ⟨_, _, _, _, rfl⟩ := h
  exact ⟨rfl, rfl, rfl, rfl, rfl, rfl⟩

/-- A counter's fields alone change when it counts. -/
theorem Dev.get_countUp (s : Dev) {c f g : Field} (hc : g.key ≠ c.key) (hf : g.key ≠ f.key) (n : Nat) :
    (s.countUp c f n).1.get g = s.get g := by
  unfold Dev.countUp
  split
  · rfl
  · split
    · exact s.get_set_ne hc _
    · exact ((s.set c _).get_set_ne hf _).trans (s.get_set_ne hc _)

theorem Dev.get_holdRecord (s : Dev) {g : Field} (hc : g.key ≠ Reg.ROW.LOST.COUNT.key) (hf : g.key ≠ Reg.ROW.LOST.SAT.key)
    (e : Ev) (b : Bool) : (s.holdRecord e b).1.get g = s.get g := by
  unfold Dev.holdRecord
  split
  · obtain ⟨p, f, h⟩ := s.heldLevel_eq (8 * s.row.holding.length)
    rw [h]
    rfl
  · exact Dev.get_countUp _ hc hf 1

/-- An event changes no register but ROW's count of lost records. -/
theorem Dev.get_raise (s : Dev) {g : Field} (hc : g.key ≠ Reg.ROW.LOST.COUNT.key) (hf : g.key ≠ Reg.ROW.LOST.SAT.key)
    (e : Ev) : (s.raise e).get g = s.get g := by
  unfold Dev.raise
  split
  · rfl
  · split
    · show Dev.get (if e.writes = true then s.holdRecord e false else (s, none)).1 g = s.get g
      split
      · exact s.get_holdRecord hc hf e false
      · rfl
    · split
      · rfl
      · split
        · exact s.get_holdRecord hc hf e false
        · rfl

/-! ## The contents of DRAM -/

theorem mem_insert {α : Type} {k : Nat} {v : α} {x : Nat × α} {l : List (Nat × α)} (h : x ∈ Tab.insert k v l) :
    x = (k, v) ∨ x ∈ l := by
  induction l with
  | nil => simpa [Tab.insert] using h
  | cons e r ih =>
    obtain ⟨j, u⟩ := e
    unfold Tab.insert at h
    split at h
    · simpa using h
    · split at h
      · rcases List.mem_cons.1 h with h | h
        · exact .inl h
        · exact .inr (List.mem_cons_of_mem _ h)
      · rcases List.mem_cons.1 h with h | h
        · exact .inr (h ▸ List.mem_cons_self)
        · exact (ih h).imp id (List.mem_cons_of_mem _)

theorem mem_erase {α : Type} {k : Nat} {x : Nat × α} {l : List (Nat × α)} (h : x ∈ Tab.erase k l) : x ∈ l := by
  induction l with
  | nil => exact h
  | cons e r ih =>
    obtain ⟨j, u⟩ := e
    unfold Tab.erase at h
    split at h
    · exact List.mem_cons_of_mem _ (ih h)
    · rcases List.mem_cons.1 h with h | h
      · exact h ▸ List.mem_cons_self
      · exact List.mem_cons_of_mem _ (ih h)

/-- What a command of a channel can change: registers, the channel front ends, reads in flight, stored errors and the stamp counter. -/
def Dev.DramOnly (s t : Dev) : Prop :=
  ∃ uses regs errors reads channels, t = { s with uses, regs, errors, reads, channels }

theorem Dev.DramOnly.refl (s : Dev) : Dev.DramOnly s s := ⟨s.uses, s.regs, s.errors, s.reads, s.channels, rfl⟩

theorem Dev.DramOnly.trans {s t u : Dev} (h : Dev.DramOnly s t) (k : Dev.DramOnly t u) : Dev.DramOnly s u := by
  obtain ⟨a, b, c, d, e, rfl⟩ := h
  obtain ⟨a', b', c', d', e', rfl⟩ := k
  exact ⟨a', b', c', d', e', rfl⟩

theorem Dev.DramOnly.keeps {s t : Dev} (h : Dev.DramOnly s t) :
    t.frames = s.frames ∧ t.out = s.out ∧ t.lc = s.lc ∧ t.media = s.media ∧ t.clock = s.clock := by
  obtain ⟨_, _, _, _, _, rfl⟩ := h
  exact ⟨rfl, rfl, rfl, rfl, rfl⟩

/-- What the scheduler of a channel can change: the channel front ends, reads in flight and the stamp counter. -/
def Dev.Sched (s t : Dev) : Prop := ∃ uses reads channels, t = { s with uses, reads, channels }

theorem Dev.Sched.refl (s : Dev) : Dev.Sched s s := ⟨s.uses, s.reads, s.channels, rfl⟩

theorem Dev.Sched.trans {s t u : Dev} (h : Dev.Sched s t) (k : Dev.Sched t u) : Dev.Sched s u := by
  obtain ⟨a, b, c, rfl⟩ := h
  obtain ⟨a', b', c', rfl⟩ := k
  exact ⟨a', b', c', rfl⟩

theorem Dev.Sched.dram {s t : Dev} (h : Dev.Sched s t) : Dev.DramOnly s t := by
  obtain ⟨_, _, _, rfl⟩ := h
  exact ⟨_, s.regs, s.errors, _, _, rfl⟩

theorem Dev.Sched.get {s t : Dev} (h : Dev.Sched s t) (f : Field) : t.get f = s.get f := by
  obtain ⟨_, _, _, rfl⟩ := h
  rfl

theorem Dev.setChannel_sched (s : Dev) (n : Nat) (c : Channel) : Dev.Sched s (s.setChannel n c) :=
  ⟨s.uses, s.reads, _, rfl⟩

theorem Dev.updRead_sched (s : Dev) (no : Nat) (f : DramRead → DramRead) : Dev.Sched s (s.updRead no f) :=
  ⟨s.uses, _, s.channels, rfl⟩

theorem Dev.dramPre_sched (s : Dev) (n t cl : Nat) : Dev.Sched s (s.dramPre n t cl) :=
  (s.setChannel_sched n _).trans (Dev.setChannel_sched _ n _)

theorem Dev.dramAct_sched (s : Dev) (n t cl : Nat) : Dev.Sched s (s.dramAct n t cl) :=
  ((s.setChannel_sched n _).trans (Dev.setChannel_sched _ n _)).trans (Dev.setChannel_sched _ n _)

theorem Dev.dramCol_sched (s : Dev) (n t : Nat) (cmd : DramCmd) (cl : Nat) : Dev.Sched s (s.dramCol n t cmd cl) := by
  unfold Dev.dramCol
  dsimp only
  split
  · exact (s.setChannel_sched n _).trans (Dev.setChannel_sched _ n _)
  · exact s.setChannel_sched n _

theorem Dev.metaBehind_sched (s : Dev) (n t no cl : Nat) : Dev.Sched s (s.metaBehind n t no cl) := by
  unfold Dev.metaBehind
  dsimp only
  split <;> split
  · exact ((s.updRead_sched no _).trans (Dev.dramPre_sched _ _ _ _)).trans (Dev.dramCol_sched _ _ _ _ _)
  · exact (((s.updRead_sched no _).trans (Dev.dramPre_sched _ _ _ _)).trans (Dev.dramAct_sched _ _ _ _)).trans (Dev.dramCol_sched _ _ _ _ _)
  · exact (s.updRead_sched no _).trans (Dev.dramCol_sched _ _ _ _ _)
  · exact ((s.updRead_sched no _).trans (Dev.dramAct_sched _ _ _ _)).trans (Dev.dramCol_sched _ _ _ _ _)

theorem Dev.dramCommand_sched (s : Dev) (n t : Nat) (r : DramReq) : Dev.Sched s (s.dramCommand n t r) := by
  unfold Dev.dramCommand
  dsimp only
  split
  · split
    · exact (s.dramPre_sched n t _).trans (Dev.updRead_sched _ _ _)
    · exact s.dramPre_sched n t _
  · split
    · exact (s.dramAct_sched n t _).trans (Dev.updRead_sched _ _ _)
    · exact s.dramAct_sched n t _
  · split
    · split
      · exact ((s.dramCol_sched n t _ _).trans (Dev.updRead_sched _ _ _)).trans (Dev.metaBehind_sched _ _ _ _ _)
      · exact (s.dramCol_sched n t _ _).trans (Dev.updRead_sched _ _ _)
    · exact (s.dramCol_sched n t _ _).trans (Dev.setChannel_sched _ _ _)

theorem Dev.dramStep_sched {s t : Dev} {n sub : Nat} {lim : Option Nat} (h : s.dramStep n sub lim = some t) : Dev.Sched s t := by
  have put : ∀ (o : Option DramReq) (k : Nat), o.map (fun r => (s.drainSet n).dramCommand n k r) = some t → Dev.Sched s t := by
    intro o k e
    obtain ⟨r, _, rfl⟩ := Option.map_eq_some_iff.1 e
    exact (s.setChannel_sched n _).trans (Dev.dramCommand_sched _ _ _ _)
  have pick : ∀ (c : Bool) (o : Option Dev), (if c = true then none else o) = some t → o = some t := by
    intro c o e
    cases c
    · exact e
    · cases e
  unfold Dev.dramStep at h
  have h := pick _ _ h
  dsimp only at h
  split at h
  · cases h
  · exact put _ _ (pick _ _ h)

/-- The scheduler runs commands of its channel alone. -/
theorem Dev.dramRun_sched (n sub : Nat) (lim : Option Nat) (stop : Dev → Bool) (k : Nat) (s : Dev) :
    Dev.Sched s (s.dramRun n sub lim stop k) := by
  induction k generalizing s with
  | zero => exact .refl s
  | succ k ih =>
    unfold Dev.dramRun
    split
    · exact .refl s
    · split
      · next h => exact (Dev.dramStep_sched h).trans (ih _)
      · exact .refl s

theorem Dev.dramArrive_sched (s : Dev) (n cl : Nat) : Dev.Sched s (s.dramArrive n cl) := s.setChannel_sched n _

theorem Dev.dramQueue_sched (s : Dev) (n cl : Nat) : Dev.Sched s (s.dramQueue n cl) := by
  have reads : ∀ (u : Dev) (r : Tab DramRead), Dev.Sched u { u with reads := r } :=
    fun u r => ⟨u.uses, r, u.channels, rfl⟩
  have step : ∀ (u : Dev) (sub : Nat) (p : Dev → Bool), Dev.Sched u (u.dramRun n sub none p (u.dramFuel n)) :=
    fun u sub p => u.dramRun_sched n sub none p _
  have room : ∀ (c : Bool) (p : Dev → Bool), Dev.Sched s (if c = true then
      [0, 1].foldl (fun u sub => u.dramRun n sub none p (u.dramFuel n)) (s.dramArrive n cl) else s.dramArrive n cl) := by
    intro c p
    cases c
    · exact s.dramArrive_sched n cl
    · exact ((s.dramArrive_sched n cl).trans (step _ 0 p)).trans (step _ 1 p)
  have put : ∀ (u : Dev) (b : Bool) (c : Channel), Dev.Sched u
      (if b = true then u else { u.setChannel n c with uses := u.uses + 1 }) := by
    intro u b c
    cases b
    · exact ⟨_, u.reads, _, rfl⟩
    · exact .refl u
  unfold Dev.dramQueue
  split
  · exact .refl s
  · exact ((room _ _).trans (put _ _ _)).trans (reads _ _)

theorem Dev.histPut_dram (s : Dev) (n key : Nat) (h : HistEntry) : Dev.DramOnly s (s.histPut n key h) :=
  ⟨_, s.regs, s.errors, s.reads, _, rfl⟩

theorem Dev.injStrike_dram (s : Dev) (n cl : Nat) : Dev.DramOnly s (s.injStrike n cl) := by
  unfold Dev.injStrike
  split
  · exact ⟨_, _, _, _, _, rfl⟩
  · exact .refl s

/-- What follows on a write of a DRAM line changes no contents. -/
theorem Dev.dramTouch_dram (s : Dev) (n cl : Nat) : Dev.DramOnly s (s.dramTouch n cl) := by
  unfold Dev.dramTouch
  split
  · exact .refl s
  · exact ((Dev.DramOnly.trans (s.setChannel_sched n _).dram ⟨_, _, _, _, _, rfl⟩).trans (Dev.injStrike_dram _ n cl)).trans
      (Dev.dramQueue_sched _ n cl).dram

/-- A field that no injection changes: neither ECSC.INJ_CTL.ARM nor ECSC.INJ_STS.CONSUMED of a channel, nor ECS.SRAM_INJ.ARM. -/
def Field.steady (f : Field) : Prop := f.lo < 32 ∧ (f.addr < 0x580014 ∨ 0x582000 ≤ f.addr)

theorem Field.steady.ne {f g : Field} (h : f.steady) (hl : g.lo < 32) (l : 0x580014 ≤ g.addr) (u : g.addr < 0x582000) : f.key ≠ g.key := by
  obtain ⟨h1, h2⟩ := h
  unfold Field.key
  omega

theorem Dev.injStrike_get (s : Dev) {n : Nat} (hn : n < 12) (cl : Nat) {f : Field} (h : f.steady) : (s.injStrike n cl).get f = s.get f := by
  unfold Dev.injStrike
  split
  · have a : f.key ≠ (Reg.ECSC.INJ_CTL.ARM n).key := h.ne (by show 0 < 32; omega) (by show _ ≤ 0x581038 + 0x100 * n; omega)
      (by show 0x581038 + 0x100 * n < _; omega)
    have c : f.key ≠ (Reg.ECSC.INJ_STS.CONSUMED n).key := h.ne (by show 0 < 32; omega) (by show _ ≤ 0x581040 + 0x100 * n; omega)
      (by show 0x581040 + 0x100 * n < _; omega)
    exact (Dev.get_set_ne _ c _).trans (Dev.get_set_ne _ a _)
  · rfl

/-- A write of a DRAM line leaves every steady field alone. -/
theorem Dev.dramTouch_get (s : Dev) {n : Nat} (hn : n < 12) (cl : Nat) {f : Field} (h : f.steady) : (s.dramTouch n cl).get f = s.get f := by
  unfold Dev.dramTouch
  split
  · rfl
  · exact ((Dev.dramQueue_sched _ n cl).get f).trans (Dev.injStrike_get _ hn cl h)

theorem Dev.rmTouch_dram (s : Dev) (fn : Nat) : Dev.DramOnly s (s.rmTouch fn) := by
  unfold Dev.rmTouch
  generalize s.rmPlaces fn = l
  induction l generalizing s with
  | nil => exact .refl s
  | cons x r ih => exact (s.dramTouch_dram _ _).trans (ih _)

/-- Writing a line of DRAM keeps the canonical form. -/
theorem Dev.setFrameLn_memWf {s : Dev} (w : s.memWf = true) (fn k : Nat) (l : Ln) : (s.setFrameLn fn k l).memWf = true := by
  unfold Dev.memWf at w ⊢
  rw [Bool.and_eq_true] at w ⊢
  refine ⟨by simpa using Tab.wf_putD w.1 _ _ _, ?_⟩
  have w2 := List.all_eq_true.1 w.2
  refine List.all_eq_true.2 fun x h => ?_
  simp only [Dev.setFrameLn_frames, Tab.putD] at h
  split at h
  · exact w2 x (mem_erase h)
  · next hl =>
    rcases mem_insert h with h | h
    · simpa [h] using hl
    · exact w2 x h

/-- Giving frames up keeps the canonical form. -/
theorem Dev.filter_memWf {s : Dev} (w : s.memWf = true) (p : Nat → Ln → Bool) :
    ({ s with frames := s.frames.filter p } : Dev).memWf = true := by
  unfold Dev.memWf at w ⊢
  rw [Bool.and_eq_true] at w ⊢
  exact ⟨Tab.wf_filter w.1 p, List.all_eq_true.2 fun x h => List.all_eq_true.1 w.2 x (List.mem_filter.1 h).1⟩

/-- The canonical form is a property of the contents alone. -/
theorem Dev.memWf_congr {s t : Dev} (h : t.frames = s.frames) : t.memWf = s.memWf := by unfold Dev.memWf; rw [h]

/-- Giving a frame up drops its lines, and its reverse-map entry. -/
theorem Dev.freeFn_frames (s : Dev) (fn : Nat) : (s.freeFn fn).frames = s.frames.filter fun k _ => k / 64 != fn :=
  (Dev.rmTouch_dram _ fn).keeps.1

theorem Dev.freeFn_memWf {s : Dev} (w : s.memWf = true) (fn : Nat) : (s.freeFn fn).memWf = true :=
  (Dev.memWf_congr (t := s.freeFn fn) (s := { s with frames := s.frames.filter fun k _ => k / 64 != fn }) (s.freeFn_frames fn)).trans
    (Dev.filter_memWf w _)

theorem Dev.reset_memWf : Dev.reset.memWf = true := rfl

/-- A line of DRAM reads back what was written. -/
theorem Dev.frameLn_setFrameLn_same (s : Dev) (fn k : Nat) (l : Ln) : (s.setFrameLn fn k l).frameLn fn k = l :=
  Tab.getD_putD_same s.frames _ _ _

/-- Every other line of DRAM is unchanged. -/
theorem Dev.frameLn_setFrameLn_ne (s : Dev) {fn k gn j : Nat} (hk : k < 64) (hj : j < 64) (h : (gn, j) ≠ (fn, k)) (l : Ln) :
    (s.setFrameLn fn k l).frameLn gn j = s.frameLn gn j := by
  refine Tab.getD_putD_ne s.frames (fun e => h ?_) _ _ _
  have : gn = fn := by omega
  subst this
  exact congrArg _ (by omega)

/-! ## What the device seals -/

/-- A header as the device writes it verifies. -/
theorem ImgHeader.sealed_verifies (key : List Nat) (h : ImgHeader) : (h.sealed key).verifies key = true := (Bool.true_and _).trans (beq_self_eq_true (h.mac key))

/-- A record as the device writes it verifies. -/
theorem RegionLogRec.sealed_verifies (key : List Nat) (r : RegionLogRec) : (r.sealed key).verifies key = true := (Bool.true_and _).trans (beq_self_eq_true (r.mac key))

/-- A record of the referee state log, and a configuration block, verify as the device writes them. -/
theorem RefLog.sealed_verifies (key : List Nat) (r : RefLog) : (r.sealed key).verifies key = true := beq_self_eq_true (r.mac key)

theorem CfgBlock.sealed_verifies (key : List Nat) (c : CfgBlock) : (c.sealed key).verifies key = true := (Bool.true_and _).trans (beq_self_eq_true (c.mac key))

/-- A Row-log record verifies where it was sealed and its slot reads well. -/
theorem RowRec.sealed_verifies (key : List Nat) (r : RowRec) (h : r.tagOk = true) (l : r.lost = false) : (r.sealed key).verifies key = true := by
  simp [RowRec.sealed, RowRec.verifies, RowRec.mac, RowRec.words, h, l]

/-- A record that another key sealed verifies only where its tag happens to agree; one from before a zeroisation never does (R385). -/
theorem CfgBlock.forgotten (key : List Nat) (c : CfgBlock) (h : c.lost = true) : c.verifies key = false := by
  simp [CfgBlock.verifies, h]

end Sys2Proof.Machine
end

