-- ==== Sys2Proof/Laws/Memory.lean ====
section
/-! SUPPORT. What writing the frame map, metadata and DRAM lines can change, said once; and that `settle` changes nothing where nothing
waits. -/

namespace Sys2Proof.Machine

theorem Dev.sramWrite_form (d : Dev) (t p) : ∃ regs flips, d.sramWrite t p = { d with regs, flips } := by
  unfold Dev.sramWrite; dsimp only
  by_cases h : d.flips.has (t * 2 ^ 44 + p) = true
  · rw [if_pos h]; split
    · split <;> exact ⟨_, _, rfl⟩
    · exact ⟨_, _, rfl⟩
  · rw [if_neg h]; split
    · split <;> exact ⟨_, _, rfl⟩
    · exact ⟨d.regs, d.flips, rfl⟩

theorem Dev.sramWrite_get (d : Dev) (t p) {f : Field} (h : f.steady) : (d.sramWrite t p).get f = d.get f := by
  have a : f.key ≠ Reg.ECS.SRAM_INJ.ARM.key := h.ne (by decide) (by decide) (by decide)
  unfold Dev.sramWrite; dsimp only
  by_cases h : d.flips.has (t * 2 ^ 44 + p) = true
  · rw [if_pos h]; split
    · split <;> exact Dev.get_set_ne _ a _
    · rfl
  · rw [if_neg h]; split
    · split <;> exact Dev.get_set_ne _ a _
    · rfl

theorem Dev.sramRead_none (d : Dev) (h : d.flips.list = []) (t p r) : d.sramRead t p r = (d, false) := by
  unfold Dev.sramRead; have : d.flips.get? (t * 2 ^ 44 + p) = none := by unfold Tab.get?; rw [h]; rfl
  rw [this]

theorem Dev.fmcPut_form (d : Dev) (j) : ∃ fresh fmc, d.fmcPut j = { d with fresh, fmc } := by
  unfold Dev.fmcPut; dsimp only
  split
  · exact ⟨d.fresh, d.fmc, rfl⟩
  · split
    · exact ⟨d.fresh, _, rfl⟩
    · exact ⟨_, _, rfl⟩

theorem Dev.fmcPut_get (d : Dev) (j f) : (d.fmcPut j).get f = d.get f := by obtain ⟨_, _, h⟩ := Dev.fmcPut_form d j; rw [h]; rfl

theorem Dev.fmPlace_lt {d : Dev} {j n cl} (h : d.fmPlace j = some (n, cl)) : n < 12 := by
  have mem : ∀ n, n ∈ d.populated → n < 12 := fun n hn => List.mem_range.1 (List.mem_filter.1 hn).1
  unfold Dev.fmPlace at h; dsimp only at h
  cases hp : d.populated[j % d.chanCount]? with
  | none => rw [hp] at h; simp at h
  | some m =>
    rw [hp] at h; dsimp only at h
    split at h
    · rw [Option.map_eq_some_iff] at h
      obtain ⟨a, h1, h2⟩ := h
      have : a ∈ d.populated := (List.mem_filter.1 (List.mem_of_getElem? h1)).1
      simp at h2; rw [← h2.1]; exact mem _ this
    · simp at h; rw [← h.1]; exact mem _ (List.mem_of_getElem? hp)

theorem Dev.setFme_form (d : Dev) (g x) : ∃ fresh uses regs errors fm flips fmc reads channels, d.setFme g x = { d with fresh, uses, regs, errors, fm, flips, fmc, reads, channels } := by
  unfold Dev.setFme
  split
  · exact ⟨d.fresh, d.uses, d.regs, d.errors, d.fm, d.flips, d.fmc, d.reads, d.channels, rfl⟩
  · dsimp only
    obtain ⟨r1, f1, h1⟩ := Dev.sramWrite_form { d with fm := d.fm.putD g x (d.fmeUnlisted g) } flipFm g
    rw [h1]
    obtain ⟨fr, fc, h2⟩ := Dev.fmcPut_form { ({ d with fm := d.fm.putD g x (d.fmeUnlisted g) } : Dev) with regs := r1, flips := f1 } (g / 8)
    rw [h2]
    split
    · next y _ =>
      obtain ⟨_, _, _, _, _, h3⟩ := Dev.dramTouch_dram ({ ({ ({ d with fm := d.fm.putD g x (d.fmeUnlisted g) } : Dev) with regs := r1, flips := f1 } : Dev) with fresh := fr, fmc := fc }) y.1 y.2
      rw [h3]; exact ⟨_, _, _, _, _, _, _, _, _, rfl⟩
    · exact ⟨_, _, _, _, _, _, _, _, _, rfl⟩

theorem Dev.setFme_get (d : Dev) (g x) {f : Field} (h : f.steady) : (d.setFme g x).get f = d.get f := by
  unfold Dev.setFme; split
  · rfl
  · dsimp only; split
    · next y hy => exact (Dev.dramTouch_get _ (Dev.fmPlace_lt hy) _ h).trans ((Dev.fmcPut_get _ _ _).trans (Dev.sramWrite_get _ _ _ h))
    · exact (Dev.fmcPut_get _ _ _).trans (Dev.sramWrite_get _ _ _ h)

theorem Dev.setFme_fm (d : Dev) (g x) : (d.setFme g x).fm = (if d.fme g = x then d.fm else d.fm.putD g x (d.fmeUnlisted g)) := by
  unfold Dev.setFme; split
  · rfl
  · dsimp only
    obtain ⟨r1, f1, h1⟩ := Dev.sramWrite_form { d with fm := d.fm.putD g x (d.fmeUnlisted g) } flipFm g
    rw [h1]
    obtain ⟨fr, fc, h2⟩ := Dev.fmcPut_form { ({ d with fm := d.fm.putD g x (d.fmeUnlisted g) } : Dev) with regs := r1, flips := f1 } (g / 8)
    rw [h2]
    split
    · next y _ =>
      obtain ⟨_, _, _, _, _, h3⟩ := Dev.dramTouch_dram ({ ({ ({ d with fm := d.fm.putD g x (d.fmeUnlisted g) } : Dev) with regs := r1, flips := f1 } : Dev) with fresh := fr, fmc := fc }) y.1 y.2
      rw [h3]
    · rfl

theorem Dev.imageDrives_congr {d u : Dev} (h1 : u.imageMask = d.imageMask) (h2 : u.get Reg.NVH.IMG_CFG.DRIVE_MASK = d.get Reg.NVH.IMG_CFG.DRIVE_MASK) : u.imageDrives = d.imageDrives := by
  unfold Dev.imageDrives; rw [h1, h2]

theorem Dev.setFme_drives (d : Dev) (g x) : (d.setFme g x).imageDrives = d.imageDrives := by
  refine Dev.imageDrives_congr ?_ (Dev.setFme_get d g x (by constructor <;> decide))
  obtain ⟨_,_,_,_,_,_,_,_,_,e⟩ := Dev.setFme_form d g x; rw [e]

theorem Dev.setFme_fme (d : Dev) (g x h) : (d.setFme g x).fme h = if h = g then x else d.fme h := by
  have e1 : (d.setFme g x).fmeUnlisted h = d.fmeUnlisted h := by
    unfold Dev.fmeUnlisted Dev.regionAt; rw [Dev.setFme_drives]
    obtain ⟨_,_,_,_,_,_,_,_,_,e⟩ := Dev.setFme_form d g x; rw [e]
  unfold Dev.fme; rw [Dev.setFme_fm, e1]
  by_cases hx : d.fme g = x
  · rw [if_pos hx]
    by_cases hh : h = g
    · subst hh; rw [if_pos rfl]; exact hx
    · rw [if_neg hh]
  · rw [if_neg hx]
    by_cases hh : h = g
    · subst hh; rw [if_pos rfl]
      have := Tab.getD_putD_same d.fm h x (d.fmeUnlisted h)
      unfold Tab.getD at this
      cases hc : (d.fm.putD h x (d.fmeUnlisted h)).get? h with
      | none => rw [hc] at this; exact this
      | some y => rw [hc] at this; exact this
    · rw [if_neg hh]
      have : (d.fm.putD g x (d.fmeUnlisted g)).get? h = d.fm.get? h := by
        unfold Tab.putD; split
        · exact Tab.get?_del_ne _ hh
        · exact Tab.get?_put_ne _ hh _
      rw [this]

theorem setBits_lt {n v i p : Nat} (h : (setBits n v)[i]? = some p) : p < n := by
  have := List.mem_of_getElem? h; unfold setBits at this; exact List.mem_range.1 (List.mem_filter.1 this).1

theorem Dev.fme_congr (d u : Dev) (h1 : u.fm = d.fm) (h2 : u.lostMaps = d.lostMaps) (h3 : u.regions = d.regions) (h4 : u.imageDrives = d.imageDrives) (g) : u.fme g = d.fme g := by
  unfold Dev.fme Dev.fmeUnlisted Dev.regionAt; rw [h1, h2, h3, h4]

theorem Dev.stamp_form (d : Dev) (g b) : ∃ fresh uses regs errors fm flips fmc reads channels, d.stamp g b = { d with fresh, uses, regs, errors, fm, flips, fmc, reads, channels } := by
  unfold Dev.stamp; dsimp only; split
  · exact ⟨d.fresh, d.uses, d.regs, d.errors, d.fm, d.flips, d.fmc, d.reads, d.channels, rfl⟩
  · exact Dev.setFme_form _ _ _

theorem Dev.overcommit_books (d : Dev) (b) : Dev.Books d (d.overcommit b) := by
  unfold Dev.overcommit; dsimp only; split
  · exact (Dev.setBit_books _ _ _).trans (Dev.raise_books _ _)
  · exact Dev.setBit_books _ _ _

theorem Tab.has_put {α} (t : Tab α) (k v w) (h : t.has w = true) : (t.put k v).has w = true := by
  unfold Tab.has at *
  by_cases e : w = k
  · subst e; rw [Tab.get?_put_same]; rfl
  · rw [Tab.get?_put_ne _ e]; exact h

/-- What a write of a line whose metadata word is cached leaves alone. -/
def Dev.Wrote (d u : Dev) : Prop := (∃ frames uses regs errors reads channels flips mdc, u = { d with frames, uses, regs, errors, reads, channels, flips, mdc }) ∧
  ∀ w, d.mdc.has w = true → u.mdc.has w = true

theorem Dev.Wrote.refl (d) : Dev.Wrote d d := ⟨⟨d.frames,d.uses,d.regs,d.errors,d.reads,d.channels,d.flips,d.mdc,rfl⟩, fun _ h => h⟩

theorem Dev.Wrote.trans {a b c} (h : Dev.Wrote a b) (g : Dev.Wrote b c) : Dev.Wrote a c := by
  obtain ⟨⟨_,_,_,_,_,_,_,_,rfl⟩, h⟩ := h; obtain ⟨⟨a1,a2,a3,a4,a5,a6,a7,a8,rfl⟩, g⟩ := g
  exact ⟨⟨a1,a2,a3,a4,a5,a6,a7,a8,rfl⟩, fun w hw => g w (h w hw)⟩

theorem Dev.metaWrite_wrote (d : Dev) (fn k l) (h : d.mdc.has ((fn * 64 + k) / 2) = true) : Dev.Wrote d (d.metaWrite fn k l) ∧ (d.metaWrite fn k l).frames = (d.setFrameLn fn k l).frames := by
  unfold Dev.metaWrite; dsimp only; rw [h]; simp only [if_true]
  unfold Dev.mdcPut; dsimp only
  have h' : (d.setFrameLn fn k l).mdc.has ((fn * 64 + k) / 2) = true := h
  rw [h']; simp only [Bool.true_or, if_true]
  obtain ⟨r, f, e⟩ := Dev.sramWrite_form { d.setFrameLn fn k l with mdc := (d.setFrameLn fn k l).mdc.put ((fn * 64 + k) / 2) true } flipMdc ((fn * 64 + k) / 2)
  rw [e]
  exact ⟨⟨⟨_,_,_,_,_,_,_,_,rfl⟩, fun w hw => Tab.has_put _ _ _ _ hw⟩, rfl⟩

theorem Dev.dramWrite_wrote (d : Dev) (fn k l) (h : d.mdc.has ((fn * 64 + k) / 2) = true) : Dev.Wrote d (d.dramWrite fn k l) ∧ (d.dramWrite fn k l).frames = (d.setFrameLn fn k l).frames := by
  obtain ⟨w, f⟩ := Dev.metaWrite_wrote d fn k l h
  unfold Dev.dramWrite; dsimp only
  split
  · next n _ => 
    obtain ⟨a1,a2,a3,a4,a5,e⟩ := Dev.dramTouch_dram (d.metaWrite fn k l) n ((d.metaWrite fn k l).chanLine fn k)
    rw [e]
    exact ⟨w.trans ⟨⟨_,_,_,_,_,_,_,_,rfl⟩, fun _ h => h⟩, f⟩
  · exact ⟨w, f⟩

theorem Dev.frameLn_congr {d u : Dev} (h : u.frames = d.frames) (fn k) : u.frameLn fn k = d.frameLn fn k := by unfold Dev.frameLn; rw [h]

/-! ## Where nothing waits -/

theorem filter_nil {α} {p : α → Bool} {l : List α} (h : ∀ x ∈ l, p x = false) : l.filter p = [] := List.filter_eq_nil_iff.2 fun x hx => by rw [h x hx]; decide

theorem lcPump_calm {d : Dev} (h : calm d) : d.lcPump = d := by
  obtain ⟨_, _, _, _, _, _, _, _, _, _, _, _, h⟩ := h
  unfold Dev.lcPump; rw [filter_nil fun x hx => by have := h x hx; revert this; cases x.2.place <;> simp]; rfl

theorem retryFills_calm {d : Dev} (h : calm d) : d.retryFills = d := by
  obtain ⟨_, _, _, _, _, _, _, _, _, _, h, _, _⟩ := h
  unfold Dev.retryFills; dsimp only; rw [filter_nil fun x hx => by have := h x hx; revert this; cases x.2.frame <;> simp]; rfl

theorem retryAlloc_calm {d : Dev} (h : calm d) : d.retryAlloc = d := by
  have e : ({ d with allocWait := [] } : Dev) = d := by have := h.1; obtain ⟨⟩ := d; simp at this; subst this; rfl
  have w : d.waits.keys = [] := by unfold Tab.keys; rw [h.2.2.2.2.2.1]; rfl
  unfold Dev.retryAlloc; rw [h.1, e]; dsimp only [List.foldl]; rw [retryFills_calm h, w]; dsimp only [List.foldl]; rw [w]; rfl

theorem replay_calm {d : Dev} (h : calm d) : d.replay = d := by
  have r := h.2.1
  have e : ({ d with rteWait := [] } : Dev) = d := by obtain ⟨⟩ := d; simp at r; subst r; rfl
  unfold Dev.replay; rw [e, r]; rfl

theorem linkPump_calm {d : Dev} (h : calm d) : d.linkPump = d := by
  have r := h.2.2.1
  have e : ({ d with linkWait := [] } : Dev) = d := by obtain ⟨⟩ := d; simp at r; subst r; rfl
  unfold Dev.linkPump; rw [e, r]; rfl

theorem copyPump_calm {d : Dev} (h : calm d) : d.copyPump = d := by unfold Dev.copyPump; rw [h.2.2.2.1]; rfl

theorem hintPump_calm {d : Dev} (h : calm d) : d.hintPump = d := by unfold Dev.hintPump; rw [h.2.2.2.2.1]; rfl

theorem serveTwin_calm {d : Dev} (h : calm d) : d.serveTwin = d := by
  have r := h.2.2.2.2.2.2.1
  unfold Dev.serveTwin; dsimp only; rw [r]; dsimp only [List.filter, List.foldl]; rw [← r]

theorem persist_calm {d : Dev} (h : calm d) : d.persistCheck = d := by
  have r := h.2.2.2.2.2.2.2.1
  unfold Dev.persistCheck; dsimp only; rw [r]; dsimp only [List.filter, List.foldl]; rw [← r]

theorem gpf_calm {d : Dev} (h : calm d) : d.gpfCheck = d := by
  have r := h.2.2.2.2.2.2.2.2.1
  unfold Dev.gpfCheck; dsimp only; rw [persist_calm h, r]; dsimp only [List.filter, List.foldl]; rw [← r]

theorem uncount_calm {d : Dev} (h : calm d) : d.uncountIdle = d := by
  obtain ⟨_, _, _, _, _, _, _, _, _, _, _, h, _⟩ := h
  unfold Dev.uncountIdle; rw [filter_nil fun x hx => by have := h x hx; revert this; cases x.2.lines <;> simp]; rfl

theorem wab_calm {d : Dev} (h : calm d) : d.wabCheck = d := by
  have r := h.2.1; have w := h.2.2.2.2.2.2.2.2.2.1
  unfold Dev.wabCheck; dsimp only; rw [r, w]; dsimp only [List.any]; simp only [Bool.false_eq_true, if_false]; rw [← w]

theorem settle_calm {d : Dev} (h : calm d) : d.settle = d := by
  unfold Dev.settle
  rw [lcPump_calm h, retryAlloc_calm h, replay_calm h, linkPump_calm h, copyPump_calm h, hintPump_calm h, serveTwin_calm h, gpf_calm h, uncount_calm h, wab_calm h]

/-- what `calm` reads of the device is the same -/
theorem calm_congr {d e : Dev} (h : calm d) (h1 : e.allocWait = d.allocWait) (h2 : e.rteWait = d.rteWait) (h3 : e.linkWait = d.linkWait)
  (h4 : e.copies = d.copies) (h5 : e.hints = d.hints) (h6 : e.waits = d.waits) (h7 : e.mirror = d.mirror) (h8 : e.wabSince = d.wabSince)
  (h9 : e.fills = d.fills) (h10 : e.dirty = d.dirty) (h11 : e.lc = d.lc) : calm e := by
  unfold calm; rw [h1, h2, h3, h4, h5, h6, h7, h8, h9, h10, h11]; exact h

theorem calm_books {d e : Dev} (h : calm d) (b : Dev.Books d e) : calm e := by
  obtain ⟨_,_,_,_,rfl⟩ := b; exact h

theorem calm_del {d : Dev} (h : calm d) (g) : calm { d with fills := d.fills.del g } := by
  obtain ⟨a1,a2,a3,a4,a5,a6,a7,a8,a9,a10,a11,a12,a13⟩ := h
  exact ⟨a1,a2,a3,a4,a5,a6,a7,a8,a9,a10,fun z hz => a11 z (mem_erase hz),a12,a13⟩

theorem calm_wrote {d u : Dev} (h : calm d) (w : Dev.Wrote d u) : calm u := by obtain ⟨⟨_,_,_,_,_,_,_,_,rfl⟩,-⟩ := w; exact h

theorem setFme_calm {d : Dev} (h : calm d) (g x) : calm (d.setFme g x) := by
  obtain ⟨_,_,_,_,_,_,_,_,_,e⟩ := Dev.setFme_form d g x; rw [e]; exact h

end Sys2Proof.Machine
end

