-- ==== Sys2Proof/Tests/Slice0.lean ====
section
/-! SUPPORT. Tests of the model on small states: ill-formed commands that the check refuses, worked examples of the spec, and for every
statement with hypotheses a state and operands that meet them (`witness_<statement>`, one group of conjuncts per clause). -/

namespace Sys2Proof.Tests
open Sys2Proof Sys2Proof.Machine
set_option maxRecDepth 4000
set_option exponentiation.threshold 700

/-! ## States that the tests share -/

/-- The machine after its first power with another device. -/
def at_ (d : Dev) : State := { State.reset with dev := d }

/-- A region of one extent, attached to LD 0. -/
def reg0 : Region :=
  { base := 0, size := 1, tenant := 0, slot := none, twin := false, mirror := false, policy := 0, gen := 1, attached := [0] }

/-- Port 0 with its one head up, two LDs, region 0 attached to LD 0 and decoded at host address 0. -/
def hosted : Dev :=
  let d := (Dev.reset.setBit (Reg.HP.PORT_CFG.ENABLE 0) true).set (Reg.HP.HEAD_CFG.LD_CNT 0 0) 2
  let d := (d.set (Reg.HP.LINK_STS.RATE 0 0) 5).set (Reg.HP.LINK_STS.WIDTH 0 0) 16
  let d := (d.setBit (Reg.HP.LINK_STS.MEM_EN 0 0) true).setBit (Reg.HP.LINK_STS.MEM_ACTIVE 0 0) true
  let l : Ld := { decoders := ⟨[(0, { size := 2 ^ 30, committed := true })]⟩, extents := ⟨[(0, 1)]⟩ }
  { d with regions := ⟨[(0, reg0)]⟩, gens := ⟨[(0, 1)]⟩, lds := ⟨[(0, l)]⟩ }

/-! ## Witnesses: the queue, the fuses and the stores -/

/-- A COMMIT waits for VDD_FUSE, and the running image has versions 5 and 7. -/
def fusing : State :=
  let i : Island := { running := { wsvn := 5, asvn := 7 } }
  at_ { Dev.reset with psq := { fuse := true }, island := i }

theorem witness_StepRunsFrontCommand : ∃ t, exec (.vddFuseRequest true) fusing = .next t := ⟨_, rfl⟩
theorem witness_EmptyQueueLetsTimePass : State.reset.pending = [] := rfl
theorem witness_EveryQueueIsCarriedOut : 0 ≤ (fusing.offer .vaonLow).pending.length ∧ 1 ≤ (fusing.offer .vaonLow).pending.length := by decide
theorem witness_CommandsIgnoreTheQueueAndTheLog : let u := fusing.offer .vaonLow
    fusing.dev = u.dev ∧ fusing.fuses = u.fuses ∧ fusing.pending ≠ u.pending := ⟨rfl, rfl, fun h => absurd (congrArg List.length h) (by decide)⟩
theorem witness_SentStaysSent : ∃ t, Host.Core.run core 2 (fusing.offer (.vddFuseRequest true)) = .next t := ⟨_, rfl⟩
theorem witness_StepLeavesNoOutputBehind : ∃ t, step (fusing.offer (.vddFuseRequest true)) = .next t ∧ quiet t := ⟨_, rfl, rfl⟩
theorem witness_FuseVersionsNeverFall : let s := fusing.offer (.vddFuseRequest true)
    ∃ t, step s = .next t ∧ fuseRange s ∧ t.fuses ≠ s.fuses :=
  ⟨_, rfl, by unfold fuseRange; decide, by decide⟩
theorem witness_WaitingCommandsStayWellFormed : let s := fusing.offer (.vddFuseRequest true)
    ∃ t, step s = .next t ∧ s.pending.all Instr.wf = true := ⟨_, rfl, by decide⟩
theorem witness_DramLineWriteReadsBack :
    (63 : Nat) < 64 ∧ ((5, 0) : Nat × Nat) ≠ (5, 63) ∧ (Dev.reset.setFrameLn 5 63 { st := .dirty }).memWf = true := by decide
theorem witness_FieldAndEventFrame : Reg.PSQ.STS.STATE.key ≠ Reg.PSQ.STS.STEP.key ∧
    Reg.PSQ.STS.STATE.key ≠ Reg.ROW.LOST.COUNT.key ∧ Reg.PSQ.STS.STATE.key ≠ Reg.ROW.LOST.SAT.key := by decide

/-! ## Witnesses: mailboxes and the Fabric Manager -/

theorem witness_MailboxReportsAnswer :
    quiet (at_ hosted) ∧ hosted.mboxOn 0 = true ∧ hosted.allAttached 0 0 1 = true ∧ hosted.allAttached 0 (512 * 64) 1 = false := by
  and_intros <;> first | decide | rfl
theorem witness_MailboxWritesItsLd : quiet (at_ hosted) ∧ hosted.mboxOn 1 = true ∧ (0 : Nat) ≠ 1 := by
  and_intros <;> first | decide | rfl
theorem witness_ClosedMailboxTakesNothing : quiet (at_ hosted) ∧ hosted.mboxOn 2 = false := by
  and_intros <;> first | decide | rfl
theorem witness_MailboxPoison : quiet (at_ hosted) ∧ hosted.mboxOn 0 = true ∧ hosted.regionAt (granOf 5) = some (0, reg0) ∧
    hosted.headOfGld 0 = some 0 ∧ reg0.attached.contains 0 = true ∧ hosted.mboxOn 1 = true ∧ hosted.headOfGld 1 = some 0 ∧
    reg0.attached.contains 1 = false := by
  and_intros <;> first | decide | rfl

/-- An open offer of region 0 to LD 1 by the Fabric Manager, and a release of region 0 pending at LD 0. -/
def offering : Dev :=
  let o : Offer := { gen := 1, opened := 0, issuer := .fm }
  let p : PendingRelease := { gen := 1, opened := 0, forced := false }
  (hosted.setLd 1 { offers := ⟨[(0, o)]⟩ }).setLd 0 { hosted.ld 0 with releases := ⟨[(0, p)]⟩ }
theorem witness_CapacityChangesHands :
    let o : Offer := { gen := 1, opened := 0, issuer := .fm }
    quiet (at_ offering) ∧ offering.mboxOn 1 = true ∧ offering.mboxOn 0 = true ∧
    offering.offerAt 1 0 (2 ^ 21) = some (0, o) ∧ offering.oldestOffer 1 = some (0, o) ∧
    (offering.regions.list.find? fun e => e.2.base * 2 ^ 21 == 0 && e.2.size * 2 ^ 21 == 2 ^ 21) = some (0, reg0) ∧
    reg0.attached.contains 0 = true ∧ (offering.ld 1).offers.get? 0 = some o ∧ o.issuer = .fm ∧
    (offering.ld 0).releases.get? 0 = some { gen := 1, opened := 0, forced := false } := by
  and_intros <;> first | decide | rfl
theorem witness_FmReportsAnswer : quiet (at_ hosted) ∧ hosted.fmOn 16 = true ∧ hosted.fmOn 0 = true ∧ (15 : Nat) < 16 ∧ (63 : Nat) < 64 := by
  and_intros <;> first | decide | rfl
theorem witness_FmChangesAnswer : quiet (at_ hosted) ∧ hosted.fmOn 16 = true ∧ (100 : Nat) ≤ 100 ∧ (100 : Nat) < 101 ∧ (99 : Nat) < 100 ∧
    (255 : Nat) < 256 ∧ (63 : Nat) < 64 ∧ (7 : Nat) < 8 ∧ (0 : Nat) ≠ 2 ^ 21 := by
  and_intros <;> first | decide | rfl
theorem witness_FmMovesCapacityAndTunnels :
    quiet (at_ hosted) ∧ hosted.fmOn 16 = true ∧ hosted.regions.get? 0 = some reg0 ∧ (1 : Nat) < 64 ∧
    (let r : Region := { reg0 with attached := [] }
     let d : Dev := { hosted with regions := ⟨[(0, r)]⟩ }
     let i : Island := { store := { bind := ⟨[(1, 0)]⟩ } }
     d.regions.get? 0 = some r ∧ ({ d with island := i } : Dev).offerFault 1 0 r = none) ∧
    reg0.attached.contains 0 = true ∧ (hosted.ld 0).releases.has 0 = false ∧ hosted.headOn 0 = true ∧ 2 ≤ hosted.ldCnt 0 := by
  and_intros <;> first | decide | rfl

/-! ## Witnesses: the Stitcher -/

/-- Engine 0 RUNNING at stitch 0 of a pattern of 2, the word at 0 being `w`. -/
def stitching (w : BitVec 64) : Dev :=
  let d := (hosted.set (Reg.ENG.STS.STATE 0) 2).set (Reg.ENG.STS.LEN 0) 2
  { d with engines := ⟨[(0, { pattern := ⟨[(0, w)]⟩ })]⟩ }
/-- The word of an opcode with further bits. -/
def word (op rest : Nat) : BitVec 64 := BitVec.ofNat 64 (op * 2 ^ 58 + rest)
theorem atStitch_stitching (op rest : Nat) (h : (stitching (word op rest)).engState 0 = 2 ∧ (stitching (word op rest)).engPc 0 <
    (stitching (word op rest)).engLen 0 ∧ opOf (word op rest) = op) : atStitch (at_ (stitching (word op rest))) 0 op (word op rest) :=
  ⟨⟨by decide, h.1, h.2.1, rfl, h.2.2⟩, Nat.le_refl 0⟩

theorem witness_StitchWritesItsRegister : quiet (at_ (stitching (word 2 7))) ∧ (0 : Nat) ≠ 2 ∧ (1 : Nat) ≠ 2 ∧
    atStitch (at_ (stitching (word 0x02 7))) 0 0x02 (word 0x02 7) ∧ atStitch (at_ (stitching (word 0x03 7))) 0 0x03 (word 0x03 7) ∧
    atStitch (at_ (stitching (word 0x04 0))) 0 0x04 (word 0x04 0) ∧ atStitch (at_ (stitching (word 0x09 0))) 0 0x09 (word 0x09 0) :=
  ⟨rfl, by decide, by decide, atStitch_stitching _ _ (by decide), atStitch_stitching _ _ (by decide), atStitch_stitching _ _ (by decide),
    atStitch_stitching _ _ (by decide)⟩
theorem witness_StitchSteersItsEngine : quiet (at_ (stitching (word 0 0))) ∧ (0 : Nat) ≠ 2 ∧
    atStitch (at_ (stitching (word 0x00 0))) 0 0x00 (word 0x00 0) ∧ atStitch (at_ (stitching (word 0x01 0))) 0 0x01 (word 0x01 0) ∧
    atStitch (at_ (stitching (word 0x05 0))) 0 0x05 (word 0x05 0) ∧ atStitch (at_ (stitching (word 0x06 0))) 0 0x06 (word 0x06 0) :=
  ⟨rfl, by decide, atStitch_stitching _ _ (by decide), atStitch_stitching _ _ (by decide), atStitch_stitching _ _ (by decide),
    atStitch_stitching _ _ (by decide)⟩
theorem witness_StitchWritesTagDeadlineNote : quiet (at_ (stitching (word 7 0))) ∧ (0 : Nat) ≠ 2 ∧
    atStitch (at_ (stitching (word 0x07 0))) 0 0x07 (word 0x07 0) ∧ atStitch (at_ (stitching (word 0x08 0))) 0 0x08 (word 0x08 0) ∧
    atStitch (at_ (stitching (word 0x0A 9))) 0 0x0A (word 0x0A 9) :=
  ⟨rfl, by decide, atStitch_stitching _ _ (by decide), atStitch_stitching _ _ (by decide), atStitch_stitching _ _ (by decide)⟩

/-- Engine 0 with a watch 0 that has or has not fired, and this doorbell queue. -/
def watching (w : BitVec 64) (fired : Bool) (fifo : List Nat) : Dev :=
  let v : Watch := { region := 0, gen := 1, first := 0, stop := 1, armed := !fired, fired }
  { stitching w with engines := ⟨[(0, { pattern := ⟨[(0, w)]⟩, watches := ⟨[(0, v)]⟩, fifo })]⟩ }
theorem witness_StitchWaits :
    let mask := 2 ^ 40
    quiet (at_ (watching (word 0x0E 0) false [])) ∧ (0 : Nat) ≠ 2 ∧
    atStitch (at_ (watching (word 0x0E 0) false [3])) 0 0x0E (word 0x0E 0) ∧ ((watching (word 0x0E 0) false [3]).engine 0).fifo = 3 :: [] ∧
    atStitch (at_ (watching (word 0x0E 0) false [])) 0 0x0E (word 0x0E 0) ∧ ((watching (word 0x0E 0) false []).engine 0).fifo = [] ∧
    atStitch (at_ (watching (word 0x0F mask) true [])) 0 0x0F (word 0x0F mask) ∧ (0 : Nat) < 8 ∧
    (fieldOf (word 0x0F mask) 47 40).testBit 0 = true ∧
    ((watching (word 0x0F mask) true []).engine 0).watches.get? 0 =
      some { region := 0, gen := 1, first := 0, stop := 1, armed := false, fired := true } ∧
    (∀ j, j < 0 → (fieldOf (word 0x0F mask) 47 40).testBit j = true → ∀ u, ((watching (word 0x0F mask) true []).engine 0).watches.get? j =
      some u → u.fired = false) ∧
    atStitch (at_ (watching (word 0x0F mask) false [])) 0 0x0F (word 0x0F mask) ∧
    (∀ j, j < 8 → (fieldOf (word 0x0F mask) 47 40).testBit j = true → ∀ u, ((watching (word 0x0F mask) false []).engine 0).watches.get? j =
      some u → u.fired = false) ∧
    atStitch (at_ (stitching (word 0x10 0))) 0 0x10 (word 0x10 0) ∧
    atOrAfter 32 (stitching (word 0x10 0)).tnow (((stitching (word 0x10 0)).reg 0 (stS (word 0x10 0))).toNat % 2 ^ 32) = true ∧
    (let d := (stitching (word 0x10 0)).setReg 0 0 5
     atStitch (at_ d) 0 0x10 (word 0x10 0) ∧ atOrAfter 32 d.tnow ((d.reg 0 (stS (word 0x10 0))).toNat % 2 ^ 32) = false) := by
  have hit : ∀ d w op, d.engState 0 = 2 ∧ d.engPc 0 < d.engLen 0 ∧ (d.engine 0).pattern.getD (d.engPc 0) 0 = w ∧ opOf w = op →
      (d.engine 0).ready = 0 →
      atStitch (at_ d) 0 op w := fun d w op h r => ⟨⟨Nat.zero_lt_succ 15, h⟩, Nat.le_trans (Nat.le_of_eq r) (Nat.zero_le _)⟩
  refine ⟨rfl, by decide, hit _ _ _ (by decide) rfl, rfl, hit _ _ _ (by decide) rfl, rfl, hit _ _ _ (by decide) rfl, by decide, by decide, by decide,
    fun j h => absurd h (Nat.not_lt_zero j), hit _ _ _ (by decide) rfl, ?_, hit _ _ _ (by decide) rfl, by decide, hit _ _ _ (by decide) rfl, by decide⟩
  intro j hj hb u hu
  by_cases h0 : j = 0
  · subst h0; exact (Option.some.inj hu) ▸ rfl
  · have : ((watching (word 0x0F (2 ^ 40)) false []).engine 0).watches.get? j = none := by
      show Tab.get? ⟨[(0, _)]⟩ j = none
      simp [Tab.get?, Tab.find, Ne.symm h0]
    exact absurd (this.symm.trans hu) (by simp)
theorem witness_UncorrectableWordFaults : quiet (at_ (stitching (word 2 7))) ∧ atStitch (at_ (stitching (word 2 7))) 0 0x02 (word 2 7) :=
  ⟨rfl, atStitch_stitching _ _ (by decide)⟩

/-- Engine 0 with one stream that can issue, and one that was refused. -/
def streaming : Dev :=
  let x : Stream := { id := 0, act := none, urg := false, pin := false, ageBias := 0, region := 0, gen := 1, next := 0, stop := 4, lt := 0, dl := 0, pc := 0 }
  { stitching (word 0 0) with engines := ⟨[(0, { streams := ⟨[(0, x), (1, { x with id := 1, retry := some (0, 9) })]⟩ })]⟩ }
theorem witness_StitchStreams :
    let x : Stream := { id := 0, act := none, urg := false, pin := false, ageBias := 0, region := 0, gen := 1, next := 0, stop := 4, lt := 0, dl := 0, pc := 0 }
    let n := 512 * 2 ^ 20
    let w := word 0x0D n
    quiet (at_ streaming) ∧ atStitch (at_ (stitching (word 0x0B n))) 0 0x0B (word 0x0B n) ∧
    atStitch (at_ (stitching (word 0x0C n))) 0 0x0C (word 0x0C n) ∧
    (∃ d, (stitching w).stitchRegion 0 (fieldOf w 51 40) = some (reg0, d) ∧ freeSlotOf (d.engine 0) = some 0 ∧
      (fieldOf w 39 20) + (d.reg 0 (stS w)).toNat ≤ reg0.size * 512 ∧ 0 < fieldOf w 39 20) ∧
    atStitch (at_ (stitching w)) 0 0x0D w ∧ (0 : Nat) < 16 ∧
    ((streaming.engine 0).streams.list.find? fun x => x.2.retry.isNone) = some (0, x) ∧
    (streaming.engine 0).streams.get? 1 = some { x with id := 1, retry := some (0, 9) } :=
  ⟨rfl, atStitch_stitching _ _ (by decide), atStitch_stitching _ _ (by decide), ⟨_, rfl, by decide, by decide, by decide⟩,
    atStitch_stitching _ _ (by decide), by decide, by decide, by decide⟩
theorem witness_WaitsEnd :
    let d := watching (word 0x0E 0) true []
    let full := List.replicate 16 0
    quiet (at_ d) ∧ (0 : Nat) < 16 ∧ (d.set (Reg.ENG.STS.STATE 0) 3).engState 0 = 3 ∧ ((d.set (Reg.ENG.STS.STATE 0) 3).engine 0).fifo = [] ∧
    d.engState 0 = 2 ∧ (d.engine 0).fifo.length < 16 ∧ 16 ≤ ((watching 0 false full).engine 0).fifo.length ∧
    (watching 0 false full).engState 0 = 2 ∧ (d.set (Reg.ENG.STS.STATE 0) 5).engState 0 = 5 ∧
    (let u := (d.set (Reg.ENG.STS.STATE 0) 4).setEngine 0 { d.engine 0 with waitMask := 1 }
     u.engState 0 = 4 ∧ (∃ v, (u.engine 0).watches.get? 0 = some v ∧ v.fired = true) ∧ (u.engine 0).waitMask = 2 ^ 0) ∧
    (let u := (d.set (Reg.ENG.STS.STATE 0) 3).setEngine 0 { d.engine 0 with waitTimeout := 5 }
     (u.engine 0).waitTimeout ≠ 0 ∧ u.engState 0 = 3) ∧
    (let u := (d.set (Reg.ENG.STS.STATE 0) 4).setEngine 0 { d.engine 0 with waitTimeout := 5 }
     (u.engine 0).waitTimeout ≠ 0 ∧ u.engState 0 = 4 ∧ u.takeWatch 0 (u.engine 0).waitReg (u.engine 0).waitMask = none) := by
  refine ⟨rfl, ?_, ?_, ?_, ?_, ?_, ?_, ?_, ?_, ⟨?_, ⟨_, rfl, rfl⟩, ?_⟩, ⟨?_, ?_⟩, ⟨?_, ?_, ?_⟩⟩ <;> first | decide | rfl

/-- An engine that its last stitch still occupies; and one with no stream slot free. -/
theorem witness_StitchSteersItsEngine_busy :
    let d : Dev := { stitching (word 0 0) with engines := ⟨[(0, { pattern := ⟨[(0, word 0 0)]⟩, ready := 5 })]⟩ }
    comesTo (at_ d) 0 0 (word 0 0) ∧ d.clock < (d.engine 0).ready ∧ (0, Instr.nop 0 0) ∈ stitchesOf 0 0 :=
  ⟨⟨Nat.zero_lt_succ 15, by decide, by decide, rfl, by decide⟩, by decide, by decide⟩
theorem witness_StitchStreams_slots :
    let x : Stream := { id := 0, act := none, urg := false, pin := false, ageBias := 0, region := 0, gen := 1, next := 0, stop := 4, lt := 0, dl := 0, pc := 0 }
    let w := word 0x0B (512 * 2 ^ 20)
    let l := (List.range 8).map fun k => (k, x)
    let full : Dev := { stitching w with engines := ⟨[(0, { pattern := ⟨[(0, w)]⟩, streams := ⟨l⟩ })]⟩ }
    makes (at_ full) 0 0 w reg0 (.fetch 0 0) (streamOf (at_ full) 0 w reg0 none (fieldOf w 19 19 == 1) (fieldOf w 18 18 == 1) (fieldOf w 15 0)) ∧
    usable (at_ full) 0 (fieldOf w 51 40) reg0 ∧ freeSlotOf (full.engine 0) = none ∧
    (∀ r, ¬ usable (at_ (stitching (word 0x0B (2 ^ 40)))) 0 (fieldOf (word 0x0B (2 ^ 40)) 51 40) r) ∧
    atStitch (at_ (stitching (word 0x0B (2 ^ 40)))) 0 0x0B (word 0x0B (2 ^ 40)) := by
  refine ⟨.inl ⟨rfl, ⟨⟨Nat.zero_lt_succ 15, by decide, by decide, rfl, by decide⟩, Nat.le_refl 0⟩, rfl⟩,
    ⟨by decide, rfl, .inr (.inr (by decide)), fun g h => ?_⟩, by decide, fun r h => ?_, atStitch_stitching _ _ (by decide)⟩
  · have : (none : Option Nat) = some g := h
    cases this
  · have h1 := h.1
    have : (none : Option Region) = some r := h1
    cases this
/-- The first granule of a stream of engine 0: F and written, never written, in L whole, and being filled. -/
theorem witness_StitchStreams_issue :
    let x : Stream := { id := 0, act := none, urg := false, pin := false, ageBias := 0, region := 0, gen := 1, next := 0, stop := 4, lt := 0, dl := 0, pc := 0 }
    let f : Fill := { cls := .stitch, tenant := 0 }
    let with_ := fun (e : FmEntry) (l : Tab Fill) => ({ streaming with fm := ⟨[(0, e)]⟩, fills := l } : Dev)
    issues (at_ streaming) 0 0 x (.streamGranuleIssue 0) ∧ issues (at_ streaming) 0 1 { x with id := 1 } (.qfullRetry 0 1) ∧
    (∀ r, streaming.regions.get? 7 = some r → r.draining = true ∨ r.gen ≠ x.gen) ∧
    streaming.regions.get? x.region = some reg0 ∧ reg0.draining = false ∧ reg0.gen = x.gen ∧ x.act = none ∧ x.pin = false ∧
    ((with_ {} .empty).fme 0).ew = false ∧ ((with_ {} .empty).fme 0).tier = .F ∧
    ((with_ { ew := true, tier := .L } .empty).fme 0).tier = .L ∧
    ((with_ { ew := true } .empty).fme 0).ew = true ∧
    (with_ { ew := true } .empty).outst 0 < ((with_ { ew := true } .empty).set (Reg.ENG.CTL.CREDITS 0) 1).get (Reg.ENG.CTL.CREDITS 0) ∧
    ((with_ { ew := true } .empty).set (Reg.ENG.CTL.CREDITS 0) 0).get (Reg.ENG.CTL.CREDITS 0) ≤ (with_ { ew := true } .empty).outst 0 ∧
    (with_ { ew := true } ⟨[(0, f)]⟩).fills.get? x.next = some f := by
  refine ⟨⟨by decide, .inl ⟨rfl, by decide, by decide⟩⟩, ⟨by decide, .inr ⟨rfl, (0, 9), by decide, rfl⟩⟩, fun r h => ?_, ?_, ?_, ?_, ?_, ?_, ?_, ?_, ?_, ?_, ?_, ?_, ?_⟩
  · have : (none : Option Region) = some r := h
    cases this
  all_goals first | decide | rfl

/-! ## Witnesses: the command rings -/

/-- The management function's first ring RUNNING, with one command of this opcode taken and waiting. -/
def ringed (op : Nat) (d : Dev) : Dev :=
  { d with rings := ⟨[(64 * 16, { state := 1, cqHead := 0, taken := [{ tag := 1, opcode := op, irq := false, fence := false, order := 0 }] })]⟩ }
/-- LD 0's first ring likewise; LD 0 bound to tenant 0. -/
def ldRinged (op : Nat) (d : Dev) : Dev :=
  let i : Island := { d.island with store := { d.island.store with bind := ⟨[(0, 0)]⟩ } }
  { d with rings := ⟨[(0, { state := 1, taken := [{ tag := 1, opcode := op, irq := false, fence := false, order := 0 }] })]⟩, island := i }
def byM : Issuer := { func := 64, ring := 0, tag := 1 }
def byLd : Issuer := { func := 0, ring := 0, tag := 1 }

theorem runs (d : Dev) (i : Issuer) (op : Nat) (res : List Nat) (h : d.mayStart i op res = true ∧ d.psq.linksDown = false ∧ (d.ring i.func i.ring).state = 1 ∧
    (d.ring i.func i.ring).mute = false ∧ (d.takenOf i).map (·.mute) = some false) : mayRun (at_ d) i op res :=
  ⟨h.1, h.2.1, .inl h.2.2.1, h.2.2.2.1, by
    obtain ⟨x, hx, hm⟩ := Option.map_eq_some_iff.mp h.2.2.2.2
    exact ⟨x, hx, hm⟩⟩

theorem witness_CompletionIsWritten : quiet (at_ (ringed 2 hosted)) ∧ writesFor (at_ (ringed 2 hosted)) byM :=
  ⟨rfl, (runs (ringed 2 hosted) byM 2 [] (by decide)).2⟩
theorem witness_UnknownOpcodeIsRefused : quiet (at_ (ringed 5 hosted)) ∧ ∃ x, (ringed 5 hosted).takenOf byM = some x ∧
    descFields x.opcode = none ∧ mayRun (at_ (ringed 5 hosted)) byM x.opcode [] :=
  ⟨rfl, _, rfl, rfl, runs (ringed 5 hosted) byM 5 [] (by decide)⟩
theorem witness_UnknownOpcodeIsRefused_waits :
    ringOf (.patternStop byM 0) = some (byM, 0x1A, [resEngine 0]) ∧ (ringed 5 hosted).mayStart byM 0x1A [resEngine 0] = false ∧
    ringOf (.persistFence byM 0 1 1) = some (byM, 0x12, []) ∧ (ringed 0x12 (hosted.set Reg.MIR.ROLE.ROLE 2)).serves = false ∧
    mayRun (at_ (ringed 0x12 (hosted.set Reg.MIR.ROLE.ROLE 2))) byM 0x12 [] :=
  ⟨rfl, by decide, rfl, by decide, runs (ringed 0x12 (hosted.set Reg.MIR.ROLE.ROLE 2)) byM _ _ (by decide)⟩
theorem witness_ManagementCommandsNeedTheManagementFunction : byLd.func ≠ 64 ∧ mayRun (at_ (ldRinged 0x28 hosted)) byLd 0x28 [] ∧
    mayRun (at_ (ldRinged 0x29 hosted)) byLd 0x29 [] ∧ mayRun (at_ (ldRinged 0x2A hosted)) byLd 0x2A [] :=
  ⟨by decide, runs (ldRinged 0x28 hosted) byLd _ _ (by decide), runs (ldRinged 0x29 hosted) byLd _ _ (by decide),
    runs (ldRinged 0x2A hosted) byLd _ _ (by decide)⟩
theorem witness_ManagementCommandsNeedTheManagementFunction_buffers :
    (ldRinged 0x21 (hosted.set Reg.ROW.STS.STATE 1)).rowState ≠ 0 ∧
    mayRun (at_ (ldRinged 0x21 (hosted.set Reg.ROW.STS.STATE 1))) byLd 0x21 [resLog] ∧ mayRun (at_ (ldRinged 0x23 hosted)) byLd 0x23 [] ∧
    0x27F / 64 ≠ 0x00 ∧ 0x27F / 64 ≠ 0x28 ∧ 0x27F / 64 ≠ 0x1B ∧ mayRun (at_ (ldRinged 0x30 hosted)) byLd 0x30 [resTarget 2] :=
  ⟨by decide, runs (ldRinged 0x21 (hosted.set Reg.ROW.STS.STATE 1)) byLd _ _ (by decide), runs (ldRinged 0x23 hosted) byLd _ _ (by decide),
    by decide, by decide, by decide, runs (ldRinged 0x30 hosted) byLd _ _ (by decide)⟩
theorem witness_RegionChecksDecideInOrder :
    let foreign : Dev := { ldRinged 2 hosted with regions := ⟨[(0, { reg0 with tenant := 9 })]⟩ }
    quiet (at_ (ldRinged 2 hosted)) ∧ (ldRinged 2 hosted).serves = true ∧ mayRun (at_ (ldRinged 2 hosted)) byLd 2 [resRegion 4096] ∧
    mayRun (at_ (ldRinged 0x10 hosted)) byLd 0x10 [resRegion 0] ∧
    (ldRinged 2 hosted).regionFault byLd 4096 1 = some (cInvalidField, 20) ∧ (ldRinged 2 hosted).regionFault byLd 4095 1 = some (cState, 0) ∧
    foreign.regionFault byLd 0 1 = some (cNotPermitted, 0) ∧ (ldRinged 2 hosted).regionFault byLd 0 2 = some (cStaleGen, 0) :=
  ⟨rfl, by decide, runs (ldRinged 2 hosted) byLd _ _ (by decide), runs (ldRinged 0x10 hosted) byLd _ _ (by decide), by decide, by decide,
    by decide, by decide⟩
/-- The region passes its checks, and the command is still refused. -/
theorem witness_RegionChecksDecideInOrder_refused :
    let asked : Dev := hosted.setLd 0 { hosted.ld 0 with releases := ⟨[(0, { gen := 1, opened := 0, forced := false })]⟩ }
    reg0.attached ≠ [] ∧ mayRun (at_ (ringed 2 hosted)) byM 2 [resRegion 0] ∧ (hosted.regions.get? 0 = some reg0) ∧ (0 : Nat) ≤ 4095 ∧
    (ringed 2 hosted).mayOwn byM reg0.tenant = true ∧ mayRun (at_ (ringed 3 hosted)) byM 3 [resRegion 0] ∧ (63 : Nat) < 64 ∧
    (∃ k, (ringed 3 hosted).offerFault 0 0 reg0 = some k) ∧ mayRun (at_ (ringed 4 hosted)) byM 4 [resRegion 0] ∧ (64 : Nat) ≠ 0xFF ∧
    reg0.attached.contains 63 = false ∧ reg0.attached.contains 0 = true ∧ (asked.ld 0).releases.has 0 = true ∧
    mayRun (at_ (ringed 4 asked)) byM 4 [resRegion 0] ∧ reg0.size * 512 ≤ 512 ∧ 511 < reg0.size * 512 ∧ (2 ^ 24 : Nat) < 2 ^ 24 + 1 ∧
    mayRun (at_ (ringed 0x10 hosted)) byM 0x10 [resRegion 0] := by
  refine ⟨by decide, runs (ringed 2 hosted) byM _ _ (by decide), rfl, by decide, by decide, runs (ringed 3 hosted) byM _ _ (by decide), by decide,
    ⟨2, by decide⟩, runs (ringed 4 hosted) byM _ _ (by decide), by decide, by decide, by decide, by decide, ?_, by decide, by decide, by decide,
    runs (ringed 0x10 hosted) byM _ _ (by decide)⟩
  exact runs (ringed 4 (hosted.setLd 0 { hosted.ld 0 with releases := ⟨[(0, { gen := 1, opened := 0, forced := false })]⟩ })) byM _ _ (by decide)
theorem witness_RegionChecksDecideInOrder_operands :
    mayRun (at_ (ringed 1 hosted)) byM 1 [resSlot 0xFFFF] ∧ mayRun (at_ (ringed 1 hosted)) byM 1 [resSlot 0] ∧ (1023 : Nat) < 1024 ∧
    (ringed 1 hosted).slotMayServe 0 (some 0) = false ∧ (ringed 1 hosted).slotMayServe 0 none = true ∧
    (true && !false || (0 : Nat).testBit 3 || (0 : Nat).testBit 0 && 0xFFFF == 0xFFFF) = true ∧ 2 ^ 25 < 2 ^ 25 + (1 : Nat) ∧
    ((ringed 1 hosted).regions.list.any fun e => decide (0 < e.2.base + e.2.size) && decide (e.2.base < 0 + 1)) = true ∧
    mayRun (at_ (ringed 0x11 hosted)) byM 0x11 [resRegion 4096, resRegion 0] ∧ (ringed 0x11 hosted).sourceFault byM 4096 1 = some (cInvalidField, 20) ∧
    (ringed 0x11 hosted).sourceFault byM 0 1 = none ∧ (ringed 0x11 hosted).regionFault byM 0 2 = some (cStaleGen, 0) ∧
    (ringed 0x11 hosted).regionFault byM 0 1 = none ∧ 63 % 64 ≠ 0 ∧ overlaps 0 64 128 = true ∧ (1 : Nat) < 2 ∧
    mayRun (at_ (ringed 0x12 hosted)) byM 0x12 [] :=
  ⟨runs (ringed 1 hosted) byM _ _ (by decide), runs (ringed 1 hosted) byM _ _ (by decide), by decide, by decide, by decide, by decide, by decide,
    by decide, runs (ringed 0x11 hosted) byM _ _ (by decide), by decide, by decide, by decide, by decide, by decide, by decide, by decide,
    runs (ringed 0x12 hosted) byM _ _ (by decide)⟩
theorem witness_TwinWithoutMirrorIsRefused : quiet (at_ (ringed 1 hosted)) ∧ mayRun (at_ (ringed 1 hosted)) byM 1 [resSlot 0xFFFF] ∧
    (ringed 1 hosted).serves = true ∧ (if byM.func = 64 then 1023 ≤ 1023 else 1023 = 0) ∧
    (ringed 1 hosted).slotMayServe 1023 (if (0xFFFF : Nat) = 0xFFFF then none else some 0xFFFF) = true :=
  ⟨rfl, runs (ringed 1 hosted) byM _ _ (by decide), by decide, by decide, by decide⟩
theorem witness_RegionCommandsTakeEffect :
    let free : Dev := { hosted with regions := ⟨[(0, { reg0 with attached := [] })]⟩ }
    let r : Region := { reg0 with attached := [] }
    let bound : Island := { store := { bind := ⟨[(1, 0)]⟩ } }
    let offer : Dev := { ringed 3 free with island := bound }
    (ringed 1 hosted).serves = true ∧ (ringed 1 hosted).mayStart byM 1 [resSlot 0xFFFF] = true ∧ byM.func = 64 ∧ (1 : Nat) + (2 ^ 25 - 1) ≤ 2 ^ 25 ∧
    ((ringed 1 hosted).regions.list.any fun e => decide (1 < e.2.base + e.2.size) && decide (e.2.base < 1 + (2 ^ 25 - 1))) = false ∧
    (ringed 1 hosted).regions.firstFree < 4096 ∧
    (ringed 2 free).serves = true ∧ (ringed 2 free).regions.get? 0 = some r ∧ (ringed 2 free).mayOwn byM r.tenant = true ∧
    (ringed 2 free).mayStart byM 2 [resRegion 0] = true ∧ r.attached = [] ∧
    offer.mayStart byM 3 [resRegion 0] = true ∧ (offer.start byM 0 0 [resRegion 0]).offerFault 1 0 r = none ∧
    (ringed 4 hosted).mayStart byM 4 [resRegion 0] = true ∧ (ringed 4 hosted).regions.get? 0 = some reg0 ∧
    reg0.attached.contains 0 = true ∧ ((ringed 4 hosted).ld 0).releases.has 0 = false ∧
    (ringed 0x11 hosted).mayStart byM 0x11 [resRegion 0, resRegion 1] = true ∧ (ringed 0x12 hosted).mayStart byM 0x12 [] = true := by
  and_intros <;> first | decide | rfl
theorem witness_TierHintsActOnTheirRun :
    let d := ringed 0x10 hosted
    d.serves = true ∧ d.mayStart byM 0x10 [resRegion 0] = true ∧ d.regions.get? 0 = some reg0 ∧ d.mayOwn byM reg0.tenant = true ∧
    511 < reg0.size * 512 ∧ (2 ^ 24 : Nat) ≤ 2 ^ 24 ∧ ∃ x, (d.start byM 0 0 [resRegion 0]).takenOf byM = some x := by
  refine ⟨?_, ?_, ?_, ?_, ?_, ?_, _, rfl⟩ <;> decide

/-- In lockstep as the active; a standby; joined to a Round of which another member is the time reference. -/
def active : Dev := hosted.set Reg.MIR.ROLE.ROLE 1
def joined : Dev := ((hosted.set Reg.RND.STS.STATE 2).set Reg.RND.CFG.MEMBER 4).set Reg.RND.TIMEREF.REF_MEMBER 5
/-- The active whose twin has been DETACHED and is UP again. -/
def alone : Dev := { active.set Reg.MIR.ROLE.PSTATE 1 with assocs := ⟨[(0, { state := 2, member := 0 })]⟩ }
theorem witness_ManagementCommandsTakeEffect :
    let lent : Dev := { ringed 0x2B hosted with round := { lend := ⟨[(7, { frame := 0, member := some 3 })]⟩
                                                           borrow := ⟨[(3 * 1024 + 1, { loan := 9, gen := 1, idleSince := none })]⟩ } }
    byM.func = 64 ∧ (ringed 0x28 active).mayStart byM 0x28 [] = true ∧ ((ringed 0x28 active).start byM 0 0xFFFF []).lockstep = true ∧
    (ringed 0x28 alone).mayStart byM 0x28 [] = true ∧ ((ringed 0x28 alone).start byM 0 0xFFFF []).resyncReady = true ∧
    (ringed 0x29 active).mayStart byM 0x29 [] = true ∧ ((ringed 0x29 active).start byM 0 0xFFFF []).lockstep = true ∧
    ((ringed 0x29 active).start byM 0 0xFFFF []).mirror.switchover = none ∧
    (let d := (ringed 0x29 (hosted.set Reg.MIR.ROLE.ROLE 2)).start byM 0 0xFFFF []
     1 < d.role ∧ d.mirror.forceIssuer = none) ∧
    (ringed 0x2A hosted).mayStart byM 0x2A [] = true ∧
    (let d := (ringed 0x2A hosted).start byM 0 hosted.me []
     d.rndState = 0 ∧ d.round.joining = none) ∧
    (let d := (ringed 0x2A joined).start byM 0 joined.me []
     d.get Reg.RND.TIMEREF.REF_MEMBER ≠ d.me ∧ d.refPairs.vals.any (·.en) = false ∧ d.rndState = 2) ∧
    lent.mayStart byM 0x2B [] = true ∧ (31 : Nat) ≤ 31 ∧ (32767 : Nat) ≤ 32767 ∧ ((lent.start byM 0 7 []).lendOf 7).member = some 3 ∧
    ((lent.start byM 0 9 []).round.borrow.list.find? fun e => e.1 / 1024 == 3 && e.2.loan == 9) = some (3 * 1024 + 1, { loan := 9, gen := 1, idleSince := none }) := by
  and_intros <;> first | decide | rfl
theorem witness_BufferCommandsTakeEffect :
    let keyed : Dev := { ringed 0x29 hosted with island := { store := { refKey := some 1 } } }
    (4096 : Nat) % 4 = 0 ∧ byM.func = 64 ∧ (ringed 0x20 hosted).mayStart byM 0x20 [] = true ∧
    (let d := ringed 0x21 (hosted.set Reg.ROW.STS.STATE 1)
     d.rowState ≠ 0 ∧ d.mayStart byM 0x21 [resLog] = true) ∧
    (ringed 0x23 hosted).mayStart byM 0x23 [] = true ∧ (ringed 0x24 hosted).mayStart byM 0x24 [] = true ∧ (1023 : Nat) ≤ 1023 ∧
    (16384 : Nat) ≤ 16384 ∧ (ringed 0x30 hosted).mayStart byM 0x30 [resTarget 0] = true ∧ (31 * 2 ^ 20 : Nat) + 2 ^ 20 ≤ 32 * 2 ^ 20 ∧
    keyed.mayStart byM 0x29 [] = true ∧ (keyed.start byM 1 0xFFFF []).island.store.refKey.isSome = true := by
  and_intros <;> first | decide | rfl
theorem witness_MisplacedBuffersAreRefused : quiet (at_ (ringed 0x20 hosted)) ∧ byM.func = 64 ∧ (2 : Nat) % 4 ≠ 0 ∧
    mayRun (at_ (ringed 0x20 hosted)) byM 0x20 [] ∧ mayRun (at_ (ringed 0x23 hosted)) byM 0x23 [] ∧ (4095 : Nat) < 4096 ∧
    mayRun (at_ (ringed 0x24 hosted)) byM 0x24 [] ∧ (1023 : Nat) ≤ 1023 :=
  ⟨rfl, by decide, by decide, runs (ringed 0x20 hosted) byM _ _ (by decide), runs (ringed 0x23 hosted) byM _ _ (by decide), by decide,
    runs (ringed 0x24 hosted) byM _ _ (by decide), by decide⟩
theorem witness_MisplacedBuffersAreRefused_engines :
    let d := stitching 0
    let bad : Dev := { stitching (word 0x11 0) with regs := ((stitching 0).setBit Reg.STI.CFG.ENABLE true).regs }
    mayRun (at_ (ringed 0x18 d)) byM 0x18 [resEngine 15] ∧ mayRun (at_ (ringed 0x18 d)) byM 0x18 [resEngine 16] ∧
    (ringed 0x18 d).engOn 0 = true ∧ (1024 : Nat) < 1023 + 2 ∧ mayRun (at_ (ringed 0x19 d)) byM 0x19 [resEngine 0] ∧
    (ringed 0x19 d).holdsBinding byM 0 = true ∧ (ldRinged 0x19 (d.setBit (Reg.ENG.BIND.MGMT 0) true)).holdsBinding byLd 0 = false ∧
    mayRun (at_ (ldRinged 0x19 (d.setBit (Reg.ENG.BIND.MGMT 0) true))) byLd 0x19 [resEngine 0] ∧
    (bad.set (Reg.ENG.STS.STATE 0) 1).engOn 0 = false ∧ (bad.set (Reg.ENG.STS.STATE 0) 1).engState 0 ≠ 0 ∧ bad.engLen 0 ≠ 0 ∧
    bad.bit Reg.STI.CFG.ENABLE = true ∧ bad.mayStitch = true ∧ (hosted.set Reg.MIR.ROLE.ROLE 1).mayStitch = false ∧
    bad.creditSum + 1024 ≤ 3072 ∧ ((bad.set (Reg.ENG.STS.STATE 1) 2).set (Reg.ENG.CTL.CREDITS 1) 1024).creditSum + 1024 ≤ 3072 ∧
    stitchOk (bad.engLen 0) ((bad.engine 0).pattern.getD 0 0) = false ∧ stitchOk 2 0 = true ∧ (2 : Nat) ≤ 2 ∧
    mayRun (at_ (ringed 0x1A d)) byM 0x1A [resEngine 15] ∧ (ringed 0x1A d).engOn 15 = false := by
  refine ⟨runs (ringed 0x18 (stitching 0)) byM _ _ (by decide), runs (ringed 0x18 (stitching 0)) byM _ _ (by decide), ?_, ?_,
    runs (ringed 0x19 (stitching 0)) byM _ _ (by decide), ?_, ?_,
    runs (ldRinged 0x19 ((stitching 0).setBit (Reg.ENG.BIND.MGMT 0) true)) byLd _ _ (by decide), ?_, ?_, ?_, ?_, ?_, ?_, ?_, ?_, ?_, ?_, ?_,
    runs (ringed 0x1A (stitching 0)) byM _ _ (by decide), ?_⟩ <;> decide
theorem witness_MisplacedBuffersAreRefused_times :
    (1023 : Nat) < 1024 ∧ (16383 : Nat) < 16384 ∧ (ringed 0x21 (hosted.set Reg.ROW.STS.STATE 1)).rowState ≠ 0 ∧ 63 < 64 * 1 ∧ hosted.rowState = 0 ∧
    mayRun (at_ (ringed 0x21 (hosted.set Reg.ROW.STS.STATE 1))) byM 0x21 [resLog] ∧ mayRun (at_ (ringed 0x30 hosted)) byM 0x30 [resTarget 2] ∧
    stageSize 2 < 8 * 2 ^ 20 + 1 ∧ mayRun (at_ (ringed 0x29 hosted)) byM 0x29 [] ∧ mayRun (at_ (ringed 0x28 hosted)) byM 0x28 [] ∧
    hosted.lockstep = false ∧ hosted.resyncReady = false ∧ active.lockstep = true ∧
    ({ active with mirror := { active.mirror with switchover := some byM } } : Dev).mirror.switchover ≠ none ∧ hosted.role ≤ 1 ∧
    1 < (hosted.set Reg.MIR.ROLE.ROLE 2).role ∧ ({ hosted with mirror := { hosted.mirror with forceIssuer := some byM } } : Dev).mirror.forceIssuer ≠ none ∧
    (joined.rndState ≠ 0 ∧ joined.rndState ≠ 4) ∧ hosted.get Reg.RND.TIMEREF.REF_MEMBER = hosted.me ∧
    joined.get Reg.RND.TIMEREF.REF_MEMBER ≠ joined.me ∧ (joined.set Reg.RND.STS.STATE 1).rndState ≠ 2 ∧ (31 : Nat) < 32 ∧ (32767 : Nat) < 32768 ∧
    (hosted.lendOf 7).member ≠ some 31 ∧ (hosted.round.borrow.list.find? fun e => e.1 / 1024 == 3 && e.2.loan == 9) = none ∧
    mayRun (at_ (ringed 0x2A hosted)) byM 0x2A [] ∧ mayRun (at_ (ringed 0x2B hosted)) byM 0x2B [] := by
  refine ⟨?_, ?_, ?_, ?_, ?_, runs (ringed 0x21 (hosted.set Reg.ROW.STS.STATE 1)) byM _ _ (by decide),
    runs (ringed 0x30 hosted) byM _ _ (by decide), ?_, runs (ringed 0x29 hosted) byM _ _ (by decide), runs (ringed 0x28 hosted) byM _ _ (by decide),
    ?_, ?_, ?_, ?_, ?_, ?_, ?_, ?_, ?_, ?_, ?_, ?_, ?_, ?_, ?_, runs (ringed 0x2A hosted) byM _ _ (by decide),
    runs (ringed 0x2B hosted) byM _ _ (by decide)⟩ <;> decide
theorem witness_RingsRun :
    let x := (ringed 2 hosted).ring 64 0
    let owing : Dev := { hosted with rings := ⟨[(0, { x with irqEn := true, coalTime := 3, unsignalled := 1 })]⟩ }
    quiet (at_ hosted) ∧ (15 : Nat) < 16 ∧ (64 : Nat) ≤ 64 ∧ (hosted.ring 64 15).state = 0 ∧ (hosted.ring 64 15).sqBase % 4096 = 0 ∧
    (hosted.ring 64 15).cqBase % 4096 = 0 ∧ hosted.ringsOf 64 < hosted.ringCount 64 ∧ hosted.ringPool.isEmpty = false ∧
    x.state = 1 ∧ 15 < 2 ^ x.sqLog2 ∧ 15 < 2 ^ x.cqLog2 ∧ x.taken ≠ [] ∧
    (let y : Ring := { state := 1 }
     y.state ≠ 0 ∧ y.taken = []) ∧
    (owing.ring 0 0).irqEn = true ∧ (owing.ring 0 0).coalTime ≠ 0 ∧ (owing.ring 0 0).unsignalled ≠ 0 := by
  and_intros <;> first | decide | rfl
theorem witness_DescriptorFetchTakesWhatFits : quiet (at_ (ringed 2 (hosted.setBit Reg.CMD.CFG.ENABLE true))) ∧
    ((ringed 2 (hosted.setBit Reg.CMD.CFG.ENABLE true)).ring 64 0).state = 1 ∧
    (ringed 2 (hosted.setBit Reg.CMD.CFG.ENABLE true)).bit Reg.CMD.CFG.ENABLE = true := by
  and_intros <;> first | decide | rfl
theorem witness_PatternCommandsTakeEffect :
    let d := ringed 0x19 (((stitching 0).set (Reg.ENG.STS.STATE 0) 1).setBit Reg.STI.CFG.ENABLE true)
    (15 : Nat) < 16 ∧ (ringed 0x18 hosted).mayStart byM 0x18 [resEngine 0] = true ∧ (1023 : Nat) + 1 ≤ 1024 ∧ (ringed 0x18 hosted).engOn 0 = false ∧
    d.mayStart byM 0x19 [resEngine 0] = true ∧ d.holdsBinding byM 0 = true ∧ d.engState 0 = 1 ∧ 1 < d.engLen 0 ∧ d.bit Reg.STI.CFG.ENABLE = true ∧
    d.mayStitch = true ∧ d.creditSum - (if d.outst 0 != 0 then d.get (Reg.ENG.CTL.CREDITS 0) else 0) + 1024 ≤ 3072 ∧
    (∀ k, k < d.engLen 0 → stitchOk (d.engLen 0) ((d.engine 0).pattern.getD k 0) = true) ∧
    (ringed 0x1A (stitching 0)).mayStart byM 0x1A [resEngine 0] = true ∧ (ringed 0x1A (stitching 0)).holdsBinding byM 0 = true ∧
    (ringed 0x1A (stitching 0)).engOn 0 = true := by
  and_intros <;> first | decide | rfl

/-! ## Witnesses: memory, ports, DRAM -/

theorem witness_HostRequestsReachTheirLine :
    hosted.gldOf 0 0 = some 0 ∧ hosted.memOpen 0 = true ∧ hosted.noCredit ⟨0, 0, 2 ^ 21 - 64, 1, none, false, (0, 0)⟩ = false ∧
    hosted.hpaToDpa 0 (2 ^ 21 - 64) = some (2 ^ 21 - 64) ∧ hosted.serves = true ∧
    hosted.regionAt (granOf ((2 ^ 21 - 64) / 64)) = some (0, reg0) ∧ reg0.attached.contains 0 = true ∧ reg0.home = true := by
  and_intros <;> first | decide | rfl
/-- A head with no credit: a write of it waits on its link already. -/
theorem witness_HostRequestsReachTheirLine_waits :
    let q : LinkReq := ⟨0, 0, 64, 1, some (0, 0), false, (0, 0)⟩
    ({ hosted with linkWait := [q] } : Dev).noCredit q = true ∧ ({ hosted with linkWait := [q] } : Dev).noCredit ⟨0, 0, 64, 1, none, false, (0, 0)⟩ = false ∧
    hosted.gldOf 15 0 = none ∧ hosted.memOpen 15 = false ∧ quiet (at_ hosted) ∧ hosted.hpaToDpa 0 (2 ^ 30) = none ∧
    hosted.hpaToDpa 0 (2 ^ 28) = some (2 ^ 28) ∧ hosted.regionAt (granOf (2 ^ 28 / 64)) = none := by
  and_intros <;> first | decide | rfl
/-- `hosted` with granule 0's frame-map line in the cache. -/
def mapped : Dev := { hosted with fmc := ⟨[(0, ())]⟩ }
theorem witness_UnwrittenGranuleReadsZero :
    quiet (at_ mapped) ∧ mapped.gldOf 0 0 = some 0 ∧ mapped.memOpen 0 = true ∧ mapped.noCredit ⟨0, 0, 64, 1, none, false, (0, 0)⟩ = false ∧
    mapped.hpaToDpa 0 64 = some 64 ∧ mapped.serves = true ∧
    mapped.regionAt (granOf (64 / 64)) = some (0, reg0) ∧ reg0.attached.contains 0 = true ∧ reg0.home = true ∧
    mapped.lineBusy (64 / 64) = false ∧ mapped.memoryLost = false ∧ mapped.rebuilding (granOf (64 / 64)) = false ∧
    (reg0.enc && mapped.reloads) = false ∧ mapped.lc.get? (64 / 64) = none ∧ mapped.flips.list = [] ∧ mapped.fmc.has (granOf (64 / 64) / 8) = true ∧
    mapped.poison.has (64 / 64) = false ∧ (mapped.fme (granOf (64 / 64))).tier = .F ∧ (mapped.fme (granOf (64 / 64))).ew = false := by
  and_intros <;> first | decide | rfl

def req0 : HostReq := { head := 0, gld := 0, tag := 1, line := 0 }
def read0 (what : ReadFor) : DramRead := { chan := 0, line := 0, fn := 0, cl := 0, arrived := 0, seq := 0, issued := some 0, what }
def fill0 : Fill := { cls := .demand, tenant := 0, frame := some 0 }
/-- Two image drives in service, an image of 1,024 granules. -/
def backed : Dev :=
  let d := ((hosted.set Reg.NVH.IMG_CFG.DRIVE_MASK 3).set (Reg.NVH.DRV.STATE 0) 2).set (Reg.NVH.DRV.STATE 1) 2
  { (d.set Reg.NVH.IMG_STS.STATE 3).set Reg.HLD.STATUS.STATE 0 with image := { n := 2, g := 1024 } }
theorem witness_MemoryGoesOn :
    let w0 : HostReq := { req0 with write := some (0, 0) }
    let h : Held := { req := w0, reason := .lag }
    let held : Dev := { hosted with regions := .empty, held := ⟨[(0, [h])]⟩ }
    quiet (at_ held) ∧ takeFirst (fun h => held.mayPass h.req) (held.heldAt 0) = some (h, []) ∧ calm held ∧ asked (at_ held) w0 ∧
    held.regionAt 0 = none ∧ takeFirst (fun h => hosted.mayPass h.req) (hosted.heldAt 0) = none ∧
    (23 : Nat) < 24 ∧ (47 : Nat) < 48 ∧ hosted.memOpen 0 = true ∧ hosted.openWrites = [] ∧ hosted.lockstep = false ∧
    ({ hosted with rteWait := [{ w0 with admitted := true }] } : Dev).openWrites ≠ [] ∧
    (hosted.set Reg.TMG.FREE_MIN.FRAMES 0).get Reg.TMG.FREE_MIN.FRAMES ≤ (hosted.set Reg.TMG.FREE_MIN.FRAMES 0).freeFrames ∧
    (hosted.quota 0).pinQuota ≤ (hosted.quota 0).lQuota ∧ (hosted.quota 0).lQuota ≤ (hosted.quota 0).lMax ∧
    mapped.fmc.has 0 = true ∧ hosted.fmc.has (2 ^ 28 - 1) = false ∧
    (mapped.set (Reg.DC.POP.TYPE 11) 1).populated.contains 11 = true ∧ (mapped.set (Reg.DC.POP.TYPE 11) 1).fmLineOf 11 0 = 0 ∧
    (mapped.set (Reg.DC.POP.TYPE 11) 1).fmc.has 0 = true ∧ (mapped.set (Reg.DC.POP.TYPE 11) 1).fmLineOf 11 (2 ^ 28 - 1) = 2 ^ 28 - 1 ∧
    (mapped.set (Reg.DC.POP.TYPE 11) 1).fmc.has (2 ^ 28 - 1) = false ∧ mapped.populated.contains 11 = false ∧
    hosted.bit Reg.TMG.STS.REBUILD = false ∧ (hosted.setBit Reg.TMG.STS.REBUILD true).bit Reg.TMG.STS.REBUILD = true := by
  and_intros <;> first | decide | rfl | simp [Dev.openWrites, hosted]
/-- A DRAM read that has been issued: of a line in no region, and of a line of an attached region. -/
theorem witness_MemoryGoesOn_reads :
    let q : HostReq := req0
    let d : Dev := { hosted with reads := ⟨[(4, read0 (.host q)), (5, read0 .background)]⟩ }
    let up : Dev := d.set (Reg.DC.STS.STATE 0) 4
    let u : Dev := { up.at (fclkAt 0) with reads := up.reads.del 4 }
    calm d ∧ d.reads.get? 4 = some (read0 (.host q)) ∧ (d.channel 0).retry.has (subOf 0) = false ∧ d.reads.get? 5 = some (read0 .background) ∧
    d.chanUp 0 = false ∧ asked (at_ d) q ∧ q.write = none ∧ calm up ∧ up.regionAt (granOf q.line) = some (0, reg0) ∧ up.chanUp 0 = true ∧
    (u.eccRead 0 0 ((read0 (.host q)).noise 0)).2.ok = true ∧ (u.eccRead 0 0 ((read0 (.host q)).noise 0)).2.corrected = false ∧
    (up.setBit Reg.LC.CFG.RD_ALLOC false).bit Reg.LC.CFG.RD_ALLOC = false ∧ up.bit Reg.ECS.SRAM_INJ.ARM = false ∧
    (({ d with channels := ⟨[(0, { retry := ⟨[(0, default)]⟩ })]⟩ } : Dev).channel 0).retry.has (subOf 0) = true := by
  and_intros <;> first | decide | rfl
/-- Fills: one that flash answers, one whose data has arrived, one that a lender answers. -/
theorem witness_MemoryGoesOn_fills :
    let l : Tab Ln := ⟨[]⟩
    let f : Fill := { fill0 with data := some l }
    let fills : Dev := { backed with fills := ⟨[(0, fill0), (1, f), (2, { fill0 with src := .N })]⟩ }
    let done : Dev := { hosted with fills := ⟨[(0, f)]⟩, fm := ⟨[(0, { tier := .L, loc := 0 })]⟩, mdc := ⟨(List.range 32).map fun k => (k, false)⟩ }
    fills.fills.get? 0 = some fill0 ∧ fill0.src = .F ∧ fill0.frame.isSome = true ∧ fill0.data = none ∧ fills.mergeReading 0 = false ∧
    (∃ lba, fills.flashPlace 0 = some (0, lba, false)) ∧ calm fills ∧ fill0.waiters = [] ∧ fills.regionAt 0 ≠ none ∧
    fills.fills.get? 2 = some { fill0 with src := .N } ∧ fills.mergedLines 2 = none ∧ (fills.flashPlace 2).isSome = true ∧
    calm done ∧ done.fills.get? 0 = some f ∧ done.revokes.list = [] ∧ f.sti = [] ∧ (done.fme 0).tier = .L ∧ done.poison.list = [] ∧
    (∀ k, k < 64 → done.mdc.has (((done.fme 0).loc * 64 + k) / 2) = true) ∧
    ∀ k, k < 64 → (l.getD k { st := .clean }).st ≠ .poison ∧ ∀ c, done.lc.get? (0 * 64 + k) = some c → c.ln.st ≠ .dirty := by
  refine ⟨?_, ?_, ?_, ?_, ?_, ⟨_, rfl⟩, ?_, ?_, ?_, ?_, ?_, ?_, ?_, ?_, ?_, ?_, ?_, ?_, ?_, ?_⟩ <;>
    first | decide | rfl | (unfold calm; decide) | (intro k _; exact ⟨nofun, nofun⟩)
/-- A dirty line in an eviction buffer whose frame takes it. -/
theorem witness_MemoryGoesOn_evicts :
    let c : CacheLn := { ln := { st := .dirty }, place := .evict }
    let d : Dev := { hosted with lc := ⟨[(0, c)]⟩, fm := ⟨[(0, { tier := .L, loc := 0 })]⟩, mdc := ⟨[(0, false)]⟩ }
    lruWay (d.lcBuffer (lcSetOf 0 / 8192)) = some (0, c) ∧ lruWay (hosted.lcBuffer 7) = none ∧ calm d ∧ d.lc.get? 0 = some c ∧
    (d.fme (granOf 0)).tier = .L ∧ d.queueFull (d.fme (granOf 0)).loc (0 % 64) = false ∧ d.flips.list = [] ∧
    d.mdc.has (((d.fme (granOf 0)).loc * 64 + 0 % 64) / 2) = true := by
  refine ⟨?_, ?_, ?_, ?_, ?_, ?_, ?_, ?_⟩ <;> first | decide | rfl | (unfold calm; decide) | simp [Dev.lcBuffer, Dev.lcIn, lruWay]
theorem witness_PortsAndHeadsTakeEffect :
    let down := hosted.set (Reg.HP.LINK_STS.RATE 0 0) 0
    let ide := hosted.set (Reg.HP.LINK_STS.IDE 0 0) 1
    let keyed : Dev := (hosted.setBit (Reg.HP.HEAD_CFG.IDE_SKID_OK 0 0) true).setHead 0 { set0 := { rx := true, tx := true } }
    let spdm : Island := { spdm := ⟨[(fmOwned 0, { phase := 3, sessions := ⟨[(1, { phase := 1, lastBeat := 0 })]⟩ })]⟩ }
    let bad : Dev := ((hosted.setBit (Reg.HP.PORT_CFG.ENABLE 0) false).set (Reg.HP.HEAD_CFG.LD_CNT 0 1) 1).set (Reg.HP.HEAD_CFG.LD_CNT 0 0) 1
    quiet (at_ down) ∧ (15 : Nat) < 16 ∧ down.mayTrain 0 = true ∧ down.linkUp 0 = false ∧ (1 : Nat) ≤ 5 ∧
    5 ≤ maxRate (down.get (Reg.HP.PORT_CFG.MAX_RATE (0 / 4))) ∧ (5 : Nat) < 8 ∧ 16 ∈ [1, 2, 4, 8, 16] ∧ 16 ≤ down.maxWidth 0 ∧
    hosted.mayTrain 15 = false ∧ lanesReversed [] = false ∧ lanesReversed [32] = true ∧ (down.setBit (Reg.HP.PORT_CFG.LANE_REV 0) false).bit (Reg.HP.PORT_CFG.LANE_REV (0 / 4)) = false ∧
    hosted.get (Reg.HP.PORT_STS.PERST (0 / 4)) = 0 ∧ (hosted.set (Reg.HP.PORT_STS.PERST 0) 1).get (Reg.HP.PORT_STS.PERST (0 / 4)) ≠ 0 ∧
    unfenced hosted ∧ hosted.headCount (15 / 4) ≤ 15 % 4 ∧
    (hosted.set Reg.HLD.STATUS.STATE 4).get Reg.HLD.STATUS.STATE = 4 ∧ hosted.get Reg.HLD.STATUS.STATE < 4 ∧ hosted.headOfGld 63 = none ∧
    hosted.linkUp 0 = true ∧ 0 % 4 < hosted.headCount (0 / 4) ∧ ide.get (Reg.HP.LINK_STS.IDE 0 0) = 1 ∧
    bad.bit (Reg.HP.LOCK.LOCK 0) = false ∧ bad.bit (Reg.HP.PORT_CFG.ENABLE 0) = false ∧
    (disjoint (bad.ldRanges 0) && (bad.ldRanges 0).all (fun r => decide (r.2 ≤ 64)) &&
      (List.range 4).all (fun h => decide (h < bad.headCount 0) || bad.ldCnt (4 * 0 + h) == 0)) = false ∧
    (63 : Nat) < 64 ∧ (7 : Nat) < 8 ∧ hosted.headOfGld 1 = some 0 ∧ ((hosted.ld 1).decoders.getD 0 {}).lock = false ∧
    ((hosted.ld 1).decoders.getD 0 {}).committed = false ∧ decoderOk 0 (2 ^ 28) 1 256 0 = true ∧ (0 : Nat) + 2 ^ 28 / 1 ≤ 2 ^ 46 ∧
    hosted.headOn 0 = true ∧ ({ hosted with island := spdm } : Dev).secured (hosted.ideInst 0) = true ∧
    (keyed.head 0).set0.rx = true ∧ (keyed.head 0).set0.tx = true ∧ keyed.bit (Reg.HP.HEAD_CFG.IDE_SKID_OK 0 0) = true ∧
    (hosted.head 0).set0.rx = false ∧ hosted.headOfInst 128 = some 0 := by
  and_intros <;> first | decide | rfl

theorem witness_ScrubAndInjectionTakeEffect :
    let up : Dev := { hosted.set (Reg.DC.STS.STATE 11) 4 with channels := ⟨[(11, { extra := [(7, 0)] })]⟩ }
    let off := hosted.setBit Reg.ECS.CFG.SCRUB_EN false
    let full : Tab HistEntry := ⟨(List.range 16).map fun k => (k, { device := 0, syndrome := 1, inj := true })⟩
    quiet (at_ up) ∧ (11 : Nat) < 12 ∧ (off.set (Reg.DC.STS.STATE 11) 4).chanUp 11 = true ∧ off.bit Reg.ECS.CFG.SCRUB_EN = false ∧
    up.chanUp 11 = true ∧ (up.channel 11).extra = (7, 0) :: [] ∧ hosted.get Reg.ECS.DEV_THRESH.LEAK_S ≠ 0 ∧
    ((hosted.channel 11).hist.list.filter fun e => e.2.inj).length < 16 ∧
    16 ≤ ((({ hosted with channels := ⟨[(11, { hist := full })]⟩ } : Dev).channel 11).hist.list.filter fun e => e.2.inj).length ∧
    (4 : Nat) ≤ 4 ∧ (136 : Nat) ≤ 136 ∧ (4 : Nat) < 5 ∧ (136 : Nat) < 137 ∧
    (hosted.set (Reg.DC.STS.STATE 11) 3).get (Reg.DC.STS.STATE 11) = 3 ∧ hosted.sweeps.get? 3 = none ∧
    (up.channel 11).patrol + 1 < (up.set (Reg.DC.POP.CAP_GIB 11) 16).chanLines 11 ∧
    hosted.get (Reg.DC.STS.STATE 11) ≠ 3 := by
  and_intros <;> first | decide | rfl
/-- A sweep of slot 3: with nothing left, and at granule 0 of its region, resident, staged or on flash. -/
def sweeping (l : List (Nat × Region)) (e : FmEntry) : Dev :=
  { hosted.set Reg.RNT.REKEY.RATE 1 with
    sweeps := ⟨[(3, { slot := 3, next := 0 })]⟩, regions := ⟨l⟩, fm := ⟨[(0, e)]⟩
    island := { hosted.island with store := { hosted.island.store with slots := ⟨[(3, { st := .active })]⟩ } } }
theorem witness_ScrubAndInjectionTakeEffect_sweeps :
    let r : Region := { reg0 with slot := some 3 }
    let d := sweeping [(0, r)]
    (sweeping [] {}).sweeps.get? 3 = some { slot := 3, next := 0 } ∧ (sweeping [] {}).get Reg.RNT.REKEY.RATE ≠ 0 ∧ (sweeping [] {}).serves = true ∧
    (sweeping [] {}).slotState 3 = .active ∧ (sweeping [] {}).rntShut 6 = false ∧ (sweeping [] {}).sweepNext 3 0 = none ∧ (sweeping [] {}).role ≠ 1 ∧
    (d {}).sweepNext 3 0 = some 0 ∧ (d {}).regionAt 0 = some (0, r) ∧ ((d { tier := .staged }).fme 0).tier = .staged ∧
    ((d { ew := true }).fme 0).tier = .F ∧ ((d { ew := true }).fme 0).ew = true ∧ ((d {}).fme 0).ew = false ∧ (d {}).fills.has 0 = false ∧
    (d {}).sweepLines 3 0 = [] ∧ ((d { tier := .L }).fme 0).tier = .L ∧
    ({ d { tier := .L } with fills := ⟨[(0, fill0)]⟩ } : Dev).fills.has 0 = true := by
  and_intros <;> first | decide | rfl

/-- A patrol read that has not been issued. -/
def waiting : DramRead := { read0 .background with issued := none }
/-- Channel 0 in service with one ×4 RDIMM rank populated; a read of rank 0 queued. -/
def channelled : Dev :=
  let d := ((hosted.set (Reg.DC.STS.STATE 0) 4).set (Reg.DC.POP.TYPE 0) 1).set (Reg.DC.REF_CTL.POSTPONE 0) 4
  { d with reads := ⟨[(5, waiting)]⟩ }
theorem witness_DramChannelsTakeEffect :
    let idle := (hosted.set (Reg.DC.STS.STATE 0) 4).set (Reg.DC.POP.TYPE 0) 1
    let behind : Dev := { channelled with channels := ⟨[(0, { postponed := ⟨[(0, [3, 2, 1, 0])]⟩ })]⟩ }
    let retry : Dev := { channelled with channels := ⟨[(0, { retry := ⟨[(0, ([], 2))]⟩ })]⟩ }
    quiet (at_ channelled) ∧ (0 : Nat) < 12 ∧ channelled.chanUp 0 = true ∧ 0 ≤ channelled.get (Reg.DC.POP.RANKS 0) ∧
    channelled.rankQueued 0 0 = true ∧ ((channelled.channel 0).postponed.getD 0 [] ++ [3]).length ≤ channelled.get (Reg.DC.REF_CTL.POSTPONE 0) ∧
    channelled.get (Reg.DC.REF_CTL.POSTPONE 0) < ((behind.channel 0).postponed.getD 0 [] ++ [3]).length ∧
    idle.chanUp 0 = true ∧ idle.rankQueued 0 0 = false ∧
    (behind.channel 0).postponed.getD 0 [] = 3 :: [2, 1, 0] ∧ behind.get (Reg.DC.REF_CTL.POSTPONE 0) ≤ [3, 2, 1, 0].length ∧
    (idle.setBit (Reg.DC.PD_CTL.EN 0) true).bit (Reg.DC.PD_CTL.EN 0) = true ∧
    ((idle.channel 0).openRows.list.any fun e => e.1 / 32 == 1) = false ∧
    idle.pairQueued 0 1 = false ∧
    1 < 2 * (idle.get (Reg.DC.POP.RANKS 0) + 1) ∧
    idle.bankQueued 0 63 = false ∧ ({ idle with channels := ⟨[(0, { openRows := ⟨[(63, 1)]⟩ })]⟩ } : Dev).bankQueued 0 63 = false ∧
    channelled.reads.get? 5 = some waiting ∧ waiting.issued = none ∧
    (({ channelled with channels := ⟨[(0, { writes := ⟨[(9, { arrived := 0, seq := 0 })]⟩ })]⟩ } : Dev).channel 0).writes.get? 9 = some { arrived := 0, seq := 0 } ∧
    (channelled.set (Reg.DC.SCHED.AGE_MAX 0) 100).get (Reg.DC.SCHED.AGE_MAX 0) ≠ 0 ∧
    (idle.setBit (Reg.DC.CFG.TRACK 0) true).bit (Reg.DC.CFG.TRACK 0) = true ∧ idle.bit (Reg.DC.CFG.TRN_MODE 0) = false ∧
    2 ≤ (-2 : Int).natAbs ∧ idle.chanTrained 0 = true ∧ calm retry ∧ ((retry.set Reg.ECS.FILL_STS.CH_DONE 0).set (Reg.DC.STS.STATE 0) 5).filling 0 = true ∧ (1 : Nat) < 2 ∧ (idle.channel 0).retry.has 1 = false ∧
    (retry.channel 0).retry.get? 0 = some ([], 2) ∧ ((retry.channel 0).retry.del 0).list = [] ∧ (idle.channel 0).retry.get? 1 = none ∧
    idle.chanRuns 0 = true ∧ hosted.chanRuns 0 = false ∧ idle.slotCount 0 = 1 ∧ (20 : Int) < idle.get (Reg.DC.THERM.TS_HIGH 0) ∧
    (20 : Int) < idle.get (Reg.DC.THERM.TS_CRIT 0) := by
  and_intros <;> first | decide | rfl | (unfold calm; decide)
theorem witness_ChannelsTrain :
    let d : Dimm := { kind := 1 }
    let on := (hosted.setBit (Reg.DC.CFG.ENABLE 0) true).set (Reg.DC.STS.STATE 0) 1
    let fast := on.set (Reg.DC.CFG.RATE 0) 1
    quiet (at_ on) ∧ (11 : Nat) < 12 ∧ on.bit (Reg.DC.CFG.ENABLE 0) = true ∧ on.get (Reg.DC.STS.STATE 0) = 1 ∧
    hosted.bit (Reg.DC.CFG.ENABLE 0) = false ∧ hosted.bit (Reg.DC.LOCK.LOCK 0) = false ∧
    fast.bit (Reg.DC.CFG.ENABLE 0) = true ∧ fast.get (Reg.DC.STS.STATE 0) = 1 ∧
    (fast.setBit (Reg.DC.CFG.ENABLE 0) true).refuseCode 0 (slotDimms 0 [(0, d)]) = 0 ∧ slotDimms 0 [(0, d)] ≠ [] ∧ slotDimms 11 [(3, d)] = [] ∧
   
    0 < (on.setBit (Reg.DC.CFG.ENABLE 0) true).refuseCode 0 (slotDimms 0 [(1, { d with answers := false })]) ∧
    ((on.setBit (Reg.DC.CFG.ENABLE 0) false).set (Reg.DC.STS.STATE 0) 6).get (Reg.DC.STS.STATE 0) = 6 ∧
    (on.set (Reg.DC.STS.STATE 0) 2).get (Reg.DC.STS.STATE 0) = 2 ∧ (on.set (Reg.DC.STS.STATE 0) 2).bit (Reg.DC.CFG.TRN_MODE 0) = false ∧
    trainFault 10 true [] [(0, {})] = none ∧ trainFault 10 true [] [(0, { t7 := some 5 })] = some (7, 5, 0, 0) ∧
    trainFault 10 false [none] [(0, {})] = some (1, 127, 0, 0) ∧ trainFault 10 false [some 3] [(0, {})] = some (2, 127, 0, 0) := by
  and_intros <;> first | decide | rfl
theorem witness_DrivesTakeEffect :
    let p1 := hosted.set Reg.NVH.CFG.PORT_EN 128
    let st := fun (v : Nat) => hosted.set (Reg.NVH.DRV.STATE 7) v
    let flush : Dev := { (backed.set Reg.HLD.STATUS.STATE 4).set Reg.NVH.IMG_STS.STATE 6 with drives := ⟨[(0, { flushing := true }), (1, { flushed := true })]⟩ }
    quiet (at_ hosted) ∧ (7 : Nat) < 8 ∧ hosted.bit Reg.NVH.LOCK.LOCK = false ∧ (hosted.get Reg.NVH.CFG.PORT_EN).testBit 7 = false ∧ (1 : Nat) ≠ 0 ∧
    (p1.get Reg.NVH.CFG.PORT_EN).testBit 7 = true ∧ inService (p1.get (Reg.NVH.DRV.STATE 7)) = false ∧
    (st 1).get (Reg.NVH.DRV.STATE 7) = 1 ∧ (7 : Nat) < 8 ∧ (8 : Nat) ≤ 8 ∧ 1 ≤ (st 3).get (Reg.NVH.DRV.STATE 7) ∧
    (st 3).get (Reg.NVH.DRV.STATE 7) ≤ 3 ∧ 1 < backed.imageN ∧ inService (backed.driveSt 1) = true ∧
    (flush.drive 0).flushing = true ∧
    (let u := flush.setDrive 0 { flush.drive 0 with flushing := false, flushed := true }
     (List.range u.imageN).filter u.driveOk = [0, 1] ∧ (u.drive 0).flushed = true ∧ (u.drive 1).flushed = true) ∧
    (let u := ({ flush with drives := ⟨[(0, { flushing := true }), (1, { flushing := true })]⟩ } : Dev).setDrive 0 { flushing := false, flushed := true }
     1 ∈ (List.range u.imageN).filter u.driveOk ∧ (u.drive 1).flushed = false) ∧
    flush.get Reg.HLD.STATUS.STATE = 4 ∧ flush.get Reg.NVH.IMG_STS.STATE = 6 ∧ calm backed ∧ backed.learns.list = [] ∧ backed.fills.get? 3 = none ∧
    backed.destages.list = [] := by
  and_intros <;> first | decide | rfl | (unfold calm; decide)
theorem witness_TheImageIsKept :
    let big : Medium := { cap1 := 2 ^ 40, cap2 := 2 ^ 40 }
    let blank : Dev := { (backed.set Reg.NVH.IMG_STS.STATE 0).set Reg.NVH.IMG_SIZE.EXTENTS 1 with media := ⟨[(0, big), (1, big)]⟩ }
    let dirty : Dev := { backed with fm := ⟨[(0, { tier := .L })]⟩, dirty := ⟨[(0, { first := 0, lastWrite := 0, lines := true })]⟩, clock := 10 ^ 12 }
    let x := fun (st : DestageStep) => ({ step := st, lines := ⟨[]⟩, snap := [], drive := 0 } : Destage)
    let going : Dev := { backed with destages := ⟨[(0, x .tags), (1, x .data)]⟩, learns := ⟨[(9, 0)]⟩ }
    let roomy := ((hosted.set (Reg.DC.POP.TYPE 0) 1).set (Reg.DC.POP.CAP_GIB 0) 64).set Reg.NVH.IMG_STS.STATE 2
    quiet (at_ blank) ∧ backed.get Reg.NVH.IMG_STS.STATE ≠ 0 ∧ blank.get Reg.NVH.IMG_STS.STATE = 0 ∧ blank.imageDrives ≠ [] ∧
    (blank.imageDrives.any fun p => blank.get (Reg.NVH.DRV.STATE p) != 2) = false ∧ (∀ p ∈ blank.imageDrives, blank.createRefusal p = 0) ∧
    (blank.set Reg.NVH.IMG_STS.STATE 1).get Reg.NVH.IMG_STS.STATE = 1 ∧
    roomy.get Reg.NVH.IMG_STS.STATE = 2 ∧ (roomy.saCheck).2 = false ∧ hosted.destageNext = none ∧ dirty.destageNext = some 0 ∧
    going.destages.get? 0 = some (x .tags) ∧ (x .tags).wait = none ∧ (x .tags).step = .tags ∧ going.destages.get? 1 = some (x .data) ∧
    (x .data).step = .data ∧ going.learns.has 9 = true ∧ 1 < backed.imageN ∧ backed.rebuild.get? 1 = none ∧
    (let r : Dev := { backed.set Reg.NVH.REBUILD.RATE 1 with rebuild := ⟨[(1, { drive := 1, cursor := 512 })]⟩ }
     r.rebuild.get? 1 = some { drive := 1, cursor := 512 } ∧ r.get Reg.NVH.REBUILD.RATE ≠ 0 ∧ imageD r.imageN r.imageG ≤ 512) := by
  and_intros <;> first | decide | rfl
/-- A header copy that carries its own KMAC is the one its drive offers. -/
theorem best_signed (key : List Nat) (m : Medium) (h : ImgHeader) (hr : h.recognised = true) (hl : h.lost = false)
    (h0 : m.header0 = some { h with tag := h.mac key }) (h1 : m.header1 = none) : m.best key = some { h with tag := h.mac key } := by
  have hv : ({ h with tag := h.mac key } : ImgHeader).valid key = true := by
    show (h.recognised && (!h.lost && (h.mac key == h.mac key))) = true
    rw [hr, hl]; simp
  simp [Medium.best, Medium.headers, h0, h1, hv]
theorem restoreHeader_one (u : Dev) (h : ImgHeader) (hn : u.imageN = 1) (hs : u.driveSt 0 = 2) (hb : (u.medium 0).best u.imageKey = some h)
    (h1 : h.n = 1) (h0 : h.slot = 0) : u.restoreHeader = some h := by
  simp [Dev.restoreHeader, hn, hs, hb, h1, h0, show List.range 1 = [0] from rfl]
/-- A filled device whose one drive is ready, with no image. -/
def oneDrive : Dev := (((hosted.set Reg.NVH.IMG_CFG.DRIVE_MASK 1).set (Reg.NVH.DRV.STATE 0) 2).set Reg.NVH.IMG_STS.STATE 0).setBit
  Reg.ECS.FILL_STS.ALL_DONE true
theorem witness_TheImageIsKept_restore : ∃ d : Dev, ∃ h : ImgHeader, quiet (at_ d) ∧ d.get Reg.NVH.IMG_STS.STATE = 0 ∧
    d.bit Reg.ECS.FILL_STS.ALL_DONE = true ∧
    (((List.range d.imageN).filter fun k => d.driveSt k == 2).foldl (fun d k => d.nvme k .read 1 0 32) d).restoreHeader = some h := by
  let h : ImgHeader := { n := 1, g := 512, seq := 3 }
  let h' : ImgHeader := { h with tag := h.mac oneDrive.imageKey }
  let d : Dev := { oneDrive with media := ⟨[(0, { header0 := some h' })]⟩ }
  refine ⟨d, h', rfl, rfl, rfl, ?_⟩
  have sent : ∀ (l : List Nat) (d : Dev), ∃ o, l.foldl (fun d k => d.nvme k .read 1 0 32) d = { d with out := o } := by
    intro l; induction l with
    | nil => exact fun d => ⟨d.out, rfl⟩
    | cons k l ih => exact fun d => (ih (d.nvme k .read 1 0 32)).imp fun o h => h
  obtain ⟨o, ho⟩ := sent ((List.range d.imageN).filter fun k => d.driveSt k == 2) d
  rw [ho]
  have hk : ({ d with out := o } : Dev).imageKey = oneDrive.imageKey := by unfold Dev.imageKey Dev.internalKey; rfl
  have hd : ({ d with out := o } : Dev).imageDrives = [0] :=
    .trans (b := oneDrive.imageDrives) (by unfold Dev.imageDrives; rfl) rfl
  have hm : ({ d with out := o } : Dev).medium 0 = { header0 := some h' } := by unfold Dev.medium; rw [hd]; rfl
  have hs : ({ d with out := o } : Dev).driveSt 0 = 2 := by
    unfold Dev.driveSt; rw [hd]; exact .trans (b := oneDrive.get (Reg.NVH.DRV.STATE 0)) (by unfold Dev.get; rfl) rfl
  refine restoreHeader_one { d with out := o } h' (congrArg List.length hd) hs ?_ rfl rfl
  rw [hk, hm]
  exact best_signed oneDrive.imageKey _ h rfl rfl rfl rfl

/-! ## Witnesses: the Twinset transport, leases and the Round -/

def conn0 : Conn := {}
/-- Association 0 UP with member 7, connections 0 and 5 open, in role `r` and pair state `p`. -/
def linked (r p : Nat) (c : Conn) : Dev :=
  let a : Assoc := { member := 7, state := 2, phase0 := true, aepoch := 1, conns := ⟨[(0, c), (5, c)]⟩ }
  { (hosted.set Reg.MIR.ROLE.ROLE r).set Reg.MIR.ROLE.PSTATE p with assocs := ⟨[(0, a)]⟩ }
def from7 (cid : Nat) : RxHdr := { src := 7, cid, psn := 0, una := 0, ts := 0, txSeq := 1, aepoch := 1 }

theorem witness_LinkEventsTakeEffect :
    let with_ := fun (f : Assoc → Assoc) => ({ linked 0 0 conn0 with assocs := ⟨[(0, f ((linked 0 0 conn0).assoc 0))]⟩ } : Dev)
    let known := fun (d : Dev) => ({ d with island := { store := { secret4 := some 1 } }
                                            round := { permitted := 128, idHashes := ⟨[(7, 9)]⟩ } } : Dev)
    let hello := known (with_ fun x => { x with state := 1, nonce := some 3, phase0 := false, aepoch := 1 })
    let e : Sent := { payload := .keepalive, at_ := 0 }
    let sending := fun (e : Sent) (c : Conn) => linked 0 0 { c with sent := ⟨[(2, e)]⟩ }
    let port := (hosted.setBit Reg.TWL.CFG.ENABLE true).set Reg.TWL.CFG.PORTS 2
    let pfc : Dev := { (hosted.setBit Reg.TWL.CFG.PFC_EN true).set Reg.TWL.PFC.PRI 255 with paused := ⟨[(3 * 8 + 7, 0)]⟩ }
    quiet (at_ hosted) ∧ ((linked 0 0 conn0).assoc 0).state ≠ 0 ∧ (47 : Nat) < 48 ∧ (hosted.assoc 47).state = 0 ∧
    hello.rxAssoc 7 = some 0 ∧ hello.secretHeld 0 = true ∧ hello.permittedId 7 9 = true ∧
    (let d := (2 ^ 15 - 1 + 65536 - (hello.assoc 0).storedEpoch % 65536) % 65536
     d ≠ 0 ∧ d < 2 ^ 15) ∧ (hello.assoc 0).state < 2 ∧
    2 ^ 15 ≤ (2 ^ 15 + 65536 - (hello.assoc 0).storedEpoch % 65536) % 65536 ∧
    (hello.assoc 0).state = 1 ∧ (hello.assoc 0).nonce.isSome = true ∧ 0 = (if (hello.assoc 0).secret then 1 else 0) ∧
    ((linked 0 0 conn0).assoc 0).phase0 = true ∧ ((linked 0 0 conn0).assoc 0).state = 2 ∧
    ((with_ fun x => { x with retire := some 4 }).assoc 0).retire = some 4 ∧
    port.bit Reg.TWL.CFG.ENABLE = true ∧ 3 < port.twlPorts ∧ port.get (Reg.TWL.PORT_STS.SPEED 3) = 0 ∧
    (port.set (Reg.TWL.PORT_STS.SPEED 3) 2).get (Reg.TWL.PORT_STS.SPEED 3) ≠ 0 ∧
    pfc.bit Reg.TWL.CFG.PFC_EN = true ∧ (pfc.get Reg.TWL.PFC.PRI).testBit 7 = true ∧
    (pfc.txHeld.filter fun h => pfc.portOf h.assoc h.cid == some 3 && pfc.pcp h.prio == 7) = [] ∧ pfc.paused.get? (3 * 8 + 7) = some 0 ∧
    (3 : Nat) < 4 ∧ (sending e conn0).conn 0 5 = some { conn0 with sent := ⟨[(2, e)]⟩ } ∧ conn0.state = 1 ∧ e.unsent = false ∧ e.rnr = none ∧
    (conn0.relaxed = true → e.sacked = false) ∧
    (sending e conn0).get Reg.TWT.RETX.RETRY_MAX ≤ ({ e with timeouts := 255 } : Sent).timeouts + 1 ∧
    e.timeouts + 1 < (sending e conn0).get Reg.TWT.RETX.RETRY_MAX ∧ ({ e with rnr := some 8 } : Sent).rnr = some 8 ∧
    (linked 0 0 { conn0 with unacked := 1 }).conn 0 5 = some { conn0 with unacked := 1 } ∧ conn0.cached = true ∧
    (linked 0 0 conn0).conn 0 5 = some conn0 ∧ ((linked 0 0 conn0).setBit Reg.CCC.CFG.CC_EN true).bit Reg.CCC.CFG.CC_EN = true ∧
    (linked 0 0 { conn0 with refill := true }).conn 0 5 = some { conn0 with refill := true } ∧
    (linked 0 0 { conn0 with refill := true }).chanCount < 2 ∧
    ((linked 0 0 { conn0 with refill := true }).setBit Reg.CCC.CFG.CC_EN false).bit Reg.CCC.CFG.CC_EN = false := by
  and_intros <;> first | decide | rfl

/-- Association 0 of a device that holds the pair's secret; and the KMAC of a HELLO covers nothing of the KMAC itself. -/
def secretive : Dev := { linked 0 0 conn0 with island := { store := { secret4 := some 1 } } }
theorem hello_tbh (mac : Nat) : secretive.rxTbh (from7 0) (.hello 3 9 0 1 mac) = secretive.rxTbh (from7 0) (.hello 3 9 0 1 0) := rfl
theorem hello_body (mac : Nat) : ((Payload.hello 3 9 0 1 mac).body 0).take 68 = ((Payload.hello 3 9 0 1 0).body 0).take 68 := rfl
theorem helloRsp_tbh (mac : Nat) : secretive.rxTbh (from7 0) (.helloRsp 3 9 0 1 mac) = secretive.rxTbh (from7 0) (.helloRsp 3 9 0 1 0) := rfl
theorem helloRsp_body (mac : Nat) : ((Payload.helloRsp 3 9 0 1 mac).body 0).take 68 = ((Payload.helloRsp 3 9 0 1 0).body 0).take 68 := rfl
theorem witness_LinkEventsTakeEffect_hello : ∃ m, secretive.filters (from7 0) (.hello 3 9 0 1 m) = false ∧ secretive.secretHeld 0 = true ∧
    secretive.secretHeld 1 = false ∧ secretive.helloOk (from7 0) 0 m (.hello 3 9 0 1 m) = true ∧
    secretive.filters { from7 0 with kind := .arp } (.hello 3 9 0 1 m) = true ∧
    ∃ m', secretive.filters (from7 0) (.helloRsp 3 9 0 1 m') = false ∧ secretive.helloOk (from7 0) 0 m' (.helloRsp 3 9 0 1 m') = true := by
  have h1 : ∀ k, secretive.helloOk (from7 0) 0 (helloMac (secretive.internalKey 4) (secretive.rxTbh (from7 0) (.hello 3 9 0 1 0)) (.hello 3 9 0 1 0))
      (.hello 3 9 0 1 k) = true := fun k => by
    unfold Dev.helloOk helloMac; rw [hello_tbh k, hello_body k]; exact beq_self_eq_true _
  have h2 : ∀ k, secretive.helloOk (from7 0) 0 (helloMac (secretive.internalKey 4) (secretive.rxTbh (from7 0) (.helloRsp 3 9 0 1 0)) (.helloRsp 3 9 0 1 0))
      (.helloRsp 3 9 0 1 k) = true := fun k => by
    unfold Dev.helloOk helloMac; rw [helloRsp_tbh k, helloRsp_body k]; exact beq_self_eq_true _
  have f : ∀ m, secretive.filters (from7 0) (.hello 3 9 0 1 m) = false := fun _ => rfl
  have g : ∀ m, secretive.filters (from7 0) (.helloRsp 3 9 0 1 m) = false := fun _ => rfl
  exact ⟨_, f _, rfl, rfl, h1 _, rfl, _, g _, h2 _⟩
theorem witness_LinkEventsTakeEffect_resends :
    let e : Sent := { payload := .keepalive, at_ := 0 }
    let c : Conn := { conn0 with sent := ⟨[(2, e)]⟩ }
    let u := (linked 0 0 c).set (Reg.TWL.PORT_STS.SPEED 0) 2
    let d : Dev := { u with paused := ⟨[(0 * 8 + u.pcp c.prio, 0)]⟩ }
    let r : Conn := { conn0 with refill := true }
    let two := ((linked 0 0 r).set (Reg.DC.POP.TYPE 0) 1).set (Reg.DC.POP.TYPE 1) 1
    d.conn 0 5 = some c ∧ c.sent.get? 2 = some e ∧ d.portOf 0 5 = some 0 ∧ d.paused.has (0 * 8 + d.pcp c.prio) = true ∧
    ({ e with unsent := true } : Sent).unsent = true ∧ calm d ∧ ((linked 0 0 conn0).assoc 0).rekeySent = none ∧
    (linked 0 0 conn0).conn 0 0 = some conn0 ∧ (hosted.assoc 47).conns.list = [] ∧
    ((two.at (r.refillAt + refillFclk)).xptReadAll r.context).2 = true ∧ ((hosted.at 0).xptReadAll r.context).2 = false ∧
    2 ≤ (two.xptReadAll r.context).1.chanCount := by
  and_intros <;> first | decide | rfl | (unfold calm; decide)

/-- `h` with the ICV that `s` computes over the packet it heads. -/
def tagged (s : State) (h : RxHdr) (a : Nat) (p : Payload) : RxHdr := { h with icv := (opened s h a p).1.rxIcv a h p }
theorem opened_icv (s : State) (h : RxHdr) (a : Nat) (p : Payload) (x : Nat) : opened s { h with icv := x } a p = opened s h a p := by
  unfold opened Dev.pfcSend; rfl
theorem rxIcv_icv (d : Dev) (a : Nat) (h : RxHdr) (p : Payload) (x : Nat) : d.rxIcv a { h with icv := x } p = d.rxIcv a h p := by
  unfold Dev.rxIcv Dev.rxTbh; rfl
theorem filters_icv (d : Dev) (h : RxHdr) (p : Payload) (x : Nat) : d.filters { h with icv := x } p = d.filters h p := by
  unfold Dev.filters; rfl
theorem fresh_icv (x : Assoc) (h : RxHdr) (k : Nat) : x.fresh { h with icv := k } = x.fresh h := by unfold Assoc.fresh; rfl
theorem verifies_icv (s : State) (h : RxHdr) (a : Nat) (p : Payload) (x : Nat) (hx : x = (opened s h a p).1.rxIcv a h p)
    (h1 : s.dev.rxAssoc h.src = some a) (h2 : s.dev.filters h p = false) (h3 : (s.dev.assoc a).state ≠ 0)
    (h4 : h.aepoch = (s.dev.assoc a).aepoch) (h5 : (if h.kph then (s.dev.assoc a).phase1 else (s.dev.assoc a).phase0) = true)
    (h6 : (opened s h a p).2 = true) (h7 : (s.dev.assoc a).fresh h = true) : verifies s { h with icv := x } a p := by
  unfold verifies
  rw [opened_icv, rxIcv_icv, filters_icv, fresh_icv]
  exact ⟨h1, h2, h3, h4, h5, h6, hx, h7⟩
theorem verifies_tagged {s : State} {h : RxHdr} {a : Nat} {p : Payload} (h1 : s.dev.rxAssoc h.src = some a) (h2 : s.dev.filters h p = false)
    (h3 : (s.dev.assoc a).state ≠ 0) (h4 : h.aepoch = (s.dev.assoc a).aepoch)
    (h5 : (if h.kph then (s.dev.assoc a).phase1 else (s.dev.assoc a).phase0) = true) (h6 : (opened s h a p).2 = true)
    (h7 : (s.dev.assoc a).fresh h = true) : verifies s (tagged s h a p) a p := verifies_icv s h a p _ rfl h1 h2 h3 h4 h5 h6 h7

/-- The peer of association 0 as `r` in pair state `p`, with frame 0 lent to it and connection 5 as `c`. -/
def peer (r p : Nat) (c : Conn) : State := at_ { linked r p c with round := { lend := ⟨[(0, { frame := 0, member := some 7 })]⟩ } }
/-- A packet on connection `cid` of association 0, with nothing against it, verifies and is in its turn there. -/
def turn (s : State) (cid : Nat) (c : Conn) (p : Payload) : Prop :=
  inTurn s (tagged s (from7 cid) 0 p) 0 c p
/-- A message of unknown layout passes the filters at the MTU after reset (R272). -/
theorem message_fits (d : Dev) (h : RxHdr) (p : Payload) (l : List Nat) (hk : h.kind = .twinset) (hm : d.get Reg.TWT.CFG.MTU = 9216) (hu : h.udpSum = some true)
    (hp : p.body d.fragRoom = messageBody l) (ho : (p.opHeader d.fragRoom).length = 4) : d.filters h p = false := by
  have := Nat.mod_lt (Config.messageLength l) (show 0 < 4701 by decide)
  have hb : (messageBody l).length < 4701 := by simpa [messageBody] using this
  have : d.ipLen p ≤ 9216 := by
    unfold Dev.ipLen Payload.wire; rw [List.length_append, ho, hp]; split <;> split <;> omega
  simp [Dev.filters, hk, hm, hu, this]
theorem keyWait_fits : (peer 1 3 conn0).dev.filters (from7 5) (.keyWait 0) = false := message_fits _ _ _ _ rfl rfl rfl rfl rfl
theorem joinRsp_fits : (peer 0 0 conn0).dev.filters (from7 5) (.joinRsp 1 0) = false := message_fits _ _ _ _ rfl rfl rfl rfl rfl
theorem witness_PacketsAreCarriedOut_turn :
    (∀ p, p ∈ [Payload.open 5 false 0 1 0 0 0, .openRsp 5 false 0 64 0 0 0 0, .close 5, .rekey 9] → turn (peer 0 0 conn0) 0 conn0 p) ∧
    turn (peer 2 0 conn0) 5 conn0 (.laneRec 0 []) ∧ turn (peer 2 0 conn0) 5 conn0 (.cmdFwd 0 false (.regionDestroy 0 1)) ∧
    turn (peer 0 0 conn0) 5 conn0 (.read true 0 0 false 1 0 9) ∧ turn (peer 0 0 conn0) 5 conn0 (.write true 0 0 false 1 0 9 ⟨[]⟩) ∧
    turn (peer 5 0 conn0) 5 conn0 (.table [] false false) ∧ turn (peer 1 3 conn0) 5 conn0 (.divrun [] false) ∧
    turn (peer 1 3 conn0) 5 conn0 (.keyWait 0) ∧ turn (peer 0 0 conn0) 5 conn0 (.joinRsp 1 0) ∧
    turn (peer 0 0 conn0) 5 conn0 (.lease { subtype := 7, epoch := 0, rseq := 1, pairId := 0 }) ∧ turn (peer 0 0 conn0) 5 conn0 (.loanMsg { subtype := 6 }) := by
  refine ⟨?_, ?_, ?_, ?_, ?_, ?_, ?_, ?_, ?_, ?_, ?_⟩
  · intro p hp
    simp only [List.mem_cons, List.not_mem_nil, or_false] at hp
    obtain rfl | rfl | rfl | rfl := hp <;>
      exact ⟨verifies_tagged (by decide) (by decide) (by decide) (by decide) (by decide) (by decide) (by decide), by decide, by decide, rfl, rfl,
        by decide, by decide⟩
  all_goals
    exact ⟨verifies_tagged (by decide) (by first | decide | exact keyWait_fits | exact joinRsp_fits) (by decide) (by decide) (by decide) (by decide)
      (by decide), by decide, by decide, rfl, rfl, by decide, by decide⟩
theorem witness_PacketsAreCarriedOut :
    let d := fun (s : State) (cid : Nat) (p : Payload) => taken s (tagged s (from7 cid) 0 p) 0 conn0 p
    let p := Payload.lease { subtype := 7, epoch := 0, rseq := 1, pairId := 0 }
    let m : State := at_ ((linked 0 0 conn0).set Reg.MIR.CFG.REF_MEMBER 7)
    (1 : Nat) ≤ 4096 ∧ (4096 : Nat) ≤ 4096 ∧ ((d (peer 2 0 conn0) 5 (.laneRec 0 [])).rxLane 0 []).2 = .ok ∧
    ((d (peer 2 0 conn0) 5 (.cmdFwd 0 false (.regionDestroy 0 1))).rxCmd 0 5 0 0 false (.regionDestroy 0 1)).2 = .ok ∧
    ((d (peer 0 0 conn0) 5 (.read true 0 0 false 1 0 9)).rxRead 0 5 0 true 0 0 false 1 0 9).2 = .answered ∧
    ((d (peer 0 0 conn0) 5 (.write true 0 0 false 1 0 9 ⟨[]⟩)).rxWrite 0 true 0 0 false 1 0 9 ⟨[]⟩).2 = .ok ∧
    ((d (peer 5 0 conn0) 5 (.table [] false false)).rxTable 0 0 [] false false).2 = .ok ∧
    ((d (peer 1 3 conn0) 5 (.divrun [] false)).rxDivrun 0 [] false).2 = .ok ∧
    ((d (peer 1 3 conn0) 5 (.keyWait 0)).rxKeyWait 0 0).2 = .ok ∧
    (d m 5 p).bit Reg.MIR.CFG.REF_HOST = false ∧ ((d m 5 p).assoc 0).member = (d m 5 p).get Reg.MIR.CFG.REF_MEMBER ∧
    ((d (peer 0 0 conn0) 5 p).assoc 0).member ≠ (d (peer 0 0 conn0) 5 p).get Reg.MIR.CFG.REF_MEMBER := by
  and_intros <;> first | decide | rfl
theorem witness_PacketsAreCarriedOut_fence :
    let g : RxHdr := { from7 5 with fence := true, ar := true }
    let s := peer 2 0 conn0
    inTurn s (tagged s g 0 .fence) 0 conn0 .fence ∧ (taken s (tagged s g 0 .fence) 0 conn0 .fence).applies 0 = true := by
  exact ⟨⟨verifies_tagged (by decide) (by decide) (by decide) (by decide) (by decide) (by decide) (by decide), by decide, by decide, rfl, rfl,
    by decide, by decide⟩, by decide⟩
theorem witness_PacketsAreCarriedOut_relaxed :
    let c : Conn := { conn0 with relaxed := true }
    let g : RxHdr := { from7 5 with psn := 63 }
    let s := peer 2 0 c
    inTurn s (tagged s g 0 (.laneRec 0 [])) 0 c (.laneRec 0 []) := by
  exact ⟨verifies_tagged (by decide) (by decide) (by decide) (by decide) (by decide) (by decide) (by decide), by decide, by decide, rfl, rfl,
    by decide, by decide⟩
/-- What is not carried out: no peer, a frame of another kind, another epoch, no key, an ICV that does not verify, a copy, and, of a packet that
verifies, an operation header that contradicts itself, a connection that is not open, a request refused and one not ready. -/
theorem witness_PacketsAreCarriedOut_refused :
    let s := peer 0 0 conn0
    let x : Assoc := { member := 7, state := 2, phase0 := true, aepoch := 1 }
    let old : Dev := { linked 0 0 conn0 with assocs := ⟨[(0, { x with rxHigh := ⟨[(0, 2000)]⟩ })]⟩ }
    let bad : RxHdr := { from7 5 with badOp := true }
    let lane := Payload.laneRec 0 []
    let wait := at_ { linked 5 0 conn0 with mirror := { keyWait := true } }
    let table := Payload.table [{ region := 0, r := { reg0 with mirror := true, slot := some 3 }, epoch := 1, fingerprint := 1 }] false false
    hosted.rxAssoc 7 = none ∧ (s.dev.pfcSend { from7 0 with kind := .arp }).filters { from7 0 with kind := .arp } .keepalive = true ∧
    (from7 0).aepoch ≠ ({ x with aepoch := 65535 } : Assoc).aepoch ∧ ({ x with phase0 := false } : Assoc).phase0 = false ∧
    (opened s (from7 0) 0 .keepalive).2 = true ∧ (old.assoc 0).fresh (from7 0) = false ∧
    (opened s { from7 0 with checks := [{ bad := true, badRetry := true }] } 0 .keepalive).2 = false ∧
    verifies s (tagged s bad 0 .keepalive) 0 .keepalive ∧ sequenced .keepalive = false ∧ bad.badOp = true ∧
    verifies s (tagged s { from7 9 with badOp := true } 0 lane) 0 lane ∧ sequenced lane = true ∧ (heard s (from7 9) 0 lane).conn 0 9 = none ∧
    turn s 5 conn0 lane ∧ ((taken s (from7 5) 0 conn0 lane).execute 0 5 (from7 5) lane).2 = .refuse 9 0 ∧ conn0.refusals.size < 64 ∧
    turn wait 5 conn0 table ∧
    ((taken wait (from7 5) 0 conn0 table).execute 0 5 (from7 5) table).2 = .rnr := by
  refine ⟨?_, ?_, ?_, ?_, ?_, ?_, ?_, ?_, ?_, ?_, ?_, ?_, ?_, ?_, ?_, ?_, ?_, ?_⟩ <;> first
    | decide
    | rfl
    | exact verifies_tagged (by decide) (by decide) (by decide) (by decide) (by decide) (by decide) (by decide)
    | exact ⟨verifies_tagged (by decide) (by decide) (by decide) (by decide) (by decide) (by decide) (by decide), by decide, by decide, rfl, rfl,
        by decide, by decide⟩

theorem witness_LeaseAndRoundTimersTakeEffect :
    let role := fun (r : Nat) (f : Mirror → Mirror) => ({ (hosted.set Reg.MIR.ROLE.ROLE r) with mirror := f {} } : Dev)
    let msg : LeaseMsg := { subtype := 2, epoch := 0, rseq := 1, pairId := 0 }
    let force : LeaseMsg := { msg with force := true }
    let clean : LeaseMsg := { msg with clean := true }
    let pair : RefPair := { memberA := 7, en := true, stbyOk := true, held := [(7, force)] }
    let pairC : RefPair := { memberB := 9, memberA := 8, en := true, stbyOk := true, held := [(9, clean)] }
    let rec0 : RefLog := { slot := 0, pairId := 0, epoch := 1, holder := 0, stbyOk := false, seq := 0 }
    let refs : Dev := { hosted with refPairs := ⟨[(0, { pair with waiting := [(rec0, [])] }), (1, pairC)]⟩ }
    let r0 : MirRecord := { line := 0, gen := 1, ln := {} }
    let copying : Dev := { (role 1 fun m => { m with resyncStep := 4, div := ⟨[(5, ())]⟩ }).set Reg.MIR.ROLE.PSTATE 3 with regions := .empty }
    let tok : Token := { epoch := 0, seq := 0, origin := 0, minVer := 1, members := 3, digest := 0 }
    let ring := ((hosted.set Reg.RND.STS.STATE 2).set Reg.RND.RING.MEMBERS 3)
    let second := ring.set Reg.RND.CFG.MEMBER 1
    let lender : Dev := { hosted.set Reg.RND.LEND.KEEP_FRAMES 1 with round := { lend := ⟨[(7, { frame := 0, member := some 3 })]⟩ } }
    let borrower : Dev := { hosted.set Reg.RND.BORROW.IDLE_S 1 with round := { borrow := ⟨[(3072, { loan := 9, gen := 1, idleSince := some 4 })]⟩ } }
    quiet (at_ hosted) ∧ (hosted.setBit Reg.CKS.PLL_STS.HOLDOVER true).bit Reg.CKS.PLL_STS.HOLDOVER = true ∧
    hosted.bit Reg.CKS.PLL_STS.HOLDOVER = false ∧ (role 1 id).role = 1 ∧ (role 2 id).role = 2 ∧ (role 6 id).role = 6 ∧
    ((role 6 id).set Reg.NVH.IMG_STS.STATE 3).get Reg.NVH.IMG_STS.STATE = 3 ∧
    (role 2 fun m => { m with requests := [(4, msg)] }).mirror.requests = (4, msg) :: [] ∧ msg.running = false ∧ msg.subtype ≠ 1 ∧
    (role 1 fun m => { m with leaseEnd := some (10 ^ 9) }).mirror.leaseEnd = some (10 ^ 9) ∧
    (role 3 fun m => { m with draining := true }).role = 3 ∧ (role 3 fun m => { m with draining := true }).mirror.draining = true ∧
    (role 1 id).lockstep = true ∧ (15 : Nat) < 16 ∧ ((role 1 fun m => { m with lanes := ⟨[(15, { refused := [r0] })]⟩ }).lane 15).refused ≠ [] ∧
    refs.refPairs.get? 0 = some { pair with waiting := [(rec0, [])] } ∧ pair.en = true ∧ pair.held = (7, force) :: [] ∧ pair.twin 7 = some 0 ∧
    pair.when 0 force = some pair.lapse ∧ refs.refPairs.get? 1 = some pairC ∧ pairC.twin 9 = some 1 ∧
    pairC.when 1 clean = some (pairC.lapse + oHoldWait) ∧ alone.resyncReady = true ∧
    (alone.setBit Reg.MIR.CFG.AUTO_RESYNC true).bit Reg.MIR.CFG.AUTO_RESYNC = true ∧
    copying.role = 1 ∧ copying.pstate = 3 ∧ copying.mirror.resyncStep = 4 ∧ (copying.set Reg.MIR.RESYNC.RATE 1).get Reg.MIR.RESYNC.RATE ≠ 0 ∧
    copying.mirror.div = ⟨[(5, ())]⟩ ∧ copying.mirror.copies = .empty ∧
    (let c : Dev := { copying with regions := ⟨[(0, { reg0 with mirror := true })]⟩ }
     c.copyNeed 5 = .ready ∧ (c.setBit Reg.MIR.RSYNC_STS.KEY_WAIT false).copyNeed 5 = .ready) ∧
    ring.rndState = 2 ∧ ring.leader = some ring.me ∧
    ({ ring with round := { forwarded := some (1, 0, 0, tok, 5) } } : Dev).round.forwarded = some (1, 0, 0, tok, 5) ∧
    second.leader = some 0 ∧ second.rndState = 2 ∧ 0 ≠ second.me ∧
    (membersOf second.ringMask).find? (fun m => m == second.me || second.memberUp m) = some second.me ∧
    (hosted.setBit Reg.RND.LOCK.LOCK true).bit Reg.RND.LOCK.LOCK = true ∧ hosted.bit Reg.RND.LOCK.LOCK = false ∧
    lender.freeFrames < lender.get Reg.RND.LEND.KEEP_FRAMES ∧ lender.reclaimAny.isSome = true ∧
    borrower.round.borrow.get? 3072 = some { loan := 9, gen := 1, idleSince := some 4 } ∧ borrower.get Reg.RND.BORROW.IDLE_S ≠ 0 ∧
    borrower.loanIdle 3072 = true ∧ ({ hosted with round := { offered := some (1, 2) } } : Dev).round.offered = some (1, 2) := by
  and_intros <;> first | decide | rfl

/-! ## Witnesses: the security island -/

/-- The island released, instance MCTP with an established session, DEVICE_HASH 5, an owner with key 11 and tenant 0 with key 22. -/
def secure : Dev :=
  let st : KeyStore := { owner := some { key := 11, lastSeq := 0 }, tenants := ⟨[(0, { key := 22, lastSeq := 0 })]⟩ }
  { hosted with island := { phase := 2, deviceHash := 5, store := st, spdm := ⟨[(mctpInst, { phase := 3, sessions := ⟨[(1, { phase := 1, lastBeat := 0 })]⟩ })]⟩ } }
def overSpdm : SignedHdr := { chan := .spdm mctpInst, device := 5, cred := 0xFFFF, seq := 1, signer := some 11 }
def overRing : SignedHdr := { chan := .ring byM, device := 5, cred := 0xFFFF, seq := 1, signer := some 11 }
theorem witness_SignedOperationsTakeEffect :
    let p := signedAs overSpdm (.tenantRemove 3)
    let ringed8 : Dev := { ringed 8 secure with clock := 0 }
    let waits := secure.setIsland fun i => { i with pending := some p }
    (secure.setIsland fun i => { i with reloading := true }).islandFree = false ∧ secure.islandFree = true ∧
    secure.verify State.reset.fuses p.op = 0 ∧ secure.verify State.reset.fuses { p.op with device := 6 } ≠ 0 ∧
    (∀ b, reaches (at_ secure) overSpdm b secure) ∧
    reaches (at_ ringed8) overRing (.tenantRemove 3) (ringed8.start byM 2 0xFFFF (SignedBody.names (.tenantRemove 3))) ∧
    (0 : Nat) ≠ 0xFFFF ∧ waits.island.pending = some p ∧ p.op.body ≠ .logClear ∧
    (∀ k t, p.op.body ≠ .zeroise 2 k t) ∧ 63 ∈ [0, 63] ∧ (1 : Nat) ≠ 2 := by
  refine ⟨?_, ?_, ?_, ?_, fun b => .inl ⟨mctpInst, rfl, ?_, ?_, rfl⟩, .inr ⟨byM, _, rfl, rfl, rfl, ?_, rfl, ?_, ?_, ?_, ?_⟩, ?_, ?_, ?_,
    fun k t h => SignedBody.noConfusion h, ?_, ?_⟩ <;> first | decide | rfl
theorem witness_TheIslandBoots :
    let good : FwImage := {}
    let bad : FwImage := { signed := false }
    let boot := fun (a b : FwImage) => hosted.setIsland fun i => { i with imageA := a, imageB := b, phase := 0 }
    let fu := State.reset.fuses
    let fell := (hosted.setBit Reg.KSL.BOOT_STS.FALLBACK true).setIsland fun i => { i with phase := 1 }
    quiet (at_ hosted) ∧ (boot good good).island.phase = 0 ∧ (boot good good).bit Reg.KSL.BOOT_STS.FAILED = false ∧ (boot good good).psq.extest = false ∧
    fu.imageOk ((boot good good).island.image false) = true ∧ fu.imageOk ((boot bad good).island.image false) = false ∧
    fu.imageOk ((boot bad good).island.image !false) = true ∧ fu.imageOk ((boot bad bad).island.image !false) = false ∧
    fell.island.phase = 1 ∧ fell.bit Reg.KSL.BOOT_STS.FALLBACK = true ∧
    (fell.setBit Reg.KSL.BOOT_STS.FALLBACK false).bit Reg.KSL.BOOT_STS.FALLBACK = false ∧
    ((boot bad bad).setBit Reg.KSL.BOOT_STS.FAILED true).bit Reg.KSL.BOOT_STS.FAILED = true ∧ fu.imageOk good = true ∧
    secure.island.phase = 2 ∧ secure.bit Reg.KSL.BOOT_STS.FALLBACK = false ∧
    (secure.island.excursions.filter fun x => decide (secure.clock ≤ x + 10 * fclkS)).length < 2 ∧
    (secure.setIsland fun i => { i with reloading := true }).island.reloading = true := by
  and_intros <;> first | decide | rfl
theorem witness_SpdmAnswers :
    let at_phase := fun (x : SpdmInst) => secure.setSpdm mctpInst x
    let sess := fun (p : Nat) => at_phase { phase := 3, sessions := ⟨[(1, { phase := p, lastBeat := 0 })]⟩ }
    let full : Tab Session := ⟨(List.range (sessionLimit mctpInst)).map fun k => (k, { phase := 1, lastBeat := 0 })⟩
    secure.spdmReachable mctpInst = true ∧ ((at_phase { phase := 1 }).spdmInst mctpInst).phase = 1 ∧
    ((at_phase { phase := 0 }).spdmInst mctpInst).phase ≠ 1 ∧ ((at_phase { phase := 2 }).spdmInst mctpInst).phase = 2 ∧
    (true && true && true && false) = false ∧ ((at_phase { phase := 2 }).spdmInst mctpInst).phase < 3 ∧ 3 ≤ (secure.spdmInst mctpInst).phase ∧
    spdmChunk ≤ spdmChunk ∧ spdmChunk < spdmChunk + 1 ∧ (1 : Nat) ≠ 0 ∧ (1 : Nat) ≤ 8 ∧ (8 : Nat) ≤ 8 ∧
    sessionLimit mctpInst ≤ ((at_phase { phase := 3, sessions := full }).spdmInst mctpInst).sessions.list.length ∧
    ((sess 1).spdmInst mctpInst).sessions.list.length < sessionLimit mctpInst ∧ ((sess 1).spdmInst mctpInst).sessions.has 2 = false ∧
    ((sess 0).spdmInst mctpInst).sessions.get? 1 = some { phase := 0, lastBeat := 0 } ∧
    ((sess 1).spdmInst mctpInst).sessions.get? 1 = some { phase := 1, lastBeat := 0 } ∧ ((sess 1).spdmInst mctpInst).sessions.get? 2 = none ∧
    (secure.spdmInst mctpInst).chunkIn = none ∧ ((at_phase { phase := 2, chunkIn := some (1, 1, 9) }).spdmInst mctpInst).chunkIn = some (1, 1, 9) ∧
    ((at_phase { phase := 2, chunkOut := some (1, 0, 9) }).spdmInst mctpInst).chunkOut = some (1, 0, 9) ∧
    (secure.spdmInst mctpInst).chunkOut = none ∧ (sess 0).secured mctpInst = false ∧ secure.secured mctpInst = true := by
  and_intros <;> first | decide | rfl
/-- What reaches no warden: an instance that is not reachable, one without a session, a ring with no command. And the device locked out by its third
excursion, in boundary scan, or not booted. -/
theorem witness_TheIslandStops :
    let thrice := secure.setIsland fun i => { i with excursions := [secure.clock, secure.clock] }
    quiet (at_ secure) ∧ ({ hosted with island := {} } : Dev).spdmReachable 5 = false ∧ secure.spdmReachable mctpInst = true ∧
    (secure.setIsland fun i => { i with spdm := .empty }).secured mctpInst = false ∧ secure.takenOf byM = none ∧ calm thrice ∧
    2 ≤ (thrice.island.excursions.filter fun x => decide (thrice.clock ≤ x + 10 * fclkS)).length ∧
    (secure.setPsq fun p => { p with extest := true }).psq.extest = true ∧ secure.island.phase ≠ 0 ∧ secure.island.phase ≠ 1 ∧
    secure.island.pending = none ∧ secure.island.reloading = false ∧ hosted.assocs.list = [] ∧ hosted.round.borrow.list = [] ∧
    (hosted.setBit Reg.TMG.CFG.N_EN false).bit Reg.TMG.CFG.N_EN = false := by
  and_intros <;> first | decide | rfl | (unfold calm; decide)

/-! ## Witnesses: queues, events, the Row log, registers, power -/

def row0 : RowRec := { id := 0x21, payload := 0, cnt := 1, seq := 0, time := 0, lastUs := 0, byLog := false, tagOk := true }
theorem witness_QueuesReactionsAndRowTakeEffect :
    let skein := fun (k : Skein) => hosted.setSkein 0 k
    let two := skein { items := [1, 2], wr := 2, wr2 := 2 }
    let late : Dev := { hosted with fco := { inbox := [(3, Ev.plain 0x21)], gaps := ⟨[(0, { last := 0 }), (1, { last := 0, waiting := true })]⟩ } }
    let pulsing := hosted.setBit Reg.FCO.PULSE_CTL.RUN true
    let valid := hosted.setBit (Reg.FCO.LAT_ID.VALID 4) true
    let masked := hosted.setMsix 0 { fmask := true }
    let h : HeldRec := { ev := { id := 0x21, synd := 0, payload := 0, writes := true }, byLog := false, time := 9 }
    let rows := fun (r : RowLog) (st : Nat) => ({ hosted.set Reg.ROW.STS.STATE st with row := r } : Dev)
    quiet (at_ hosted) ∧ (hosted.set Reg.SKQ.Q_SEL.QUEUE 1).get Reg.SKQ.Q_SEL.QUEUE ≠ 0 ∧ hosted.get Reg.SKQ.Q_SEL.QUEUE = 0 ∧
    (hosted.skein 0).items = [] ∧ (hosted.skein 0).rd = (hosted.skein 0).rd2 ∧ (hosted.skein 0).wr = (hosted.skein 0).wr2 ∧
    (two.skein 0).items = 1 :: [2] ∧ (two.skein 0).rd = (two.skein 0).rd2 ∧ (two.skein 0).wr = (two.skein 0).wr2 ∧
    two.flips.get? (flipSkein * 2 ^ 44 + (two.skein 0).rd) = none ∧ (two.skein 0).dropping = false ∧ dropPacket [] = none ∧
    (∃ l, dropPacket [0xF000000000000000#64, 0xF000000000000000#64, 0xF000000000000000#64, 0xF000000000000000#64] = l) ∧
    late.fco.inbox = (3, Ev.plain 0x21) :: [] ∧ hosted.fco.inbox = [] ∧ (4 : Nat) < 5 ∧ valid.bit (Reg.FCO.LAT_ID.VALID 4) = true ∧
    hosted.bit (Reg.FCO.LAT_ID.VALID 4) = false ∧ late.fco.gaps.get? (0 * 2048 + 0) = some { last := 0 } ∧
    late.fco.gaps.get? (0 * 2048 + 1) = some { last := 0, waiting := true } ∧ hosted.bit Reg.FCO.PULSE_CTL.RUN = false ∧
    pulsing.bit Reg.FCO.PULSE_CTL.RUN = true ∧ pulsing.bit Reg.FCO.PULSE_STS.STOPPED = false ∧ (masked.msix 0).fmask = true ∧
    (rows { holding := [h] } 2).row.holding = h :: [] ∧ (rows { holding := [h] } 2).rowState = 2 ∧ (rows { holding := [h] } 1).rowState ≠ 0 ∧
    (rows { holding := [h] } 1).rowState ≠ 2 ∧ (rows { open_ := some row0 } 1).row.open_ = some row0 ∧ sameRecord h.ev.id h.ev.payload row0 = true ∧
    row0.cnt < 65535 ∧ hosted.row.page = [] ∧ (rows { page := [row0] } 1).row.page ≠ [] ∧ (rows { programming := [row0] } 1).row.programming ≠ [] ∧
    (hosted.setBit Reg.ROW.CFG.MODE false).bit Reg.ROW.CFG.MODE = false ∧ (hosted.setBit Reg.ROW.CFG.MODE true).bit Reg.ROW.CFG.MODE = true ∧
    hosted.row.erasing = none ∧ (rows { erasing := some 2 } 1).row.erasing = some 2 ∧
    (hosted.setBit Reg.ROW.STS.WRAPPED true).bit Reg.ROW.STS.WRAPPED = true ∧ (rows {} 1).rowState ≠ 0 ∧ (rows {} 0).rowState = 0 ∧
    (rows {} 0).row.slots = .empty := by
  refine ⟨?_, ?_, ?_, ?_, ?_, ?_, ?_, ?_, ?_, ?_, ?_, ?_, ⟨_, rfl⟩, ?_⟩
  all_goals (and_intros <;> first | decide | rfl)
theorem witness_RegistersAreWords :
    let mgmt : Dev := { hosted with mgmt := some 0 }
    quiet (at_ mgmt) ∧ (64 : Nat) ≤ 64 ∧ (mgmt.headOfFunc 64).isSome = true ∧ (mgmt.headOfFunc 0).isSome = true ∧
    RegAddr.bar0 0xFFFFF8 ≠ .msixControl ∧ (RegAddr.bar0 0xFFFFFC).off % 4 = 0 ∧ (RegAddr.bar0 0xFFFFF8).off % 8 = 0 ∧
    ((2 : Nat) ≠ 4 ∧ (2 : Nat) ≠ 8) ∧ (RegAddr.bar0 2).off % 4 ≠ 0 ∧ (RegAddr.bar0 4).off % 8 ≠ 0 := by
  and_intros <;> first | decide | rfl
theorem witness_RegisterCommandsTakeEffect :
    let boxed := hosted.setIsland fun i => { i with mailbox := true }
    let w : LogWait := { recd := { region := 0, entry := some reg0, gen := 1, rseq := 0, imageId := 0 }, after := [] }
    let u : LogWait := { w with after := [.mailbox 0 0x4802] }
    quiet (at_ hosted) ∧ (63 : Nat) < 64 ∧ (∃ f, lockField 1 = some f) ∧ (512 : Nat) ≤ 512 ∧ hosted.bit Reg.MGC.MBOX_STS.BUSY = false ∧
    hosted.island.mailbox = false ∧ boxed.island.mailbox = true ∧ mctpOk (2 ^ 24 - 256) 64 = true ∧ mctpOk (2 ^ 24 - 252) 64 = false ∧
    calTracked 63 = true ∧ (62 : Nat) ≠ 63 ∧ hosted.logWait = [] ∧ ({ hosted with logWait := [w] } : Dev).logWait = w :: [] ∧ w.after = [] ∧
    ({ hosted with logWait := [u] } : Dev).logWait = u :: [] ∧ u.after = [.mailbox 0 0x4802] := by
  refine ⟨?_, ?_, ⟨_, rfl⟩, ?_⟩
  all_goals (and_intros <;> first | decide | rfl)
theorem witness_PowerAndClocksTakeEffect :
    let psq := fun (n : Nat) => hosted.set Reg.PSQ.STS.STATE n
    let flushing := fun (down : Bool) => ({ (psq 5).set Reg.NVH.IMG_STS.STATE 7 with psq := { flush := some .powerFail, linksDown := down } } : Dev)
    let rail : Dev := ((psq 4).set (Reg.PSQ.PROG.STEP 0) (2 ^ 28 + 5 * 2 ^ 24)).set Reg.PSQ.RAILS.EN 32
    quiet (at_ hosted) ∧ (psq 0).psqState = 0 ∧ ((psq 0).setBit Reg.PSQ.STS.PWRON true).mayPowerUp = true ∧ (psq 5).psqState = 5 ∧
    (psq 4).psqState = 4 ∧ (psq 3).psqState = 3 ∧ (psq 2).psqState = 2 ∧ (psq 8).psqState = 8 ∧
    (flushing false).psq.flush = some .powerFail ∧ (flushing false).psq.linksDown = false ∧ (flushing true).flushEnded = true ∧
    (psq 4).psq.flush = none ∧ (psq 4).psq.reset = none ∧ (flushing true).psq.flush.isSome = true ∧
    ({ psq 4 with psq := { reset := some 4 } } : Dev).psq.reset = some 4 ∧ (15 : Nat) < 16 ∧
    (let d := rail.railLevel 5 false 0
     d.psqState = 4 ∧ d.usedSlots.contains 5 = true ∧ (d.get Reg.PSQ.RAILS.EN).testBit 5 = true ∧ d.psq.grace.has 5 = false) ∧
    (psq 7).psqState = 7 ∧ (psq 1).psqState = 1 ∧ ({ psq 4 with psq := { grace := ⟨[(5, 8)]⟩ } } : Dev).psq.grace.get? 5 = some 8 ∧
    (11 : Nat) < 12 ∧ ((hosted.set Reg.CKS.PLL_STS.LOCKED 0xFFF).get Reg.CKS.PLL_STS.LOCKED).testBit 11 = true ∧
    hosted.get Reg.RND.STS.STATE = 0 ∧ (hosted.set Reg.RND.STS.STATE 2).get Reg.RND.STS.STATE ≠ 0 ∧
    ({ hosted with cks := { rewrite := true } } : Dev).cks.rewrite = true ∧ ({ hosted with cks := { rewrite := true } } : Dev).cks.slew = 0 ∧
    hosted.get Reg.CKS.WDT.TIMEOUT_MS = 0 ∧ (hosted.set Reg.CKS.WDT.TIMEOUT_MS 9).get Reg.CKS.WDT.TIMEOUT_MS ≠ 0 := by
  and_intros <;> first | decide | rfl
theorem witness_LevelIsSignalledOnce :
    let d := ((hosted.setSkein 0 { level := 1 }).setSkein 1 { level := 8 }).setSkein 31 { level := 10 }
    let k := d.skein 0
    let e : Dev := { d with row := { d.row with lvlPend := true }, psq := { d.psq with accepts := true } }
    (0 : Nat) < 512 ∧ itemKind 0#64 ≠ 15 ∧ k.rd = k.rd2 ∧ k.wr = k.wr2 ∧ k.dropping = false ∧ k.items.length < 2 ^ skeinLog2 0 ∧
    k.items.length + 1 = k.level ∧ (d.get (Reg.SKQ.LVL_PEND.PEND 0)).testBit 0 = false ∧
    (hosted.skein 0).items.length + 1 ≠ (hosted.skein 0).level ∧ d.row.holding.length < 256 ∧
    8 * d.row.holding.length < (d.skein 1).level ∧ (d.skein 1).level ≤ 8 * d.row.holding.length + 8 ∧ d.row.lvlPend = false ∧
    e.row.lvlPend = true ∧ e.psq.accepts = true ∧ (15 : Nat) < 16 ∧ 0 < (d.skein 31).level ∧ (d.skein 31).level ≤ 0 + 10 ∧
    (d.get (Reg.SKQ.LVL_PEND.PEND 0)).testBit 31 = false ∧ (d.skein 31).level ≤ 10 := by
  and_intros <;> first | decide | rfl
/-- Lines that a loss of power keeps: a dirty one that LC takes, a dirty one of a frame, and one never written. -/
theorem witness_DramLineWriteReadsBack_power :
    let up : Dev := { hosted with fm := ⟨[(0, { tier := .L, loc := 0 })]⟩ }
    let d := up.setFrameLn 0 0 { st := .dirty, data := 1 }
    d.poison.has 0 = false ∧ ({ st := .dirty } : Ln).st = .dirty ∧ d.lc.get? 0 = none ∧ (d.fme (granOf 0)).tier = .L ∧
    (d.frameLn (d.fme (granOf 0)).loc (0 % 64)).st = .dirty ∧ (hosted.fme (granOf 0)).tier ≠ .L ∧ (hosted.fme (granOf 0)).ew = false := by
  and_intros <;> first | decide | rfl
theorem witness_RegistersAreWords_heads :
    let mgmt : Dev := { hosted with mgmt := some 0 }
    hosted.headOfInst 64 = none ∧ (mgmt.headOfInst 64).isSome = true ∧ (mgmt.headOfInst 0).isSome = true ∧ (mgmt.headOfInst 63) = none ∧
    (RegAddr.bar0 5).off % 4 ≠ 0 ∧ (RegAddr.bar0 12).off % 8 ≠ 0 ∧ (2 ^ 32 - 1 : Nat) < 2 ^ 32 := by
  and_intros <;> first | decide | rfl
/-- A log half with room takes a record, a full one hands over to the other. -/
theorem witness_RegisterCommandsTakeEffect_log :
    let w : LogWait := { recd := { region := 0, entry := some reg0, gen := 1, rseq := 0, imageId := 0 }, after := [.command (.regionDestroy 0 1) (.ring byM) 0 0] }
    (hosted.regionLog.current).recs.length < logHalfRecs ∧
    logHalfRecs ≤ ({ recs := List.replicate logHalfRecs w.recd } : LogHalf).recs.length ∧
    (1023 : Nat) < 1024 ∧ (1 : Nat) ≤ 512 ∧ (3 : Nat) % 2 = 1 ∧ (2 : Nat) % 2 ≠ 1 ∧ lockField 63 = none ∧
    (hosted.setBit Reg.MGC.MBOX_STS.BUSY true).bit Reg.MGC.MBOX_STS.BUSY = true ∧ calTracked 63 = true ∧ calTracked 0 = false ∧
    ({ hosted with logWait := [w] } : Dev).logWait = w :: [] ∧ w.after = [.command (.regionDestroy 0 1) (.ring byM) 0 0] := by
  refine ⟨by decide, by simp, ?_⟩
  and_intros <;> first | decide | rfl
theorem witness_PowerAndClocksTakeEffect_stays :
    let psq := fun (n : Nat) => hosted.set Reg.PSQ.STS.STATE n
    let rail := (psq 4).railLevel 5 false 0
    (psq 6).psqState = 6 ∧ ((psq 0).setBit Reg.PSQ.STS.PWRON false).mayPowerUp = false ∧ (16 : Nat) ≤ 16 ∧
    (psq 4).psqState ≠ 3 ∧ (psq 4).psqState ≠ 6 ∧ (psq 4).psqState ≠ 7 ∧ (psq 4).psq.grace.get? 15 = none ∧
    (rail.get Reg.PSQ.RAILS.EN).testBit 0 = false ∧ ((hosted.set Reg.CKS.PLL_STS.LOCKED 0).get Reg.CKS.PLL_STS.LOCKED).testBit 11 = false ∧
    hosted.cks.rewrite = false ∧ ({ psq 5 with psq := { flush := some .preReset } } : Dev).psq.flush ≠ some .powerFail ∧
    ({ psq 4 with psq := { reset := some 4 } } : Dev).psq.flush = none := by
  and_intros <;> first | decide | rfl

/-! ## Ill-formed commands: one for each check of WellFormed.lean -/

theorem test_wf_accepts : (Instr.hostRead 15 15 (2 ^ 52 - 1) 65535 0 0 []).wf = true := by decide
theorem test_wf_fits : (Instr.hostRead 16 0 0 0 0 0 []).wf = false := by decide
theorem test_wf_funcOk : (Instr.ringEnable 65 0).wf = false ∧ (Instr.ringEnable 64 15).wf = true := by decide
theorem test_wf_channelOk : (Instr.patrolPromote 12).wf = false ∧ (Instr.patrolPromote 11).wf = true := by decide
theorem test_wf_assocOk : (Instr.keepaliveTimer 48).wf = false ∧ (Instr.keepaliveTimer 47).wf = true := by decide
theorem test_wf_instOk : (Instr.doeAbort 66).wf = false ∧ (Instr.doeAbort 65).wf = true ∧ (Instr.doeAbort 144).wf = false ∧
    (Instr.doeAbort 143).wf = true := by decide
theorem test_wf_issuer : (Instr.invalidOpcode { func := 64, ring := 16, tag := 0 }).wf = false ∧
    (Instr.invalidOpcode { func := 64, ring := 15, tag := 65535 }).wf = true := by decide
theorem test_wf_rxHdr : (Instr.keepalive { from7 5 with src := 32 }).wf = false ∧ (Instr.keepalive (from7 5)).wf = true := by decide
theorem test_wf_signedHdr : (Instr.logClear { overSpdm with chan := .spdm 66 }).wf = false ∧ (Instr.logClear overSpdm).wf = true := by decide

/-! ## Worked examples of the spec, and single steps -/

/-- Converting a legacy delay: 76 units are 279 taps at 8800 MT/s and 203 at 6400 (the example under R153). -/
theorem test_legacy_delay : legacyTaps 76 8800 = 279 ∧ legacyTaps 76 6400 = 203 := by decide
/-- Sizing of a 64 TiB image over 12 channels: SA_NEED is 14,251.06 MiB, which SA_NEED.MIB rounds up (the example under R213). -/
theorem test_sa_need : ceilDiv (saNeed (2 ^ 34) 12 0x6EA0000) (2 ^ 20) = 14252 := by decide
/-- Placing granule 0x300001 of an image of 8 drives and 16 Gi granules (the example under R191). -/
theorem test_placing_a_granule : imageD 8 (2 ^ 34) = 2 ^ 31 ∧ imageM 8 (2 ^ 34) = 65536 ∧ imageBase 8 (2 ^ 34) = 65792 ∧
    homeSlot 8 0x300001 = 0 ∧ homeIndex 8 0x300001 = 393217 ∧ tagSlot 8 0x300001 = 1 := by decide
/-- Where registers stand: DC7.PD_CTL at 0x440034, FILLS_LO of engine 9 at 0x601960 (the example of the register chapter). -/
theorem test_register_places : (Reg.DC.PD_CTL.EN 7).addr = 0x440034 ∧ (Reg.ENG.FILLS_LO.COUNT 9).addr = 0x601960 := by decide
/-- Events of port 2: local index 4 is EV 0x034 (R89). -/
theorem test_port_event : (hpEv 2 4).id = 0x034 := by decide

theorem test_seti_steps : (((stitching (word 0x02 (1 * 2 ^ 55 + 7))).stitch 0 0x02 0 fun s w =>
    (s.setReg 0 (stD w) (BitVec.ofNat 64 (fieldOf w 47 0))).engNext 0).reg 0 1) = 7 := by decide
theorem test_unwritten_reads_zero : (match exec (.hostRead 0 0 0 9 0 0 []) (at_ hosted) with
    | .next t => t.sent.head?.bind fun o => match o with | .readData _ _ tag d _ _ => some (tag, d) | _ => none
    | _ => none) = some (9, some 0) := by decide
theorem test_step_takes_the_front : (match step ((at_ hosted).offer .vbatLow) with
    | .next t => (t.pending.length, t.dev.bit Reg.CKS.CLK_STS.VBAT_LOW) | _ => (9, false)) = (0, true) := by decide
theorem test_empty_queue_ticks : (match step State.reset with | .next t => t.dev.clock | _ => 0) = 1 := by decide

end Sys2Proof.Tests
end

section
/-! SUPPORT. A ring command's answer (R395–R400): what starting, completing and refusing a command can change, and that the
completion of a started command is sent. -/

namespace Sys2Proof.Machine

/-- `t` is `s` with other rings, registers, ROW, FCO and PSQ state at most, and with what has been sent since before its output. -/
def Dev.Answered (s t : Dev) : Prop := ∃ rings regs row fco psq l, t = { s with rings, regs, row, fco, psq, out := l ++ s.out }

theorem Dev.Answered.refl (s : Dev) : Dev.Answered s s := ⟨s.rings, s.regs, s.row, s.fco, s.psq, [], rfl⟩

theorem Dev.Answered.trans {s t u : Dev} (h : Dev.Answered s t) (k : Dev.Answered t u) : Dev.Answered s u := by
  obtain ⟨_, _, _, _, _, l, rfl⟩ := h
  obtain ⟨rings, regs, row, fco, psq, l', rfl⟩ := k
  exact ⟨rings, regs, row, fco, psq, l' ++ l, by simp only [List.append_assoc]⟩

theorem Dev.Books.answered {s t : Dev} (h : Dev.Books s t) : Dev.Answered s t := by
  obtain ⟨regs, row, fco, psq, rfl⟩ := h
  exact ⟨s.rings, regs, row, fco, psq, [], rfl⟩

theorem Dev.Answered.ite {s t u : Dev} {c : Prop} [Decidable c] (h : Dev.Answered s t) (k : Dev.Answered s u) :
    Dev.Answered s (if c then t else u) := by
  by_cases hc : c
  · rwa [if_pos hc]
  · rwa [if_neg hc]

/-- What was to be sent still is. -/
theorem Dev.Answered.mem_out {s t : Dev} (h : Dev.Answered s t) {o : Output} (ho : o ∈ s.out) : o ∈ t.out := by
  obtain ⟨_, _, _, _, _, l, rfl⟩ := h
  exact List.mem_append_right l ho

/-- An answer leaves the region table and its generations alone. -/
theorem Dev.Answered.regions_gens {s t : Dev} (h : Dev.Answered s t) : t.regions = s.regions ∧ t.gens = s.gens := by
  obtain ⟨_, _, _, _, _, _, rfl⟩ := h
  exact ⟨rfl, rfl⟩

theorem Dev.Answered.onlyAnswered {s : State} {d : Dev} (h : Dev.Answered s.dev d) (hq : quiet s) : onlyAnswered s (s.did d) := by
  obtain ⟨rings, regs, row, fco, psq, l, rfl⟩ := h
  have hout : s.dev.out = [] := hq
  exact ⟨rings, regs, row, fco, psq, by simp only [State.did, hout]⟩

theorem Dev.setRing_answered (s : Dev) (f r : Nat) (x : Ring) : Dev.Answered s (s.setRing f r x) :=
  ⟨_, s.regs, s.row, s.fco, s.psq, [], rfl⟩

theorem Dev.send_answered (s : Dev) (o : Output) : Dev.Answered s (s.send o) :=
  ⟨s.rings, s.regs, s.row, s.fco, s.psq, [o], rfl⟩

theorem Dev.msixSend_answered (s : Dev) (f v : Nat) : Dev.Answered s (s.msixSend f v) := by
  unfold Dev.msixSend
  dsimp only
  split
  · exact ⟨s.rings, s.regs, s.row, _, s.psq, [], rfl⟩
  · exact s.send_answered _

theorem Dev.msixSignal_answered (s : Dev) (f v : Nat) : Dev.Answered s (s.msixSignal f v) := by
  unfold Dev.msixSignal
  split
  · exact .refl s
  · exact s.msixSend_answered f v

theorem Dev.signalRing_answered (s : Dev) (f r : Nat) : Dev.Answered s (s.signalRing f r) :=
  (s.setRing_answered f r _).trans (Dev.msixSignal_answered _ _ _)

theorem Dev.ringAnswer_answered (s : Dev) (i : Issuer) (x : Taken) (status detail r0 r1 : Nat) :
    Dev.Answered s (s.ringAnswer i x status detail r0 r1) := by
  have left (y : Ring) : Dev.Answered s (s.setRing i.func i.ring y) := s.setRing_answered i.func i.ring y
  have wrote (y : Ring) (b : Bool) (o : Output) : Dev.Answered s
      (if b = true then (s.setRing i.func i.ring y).send o else s.setRing i.func i.ring y) :=
    .ite ((left y).trans (Dev.send_answered _ o)) (left y)
  unfold Dev.ringAnswer
  dsimp only
  split
  · exact (wrote _ _ _).trans (Dev.signalRing_answered _ _ _)
  · exact wrote _ _ _

theorem Dev.tellCompletion_books (s : Dev) (status kind : Nat) (ev : Nat → Bool → Ev) :
    Dev.Books s (s.tellCompletion status kind ev) := by
  have h := s.count48_books Reg.CMD.CMDS_LO.COUNT Reg.CMD.CMDS_HI.COUNT 1 (Ev.plain 0x229)
  have refused := h.trans (Dev.count_books _ Reg.CMD.REFUSED.COUNT Reg.CMD.REFUSED.SAT 1 (Ev.plain 0x22A))
  unfold Dev.tellCompletion
  dsimp only
  split
  · split
    · exact h
    · exact h.trans (Dev.raise_books _ _)
  · split
    · exact (refused.trans (Dev.count_books _ _ _ _ _)).trans (Dev.raise_books _ _)
    · split
      · exact refused.trans (Dev.raise_books _ _)
      · split
        · exact refused
        · exact refused.trans (Dev.raise_books _ _)

theorem Dev.completeAt_answered (s : Dev) (i : Issuer) (status detail r0 r1 addr : Nat) :
    Dev.Answered s (s.completeAt i status detail r0 r1 addr) := by
  unfold Dev.completeAt
  split
  · exact .refl s
  · exact (s.ringAnswer_answered i _ status detail r0 r1).trans (Dev.tellCompletion_books _ _ _ _).answered

theorem Dev.refuseCmd_answered (s : Dev) (i : Issuer) (status detail : Nat) : Dev.Answered s (s.refuseCmd i status detail) :=
  s.completeAt_answered i status detail 0 0 0

theorem Dev.start_answered (s : Dev) (i : Issuer) (kind named : Nat) (res : List Nat) : Dev.Answered s (s.start i kind named res) :=
  s.setRing_answered i.func i.ring _

/-- A ring command changes no more than an answer does when what it carries out does not. -/
theorem Dev.ringActive_answered (s : Dev) (i : Issuer) (op kind named : Nat) (res : List Nat) {f : Dev → Dev}
    (hf : ∀ d, Dev.Answered d (f d)) : Dev.Answered s (s.ringActive i op kind named res f) := by
  unfold Dev.ringActive Dev.ringCmd
  split
  · refine (s.start_answered i kind named res).trans ?_
    dsimp only
    split
    · exact hf _
    · exact Dev.refuseCmd_answered _ _ _ _
  · exact .refl s

/-- A device that serves carries out a command that may start. -/
theorem Dev.ringActive_of_mayStart {s : Dev} {i : Issuer} {op : Nat} {res : List Nat} (h : s.mayStart i op res = true)
    (hs : s.serves = true) (kind named : Nat) (f : Dev → Dev) :
    s.ringActive i op kind named res f = f (s.start i kind named res) := by
  unfold Dev.ringActive Dev.ringCmd
  rw [if_pos h]
  exact if_pos hs

/-! ## The completion of a started command -/

/-- The command that `i` issued is taken, and its completion would be written. -/
def Dev.owes (s : Dev) (i : Issuer) : Prop :=
  ∃ x, s.takenOf i = some x ∧ writesCompletion (s.ring i.func i.ring) x s.psq.linksDown = true

theorem writesFor_iff_owes {s : State} {i : Issuer} : writesFor s i ↔ s.dev.owes i := by
  simp only [writesFor, Dev.owes, writesCompletion, Bool.and_eq_true, Bool.or_eq_true, Bool.not_eq_true', beq_iff_eq]
  constructor
  · rintro ⟨hdown, hstate, hring, x, hx, hmute⟩
    exact ⟨x, hx, ⟨⟨hdown, hring⟩, hmute⟩, hstate⟩
  · rintro ⟨x, hx, ⟨⟨hdown, hring⟩, hmute⟩, hstate⟩
    exact ⟨hdown, hstate, hring, x, hx, hmute⟩

/-- Changing the first element that satisfies a test keeps it the first to satisfy it, when the change keeps the test. -/
theorem find?_updFirst {α : Type} {p : α → Bool} {f : α → α} (h : ∀ a, p (f a) = p a) (l : List α) :
    (updFirst p f l).find? p = (l.find? p).map f := by
  induction l with
  | nil => rfl
  | cons a r ih => cases hp : p a <;> simp [updFirst, hp, h, ih]

@[simp] theorem Dev.ring_setRing_same (s : Dev) (f r : Nat) (x : Ring) : (s.setRing f r x).ring f r = x :=
  Tab.getD_putD_same s.rings (f * 16 + r) x {}

@[simp] theorem Dev.takenOf_start (s : Dev) (i : Issuer) (kind named : Nat) (res : List Nat) :
    (s.start i kind named res).takenOf i = (s.takenOf i).map fun x => { x with started := true, kind, named, holds := res } := by
  unfold Dev.takenOf Dev.start
  rw [Dev.ring_setRing_same]
  refine find?_updFirst ?_ _
  exact fun _ => rfl

/-- Starting a command keeps its completion due. -/
theorem Dev.owes.start {s : Dev} {i : Issuer} (h : s.owes i) (kind named : Nat) (res : List Nat) :
    (s.start i kind named res).owes i := by
  obtain ⟨x, hx, hw⟩ := h
  refine ⟨{ x with started := true, kind, named, holds := res }, by rw [Dev.takenOf_start, hx]; rfl, ?_⟩
  unfold Dev.start
  rw [Dev.ring_setRing_same]
  exact hw

/-- A completion that is to be written is sent, whether or not its ring is signalled after it. -/
theorem Dev.mem_out_ringAnswer {s : Dev} {i : Issuer} {x : Taken}
    (hw : writesCompletion (s.ring i.func i.ring) x s.psq.linksDown = true) (status detail r0 r1 : Nat) :
    .completion i.func i.ring (s.cqEntry i status detail r0 r1) ∈ (s.ringAnswer i x status detail r0 r1).out := by
  unfold Dev.ringAnswer
  simp only [hw, if_true]
  split
  · exact (Dev.signalRing_answered _ _ _).mem_out List.mem_cons_self
  · exact List.mem_cons_self

theorem Dev.owes.mem_out_completeAt {s : Dev} {i : Issuer} (h : s.owes i) (status detail r0 r1 addr : Nat) :
    .completion i.func i.ring (s.cqEntry i status detail r0 r1) ∈ (s.completeAt i status detail r0 r1 addr).out := by
  obtain ⟨x, hx, hw⟩ := h
  unfold Dev.completeAt
  rw [hx]
  exact (Dev.tellCompletion_books _ _ _ _).answered.mem_out (Dev.mem_out_ringAnswer hw status detail r0 r1)

/-- A command that starts and is refused is answered with the refusal's STATUS and DETAIL, and changes nothing else. -/
theorem started_refusal {s : State} {i : Issuer} (hq : quiet s) (hw : writesFor s i) (kind named : Nat) (res : List Nat)
    (status detail : Nat) :
    onlyAnswered s (s.did ((s.dev.start i kind named res).refuseCmd i status detail)) ∧
      completedWith s (s.did ((s.dev.start i kind named res).refuseCmd i status detail)) i status detail := by
  have answered := (s.dev.start_answered i kind named res).trans (Dev.refuseCmd_answered _ i status detail)
  have sent := ((writesFor_iff_owes.mp hw).start kind named res).mem_out_completeAt status detail 0 0 0
  exact ⟨answered.onlyAnswered hq, _, _, rfl, sent, rfl, rfl, rfl⟩

/-! ## REGION_CREATE without a mirror for TWIN (R35) -/

/-- REGION_CREATE of TWIN with the mirror flag at 0 goes no further than the check of that flag. -/
theorem Dev.regionCreate_twin_unmirrored (s : Dev) (i : Issuer) (tenant slot policy base size : Nat) :
    s.regionCreate i tenant slot true false policy base size =
      if (if i.isM then 1023 < tenant else tenant ≠ 0) then s.refuseCmd i cInvalidField 20
      else if !s.slotMayServe (if i.isM then tenant else (s.tenantOf i).getD 0) (if slot = 0xFFFF then none else some slot) then
        s.refuseCmd i cNotPermitted 0
      else s.refuseCmd i cInvalidField 24 := rfl

theorem Dev.regionCreate_twin_unmirrored_answered (s : Dev) (i : Issuer) (tenant slot policy base size : Nat) :
    Dev.Answered s (s.regionCreate i tenant slot true false policy base size) := by
  rw [Dev.regionCreate_twin_unmirrored]
  exact .ite (s.refuseCmd_answered i _ _) (.ite (s.refuseCmd_answered i _ _) (s.refuseCmd_answered i _ _))

/-- With a tenant and a slot that the issuer may name, the flag is what refuses it. -/
theorem Dev.regionCreate_twin_unmirrored_of_mayName (s : Dev) (i : Issuer) {tenant slot : Nat} (policy base size : Nat)
    (ht : if i.func = 64 then tenant ≤ 1023 else tenant = 0)
    (hk : s.slotMayServe (if i.func = 64 then tenant else (s.tenantOf i).getD 0) (if slot = 0xFFFF then none else some slot) = true) :
    s.regionCreate i tenant slot true false policy base size = s.refuseCmd i cInvalidField 24 := by
  have tenantOk : ¬ if i.isM then 1023 < tenant else tenant ≠ 0 := by
    by_cases h : i.func = 64 <;> simpa [Issuer.isM, h] using ht
  rw [Dev.regionCreate_twin_unmirrored, if_neg tenantOk, if_neg]
  simpa [Issuer.isM] using hk

end Sys2Proof.Machine

namespace Sys2Proof
open Machine

/-- Settles O32: every check REGION_CREATE of TWIN without the mirror flag comes to ends in a refusal, and with the checks
before the flag's passed it is the flag's (R35). -/
theorem twinWithoutMirrorIsRefused : Obligations.TwinWithoutMirrorIsRefused := by
  unfold Obligations.TwinWithoutMirrorIsRefused
  intro s i tenant slot policy base size hq
  have answered := s.dev.ringActive_answered i 0x01 0 0xFFFF [resSlot slot]
    fun d => d.regionCreate_twin_unmirrored_answered i tenant slot policy base size
  obtain ⟨regions, gens⟩ := answered.regions_gens
  refine ⟨s.did (s.dev.ringActive i 0x01 0 0xFFFF [resSlot slot] fun d => d.regionCreate i tenant slot true false policy base size),
    rfl, regions, gens, ?_⟩
  rintro ⟨hstart, hwrites⟩ hserves htenant hslot
  have refused := (s.dev.start i 0 0xFFFF [resSlot slot]).regionCreate_twin_unmirrored_of_mayName i policy base size htenant hslot
  rw [Dev.ringActive_of_mayStart hstart hserves, refused]
  exact started_refusal hq hwrites 0 0xFFFF [resSlot slot] cInvalidField 24

end Sys2Proof
end

section
/-! SUPPORT. The level of a skein queue (R410): when a push reaches it, what a push that the queue takes does, and that neither an
event nor a pop touches an LVL_PEND bit. -/

namespace Sys2Proof.Machine

/-! ## A level and its pending bit -/

theorem levelMet_eq_true_iff {level fill n : Nat} : levelMet level fill n = true ↔ fill < level ∧ level ≤ fill + n := by
  simp [levelMet]

/-- LEVEL 0 is met by no fill. -/
theorem levelMet_eq_false_iff {level fill n : Nat} :
    levelMet level fill n = false ↔ level ≤ fill ∨ fill + n < level ∨ level = 0 := by
  rw [← Bool.not_eq_true, levelMet_eq_true_iff]
  omega

/-- An event changes no LVL_PEND word: the only register it writes is ROW's count of lost records. -/
theorem Dev.get_raise_lvlPend (s : Dev) (i : Nat) (e : Ev) :
    (s.raise e).get (Reg.SKQ.LVL_PEND.PEND i) = s.get (Reg.SKQ.LVL_PEND.PEND i) := by
  refine s.get_raise ?count ?sat e
  case count =>
    show (0xa40100 + 0x4 * i) * 32 + 0 ≠ 0x8c0024 * 32 + 0
    omega
  case sat =>
    show (0xa40100 + 0x4 * i) * 32 + 0 ≠ 0x8c0024 * 32 + 31
    omega

/-- The LVL_PEND bit that a push sets stands after the push has raised its event. -/
theorem Dev.testBit_lvlPend_signalled (s : Dev) (i : Nat) {b : Nat} (hb : b < 32) (v : Nat) (e : Ev) :
    (((s.set (Reg.SKQ.LVL_PEND.PEND i) (withBit v b)).raise e).get (Reg.SKQ.LVL_PEND.PEND i)).testBit b = true := by
  rw [Dev.get_raise_lvlPend, Dev.get_set_same]
  show ((v ||| 2 ^ b) % 2 ^ 32).testBit b = true
  rw [Nat.testBit_mod_two_pow, Nat.testBit_or, Nat.testBit_two_pow_self]
  simp [hb]

/-! ## Items pushed one by one -/

theorem skeinBad_eq_none_iff {k : Skein} : skeinBad k = none ↔ k.rd = k.rd2 ∧ k.wr = k.wr2 := by
  unfold skeinBad
  by_cases hr : k.rd = k.rd2 <;> by_cases hw : k.wr = k.wr2 <;> simp [hr, hw]

/-- The device with item `i` behind the others of queue `q` (R407). -/
def Dev.skeinAppend (s : Dev) (q : Nat) (i : BitVec 64) : Dev :=
  s.setSkein q { s.skein q with
    items := (s.skein q).items ++ [i]
    wr := ((s.skein q).wr + 1) % 2 ^ skeinLog2 q
    wr2 := ((s.skein q).wr + 1) % 2 ^ skeinLog2 q }

/-- A push that an intact queue has room for appends its item, and signals the level when it reaches it with the bit clear. -/
theorem Dev.skeinPush_of_room {s : Dev} {q : Nat} {i : BitVec 64} (hi : itemKind i ≠ 15) (ok : skeinBad (s.skein q) = none)
    (hd : (s.skein q).dropping = false) (room : (s.skein q).items.length < 2 ^ skeinLog2 q) :
    s.skeinPush q i =
      if (s.skein q).level ≠ 0 ∧ (s.skein q).items.length + 1 = (s.skein q).level ∧
          (s.get (Reg.SKQ.LVL_PEND.PEND (q / 32))).testBit (q % 32) = false then
        (((s.skeinAppend q i).set (Reg.SKQ.LVL_PEND.PEND (q / 32))
          (withBit (s.get (Reg.SKQ.LVL_PEND.PEND (q / 32))) (q % 32))).raise (skqEv 0x291 q 0 (s.skein q) 0), true)
      else (s.skeinAppend q i, true) := by
  have keeps : ¬ (s.skein q).dropping = true := by simp [hd]
  unfold Dev.skeinPush
  simp only [if_neg hi, ok, if_neg keeps, if_neg (Nat.not_le_of_lt room)]
  rfl

/-- A pop of an intact queue writes no register. -/
theorem Dev.get_skeinPop {s : Dev} {q : Nat} (ok : skeinBad (s.skein q) = none) (f : Field) :
    (s.skeinPop q).1.get f = s.get f := by
  unfold Dev.skeinPop
  simp only [ok]
  cases (s.skein q).items <;> rfl

/-! ## The holding queue -/

theorem mem_fcoInsert (t : Nat) (e : Ev) (l : List (Nat × Ev)) : (t, e) ∈ fcoInsert t e l := by
  induction l with
  | nil => exact List.mem_cons_self
  | cons x r ih =>
    unfold fcoInsert
    split
    · exact List.mem_cons_self
    · exact List.mem_cons_of_mem _ ih

theorem Dev.mem_inbox_post (s : Dev) (e : Ev) : ∃ x ∈ (s.post e).fco.inbox, x.2 = e :=
  ⟨_, mem_fcoInsert _ e s.fco.inbox, rfl⟩

theorem Dev.heldLevel_of_not_met {s : Dev} {fill : Nat} (h : levelMet (s.skein 1).level fill 8 = false ∨ s.row.lvlPend = true) :
    s.heldLevel fill = s := by
  refine if_pos ?_
  show (s.row.lvlPend || !levelMet (s.skein 1).level fill 8) = true
  rcases h with h | h <;> simp [h]

theorem Dev.heldLevel_of_met {s : Dev} {fill : Nat} (hp : s.row.lvlPend = false) (h : levelMet (s.skein 1).level fill 8 = true) :
    (s.heldLevel fill).row.lvlPend = true ∧
      (s.psq.accepts = true → ∃ x ∈ (s.heldLevel fill).fco.inbox, x.2.id = 0x291) := by
  have passes : ¬ (s.row.lvlPend || !levelMet (s.skeins.getD 1 {}).level fill 8) = true := by
    show ¬ (s.row.lvlPend || !levelMet (s.skein 1).level fill 8) = true
    simp [hp, h]
  unfold Dev.heldLevel
  simp only [if_neg passes]
  split
  · refine ⟨rfl, fun _ => ?_⟩
    obtain ⟨x, hx, he⟩ := Dev.mem_inbox_post { s with row := { s.row with lvlPend := true } } _
    exact ⟨x, hx, congrArg Ev.id he⟩
  · next refuses => exact ⟨rfl, fun accepts => absurd accepts refuses⟩

/-- A record that the holding queue has room for touches its pending bit and FCO as the queue's level says. -/
theorem Dev.holdRecord_lvlPend_fco {s : Dev} (room : s.row.holding.length < 256) (e : Ev) (b : Bool) :
    (s.holdRecord e b).1.row.lvlPend = (s.heldLevel (8 * s.row.holding.length)).row.lvlPend ∧
      (s.holdRecord e b).1.fco = (s.heldLevel (8 * s.row.holding.length)).fco := by
  unfold Dev.holdRecord
  rw [if_pos room]
  exact ⟨rfl, rfl⟩

/-! ## A replay lane's queue -/

theorem Dev.laneLevel_of_not_met {s : Dev} {l fill : Nat}
    (h : levelMet (s.skein (16 + l)).level fill 10 = false ∨ (s.get (Reg.SKQ.LVL_PEND.PEND 0)).testBit (16 + l) = true) :
    s.laneLevel l fill = s :=
  if_pos (by rcases h with h | h <;> simp [h])

theorem Dev.laneLevel_of_met {s : Dev} {l fill : Nat} (hp : (s.get (Reg.SKQ.LVL_PEND.PEND 0)).testBit (16 + l) = false)
    (h : levelMet (s.skein (16 + l)).level fill 10 = true) :
    s.laneLevel l fill =
      (s.set (Reg.SKQ.LVL_PEND.PEND 0) (withBit (s.get (Reg.SKQ.LVL_PEND.PEND 0)) (16 + l))).raise
        (skqEv 0x291 (16 + l) 0 (s.skein (16 + l)) 0) :=
  if_neg (by simp [hp, h])

end Sys2Proof.Machine

namespace Sys2Proof
open Machine

/-- Settles O56: in each of the three queues a push either meets the level with the bit clear, and signals, or changes neither the
bit nor FCO (R410). -/
theorem levelIsSignalledOnce : Obligations.LevelIsSignalledOnce := by
  unfold Obligations.LevelIsSignalledOnce
  intro d
  refine ⟨?single, ?holding, ?lane⟩
  case single =>
    intro q i _ k f w u hi hrd hwr hd room
    have ok : skeinBad (d.skein q) = none := skeinBad_eq_none_iff.mpr ⟨hrd, hwr⟩
    have push := Dev.skeinPush_of_room hi ok hd room
    refine ⟨fun reaches clear => ?_, fun other => ?_, Dev.get_skeinPop ok f⟩
    · have pos : k.level ≠ 0 := by omega
      rw [push, if_pos ⟨pos, reaches, clear⟩]
      exact ⟨rfl, Dev.testBit_lvlPend_signalled _ _ (Nat.mod_lt q (by decide)) _ _⟩
    · rw [push, if_neg]
      · exact ⟨rfl, rfl⟩
      · rintro ⟨pos, reaches, clear⟩
        rcases other with h | h | h
        · exact h reaches
        · exact pos h
        · exact Bool.false_ne_true (clear.symm.trans h)
  case holding =>
    intro e byLog room n L
    obtain ⟨pend, fco⟩ := Dev.holdRecord_lvlPend_fco room e byLog
    rw [pend, fco]
    refine ⟨fun below reaches clear => Dev.heldLevel_of_met clear (levelMet_eq_true_iff.mpr ⟨below, reaches⟩), fun other => ?_⟩
    have same : d.heldLevel n = d := by
      refine Dev.heldLevel_of_not_met ?_
      rw [levelMet_eq_false_iff, or_assoc, or_assoc]
      exact other
    exact ⟨congrArg (·.row.lvlPend) same, congrArg Dev.fco same⟩
  case lane =>
    intro l n _ L f
    refine ⟨fun below reaches clear => Dev.laneLevel_of_met clear (levelMet_eq_true_iff.mpr ⟨below, reaches⟩), fun other => ?_⟩
    refine Dev.laneLevel_of_not_met ?_
    rw [levelMet_eq_false_iff, or_assoc, or_assoc]
    exact other

end Sys2Proof
end

section
/-! SUPPORT. A host's accesses to registers (R483): what REGISTER_WRITE and COUNTER_LO_READ answer for each width and alignment,
and that an unaligned word reads 0 and is taken by no register. -/

namespace Sys2Proof.Machine

/-! ## Answers that send nothing, or one thing -/

/-- A device that has sent nothing becomes the machine's as it is. -/
theorem State.did_eq_withDev (s : State) {d : Dev} (h : d.out = []) : s.did d = withDev s d := by
  have same : ({ d with out := [] } : Dev) = d := by rw [← h]
  show ({ s with dev := { d with out := [] }, sent := d.out ++ s.sent } : State) = { s with dev := d }
  rw [same, h]
  rfl

/-- The answer of an effect that is known to give the device `d`. -/
theorem State.on_eq_next {s : State} {f : Dev → Dev} {d : Dev} (h : f s.dev = d) : s.on f = .next (s.did d) :=
  congrArg (fun d => Host.Outcome.next (s.did d)) h

theorem State.did_self_of_quiet {s : State} (h : quiet s) : s.did s.dev = s := s.did_eq_withDev h

theorem State.did_send_of_quiet {s : State} (h : quiet s) (o : Output) : s.did (s.dev.send o) = sends s o :=
  congrArg (sends · o) (State.did_self_of_quiet h)

/-- A discarded write sends nothing. -/
theorem State.did_discard_of_quiet {s : State} (h : quiet s) (off cause : Nat) :
    s.did (s.dev.discard off cause) = withDev s (s.dev.discard off cause) := by
  obtain ⟨out, -⟩ := (s.dev.discard_books off cause).keeps
  exact s.did_eq_withDev (out.trans h)

/-! ## The words of a 64-bit value -/

theorem loW_of_words {lo : Nat} (h : lo < 2 ^ 32) (hi : Nat) : loW (hi * 2 ^ 32 + lo) = lo := by
  unfold loW
  omega

theorem hiW_of_words {lo hi : Nat} (hl : lo < 2 ^ 32) (hh : hi < 2 ^ 32) : hiW (hi * 2 ^ 32 + lo) = hi := by
  unfold hiW
  omega

/-! ## Unaligned words -/

/-- What a write that no register takes does: the management function's BAR0 counts it as discarded, with CAUSE 3; elsewhere
nothing tells of it. -/
def Dev.refuseWrite (s : Dev) (f : Nat) : RegAddr → Dev
  | .bar0 o => if f = 64 then s.discard (o % 2 ^ 24) 3 else s
  | _ => s

theorem Dev.refuseWrite_mgmt_bar0 (s : Dev) (o : Nat) : s.refuseWrite 64 (.bar0 o) = s.discard (o % 2 ^ 24) 3 := rfl

theorem Dev.refuseWrite_of_ne_mgmt (s : Dev) {f : Nat} (h : f ≠ 64) (a : RegAddr) : s.refuseWrite f a = s := by
  cases a with
  | bar0 o => exact if_neg h
  | _ => rfl

theorem Dev.refuseWrite_of_ne_bar0 (s : Dev) (f : Nat) {a : RegAddr} (h : ∀ o, a ≠ .bar0 o) : s.refuseWrite f a = s := by
  cases a with
  | bar0 o => exact absurd rfl (h o)
  | _ => rfl

/-- Only an offset in a BAR can be unaligned. -/
theorem RegAddr.unaligned_cases {a : RegAddr} (h : a.off % 4 ≠ 0) :
    (∃ o, a = .bar0 o ∧ o % 4 ≠ 0) ∨ (∃ o, a = .bar2 o ∧ o % 4 ≠ 0) ∨ ∃ o, a = .bar4 o ∧ o % 4 ≠ 0 := by
  cases a with
  | bar0 o => exact .inl ⟨o, rfl, h⟩
  | bar2 o => exact .inr (.inl ⟨o, rfl, h⟩)
  | bar4 o => exact .inr (.inr ⟨o, rfl, h⟩)
  | msixControl | config _ | doe _ => exact absurd rfl h

/-- No register takes a word written at an unaligned address. -/
theorem Dev.hostRegWrite_unaligned (s : Dev) (f : Nat) {a : RegAddr} (h : a.off % 4 ≠ 0) (v : Nat) :
    s.hostRegWrite f a v = s.refuseWrite f a := by
  unfold Dev.hostRegWrite Dev.refuseWrite
  obtain ⟨o, rfl, ho⟩ | ⟨o, rfl, ho⟩ | ⟨o, rfl, ho⟩ := RegAddr.unaligned_cases h
  · by_cases ld : f < 64
    · have other : f ≠ 64 := by omega
      simp [ld, other, Dev.ldWrite, ho]
    · simp [ld, Dev.busWrite, ho]
  · simp [Dev.ldWrite, ho]
  · simp [Dev.ldWrite, ho]

/-- A word read at an unaligned address is 0, and the read has no effect. -/
theorem Dev.hostRegRead_unaligned (s : Dev) (fu : Fuses) (f : Nat) {a : RegAddr} (h : a.off % 4 ≠ 0) :
    s.hostRegRead fu f a = (s, 0) := by
  unfold Dev.hostRegRead
  obtain ⟨o, rfl, ho⟩ | ⟨o, rfl, ho⟩ | ⟨o, rfl, ho⟩ := RegAddr.unaligned_cases h
  · simp [Dev.ldRead, Dev.busRead, ho]
  · simp [Dev.ldRead, ho]
  · simp [Dev.ldRead, ho]

/-! ## REGISTER_WRITE by width and alignment -/

section
variable {s : State} {f : Nat}

/-- The check with which both commands begin lets a function pass that a head presents. -/
theorem Dev.not_isNone_headOfInst (h : (s.dev.headOfInst f).isSome = true) : ¬ (s.dev.headOfInst f).isNone = true :=
  fun none => Option.isSome_iff_ne_none.mp h (Option.isNone_iff_eq_none.mp none)

theorem exec_registerWrite_of_no_head (h : s.dev.headOfInst f = none) (a : RegAddr) (w v : Nat) :
    exec (.registerWrite f a w v) s = .next (s.did s.dev) := by
  show execRegisterWrite f a w v s = _
  unfold execRegisterWrite
  exact State.on_eq_next (if_pos (Option.isNone_iff_eq_none.mpr h))

theorem exec_registerWrite_word (h : (s.dev.headOfInst f).isSome = true) (a : RegAddr) (v : Nat) :
    exec (.registerWrite f a 4 v) s = .next (s.did (s.dev.hostRegWrite f a v)) := by
  show execRegisterWrite f a 4 v s = _
  unfold execRegisterWrite
  exact State.on_eq_next (if_neg (Dev.not_isNone_headOfInst h))

theorem exec_registerWrite_wide (h : (s.dev.headOfInst f).isSome = true) {a : RegAddr} (ha : a.off % 8 = 0) (v : Nat) :
    exec (.registerWrite f a 8 v) s =
      .next (s.did ((s.dev.hostRegWrite f a (loW v)).hostRegWrite f a.next (hiW v))) := by
  show execRegisterWrite f a 8 v s = _
  unfold execRegisterWrite
  refine State.on_eq_next ((if_neg (Dev.not_isNone_headOfInst h)).trans ?_)
  exact (if_neg (by decide)).trans (if_pos ⟨rfl, ha⟩)

/-- A write of any other width or alignment is refused (R483). -/
theorem exec_registerWrite_misfit (h : (s.dev.headOfInst f).isSome = true) {a : RegAddr} {width : Nat}
    (misfit : a.off % 4 ≠ 0 ∨ (width ≠ 4 ∧ width ≠ 8) ∨ (width = 8 ∧ a.off % 8 ≠ 0)) (v : Nat) :
    exec (.registerWrite f a width v) s = .next (s.did (s.dev.refuseWrite f a)) := by
  by_cases word : width = 4
  · have unaligned : a.off % 4 ≠ 0 := by omega
    rw [word, exec_registerWrite_word h, Dev.hostRegWrite_unaligned _ _ unaligned]
  · have wide : ¬ (width = 8 ∧ a.off % 8 = 0) := by omega
    show execRegisterWrite f a width v s = _
    unfold execRegisterWrite State.on
    simp only [if_neg (Dev.not_isNone_headOfInst h), if_neg word, if_neg wide]
    split
    · rfl
    · next other =>
      by_cases mgmt : f = 64
      · rw [s.dev.refuseWrite_of_ne_bar0 f fun o ho => other o mgmt ho]
      · rw [s.dev.refuseWrite_of_ne_mgmt mgmt]

/-! ## COUNTER_LO_READ by width and alignment -/

theorem exec_counterLoRead_of_no_head (h : s.dev.headOfInst f = none) (a : RegAddr) (wide : Bool) :
    exec (.counterLoRead f a wide) s = .next (s.did s.dev) := by
  show execCounterLoRead f a wide s = _
  unfold execCounterLoRead
  exact State.on_eq_next (if_pos (Option.isNone_iff_eq_none.mpr h))

theorem exec_counterLoRead_word (h : (s.dev.headOfInst f).isSome = true) (a : RegAddr) :
    exec (.counterLoRead f a false) s =
      .next (s.did ((s.dev.hostRegRead s.fuses f a).1.send (.regData a.off (s.dev.hostRegRead s.fuses f a).2))) := by
  show execCounterLoRead f a false s = _
  unfold execCounterLoRead
  exact State.on_eq_next (if_neg (Dev.not_isNone_headOfInst h))

theorem exec_counterLoRead_wide (h : (s.dev.headOfInst f).isSome = true) {a : RegAddr} (ha : a.off % 8 = 0) :
    exec (.counterLoRead f a true) s =
      (let l := s.dev.hostRegRead s.fuses f a
       let u := (l.1.send (.regData a.off l.2)).hostRegRead s.fuses f a.next
       .next (s.did (u.1.send (.regData a.next.off u.2)))) := by
  show execCounterLoRead f a true s = _
  unfold execCounterLoRead
  exact State.on_eq_next ((if_neg (Dev.not_isNone_headOfInst h)).trans (if_neg (by simp [ha])))

theorem exec_counterLoRead_misfit (h : (s.dev.headOfInst f).isSome = true) {a : RegAddr} (ha : a.off % 8 ≠ 0) :
    exec (.counterLoRead f a true) s = .next (s.did (s.dev.send (.regData a.off 0))) := by
  show execCounterLoRead f a true s = _
  unfold execCounterLoRead
  exact State.on_eq_next ((if_neg (Dev.not_isNone_headOfInst h)).trans (if_pos (by simp [ha])))

end

end Sys2Proof.Machine

namespace Sys2Proof
open Machine

/-- Settles O59: an access acts where its width fits its alignment; any other write is refused, whichever of the model's checks
turns it away, and any other read answers 0 (R483). -/
theorem registersAreWords : Obligations.RegistersAreWords := by
  unfold Obligations.RegistersAreWords
  intro s f a hq
  refine ⟨fun headless => ?noHead, fun head => ⟨fun _ => ?word, fun aligned => ?wide, fun width v misfit => ?misfitWrite,
    fun unaligned => ?misfitWord, fun unaligned => ?misfitWide⟩⟩
  case noHead =>
    refine ⟨fun w v => ?_, fun w => ?_⟩
    · rw [exec_registerWrite_of_no_head headless, State.did_self_of_quiet hq]
    · rw [exec_counterLoRead_of_no_head headless, State.did_self_of_quiet hq]
  case word =>
    refine ⟨exec_registerWrite_word head a, ?_⟩
    rintro _ rfl
    exact exec_counterLoRead_word head a
  case wide =>
    refine ⟨fun lo hi hlo hhi => ?_, ?_⟩
    · rw [exec_registerWrite_wide head aligned, loW_of_words hlo, hiW_of_words hlo hhi]
    · rintro _ _ rfl rfl
      exact exec_counterLoRead_wide head aligned
  case misfitWrite =>
    rw [exec_registerWrite_misfit head misfit]
    refine ⟨fun other => ?_, fun mgmt => ⟨?_, fun notBar0 => ?_⟩⟩
    · rw [s.dev.refuseWrite_of_ne_mgmt other, State.did_self_of_quiet hq]
    · rintro o rfl
      rw [mgmt, Dev.refuseWrite_mgmt_bar0, State.did_discard_of_quiet hq]
    · rw [s.dev.refuseWrite_of_ne_bar0 f notBar0, State.did_self_of_quiet hq]
  case misfitWord =>
    rw [exec_counterLoRead_word head, Dev.hostRegRead_unaligned _ _ _ unaligned]
    exact congrArg _ (State.did_send_of_quiet hq _)
  case misfitWide =>
    rw [exec_counterLoRead_misfit head unaligned, State.did_send_of_quiet hq]

end Sys2Proof
end

section
/-! SUPPORT. What a step of the queue can do (R361, R453): each step takes the oldest command and adds to what has been sent; the
fuses change only as a COMMIT advances them. -/

namespace Sys2Proof.Machine

/-! ## A command, whatever waits and whatever has been sent -/

/-- A command's answer is the same but for what waited before it and what had been sent before it. -/
theorem exec_of_same_dev (c : Instr) {s u : State} (hd : s.dev = u.dev) (hf : s.fuses = u.fuses) :
    ∃ (t : State) (l : List Output), exec c s = .next { t with sent := l ++ s.sent, pending := s.pending } ∧
      exec c u = .next { t with sent := l ++ u.sent, pending := u.pending } := by
  obtain ⟨f, g, effect, -⟩ := exec_effect c
  refine ⟨({ s with fuses := g s.fuses s.dev } : State).did (f s.fuses s.dev), (f s.fuses s.dev).out, effect s, ?_⟩
  rw [effect u, ← hd, ← hf]
  rfl

/-- A command leaves what waits alone. -/
theorem exec_pending {c : Instr} {s t : State} (h : exec c s = .next t) : t.pending = s.pending := by
  obtain ⟨d, fu, answers, -⟩ := exec_answers c s
  rw [Host.Outcome.next.inj (h.symm.trans answers)]
  rfl

/-! ## One step -/

/-- What a step can do: the device after an effect, the effect's outputs added to what has been sent, the oldest command gone, and
the fuses as before or advanced by VDD_FUSE_REQUEST. -/
theorem step_next {s t : State} (h : step s = .next t) : ∃ (d : Dev) (fu : Fuses),
    t = ({ s with fuses := fu, pending := s.pending.tail } : State).did d ∧
      (fu = s.fuses ∨ s.pending.head? = some (.vddFuseRequest true) ∧ s.dev.psq.fuse = true ∧
        fu = s.fuses.advance s.dev.island.running) := by
  cases hp : s.pending with
  | nil =>
    obtain rfl := Host.Outcome.next.inj (h.symm.trans (step_nil hp))
    exact ⟨s.dev.tick, s.fuses, by rw [List.tail_nil, ← hp], .inl rfl⟩
  | cons c rest =>
    obtain ⟨d, fu, answers, fuses⟩ := exec_answers c { s with pending := rest }
    obtain rfl := Host.Outcome.next.inj (h.symm.trans ((step_cons hp).trans answers))
    refine ⟨d, fu, rfl, fuses.imp id fun ⟨hc, asked⟩ => ⟨congrArg some hc, asked⟩⟩

theorem step_pending {s t : State} (h : step s = .next t) : t.pending = s.pending.tail := by
  obtain ⟨d, fu, rfl, -⟩ := step_next h
  rfl

theorem step_sent {s t : State} (h : step s = .next t) : ∃ l, t.sent = l ++ s.sent := by
  obtain ⟨d, fu, rfl, -⟩ := step_next h
  exact ⟨d.out, rfl⟩

theorem step_quiet {s t : State} (h : step s = .next t) : quiet t := by
  obtain ⟨d, fu, rfl, -⟩ := step_next h
  rfl

/-- A step's fuses are as before, or the COMMIT that waited for VDD_FUSE has advanced them. -/
theorem step_fuses {s t : State} (h : step s = .next t) : t.fuses = s.fuses ∨
    s.pending.head? = some (.vddFuseRequest true) ∧ s.dev.psq.fuse = true ∧ t.fuses = s.fuses.advance s.dev.island.running := by
  obtain ⟨d, fu, rfl, fuses⟩ := step_next h
  exact fuses

/-! ## Many steps -/

/-- A machine's run begins with its first step. -/
theorem run_of_step {M : Host.Core} {s u : M.State} (h : M.step s = .next u) (k : Nat) : M.run (k + 1) s = M.run k u := by
  rw [Host.Core.run, h]

theorem run_succ {s u : State} (h : step s = .next u) (k : Nat) : Host.Core.run core (k + 1) s = Host.Core.run core k u :=
  run_of_step (M := core) h k

/-- `k` steps take the `k` oldest commands. -/
theorem run_answers (k : Nat) (s : State) : ∃ t, Host.Core.run core k s = .next t ∧ t.pending = s.pending.drop k := by
  induction k generalizing s with
  | zero => exact ⟨s, rfl, rfl⟩
  | succ k ih =>
    obtain ⟨u, first, oldest⟩ := step_answers s
    obtain ⟨t, others, rest⟩ := ih u
    refine ⟨t, ?_, ?_⟩
    · rw [run_succ first, others]
    · rw [rest, oldest, List.drop_tail]

/-- What has been sent stays sent along a run. -/
theorem run_sent {k : Nat} {s t : State} (h : Host.Core.run core k s = .next t) : ∃ l, t.sent = l ++ s.sent := by
  induction k generalizing s with
  | zero =>
    obtain rfl : s = t := Host.Outcome.next.inj h
    exact ⟨[], rfl⟩
  | succ k ih =>
    obtain ⟨u, first, -⟩ := step_answers s
    rw [run_succ first] at h
    obtain ⟨l, hl⟩ := ih h
    obtain ⟨l', hl'⟩ := step_sent first
    exact ⟨l ++ l', by rw [hl, hl', List.append_assoc]⟩

/-! ## The fuses -/

/-- Advancing the fuses raises versions alone, and no further than a thermometer of 64 bits shows (R361). -/
theorem Fuses.advance_cases (f : Fuses) (m : FwImage) :
    f.advance m = f ∨ f.advance m = { f with wsvn := max f.wsvn (min 64 m.wsvn), asvn := max f.asvn (min 64 m.asvn) } := by
  unfold Fuses.advance
  split
  · exact .inl rfl
  · exact .inr rfl

theorem step_advances {s t : State} (h : step s = .next t) : t.fuses = s.fuses ∨
    s.pending.head? = some (.vddFuseRequest true) ∧ s.dev.psq.fuse = true ∧
      t.fuses = { s.fuses with wsvn := max s.fuses.wsvn (min 64 s.dev.island.running.wsvn)
                               asvn := max s.fuses.asvn (min 64 s.dev.island.running.asvn) } := by
  rcases step_fuses h with same | ⟨front, waits, advanced⟩
  · exact .inl same
  · rcases s.fuses.advance_cases s.dev.island.running with same | raised
    · exact .inl (advanced.trans same)
    · exact .inr ⟨front, waits, advanced.trans raised⟩

end Sys2Proof.Machine

namespace Sys2Proof
open Machine

/-- Settles O1. -/
theorem stepRunsFrontCommand : Obligations.StepRunsFrontCommand := by
  unfold Obligations.StepRunsFrontCommand
  exact fun c s => ⟨step_offer c s, fun t => exec_pending⟩

/-- Settles O2: an empty queue lets the device tick, and a tick touches neither the queue nor the fuses. -/
theorem emptyQueueLetsTimePass : Obligations.EmptyQueueLetsTimePass := by
  unfold Obligations.EmptyQueueLetsTimePass
  exact fun s empty => ⟨step_nil empty, (s.did_pending _).trans empty, s.did_fuses _⟩

/-- Settles O3, by induction on the number of steps. -/
theorem everyQueueIsCarriedOut : Obligations.EveryQueueIsCarriedOut := by
  unfold Obligations.EveryQueueIsCarriedOut
  intro s
  refine ⟨?_, fun k _ => run_answers k s⟩
  obtain ⟨t, run, rest⟩ := run_answers s.pending.length s
  exact ⟨t, run, rest.trans List.drop_length⟩

/-- Settles O4: every command is an effect on the device and the fuses. -/
theorem commandsIgnoreTheQueueAndTheLog : Obligations.CommandsIgnoreTheQueueAndTheLog := by
  unfold Obligations.CommandsIgnoreTheQueueAndTheLog
  exact fun c s u hd hf => exec_of_same_dev c hd hf

/-- Settles O5, by induction on the number of steps. -/
theorem sentStaysSent : Obligations.SentStaysSent := by
  unfold Obligations.SentStaysSent
  exact fun k s t => run_sent

/-- Settles O6. -/
theorem stepLeavesNoOutputBehind : Obligations.StepLeavesNoOutputBehind := by
  unfold Obligations.StepLeavesNoOutputBehind
  exact fun s t => step_quiet

/-- Settles O7: fuses that a step changes are those the COMMIT's image advances, and advancing only raises (R361). -/
theorem fuseVersionsNeverFall : Obligations.FuseVersionsNeverFall := by
  unfold Obligations.FuseVersionsNeverFall fuseRange
  intro s t h
  rcases step_advances h with same | ⟨front, waits, raised⟩
  · rw [same]
    exact ⟨id, Nat.le_refl _, Nat.le_refl _, rfl, rfl, fun changed => absurd rfl changed⟩
  · rw [raised]
    refine ⟨fun range => ?_, Nat.le_max_left _ _, Nat.le_max_left _ _, rfl, rfl, fun _ => ⟨waits, front, rfl, rfl⟩⟩
    dsimp only
    omega

/-- Settles O8. -/
theorem waitingCommandsStayWellFormed : Obligations.WaitingCommandsStayWellFormed := by
  unfold Obligations.WaitingCommandsStayWellFormed
  intro s t h wf
  rw [step_pending h]
  exact ⟨List.all_eq_true.mpr fun c hc => List.all_eq_true.mp wf c (List.mem_of_mem_tail hc), rfl⟩

/-- Settles O9: after the first power every table is empty, so a field reads its reset value. -/
theorem resetLeaves : Obligations.ResetLeaves := by
  unfold Obligations.ResetLeaves fuseRange quiet
  refine ⟨rfl, rfl, rfl, rfl, rfl, rfl, rfl, ?_, fun f => Tab.getD_empty f.key f.reset⟩
  decide

/-- Settles O10: no word of the table spells a command. -/
theorem noWordSpellsACommand : Obligations.NoWordSpellsACommand := by
  unfold Obligations.NoWordSpellsACommand
  exact fun s n w => ⟨rfl, rfl⟩

end Sys2Proof
end

section
/-! SUPPORT. What a loss of power leaves of a line (R50, R93, R94, R210): the line cache makes room for a written line without
touching it, DRAM or the poison index. -/

namespace Sys2Proof.Machine

/-! ## The line cache makes room -/

/-- From `s` to `t` the line cache's entry of `line`, the contents of DRAM and the poison index are as before. -/
def Dev.KeepsLine (line : Nat) (s t : Dev) : Prop :=
  t.lc.get? line = s.lc.get? line ∧ t.frames = s.frames ∧ t.poison = s.poison

theorem Dev.KeepsLine.refl (line : Nat) (s : Dev) : Dev.KeepsLine line s s := ⟨rfl, rfl, rfl⟩

theorem Dev.KeepsLine.trans {line : Nat} {s t u : Dev} (h : Dev.KeepsLine line s t) (k : Dev.KeepsLine line t u) :
    Dev.KeepsLine line s u := ⟨k.1.trans h.1, k.2.1.trans h.2.1, k.2.2.trans h.2.2⟩

theorem Dev.sramWrite_keepsLine (s : Dev) (line target place : Nat) : Dev.KeepsLine line s (s.sramWrite target place) := by
  obtain ⟨regs, flips, same⟩ := s.sramWrite_form target place
  rw [same]
  exact .refl line s

theorem lruWay_mem {l : List (Nat × CacheLn)} {v : Nat × CacheLn} (h : lruWay l = some v) : v ∈ l := by
  induction l generalizing v with
  | nil => cases h
  | cons x r ih =>
    unfold lruWay at h
    split at h
    · exact Option.some.inj h ▸ List.mem_cons_self
    · next y older =>
      split at h
      · exact Option.some.inj h ▸ List.mem_cons_self
      · exact List.mem_cons_of_mem x (Option.some.inj h ▸ ih older)

theorem plruWays_subset {l : List (Nat × CacheLn)} {v : Nat × CacheLn} (h : v ∈ plruWays l) : v ∈ l := by
  unfold plruWays at h
  dsimp only at h
  split at h
  · exact h
  · exact (List.mem_filter.mp h).1

/-- Moving another line to the eviction buffer. -/
theorem Dev.lcEvict_keepsLine {s t : Dev} {line v : Nat} {c : CacheLn} (other : v ≠ line) (h : s.lcEvict v c = some t) :
    Dev.KeepsLine line s t := by
  unfold Dev.lcEvict at h
  split at h
  · cases h
  · obtain rfl := Option.some.inj h
    exact ⟨Tab.get?_put_ne _ (Ne.symm other) _, rfl, rfl⟩

theorem Dev.lcDirtyRoom_keepsLine {line set n : Nat} {s t : Dev} (h : s.lcDirtyRoom set line n = some t) :
    Dev.KeepsLine line s t := by
  induction n generalizing s with
  | zero => exact Option.some.inj h ▸ .refl line s
  | succ n ih =>
    unfold Dev.lcDirtyRoom at h
    dsimp only at h
    split at h
    · split at h
      · next v victim =>
        obtain ⟨u, evicted, more⟩ := Option.bind_eq_some_iff.mp h
        have other : v.1 ≠ line := by
          have := (List.mem_filter.mp (lruWay_mem victim)).2
          simp_all
        exact (Dev.lcEvict_keepsLine other evicted).trans (ih more)
      · exact Option.some.inj h ▸ .refl line s
    · exact Option.some.inj h ▸ .refl line s

theorem Dev.lcRoom_keepsLine {line : Nat} {s t : Dev} (h : s.lcRoom line = some t) : Dev.KeepsLine line s t := by
  unfold Dev.lcRoom at h
  dsimp only at h
  split at h
  · split at h
    · next v victim =>
      have other : v.1 ≠ line := by
        have := plruWays_subset (List.mem_of_getElem? victim)
        split at this
        · simpa using (List.mem_filter.mp this).2
        · simpa using (List.mem_filter.mp (List.mem_filter.mp this).1).2
      split at h
      · have evicted := Dev.lcEvict_keepsLine other h
        exact evicted
      · obtain rfl := Option.some.inj h
        exact ⟨Tab.get?_del_ne _ (Ne.symm other), rfl, rfl⟩
    · exact Option.some.inj h ▸ .refl line s
  · exact Option.some.inj h ▸ .refl line s

/-- A line enters its set, or waits for a way: its contents, DRAM and the poison index stay as they are. -/
theorem Dev.lcInstall_keeps {s : Dev} {line : Nat} {c : CacheLn} (h : s.lc.get? line = some c) :
    (∃ k, (s.lcInstall line).lc.get? line = some k ∧ k.ln = c.ln) ∧ (s.lcInstall line).frames = s.frames ∧
      (s.lcInstall line).poison = s.poison := by
  unfold Dev.lcInstall
  rw [h]
  dsimp only
  split
  · exact ⟨⟨c, h, rfl⟩, rfl, rfl⟩
  · split
    · next t room =>
      have keeps : Dev.KeepsLine line s t := by
        obtain ⟨u, dirty, any⟩ := Option.bind_eq_some_iff.mp room
        refine Dev.KeepsLine.trans (t := u) ?_ ?_
        · split at dirty
          · exact Dev.lcDirtyRoom_keepsLine dirty
          · exact Option.some.inj dirty ▸ .refl line s
        · split at any
          · exact Dev.lcRoom_keepsLine any
          · exact Option.some.inj any ▸ .refl line u
      obtain ⟨entry, frames, poison⟩ := keeps
      refine ⟨⟨{ c with place := .array }, ?_, rfl⟩, frames, poison⟩
      simp only [Tab.upd, entry, h, Tab.get?_put_same]
    · exact ⟨⟨c, h, rfl⟩, rfl, rfl⟩

/-- A line that LC accepts stands in it, and neither DRAM nor the poison index changes (R93). -/
theorem Dev.lcAccept_keeps (s : Dev) (line : Nat) (l : Ln) :
    (∃ k, (s.lcAccept line l).lc.get? line = some k ∧ k.ln = l) ∧ (s.lcAccept line l).frames = s.frames ∧
      (s.lcAccept line l).poison = s.poison := by
  unfold Dev.lcAccept Dev.lcEnter
  obtain ⟨entry, frames, poison⟩ := Dev.sramWrite_keepsLine
    (({ s with lc := s.lc.put line { ln := l, place := .accept, touch := true, used := s.uses } } : Dev).used) line flipLc line
  obtain ⟨installed, frames', poison'⟩ := Dev.lcInstall_keeps (entry.trans (Tab.get?_put_same s.lc line _))
  exact ⟨installed, frames'.trans frames, poison'.trans poison⟩

/-! ## What a loss of power leaves -/

/-- A DIRTY line of LC is taken to the image by the flush (R50, R60). -/
theorem Dev.survivesPower_of_lc {s : Dev} {line : Nat} {c : CacheLn} (good : s.poison.has line = false)
    (h : s.lc.get? line = some c) (dirty : c.ln.st = .dirty) : s.survivesPower line c.ln = true := by
  simp [Dev.survivesPower, Dev.durableLn, good, h, dirty]

/-- So is a DIRTY line of a frame that LC does not hold. -/
theorem Dev.survivesPower_of_frame {s : Dev} {line : Nat} (good : s.poison.has line = false) (h : s.lc.get? line = none)
    (resident : (s.fme (granOf line)).tier = .L) (dirty : (s.frameLn (s.fme (granOf line)).loc (line % 64)).st = .dirty) :
    s.survivesPower line (s.frameLn (s.fme (granOf line)).loc (line % 64)) = true := by
  simp [Dev.survivesPower, Dev.durableLn, Dev.belowLn, good, h, resident, dirty]

/-- A line of a granule never written reads zeros (R39). -/
theorem Dev.durableLn_of_never_written {s : Dev} {line : Nat} (good : s.poison.has line = false) (h : s.lc.get? line = none)
    (out : (s.fme (granOf line)).tier ≠ .L) (never : (s.fme (granOf line)).ew = false) : s.durableLn line = {} := by
  simp [Dev.durableLn, Dev.belowLn, Dev.imageLn, good, h, out, never]

/-- A frame given up reads as unlisted, every other frame as before. -/
theorem Dev.frameLn_freeFn (s : Dev) (fn gn : Nat) {j : Nat} (hj : j < 64) :
    (s.freeFn fn).frameLn gn j = if gn = fn then {} else s.frameLn gn j := by
  have frame : (gn * 64 + j) / 64 = gn := by omega
  simp only [Dev.frameLn, Dev.freeFn_frames, Tab.getD, Tab.get?_filter_key s.frames (fun k => k / 64 != fn), frame, bne_iff_ne, ne_eq]
  by_cases same : gn = fn <;> simp [same]

end Sys2Proof.Machine

namespace Sys2Proof
open Machine

/-- Settles O11: a line of DRAM or of LC reads back what was written, and a DIRTY one is in what the flush takes to the image. -/
theorem dramLineWriteReadsBack : Obligations.DramLineWriteReadsBack := by
  unfold Obligations.DramLineWriteReadsBack
  intro d fn k l hk
  refine ⟨d.frameLn_setFrameLn_same fn k l, fun gn j hj other => d.frameLn_setFrameLn_ne hk hj other l,
    fun wf => ⟨Dev.setFrameLn_memWf wf fn k l, Dev.freeFn_memWf wf fn⟩, fun gn j hj => d.frameLn_freeFn fn gn hj,
    fun line good => ⟨fun dirty => ?_, Dev.survivesPower_of_frame good, Dev.durableLn_of_never_written good⟩⟩
  obtain ⟨⟨c, entry, rfl⟩, frames, poison⟩ := d.lcAccept_keeps line l
  exact ⟨Dev.survivesPower_of_lc (by rw [poison, good]) entry dirty, frames, poison⟩

/-- Settles O12: a field lies in the register store under its own key, and an event is bookkeeping. -/
theorem fieldAndEventFrame : Obligations.FieldAndEventFrame := by
  unfold Obligations.FieldAndEventFrame
  refine ⟨fun d f g v => ⟨d.get_set_same f v, fun other => d.get_set_ne other v, rfl⟩, fun d e => ⟨?_, fun f => ?_⟩⟩
  · obtain ⟨regs, row, fco, psq, books⟩ := d.raise_books e
    rw [books]
  · exact fun count sat => d.get_raise count sat e

end Sys2Proof
end

section
/-! SUPPORT. The primary mailboxes of the LDs (R79, R80, R87): what a mailbox answers and what it takes. -/

namespace Sys2Proof.Machine

variable {s : State} {g : Nat}

/-! ## A mailbox that takes commands, and one that takes none -/

theorem State.did_withDev (s : State) (d : Dev) : (withDev s d).did d = s.did d := rfl

/-- Something sent after an effect that itself sends nothing. -/
theorem State.did_send_withDev {s : State} {d : Dev} (h : d.out = []) (o : Output) : s.did (d.send o) = sends (withDev s d) o :=
  State.did_send_of_quiet (s := withDev s d) h o

theorem did_mboxReport (hq : quiet s) (on : s.dev.mboxOn g = true) (opcode : Nat) (body : List Nat) :
    s.did (s.dev.mboxReport g opcode body) = sends s (.mailbox g opcode rcSuccess body) := by
  rw [← State.did_send_of_quiet hq, Dev.mboxReport, if_pos on]

theorem Dev.mbox_of_on {d : Dev} (on : d.mboxOn g = true) (opcode : Nat) (f : Dev → Dev × Option (Nat × List Nat)) :
    d.mbox g opcode f = match (f d).2 with
      | some (code, body) => (f d).1.send (.mailbox g opcode code body)
      | none => (f d).1 := if_pos on

/-- A mailbox command that answers at once, and sends nothing else. -/
theorem did_mbox_reply {opcode code : Nat} {f : Dev → Dev × Option (Nat × List Nat)} {d : Dev} {body : List Nat}
    (on : s.dev.mboxOn g = true) (h : f s.dev = (d, some (code, body))) (sent : d.out = []) :
    s.did (s.dev.mbox g opcode f) = sends (withDev s d) (.mailbox g opcode code body) := by
  rw [Dev.mbox_of_on on, h, ← State.did_send_withDev sent]

/-- A mailbox command that writes its LD's entry and answers at once. -/
theorem did_mbox_setLd (hq : quiet s) {opcode code : Nat} {f : Dev → Dev × Option (Nat × List Nat)} {l : Ld} {body : List Nat}
    (on : s.dev.mboxOn g = true) (h : f s.dev = (s.dev.setLd g l, some (code, body))) :
    s.did (s.dev.mbox g opcode f) = sends (withDev s (s.dev.setLd g l)) (.mailbox g opcode code body) :=
  did_mbox_reply on h hq

/-- A mailbox command that answers at once and changes nothing. -/
theorem did_mbox_answer (hq : quiet s) {opcode code : Nat} {f : Dev → Dev × Option (Nat × List Nat)} {body : List Nat}
    (on : s.dev.mboxOn g = true) (h : f s.dev = (s.dev, some (code, body))) :
    s.did (s.dev.mbox g opcode f) = sends s (.mailbox g opcode code body) :=
  did_mbox_reply on h hq

theorem did_mboxReport_closed (hq : quiet s) (off : s.dev.mboxOn g = false) (opcode : Nat) (body : List Nat) :
    s.did (s.dev.mboxReport g opcode body) = s := by
  rw [Dev.mboxReport, if_neg (Bool.eq_false_iff.mp off), State.did_self_of_quiet hq]

theorem did_mbox_closed (hq : quiet s) (off : s.dev.mboxOn g = false) (opcode : Nat) (f : Dev → Dev × Option (Nat × List Nat)) :
    s.did (s.dev.mbox g opcode f) = s := by
  rw [Dev.mbox, if_neg (Bool.eq_false_iff.mp off), State.did_self_of_quiet hq]

/-! ## LDs -/

@[simp] theorem Dev.ld_setLd_same (d : Dev) (g : Nat) (l : Ld) : (d.setLd g l).ld g = l := Tab.getD_putD_same d.lds g l {}

theorem Dev.ld_setLd_ne (d : Dev) {g h : Nat} (other : h ≠ g) (l : Ld) : (d.setLd g l).ld h = d.ld h :=
  Tab.getD_putD_ne d.lds other l {} {}

/-- An offer dropped is no longer the LD's. -/
theorem Dev.offers_dropOffer (d : Dev) (g n : Nat) : ((d.dropOffer g n).ld g).offers.get? n = none := by
  unfold Dev.dropOffer
  rw [Dev.ld_setLd_same]
  exact Tab.get?_del_same _ _

end Sys2Proof.Machine

namespace Sys2Proof
open Machine

/-- Settles O13: each of these commands answers from the device alone. -/
theorem mailboxReportsAnswer : Obligations.MailboxReportsAnswer := by
  unfold Obligations.MailboxReportsAnswer
  intro s g hq on
  have report (opcode : Nat) (body : List Nat) := congrArg (Host.Outcome.next (φ := Fault) (ρ := Refusal)) (did_mboxReport hq on opcode body)
  refine ⟨report _ _, report _ _, report _ _, fun log other => ?_, report _ _, report _ _,
    fun first count => ⟨congrArg _ (did_mbox_answer hq on rfl), congrArg _ (did_mbox_answer hq on rfl)⟩, report _ _, report _ _,
    report _ _, report _ _, report _ _, fun op => congrArg _ (did_mbox_answer hq on rfl),
    fun line lines inside => congrArg _ (did_mbox_answer hq on (if_pos inside)),
    fun line lines outside => congrArg _ (did_mbox_answer hq on (if_neg (Bool.eq_false_iff.mp outside)))⟩
  exact (report 0x0100 (if log = 4 then (s.dev.ld g).events.flatMap LdRecord.words else [])).trans (by rw [if_neg other])

/-- Settles O14: each write replaces one field of the LD's entry, which no other LD reads. -/
theorem mailboxWritesItsLd : Obligations.MailboxWritesItsLd := by
  unfold Obligations.MailboxWritesItsLd
  intro s g hq on
  exact ⟨fun p => congrArg _ (did_mbox_setLd hq on rfl), fun v => congrArg _ (did_mbox_setLd hq on rfl),
    fun n all => congrArg _ (did_mbox_setLd hq on (if_pos rfl)), fun log n all other => congrArg _ (did_mbox_answer hq on (if_neg other)),
    fun l h => ⟨s.dev.ld_setLd_same g l, fun other => s.dev.ld_setLd_ne other l⟩⟩

/-- Settles O15: every mailbox command is `mboxReport` or `mbox`, which leave a device with a closed mailbox alone. -/
theorem closedMailboxTakesNothing : Obligations.ClosedMailboxTakesNothing := by
  unfold Obligations.ClosedMailboxTakesNothing
  intro s g hq off c hc
  refine ⟨?report, fun log n a p v first count line lines op dt x dpa len e he => ?command⟩
  case report =>
    simp only [List.mem_cons, List.not_mem_nil, or_false] at hc
    rcases hc with rfl | rfl | rfl | rfl | rfl | rfl | rfl | rfl | rfl <;> exact congrArg _ (did_mboxReport_closed hq off _ _)
  case command =>
    simp only [List.mem_cons, List.not_mem_nil, or_false] at he
    rcases he with rfl | he
    · exact congrArg _ (did_mboxReport_closed hq off _ _)
    · rcases he with rfl | rfl | rfl | rfl | rfl | rfl | rfl | rfl | rfl | rfl <;> exact congrArg _ (did_mbox_closed hq off _ _)

/-- Settles O16: both commands look for an attached region first, and are refused where they find none. -/
theorem mailboxPoison : Obligations.MailboxPoison := by
  unfold Obligations.MailboxPoison
  intro s g line n H r data hq on head
  refine ⟨fun none => ⟨congrArg _ (did_mbox_answer hq on ?_), congrArg _ (did_mbox_answer hq on ?_)⟩,
    fun region attached => ⟨congrArg _ (congrArg _ ((Dev.mbox_of_on on _ _).trans ?_)), congrArg _ (congrArg _ ((Dev.mbox_of_on on _ _).trans ?_))⟩,
    fun region detached => ⟨congrArg _ (did_mbox_answer hq on ?_), congrArg _ (did_mbox_answer hq on ?_)⟩⟩
  · simp only [none]
  · simp only [none]
  · simp only [region, head, attached, Bool.not_true, Bool.false_eq_true, if_false]
  · simp only [region, head, attached, Bool.not_true, Bool.false_eq_true, if_false]
  · simp only [region, head, detached, Bool.not_false, if_true]
  · simp only [region, head, detached, Bool.not_false, if_true]

/-- An offer by the Fabric Manager that its host never answers: its time comes, the FM is told, and the offer is gone (R79). -/
theorem exec_dcdOfferTimeout_of_fm {s : State} {g n : Nat} {o : Offer} (hq : quiet s) (offer : (s.dev.ld g).offers.get? n = some o)
    (fm : o.issuer = .fm) : ∃ t, exec (.dcdOfferTimeout g n) s = .next t ∧
      t.dev.clock = max s.dev.clock (o.opened + s.dev.dcdTimeout g) ∧ t.sent = .fm opDcAdd 5 [] :: s.sent ∧
      (t.dev.ld g).offers.get? n = none := by
  have hout : s.dev.out = [] := hq
  let d := ((s.dev.at (o.opened + s.dev.dcdTimeout g)).dropOffer g n).send (.fm opDcAdd 5 [])
  have books : Dev.Books d (match d.headOfGld g with | some H => d.raise (hpEv (H / 4) 12) | none => d) := by
    split
    · exact d.raise_books _
    · exact .refl d
  refine ⟨s.did (match d.headOfGld g with | some H => d.raise (hpEv (H / 4) 12) | none => d), ?_, ?_⟩
  · refine congrArg _ (congrArg _ ?_)
    simp only [offer, fm, Dev.dcAnswer]
    rfl
  · obtain ⟨regs, row, fco, psq, same⟩ := books
    rw [same]
    exact ⟨rfl, by rw [State.did_sent]; exact congrArg (Output.fm opDcAdd 5 [] :: · ++ s.sent) hout, Dev.offers_dropOffer _ g n⟩

/-- Settles O17: the answer, the release and the time-outs find their offer, extent or wait, or refuse. -/
theorem capacityChangesHands : Obligations.CapacityChangesHands := by
  unfold Obligations.CapacityChangesHands
  intro s g n o r hq on
  refine ⟨fun dpa len offer => congrArg _ (congrArg _ ((Dev.mbox_of_on on _ _).trans ?_)),
    fun oldest => congrArg _ (congrArg _ ((Dev.mbox_of_on on _ _).trans ?_)),
    fun dpa len extent attached => congrArg _ (congrArg _ ((Dev.mbox_of_on on _ _).trans ?_)),
    fun dpa len none => congrArg _ (did_mbox_answer hq on ?_), fun none => congrArg _ (did_mbox_answer hq on ?_),
    fun dpa len none => congrArg _ (did_mbox_answer hq on ?_), exec_dcdOfferTimeout_of_fm hq, fun p waiting => congrArg _ (congrArg _ ?_)⟩
  · simp only [offer]
  · simp only [oldest]
  · simp only [extent, attached, if_true]
  · simp only [none]
  · simp only [none]
  · simp only [none]
  · simp only [waiting]

end Sys2Proof
end

section
/-! SUPPORT. The Fabric Manager's commands (R75–R80, R88, R89): what the FM API answers, and that a refusal raises an event and
changes nothing else. -/

namespace Sys2Proof.Machine

variable {s : State} {src : Nat}

/-! ## Reports -/

theorem did_fmReport (hq : quiet s) (on : s.dev.fmOn src = true) (opcode : Nat) (body : List Nat) :
    s.did (s.dev.fmReport src opcode body) = sends s (.fm opcode rcSuccess body) := by
  rw [← State.did_send_of_quiet hq, Dev.fmReport, if_pos on]

theorem flatMap_ite_nil {α β : Type} (p : α → Prop) [DecidablePred p] (f : α → List β) (l : List α) :
    (l.flatMap fun x => if p x then f x else []) = (l.filter p).flatMap f := by
  induction l with
  | nil => rfl
  | cons x r ih => by_cases h : p x <;> simp [h, ih]

/-- A run of numbers below a bound, as the FM's reports list them. -/
theorem flatMap_run {β : Type} (bound first count : Nat) (f : Nat → List β) :
    (((List.range count).map (· + first)).flatMap fun x => if x < bound then f x else []) =
      ((List.range' first count).filter (· < bound)).flatMap f := by
  rw [List.range'_eq_map_range, flatMap_ite_nil]
  simp only [Nat.add_comm]

theorem Dev.ldRun_eq (d : Dev) (first count : Nat) (f : Ld → Nat) :
    d.ldRun first count f = ((List.range' first count).filter (· < 64)).flatMap fun g => [g, f (d.ld g)] :=
  flatMap_run 64 first count _

/-! ## Changes and refusals -/

/-- What a command records leaves all but registers, ROW, FCO and PSQ alone. -/
theorem Dev.fmRecord_books (d : Dev) (src opcode : Nat) : Dev.Books d (d.fmRecord src opcode) := d.holdRecord_books _ _

theorem did_fmChange_of_ok (on : s.dev.fmOn src = true) {ok : Bool} (h : ok = true) (opcode : Nat) (f : Dev → Dev) :
    s.did (s.dev.fmChange src opcode ok f) = s.did ((f (s.dev.fmRecord src opcode)).send (.fm opcode rcSuccess [])) := by
  rw [Dev.fmChange, if_neg (by simp [on]), if_pos h]

theorem did_fmRefuse (hq : quiet s) (src opcode code : Nat) : fmRefused s (s.did (s.dev.fmRefuse src opcode code)) opcode code := by
  have hout : s.dev.out = [] := hq
  obtain ⟨regs, row, fco, psq, same⟩ := (s.dev.send (.fm opcode code [])).raise_books (hpEv (fmPort src) 11)
  rw [Dev.fmRefuse, same]
  refine ⟨congrArg (Output.fm opcode code [] :: · ++ s.sent) hout, regs, row, fco, psq, ?_⟩
  simp only [State.did, Dev.send, hout]

theorem fmRefused_of_eq (hq : quiet s) {d : Dev} {opcode code : Nat} (h : d = s.dev.fmRefuse src opcode code) :
    fmRefused s (s.did d) opcode code := h ▸ did_fmRefuse hq src opcode code

theorem did_fmChange_of_not_ok (hq : quiet s) (on : s.dev.fmOn src = true) {ok : Bool} (h : ok = false) (opcode : Nat) (f : Dev → Dev) :
    fmRefused s (s.did (s.dev.fmChange src opcode ok f)) opcode rcInvalidInput := by
  rw [Dev.fmChange, if_neg (by simp [on]), if_neg (by simp [h])]
  exact did_fmRefuse hq src opcode rcInvalidInput

/-- A change that only records: nothing but registers, ROW, FCO and PSQ differs after it. -/
theorem did_fmChange_id (hq : quiet s) (on : s.dev.fmOn src = true) {ok : Bool} (h : ok = true) (opcode : Nat) :
    (s.did (s.dev.fmChange src opcode ok id)).sent = .fm opcode rcSuccess [] :: s.sent ∧
      (s.did (s.dev.fmChange src opcode ok id)).dev.lds = s.dev.lds := by
  have hout : s.dev.out = [] := hq
  obtain ⟨regs, row, fco, psq, same⟩ := s.dev.fmRecord_books src opcode
  rw [did_fmChange_of_ok on h, same]
  exact ⟨congrArg (Output.fm opcode rcSuccess [] :: · ++ s.sent) hout, rfl⟩

/-! ## A run of values stored in the LDs -/

theorem Dev.setLds_cons (d : Dev) (first x : Nat) (l : List Nat) (f : Ld → Nat → Ld) :
    d.setLds first (x :: l) f = (d.setLd first (f (d.ld first) x)).setLds (first + 1) l f := by
  unfold Dev.setLds
  rw [List.length_cons, List.range_succ_eq_map, List.zip_cons_cons, List.foldl_cons, List.zip_map_left, List.foldl_map]
  simp only [Nat.add_zero, Prod.map_fst, Prod.map_snd, id_eq, Nat.succ_eq_add_one, Nat.add_right_comm, Nat.add_assoc]

/-- An LD that the run reaches has taken its value; every other is as before. -/
theorem Dev.ld_setLds (d : Dev) (first : Nat) (l : List Nat) (f : Ld → Nat → Ld) (g : Nat) :
    (d.setLds first l f).ld g = if first ≤ g ∧ g < first + l.length then f (d.ld g) (l.getD (g - first) 0) else d.ld g := by
  induction l generalizing d first with
  | nil =>
    rw [if_neg (by rw [List.length_nil]; omega)]
    rfl
  | cons x l ih =>
    rw [Dev.setLds_cons, ih, List.length_cons]
    by_cases here : g = first
    · subst here
      rw [Dev.ld_setLd_same, if_neg (by omega), if_pos (by omega), Nat.sub_self]
      rfl
    · rw [Dev.ld_setLd_ne _ here]
      by_cases later : first + 1 ≤ g ∧ g < first + 1 + l.length
      · have index : g - first = g - (first + 1) + 1 := by omega
        rw [if_pos later, if_pos (by omega), index, List.getD_cons_succ]
      · rw [if_neg later, if_neg (by omega)]

theorem Dev.setLds_out (d : Dev) (first : Nat) (l : List Nat) (f : Ld → Nat → Ld) : (d.setLds first l f).out = d.out := by
  induction l generalizing d first with
  | nil => rfl
  | cons x l ih =>
    rw [Dev.setLds_cons, ih]
    rfl

/-- A run that fits is recorded and stored, and the FM told of success. -/
theorem did_fmChange_setLds (hq : quiet s) (on : s.dev.fmOn src = true) {first : Nat} {bw : List Nat} (h : bwOk first bw = true)
    (opcode : Nat) (f : Ld → Nat → Ld) (g : Nat) :
    (s.did (s.dev.fmChange src opcode (bwOk first bw) fun d => d.setLds first bw f)).dev.ld g =
        (if first ≤ g ∧ g < first + bw.length then f (s.dev.ld g) (bw.getD (g - first) 0) else s.dev.ld g) ∧
      (s.did (s.dev.fmChange src opcode (bwOk first bw) fun d => d.setLds first bw f)).sent = .fm opcode rcSuccess [] :: s.sent := by
  have hout : s.dev.out = [] := hq
  obtain ⟨regs, row, fco, psq, same⟩ := s.dev.fmRecord_books src opcode
  rw [did_fmChange_of_ok on h, same]
  refine ⟨Dev.ld_setLds { s.dev with regs, row, fco, psq } first bw f g, ?_⟩
  rw [State.did_sent, Dev.send_out, Dev.setLds_out]
  exact congrArg (Output.fm opcode rcSuccess [] :: · ++ s.sent) hout

theorem bwOk_eq_true_iff {first : Nat} {l : List Nat} : bwOk first l = true ↔ first + l.length ≤ 64 ∧ ∀ x ∈ l, x < 256 := by
  simp [bwOk]

theorem bwOk_eq_false_iff {first : Nat} {l : List Nat} : bwOk first l = false ↔ 64 < first + l.length ∨ ∃ x ∈ l, 256 ≤ x := by
  rw [← Bool.not_eq_true, bwOk_eq_true_iff]
  simp only [Classical.not_and_iff_not_or_not, Nat.not_le, Classical.not_forall, Nat.not_lt, exists_prop]

/-! ## Extent tags -/

theorem Dev.tagged_of_region {d : Dev} {n : Nat} {r : Region} (h : d.regions.get? n = some r) : d.tagged n r.gen r.tenant = some r := by
  simp [Dev.tagged, h]

end Sys2Proof.Machine

namespace Sys2Proof
open Machine

/-- Settles O18: each of these commands answers from the device alone. -/
theorem fmReportsAnswer : Obligations.FmReportsAnswer := by
  unfold Obligations.FmReportsAnswer
  intro s src hq on
  have report (opcode : Nat) (body : List Nat) := congrArg (Host.Outcome.next (φ := Fault) (ρ := Refusal)) (did_fmReport hq on opcode body)
  refine ⟨report _ _, report _ _, fun first count => (report _ _).trans ?_, report _ _, fun first count =>
    ⟨(report _ _).trans ?_, (report _ _).trans ?_, (report _ _).trans ?_⟩, report _ _, report _ _, report _ _,
    fun g => ⟨report _ _, report _ _⟩⟩
  · rw [flatMap_run 16]
  · rw [flatMap_run 64]
  · rw [Dev.ldRun_eq]
  · rw [Dev.ldRun_eq]

/-- Settles O19: operands in range are recorded and take effect, others are refused. -/
theorem fmChangesAnswer : Obligations.FmChangesAnswer := by
  unfold Obligations.FmChangesAnswer
  intro s src hq on
  refine ⟨fun low high order top => ⟨_, rfl, ?_⟩, fun low high bad => ⟨_, rfl, did_fmChange_of_not_ok hq on ?_ _ _⟩,
    fun first bw fits small => ⟨_, _, rfl, rfl, fun g => ?_, ?_, ?_⟩, fun first bw bad => ⟨_, _, rfl, rfl, ?_, ?_⟩,
    fun req same => ⟨_, rfl, did_fmChange_id hq on ?_ _⟩, fun req differs => ⟨_, rfl, did_fmChange_of_not_ok hq on ?_ _ _⟩,
    fun k lt => ⟨_, rfl, did_fmChange_id hq on ?_ _⟩, fun k b bad => ⟨_, rfl, did_fmChange_of_not_ok hq on ?_ _ _⟩⟩
  · have hout : s.dev.out = [] := hq
    obtain ⟨regs, row, fco, psq, same⟩ := s.dev.fmRecord_books src 0x5404
    rw [did_fmChange_of_ok on (by simp [order, top]), same]
    exact ⟨rfl, rfl, congrArg (Output.fm 0x5404 rcSuccess [] :: · ++ s.sent) hout, rfl, rfl⟩
  · rw [Bool.and_eq_false_iff, decide_eq_false_iff_not, decide_eq_false_iff_not]
    omega
  · have ok := bwOk_eq_true_iff.mpr ⟨fits, small⟩
    rw [(did_fmChange_setLds hq on ok 0x5407 (fun l x => { l with qosAlloc := x }) g).1,
      (did_fmChange_setLds hq on ok 0x5409 (fun l x => { l with qosLimit := x }) g).1]
    by_cases inside : first ≤ g ∧ g < first + bw.length
    · simp only [if_pos inside, and_self]
    · simp only [if_neg inside, and_self]
  · exact (did_fmChange_setLds hq on (bwOk_eq_true_iff.mpr ⟨fits, small⟩) _ _ 0).2
  · exact (did_fmChange_setLds hq on (bwOk_eq_true_iff.mpr ⟨fits, small⟩) _ _ 0).2
  · exact did_fmChange_of_not_ok hq on (bwOk_eq_false_iff.mpr bad) _ _
  · exact did_fmChange_of_not_ok hq on (bwOk_eq_false_iff.mpr bad) _ _
  · simpa [and_assoc] using same
  · simpa [and_assoc, Decidable.imp_iff_not_or] using differs
  · simp [lt]
  · rw [Bool.and_eq_false_iff, decide_eq_false_iff_not, beq_eq_false_iff_ne]
    omega

/-- Settles O20: the tag, the LD and the pending release are checked in turn, and the first that fails refuses. -/
theorem fmMovesCapacityAndTunnels : Obligations.FmMovesCapacityAndTunnels := by
  unfold Obligations.FmMovesCapacityAndTunnels
  intro s src g n r hq on
  have on' : ¬ (!s.dev.fmOn src) = true := by simp [on]
  refine ⟨fun region ld free => congrArg _ (congrArg _ ((if_neg on').trans ?_)),
    fun forced region attached idle => congrArg _ (congrArg _ ((if_neg on').trans ?_)),
    fun gen tenant forced untagged => ⟨_, _, rfl, rfl, ?_, ?_⟩, fun forced region attached busy => ⟨_, rfl, ?_⟩,
    fun h inner lt headOn lds => ?_, fun h inner bad => ⟨_, rfl, ?_⟩, fun op => ⟨_, rfl, ?_⟩⟩
  · simp only [Dev.tagged_of_region region, free]
    exact if_neg (by simpa using ld)
  · simp only [Dev.tagged_of_region region, attached, idle]
    rfl
  · refine fmRefused_of_eq (src := src) hq ((if_neg on').trans ?_)
    simp only [untagged]
  · refine fmRefused_of_eq (src := src) hq ((if_neg on').trans ?_)
    simp only [untagged]
  · refine fmRefused_of_eq (src := src) hq ((if_neg on').trans ?_)
    simp only [Dev.tagged_of_region region, attached, busy]
    rfl
  · rw [← State.did_send_of_quiet hq]
    exact congrArg _ (congrArg _ ((if_neg on').trans (if_pos ⟨lt, headOn, lds⟩)))
  · exact fmRefused_of_eq hq ((if_neg on').trans (if_neg (by omega)))
  · exact fmRefused_of_eq hq (if_pos on)

end Sys2Proof
end

section
/-! SUPPORT. A Stitcher engine's own operations (R245–R249): what stopping it, sending it on, a wait and a register write change, and
that of all else only bookkeeping differs. -/

namespace Sys2Proof.Machine

/-! ## Register fields by their word -/

theorem Field.key_ne_of_addr {f g : Field} (h : f.addr ≠ g.addr) (hf : f.lo < 32) (hg : g.lo < 32) : f.key ≠ g.key := by
  unfold Field.key
  omega

theorem Field.key_ne_of_lo {f g : Field} (h : f.lo ≠ g.lo) (hf : f.lo < 32) (hg : g.lo < 32) : f.key ≠ g.key := by
  unfold Field.key
  omega

/-- A write leaves the fields of every other word alone. -/
theorem Dev.get_set_of_addr (s : Dev) {f g : Field} (h : g.addr ≠ f.addr) (hg : g.lo < 32) (hf : f.lo < 32) (v : Nat) :
    (s.set f v).get g = s.get g := s.get_set_ne (Field.key_ne_of_addr h hg hf) v

/-- A write leaves the other fields of its word alone. -/
theorem Dev.get_set_of_lo (s : Dev) {f g : Field} (h : g.lo ≠ f.lo) (hg : g.lo < 32) (hf : f.lo < 32) (v : Nat) :
    (s.set f v).get g = s.get g := s.get_set_ne (Field.key_ne_of_lo h hg hf) v

/-- An event leaves every field alone that does not stand in ROW.LOST. -/
theorem Dev.get_raise_of_addr (s : Dev) {f : Field} (h : f.addr ≠ 0x8c0024) (hf : f.lo < 32) (e : Ev) :
    (s.raise e).get f = s.get f :=
  s.get_raise (Field.key_ne_of_addr h hf (by decide)) (Field.key_ne_of_addr h hf (by decide)) e

/-- A counter that counts leaves every field alone that stands neither in its word nor in ROW.LOST. -/
theorem Dev.get_count_of_addr (s : Dev) {c sat f : Field} (hc : f.addr ≠ c.addr) (hs : f.addr ≠ sat.addr) (h : f.addr ≠ 0x8c0024)
    (hf : f.lo < 32) (lc : c.lo < 32) (ls : sat.lo < 32) (n : Nat) (e : Ev) : (s.count c sat n e).get f = s.get f := by
  have counted := s.get_countUp (Field.key_ne_of_addr hc hf lc) (Field.key_ne_of_addr hs hf ls) n
  unfold Dev.count
  dsimp only
  split
  · exact (Dev.get_raise_of_addr _ h hf e).trans counted
  · exact counted

/-! ## What an engine's own operations leave alone -/

/-- From `s` to `t` engine `e` alone has moved: of all else only registers, ROW, FCO and PSQ may differ. -/
def Dev.Moves (e : Nat) (s t : Dev) : Prop :=
  (∃ regs engines row fco psq, t = { s with regs, engines, row, fco, psq }) ∧ ∀ i, i ≠ e → t.engine i = s.engine i

theorem Dev.Moves.refl (e : Nat) (s : Dev) : Dev.Moves e s s := ⟨⟨s.regs, s.engines, s.row, s.fco, s.psq, rfl⟩, fun _ _ => rfl⟩

theorem Dev.Moves.trans {e : Nat} {s t u : Dev} (h : Dev.Moves e s t) (k : Dev.Moves e t u) : Dev.Moves e s u := by
  obtain ⟨⟨_, _, _, _, _, rfl⟩, hs⟩ := h
  obtain ⟨⟨regs, engines, row, fco, psq, rfl⟩, ks⟩ := k
  exact ⟨⟨regs, engines, row, fco, psq, rfl⟩, fun i hi => (ks i hi).trans (hs i hi)⟩

theorem Dev.Books.moves {s t : Dev} (h : Dev.Books s t) (e : Nat) : Dev.Moves e s t := by
  obtain ⟨regs, row, fco, psq, rfl⟩ := h
  exact ⟨⟨regs, s.engines, row, fco, psq, rfl⟩, fun _ _ => rfl⟩

theorem Dev.Moves.ite {e : Nat} {s t u : Dev} {c : Prop} [Decidable c] (h : Dev.Moves e s t) (k : Dev.Moves e s u) :
    Dev.Moves e s (if c then t else u) := by
  by_cases hc : c
  · rwa [if_pos hc]
  · rwa [if_neg hc]

theorem Dev.Moves.movedOnly {s : State} {e : Nat} {d : Dev} (h : Dev.Moves e s.dev d) (hq : quiet s) : movedOnly s (s.did d) e := by
  have hout : s.dev.out = [] := hq
  obtain ⟨⟨regs, engines, row, fco, psq, rfl⟩, others⟩ := h
  exact ⟨⟨regs, engines, row, fco, psq, by simp only [State.did, withDev, hout, List.nil_append]⟩, others⟩

/-- The same, the clock having moved on. -/
theorem Dev.Moves.movedLater {s : State} {e t : Nat} {d : Dev} (h : Dev.Moves e (s.dev.at t) d) (hq : quiet s) :
    movedLater s (s.did d) e := by
  have clock : d.clock = max s.dev.clock t := by
    obtain ⟨⟨_, _, _, _, _, rfl⟩, -⟩ := h
    rfl
  refine ⟨by rw [State.did_clock, clock]; exact Nat.le_max_left _ _, ?_⟩
  rw [State.did_clock, clock]
  exact h.movedOnly (s := withDev s (s.dev.at t)) hq

theorem Dev.set_moves (s : Dev) (f : Field) (v e : Nat) : Dev.Moves e s (s.set f v) := (s.set_books f v).moves e

@[simp] theorem Dev.engine_setEngine_same (s : Dev) (e : Nat) (x : Engine) : (s.setEngine e x).engine e = x :=
  Tab.getD_putD_same s.engines e x {}

theorem Dev.setEngine_moves (s : Dev) (e : Nat) (x : Engine) : Dev.Moves e s (s.setEngine e x) :=
  ⟨⟨s.regs, _, s.row, s.fco, s.psq, rfl⟩, fun _ hi => Tab.getD_putD_ne s.engines hi x {} {}⟩

@[simp] theorem Dev.get_setEngine (s : Dev) (e : Nat) (x : Engine) (f : Field) : (s.setEngine e x).get f = s.get f := rfl

@[simp] theorem Dev.get_setReg (s : Dev) (e i : Nat) (v : BitVec 64) (f : Field) : (s.setReg e i v).get f = s.get f := rfl

@[simp] theorem Dev.reg_set (s : Dev) (f : Field) (v e i : Nat) : (s.set f v).reg e i = s.reg e i := rfl

@[simp] theorem Dev.get_setReady (s : Dev) (e n : Nat) (f : Field) : (s.setReady e n).get f = s.get f := rfl

/-! What a machine's device reads is what the effect left. -/

@[simp] theorem State.did_get (s : State) (d : Dev) (f : Field) : (s.did d).dev.get f = d.get f := rfl

@[simp] theorem State.did_engState (s : State) (d : Dev) (e : Nat) : (s.did d).dev.engState e = d.engState e := rfl

@[simp] theorem State.did_engPc (s : State) (d : Dev) (e : Nat) : (s.did d).dev.engPc e = d.engPc e := rfl

@[simp] theorem State.did_engine (s : State) (d : Dev) (e : Nat) : (s.did d).dev.engine e = d.engine e := rfl

@[simp] theorem State.did_reg (s : State) (d : Dev) (e i : Nat) : (s.did d).dev.reg e i = d.reg e i := rfl

/-! ## General registers -/

@[simp] theorem Dev.reg_setReg_same (s : Dev) (e i : Nat) (v : BitVec 64) : (s.setReg e i v).reg e i = v := by
  unfold Dev.reg Dev.setReg
  rw [Dev.engine_setEngine_same]
  exact Tab.getD_putD_same _ _ _ _

theorem Dev.reg_setReg_ne (s : Dev) (e : Nat) {i j : Nat} (h : j ≠ i) (v : BitVec 64) : (s.setReg e i v).reg e j = s.reg e j := by
  unfold Dev.reg Dev.setReg
  rw [Dev.engine_setEngine_same]
  exact Tab.getD_putD_ne _ h _ _ _

theorem Dev.setReg_moves (s : Dev) (e i : Nat) (v : BitVec 64) : Dev.Moves e s (s.setReg e i v) := s.setEngine_moves e _

/-- The general registers of an engine are a field of its entry. -/
theorem Dev.reg_congr {s t : Dev} {e : Nat} (h : (t.engine e).g = (s.engine e).g) (i : Nat) : t.reg e i = s.reg e i := by
  unfold Dev.reg
  rw [h]

@[simp] theorem Dev.engState_setReady (s : Dev) (e n : Nat) : (s.setReady e n).engState e = s.engState e := rfl

@[simp] theorem Dev.engPc_setReady (s : Dev) (e n : Nat) : (s.setReady e n).engPc e = s.engPc e := rfl

@[simp] theorem Dev.engLen_setReg (s : Dev) (e i : Nat) (v : BitVec 64) : (s.setReg e i v).engLen e = s.engLen e := rfl

@[simp] theorem Dev.engPc_setReg (s : Dev) (e i : Nat) (v : BitVec 64) : (s.setReg e i v).engPc e = s.engPc e := rfl

@[simp] theorem Dev.reg_setReady (s : Dev) (e n i : Nat) : (s.setReady e n).reg e i = s.reg e i :=
  Dev.reg_congr (by unfold Dev.setReady; rw [Dev.engine_setEngine_same]) i

theorem Dev.setReady_moves (s : Dev) (e n : Nat) : Dev.Moves e s (s.setReady e n) := s.setEngine_moves e _

@[simp] theorem Dev.engine_setReady (s : Dev) (e n : Nat) : (s.setReady e n).engine e = { s.engine e with ready := n } :=
  s.engine_setEngine_same e _

/-! ## Stopping -/

/-- An engine that stops: its streams and doorbell values go, its watches are disarmed (R245, R246). -/
def Engine.stopped (x : Engine) : Engine :=
  { x with streams := .empty, fifo := [], watches := x.watches.map fun _ w => { w with armed := false } }

/-- A stop is its state written, and an event where one is due. -/
theorem Dev.engStop_eq (s : Dev) (e reason : Nat) : ∃ l : List Ev, s.engStop e reason =
    (((s.setEngine e (s.engine e).stopped).set (Reg.ENG.STS.STATE e) (if reason = 1 then 6 else if reason = 3 then 7 else 1)).set
      (Reg.ENG.STS.STOP_REASON e) reason).raiseAll l := by
  unfold Dev.engStop Dev.raiseAll
  dsimp only
  split
  · exact ⟨[_], rfl⟩
  · split
    · exact ⟨[_], rfl⟩
    · exact ⟨[], rfl⟩

theorem Dev.get_raiseAll_of_addr {f : Field} (h : f.addr ≠ 0x8c0024) (hf : f.lo < 32) (l : List Ev) (s : Dev) :
    (s.raiseAll l).get f = s.get f := by
  unfold Dev.raiseAll
  induction l generalizing s with
  | nil => rfl
  | cons e r ih => exact (ih _).trans (s.get_raise_of_addr h hf e)

theorem Dev.Books.engines {s t : Dev} (h : Dev.Books s t) : t.engines = s.engines := by
  obtain ⟨_, _, _, _, rfl⟩ := h
  rfl

theorem Dev.Books.engine {s t : Dev} (h : Dev.Books s t) (e : Nat) : t.engine e = s.engine e := by
  unfold Dev.engine
  rw [h.engines]

theorem Dev.Books.reg {s t : Dev} (h : Dev.Books s t) (e i : Nat) : t.reg e i = s.reg e i := by
  unfold Dev.reg
  rw [h.engine]

theorem Dev.engStop_moves (s : Dev) (e reason : Nat) : Dev.Moves e s (s.engStop e reason) := by
  obtain ⟨l, eq⟩ := s.engStop_eq e reason
  rw [eq]
  exact (((s.setEngine_moves e _).trans (Dev.set_moves _ _ _ e)).trans (Dev.set_moves _ _ _ e)).trans ((Dev.raiseAll_books l _).moves e)

@[simp] theorem Dev.engine_engStop (s : Dev) (e reason : Nat) : (s.engStop e reason).engine e = (s.engine e).stopped := by
  obtain ⟨l, eq⟩ := s.engStop_eq e reason
  rw [eq, (Dev.raiseAll_books l _).engine]
  exact s.engine_setEngine_same e _

@[simp] theorem Dev.reg_engStop (s : Dev) (e reason i : Nat) : (s.engStop e reason).reg e i = s.reg e i :=
  Dev.reg_congr (by rw [Dev.engine_engStop]; rfl) i

theorem Dev.engState_engStop (s : Dev) (e reason : Nat) :
    (s.engStop e reason).engState e = if reason = 1 then 6 else if reason = 3 then 7 else 1 := by
  obtain ⟨l, eq⟩ := s.engStop_eq e reason
  have small : (if reason = 1 then 6 else if reason = 3 then 7 else 1) % 8 = if reason = 1 then 6 else if reason = 3 then 7 else 1 := by
    split
    · rfl
    · split <;> rfl
  rw [eq]
  refine (Dev.get_raiseAll_of_addr (by show 0x601004 + 0x100 * e ≠ _; omega) (of_decide_eq_true rfl) l _).trans ?_
  refine (Dev.get_set_of_lo _ (of_decide_eq_true rfl) (of_decide_eq_true rfl) (of_decide_eq_true rfl) _).trans ?_
  exact (Dev.get_set_same _ _ _).trans small

theorem Dev.stopReason_engStop (s : Dev) (e : Nat) {reason : Nat} (h : reason < 16) :
    (s.engStop e reason).get (Reg.ENG.STS.STOP_REASON e) = reason := by
  obtain ⟨l, eq⟩ := s.engStop_eq e reason
  rw [eq]
  refine (Dev.get_raiseAll_of_addr (by show 0x601004 + 0x100 * e ≠ _; omega) (of_decide_eq_true rfl) l _).trans ?_
  exact (Dev.get_set_same _ _ _).trans (Nat.mod_eq_of_lt h)

/-- A stop writes STATE and STOP_REASON alone of the engine's fields. -/
theorem Dev.get_engStop (s : Dev) {e : Nat} {f : Field} (h : f.addr ≠ 0x601004 + 0x100 * e ∨ f.lo ≠ 0 ∧ f.lo ≠ 3) (row : f.addr ≠ 0x8c0024)
    (hf : f.lo < 32) (reason : Nat) : (s.engStop e reason).get f = s.get f := by
  obtain ⟨l, eq⟩ := s.engStop_eq e reason
  have other (g : Field) (hg : g.addr = 0x601004 + 0x100 * e) (lo : g.lo = 0 ∨ g.lo = 3) : f.key ≠ g.key := by
    unfold Field.key
    omega
  rw [eq]
  refine (Dev.get_raiseAll_of_addr row hf l _).trans ?_
  refine (Dev.get_set_ne _ (other _ rfl (.inr rfl)) _).trans ?_
  exact Dev.get_set_ne _ (other _ rfl (.inl rfl)) _

/-! ## Going on -/

/-- The engine RUNNING at a stitch. -/
def Dev.engAt (s : Dev) (e pc : Nat) : Dev := (s.set (Reg.ENG.STS.STATE e) 2).set (Reg.ENG.STS.PC e) pc

theorem Dev.get_engAt (s : Dev) {e : Nat} {f : Field} (h : f.addr ≠ 0x601004 + 0x100 * e ∨ f.lo ≠ 0 ∧ f.lo ≠ 7) (hf : f.lo < 32) (pc : Nat) :
    (s.engAt e pc).get f = s.get f := by
  have other (g : Field) (hg : g.addr = 0x601004 + 0x100 * e) (lo : g.lo = 0 ∨ g.lo = 7) : f.key ≠ g.key := by
    unfold Field.key
    omega
  exact (Dev.get_set_ne _ (other _ rfl (.inr rfl)) _).trans (Dev.get_set_ne _ (other _ rfl (.inl rfl)) _)

@[simp] theorem Dev.engPc_engAt (s : Dev) (e pc : Nat) : (s.engAt e pc).engPc e = pc % 1024 := Dev.get_set_same _ _ _

@[simp] theorem Dev.engState_engAt (s : Dev) (e pc : Nat) : (s.engAt e pc).engState e = 2 :=
  (Dev.get_set_of_lo _ (of_decide_eq_true rfl) (of_decide_eq_true rfl) (of_decide_eq_true rfl) _).trans (Dev.get_set_same _ _ _)

@[simp] theorem Dev.engLen_engAt (s : Dev) (e pc : Nat) : (s.engAt e pc).engLen e = s.engLen e :=
  s.get_engAt (.inr ⟨of_decide_eq_true rfl, of_decide_eq_true rfl⟩) (of_decide_eq_true rfl) pc

theorem Dev.engAt_books (s : Dev) (e pc : Nat) : Dev.Books s (s.engAt e pc) := (s.set_books _ _).trans (Dev.set_books _ _ _)

theorem Dev.engGoto_eq (s : Dev) (e pc : Nat) :
    s.engGoto e pc = if s.engLen e ≤ pc then (s.engAt e pc).engStop e 1 else s.engAt e pc := by
  rw [← s.engLen_engAt e pc]
  rfl

theorem Dev.engGoto_moves (s : Dev) (e pc : Nat) : Dev.Moves e s (s.engGoto e pc) := by
  rw [Dev.engGoto_eq]
  exact .ite (((s.engAt_books e pc).moves e).trans (Dev.engStop_moves _ e 1)) ((s.engAt_books e pc).moves e)

@[simp] theorem Dev.reg_engGoto (s : Dev) (e pc i : Nat) : (s.engGoto e pc).reg e i = s.reg e i := by
  rw [Dev.engGoto_eq]
  split
  · rw [Dev.reg_engStop, (s.engAt_books e pc).reg]
  · exact (s.engAt_books e pc).reg e i

theorem Dev.engPc_engStop (s : Dev) (e reason : Nat) : (s.engStop e reason).engPc e = s.engPc e :=
  s.get_engStop (.inr ⟨of_decide_eq_true rfl, of_decide_eq_true rfl⟩) (by show 0x601004 + 0x100 * e ≠ _; omega) (of_decide_eq_true rfl) reason

theorem Dev.engPc_engGoto (s : Dev) (e pc : Nat) : (s.engGoto e pc).engPc e = pc % 1024 := by
  rw [Dev.engGoto_eq]
  split
  · rw [Dev.engPc_engStop, Dev.engPc_engAt]
  · exact s.engPc_engAt e pc

/-- Going on touches no word but the engine's STS and ROW.LOST. -/
theorem Dev.get_engGoto (s : Dev) {e : Nat} {f : Field} (h : f.addr ≠ 0x601004 + 0x100 * e) (row : f.addr ≠ 0x8c0024) (hf : f.lo < 32)
    (pc : Nat) : (s.engGoto e pc).get f = s.get f := by
  rw [Dev.engGoto_eq]
  split
  · exact (Dev.get_engStop _ (.inl h) row hf 1).trans (s.get_engAt (.inl h) hf pc)
  · exact s.get_engAt (.inl h) hf pc

/-- Before LEN nothing but the state and the stitch index changes. -/
theorem Dev.engine_engGoto_of_lt {s : Dev} {e pc : Nat} (h : pc < s.engLen e) : (s.engGoto e pc).engine e = s.engine e := by
  rw [Dev.engGoto_eq, if_neg (by omega)]
  exact (s.engAt_books e pc).engine e

theorem Dev.engState_engGoto_of_lt {s : Dev} {e pc : Nat} (h : pc < s.engLen e) : (s.engGoto e pc).engState e = 2 := by
  rw [Dev.engGoto_eq, if_neg (by omega)]
  exact s.engState_engAt e pc

/-- At LEN the engine stops with reason 1. -/
theorem Dev.engGoto_of_len_le {s : Dev} {e pc : Nat} (h : s.engLen e ≤ pc) :
    (s.engGoto e pc).engState e = 6 ∧ (s.engGoto e pc).get (Reg.ENG.STS.STOP_REASON e) = 1 := by
  rw [Dev.engGoto_eq, if_pos h]
  exact ⟨Dev.engState_engStop _ e 1, Dev.stopReason_engStop _ e (of_decide_eq_true rfl)⟩

/-- From `s` to `t` engine `e` has gone on at stitch `pc`: RUNNING, or stopped with reason 1 at LEN (R245). -/
def Dev.GoesOn (e pc : Nat) (s t : Dev) : Prop :=
  t.engPc e = pc % 1024 ∧ (pc < s.engLen e → t.engState e = 2) ∧
    (s.engLen e ≤ pc → t.engState e = 6 ∧ t.get (Reg.ENG.STS.STOP_REASON e) = 1)

theorem Dev.GoesOn.goesOn {s : State} {e pc : Nat} {d : Dev} (h : Dev.GoesOn e pc s.dev d) : goesOn s (s.did d) e pc := h

theorem Dev.GoesOn.setReady {s t : Dev} {e pc : Nat} (h : Dev.GoesOn e pc s t) (n : Nat) : Dev.GoesOn e pc s (t.setReady e n) := h

theorem Dev.GoesOn.at {s t : Dev} {e pc : Nat} (h : Dev.GoesOn e pc s t) (n : Nat) : Dev.GoesOn e pc s (t.at n) := h

theorem Dev.goesOn_engGoto {s c : Dev} {e : Nat} (len : c.engLen e = s.engLen e) (pc : Nat) : Dev.GoesOn e pc s (c.engGoto e pc) := by
  unfold Dev.GoesOn
  rw [← len]
  exact ⟨c.engPc_engGoto e pc, Dev.engState_engGoto_of_lt, Dev.engGoto_of_len_le⟩

theorem Dev.engNext_moves (s : Dev) (e : Nat) : Dev.Moves e s (s.engNext e) := s.engGoto_moves e _

@[simp] theorem Dev.reg_engNext (s : Dev) (e i : Nat) : (s.engNext e).reg e i = s.reg e i := s.reg_engGoto e _ i

/-! ## An engine about to finish its stitch -/

/-- From `s` to `c` engine `e` alone has moved, and it stands at the same stitch with the same general registers. -/
structure Dev.Poised (e : Nat) (s c : Dev) : Prop where
  moves : Dev.Moves e s c
  len : c.engLen e = s.engLen e
  pc : c.engPc e = s.engPc e
  reg : ∀ i, c.reg e i = s.reg e i

theorem Dev.Poised.refl (e : Nat) (s : Dev) : Dev.Poised e s s := ⟨.refl e s, rfl, rfl, fun _ => rfl⟩

/-- Whatever else of the engine's entry changes. -/
theorem Dev.Poised.setEngine {e : Nat} {s c : Dev} (h : Dev.Poised e s c) {x : Engine} (g : x.g = (c.engine e).g) :
    Dev.Poised e s (c.setEngine e x) :=
  ⟨h.moves.trans (c.setEngine_moves e x), h.len, h.pc,
    fun i => (Dev.reg_congr (by rw [Dev.engine_setEngine_same, g]) i).trans (h.reg i)⟩

/-- The stitch is done: the engine goes on at the next one. -/
theorem Dev.Poised.engNext {e : Nat} {s c : Dev} (h : Dev.Poised e s c) : Dev.Moves e s (c.engNext e) ∧
    Dev.GoesOn e (s.engPc e + 1) s (c.engNext e) ∧ ∀ i, (c.engNext e).reg e i = s.reg e i := by
  refine ⟨h.moves.trans (c.engNext_moves e), ?_, fun i => (c.reg_engNext e i).trans (h.reg i)⟩
  rw [Dev.engNext, h.pc]
  exact Dev.goesOn_engGoto h.len _

/-- From `s` to `t` register `d` of engine `e` has taken the value, its others are as before. -/
def Dev.WroteReg (e d : Nat) (v : BitVec 64) (s t : Dev) : Prop := t.reg e d = v ∧ ∀ i, i ≠ d → t.reg e i = s.reg e i

theorem Dev.WroteReg.wroteReg {s : State} {e d : Nat} {v : BitVec 64} {t : Dev} (h : Dev.WroteReg e d v s.dev t) :
    wroteReg s (s.did t) e d v := h

theorem Dev.WroteReg.setReady {s t : Dev} {e d : Nat} {v : BitVec 64} (h : Dev.WroteReg e d v s t) (n : Nat) :
    Dev.WroteReg e d v s (t.setReady e n) :=
  ⟨(t.reg_setReady e n d).trans h.1, fun i hi => (t.reg_setReady e n i).trans (h.2 i hi)⟩

/-- The stitch writes a register and is done. -/
theorem Dev.Poised.setReg {e : Nat} {s c : Dev} (h : Dev.Poised e s c) (d : Nat) (v : BitVec 64) (pc : Nat) :
    Dev.Moves e s ((c.setReg e d v).engGoto e pc) ∧ Dev.GoesOn e pc s ((c.setReg e d v).engGoto e pc) ∧
      Dev.WroteReg e d v s ((c.setReg e d v).engGoto e pc) := by
  refine ⟨(h.moves.trans (c.setReg_moves e d v)).trans (Dev.engGoto_moves _ e pc),
    Dev.goesOn_engGoto ((c.engLen_setReg e d v).trans h.len) pc, ?_, fun i hi => ?_⟩
  · rw [Dev.reg_engGoto, Dev.reg_setReg_same]
  · rw [Dev.reg_engGoto, Dev.reg_setReg_ne _ _ hi, h.reg]

/-- The same, the engine going on at the next stitch. -/
theorem Dev.Poised.setReg_engNext {e : Nat} {s c : Dev} (h : Dev.Poised e s c) (d : Nat) (v : BitVec 64) :
    Dev.Moves e s ((c.setReg e d v).engNext e) ∧ Dev.GoesOn e (s.engPc e + 1) s ((c.setReg e d v).engNext e) ∧
      Dev.WroteReg e d v s ((c.setReg e d v).engNext e) := by
  rw [Dev.engNext, Dev.engPc_setReg, h.pc]
  exact h.setReg d v _

/-! ## Waiting -/

theorem Dev.engWait_moves (s : Dev) (e st d timeout mask target : Nat) : Dev.Moves e s (s.engWait e st d timeout mask target) :=
  (s.setEngine_moves e _).trans (Dev.set_moves _ _ _ e)

theorem Dev.engine_engWait (s : Dev) (e st d timeout mask target : Nat) : (s.engWait e st d timeout mask target).engine e =
    { s.engine e with waitFrom := s.tnow, waitTimeout := timeout, waitMask := mask, waitReg := d, waitTarget := target } :=
  s.engine_setEngine_same e _

@[simp] theorem Dev.reg_engWait (s : Dev) (e st d timeout mask target i : Nat) :
    (s.engWait e st d timeout mask target).reg e i = s.reg e i :=
  Dev.reg_congr (by rw [Dev.engine_engWait]) i

theorem Dev.engState_engWait (s : Dev) (e d timeout mask target : Nat) {st : Nat} (h : st < 8) :
    (s.engWait e st d timeout mask target).engState e = st := (Dev.get_set_same _ _ _).trans (Nat.mod_eq_of_lt h)

theorem Dev.engPc_engWait (s : Dev) (e st d timeout mask target : Nat) : (s.engWait e st d timeout mask target).engPc e = s.engPc e :=
  Dev.get_set_of_lo _ (of_decide_eq_true rfl) (of_decide_eq_true rfl) (of_decide_eq_true rfl) _

/-! ## A stitch that its engine comes to -/

theorem Dev.at_of_le {s : Dev} {t : Nat} (h : t ≤ s.clock) : s.at t = s := by
  unfold Dev.at
  rw [Nat.max_eq_left h]

/-- The device once pattern memory's correction of a word, if there was one, is counted and told (R249). -/
def Dev.corrected (s : Dev) (e ecc : Nat) : Dev :=
  if ecc = 1 then (s.engCount (Reg.ENG.ECC_CE.COUNT e) (Reg.ENG.ECC_CE.SAT e) 1 e).raise (stiPlain 0x18D e) else s

theorem Dev.corrected_books (s : Dev) (e ecc : Nat) : Dev.Books s (s.corrected e ecc) := by
  unfold Dev.corrected
  split
  · exact (s.count_books _ _ 1 _).trans (Dev.raise_books _ _)
  · exact .refl s

/-- The correction touches no word but ECC_CE and ROW.LOST. -/
theorem Dev.get_corrected (s : Dev) {e : Nat} {f : Field} (h : f.addr ≠ 0x601058 + 0x100 * e) (row : f.addr ≠ 0x8c0024) (hf : f.lo < 32)
    (ecc : Nat) : (s.corrected e ecc).get f = s.get f := by
  unfold Dev.corrected
  split
  · exact (Dev.get_raise_of_addr _ row hf _).trans (s.get_count_of_addr h h row hf (of_decide_eq_true rfl) (of_decide_eq_true rfl) 1 _)
  · rfl

theorem Dev.engPc_corrected (s : Dev) (e ecc : Nat) : (s.corrected e ecc).engPc e = s.engPc e :=
  s.get_corrected (by show 0x601004 + 0x100 * e ≠ _; omega) (by show 0x601004 + 0x100 * e ≠ _; omega) (of_decide_eq_true rfl) ecc

theorem Dev.engLen_corrected (s : Dev) (e ecc : Nat) : (s.corrected e ecc).engLen e = s.engLen e :=
  s.get_corrected (by show 0x601004 + 0x100 * e ≠ _; omega) (by show 0x601004 + 0x100 * e ≠ _; omega) (of_decide_eq_true rfl) ecc

@[simp] theorem Dev.reg_corrected (s : Dev) (e ecc i : Nat) : (s.corrected e ecc).reg e i = s.reg e i := (s.corrected_books e ecc).reg e i

@[simp] theorem Dev.tnow_corrected (s : Dev) (e ecc : Nat) : (s.corrected e ecc).tnow = s.tnow := by
  obtain ⟨_, _, _, _, eq⟩ := s.corrected_books e ecc
  rw [eq]
  rfl

@[simp] theorem Dev.brOther_corrected (s : Dev) (e ecc : Nat) (w : BitVec 64) : (s.corrected e ecc).brOther e w = s.brOther e w := by
  unfold Dev.brOther
  rw [Dev.reg_corrected]

/-- A RUNNING engine at a stitch of the opcode carries it out once it is free. -/
theorem Dev.stitch_of_comesTo {s : State} {e op : Nat} {w : BitVec 64} (h : comesTo s e op w) (ecc : Nat) (f : Dev → BitVec 64 → Dev) :
    s.dev.stitch e op ecc f =
      if ecc = 2 then (s.dev.at (s.dev.engine e).ready).engStop e 3
      else (f ((s.dev.at (s.dev.engine e).ready).corrected e ecc) w).setReady e
        (((s.dev.at (s.dev.engine e).ready).corrected e ecc).clock +
          ((s.dev.at (s.dev.engine e).ready).corrected e ecc).stitchCycles e w) := by
  obtain ⟨he, running, inside, rfl, rfl⟩ := h
  have valid : ¬ (15 < e ∨ s.dev.engState e ≠ 2 ∨ s.dev.engLen e ≤ s.dev.engPc e) := by omega
  unfold Dev.stitch
  rw [if_neg valid]
  exact if_neg (not_not_intro rfl)

/-- What a stitch leaves: its effect `f` after the correction of its word, and the engine occupied until some clock. -/
theorem Dev.stitch_of_atStitch {s : State} {e op ecc : Nat} {w : BitVec 64} (h : atStitch s e op w) (good : ecc ≠ 2) :
    ∃ n, ∀ f, s.dev.stitch e op ecc f = (f (s.dev.corrected e ecc) w).setReady e n := by
  refine ⟨(s.dev.corrected e ecc).clock + (s.dev.corrected e ecc).stitchCycles e w, fun f => ?_⟩
  rw [Dev.stitch_of_comesTo h.1, if_neg good, Dev.at_of_le h.2]

/-- What a stitch moves is what its effect moves. -/
theorem movedOnly_of_effect {s : State} {e ecc n : Nat} {d : Dev} (hq : quiet s) (h : Dev.Moves e (s.dev.corrected e ecc) d) :
    movedOnly s (s.did (d.setReady e n)) e :=
  ((((s.dev.corrected_books e ecc).moves e).trans h).trans (d.setReady_moves e n)).movedOnly hq

theorem Dev.corrected_poised (s : Dev) (e ecc : Nat) : Dev.Poised e s (s.corrected e ecc) :=
  ⟨(s.corrected_books e ecc).moves e, s.engLen_corrected e ecc, s.engPc_corrected e ecc, s.reg_corrected e ecc⟩

/-- What a stitch that writes a register and goes on leaves (R247). -/
theorem writes_and_goesOn {s : State} {e ecc : Nat} (hq : quiet s) (d : Nat) (v : BitVec 64) (n : Nat) :
    movedOnly s (s.did ((((s.dev.corrected e ecc).setReg e d v).engNext e).setReady e n)) e ∧
      goesOn s (s.did ((((s.dev.corrected e ecc).setReg e d v).engNext e).setReady e n)) e (s.dev.engPc e + 1) ∧
      wroteReg s (s.did ((((s.dev.corrected e ecc).setReg e d v).engNext e).setReady e n)) e d v := by
  obtain ⟨moves, goes, wrote⟩ := (s.dev.corrected_poised e ecc).setReg_engNext d v
  exact ⟨(moves.trans (Dev.setReady_moves _ e n)).movedOnly hq, (goes.setReady n).goesOn, (wrote.setReady n).wroteReg⟩

end Sys2Proof.Machine
end

section
/-! SUPPORT. The stitches that write a register, steer their engine or wait (R247, R256–R258), and what ends a wait. -/

namespace Sys2Proof.Machine

/-! ## What a finished effect shows -/

theorem Dev.GoesOn.of_engNext {s c : Dev} {e : Nat} (h : Dev.Poised e s c) (n : Nat) :
    Dev.GoesOn e (s.engPc e + 1) s ((c.engNext e).setReady e n) := h.engNext.2.1.setReady n

theorem keptRegs_did {s : State} {e : Nat} {d : Dev} (h : ∀ i, d.reg e i = s.dev.reg e i) (n : Nat) :
    keptRegs s (s.did (d.setReady e n)) e := fun i => (d.reg_setReady e n i).trans (h i)

/-- A write to one of the engine's words apart from STS leaves it poised. -/
theorem Dev.Poised.set {e : Nat} {s c : Dev} (h : Dev.Poised e s c) {f : Field} (addr : f.addr ≠ 0x601004 + 0x100 * e) (hf : f.lo < 32)
    (v : Nat) : Dev.Poised e s (c.set f v) :=
  ⟨h.moves.trans (c.set_moves f v e),
    (c.get_set_of_addr (Ne.symm addr) (of_decide_eq_true rfl) hf v).trans h.len,
    (c.get_set_of_addr (Ne.symm addr) (of_decide_eq_true rfl) hf v).trans h.pc, h.reg⟩

/-- So does an event. -/
theorem Dev.Poised.raise {e : Nat} {s c : Dev} (h : Dev.Poised e s c) (v : Ev) : Dev.Poised e s (c.raise v) := by
  have addr : 0x601004 + 0x100 * e ≠ 0x8c0024 := by omega
  exact ⟨h.moves.trans ((c.raise_books v).moves e), (c.get_raise_of_addr addr (of_decide_eq_true rfl) v).trans h.len,
    (c.get_raise_of_addr addr (of_decide_eq_true rfl) v).trans h.pc, fun i => ((c.raise_books v).reg e i).trans (h.reg i)⟩

/-- The stitch is done: a field outside STS reads what the stitch left in it. -/
theorem Dev.Poised.finish {s : State} {e : Nat} {c : Dev} (h : Dev.Poised e s.dev c) (hq : quiet s) {f : Field}
    (addr : f.addr ≠ 0x601004 + 0x100 * e) (row : f.addr ≠ 0x8c0024) (hf : f.lo < 32) {v : Nat} (value : c.get f = v) (n : Nat) :
    movedOnly s (s.did ((c.engNext e).setReady e n)) e ∧ goesOn s (s.did ((c.engNext e).setReady e n)) e (s.dev.engPc e + 1) ∧
      keptRegs s (s.did ((c.engNext e).setReady e n)) e ∧ (s.did ((c.engNext e).setReady e n)).dev.get f = v := by
  obtain ⟨moves, goes, regs⟩ := h.engNext
  refine ⟨(moves.trans (Dev.setReady_moves _ e n)).movedOnly hq, (goes.setReady n).goesOn, keptRegs_did regs n, ?_⟩
  rw [State.did_get, Dev.get_setReady]
  exact (c.get_engGoto addr row hf _).trans value

/-! ## Doorbell values and watches -/

theorem Dev.takeDoorbell_of_cons {s : Dev} {e v : Nat} {rest : List Nat} (h : (s.engine e).fifo = v :: rest) (d : Nat) :
    s.takeDoorbell e d = some (((s.setEngine e { s.engine e with fifo := rest }).setReg e d (BitVec.ofNat 64 v)).engNext e) := by
  unfold Dev.takeDoorbell
  simp only [h]

theorem Dev.takeDoorbell_of_nil {s : Dev} {e : Nat} (h : (s.engine e).fifo = []) (d : Nat) : s.takeDoorbell e d = none := by
  unfold Dev.takeDoorbell
  simp only [h]

/-- Watch `k` of the engine has fired. -/
def Dev.watchFired (s : Dev) (e k : Nat) : Bool :=
  match (s.engine e).watches.get? k with
  | some w => w.fired
  | none => false

theorem Dev.watchFired_eq_true {s : Dev} {e k : Nat} {w : Watch} (h : (s.engine e).watches.get? k = some w) (fired : w.fired = true) :
    s.watchFired e k = true := by
  unfold Dev.watchFired
  simp only [h, fired]

theorem Dev.watchFired_eq_false {s : Dev} {e k : Nat} (h : ∀ w, (s.engine e).watches.get? k = some w → w.fired = false) :
    s.watchFired e k = false := by
  unfold Dev.watchFired
  split
  · next w entry => exact h w entry
  · rfl

/-- The lowest fired watch of a mask (R257). -/
def Dev.lowestFired (s : Dev) (e mask : Nat) : Option Nat := (List.range 8).find? fun k => mask.testBit k && s.watchFired e k

theorem Dev.takeWatch_eq (s : Dev) (e d mask : Nat) : s.takeWatch e d mask = (s.lowestFired e mask).map fun k =>
    ((s.setEngine e { s.engine e with watches := (s.engine e).watches.upd k fun w => { w with fired := false } }).setReg e d
      (BitVec.ofNat 64 k)).engNext e := by
  show (match s.lowestFired e mask with
    | none => none
    | some k => some (((s.setEngine e { s.engine e with watches := (s.engine e).watches.upd k fun w => { w with fired := false } }).setReg e d
      (BitVec.ofNat 64 k)).engNext e)) = _
  cases s.lowestFired e mask <;> rfl

theorem find?_range_eq_some {n k : Nat} {p : Nat → Bool} (lt : k < n) (h : p k = true) (first : ∀ j, j < k → p j = false) :
    (List.range n).find? p = some k := by
  rw [List.find?_range_eq_some]
  exact ⟨h, List.mem_range.mpr lt, fun j hj => by simp [first j hj]⟩

theorem Dev.lowestFired_eq_some {s : Dev} {e mask k : Nat} (lt : k < 8) (h : (mask.testBit k && s.watchFired e k) = true)
    (first : ∀ j, j < k → (mask.testBit j && s.watchFired e j) = false) : s.lowestFired e mask = some k :=
  find?_range_eq_some lt h first

theorem Dev.lowestFired_eq_none {s : Dev} {e mask : Nat}
    (h : ∀ j, j < 8 → mask.testBit j = true → ∀ w, (s.engine e).watches.get? j = some w → w.fired = false) :
    s.lowestFired e mask = none := by
  refine List.find?_eq_none.mpr fun j hj => ?_
  rw [Bool.and_eq_true, not_and, Bool.not_eq_true]
  exact fun bit => Dev.watchFired_eq_false (h j (List.mem_range.mp hj) bit)

theorem Dev.lowestFired_congr {s t : Dev} {e : Nat} (h : t.engine e = s.engine e) (mask : Nat) :
    t.lowestFired e mask = s.lowestFired e mask := by
  unfold Dev.lowestFired Dev.watchFired
  rw [h]

/-- An engine that waits: its wait is noted, its stitch and registers stand (R256–R258). -/
theorem Dev.Poised.engWait {e : Nat} {s c : Dev} (h : Dev.Poised e s c) (d timeout mask target n : Nat) {st : Nat} (lt : st < 8) :
    Dev.Moves e s ((c.engWait e st d timeout mask target).setReady e n) ∧
      (∀ i, ((c.engWait e st d timeout mask target).setReady e n).reg e i = s.reg e i) ∧
      ((c.engWait e st d timeout mask target).setReady e n).engState e = st ∧
      ((c.engWait e st d timeout mask target).setReady e n).engPc e = s.engPc e ∧
      (((c.engWait e st d timeout mask target).setReady e n).engine e).waitTarget = target := by
  refine ⟨(h.moves.trans (c.engWait_moves e st d timeout mask target)).trans (Dev.setReady_moves _ e n), fun i => ?_,
    c.engState_engWait e d timeout mask target lt, (c.engPc_engWait e st d timeout mask target).trans h.pc, ?_⟩
  · rw [Dev.reg_setReady, Dev.reg_engWait, h.reg]
  · rw [Dev.engine_setReady, Dev.engine_engWait]

/-! ## A stitch as a command -/

/-- The command of every stitch is a stitch of its opcode with some effect. -/
theorem exec_of_mem_stitchesOf {e ecc : Nat} {c : Nat × Instr} (h : c ∈ stitchesOf e ecc) :
    ∃ f : Dev → BitVec 64 → Dev, ∀ s : State, exec c.2 s = .next (s.did (s.dev.stitch e c.1 ecc f)) := by
  simp only [stitchesOf, List.mem_cons, List.not_mem_nil, or_false] at h
  rcases h with rfl | rfl | rfl | rfl | rfl | rfl | rfl | rfl | rfl | rfl | rfl | rfl | rfl | rfl | rfl | rfl | rfl <;>
    exact ⟨_, fun _ => rfl⟩

/-- To show what a stitch's command leaves: what its effect leaves on the device with the word's correction noted, whatever the clock
until which the engine is then occupied. -/
theorem exists_of_atStitch {s : State} {e op ecc : Nat} {w : BitVec 64} {c : Instr} {f : Dev → BitVec 64 → Dev} {P : State → Prop}
    (h : atStitch s e op w) (good : ecc ≠ 2) (run : exec c s = .next (s.did (s.dev.stitch e op ecc f)))
    (post : ∀ n, P (s.did ((f (s.dev.corrected e ecc) w).setReady e n))) : ∃ t, exec c s = .next t ∧ P t := by
  obtain ⟨n, runs⟩ := Dev.stitch_of_atStitch h good
  exact ⟨_, run.trans (by rw [runs f]), post n⟩

/-! ## An engine that its last stitch still occupies -/

/-- A stitch issues at the clock at which its engine is free, and acts as at that clock (R247). -/
theorem stitch_waits {s : State} {e op : Nat} {w : BitVec 64} (h : comesTo s e op w) (busy : s.dev.clock < (s.dev.engine e).ready)
    (ecc : Nat) (f : Dev → BitVec 64 → Dev) :
    s.dev.stitch e op ecc f = Dev.stitch { s.dev with clock := (s.dev.engine e).ready } e op ecc f := by
  have later : s.dev.at (s.dev.engine e).ready = ({ s.dev with clock := (s.dev.engine e).ready } : Dev).at (s.dev.engine e).ready := by
    unfold Dev.at
    rw [Nat.max_eq_right (Nat.le_of_lt busy), Nat.max_self]
  have after := Dev.stitch_of_comesTo (s := withDev s { s.dev with clock := (s.dev.engine e).ready }) h ecc f
  rw [Dev.stitch_of_comesTo h, later]
  exact after.symm

end Sys2Proof.Machine

namespace Sys2Proof
open Machine

/-- Settles O21: each of the four writes its register and goes on. -/
theorem stitchWritesItsRegister : Obligations.StitchWritesItsRegister := by
  unfold Obligations.StitchWritesItsRegister
  intro s e ecc w hq good
  refine ⟨fun h => ?seti, fun h => ?addi, fun h => ?alu, fun h => ?rdt⟩
  case seti => exact exists_of_atStitch h good rfl (writes_and_goesOn hq _ _)
  case addi =>
    rw [← s.dev.reg_corrected e ecc]
    exact exists_of_atStitch h good rfl (writes_and_goesOn hq _ _)
  case alu =>
    rw [← s.dev.reg_corrected e ecc, ← s.dev.reg_corrected e ecc]
    exact exists_of_atStitch h good rfl (writes_and_goesOn hq _ _)
  case rdt =>
    rw [← s.dev.tnow_corrected e ecc]
    exact exists_of_atStitch h good rfl (writes_and_goesOn hq _ _)

/-- Settles O22: NOP, BR and LOOP go on at a stitch, HALT stops, and an engine still occupied comes to its stitch later. -/
theorem stitchSteersItsEngine : Obligations.StitchSteersItsEngine := by
  unfold Obligations.StitchSteersItsEngine
  intro s e ecc w hq good
  have poised := s.dev.corrected_poised e ecc
  refine ⟨fun h => ?nop, fun h => ?halt, fun h => ?br, fun h => ?loop, fun op h busy => ?occupied⟩
  case nop =>
    refine exists_of_atStitch h good rfl fun n => ?_
    obtain ⟨moves, goes, regs⟩ := poised.engNext
    exact ⟨(moves.trans (Dev.setReady_moves _ e n)).movedOnly hq, (goes.setReady n).goesOn, keptRegs_did regs n⟩
  case halt =>
    refine exists_of_atStitch h good rfl fun n => ⟨?_, keptRegs_did (fun i => ?_) n, ?_, ?_, ?_, ?_⟩
    · exact movedOnly_of_effect hq ((Dev.set_moves _ _ _ e).trans (Dev.engStop_moves _ e 1))
    · rw [Dev.reg_engStop, Dev.reg_set, Dev.reg_corrected]
    · rw [State.did_engState, Dev.engState_setReady, Dev.engState_engStop]
      rfl
    · rw [State.did_get, Dev.get_setReady, Dev.stopReason_engStop _ e (by decide)]
    · rw [State.did_engine, Dev.engine_setReady, Dev.engine_engStop]
      rfl
    · rw [State.did_engine, Dev.engine_setReady, Dev.engine_engStop]
      rfl
  case br =>
    refine exists_of_atStitch h good rfl fun n => ?_
    have taken : brTaken (fieldOf w 57 55) ((s.dev.corrected e ecc).reg e (stS w)) ((s.dev.corrected e ecc).brOther e w) =
        brTaken (fieldOf w 57 55) (s.dev.reg e (stS w)) (s.dev.brOther e w) := by rw [Dev.reg_corrected, Dev.brOther_corrected]
    rw [taken]
    change _ ∧ _ ∧ goesOn _ _ _ (if brTaken (fieldOf w 57 55) (s.dev.reg e (stS w)) (s.dev.brOther e w) = true then _ else _)
    split
    · exact ⟨movedOnly_of_effect hq (Dev.engGoto_moves _ e _), keptRegs_did (fun i => by rw [Dev.reg_engGoto, Dev.reg_corrected]) n,
        ((Dev.goesOn_engGoto poised.len _).setReady n).goesOn⟩
    · obtain ⟨moves, goes, regs⟩ := poised.engNext
      exact ⟨(moves.trans (Dev.setReady_moves _ e n)).movedOnly hq, keptRegs_did regs n, (goes.setReady n).goesOn⟩
  case loop =>
    refine exists_of_atStitch h good rfl fun n => ?_
    have last : (s.dev.reg e (stS w) - 1 = 0) = (s.dev.reg e (stS w) = 1) :=
      propext ⟨fun h => by bv_omega, fun h => by rw [h]; rfl⟩
    dsimp only
    rw [Dev.reg_corrected]
    simp only [last]
    split
    · obtain ⟨moves, goes, wrote⟩ := poised.setReg_engNext (stS w) (s.dev.reg e (stS w) - 1)
      exact ⟨(moves.trans (Dev.setReady_moves _ e n)).movedOnly hq, (wrote.setReady n).wroteReg, (goes.setReady n).goesOn⟩
    · obtain ⟨moves, goes, wrote⟩ := poised.setReg (stS w) (s.dev.reg e (stS w) - 1) (fieldOf w 9 0)
      exact ⟨(moves.trans (Dev.setReady_moves _ e n)).movedOnly hq, (wrote.setReady n).wroteReg, (goes.setReady n).goesOn⟩
  case occupied =>
    rintro c hc rfl
    obtain ⟨f, run⟩ := exec_of_mem_stitchesOf hc
    refine ⟨?_, h, Nat.le_refl _⟩
    rw [run, run, stitch_waits h busy]
    rfl

/-- Settles O23: TAG, DLINE and NOTE write a word of their own, which going on leaves alone. -/
theorem stitchWritesTagDeadlineNote : Obligations.StitchWritesTagDeadlineNote := by
  unfold Obligations.StitchWritesTagDeadlineNote
  intro s e ecc w hq good
  have poised := s.dev.corrected_poised e ecc
  have lo : (0 : Nat) < 32 := by decide
  refine ⟨fun h => ?tag, fun h => ?dline, fun h => ?note⟩
  case tag =>
    refine exists_of_atStitch h good rfl fun n => ?_
    have addr : 0x60100c + 0x100 * e ≠ 0x601004 + 0x100 * e := by omega
    have row : 0x60100c + 0x100 * e ≠ 0x8c0024 := by omega
    rw [Dev.reg_corrected]
    exact (poised.set (f := Reg.ENG.LTAG.LT e) addr lo _).finish hq addr row lo
      ((Dev.get_set_same _ _ _).trans (Nat.mod_mod _ _)) n
  case dline =>
    refine exists_of_atStitch h good rfl fun n => ?_
    have addr : 0x601010 + 0x100 * e ≠ 0x601004 + 0x100 * e := by omega
    have row : 0x601010 + 0x100 * e ≠ 0x8c0024 := by omega
    have old : (s.dev.corrected e ecc).get (Reg.ENG.DL.DL e) = s.dev.get (Reg.ENG.DL.DL e) :=
      s.dev.get_corrected (f := Reg.ENG.DL.DL e) (by show 0x601010 + 0x100 * e ≠ 0x601058 + 0x100 * e; omega) row lo ecc
    rw [Dev.reg_corrected, Dev.tnow_corrected, old]
    exact (poised.set (f := Reg.ENG.DL.DL e) addr lo _).finish hq addr row lo
      ((Dev.get_set_same _ _ _).trans (Nat.mod_mod _ _)) n
  case note =>
    refine exists_of_atStitch h good rfl fun n => ?_
    have addr : 0x601024 + 0x100 * e ≠ 0x601004 + 0x100 * e := by omega
    have isEngine : e < 16 := h.1.1
    have row : 0x601024 + 0x100 * e ≠ 0x8c0024 := by omega
    have written := poised.set (f := Reg.ENG.NOTE.VALUE e) addr lo (fieldOf w 31 0)
    have value : ((s.dev.corrected e ecc).set (Reg.ENG.NOTE.VALUE e) (fieldOf w 31 0)).get (Reg.ENG.NOTE.VALUE e) = fieldOf w 31 0 :=
      (Dev.get_set_same _ _ _).trans (Nat.mod_mod _ _)
    dsimp only
    split
    · exact (written.raise _).finish hq addr row lo ((Dev.get_raise_of_addr _ row lo _).trans value) n
    · exact written.finish hq addr row lo value n

/-- Settles O24: each wait finds what it waits for and goes on, or enters its state. -/
theorem stitchWaits : Obligations.StitchWaits := by
  unfold Obligations.StitchWaits
  intro s e ecc w hq good
  have poised := s.dev.corrected_poised e ecc
  have engine : (s.dev.corrected e ecc).engine e = s.dev.engine e := (s.dev.corrected_books e ecc).engine e
  refine ⟨fun h => ⟨fun v rest fifo => ?value, fun fifo => ?noValue⟩, fun h => ⟨fun k v lt bit watch fired first => ?watch, fun none => ?noWatch⟩,
    fun h => ⟨fun past => ?time, fun future => ?noTime⟩⟩
  case value =>
    refine exists_of_atStitch h good rfl fun n => ?_
    have poised := poised.setEngine (x := { (s.dev.corrected e ecc).engine e with fifo := rest }) rfl
    obtain ⟨moves, goes, wrote⟩ := poised.setReg_engNext (stD w) (BitVec.ofNat 64 v)
    rw [Dev.takeDoorbell_of_cons (by rw [engine, fifo])]
    refine ⟨(moves.trans (Dev.setReady_moves _ e n)).movedOnly hq, (goes.setReady n).goesOn, (wrote.setReady n).wroteReg, fun inside => ?_⟩
    have inside : (((s.dev.corrected e ecc).setEngine e { (s.dev.corrected e ecc).engine e with fifo := rest }).setReg e (stD w)
        (BitVec.ofNat 64 v)).engPc e + 1 < (((s.dev.corrected e ecc).setEngine e
          { (s.dev.corrected e ecc).engine e with fifo := rest }).setReg e (stD w) (BitVec.ofNat 64 v)).engLen e := by
      rw [Dev.engPc_setReg, Dev.engLen_setReg, poised.pc, poised.len]
      exact inside
    rw [State.did_engine, Dev.engine_setReady]
    dsimp only
    rw [Dev.engNext, Dev.engine_engGoto_of_lt inside, Dev.setReg, Dev.engine_setEngine_same, Dev.engine_setEngine_same]
  case noValue =>
    refine exists_of_atStitch h good rfl fun n => ?_
    rw [Dev.takeDoorbell_of_nil (by rw [engine, fifo])]
    obtain ⟨moves, regs, state, pc, -⟩ := poised.engWait (stD w) (fieldOf w 31 0) 0 0 n (st := 3) (by decide)
    exact ⟨moves.movedOnly hq, regs, state, pc⟩
  case watch =>
    refine exists_of_atStitch h good rfl fun n => ?_
    have lowest : (s.dev.corrected e ecc).lowestFired e (fieldOf w 47 40) = some k := by
      rw [Dev.lowestFired_congr engine]
      refine Dev.lowestFired_eq_some lt (by rw [bit, Dev.watchFired_eq_true watch fired]; rfl) fun j hj => ?_
      rw [Bool.and_eq_false_iff, Decidable.or_iff_not_imp_left, Bool.not_eq_false]
      exact fun bit => Dev.watchFired_eq_false (first j hj bit)
    rw [Dev.takeWatch_eq, lowest]
    obtain ⟨moves, goes, wrote⟩ := (poised.setEngine (x := { (s.dev.corrected e ecc).engine e with
      watches := ((s.dev.corrected e ecc).engine e).watches.upd k fun w => { w with fired := false } }) rfl).setReg_engNext
        (stD w) (BitVec.ofNat 64 k)
    exact ⟨(moves.trans (Dev.setReady_moves _ e n)).movedOnly hq, (goes.setReady n).goesOn, (wrote.setReady n).wroteReg⟩
  case noWatch =>
    refine exists_of_atStitch h good rfl fun n => ?_
    rw [Dev.takeWatch_eq, Dev.lowestFired_congr engine, Dev.lowestFired_eq_none none]
    obtain ⟨moves, regs, state, pc, -⟩ := poised.engWait (stD w) (fieldOf w 31 0) (fieldOf w 47 40) 0 n (st := 4) (by decide)
    exact ⟨moves.movedOnly hq, regs, state, pc⟩
  case time =>
    refine exists_of_atStitch h good rfl fun n => ?_
    rw [Dev.reg_corrected, Dev.tnow_corrected, if_pos past]
    obtain ⟨moves, goes, regs⟩ := poised.engNext
    exact ⟨(moves.trans (Dev.setReady_moves _ e n)).movedOnly hq, keptRegs_did regs n, (goes.setReady n).goesOn⟩
  case noTime =>
    refine exists_of_atStitch h good rfl fun n => ?_
    rw [Dev.reg_corrected, Dev.tnow_corrected, if_neg (Bool.eq_false_iff.mp future)]
    obtain ⟨moves, regs, state, pc, target⟩ := poised.engWait 0 0 0 ((s.dev.reg e (stS w)).toNat % 2 ^ 32) n (st := 5) (by decide)
    exact ⟨moves.movedOnly hq, regs, state, pc, target⟩

/-- Settles O25: the word's check comes before the stitch's effect (R249). -/
theorem uncorrectableWordFaults : Obligations.UncorrectableWordFaults := by
  unfold Obligations.UncorrectableWordFaults
  rintro s e op w hq ⟨comes, free⟩ c hc rfl
  obtain ⟨f, run⟩ := exec_of_mem_stitchesOf hc
  refine ⟨s.did (s.dev.engStop e 3), ?_, (s.dev.engStop_moves e 3).movedOnly hq, s.dev.reg_engStop e 3, s.dev.engState_engStop e 3,
    s.dev.stopReason_engStop e (by decide), ?_, ?_⟩
  · rw [run, Dev.stitch_of_comesTo comes, if_pos rfl, Dev.at_of_le free]
  · rw [State.did_engine, Dev.engine_engStop]
    rfl
  · rw [State.did_engine, Dev.engine_engStop]
    rfl

end Sys2Proof
end

section
/-! SUPPORT. What ends an engine's wait (R256–R258), and the ring commands that load, start and stop a pattern (R243, R244, R246). -/

namespace Sys2Proof.Machine

/-! ## The clock moves on -/

theorem Dev.at_clock_self (s : Dev) : s.at s.clock = s := Dev.at_of_le (Nat.le_refl _)

/-- An engine's move, then the clock's. -/
theorem Dev.Moves.at {e : Nat} {s d : Dev} (h : Dev.Moves e s d) (t : Nat) : Dev.Moves e (s.at t) (d.at t) := by
  obtain ⟨⟨regs, engines, row, fco, psq, rfl⟩, others⟩ := h
  exact ⟨⟨regs, engines, row, fco, psq, rfl⟩, others⟩

theorem Dev.Moves.clock {e : Nat} {s d : Dev} (h : Dev.Moves e s d) : d.clock = s.clock := by
  obtain ⟨⟨_, _, _, _, _, rfl⟩, -⟩ := h
  rfl

theorem Dev.WroteReg.at {s d : Dev} {e i : Nat} {v : BitVec 64} (h : Dev.WroteReg e i v s d) (t : Nat) :
    Dev.WroteReg e i v s (d.at t) := h

/-! ## Doorbell values -/

theorem Dev.engOn_of_state {s : Dev} {e st : Nat} (h : s.engState e = st) (lo : 2 ≤ st) (hi : st ≤ 5) : s.engOn e = true := by
  simp [Dev.engOn, h, lo, hi]

/-- The management function's doorbell reaches any engine that runs or waits (R256). -/
theorem Dev.doorbell_mgmt {s : Dev} {e : Nat} (on : s.engOn e = true) (v : Nat) : s.doorbell e v 64 =
    if 16 ≤ (s.engine e).fifo.length then (s.setBit (Reg.ENG.DB_STS.OVF e) true).raise (stiPlain 0x186 e)
    else if s.engState e = 3 then
      (((s.setEngine e { s.engine e with fifo := (s.engine e).fifo ++ [v % 65536] }).takeDoorbell e (s.engine e).waitReg).getD
        (s.setEngine e { s.engine e with fifo := (s.engine e).fifo ++ [v % 65536] })).setReady e (s.clock + 4)
    else s.setEngine e { s.engine e with fifo := (s.engine e).fifo ++ [v % 65536] } := by
  unfold Dev.doorbell
  simp only [Nat.lt_irrefl, decide_false, Bool.not_false, Bool.true_or, Bool.not_true, Bool.false_eq_true, if_false, on]
  rfl

theorem exec_stitcherDoorbell_mgmt {s : State} {e : Nat} (h : e < 16) (v : Nat) {d : Dev}
    (hd : s.dev.doorbell e v 64 = d) : exec (.stitcherDoorbell e v 64) s = .next (s.did d) :=
  congrArg _ (congrArg _ ((if_pos ⟨h, Nat.le_refl _⟩).trans hd))

/-! ## The watch that ends a wait -/

theorem findSome?_range_eq_some {α : Type} {n k : Nat} {f : Nat → Option α} {v : α} (lt : k < n) (h : f k = some v)
    (first : ∀ j, j < k → f j = none) : (List.range n).findSome? f = some v := by
  induction n with
  | zero => omega
  | succ n ih =>
    rw [List.range_succ, List.findSome?_append]
    by_cases last : k = n
    · subst last
      have none : (List.range k).findSome? f = none := List.findSome?_eq_none_iff.mpr fun j hj => first j (List.mem_range.mp hj)
      simp [none, h]
    · rw [ih (by omega)]
      rfl

/-- With one watch in the mask, fired, it is the one that the wait takes, at its time (R257). -/
theorem Dev.firedAt_of_single {s : Dev} {e k : Nat} {w : Watch} (lt : k < 8) (h : (s.engine e).watches.get? k = some w)
    (fired : w.fired = true) : s.firedAt e (2 ^ k) = w.at_ := by
  unfold Dev.firedAt
  rw [findSome?_range_eq_some (v := w.at_) lt]
  · simp only [Nat.testBit_two_pow_self, h, fired, if_true]
  · intro j hj
    rw [Nat.testBit_two_pow, if_neg]
    simp
    omega

theorem Dev.lowestFired_of_single {s : Dev} {e k : Nat} {w : Watch} (lt : k < 8) (h : (s.engine e).watches.get? k = some w)
    (fired : w.fired = true) : s.lowestFired e (2 ^ k) = some k := by
  refine Dev.lowestFired_eq_some lt ?_ fun j hj => ?_
  · rw [Nat.testBit_two_pow_self, Dev.watchFired_eq_true h fired]
    rfl
  · rw [Nat.testBit_two_pow, Bool.and_eq_false_iff]
    exact .inl (decide_eq_false (by omega))

/-- The wait for TNOW ends when it has come, the clock moving on to it where it has not (R258). -/
theorem exec_stitcherWake_of_time {s : State} {e : Nat} (he : e < 16) (state : s.dev.engState e = 5) :
    ∃ t n, exec (.stitcherWake e) s = .next (s.did (((s.dev.at t).engNext e).setReady e n)) := by
  have valid : ¬ 15 < e := by omega
  have other : ¬ s.dev.engState e = 4 := by omega
  show ∃ t n, execStitcherWake e s = _
  unfold execStitcherWake State.on
  simp only [if_neg valid, if_neg other, if_pos state]
  split
  · exact ⟨s.dev.clock, _, by rw [Dev.at_clock_self]⟩
  · exact ⟨_, _, rfl⟩

/-- The wait for a watch ends 6 FCLK after the admission that fired it (R257). -/
theorem exec_stitcherWake_of_watch {s : State} {e : Nat} (he : e < 16) (state : s.dev.engState e = 4) {d : Dev}
    (taken : s.dev.takeWatch e (s.dev.engine e).waitReg (s.dev.engine e).waitMask = some d) :
    ∃ n, exec (.stitcherWake e) s = .next (s.did ((d.at (s.dev.firedAt e (s.dev.engine e).waitMask + 6)).setReady e n)) := by
  have valid : ¬ 15 < e := by omega
  show ∃ n, execStitcherWake e s = _
  unfold execStitcherWake State.on
  simp only [if_neg valid, if_pos state, taken]
  exact ⟨_, rfl⟩

/-! ## The time-out of a wait -/

/-- A time-out of WAIT_DB, or of WAIT_WATCH with no watch fired, writes its value and the engine goes on, once the clock has reached
it (R256, R257). -/
theorem exec_stitcherWaitTimeout_of_due {s : State} {e : Nat} (he : e < 16) (timeout : (s.dev.engine e).waitTimeout ≠ 0)
    (waits : s.dev.engState e = 3 ∨ s.dev.engState e = 4)
    (none : s.dev.engState e = 4 → s.dev.lowestFired e (s.dev.engine e).waitMask = none) :
    ∃ t n, exec (.stitcherWaitTimeout e) s = .next (s.did ((((s.dev.at t).setReg e (s.dev.engine e).waitReg
      (if s.dev.engState e = 3 then 0x10000 else 8)).engNext e).setReady e n)) := by
  have valid : ¬ 15 < e := by omega
  have due : ¬ ((s.dev.engine e).waitTimeout = 0 ∨ s.dev.engState e ≠ 3 ∧ s.dev.engState e ≠ 4 ∨
      s.dev.engState e = 4 ∧ (s.dev.takeWatch e (s.dev.engine e).waitReg (s.dev.engine e).waitMask).isSome = true) := by
    rintro (h | h | ⟨h, some⟩)
    · exact timeout h
    · omega
    · rw [Dev.takeWatch_eq, none h] at some
      exact Bool.false_ne_true some
  show ∃ t n, execStitcherWaitTimeout e s = _
  unfold execStitcherWaitTimeout State.on
  simp only [if_neg valid, if_neg due]
  split
  · exact ⟨s.dev.clock, _, by rw [Dev.at_clock_self]⟩
  · exact ⟨_, _, rfl⟩

/-- What a wait that ends by its time-out leaves. -/
theorem timed_out {s : State} {e : Nat} (hq : quiet s) (t n d : Nat) (v : BitVec 64) :
    movedLater s (s.did ((((s.dev.at t).setReg e d v).engNext e).setReady e n)) e ∧
      wroteReg s (s.did ((((s.dev.at t).setReg e d v).engNext e).setReady e n)) e d v ∧
      goesOn s (s.did ((((s.dev.at t).setReg e d v).engNext e).setReady e n)) e (s.dev.engPc e + 1) := by
  obtain ⟨moves, goes, wrote⟩ := (Dev.Poised.refl e (s.dev.at t)).setReg_engNext d v
  exact ⟨(moves.trans (Dev.setReady_moves _ e n)).movedLater hq, (wrote.setReady n).wroteReg (s := withDev s (s.dev.at t)),
    (goes.setReady n).goesOn (s := withDev s (s.dev.at t))⟩

/-! ## Tables filled from a list -/

theorem Tab.getD_foldl_putD {α : Type} [DecidableEq α] (t : Tab α) (a n : Nat) (v : Nat → α) (d : α) (j : Nat) :
    ((List.range n).foldl (fun p k => p.putD (a + k) (v k) d) t).getD j d =
      if a ≤ j ∧ j < a + n then v (j - a) else t.getD j d := by
  induction n with
  | zero => rw [if_neg (by omega)]; rfl
  | succ n ih =>
    rw [List.range_succ, List.foldl_append, List.foldl_cons, List.foldl_nil]
    by_cases last : j = a + n
    · subst last
      rw [Tab.getD_putD_same, if_pos (by omega), Nat.add_sub_cancel_left]
    · rw [Tab.getD_putD_ne _ last, ih]
      by_cases inside : a ≤ j ∧ j < a + n
      · rw [if_pos inside, if_pos (by omega)]
      · rw [if_neg inside, if_neg (by omega)]

/-! ## The pattern commands -/

theorem exec_ring {s : State} {c : Instr} {i : Issuer} {op kind named : Nat} {res : List Nat} {f : Dev → Dev}
    (run : exec c s = .next (s.did (s.dev.ringCmd i op kind named res f))) (may : s.dev.mayStart i op res = true) :
    exec c s = .next (s.did (f (s.dev.start i kind named res))) := by
  rw [run, Dev.ringCmd, if_pos may]

end Sys2Proof.Machine

namespace Sys2Proof
open Machine

/-- Settles O27: each wait's end finds its value and the engine goes on. -/
theorem waitsEnd : Obligations.WaitsEnd := by
  unfold Obligations.WaitsEnd
  intro s e hq he
  refine ⟨fun v state fifo => ?value, fun v state room => ?queued, fun v state full => ?lost, fun state => ?time,
    fun k w state watch fired lt mask => ?watch, fun timeout state => ?noValue, fun timeout state none => ?noWatch⟩
  case value =>
    have on := Dev.engOn_of_state state (by decide) (by decide)
    have first : ((s.dev.setEngine e { s.dev.engine e with fifo := [v % 65536] }).engine e).fifo = v % 65536 :: [] := by
      rw [Dev.engine_setEngine_same]
    obtain ⟨moves, goes, wrote⟩ := (((Dev.Poised.refl e s.dev).setEngine (x := { s.dev.engine e with fifo := [v % 65536] }) rfl).setEngine
      (x := { (s.dev.setEngine e { s.dev.engine e with fifo := [v % 65536] }).engine e with fifo := [] }) rfl).setReg_engNext
        (s.dev.engine e).waitReg (BitVec.ofNat 64 (v % 65536))
    refine ⟨_, exec_stitcherDoorbell_mgmt he v ?_, (moves.trans (Dev.setReady_moves _ e (s.dev.clock + 4))).movedOnly hq,
      (wrote.setReady _).wroteReg, (goes.setReady _).goesOn⟩
    rw [Dev.doorbell_mgmt on, fifo, if_neg (by decide), if_pos state, List.nil_append, Dev.takeDoorbell_of_cons first]
    rfl
  case queued =>
    have on := Dev.engOn_of_state state (by decide) (by decide)
    refine ⟨s.did (s.dev.setEngine e { s.dev.engine e with fifo := (s.dev.engine e).fifo ++ [v % 65536] }),
      exec_stitcherDoorbell_mgmt he v ?_, (s.dev.setEngine_moves e _).movedOnly hq,
      fun i => (s.did_reg _ e i).trans (Dev.reg_congr (by rw [Dev.engine_setEngine_same]) i), ?_, state⟩
    · rw [Dev.doorbell_mgmt on, if_neg (by omega), if_neg (by omega)]
    · rw [State.did_engine, Dev.engine_setEngine_same]
  case lost =>
    have on := Dev.engOn_of_state state (by decide) (by decide)
    have addr : 0x60101c + 0x100 * e ≠ 0x8c0024 := by omega
    have books := (s.dev.setBit_books (Reg.ENG.DB_STS.OVF e) true).trans (Dev.raise_books _ (stiPlain 0x186 e))
    refine ⟨_, exec_stitcherDoorbell_mgmt he v ((Dev.doorbell_mgmt on v).trans (if_pos full)), (books.moves e).movedOnly hq,
      books.engine e, ?_⟩
    exact (Dev.get_raise_of_addr _ addr (of_decide_eq_true rfl) _).trans (Dev.get_set_same _ _ _)
  case time =>
    obtain ⟨t, n, run⟩ := exec_stitcherWake_of_time he state
    obtain ⟨moves, goes, regs⟩ := (Dev.Poised.refl e (s.dev.at t)).engNext
    exact ⟨_, run, (moves.trans (Dev.setReady_moves _ e n)).movedLater hq, (goes.setReady n).goesOn (s := withDev s (s.dev.at t)),
      keptRegs_did regs n⟩
  case watch =>
    have taken := s.dev.takeWatch_eq e (s.dev.engine e).waitReg (s.dev.engine e).waitMask
    rw [mask, Dev.lowestFired_of_single lt watch fired] at taken
    obtain ⟨n, run⟩ := exec_stitcherWake_of_watch he state (mask.symm ▸ taken)
    rw [mask, Dev.firedAt_of_single lt watch fired] at run
    obtain ⟨moves, goes, wrote⟩ := ((Dev.Poised.refl e s.dev).setEngine (x := { s.dev.engine e with
      watches := (s.dev.engine e).watches.upd k fun w => { w with fired := false } }) rfl).setReg_engNext
        (s.dev.engine e).waitReg (BitVec.ofNat 64 k)
    have clock := moves.clock
    exact ⟨_, run, ((moves.at (w.at_ + 6)).trans (Dev.setReady_moves _ e n)).movedLater hq, by rw [State.did_clock]; exact congrArg (max · _) clock,
      (wrote.at _ |>.setReady n).wroteReg, ((goes.at _).setReady n).goesOn⟩
  case noValue =>
    obtain ⟨t, n, run⟩ := exec_stitcherWaitTimeout_of_due he timeout (.inl state) (by omega)
    rw [if_pos state] at run
    exact ⟨_, run, timed_out hq t n _ _⟩
  case noWatch =>
    obtain ⟨t, n, run⟩ := exec_stitcherWaitTimeout_of_due he timeout (.inr state)
      fun _ => Dev.lowestFired_eq_none fun k lt bit w watch => none k w lt bit watch
    rw [if_neg (by omega)] at run
    exact ⟨_, run, timed_out hq t n _ _⟩

end Sys2Proof
end

section
/-! SUPPORT. The ring commands that load, start and stop a pattern (R243–R246). -/

namespace Sys2Proof.Machine

/-- Equal effects give equal answers. -/
theorem State.next_did_congr (s : State) {d d' : Dev} (h : d = d') :
    (Host.Outcome.next (s.did d) : Answer) = Host.Outcome.next (s.did d') := by rw [h]

/-- A ring command that may start is carried out on the device with the command marked started. -/
theorem Dev.ringCmd_of_mayStart {s : Dev} {i : Issuer} {op : Nat} {res : List Nat} (may : s.mayStart i op res = true) (kind named : Nat)
    (f : Dev → Dev) : s.ringCmd i op kind named res f = f (s.start i kind named res) := if_pos may

@[simp] theorem Dev.get_start (s : Dev) (i : Issuer) (kind named : Nat) (res : List Nat) (f : Field) :
    (s.start i kind named res).get f = s.get f := rfl

@[simp] theorem Dev.engine_start (s : Dev) (i : Issuer) (kind named : Nat) (res : List Nat) (e : Nat) :
    (s.start i kind named res).engine e = s.engine e := rfl

@[simp] theorem Dev.engine_set (s : Dev) (f : Field) (v e : Nat) : (s.set f v).engine e = s.engine e := rfl

/-! ## PATTERN_LOAD -/

/-- The engine LOADED with a pattern for its new binding. -/
def Dev.loaded (s : Dev) (i : Issuer) (e len : Nat) (pattern : Tab (BitVec 64)) : Dev :=
  let s := s.setEngine e { s.engine e with pattern, bound := (s.bindOf i).2.2.2 }
  let s := ((s.set (Reg.ENG.BIND.TENANT e) (s.bindOf i).1).set (Reg.ENG.BIND.GLD e) (s.bindOf i).2.1).setBit (Reg.ENG.BIND.MGMT e)
    (s.bindOf i).2.2.1
  (s.set (Reg.ENG.STS.LEN e) len).set (Reg.ENG.STS.STATE e) 1

/-- What PATTERN_LOAD keeps of the pattern that stands (R243). -/
def Dev.patternKept (s : Dev) (i : Issuer) (e : Nat) : Tab (BitVec 64) :=
  if s.engState e != 0 && s.binding e == s.bindOf i then (s.engine e).pattern else .empty

theorem Dev.patternLoad_of_valid {s : Dev} {e count first ptr : Nat} (he : e < 16) (some_ : 0 < count) (fits : count ≤ 1024)
    (inside : first + count ≤ 1024) (aligned : ptr % 4 = 0) (off : s.engOn e = false) (i : Issuer) (words : List (BitVec 64)) :
    s.patternLoad i e first count (8 * count) ptr (some words) =
      (s.loaded i e (max (s.engLen e) (first + count))
        ((List.range count).foldl (fun p k => p.putD (first + k) (words.getD k 0) 0) (s.patternKept i e))).complete i cSuccess 0 0 0 := by
  have lenKept (x : Engine) : (((((s.setEngine e x).set (Reg.ENG.BIND.TENANT e) (s.bindOf i).1).set (Reg.ENG.BIND.GLD e)
      (s.bindOf i).2.1).setBit (Reg.ENG.BIND.MGMT e) (s.bindOf i).2.2.1)).engLen e = s.engLen e := by
    have addr : 0x601004 + 0x100 * e ≠ 0x601008 + 0x100 * e := by omega
    exact (Dev.get_set_of_addr _ addr (of_decide_eq_true rfl) (of_decide_eq_true rfl) _).trans
      ((Dev.get_set_of_addr _ addr (of_decide_eq_true rfl) (of_decide_eq_true rfl) _).trans
        (Dev.get_set_of_addr _ addr (of_decide_eq_true rfl) (of_decide_eq_true rfl) _))
  unfold Dev.patternLoad Dev.loaded
  rw [if_neg (by omega), if_neg (by omega), if_neg (by omega), if_neg (by omega), if_neg (by omega), if_neg (by simp [off])]
  dsimp only
  rw [lenKept]
  rfl

theorem Dev.engState_loaded (s : Dev) (i : Issuer) (e len : Nat) (p : Tab (BitVec 64)) : (s.loaded i e len p).engState e = 1 :=
  Dev.get_set_same _ _ _

theorem Dev.engLen_loaded (s : Dev) (i : Issuer) (e len : Nat) (p : Tab (BitVec 64)) : (s.loaded i e len p).engLen e = len % 2048 :=
  (Dev.get_set_of_lo _ (of_decide_eq_true rfl) (of_decide_eq_true rfl) (of_decide_eq_true rfl) _).trans (Dev.get_set_same _ _ _)

theorem Dev.pattern_loaded (s : Dev) (i : Issuer) (e len : Nat) (p : Tab (BitVec 64)) : ((s.loaded i e len p).engine e).pattern = p :=
  congrArg Engine.pattern (s.engine_setEngine_same e { s.engine e with pattern := p, bound := (s.bindOf i).2.2.2 })

theorem Dev.engine_loaded_ne (s : Dev) (i : Issuer) {e j : Nat} (h : j ≠ e) (len : Nat) (p : Tab (BitVec 64)) :
    (s.loaded i e len p).engine j = s.engine j :=
  (s.setEngine_moves e { s.engine e with pattern := p, bound := (s.bindOf i).2.2.2 }).2 j h

/-! ## PATTERN_START -/

/-- What a start makes of an engine's entry: its first registers, nothing else left of an earlier run (R244). -/
def Engine.launched (x : Engine) (now len : Nat) (g : List (BitVec 64)) : Engine :=
  { x with g := (List.range 4).foldl (fun t k => t.putD k (g.getD k 0) 0) .empty
           fifo := [], watches := x.watches.map fun _ w => { w with armed := false }, streams := .empty, gens := .empty
           ready := now + len + 16 }

/-- The engine RUNNING from `entry`, with its first registers, its priority and its credits (R244). -/
def Dev.launched (s : Dev) (e prio entry credits : Nat) (g : List (BitVec 64)) : Dev :=
  let s := s.setEngine e ((s.engine e).launched s.clock (s.engLen e) g)
  let s := ((s.set (Reg.ENG.CTL.PRIO e) prio).set (Reg.ENG.CTL.CREDITS e) credits).set (Reg.ENG.CTL.ENTRY e) entry
  let s := ((s.set (Reg.ENG.LTAG.LT e) 0).set (Reg.ENG.DL.DL e) s.tnow).set (Reg.ENG.STS.STOP_REASON e) 0
  (s.set (Reg.ENG.STS.STATE e) 2).set (Reg.ENG.STS.PC e) entry

theorem Dev.patternStart_of_valid {s : Dev} {i : Issuer} {e prio entry credits : Nat} (he : e < 16) (hp : prio ≤ 3) (hc : 0 < credits)
    (top : credits ≤ 1024) (bound : s.holdsBinding i e = true) (loaded : s.engState e = 1) (inside : entry < s.engLen e)
    (enabled : s.bit Reg.STI.CFG.ENABLE = true) (may : s.mayStitch = true) (sum : s.creditSum + credits ≤ 3072)
    (valid : ∀ k, k < s.engLen e → stitchOk (s.engLen e) ((s.engine e).pattern.getD k 0) = true) (g : List (BitVec 64)) :
    s.patternStart i e prio entry credits g = (s.launched e prio entry credits g).complete i cSuccess 0 0 0 := by
  have off : s.engOn e = false := by simp [Dev.engOn, loaded]
  have startable : ¬ (s.engOn e = true ∨ s.engState e = 0 ∨ s.engLen e = 0 ∨ (!s.bit Reg.STI.CFG.ENABLE) = true) := by
    rw [off, loaded, enabled]
    simp
    omega
  have allOk : (List.range (s.engLen e)).find? (fun k => !stitchOk (s.engLen e) ((s.engine e).pattern.getD k 0)) = none :=
    List.find?_eq_none.mpr fun k hk => by rw [valid k (List.mem_range.mp hk)]; exact Bool.false_ne_true
  unfold Dev.patternStart
  rw [if_neg (by omega), if_neg (by omega), if_neg (by omega), if_neg (by simp [bound])]
  dsimp only
  rw [if_neg startable, if_neg (by simp [may]), if_neg (by omega), allOk]
  exact if_neg (by omega)

theorem Dev.launched_engState (s : Dev) (e prio entry credits : Nat) (g : List (BitVec 64)) :
    (s.launched e prio entry credits g).engState e = 2 :=
  (Dev.get_set_of_lo _ (of_decide_eq_true rfl) (of_decide_eq_true rfl) (of_decide_eq_true rfl) _).trans (Dev.get_set_same _ _ _)

theorem Dev.launched_engPc (s : Dev) (e prio entry credits : Nat) (g : List (BitVec 64)) :
    (s.launched e prio entry credits g).engPc e = entry % 1024 := Dev.get_set_same _ _ _

/-- The launch's last writes are to STS. -/
theorem Dev.get_launched (s : Dev) {e : Nat} {f : Field} (addr : f.addr ≠ 0x601004 + 0x100 * e) (hf : f.lo < 32) {prio entry credits : Nat}
    {g : List (BitVec 64)} {d : Dev} (h : s.launched e prio entry credits g =
      ((d.set (Reg.ENG.STS.STOP_REASON e) 0).set (Reg.ENG.STS.STATE e) 2).set (Reg.ENG.STS.PC e) entry) :
    (s.launched e prio entry credits g).get f = d.get f := by
  rw [h]
  exact (Dev.get_set_of_addr _ addr hf (of_decide_eq_true rfl) _).trans ((Dev.get_set_of_addr _ addr hf (of_decide_eq_true rfl) _).trans
    (Dev.get_set_of_addr _ addr hf (of_decide_eq_true rfl) _))

theorem Dev.launched_lt (s : Dev) (e prio entry credits : Nat) (g : List (BitVec 64)) :
    (s.launched e prio entry credits g).get (Reg.ENG.LTAG.LT e) = 0 := by
  refine (s.get_launched (by show 0x60100c + 0x100 * e ≠ _; omega) (of_decide_eq_true rfl) rfl).trans ?_
  exact (Dev.get_set_of_addr _ (by show 0x60100c + 0x100 * e ≠ 0x601010 + 0x100 * e; omega) (of_decide_eq_true rfl)
    (of_decide_eq_true rfl) _).trans (Dev.get_set_same _ _ _)

theorem Dev.tnow_lt (s : Dev) : s.tnow < 2 ^ 32 := Nat.mod_lt _ (by decide)

theorem Dev.launched_dl (s : Dev) (e prio entry credits : Nat) (g : List (BitVec 64)) :
    (s.launched e prio entry credits g).get (Reg.ENG.DL.DL e) = s.tnow :=
  (s.get_launched (by show 0x601010 + 0x100 * e ≠ _; omega) (of_decide_eq_true rfl) rfl).trans
    ((Dev.get_set_same _ _ _).trans (Nat.mod_eq_of_lt s.tnow_lt))

theorem Dev.launched_engine (s : Dev) (e prio entry credits : Nat) (g : List (BitVec 64)) :
    (s.launched e prio entry credits g).engine e = (s.engine e).launched s.clock (s.engLen e) g := by
  simp only [Dev.launched, Dev.engine_set, Dev.engine_setEngine_same]

theorem Dev.launched_engine_ne (s : Dev) {e j : Nat} (h : j ≠ e) (prio entry credits : Nat) (g : List (BitVec 64)) :
    (s.launched e prio entry credits g).engine j = s.engine j := by
  simp only [Dev.launched, Dev.engine_set]
  exact (s.setEngine_moves e _).2 j h

/-- G0–G3 take the command's values, the others are 0 (R244). -/
theorem Dev.launched_reg (s : Dev) (e prio entry credits : Nat) (g : List (BitVec 64)) (k : Nat) :
    (s.launched e prio entry credits g).reg e k = if k < 4 then g.getD k 0 else 0 := by
  have filled := Tab.getD_foldl_putD (.empty : Tab (BitVec 64)) 0 4 (fun k => g.getD k 0) 0 k
  simp only [Nat.zero_add, Nat.zero_le, true_and, Nat.sub_zero, Tab.getD_empty] at filled
  unfold Dev.reg
  rw [Dev.launched_engine]
  exact filled

/-! ## PATTERN_STOP and the commands -/

theorem Dev.patternStop_of_valid {s : Dev} {i : Issuer} {e : Nat} (he : e < 16) (bound : s.holdsBinding i e = true)
    (on : s.engOn e = true) : s.patternStop i e = (s.engStop e 2).complete i cSuccess 0 2 0 := by
  unfold Dev.patternStop
  rw [if_neg (by omega), if_neg (by simp [bound]), if_neg (by simp [on])]

theorem exec_patternLoad (i : Issuer) (e first count len ptr : Nat) (words : Option (List (BitVec 64))) (s : State) :
    exec (.patternLoad i e first count len ptr words) s =
      .next (s.did (s.dev.ringCmd i 0x18 0 e [resEngine e] fun d => d.patternLoad i e first count len ptr words)) := rfl

theorem exec_patternStart (i : Issuer) (e prio entry credits : Nat) (g : List (BitVec 64)) (s : State) :
    exec (.patternStart i e prio entry credits g) s =
      .next (s.did (s.dev.ringCmd i 0x19 0 e [resEngine e] fun d => d.patternStart i e prio entry credits g)) := rfl

theorem exec_patternStop (i : Issuer) (e : Nat) (s : State) :
    exec (.patternStop i e) s = .next (s.did (s.dev.ringCmd i 0x1A 0 e [resEngine e] fun d => d.patternStop i e)) := rfl

end Sys2Proof.Machine

namespace Sys2Proof
open Machine

/-- Settles O40: with its conditions met each of the three passes its checks, and completes with SUCCESS. -/
theorem patternCommandsTakeEffect : Obligations.PatternCommandsTakeEffect := by
  unfold Obligations.PatternCommandsTakeEffect
  intro s i e he
  refine ⟨fun first count ptr words may some_ fits inside aligned off => ?load,
    fun prio entry credits g may hp hc top bound loaded inside enabled stitch sum valid => ?start, fun may bound on => ?stop, rfl, rfl⟩
  case load =>
    refine ⟨(s.dev.start i 0 e [resEngine e]).loaded i e (max (s.dev.engLen e) (first + count)) ((List.range count).foldl
      (fun p k => p.putD (first + k) (words.getD k 0) 0) ((s.dev.start i 0 e [resEngine e]).patternKept i e)), ?run, Dev.engState_loaded _ i e _ _, Dev.engLen_loaded _ i e _ _,
      fun k hk => ?word, fun j hj => Dev.engine_loaded_ne _ i hj _ _⟩
    case run =>
      rw [exec_patternLoad, Dev.ringCmd_of_mayStart may]
      exact State.next_did_congr s (Dev.patternLoad_of_valid (s := s.dev.start i 0 e [resEngine e]) he some_ fits inside
        aligned off i words)
    case word => rw [Dev.pattern_loaded, Tab.getD_foldl_putD, if_pos (by omega), Nat.add_sub_cancel_left]
  case start =>
    refine ⟨(s.dev.start i 0 e [resEngine e]).launched e prio entry credits g, ?_, Dev.launched_engState _ e prio entry credits g,
      Dev.launched_engPc _ e prio entry credits g, fun k hk => ?_, fun k hk => ?_, ?_, Dev.launched_lt _ e prio entry credits g,
      Dev.launched_dl _ e prio entry credits g, fun j hj => Dev.launched_engine_ne _ hj prio entry credits g⟩
    · rw [exec_patternStart, Dev.ringCmd_of_mayStart may]
      exact State.next_did_congr s (Dev.patternStart_of_valid (s := s.dev.start i 0 e [resEngine e]) he hp hc top bound
        loaded inside enabled stitch sum valid g)
    · rw [Dev.launched_reg, if_pos hk]
    · rw [Dev.launched_reg, if_neg (by omega)]
    · rw [Dev.launched_engine]
      rfl
  case stop =>
    rw [exec_patternStop, Dev.ringCmd_of_mayStart may]
    exact State.next_did_congr s (Dev.patternStop_of_valid (s := s.dev.start i 0 e [resEngine e]) he bound on)

end Sys2Proof
end

section
/-! SUPPORT. Ring commands in general: what a completion leaves of its ring, when a command waits, and what a refusal does
(R395–R402). -/

namespace Sys2Proof.Machine

/-! ## The ring after a completion -/

theorem Ring.taken_leave (x : Ring) (tag now : Nat) (write : Bool) :
    (x.leave tag now write).taken = x.taken.eraseP fun u => u.tag == tag := by
  cases write <;> exact (apply_ite Ring.taken _ _ _).trans (ite_self _)

@[simp] theorem Dev.ring_send (s : Dev) (o : Output) (f r : Nat) : (s.send o).ring f r = s.ring f r := rfl

theorem Dev.rings_msixSignal (s : Dev) (f v : Nat) : (s.msixSignal f v).rings = s.rings := by
  unfold Dev.msixSignal Dev.msixSend
  split
  · rfl
  · dsimp only
    split <;> rfl

theorem Dev.taken_signalRing (s : Dev) (f r : Nat) : ((s.signalRing f r).ring f r).taken = (s.ring f r).taken := by
  have h : (s.signalRing f r).ring f r = (s.setRing f r { s.ring f r with unsignalled := 0 }).ring f r :=
    congrArg (fun t : Tab Ring => t.getD (f * 16 + r) {}) (Dev.rings_msixSignal _ _ _)
  rw [h, Dev.ring_setRing_same]

/-- The answered command has left its ring's list. -/
theorem Dev.taken_ringAnswer (s : Dev) (i : Issuer) (x : Taken) (status detail r0 r1 : Nat) :
    ((s.ringAnswer i x status detail r0 r1).ring i.func i.ring).taken =
      (s.ring i.func i.ring).taken.eraseP fun u => u.tag == i.tag := by
  have wrote (y : Ring) (b : Bool) (o : Output) :
      (if b = true then (s.setRing i.func i.ring y).send o else s.setRing i.func i.ring y).ring i.func i.ring = y := by
    cases b <;> simp
  unfold Dev.ringAnswer
  dsimp only
  split
  · rw [Dev.taken_signalRing, wrote, Ring.taken_leave]
  · rw [wrote, Ring.taken_leave]

theorem Dev.Books.rings {s t : Dev} (h : Dev.Books s t) : t.rings = s.rings := by
  obtain ⟨_, _, _, _, rfl⟩ := h
  rfl

theorem Dev.taken_completeAt {s : Dev} {i : Issuer} {x : Taken} (hx : s.takenOf i = some x) (status detail r0 r1 addr : Nat) :
    ((s.completeAt i status detail r0 r1 addr).ring i.func i.ring).taken =
      (s.ring i.func i.ring).taken.eraseP fun u => u.tag == i.tag := by
  unfold Dev.completeAt
  rw [hx]
  refine (congrArg (fun t : Tab Ring => (t.getD (i.func * 16 + i.ring) {}).taken) (Dev.tellCompletion_books _ _ _ _).rings).trans ?_
  exact s.taken_ringAnswer i x status detail r0 r1

/-! ## A command that waits, and one that is refused -/

theorem Dev.ringCmd_of_waits {s : Dev} {i : Issuer} {op : Nat} {res : List Nat} (waits : s.mayStart i op res = false) (kind named : Nat)
    (f : Dev → Dev) : s.ringCmd i op kind named res f = s := if_neg (by simp [waits])

/-- The answer of a ring command that carries out `f` once it has started (R399, R400). -/
def ringStep (s : State) (i : Issuer) (op kind named : Nat) (res : List Nat) (f : Dev → Dev) : Answer :=
  .next (s.did (s.dev.ringCmd i op kind named res f))

theorem ringStep_of_mayStart {s : State} {i : Issuer} {op : Nat} {res : List Nat} (may : s.dev.mayStart i op res = true)
    (kind named : Nat) {f : Dev → Dev} {d : Dev} (h : f (s.dev.start i kind named res) = d) :
    ringStep s i op kind named res f = .next (s.did d) := by
  unfold ringStep
  rw [Dev.ringCmd_of_mayStart may, h]

theorem ringStep_of_waits {s : State} {i : Issuer} {op : Nat} {res : List Nat} (hq : quiet s)
    (waits : s.dev.mayStart i op res = false) (kind named : Nat) (f : Dev → Dev) : ringStep s i op kind named res f = .next s := by
  unfold ringStep
  rw [Dev.ringCmd_of_waits waits, State.did_self_of_quiet hq]

/-- A command that has started and ends at once is answered, and changes nothing else. -/
theorem started_completeAt {s : State} {i : Issuer} (hq : quiet s) (hw : writesFor s i) (kind named : Nat) (res : List Nat)
    (status detail addr : Nat) :
    onlyAnswered s (s.did ((s.dev.start i kind named res).completeAt i status detail 0 0 addr)) ∧
      completedWith s (s.did ((s.dev.start i kind named res).completeAt i status detail 0 0 addr)) i status detail := by
  have answered := (s.dev.start_answered i kind named res).trans (Dev.completeAt_answered _ i status detail 0 0 addr)
  have sent := ((writesFor_iff_owes.mp hw).start kind named res).mem_out_completeAt status detail 0 0 addr
  exact ⟨answered.onlyAnswered hq, _, _, rfl, sent, rfl, rfl, rfl⟩

/-- A command whose effect, once it has started, is to complete with this STATUS and DETAIL is refused so. -/
theorem refusedAs_of_completeAt {s : State} {c : Instr} {i : Issuer} {op kind named : Nat} {res : List Nat} {f : Dev → Dev}
    {status detail addr : Nat} (hq : quiet s) (hc : exec c s = ringStep s i op kind named res f)
    (hf : f (s.dev.start i kind named res) = (s.dev.start i kind named res).completeAt i status detail 0 0 addr) :
    refusedAs s c i op res status detail := fun may =>
  ⟨_, hc.trans (ringStep_of_mayStart may.1 kind named hf), started_completeAt hq may.2 kind named res status detail addr⟩

theorem refusedAs_of_refuseCmd {s : State} {c : Instr} {i : Issuer} {op kind named : Nat} {res : List Nat} {f : Dev → Dev}
    {status detail : Nat} (hq : quiet s) (hc : exec c s = ringStep s i op kind named res f)
    (hf : f (s.dev.start i kind named res) = (s.dev.start i kind named res).refuseCmd i status detail) :
    refusedAs s c i op res status detail := refusedAs_of_completeAt hq hc hf

/-! ## The ring commands of the table -/

/-- What a command that only a device that serves carries out does once it has started (R304). -/
def whereServing (i : Issuer) (f : Dev → Dev) (d : Dev) : Dev := if d.serves then f d else d.refuseCmd i cNotActive 0

theorem whereServing_of_serves {i : Issuer} {d : Dev} (h : d.serves = true) (f : Dev → Dev) : whereServing i f d = f d := if_pos h

theorem whereServing_of_not_serves {i : Issuer} {d : Dev} (h : d.serves = false) (f : Dev → Dev) :
    whereServing i f d = d.refuseCmd i cNotActive 0 := if_neg (by simp [h])

/-- LOG_READ waits while ROW scans (R439). -/
theorem exec_logRead_of_scan {s : State} (scan : s.dev.rowState = 0) (i : Issuer) (first count len ptr : Nat) (ok : Bool) :
    exec (.logRead i first count len ptr ok) s = .next (s.did s.dev) := State.next_did_congr s (if_pos scan)

theorem exec_logRead_of_ready {s : State} (ready : s.dev.rowState ≠ 0) (i : Issuer) (first count len ptr : Nat) (ok : Bool) :
    exec (.logRead i first count len ptr ok) s =
      ringStep s i 0x21 1 0xFFFF [resLog] fun d => d.logRead i first count len ptr ok := State.next_did_congr s (if_neg ready)

/-- A ring command carries out its effect once it may start, one on regions where the device serves; LOG_READ waits for the scan. -/
theorem exec_of_ringOf {c : Instr} {i : Issuer} {op : Nat} {res : List Nat} (h : ringOf c = some (i, op, res)) (s : State) :
    (∃ named f, exec c s = ringStep s i op 0 named res (whereServing i f)) ∨
      0x12 < op ∧ ((∃ kind named f, exec c s = ringStep s i op kind named res f) ∨ exec c s = .next (s.did s.dev)) := by
  unfold ringOf at h
  split at h
  all_goals obtain ⟨rfl, rfl, rfl⟩ := h
  case h_15 =>
    by_cases scan : s.dev.rowState = 0
    · exact .inr ⟨by decide, .inr (exec_logRead_of_scan scan _ _ _ _ _ _)⟩
    · exact .inr ⟨by decide, .inl ⟨_, _, _, exec_logRead_of_ready scan _ _ _ _ _ _⟩⟩
  case h_1 | h_2 | h_3 | h_4 | h_5 | h_6 | h_7 | h_8 | h_9 | h_10 => exact .inl ⟨_, _, rfl⟩
  all_goals exact .inr ⟨by decide, .inl ⟨_, _, _, rfl⟩⟩

theorem exec_invalidOpcode {s : State} {i : Issuer} {x : Taken} (hx : s.dev.takenOf i = some x) :
    exec (.invalidOpcode i) s = .next (s.did (if (descFields x.opcode).isNone then
      s.dev.ringCmd i x.opcode 0 0xFFFF [] fun d => d.refuseCmd i cInvalidOpcode 0 else s.dev)) := by
  show execInvalidOpcode i s = _
  unfold execInvalidOpcode State.on
  simp only [hx]

theorem exec_invalidOpcode_of_none {s : State} {i : Issuer} {x : Taken} (hx : s.dev.takenOf i = some x)
    (unknown : descFields x.opcode = none) :
    exec (.invalidOpcode i) s = ringStep s i x.opcode 0 0xFFFF [] fun d => d.refuseCmd i cInvalidOpcode 0 :=
  (exec_invalidOpcode hx).trans (State.next_did_congr s (if_pos (by simp [unknown])))

theorem exec_invalidOpcode_of_known {s : State} {i : Issuer} (known : ∀ x, s.dev.takenOf i = some x → descFields x.opcode ≠ none) :
    exec (.invalidOpcode i) s = .next (s.did s.dev) := by
  cases hx : s.dev.takenOf i with
  | none =>
    show execInvalidOpcode i s = _
    unfold execInvalidOpcode State.on
    simp only [hx]
  | some x =>
    refine (exec_invalidOpcode hx).trans (State.next_did_congr s (if_neg ?_))
    simpa using known x hx

end Sys2Proof.Machine

namespace Sys2Proof
open Machine

/-- Settles O28: an answer writes the entry that the ring owes, the counters and records behind it touch neither the entry nor the
ring, and the command leaves the ring's list. -/
theorem completionIsWritten : Obligations.CompletionIsWritten := by
  unfold Obligations.CompletionIsWritten
  intro s i status detail r0 r1 addr hq hw
  have sent := (writesFor_iff_owes.mp hw).mem_out_completeAt status detail r0 r1 addr
  refine ⟨(s.dev.completeAt_answered i status detail r0 r1 addr).onlyAnswered hq,
    ⟨_, _, rfl, sent, rfl, rfl, rfl, rfl, rfl, rfl, rfl⟩, ?left⟩
  case left =>
    obtain ⟨-, -, -, x, hx, -⟩ := hw
    have there : x ∈ (s.dev.ring i.func i.ring).taken := List.mem_of_find?_eq_some hx
    have named : (x.tag == i.tag) = true := List.find?_some (p := fun u : Taken => u.tag == i.tag) hx
    refine (congrArg (fun l : List Taken => l.length + 1) (Dev.taken_completeAt hx status detail r0 r1 addr)).trans ?_
    have pos := List.length_pos_of_mem there
    show (List.eraseP (fun u : Taken => u.tag == i.tag) _).length + 1 = _
    rw [List.length_eraseP_of_mem there named]
    omega

/-- Settles O29: an unknown opcode is refused once it may start; a command that may not start leaves the device as it is, and one on
regions comes first to the check that the device serves. -/
theorem unknownOpcodeIsRefused : Obligations.UnknownOpcodeIsRefused := by
  unfold Obligations.UnknownOpcodeIsRefused
  intro s i hq
  refine ⟨fun x hx unknown => ⟨?refused, fun waits => ?waits⟩, fun known => ?known, fun c op res ring => ⟨fun waits => ?command, ?inactive⟩⟩
  case refused => exact refusedAs_of_refuseCmd hq (exec_invalidOpcode_of_none hx unknown) rfl
  case waits => exact (exec_invalidOpcode_of_none hx unknown).trans (ringStep_of_waits hq waits _ _ _)
  case known => exact (exec_invalidOpcode_of_known known).trans (congrArg _ (State.did_self_of_quiet hq))
  case command =>
    rcases exec_of_ringOf ring s with ⟨named, f, hc⟩ | ⟨-, ⟨kind, named, f, hc⟩ | hc⟩
    · exact hc.trans (ringStep_of_waits hq waits _ _ _)
    · exact hc.trans (ringStep_of_waits hq waits _ _ _)
    · exact hc.trans (congrArg _ (State.did_self_of_quiet hq))
  case inactive =>
    intro regions idle
    rcases exec_of_ringOf ring s with ⟨named, f, hc⟩ | ⟨other, -⟩
    · exact refusedAs_of_refuseCmd hq hc (whereServing_of_not_serves (d := s.dev.start i 0 named res) idle f)
    · exact absurd regions (Nat.not_le_of_lt other)

end Sys2Proof
end

section
/-! SUPPORT. What refuses the management function's commands (R402) and the commands on regions, copies and fences (R400, R404). -/

namespace Sys2Proof.Machine

theorem Issuer.isM_eq_false {i : Issuer} (h : i.func ≠ 64) : i.isM = false := by simpa [Issuer.isM] using h

theorem Issuer.isM_eq_true {i : Issuer} (h : i.func = 64) : i.isM = true := by simp [Issuer.isM, h]

/-! ## The checks of R400 -/

theorem Dev.regionFault_eq_some_iff {s : Dev} {i : Issuer} {n gen code detail : Nat} :
    s.regionFault i n gen = some (code, detail) ↔
      (4095 < n ∧ code = cInvalidField ∧ detail = 20) ∨
      (n ≤ 4095 ∧ s.regions.get? n = none ∧ code = cState ∧ detail = 0) ∨
      (n ≤ 4095 ∧ ∃ r, s.regions.get? n = some r ∧ s.mayOwn i r.tenant = false ∧ code = cNotPermitted ∧ detail = 0) ∨
      (n ≤ 4095 ∧ ∃ r, s.regions.get? n = some r ∧ s.mayOwn i r.tenant = true ∧ r.gen ≠ gen ∧ code = cStaleGen ∧ detail = 0) := by
  unfold Dev.regionFault
  by_cases far : 4095 < n
  · have beyond : ¬ n ≤ 4095 := by omega
    simp [far, beyond, @eq_comm _ code, @eq_comm _ detail]
  · have inside : n ≤ 4095 := by omega
    cases hr : s.regions.get? n with
    | none => simp [far, inside, @eq_comm _ code, @eq_comm _ detail]
    | some r =>
      cases own : s.mayOwn i r.tenant
      · simp [far, inside, own, @eq_comm _ code, @eq_comm _ detail]
      · by_cases fresh : r.gen = gen <;> simp [far, inside, own, fresh, @eq_comm _ code, @eq_comm _ detail]

theorem Dev.regionFault_eq_none {s : Dev} {i : Issuer} {n : Nat} {r : Region} (hr : s.regions.get? n = some r) (hn : n ≤ 4095)
    (own : s.mayOwn i r.tenant = true) : s.regionFault i n r.gen = none := by
  have near : ¬ 4095 < n := by omega
  simp [Dev.regionFault, near, hr, own]

/-- What a command on a region does once it has started: its region's checks, then `f` (R400). -/
def onRegion (i : Issuer) (n gen : Nat) (f : Dev → Region → Dev) (d : Dev) : Dev :=
  match d.regionFault i n gen, d.regions.get? n with
  | some (c, k), _ => d.refuseCmd i c k
  | none, some r => f d r
  | none, none => d.refuseCmd i cState 0

theorem onRegion_of_fault {i : Issuer} {n gen code detail : Nat} {d : Dev} (h : d.regionFault i n gen = some (code, detail))
    (f : Dev → Region → Dev) : onRegion i n gen f d = d.refuseCmd i code detail := by simp only [onRegion, h]

theorem onRegion_of_pass {i : Issuer} {n gen : Nat} {d : Dev} {r : Region} (h : d.regionFault i n gen = none)
    (hr : d.regions.get? n = some r) (f : Dev → Region → Dev) : onRegion i n gen f d = f d r := by simp only [onRegion, h, hr]

/-- The effect of a command on region `n`, once it has started on a device that serves and its region has passed its checks. -/
theorem started_onRegion {s : Dev} {i : Issuer} {n : Nat} {r : Region} (serves : s.serves = true) (hr : s.regions.get? n = some r)
    (hn : n ≤ 4095) (own : s.mayOwn i r.tenant = true) (f : Dev → Region → Dev) :
    whereServing i (onRegion i n r.gen f) (s.start i 0 n [resRegion n]) = f (s.start i 0 n [resRegion n]) r :=
  (whereServing_of_serves (d := s.start i 0 n [resRegion n]) serves _).trans
    (onRegion_of_pass (d := s.start i 0 n [resRegion n]) (Dev.regionFault_eq_none hr hn own) hr f)

theorem refusedAs_of_regionFault {s : State} {c : Instr} {i : Issuer} {n gen op code detail : Nat} {f : Dev → Region → Dev}
    (hq : quiet s) (serves : s.dev.serves = true) (fault : s.dev.regionFault i n gen = some (code, detail))
    (hc : exec c s = ringStep s i op 0 n [resRegion n] (whereServing i (onRegion i n gen f))) :
    refusedAs s c i op [resRegion n] code detail :=
  refusedAs_of_refuseCmd hq hc ((whereServing_of_serves (d := s.dev.start i 0 n [resRegion n]) serves _).trans
    (onRegion_of_fault (d := s.dev.start i 0 n [resRegion n]) fault f))

theorem refusedAs_of_region {s : State} {c : Instr} {i : Issuer} {n op status detail : Nat} {r : Region} {f : Dev → Region → Dev}
    (hq : quiet s) (serves : s.dev.serves = true) (hr : s.dev.regions.get? n = some r) (hn : n ≤ 4095)
    (own : s.dev.mayOwn i r.tenant = true)
    (hc : exec c s = ringStep s i op 0 n [resRegion n] (whereServing i (onRegion i n r.gen f)))
    (hf : f (s.dev.start i 0 n [resRegion n]) r = (s.dev.start i 0 n [resRegion n]).refuseCmd i status detail) :
    refusedAs s c i op [resRegion n] status detail :=
  refusedAs_of_refuseCmd hq hc ((started_onRegion serves hr hn own f).trans hf)

/-! ## Operands beside the region -/

/-- What a command on a device that serves is refused for. -/
theorem refusedAs_of_serving {s : State} {c : Instr} {i : Issuer} {op named status detail : Nat} {res : List Nat} {f : Dev → Dev}
    (hq : quiet s) (serves : s.dev.serves = true) (hc : exec c s = ringStep s i op 0 named res (whereServing i f))
    (hf : f (s.dev.start i 0 named res) = (s.dev.start i 0 named res).refuseCmd i status detail) :
    refusedAs s c i op res status detail :=
  refusedAs_of_refuseCmd hq hc ((whereServing_of_serves (d := s.dev.start i 0 named res) serves f).trans hf)

/-- REGION_ATTACH of an LD to which no offer can be made (R79, R404). -/
theorem refusedAs_regionAttach {s : State} {i : Issuer} {n g k : Nat} {r : Region} (hq : quiet s) (serves : s.dev.serves = true)
    (hr : s.dev.regions.get? n = some r) (hn : n ≤ 4095) (own : s.dev.mayOwn i r.tenant = true) (hg : g ≤ 63)
    (fault : s.dev.offerFault g n r = some k) :
    refusedAs s (.regionAttach i n r.gen g) i 0x03 [resRegion n]
      (if k = 1 then cNoResource else if k = 2 then cState else cNotPermitted) 0 := by
  refine refusedAs_of_region hq serves hr hn own rfl ((if_neg (by omega)).trans ?_)
  have started : (s.dev.start i 0 n [resRegion n]).offerFault g n r = some k := fault
  rw [started]
  match k with
  | 0 => rfl
  | 1 => rfl
  | 2 => rfl
  | k + 3 =>
    rw [if_neg (by omega), if_neg (by omega)]
    rfl

/-- The tenant that REGION_CREATE names is one its issuer may name (R402, R404). -/
theorem mayName_iff {i : Issuer} {tenant : Nat} :
    (if i.isM then 1023 < tenant else tenant ≠ 0) ↔ ¬ if i.func = 64 then tenant ≤ 1023 else tenant = 0 := by
  by_cases h : i.func = 64 <;> simp [Issuer.isM, h]

theorem Dev.ownerOf_eq (s : Dev) (i : Issuer) (tenant : Nat) :
    (if i.isM then tenant else (s.tenantOf i).getD 0) = if i.func = 64 then tenant else (s.tenantOf i).getD 0 := by
  simp [Issuer.isM]

theorem Dev.copyStart_of_sourceFault {s : Dev} {i : Issuer} {src sg c k : Nat} (h : s.sourceFault i src sg = some (c, k))
    (dst dg so do' lines : Nat) : s.copyStart i src sg dst dg so do' lines = s.refuseCmd i c k := by simp only [Dev.copyStart, h]

theorem Dev.copyStart_of_regionFault {s : Dev} {i : Issuer} {src sg dst dg c k : Nat} (hs : s.sourceFault i src sg = none)
    (hd : s.regionFault i dst dg = some (c, k)) (so do' lines : Nat) :
    s.copyStart i src sg dst dg so do' lines = s.refuseCmd i c (if c = cInvalidField then k + 4 else k) := by
  simp only [Dev.copyStart, hs, hd]

section
variable {s : Dev} {i : Issuer} {src sg dst dg : Nat} {a b : Region} (hs : s.sourceFault i src sg = none)
  (hd : s.regionFault i dst dg = none) (ha : s.regions.get? src = some a) (hb : s.regions.get? dst = some b)
include hs hd ha hb

theorem Dev.copyStart_of_count {lines : Nat} (count : lines = 0 ∨ 2 ^ 24 < lines) (so do' : Nat) :
    s.copyStart i src sg dst dg so do' lines = s.refuseCmd i cInvalidField 48 := by
  simp only [Dev.copyStart, hs, hd, ha, hb]
  exact if_pos count

theorem Dev.copyStart_of_sourceOffset {lines so : Nat} (count : ¬ (lines = 0 ∨ 2 ^ 24 < lines))
    (offset : so % 64 ≠ 0 ∨ a.size * 2 ^ 21 < so + lines * 64) (do' : Nat) :
    s.copyStart i src sg dst dg so do' lines = s.refuseCmd i cInvalidField 32 := by
  simp only [Dev.copyStart, hs, hd, ha, hb]
  exact (if_neg count).trans (if_pos offset)

theorem Dev.copyStart_of_offset {lines so do' : Nat} (count : ¬ (lines = 0 ∨ 2 ^ 24 < lines))
    (source : ¬ (so % 64 ≠ 0 ∨ a.size * 2 ^ 21 < so + lines * 64))
    (offset : do' % 64 ≠ 0 ∨ b.size * 2 ^ 21 < do' + lines * 64 ∨ (src = dst ∧ overlaps so do' (lines * 64) = true)) :
    s.copyStart i src sg dst dg so do' lines = s.refuseCmd i cInvalidField 40 := by
  simp only [Dev.copyStart, hs, hd, ha, hb]
  exact (if_neg count).trans ((if_neg source).trans (if_pos offset))

end

/-- PERSIST_FENCE of a tenant's regions holds nothing while it runs (R47, R400). -/
theorem exec_persistFence_of_tenant {scope : Nat} (h : scope ≠ 0) (i : Issuer) (n gen : Nat) (s : State) :
    exec (.persistFence i n gen scope) s =
      ringStep s i 0x12 0 0xFFFF [] (whereServing i fun d => d.persistFence i n gen scope) := by
  have hc : exec (.persistFence i n gen scope) s = ringStep s i 0x12 0 (if scope = 0 then n else 0xFFFF)
    (if scope = 0 then [resRegion n] else []) (whereServing i fun d => d.persistFence i n gen scope) := rfl
  rwa [if_neg h, if_neg h] at hc

theorem Dev.persistFence_of_far {scope : Nat} (h : 1 < scope) (s : Dev) (i : Issuer) (n gen : Nat) :
    s.persistFence i n gen scope = s.refuseCmd i cInvalidField 24 := by
  have tenants : scope ≠ 0 := by omega
  simp only [Dev.persistFence, if_neg tenants]
  exact if_pos h

theorem Dev.persistFence_of_fault {s : Dev} {i : Issuer} {n gen c k : Nat} (h : s.regionFault i n gen = some (c, k)) :
    s.persistFence i n gen 0 = s.refuseCmd i c k := by simp only [Dev.persistFence, if_true, h]

end Sys2Proof.Machine

namespace Sys2Proof
open Machine

/-- Settles O30: the issuer's class is the first check of every one of them. -/
theorem managementCommandsNeedTheManagementFunction : Obligations.ManagementCommandsNeedTheManagementFunction := by
  unfold Obligations.ManagementCommandsNeedTheManagementFunction
  intro s i hq ld max ptr ok first count len page target offset content m loan
  have notM : (!i.isM) = true := by simp [Issuer.isM_eq_false ld]
  refine ⟨?listed, fun ready => ?log, fun h1 h2 h3 => ?page⟩
  case listed =>
    simp only [List.forall_mem_cons, List.not_mem_nil, false_implies, implies_true, and_true]
    refine ⟨?_, ?_, ?_, ?_, ?_, ?_, ?_, ?_, ?_, ?_⟩
    all_goals exact refusedAs_of_refuseCmd hq rfl (if_pos notM)
  case log => exact refusedAs_of_refuseCmd hq (exec_logRead_of_ready ready i first count len ptr ok) (if_pos notM)
  case page =>
    have notAll : ¬ (page / 64 = 0x00 ∨ page / 64 = 0x28 ∨ page / 64 = 0x1B) := by simp [h1, h2, h3]
    exact refusedAs_of_refuseCmd hq rfl (if_pos ⟨notM, notAll⟩)

/-- Settles O31: every command on a region comes to the checks of R400 first, and then to those of its own operands. -/
theorem regionChecksDecideInOrder : Obligations.RegionChecksDecideInOrder := by
  unfold Obligations.RegionChecksDecideInOrder
  intro s i n gen code detail hq serves
  refine ⟨Dev.regionFault_eq_some_iff, fun fault c op listed => ?fault, fun r g first count hr hn own fresh => ?operands, ?create, ?copy,
    fun scope far => ?scope, fun fault => ?fence⟩
  case fault =>
    simp only [List.mem_cons, Prod.mk.injEq, List.not_mem_nil, or_false] at listed
    rcases listed with ⟨rfl, rfl⟩ | ⟨rfl, rfl⟩ | ⟨rfl, rfl⟩ | ⟨rfl, rfl⟩ | ⟨rfl, rfl⟩
    all_goals exact refusedAs_of_regionFault hq serves fault rfl
  case operands =>
    subst fresh
    refine ⟨fun held => ?_, fun far => ?_, fun near k fault => ?_, fun far one => ?_, fun near gone => ?_, fun near there asked => ?_, ?_⟩
    · exact refusedAs_of_region hq serves hr hn own rfl (if_pos (by simp [held]))
    · exact refusedAs_of_region hq serves hr hn own rfl (if_pos far)
    · exact refusedAs_regionAttach hq serves hr hn own near fault
    · exact refusedAs_of_region hq serves hr hn own rfl ((if_neg one).trans (if_pos far))
    · exact refusedAs_of_region hq serves hr hn own rfl ((if_neg (by omega)).trans ((if_neg (by omega)).trans (if_pos (by rw [gone]; rfl))))
    · exact refusedAs_of_region hq serves hr hn own rfl
        ((if_neg (by omega)).trans ((if_neg (by omega)).trans ((if_neg (by rw [there]; exact Bool.false_ne_true)).trans (if_pos asked))))
    · simp only [List.forall_mem_cons, List.not_mem_nil, false_implies, implies_true, and_true]
      refine ⟨?_, ?_, ?_, ?_⟩
      all_goals
        exact ⟨fun past => refusedAs_of_region hq serves hr hn own rfl (if_pos past), fun inside bad =>
          refusedAs_of_region hq serves hr hn own rfl ((if_neg (by omega)).trans (if_pos bad))⟩
  case create =>
    intro tenant slot twin mirror policy base size refused named fits kinds room free
    have refuse {status detail : Nat} (hf : (s.dev.start i 0 0xFFFF [resSlot slot]).regionCreate i tenant slot twin mirror policy base size
        = (s.dev.start i 0 0xFFFF [resSlot slot]).refuseCmd i status detail) : refused status detail :=
      refusedAs_of_serving hq serves rfl hf
    have key : (if slot = 0xFFFF then none else some slot : Option Nat).isNone = (slot == 0xFFFF) := by
      by_cases h : slot = 0xFFFF <;> simp [h]
    have kindsEq : (twin && !mirror || policy.testBit 3 ||
        policy.testBit 0 && (if slot = 0xFFFF then none else some slot : Option Nat).isNone) =
        (twin && !mirror || policy.testBit 3 || policy.testBit 0 && slot == 0xFFFF) := by rw [key]
    have slotEq : s.dev.slotMayServe (if i.isM then tenant else (s.dev.tenantOf i).getD 0)
        (if slot = 0xFFFF then none else some slot) = fits := by rw [Dev.ownerOf_eq]
    have pastName (h : named) : ¬ if i.isM then 1023 < tenant else tenant ≠ 0 := fun n => mayName_iff.mp n h
    have pastSlot (h : fits = true) : ¬ (!s.dev.slotMayServe (if i.isM then tenant else (s.dev.tenantOf i).getD 0)
        (if slot = 0xFFFF then none else some slot)) = true := by
      rw [slotEq, h]
      exact Bool.false_ne_true
    have pastKinds (h : kinds) := ne_true_of_eq_false (kindsEq.trans h)
    have pastRoom (h : room) : ¬ (size = 0 ∨ 2 ^ 25 < base + size) := by
      obtain ⟨pos, top⟩ := h
      omega
    refine ⟨fun h => refuse ?_, fun h1 h => refuse ?_, fun h1 h2 h => refuse ?_, fun h1 h2 h3 h => refuse ?_,
      fun h1 h2 h3 h4 h => refuse ?_, fun h1 h2 h3 h4 h5 h => refuse ?_⟩
    · exact if_pos (mayName_iff.mpr h)
    · exact (if_neg (pastName h1)).trans (if_pos (congrArg (!·) (slotEq.trans h)))
    · exact (if_neg (pastName h1)).trans ((if_neg (pastSlot h2)).trans (if_pos (kindsEq.trans (eq_true_of_ne_false h))))
    · exact (if_neg (pastName h1)).trans ((if_neg (pastSlot h2)).trans ((if_neg (pastKinds h3)).trans (if_pos (by
        rw [Classical.not_and_iff_not_or_not] at h
        omega))))
    · exact (if_neg (pastName h1)).trans ((if_neg (pastSlot h2)).trans ((if_neg (pastKinds h3)).trans ((if_neg (pastRoom h4)).trans
        (if_pos (eq_true_of_ne_false h)))))
    · exact (if_neg (pastName h1)).trans ((if_neg (pastSlot h2)).trans ((if_neg (pastKinds h3)).trans ((if_neg (pastRoom h4)).trans
        ((if_neg (ne_true_of_eq_false h5)).trans (if_pos h)))))
  case copy =>
    intro src sg so do' lines refused
    have refuse {status detail : Nat} (hf : (s.dev.start i 0 n [resRegion src, resRegion n]).copyStart i src sg n gen so do' lines
        = (s.dev.start i 0 n [resRegion src, resRegion n]).refuseCmd i status detail) : refused status detail :=
      refusedAs_of_serving hq serves rfl hf
    refine ⟨fun c k fault => refuse ?_, fun pass fault => refuse ?_, fun a b pass pass' ha hb =>
      ⟨fun count => refuse ?_, fun some_ few offset => refuse ?_, fun some_ few aligned inside offset => refuse ?_⟩⟩
    · exact Dev.copyStart_of_sourceFault (s := s.dev.start i 0 n [resRegion src, resRegion n]) fault n gen so do' lines
    · exact Dev.copyStart_of_regionFault (s := s.dev.start i 0 n [resRegion src, resRegion n]) pass fault so do' lines
    · exact Dev.copyStart_of_count (s := s.dev.start i 0 n [resRegion src, resRegion n]) pass pass' ha hb count so do'
    · exact Dev.copyStart_of_sourceOffset (s := s.dev.start i 0 n [resRegion src, resRegion n]) pass pass' ha hb (by omega) offset do'
    · exact Dev.copyStart_of_offset (s := s.dev.start i 0 n [resRegion src, resRegion n]) pass pass' ha hb (by omega) (by omega) offset
  case scope => exact refusedAs_of_serving hq serves (exec_persistFence_of_tenant (by omega) i n gen s) (Dev.persistFence_of_far far _ i n gen)
  case fence =>
    exact refusedAs_of_serving hq serves rfl (Dev.persistFence_of_fault (s := s.dev.start i 0 n [resRegion n]) fault)

end Sys2Proof
end

section
/-! SUPPORT. The commands on regions, tier hints, copies and fences with their checks passed (R229, R231, R404). -/

namespace Sys2Proof.Machine

/-- What a command on a device that serves does, once it may start. -/
theorem exec_of_serving {s : State} {c : Instr} {i : Issuer} {op named : Nat} {res : List Nat} {f : Dev → Dev} {d : Dev}
    (serves : s.dev.serves = true) (may : s.dev.mayStart i op res = true)
    (hc : exec c s = ringStep s i op 0 named res (whereServing i f)) (hf : f (s.dev.start i 0 named res) = d) :
    exec c s = .next (s.did d) :=
  hc.trans (ringStep_of_mayStart may 0 named ((whereServing_of_serves (d := s.dev.start i 0 named res) serves f).trans hf))

/-- What a command on a region that passes its checks does, once it may start. -/
theorem exec_of_region {s : State} {c : Instr} {i : Issuer} {n op : Nat} {r : Region} {f : Dev → Region → Dev} {d : Dev}
    (serves : s.dev.serves = true) (may : s.dev.mayStart i op [resRegion n] = true) (hr : s.dev.regions.get? n = some r) (hn : n ≤ 4095)
    (own : s.dev.mayOwn i r.tenant = true)
    (hc : exec c s = ringStep s i op 0 n [resRegion n] (whereServing i (onRegion i n r.gen f)))
    (hf : f (s.dev.start i 0 n [resRegion n]) r = d) : exec c s = .next (s.did d) :=
  hc.trans (ringStep_of_mayStart may 0 n ((started_onRegion serves hr hn own f).trans hf))

/-- What a TIER_HINT of a run in range does, once it may start: `go` acts on the run. -/
theorem exec_of_tierHint {s : State} {c : Instr} {i : Issuer} {n first count : Nat} {r : Region} {go : Dev → Nat → Nat → Dev} {d : Dev}
    (serves : s.dev.serves = true) (may : s.dev.mayStart i 0x10 [resRegion n] = true) (hr : s.dev.regions.get? n = some r)
    (hn : n ≤ 4095) (own : s.dev.mayOwn i r.tenant = true) (inside : first < r.size * 512) (some_ : 0 < count) (few : count ≤ 2 ^ 24)
    (hc : exec c s = .next (s.did (s.dev.tierHint i n r.gen first count go)))
    (hf : go (s.dev.start i 0 n [resRegion n]) (r.base * 512 + first) (min count (r.size * 512 - first)) = d) :
    exec c s = .next (s.did d) :=
  exec_of_region serves may hr hn own hc ((if_neg (by omega)).trans ((if_neg (by omega)).trans hf))

/-- The unencrypted, unmirrored region that REGION_CREATE makes under the lowest free number (R404). -/
def Dev.newRegion (s : Dev) (tenant base size : Nat) : Region :=
  { base, size, tenant, slot := none, twin := false, mirror := false, policy := 0, gen := (s.gens.getD s.regions.firstFree 0 + 1) % 65536 }

/-- The device with that region entered, and its record on its way to the log (R37, R404). -/
def Dev.created (s : Dev) (i : Issuer) (tenant base size : Nat) : Dev :=
  let n := s.regions.firstFree
  let r := s.newRegion tenant base size
  (s.enterRegion n r).logRegion n [.command (.regionCreate n r (s.regionFingerprint r)) (.ring i) (n + r.gen * 65536) 0]

/-- REGION_CREATE of an unencrypted, unmirrored region whose operands pass: the lowest free number, its next generation (R404). -/
theorem Dev.regionCreate_of_valid {s : Dev} {i : Issuer} {tenant base size : Nat} (isM : i.func = 64) (named : tenant ≤ 1023)
    (pos : 0 < size) (top : base + size ≤ 2 ^ 25)
    (free : (s.regions.list.any fun e => decide (base < e.2.base + e.2.size) && decide (e.2.base < base + size)) = false)
    (room : s.regions.firstFree < 4096) :
    s.regionCreate i tenant 0xFFFF false false 0 base size = s.created i tenant base size := by
  have hM : i.isM = true := Issuer.isM_eq_true isM
  have unkeyed : ¬ (!s.slotMayServe tenant none) = true := Bool.false_ne_true
  unfold Dev.regionCreate
  simp only [hM, if_true]
  rw [if_neg (by omega), if_neg unkeyed, if_neg (by decide), if_neg (by omega), if_neg (ne_true_of_eq_false free),
    if_neg (by omega)]
  rfl

theorem Dev.regions_created (s : Dev) (i : Issuer) (tenant base size : Nat) :
    (s.created i tenant base size).regions = s.regions.put s.regions.firstFree (s.newRegion tenant base size) := rfl

theorem Dev.frames_created (s : Dev) (i : Issuer) (tenant base size : Nat) : (s.created i tenant base size).frames = s.frames := rfl

theorem Dev.length_logWait_created (s : Dev) (i : Issuer) (tenant base size : Nat) :
    (s.created i tenant base size).logWait.length = s.logWait.length + 1 := List.length_append

theorem exec_copyLines (i : Issuer) (src sg dst dg so do' lines : Nat) (s : State) :
    exec (.copyLines i src sg dst dg so do' lines) s = ringStep s i 0x11 0 dst [resRegion src, resRegion dst]
      (whereServing i fun d => d.copyStart i src sg dst dg so do' lines) := rfl

theorem exec_regionCreate (i : Issuer) (tenant slot : Nat) (twin mirror : Bool) (policy base size : Nat) (s : State) :
    exec (.regionCreate i tenant slot twin mirror policy base size) s = ringStep s i 0x01 0 0xFFFF [resSlot slot]
      (whereServing i fun d => d.regionCreate i tenant slot twin mirror policy base size) := rfl

end Sys2Proof.Machine

namespace Sys2Proof
open Machine

/-- Settles O33: with its checks passed each command does what R404 gives it, to the device with the command marked started. -/
theorem regionCommandsTakeEffect : Obligations.RegionCommandsTakeEffect := by
  unfold Obligations.RegionCommandsTakeEffect
  intro s i n r serves
  refine ⟨fun tenant base size may isM named pos top free room => ?create, fun hr hn own => ⟨fun may loose => ?destroy,
    fun g hg may open_ => ?attach, fun may => ?whole, fun g hg may there quietly => ?revoke⟩,
    fun src sg dst dg so do' lines may =>
      exec_of_serving serves may (exec_copyLines i src sg dst dg so do' lines s) rfl, fun may scope gen tenants => ?fence⟩
  case create =>
    have step := exec_of_serving serves may (exec_regionCreate i _ _ _ _ _ _ _ s)
      (Dev.regionCreate_of_valid (s := s.dev.start i 0 0xFFFF [resSlot 0xFFFF]) isM named pos top free room)
    exact ⟨_, s.dev.newRegion tenant base size, step, Dev.regions_created _ i tenant base size, rfl, rfl, rfl, rfl, rfl, rfl, rfl,
      Dev.frames_created _ i tenant base size, Dev.length_logWait_created _ i tenant base size⟩
  case destroy => exact exec_of_region serves may hr hn own rfl (if_neg (by simp [loose]))
  case attach =>
    refine exec_of_region serves may hr hn own rfl ((if_neg (by omega)).trans ?_)
    simp only [open_]
  case whole => exact exec_of_region serves may hr hn own rfl (if_pos rfl)
  case revoke =>
    refine exec_of_region serves may hr hn own rfl ((if_neg (by omega)).trans ((if_neg (by omega)).trans
      ((if_neg (by rw [there]; exact Bool.false_ne_true)).trans (if_neg ?_))))
    exact ne_true_of_eq_false quietly
  case fence =>
    subst tenants
    exact exec_of_serving serves may (exec_persistFence_of_tenant (by decide) i n gen s) rfl

/-- Settles O34: a run in range passes the checks of R231, and each action then acts on it. -/
theorem tierHintsActOnTheirRun : Obligations.TierHintsActOnTheirRun := by
  unfold Obligations.TierHintsActOnTheirRun
  intro s i n first count r serves may hn hr own inside some_ few d a m
  refine ⟨fun x hx => ?promote, ?_, ?_, ?_⟩
  case promote =>
    refine exec_of_tierHint serves may hr hn own inside some_ few rfl ?_
    simp only [d, a, m] at hx ⊢
    rw [hx]
  all_goals exact exec_of_tierHint serves may hr hn own inside some_ few rfl rfl

end Sys2Proof
end

section
/-! SUPPORT. The management function's commands, the commands with a buffer, and what refuses either (R394–R403). -/

namespace Sys2Proof.Machine

/-- What a ring command does, once it may start. -/
theorem exec_of_started {s : State} {c : Instr} {i : Issuer} {op kind named : Nat} {res : List Nat} {f : Dev → Dev} {d : Dev}
    (may : s.dev.mayStart i op res = true) (hc : exec c s = ringStep s i op kind named res f)
    (hf : f (s.dev.start i kind named res) = d) : exec c s = .next (s.did d) :=
  hc.trans (ringStep_of_mayStart may kind named hf)

theorem not_not_of_true {b : Bool} (h : b = true) : ¬ (!b) = true := by simp [h]

theorem not_isSome_of_none {α : Type} {o : Option α} (h : o = none) : ¬ o.isSome = true := by simp [h]

/-! ## A refusal behind an event -/

theorem Dev.psq_countUp (s : Dev) (cf sf : Field) (n : Nat) : (s.countUp cf sf n).1.psq = s.psq := by
  unfold Dev.countUp
  split
  · rfl
  · split <;> rfl

theorem Dev.psq_holdRecord (s : Dev) (e : Ev) (b : Bool) : (s.holdRecord e b).1.psq = s.psq := by
  obtain ⟨p, f, h⟩ := s.heldLevel_eq (8 * s.row.holding.length)
  unfold Dev.holdRecord
  split
  · rw [h]
  · exact Dev.psq_countUp _ _ _ _

/-- An event is held by PSQ at most; it says nothing of the links. -/
theorem Dev.linksDown_raise (s : Dev) (e : Ev) : (s.raise e).psq.linksDown = s.psq.linksDown := by
  unfold Dev.raise
  split
  · rfl
  · split
    · refine congrArg Psq.linksDown (?_ : (if e.writes = true then s.holdRecord e false else (s, none)).1.psq = s.psq)
      split
      · exact s.psq_holdRecord e false
      · rfl
    · split
      · rfl
      · split
        · exact congrArg Psq.linksDown (s.psq_holdRecord e false)
        · rfl

theorem Dev.owes.raise {s : Dev} {i : Issuer} (h : s.owes i) (e : Ev) : (s.raise e).owes i := by
  obtain ⟨x, hx, hw⟩ := h
  have ring : (s.raise e).ring i.func i.ring = s.ring i.func i.ring :=
    congrArg (fun t : Tab Ring => t.getD (i.func * 16 + i.ring) {}) (s.raise_books e).rings
  refine ⟨x, (congrArg (fun r : Ring => r.taken.find? fun t : Taken => t.tag == i.tag) ring).trans hx, ?_⟩
  rw [ring, Dev.linksDown_raise]
  exact hw

/-- A command whose effect, once it has started, is an event and its refusal is refused so. -/
theorem refusedAs_of_raise {s : State} {c : Instr} {i : Issuer} {op kind named : Nat} {res : List Nat} {f : Dev → Dev}
    {status detail : Nat} {e : Ev} (hq : quiet s) (hc : exec c s = ringStep s i op kind named res f)
    (hf : f (s.dev.start i kind named res) = ((s.dev.start i kind named res).raise e).refuseCmd i status detail) :
    refusedAs s c i op res status detail := fun may => by
  have answered := ((s.dev.start_answered i kind named res).trans (Dev.raise_books _ e).answered).trans
    (Dev.refuseCmd_answered _ i status detail)
  have sent := (((writesFor_iff_owes.mp may.2).start kind named res).raise e).mem_out_completeAt status detail 0 0 0
  exact ⟨_, hc.trans (ringStep_of_mayStart may.1 kind named hf), answered.onlyAnswered hq, _, _, rfl, sent, rfl, rfl, rfl⟩

/-- A state from which PATTERN_START does not start, where the issuer may start the engine (R244). -/
theorem Dev.patternStart_of_startable {s : Dev} {i : Issuer} {e prio credits : Nat} (he : e ≤ 15) (hp : prio ≤ 3) (hc : 0 < credits)
    (top : credits ≤ 1024) (bound : s.holdsBinding i e = true) (entry : Nat) (g : List (BitVec 64)) :
    ((s.engOn e = true ∨ s.engState e = 0 ∨ s.engLen e = 0 ∨ s.bit Reg.STI.CFG.ENABLE = false) →
      s.patternStart i e prio entry credits g = s.startRefused i e cState 0 0) ∧
    (¬ (s.engOn e = true ∨ s.engState e = 0 ∨ s.engLen e = 0 ∨ s.bit Reg.STI.CFG.ENABLE = false) →
      (s.mayStitch = false → s.patternStart i e prio entry credits g = s.startRefused i e cNotActive 0 0) ∧
      (s.mayStitch = true → 3072 < s.creditSum + credits → s.patternStart i e prio entry credits g = s.startRefused i e cNoResource 0 0) ∧
      (s.mayStitch = true → s.creditSum + credits ≤ 3072 →
        (∀ k, k < s.engLen e → stitchOk (s.engLen e) ((s.engine e).pattern.getD k 0) = false →
          ∃ j, s.patternStart i e prio entry credits g = s.startRefused i e cInvalidField 0 j) ∧
        ((∀ k, k < s.engLen e → stitchOk (s.engLen e) ((s.engine e).pattern.getD k 0) = true) → s.engLen e ≤ entry →
          s.patternStart i e prio entry credits g = s.refuseCmd i cInvalidField 22))) := by
  unfold Dev.patternStart
  rw [if_neg (by omega), if_neg (by omega), if_neg (by omega), if_neg (not_not_of_true bound)]
  simp only [Bool.not_eq_true']
  refine ⟨fun off => if_pos off, fun on => ?_⟩
  rw [if_neg on]
  refine ⟨fun idle => if_pos idle, fun may many => ?_, fun may within => ⟨fun k hk bad => ?_, fun valid past => ?_⟩⟩
  · exact (if_neg (ne_false_of_eq_true may)).trans (if_pos many)
  · have found : ((List.range (s.engLen e)).find? fun k => !stitchOk (s.engLen e) ((s.engine e).pattern.getD k 0)).isSome = true :=
      List.find?_isSome.mpr ⟨k, List.mem_range.mpr hk, by rw [bad]; rfl⟩
    obtain ⟨j, hj⟩ := Option.isSome_iff_exists.mp found
    rw [if_neg (ne_false_of_eq_true may), if_neg (by omega), hj]
    exact ⟨j, rfl⟩
  · have allOk : (List.range (s.engLen e)).find? (fun k => !stitchOk (s.engLen e) ((s.engine e).pattern.getD k 0)) = none :=
      List.find?_eq_none.mpr fun k hk => by rw [valid k (List.mem_range.mp hk)]; exact Bool.false_ne_true
    rw [if_neg (ne_false_of_eq_true may), if_neg (by omega), allOk]
    exact if_pos past

end Sys2Proof.Machine

namespace Sys2Proof
open Machine

/-- Settles O35: where the state allows it, each of the management function's commands passes its checks. -/
theorem managementCommandsTakeEffect : Obligations.ManagementCommandsTakeEffect := by
  unfold Obligations.ManagementCommandsTakeEffect
  intro s i manages
  have isM : ¬ (!i.isM) = true := not_not_of_true (Issuer.isM_eq_true manages)
  refine ⟨fun may => ?mirror, fun may => ?lease, fun may => ?round, fun m loan may hm hl => ?loan⟩
  case mirror =>
    intro d
    refine ⟨fun locked => exec_of_started may rfl ?_, fun ready => exec_of_started may rfl ?_⟩
    · exact (if_neg isM).trans (if_neg (not_not_of_true locked))
    · exact (if_neg isM).trans (if_neg (not_not_of_true ready))
  case lease =>
    intro d
    refine ⟨fun locked free => exec_of_started may rfl ?_, fun twin free => exec_of_started may rfl ?_⟩
    · exact (if_neg isM).trans ((if_neg (not_not_of_true locked)).trans (if_neg (not_isSome_of_none free)))
    · exact (if_neg isM).trans ((if_neg (Nat.not_le_of_lt twin)).trans (if_neg (not_isSome_of_none free)))
  case round =>
    intro d
    refine ⟨fun off free => exec_of_started may rfl ((if_neg isM).trans (if_neg ?_)), fun ref pairs inRound =>
      exec_of_started may rfl ((if_neg isM).trans ((if_neg ?_).trans (if_neg (not_not_intro inRound))))⟩
    · rintro (⟨h0, h4⟩ | held)
      · exact off.elim h0 h4
      · exact not_isSome_of_none free held
    · rintro (same | some_)
      · exact ref same
      · exact Bool.false_ne_true (pairs.symm.trans some_)
  case loan =>
    intro d
    refine ⟨fun lent => exec_of_started may rfl ?_, fun e he => exec_of_started may rfl ?_⟩
    · exact (if_neg isM).trans ((if_neg (by omega)).trans (if_neg (not_not_intro lent)))
    · refine (if_neg isM).trans ((if_neg (by omega)).trans ?_)
      simp only [d] at he
      rw [he]

/-- Settles O36: with its buffer in place each command passes its checks, and its output goes to the buffer or its input is used. -/
theorem bufferCommandsTakeEffect : Obligations.BufferCommandsTakeEffect := by
  unfold Obligations.BufferCommandsTakeEffect
  intro s i ptr aligned
  have misplaced : ¬ ptr % 4 ≠ 0 := not_not_intro aligned
  refine ⟨fun max may manages => ?events, fun first count len ok ready may => ?log, fun page len ok may manages room => ?telemetry,
    fun tenant nonce len ok may named room => ?attest, fun offset len m may manages some_ few inside => ?stage, fun may => ?referee⟩
  case events =>
    have isM : ¬ (!i.isM) = true := not_not_of_true (Issuer.isM_eq_true manages)
    exact exec_of_started may rfl ((if_neg isM).trans ((if_neg misplaced).trans (if_neg Bool.false_ne_true)))
  case log => exact exec_of_started may (exec_logRead_of_ready ready i first count len ptr ok) rfl
  case telemetry =>
    have isM : ¬ (!i.isM) = true := not_not_of_true (Issuer.isM_eq_true manages)
    exact exec_of_started may rfl ((if_neg fun h => isM h.1).trans ((if_neg (by omega)).trans (if_neg misplaced)))
  case attest => exact exec_of_started may rfl ((if_neg (by omega)).trans ((if_neg (by omega)).trans (if_neg misplaced)))
  case stage =>
    have isM : ¬ (!i.isM) = true := not_not_of_true (Issuer.isM_eq_true manages)
    have fits : ¬ stageSize 0 < offset + len := Nat.not_lt.mpr inside
    exact exec_of_started may rfl ((if_neg isM).trans ((if_neg (by decide)).trans ((if_neg (by omega)).trans ((if_neg fits).trans
      (if_neg misplaced)))))
  case referee =>
    intro d
    refine ⟨exec_of_started may rfl (if_neg misplaced), fun m key held => ⟨?_, fun tag wrong => ?_⟩⟩
    all_goals
      refine exec_of_started may rfl ((if_neg misplaced).trans ?_)
      simp only [d] at held
      dsimp only
      rw [held]
    · exact if_pos rfl
    · exact if_neg wrong

/-- Settles O37: each command's checks come in their order, and the first that fails decides. -/
theorem misplacedBuffersAreRefused : Obligations.MisplacedBuffersAreRefused := by
  unfold Obligations.MisplacedBuffersAreRefused
  intro s i ptr hq
  have pastM (h : i.func = 64) : ¬ (!i.isM) = true := not_not_of_true (Issuer.isM_eq_true h)
  refine ⟨fun manages odd => ⟨fun max ok => ?_, fun page len ok may room => ?_, fun page len ok may short => ?_,
      fun tenant nonce len ok may named room => ?_⟩, fun tenant nonce len ok => ⟨fun far => ?_, fun near short => ?_⟩,
    fun manages first count len ok ready => ⟨fun short => ?_, fun room odd => ?_⟩, fun first count len ok scan => ?_,
    fun manages max aligned => ?_, fun manages target offset len content => ?stage, fun answer ok odd => ⟨?_, ?_⟩, fun aligned => ?_,
    fun e first count len words => ?load, fun e prio entry credits g => ?start, fun e => ?stop, fun manages => ?manage⟩
  · exact refusedAs_of_refuseCmd hq rfl ((if_neg (pastM manages)).trans (if_pos odd))
  · exact refusedAs_of_refuseCmd hq rfl
      ((if_neg fun h => pastM manages h.1).trans ((if_neg (Nat.not_lt.mpr room)).trans (if_pos odd))) may
  · exact refusedAs_of_refuseCmd hq rfl ((if_neg fun h => pastM manages h.1).trans (if_pos short)) may
  · exact refusedAs_of_refuseCmd hq rfl ((if_neg (Nat.not_lt.mpr named)).trans ((if_neg (Nat.not_lt.mpr room)).trans (if_pos odd))) may
  · exact refusedAs_of_refuseCmd hq rfl (if_pos far)
  · exact refusedAs_of_refuseCmd hq rfl ((if_neg (Nat.not_lt.mpr near)).trans (if_pos short))
  · exact refusedAs_of_refuseCmd hq (exec_logRead_of_ready ready i first count len ptr ok)
      ((if_neg (pastM manages)).trans (if_pos short))
  · exact refusedAs_of_refuseCmd hq (exec_logRead_of_ready ready i first count len ptr ok)
      ((if_neg (pastM manages)).trans ((if_neg (Nat.not_lt.mpr room)).trans (if_pos odd)))
  · exact (exec_logRead_of_scan scan i first count len ptr ok).trans (congrArg _ (State.did_self_of_quiet hq))
  · exact refusedAs_of_completeAt hq rfl ((if_neg (pastM manages)).trans ((if_neg (not_not_intro aligned)).trans (if_pos rfl)))
  case stage =>
    intro refused
    refine ⟨fun far => ?_, fun near bad => ?_, fun near pos few past => ?_, fun near pos few inside odd => ?_,
      fun near pos few inside aligned lost => ?_⟩
    · exact refusedAs_of_refuseCmd hq rfl ((if_neg (pastM manages)).trans (if_pos far))
    · exact refusedAs_of_refuseCmd hq rfl ((if_neg (pastM manages)).trans ((if_neg (by omega)).trans (if_pos bad)))
    · exact refusedAs_of_refuseCmd hq rfl
        ((if_neg (pastM manages)).trans ((if_neg (by omega)).trans ((if_neg (by omega)).trans (if_pos past))))
    · exact refusedAs_of_refuseCmd hq rfl
        ((if_neg (pastM manages)).trans ((if_neg (by omega)).trans ((if_neg (by omega)).trans ((if_neg (by omega)).trans (if_pos odd)))))
    · subst lost
      exact refusedAs_of_completeAt hq rfl
        ((if_neg (pastM manages)).trans ((if_neg (by omega)).trans ((if_neg (by omega)).trans ((if_neg (by omega)).trans
          (if_neg (not_not_intro aligned))))))
  · exact refusedAs_of_refuseCmd hq rfl (if_pos odd)
  · exact refusedAs_of_refuseCmd hq rfl (if_pos odd)
  · exact refusedAs_of_completeAt hq rfl (if_neg (not_not_intro aligned))
  case load =>
    intro refused
    refine ⟨fun far => ?_, fun near bad => ?_, fun near pos few past => ?_, fun near pos few inside short => ?_,
      fun near pos few inside exact_ => ⟨fun odd => ?_, fun aligned on => ?_, fun aligned off lost => ?_⟩⟩
    · exact refusedAs_of_refuseCmd hq rfl (if_pos far)
    · exact refusedAs_of_refuseCmd hq rfl ((if_neg (by omega)).trans (if_pos bad))
    · exact refusedAs_of_refuseCmd hq rfl ((if_neg (by omega)).trans ((if_neg (by omega)).trans (if_pos past)))
    · exact refusedAs_of_refuseCmd hq rfl
        ((if_neg (by omega)).trans ((if_neg (by omega)).trans ((if_neg (by omega)).trans (if_pos short))))
    · exact refusedAs_of_refuseCmd hq rfl ((if_neg (by omega)).trans ((if_neg (by omega)).trans ((if_neg (by omega)).trans
        ((if_neg (not_not_intro exact_)).trans (if_pos odd)))))
    · exact refusedAs_of_refuseCmd hq rfl ((if_neg (by omega)).trans ((if_neg (by omega)).trans ((if_neg (by omega)).trans
        ((if_neg (not_not_intro exact_)).trans ((if_neg (not_not_intro aligned)).trans (if_pos on))))))
    · subst lost
      exact refusedAs_of_completeAt hq rfl ((if_neg (by omega)).trans ((if_neg (by omega)).trans ((if_neg (by omega)).trans
        ((if_neg (not_not_intro exact_)).trans ((if_neg (not_not_intro aligned)).trans (if_neg (ne_true_of_eq_false off)))))))
  case start =>
    intro refused
    refine ⟨fun far => ?_, fun near odd => ?_, fun near hp bad => ?_, fun near hp pos few => ⟨fun foreign => ?_, fun bound => ?_⟩⟩
    · exact refusedAs_of_refuseCmd hq rfl (if_pos far)
    · exact refusedAs_of_refuseCmd hq rfl ((if_neg (by omega)).trans (if_pos odd))
    · exact refusedAs_of_refuseCmd hq rfl ((if_neg (by omega)).trans ((if_neg (by omega)).trans (if_pos bad)))
    · exact refusedAs_of_refuseCmd hq rfl ((if_neg (by omega)).trans ((if_neg (by omega)).trans ((if_neg (by omega)).trans
        (if_pos (congrArg (!·) foreign)))))
    · obtain ⟨stateRefused, startable⟩ := Dev.patternStart_of_startable (s := s.dev.start i 0 e [resEngine e]) near hp pos few bound entry g
      refine ⟨fun off => refusedAs_of_raise hq (exec_patternStart i e prio entry credits g s) (stateRefused off),
        fun off loaded some_ enabled => ?_⟩
      obtain ⟨idle, many, words⟩ := startable (by
        rintro (h | h | h | h)
        · exact Bool.false_ne_true (off.symm.trans h)
        · exact loaded h
        · exact some_ h
        · exact Bool.false_ne_true (h.symm.trans enabled))
      refine ⟨fun h => refusedAs_of_raise hq (exec_patternStart i e prio entry credits g s) (idle h),
        fun h full => refusedAs_of_raise hq (exec_patternStart i e prio entry credits g s) (many h full),
        fun h fits k hk bad => ?_,
        fun h fits valid past => refusedAs_of_refuseCmd hq (exec_patternStart i e prio entry credits g s) ((words h fits).2 valid past)⟩
      obtain ⟨j, hj⟩ := (words h fits).1 k hk bad
      exact refusedAs_of_raise hq (exec_patternStart i e prio entry credits g s) hj
  case stop =>
    intro refused
    refine ⟨fun far => ?_, fun near foreign => ?_, fun near bound off => ?_⟩
    · exact refusedAs_of_refuseCmd hq rfl (if_pos far)
    · exact refusedAs_of_refuseCmd hq rfl ((if_neg (by omega)).trans (if_pos (congrArg (!·) foreign)))
    · exact refusedAs_of_refuseCmd hq rfl
        ((if_neg (by omega)).trans ((if_neg (not_not_of_true bound)).trans (if_pos (congrArg (!·) off))))
  case manage =>
    have isM := pastM manages
    refine ⟨fun alone => ⟨?_, ?_⟩, fun unready => ?_, fun locked busy => ?_, fun single => ?_, fun twin busy => ?_, fun off => ?_,
      fun kept => ?_, fun ref pairs outside => ?_, fun m loan => ⟨fun far => ⟨?_, ?_⟩, fun hm hl => ⟨fun other => ?_, fun none_ => ?_⟩⟩⟩
    · exact refusedAs_of_refuseCmd hq rfl ((if_neg isM).trans (if_pos (congrArg (!·) alone)))
    · exact refusedAs_of_refuseCmd hq rfl ((if_neg isM).trans (if_pos (congrArg (!·) alone)))
    · exact refusedAs_of_refuseCmd hq rfl ((if_neg isM).trans (if_pos (congrArg (!·) unready)))
    · exact refusedAs_of_refuseCmd hq rfl
        ((if_neg isM).trans ((if_neg (not_not_of_true locked)).trans (if_pos (Option.isSome_iff_ne_none.mpr busy))))
    · exact refusedAs_of_refuseCmd hq rfl ((if_neg isM).trans (if_pos single))
    · exact refusedAs_of_refuseCmd hq rfl
        ((if_neg isM).trans ((if_neg (Nat.not_le_of_lt twin)).trans (if_pos (Option.isSome_iff_ne_none.mpr busy))))
    · exact refusedAs_of_refuseCmd hq rfl ((if_neg isM).trans (if_pos (off.imp_right Option.isSome_iff_ne_none.mpr)))
    · exact refusedAs_of_refuseCmd hq rfl ((if_neg isM).trans (if_pos kept))
    · refine refusedAs_of_refuseCmd hq rfl ((if_neg isM).trans ((if_neg ?_).trans (if_pos outside)))
      rintro (same | some_)
      · exact ref same
      · exact Bool.false_ne_true (pairs.symm.trans some_)
    · exact refusedAs_of_refuseCmd hq rfl ((if_neg isM).trans (if_pos far))
    · exact refusedAs_of_refuseCmd hq rfl ((if_neg isM).trans (if_pos far))
    · exact refusedAs_of_refuseCmd hq rfl ((if_neg isM).trans ((if_neg (by omega)).trans (if_pos other)))
    · refine refusedAs_of_refuseCmd hq rfl ((if_neg isM).trans ((if_neg (by omega)).trans ?_))
      have same : (s.dev.start i 0 loan []).round.borrow.list.find? (fun e => e.1 / 1024 == m && e.2.loan == loan) = none := none_
      rw [same]

end Sys2Proof
end

section
/-! SUPPORT. Ring pairs: enable, doorbells, disable and the signal timer (R389–R393, R398). -/

namespace Sys2Proof.Machine

theorem Dev.ring_setRing_ne (s : Dev) {f r g q : Nat} (hr : r < 16) (hq : q < 16) (h : (g, q) ≠ (f, r)) (x : Ring) :
    (s.setRing f r x).ring g q = s.ring g q := by
  refine Tab.getD_putD_ne s.rings (fun same => h ?_) x {} {}
  have rq : q = r := by omega
  have rg : g = f := by omega
  rw [rq, rg]

theorem State.did_ring (s : State) (d : Dev) (f r : Nat) : (s.did d).dev.ring f r = d.ring f r := rfl

theorem Dev.ring_raise (s : Dev) (e : Ev) (f r : Nat) : (s.raise e).ring f r = s.ring f r :=
  congrArg (fun t : Tab Ring => t.getD (f * 16 + r) {}) (s.raise_books e).rings

/-- A ring as RING_ENABLE leaves it, with its global number (R390). -/
def Ring.enabled (x : Ring) (gring : Nat) : Ring :=
  { x with enable := true, state := 1, gring, err := 0, tail := 0, sqHead := 0, cqTail := 0, cqHead := 0, phase := true
           unsignalled := 0, mute := false }

/-- The number that RING_ENABLE takes from the pool, and the device once it has been chosen (R388). -/
def Dev.takeRingNumber (s : Dev) : Nat × Dev := (s.ringPool.getD (s.choose s.ringPool.length).1 0, (s.choose s.ringPool.length).2)

theorem Dev.ringEnable_of_free {s : Dev} {f r : Nat} (off : (s.ring f r).state = 0) (sq : (s.ring f r).sqBase % 4096 = 0)
    (cq : (s.ring f r).cqBase % 4096 = 0) (few : s.ringsOf f < s.ringCount f) (pool : s.ringPool.isEmpty = false) :
    s.ringEnable f r = (s.takeRingNumber.2.setRing f r ((s.ring f r).enabled s.takeRingNumber.1)).raise
      (cmdEv 0x220 false f s.takeRingNumber.1 0 0 0xFFFF 0 0 0) := by
  have within : ¬ (s.ringCount f ≤ s.ringsOf f ∨ s.ringPool.isEmpty = true) := by simp [pool, few]
  unfold Dev.ringEnable Dev.takeRingNumber Ring.enabled
  dsimp only
  rw [if_neg (not_not_intro off), if_neg fun h => h.elim (· sq) (· cq), if_neg within]

end Sys2Proof.Machine

namespace Sys2Proof
open Machine

/-- Settles O38: each of them writes its own ring, and no other. -/
theorem ringsRun : Obligations.RingsRun := by
  unfold Obligations.RingsRun
  intro s f r hq hr x
  have kept {d : Dev} (h : d.out = s.dev.out) : s.did d = withDev s d := s.did_eq_withDev (h.trans hq)
  refine ⟨fun hf off sq cq few pool => ?enable, fun n running inside => ?tail, fun n on inside => ?head, fun on idle => ?stop,
    fun on busy => ?drain, fun irq timed owed => ?signal⟩
  case enable =>
    have he := Dev.ringEnable_of_free off sq cq few pool
    generalize cmdEv 0x220 false f s.dev.takeRingNumber.1 0 0 0xFFFF 0 0 0 = e at he
    have rings : s.dev.takeRingNumber.2.rings = s.dev.rings := rfl
    generalize s.dev.takeRingNumber = p at he rings
    have ring : (s.did ((p.2.setRing f r (x.enabled p.1)).raise e)).dev.ring f r = x.enabled p.1 :=
      (s.did_ring _ f r).trans ((Dev.ring_raise _ e f r).trans (Dev.ring_setRing_same _ f r _))
    have step : exec (.ringEnable f r) s = .next (s.did (s.dev.ringEnable f r)) := State.next_did_congr s (if_pos ⟨hf, hr⟩)
    rw [he] at step
    refine ⟨_, step, congrArg Ring.state ring, congrArg Ring.tail ring,
      congrArg Ring.sqHead ring, congrArg Ring.cqTail ring, congrArg Ring.cqHead ring, congrArg Ring.phase ring, fun g q hg other => ?_⟩
    refine (s.did_ring _ g q).trans <| (Dev.ring_raise _ e g q).trans ((Dev.ring_setRing_ne _ hr hg other _).trans ?_)
    exact congrArg (fun t : Tab Ring => t.getD (g * 16 + q) {}) rings
  case tail =>
    have step : s.dev.tailWrite f r n = s.dev.setRing f r { x with tail := n } :=
      (if_neg (not_not_intro running)).trans (if_neg (Nat.not_le_of_lt inside))
    exact (State.next_did_congr s step).trans (congrArg _ (kept rfl))
  case head =>
    have step : s.dev.headWrite f r n = s.dev.setRing f r { x with cqHead := n } := (if_neg on).trans (if_neg (Nat.not_le_of_lt inside))
    exact (State.next_did_congr s step).trans (congrArg _ (kept rfl))
  case stop =>
    have step : s.dev.ringDisable f r = s.dev.setRing f r { x with enable := false, state := 0 } :=
      congrArg (s.dev.setRing f r) ((if_neg on).trans (if_pos (List.isEmpty_iff.mpr idle)))
    exact (State.next_did_congr s step).trans (congrArg _ (kept rfl))
  case drain =>
    have step : s.dev.ringDisable f r = s.dev.setRing f r { x with enable := false, state := 2 } :=
      congrArg (s.dev.setRing f r) ((if_neg on).trans (if_neg fun h => busy (List.isEmpty_iff.mp h)))
    exact (State.next_did_congr s step).trans (congrArg _ (kept rfl))
  case signal => exact State.next_did_congr s (if_pos ⟨irq, timed, owed⟩)

end Sys2Proof
end

section
/-! SUPPORT. A host's request as it leaves the link (R41, R43, R65, R73, R107). -/

namespace Sys2Proof.Machine

theorem Dev.Books.fm {s t : Dev} (h : Dev.Books s t) : t.fm = s.fm := by
  obtain ⟨_, _, _, _, rfl⟩ := h
  rfl

/-- The request that a link brings, of LD `g` and a line, as RTE meets it. -/
def LinkReq.hostReq (r : LinkReq) (s : Dev) (g line : Nat) : HostReq :=
  { head := r.head, gld := g, tag := r.tag, line, write := r.write, poisoned := r.poisoned, epoch := (s.head r.head).resets
    lat := (s.headAdd r.head).1, noise := r.noise }

theorem Dev.linkTake_of_closed {s : Dev} {r : LinkReq} (h : s.gldOf r.head r.ld = none ∨ s.memOpen r.head = false) :
    s.linkTake r = s := by
  unfold Dev.linkTake
  split
  · rfl
  · next g hg =>
    rcases h with h | h
    · exact absurd (h.symm.trans hg) (by simp)
    · exact if_pos (by rw [h]; rfl)

theorem Dev.linkTake_of_noCredit {s : Dev} {r : LinkReq} {g : Nat} (hg : s.gldOf r.head r.ld = some g) (open_ : s.memOpen r.head = true)
    (full : s.noCredit r = true) : s.linkTake r = { s with linkWait := s.linkWait ++ [r] } := by
  unfold Dev.linkTake
  simp only [hg]
  rw [if_neg (not_not_of_true open_), if_pos full]

/-- What becomes of a request that its head takes, by where its address leads. -/
theorem Dev.linkTake_of_credit {s : Dev} {r : LinkReq} {g : Nat} (hg : s.gldOf r.head r.ld = some g) (open_ : s.memOpen r.head = true)
    (credit : s.noCredit r = false) :
    s.linkTake r = match s.hpaToDpa g r.hpa with
      | none => (s.headAdd r.head).2.decodeMiss (r.hostReq s g 0)
      | some dpa =>
        let u := (s.headAdd r.head).2
        let q := r.hostReq s g (dpa / 64)
        if !s.serves then (u.refuse q).raiseFirst (mirEv u 0x1FA false u.role none 0 0 none none)
        else match s.regionAt (granOf q.line) with
          | none => (u.refuse q).raise (rteEv 0x050 q.line)
          | some (_, reg) =>
            if !reg.attached.contains g then (u.refuse q).raise (rteEv 0x050 q.line)
            else if !reg.home && !reg.mirror then (u.refuse q).raise (mirEv u 0x1FB false u.role none 0 0 (some (granOf q.line)) none)
            else u.arrive q := by
  unfold Dev.linkTake
  simp only [hg]
  rw [if_neg (not_not_of_true open_), if_neg (ne_true_of_eq_false credit)]
  rfl

theorem Dev.linkTake_of_region {s : Dev} {r : LinkReq} {g dpa n : Nat} {reg : Region} (hg : s.gldOf r.head r.ld = some g)
    (open_ : s.memOpen r.head = true) (credit : s.noCredit r = false) (hd : s.hpaToDpa g r.hpa = some dpa) (serves : s.serves = true)
    (hr : s.regionAt (granOf (dpa / 64)) = some (n, reg)) (attached : reg.attached.contains g = true)
    (here : reg.home = true ∨ reg.mirror = true) :
    s.linkTake r = (s.headAdd r.head).2.arrive (r.hostReq s g (dpa / 64)) := by
  rw [Dev.linkTake_of_credit hg open_ credit, hd]
  have held : ¬ (!reg.home && !reg.mirror) = true := by rcases here with h | h <;> simp [h]
  have region : s.regionAt (granOf (r.hostReq s g (dpa / 64)).line) = some (n, reg) := hr
  simp only [region]
  rw [if_neg (not_not_of_true serves), if_neg (not_not_of_true attached), if_neg held]

/-- The answer to a request that comes to nothing: poison for a read, done for a write. -/
def HostReq.refusal (q : HostReq) (load : Nat) : Output :=
  if q.write.isNone then .readData q.head q.gld q.tag none load (q.lat + 0) else .writeDone q.head q.gld q.tag load (q.lat + 0)

theorem Dev.refuse_of_asked {s : Dev} {q : HostReq} (via : q.via = .host) (live : s.live q = true) :
    s.refuse q = s.send (q.refusal (s.devLoad q.head)) := by
  unfold Dev.refuse HostReq.refusal
  cases hw : q.write with
  | none =>
    unfold Dev.answerRead
    simp only [via]
    exact if_pos live
  | some _ =>
    unfold Dev.answerWrite
    simp only [via]
    exact if_pos live

/-- A request that no decoder covers, or of a region not attached to its LD, is refused, and otherwise only told of. -/
theorem Dev.linkTake_of_unattached {s : Dev} {r : LinkReq} {g : Nat} (hg : s.gldOf r.head r.ld = some g) (open_ : s.memOpen r.head = true)
    (credit : s.noCredit r = false) (h : s.hpaToDpa g r.hpa = none ∨ s.serves = true ∧ ∃ dpa, s.hpaToDpa g r.hpa = some dpa ∧
      ∀ n reg, s.regionAt (granOf (dpa / 64)) = some (n, reg) → reg.attached.contains g = false) :
    ∃ line, Dev.Books ((s.headAdd r.head).2.refuse (r.hostReq s g line)) (s.linkTake r) := by
  rw [Dev.linkTake_of_credit hg open_ credit]
  rcases h with h | ⟨serves, dpa, hd, out⟩
  · rw [h]
    exact ⟨0, ((Dev.countUp_books _ _ _ _).trans (Dev.count_books _ _ _ _ _)).trans (Dev.raise_books _ _)⟩
  · rw [hd]
    refine ⟨dpa / 64, ?_⟩
    dsimp only
    rw [if_neg (not_not_of_true serves)]
    split
    · exact Dev.raise_books _ _
    · next n reg hr =>
      rw [if_pos (by rw [out n reg hr]; rfl)]
      exact Dev.raise_books _ _

end Sys2Proof.Machine

namespace Sys2Proof
open Machine

/-- Settles O41: the checks of a request on its way from the link, in their order. -/
theorem hostRequestsReachTheirLine : Obligations.HostRequestsReachTheirLine := by
  unfold Obligations.HostRequestsReachTheirLine
  intro s c H ld hpa tag w bad noise l asked d u
  let x : LinkReq := ⟨H, ld, hpa, tag, w, bad, noise⟩
  have step : exec c s = .next (s.did (d.linkTake x)) := by
    rcases asked with ⟨rfl, rfl, rfl⟩ | ⟨be, x, rfl, rfl⟩ <;> rfl
  refine ⟨fun g dpa n r hg open_ credit hd serves hr attached here => ?reaches, fun g hg open_ full => ?waits, fun closed => ?none_,
    fun g hq hg open_ credit lost => ?refused⟩
  case reaches =>
    have request : x.hostReq d g (dpa / 64) =
      { head := H, gld := g, tag, line := dpa / 64, write := w, poisoned := bad
        epoch := (s.dev.head H).resets, lat := (d.headAdd H).1, noise } := rfl
    have reach := Dev.linkTake_of_region (s := d) (r := x) hg open_ credit hd serves hr attached here
    rw [request] at reach
    exact step.trans (State.next_did_congr s reach)
  case waits => exact step.trans (State.next_did_congr s (Dev.linkTake_of_noCredit (s := d) (r := x) hg open_ full))
  case none_ => exact step.trans (State.next_did_congr s (Dev.linkTake_of_closed (s := d) (r := x) closed))
  case refused =>
    obtain ⟨line, books⟩ := Dev.linkTake_of_unattached (s := d) (r := x) hg open_ credit lost
    rw [Dev.refuse_of_asked rfl (beq_self_eq_true _)] at books
    obtain ⟨out, frames, lc, -⟩ := books.keeps
    have quietOut : s.dev.out = [] := hq
    refine ⟨_, u.devLoad H, (d.headAdd H).1 + 0, step, frames, lc, books.fm, ?_⟩
    exact congrArg (· ++ s.sent) (out.trans (congrArg (_ :: ·) quietOut))

end Sys2Proof
end

section
/-! SUPPORT. A read that misses the cache and finds its granule never written (R39, R41 row 4). -/

namespace Sys2Proof.Machine

theorem Dev.get_count48_of_addr (s : Dev) {f lo hi : Field} (hl : f.addr ≠ lo.addr) (hh : f.addr ≠ hi.addr) (row : f.addr ≠ 0x8c0024)
    (hf : f.lo < 32) (ll : lo.lo < 32) (lh : hi.lo < 32) (n : Nat) (e : Ev) : (s.count48 lo hi n e).get f = s.get f := by
  have words (v w : Nat) : ((s.set lo v).set hi w).get f = s.get f :=
    (Dev.get_set_of_addr _ hh hf lh _).trans (Dev.get_set_of_addr _ hl hf ll _)
  unfold Dev.count48
  dsimp only
  split
  · exact (Dev.get_raise_of_addr _ row hf _).trans (words _ _)
  · exact words _ _

/-- What a book entry leaves of the frame map's reading: all of it, unless the image's drives are written. -/
theorem Dev.Books.fme {s t : Dev} (h : Dev.Books s t)
    (drives : t.get Reg.NVH.IMG_CFG.DRIVE_MASK = s.get Reg.NVH.IMG_CFG.DRIVE_MASK) (g : Nat) : t.fme g = s.fme g := by
  have mask : t.imageMask = s.imageMask := by
    obtain ⟨_, _, _, _, rfl⟩ := h
    rfl
  refine Dev.fme_congr s t h.fm ?_ h.keeps.2.2.2.2.1 (Dev.imageDrives_congr mask drives) g
  obtain ⟨_, _, _, _, rfl⟩ := h
  rfl

theorem Dev.lcRead_of_miss {s : Dev} {line : Nat} (miss : s.lc.get? line = none) : s.lcRead line = (s, none) := by
  simp only [Dev.lcRead, Dev.lcWord, Dev.lcTouch, miss]

/-- A look at a granule's entry in the cache finds it, where no word of it is struck. -/
theorem Dev.fmLook_of_cached {s : Dev} {g : Nat} (cached : s.fmc.has (g / 8) = true) (sound : s.flips.list = []) (noise : BitVec 640) :
    s.fmLook g noise = (s, some false) := by
  unfold Dev.fmLook
  rw [if_pos cached, Dev.sramRead_none s sound]

/-- The lookups of a line of a granule in F, its entry in the cache, cost nothing and change nothing (R98). -/
theorem Dev.lookups_of_flash {s : Dev} {q : HostReq} (cached : s.fmc.has (granOf q.line / 8) = true) (sound : s.flips.list = [])
    (flash : (s.fme (granOf q.line)).tier = .F) : s.lookups q = (s, some { q with looked := true }) := by
  have stays : s.stamp (granOf q.line) 0 = s := if_pos flash
  unfold Dev.lookups
  dsimp only
  rw [Dev.fmLook_of_cached cached sound]
  dsimp only
  rw [stays]
  simp only [flash, reduceCtorEq, if_false, Bool.false_eq_true]

/-- A read's first look at O counts what it misses (R94). -/
def Dev.noteMiss (s : Dev) (q : HostReq) : Dev :=
  if q.looked then s else s.count48 Reg.LC.MISS_LO.COUNT Reg.LC.MISS_HI.COUNT 1 (Ev.plain 0x060)

theorem Dev.noteMiss_books (s : Dev) (q : HostReq) : Dev.Books s (s.noteMiss q) := by
  unfold Dev.noteMiss
  split
  · exact .refl s
  · exact s.count48_books _ _ _ _

theorem Dev.fme_noteMiss (s : Dev) (q : HostReq) (g : Nat) : (s.noteMiss q).fme g = s.fme g := by
  refine (s.noteMiss_books q).fme ?_ g
  unfold Dev.noteMiss
  split
  · rfl
  · exact s.get_count48_of_addr (by decide) (by decide) (by decide) (by decide) (by decide) (by decide) _ _

/-- A read of a line of a granule never written, not resident and in no cache, is answered with zeros. -/
theorem Dev.serveRead_of_unwritten {s : Dev} {q : HostReq} (miss : s.lc.get? q.line = none) (sound : s.flips.list = [])
    (cached : s.fmc.has (granOf q.line / 8) = true) (clean : s.poison.has q.line = false) (flash : (s.fme (granOf q.line)).tier = .F)
    (unwritten : (s.fme (granOf q.line)).ew = false) (n : Nat) (reg : Region) :
    s.serveRead n reg q = (s.noteMiss q).answerRead { q with looked := true } (some 0) (latZero reg.enc) := by
  have kept : (s.noteMiss q).flips = s.flips ∧ (s.noteMiss q).fmc = s.fmc ∧ (s.noteMiss q).poison = s.poison := by
    obtain ⟨_, _, _, _, h⟩ := s.noteMiss_books q
    rw [h]
    exact ⟨rfl, rfl, rfl⟩
  obtain ⟨flips, fmc, poison⟩ := kept
  have found : (s.noteMiss q).lookups q = (s.noteMiss q, some { q with looked := true }) := by
    refine Dev.lookups_of_flash ?_ ?_ ?_
    · rw [fmc]; exact cached
    · rw [flips]; exact sound
    · rw [Dev.fme_noteMiss]; exact flash
  have looked : (if q.looked = true then s else s.count48 Reg.LC.MISS_LO.COUNT Reg.LC.MISS_HI.COUNT 1 (Ev.plain 0x060)) =
    s.noteMiss q := rfl
  unfold Dev.serveRead
  simp only [Dev.lcRead_of_miss miss, looked, found, Dev.fme_noteMiss, flash, unwritten, poison, clean]
  rfl

theorem Dev.watchFire_engines (s : Dev) (n : Nat) (reg : Region) (q : HostReq) :
    ∃ engines, s.watchFire n reg q = { s with engines } := by
  unfold Dev.watchFire
  dsimp only
  split
  · exact ⟨s.engines, rfl⟩
  · exact ⟨_, rfl⟩

/-- A read that nothing on its line is before, and that no watch, key or rebuild holds up, is served at once. -/
theorem Dev.arrive_of_read {s : Dev} {q : HostReq} {n : Nat} {reg : Region} (read : q.write = none) (idle : s.lineBusy q.line = false)
    (hr : s.regionAt (granOf q.line) = some (n, reg)) (kept : s.memoryLost = false) (serves : s.serves = true)
    (built : s.rebuilding (granOf q.line) = false) (keyed : (reg.enc && s.reloads) = false) :
    s.arrive q = (s.watchFire n reg q).serveRead n reg q := by
  have passes : ¬ (s.lineBusy q.line || s.copying q) = true := by simp [idle, Dev.copying, read]
  have stays : ¬ (s.memoryLost || (q.via == .host && !s.serves && !q.admitted)) = true := by simp [kept, serves]
  have ready : ¬ (s.rebuilding (granOf q.line) || (reg.enc && s.reloads)) = true := by simp [built, keyed]
  unfold Dev.arrive
  rw [if_neg passes]
  unfold Dev.serve
  simp only [hr, read]
  rw [if_neg stays, if_neg ready]

theorem Dev.answerRead_of_asked {s : Dev} {q : HostReq} (via : q.via = .host) (live : s.live q = true) (d : Option LineData) (lat : Nat) :
    s.answerRead q d lat = s.send (.readData q.head q.gld q.tag d (s.devLoad q.head) (q.lat + lat)) := by
  unfold Dev.answerRead
  simp only [via]
  exact if_pos live

/-- What is told of a read and its watches: registers, ROW, FCO, PSQ and engines. -/
theorem Dev.noteMiss_watchFire_keeps (s : Dev) (n : Nat) (reg : Region) (q : HostReq) :
    ∃ regs row fco psq engines, (s.watchFire n reg q).noteMiss q = { s with regs, row, fco, psq, engines } := by
  obtain ⟨engines, he⟩ := s.watchFire_engines n reg q
  obtain ⟨regs, row, fco, psq, hb⟩ := (s.watchFire n reg q).noteMiss_books q
  rw [hb, he]
  exact ⟨regs, row, fco, psq, engines, rfl⟩

theorem Dev.serveRead_watchFire_of_unwritten {s : Dev} {q : HostReq} (miss : s.lc.get? q.line = none) (sound : s.flips.list = [])
    (cached : s.fmc.has (granOf q.line / 8) = true) (clean : s.poison.has q.line = false) (flash : (s.fme (granOf q.line)).tier = .F)
    (unwritten : (s.fme (granOf q.line)).ew = false) (n : Nat) (reg : Region) :
    (s.watchFire n reg q).serveRead n reg q =
      ((s.watchFire n reg q).noteMiss q).answerRead { q with looked := true } (some 0) (latZero reg.enc) := by
  obtain ⟨engines, he⟩ := s.watchFire_engines n reg q
  rw [he]
  exact Dev.serveRead_of_unwritten (s := { s with engines }) miss sound cached clean flash unwritten n reg

end Sys2Proof.Machine

namespace Sys2Proof
open Machine

/-- Settles O42: the read misses the cache, finds its granule in F and never written, and is answered with zeros. -/
theorem unwrittenGranuleReadsZero : Obligations.UnwrittenGranuleReadsZero := by
  unfold Obligations.UnwrittenGranuleReadsZero
  intro s H ld hpa tag g dpa n r noise l hq d hg open_ credit hd serves hr attached here idle kept built keyed miss sound cached clean
    flash unwritten
  let x : LinkReq := ⟨H, ld, hpa, tag, none, false, noise⟩
  let u : Dev := (d.headAdd H).2
  let q : HostReq := x.hostReq d g (dpa / 64)
  have taken : d.linkTake x = u.arrive q := Dev.linkTake_of_region (s := d) (r := x) hg open_ credit hd serves hr attached here
  have served : u.arrive q = (u.watchFire n r q).serveRead n r q :=
    Dev.arrive_of_read (s := u) (q := q) rfl idle hr kept serves built keyed
  have zero : (u.watchFire n r q).serveRead n r q =
      ((u.watchFire n r q).noteMiss q).answerRead { q with looked := true } (some 0) (latZero r.enc) :=
    Dev.serveRead_watchFire_of_unwritten (s := u) (q := q) miss sound cached clean flash unwritten n r
  obtain ⟨regs, row, fco, psq, engines, told⟩ := u.noteMiss_watchFire_keeps n r q
  rw [told] at zero
  have live : ({ u with regs, row, fco, psq, engines } : Dev).live { q with looked := true } = true := beq_self_eq_true _
  rw [Dev.answerRead_of_asked rfl live] at zero
  have quietOut : s.dev.out = [] := hq
  refine ⟨_, _, _, State.next_did_congr s (taken.trans (served.trans zero)), congrArg (_ :: · ++ s.sent) quietOut, rfl, rfl, rfl, rfl, rfl⟩

end Sys2Proof
end

section
/-! SUPPORT. The registers that act: LOCK_ALL, the mailbox of the island, IRQ_ACK, MCTP, calibration, EXTEST and the region log. -/

namespace Sys2Proof.Machine

/-! ## Locks (R487, R490) -/

/-- A lock, at a word of its own: bit 0, reset 0. -/
def lockAt (a : Nat) : Field := ⟨a, 0, 1, 0⟩

theorem Dev.bit_setLock (s : Dev) (a b : Nat) :
    (s.setBit (lockAt a) true).bit (lockAt b) = if b = a then true else s.bit (lockAt b) := by
  by_cases h : b = a
  · subst h
    rw [if_pos rfl]
    exact congrArg (· != 0) (Dev.get_set_same s (lockAt b) 1)
  · rw [if_neg h]
    have key : (lockAt b).key ≠ (lockAt a).key := fun same => h (by
      have words : b * 32 + 0 = a * 32 + 0 := same
      omega)
    exact congrArg (· != 0) (Dev.get_set_ne s key 1)

/-- A block's lock stands in one of five words of the block, none of which ROW counts lost records in. -/
theorem lockField_eq_some {c : Nat} {f : Field} (h : lockField c = some f) : ∃ a, f = lockAt a ∧ a ≠ 0x8c0024 := by
  obtain ⟨o, ho, rfl⟩ := Option.map_eq_some_iff.mp h
  refine ⟨c * 0x40000 + o, rfl, ?_⟩
  unfold lockOff at ho
  split at ho
  · obtain rfl := Option.some.inj ho
    omega
  · split at ho
    · obtain rfl := Option.some.inj ho
      omega
    · split at ho
      · obtain rfl := Option.some.inj ho
        omega
      · split at ho
        · obtain rfl := Option.some.inj ho
          omega
        · split at ho
          · obtain rfl := Option.some.inj ho
            omega
          · exact absurd ho (by simp)

/-- A block's lock is set, where it has one. -/
def Dev.lockBlock (s : Dev) (c : Nat) : Dev := match lockField c with | some f => s.setBit f true | none => s

theorem foldl_of_lockBlock {f : Dev → Nat → Dev} (h : ∀ s c, f s c = s.lockBlock c) : List.foldl f = List.foldl Dev.lockBlock := by
  rw [show f = Dev.lockBlock from funext fun s => funext (h s)]

theorem Dev.lockAll_eq (s : Dev) :
    s.lockAll = ((List.range 64).foldl Dev.lockBlock s |>.setBit (lockAt 0x40) true).raise
      (((List.range 64).foldl Dev.lockBlock s).glbEv 0x000) := by
  have lock : Reg.GLB.LOCK_ALL.LOCK = lockAt 0x40 := rfl
  unfold Dev.lockAll
  dsimp only
  rw [foldl_of_lockBlock, lock]
  exact fun _ _ => rfl

theorem Dev.lockBlock_keeps {s : Dev} {a : Nat} (h : s.bit (lockAt a) = true) (c : Nat) : (s.lockBlock c).bit (lockAt a) = true := by
  unfold Dev.lockBlock
  split
  · next f hf =>
    obtain ⟨b, rfl, -⟩ := lockField_eq_some hf
    rw [Dev.bit_setLock, h, ite_self]
  · exact h

theorem Dev.lockBlocks_keep {a : Nat} (l : List Nat) {s : Dev} (h : s.bit (lockAt a) = true) :
    (l.foldl Dev.lockBlock s).bit (lockAt a) = true := by
  induction l generalizing s with
  | nil => exact h
  | cons c r ih => exact ih (Dev.lockBlock_keeps h c)

theorem Dev.lockBlocks_lock {a c : Nat} (hc : lockField c = some (lockAt a)) {l : List Nat} (mem : c ∈ l) (s : Dev) :
    (l.foldl Dev.lockBlock s).bit (lockAt a) = true := by
  induction l generalizing s with
  | nil => exact absurd mem List.not_mem_nil
  | cons b r ih =>
    rcases List.mem_cons.mp mem with rfl | later
    · refine Dev.lockBlocks_keep r ?_
      unfold Dev.lockBlock
      simp only [hc]
      rw [Dev.bit_setLock, if_pos rfl]
    · exact ih later _

/-- What the blocks' locks show stands after LOCK_ALL shows its own 1 and its event is raised. -/
theorem Dev.bit_lockAll {s : Dev} {a : Nat} (away : a ≠ 0x8c0024)
    (h : a = 0x40 ∨ ((List.range 64).foldl Dev.lockBlock s).bit (lockAt a) = true) : s.lockAll.bit (lockAt a) = true := by
  rw [Dev.lockAll_eq]
  refine (congrArg (· != 0) (Dev.get_raise_of_addr _ away (of_decide_eq_true rfl) _)).trans ?_
  refine (Dev.bit_setLock _ 0x40 a).trans ?_
  rcases h with h | h
  · exact if_pos h
  · rw [h, ite_self]

theorem Dev.lockBlocks_regs (l : List Nat) (s : Dev) : ∃ regs, l.foldl Dev.lockBlock s = { s with regs } := by
  induction l generalizing s with
  | nil => exact ⟨s.regs, rfl⟩
  | cons c r ih =>
    have one : ∃ regs, s.lockBlock c = { s with regs } := by
      unfold Dev.lockBlock
      split
      · exact ⟨_, rfl⟩
      · exact ⟨s.regs, rfl⟩
    obtain ⟨regs, h⟩ := one
    obtain ⟨regs', h'⟩ := ih (s.lockBlock c)
    rw [List.foldl_cons, h', h]
    exact ⟨regs', rfl⟩

theorem Dev.out_lockAll (s : Dev) : s.lockAll.out = s.out := by
  obtain ⟨regs, h⟩ := Dev.lockBlocks_regs (List.range 64) s
  rw [Dev.lockAll_eq, h]
  exact (Dev.raise_books _ _).keeps.1

/-! ## Writes of two words of BAR0 (R484) -/

section
variable {s : Dev} {off code o v : Nat} {t : RegTmpl} {i : List Nat} (aligned : off % 4 = 0) (small : off < 2 ^ 24) (word : v < 2 ^ 32)
  (hcode : off / 0x40000 = code) (ho : off % 0x40000 = o) (reg : regAt code o = some (t, i))
  (opened : t.fields.filter (s.fieldOpen code o) = t.fields) (some_ : t.fields.isEmpty = false) (shut : s.shut code o v = false)
include aligned small word hcode ho reg opened some_ shut

/-- A value out of a field's range, or against a rule, is discarded. -/
theorem Dev.busWrite_of_bad (bad : (!(t.fields.all (·.inRange v)) || !s.ruleOk code o v) = true) : s.busWrite off v = s.discard off 2 := by
  unfold Dev.busWrite Dev.wordWrite
  rw [if_neg (not_not_intro aligned), Nat.mod_eq_of_lt small, Nat.mod_eq_of_lt word]
  simp only [hcode, ho, reg, opened, some_, shut, bad, Bool.false_eq_true, if_false, if_true]

theorem Dev.busWrite_of_act (good : (!(t.fields.all (·.inRange v)) || !s.ruleOk code o v) = false) {u : Dev}
    (act : s.actWrite code o v = some u) : s.busWrite off v = u := by
  unfold Dev.busWrite Dev.wordWrite
  rw [if_neg (not_not_intro aligned), Nat.mod_eq_of_lt small, Nat.mod_eq_of_lt word]
  simp only [hcode, ho, reg, opened, some_, shut, good, act, Bool.false_eq_true, if_false]

theorem Dev.busWrite_of_stored (good : (!(t.fields.all (·.inRange v)) || !s.ruleOk code o v) = false)
    (act : s.actWrite code o v = none) :
    s.busWrite off v = ((s.beforeWrite code o v).storeFields code o v t i).afterWrite s code o v := by
  unfold Dev.busWrite Dev.wordWrite
  rw [if_neg (not_not_intro aligned), Nat.mod_eq_of_lt small, Nat.mod_eq_of_lt word]
  simp only [hcode, ho, reg, opened, some_, shut, good, act, Bool.false_eq_true, if_false]

end

/-- A write uses the low 32 bits of its value. -/
theorem Dev.busWrite_mod (s : Dev) (off v : Nat) : s.busWrite off (v % 2 ^ 32) = s.busWrite off v := by
  unfold Dev.busWrite
  rw [Nat.mod_mod]

/-- LOCK_ALL takes every write (R490). -/
theorem Dev.busWrite_lockAll (s : Dev) (v : Nat) : s.busWrite 0x40 v = if v % 2 = 1 then s.lockAll else s := by
  have word : v % 2 ^ 32 < 2 ^ 32 := Nat.mod_lt v (by decide)
  have bit : (v % 2 ^ 32).testBit 0 = decide (v % 2 = 1) := by
    rw [Nat.testBit_mod_two_pow, Nat.testBit_zero]
    rfl
  have act : s.actWrite 0 0x40 (v % 2 ^ 32) = some (if v % 2 = 1 then s.lockAll else s) := by
    refine (if_pos ⟨rfl, rfl⟩).trans (congrArg some ?_)
    rw [bit]
    by_cases h : v % 2 = 1 <;> simp [h]
  have reg : regAt 0 0x40 = some (⟨0x40, [], [⟨0, 1, .w1s, 0, none, []⟩]⟩, []) := rfl
  rw [← s.busWrite_mod]
  exact Dev.busWrite_of_act rfl (by decide) word rfl rfl reg rfl rfl rfl rfl act

/-- MBOX_CTL: LEN_IN in its low 10 bits, from 1 to 512, and GO above them (R494). -/
def mboxCtl : RegTmpl := ⟨0x8, [], [⟨0, 10, .rw, 0, some (1, 512), []⟩, ⟨10, 1, .w1s, 0, none, []⟩]⟩

theorem bitsAt_mboxGo (len : Nat) : bitsAt (len % 1024 + 1024) 0 10 = len % 1024 := by
  unfold bitsAt
  omega

theorem mboxCtl_inRange (len : Nat) :
    mboxCtl.fields.all (·.inRange (len % 1024 + 1024)) = decide (1 ≤ len % 1024 ∧ len % 1024 ≤ 512) := by
  have field : RegField.inRange ⟨0, 10, .rw, 0, some (1, 512), []⟩ (len % 1024 + 1024) =
      (decide (1 ≤ bitsAt (len % 1024 + 1024) 0 10) && decide (bitsAt (len % 1024 + 1024) 0 10 ≤ 512)) := rfl
  have all : mboxCtl.fields.all (·.inRange (len % 1024 + 1024)) =
      (RegField.inRange ⟨0, 10, .rw, 0, some (1, 512), []⟩ (len % 1024 + 1024) && true) := rfl
  rw [all, field, bitsAt_mboxGo, Bool.and_true, Bool.decide_and]

theorem Dev.storeFields_mboxGo (s : Dev) (len : Nat) :
    s.storeFields 0x21 0x8 (len % 1024 + 1024) mboxCtl [] = s.set Reg.MGC.MBOX_CTL.LEN_IN (len % 1024) := by
  have stored : s.storeFields 0x21 0x8 (len % 1024 + 1024) mboxCtl [] =
    s.set Reg.MGC.MBOX_CTL.LEN_IN (bitsAt (len % 1024 + 1024) 0 10) := rfl
  rw [stored, bitsAt_mboxGo]

/-- A length in range is kept, and GO hands the request to the island. -/
theorem Dev.busWrite_mboxGo (s : Dev) {len : Nat} (pos : 1 ≤ len % 1024) (top : len % 1024 ≤ 512) :
    s.busWrite 0x840008 (len % 1024 + 1024) = (s.set Reg.MGC.MBOX_CTL.LEN_IN (len % 1024)).mboxGo := by
  have go : (len % 1024 + 1024).testBit 10 = true := by
    rw [Nat.testBit_eq_decide_div_mod_eq, decide_eq_true_iff]
    omega
  have good : (!(mboxCtl.fields.all (·.inRange (len % 1024 + 1024))) || !s.ruleOk 0x21 0x8 (len % 1024 + 1024)) = false := by
    rw [mboxCtl_inRange, decide_eq_true ⟨pos, top⟩]
    rfl
  have after (d : Dev) : d.afterWrite s 0x21 0x8 (len % 1024 + 1024) = if (len % 1024 + 1024).testBit 10 then d.mboxGo else d := rfl
  have stored := Dev.busWrite_of_stored (s := s) (off := 0x840008) (v := len % 1024 + 1024) (t := mboxCtl) (i := []) rfl (by decide)
    (by omega) rfl rfl rfl rfl rfl rfl good rfl
  rw [stored, after, if_pos go]
  exact congrArg Dev.mboxGo (s.storeFields_mboxGo len)

theorem Dev.busWrite_mboxGo_of_bad (s : Dev) {len : Nat} (bad : ¬ (1 ≤ len % 1024 ∧ len % 1024 ≤ 512)) :
    s.busWrite 0x840008 (len % 1024 + 1024) = s.discard 0x840008 2 := by
  have refused : (!(mboxCtl.fields.all (·.inRange (len % 1024 + 1024))) || !s.ruleOk 0x21 0x8 (len % 1024 + 1024)) = true := by
    rw [mboxCtl_inRange, decide_eq_false bad]
    rfl
  exact Dev.busWrite_of_bad (t := mboxCtl) (i := []) rfl (by decide) (by omega) rfl rfl rfl rfl rfl rfl refused

/-! ## The island's mailbox (R494) -/

theorem Dev.mboxGo_of_free {s : Dev} (free : s.bit Reg.MGC.MBOX_STS.BUSY = false) {v : Nat} :
    (s.set Reg.MGC.MBOX_CTL.LEN_IN v).mboxGo =
      { (s.set Reg.MGC.MBOX_CTL.LEN_IN v).setBit Reg.MGC.MBOX_STS.BUSY true with island := { s.island with mailbox := true } } := by
  have same : (s.set Reg.MGC.MBOX_CTL.LEN_IN v).bit Reg.MGC.MBOX_STS.BUSY = false :=
    (congrArg (· != 0) (s.get_set_of_addr (by decide) (by decide) (by decide) v)).trans free
  exact if_neg (ne_true_of_eq_false same)

theorem Dev.mboxGo_of_busy {s : Dev} (busy : s.bit Reg.MGC.MBOX_STS.BUSY = true) {v : Nat} :
    (s.set Reg.MGC.MBOX_CTL.LEN_IN v).mboxGo = s.set Reg.MGC.MBOX_CTL.LEN_IN v := by
  have same : (s.set Reg.MGC.MBOX_CTL.LEN_IN v).bit Reg.MGC.MBOX_STS.BUSY = true :=
    (congrArg (· != 0) (s.get_set_of_addr (by decide) (by decide) (by decide) v)).trans busy
  exact if_pos same

theorem Dev.setWords_regs (l : List (Word × Nat)) (s : Dev) :
    ∃ regs, l.foldl (fun s x => s.set (Reg.MGC.MBOX_OUT.DATA x.2) x.1.toNat) s = { s with regs } := by
  induction l generalizing s with
  | nil => exact ⟨s.regs, rfl⟩
  | cons x r ih =>
    obtain ⟨regs, h⟩ := ih (s.set (Reg.MGC.MBOX_OUT.DATA x.2) x.1.toNat)
    rw [List.foldl_cons, h]
    exact ⟨regs, rfl⟩

/-- The device with the answer's words in MBOX_OUT, and the request no longer the island's. -/
def Dev.mboxWords (s : Dev) (l : List Word) : Dev :=
  (l.take 512).zipIdx.foldl (fun s x => s.set (Reg.MGC.MBOX_OUT.DATA x.2) x.1.toNat)
    { s with island := { s.island with mailbox := false } }

theorem exec_mboxAnswer {s : State} (held : s.dev.island.mailbox = true) (r : Nat) (l : List Word) :
    exec (.mboxAnswer r l) s = .next (s.did (((((s.dev.mboxWords l).set Reg.MGC.MBOX_STS.LEN_OUT (l.take 512).length).set
      Reg.MGC.MBOX_STS.RESULT r).setBit Reg.MGC.MBOX_STS.BUSY false).setBit Reg.MGC.MBOX_STS.DONE true)) :=
  State.next_did_congr s (if_neg (not_not_of_true held))

/-- Fields of one word, set one after another, keep what they were set to. -/
theorem Dev.get_set_after {s : Dev} {f g : Field} (h : g.lo ≠ f.lo) (hg : g.lo < 32) (hf : f.lo < 32) {v x : Nat}
    (before : s.get g = x) : (s.set f v).get g = x := (s.get_set_of_lo h hg hf v).trans before

/-! ## Calibration, the region log -/

/-- A tracked item's correction is stored, and with it its user offset comes into force (R462). -/
theorem exec_calibrationTrackingUpdate {s : State} {i : Nat} (tracked : calTracked i = true) (tr : Int) :
    ∃ d : Dev, Dev.Books { s.dev with cal := s.dev.cal.putD i { s.dev.cal.getD i {} with track := tr, live := (s.dev.cal.getD i {}).user } {} } d ∧
      exec (.calibrationTrackingUpdate i tr) s = .next (s.did d) := by
  refine ⟨_, ?_, State.next_did_congr s (if_neg (not_not_of_true tracked))⟩
  dsimp only
  split
  · exact Dev.raise_books _ _
  · exact .refl _

theorem Dev.regionLogged_of_idle {s : Dev} (h : s.logWait = []) : s.regionLogged = s := by
  unfold Dev.regionLogged
  rw [h]

/-- What follows a record, once it is programmed (R37). -/
def Dev.afterLog (s : Dev) : AfterLog → Dev
  | .command cmd who r0 r1 => s.commandDone cmd who r0 r1
  | .mailbox g op => s.send (.mailbox g op 0 [])
  | .ackCmd a cid psn => s.ackLater a cid psn
  | .released who => s.dcAnswer who cSuccess 0 0 opDcRelease 0

theorem Dev.regionLogged_of_cons {s : Dev} {w : LogWait} {rest : List LogWait} (h : s.logWait = w :: rest) :
    s.regionLogged = w.after.foldl Dev.afterLog
      { s with logWait := rest, regionLog := s.regionLog.program s.imageKey s.image.imageId w.recd } := by
  unfold Dev.regionLogged
  rw [h]
  exact congrArg (fun f => w.after.foldl f _) (funext fun d => funext fun a => by cases a <;> rfl)

/-- A half in use that keeps its mark and its generation stays in use. -/
theorem RegionLog.setHalf_inUse (l : RegionLog) {h : LogHalf} (complete : h.complete = l.current.complete) (gen : h.gen = l.current.gen) :
    (l.setHalf l.inUse h).inUse = l.inUse := by
  unfold RegionLog.current at complete gen
  cases hb : l.inUse
  · rw [hb] at complete gen
    have same : (l.setHalf false h).inUse = l.inUse := by
      show (l.half1.complete && (!h.complete || decide (h.gen < l.half1.gen))) = l.inUse
      rw [complete, gen]
      rfl
    rw [same, hb]
  · rw [hb] at complete gen
    have same : (l.setHalf true h).inUse = l.inUse := by
      show (h.complete && (!l.half0.complete || decide (l.half0.gen < h.gen))) = l.inUse
      rw [complete, gen]
      rfl
    rw [same, hb]

theorem RegionLog.current_of_inUse {l : RegionLog} {b : Bool} (h : l.inUse = b) : l.current = if b then l.half1 else l.half0 := by
  rw [← h]
  rfl

/-- A record that the half in use has room for goes behind the others (R37). -/
theorem RegionLog.program_of_room {l : RegionLog} (room : l.current.recs.length < logHalfRecs) (key : List Nat) (image : Nat)
    (r : RegionLogRec) : (l.program key image r).current = { l.current with recs := l.current.recs ++ [r] } ∧
      (l.program key image r).inUse = l.inUse := by
  have step : l.program key image r = l.setHalf l.inUse { l.current with recs := l.current.recs ++ [r] } := if_pos room
  have kept := l.setHalf_inUse (h := { l.current with recs := l.current.recs ++ [r] }) rfl rfl
  rw [step]
  refine ⟨(RegionLog.current_of_inUse kept).trans ?_, kept⟩
  cases l.inUse <;> rfl

/-- With the half full, the live records move to the other, and the record behind them (R37). -/
theorem RegionLog.program_of_full {l : RegionLog} (full : logHalfRecs ≤ l.current.recs.length) (key : List Nat) (image : Nat)
    (r : RegionLogRec) : (l.program key image r).inUse = (!l.inUse) ∧
      (l.program key image r).current =
        { gen := l.current.gen + 1, complete := true, recs := liveRecs key image l.current.recs ++ [r] } := by
  let new : LogHalf := { gen := l.current.gen + 1, complete := true, recs := liveRecs key image l.current.recs ++ [r] }
  have step : l.program key image r = (l.setHalf (!l.inUse) new).setHalf l.inUse {} := if_neg (Nat.not_lt.mpr full)
  have moved : (l.program key image r).inUse = !l.inUse := by
    rw [step]
    cases l.inUse <;> rfl
  refine ⟨moved, (RegionLog.current_of_inUse moved).trans ?_⟩
  rw [step]
  cases l.inUse <;> rfl

end Sys2Proof.Machine

namespace Sys2Proof
open Machine

/-- Settles O60: each of these commands does what R37, R382, R462, R486, R490 and R494 give it, and otherwise changes nothing. -/
theorem registerCommandsTakeEffect : Obligations.RegisterCommandsTakeEffect := by
  unfold Obligations.RegisterCommandsTakeEffect
  intro s hq
  have kept {d : Dev} (h : d.out = s.dev.out) : s.did d = withDev s d := s.did_eq_withDev (h.trans hq)
  have discards := State.did_discard_of_quiet hq 0x840008 2
  refine ⟨fun v => ?lock, Dev.bit_lockAll (a := 0x40) (by decide) (.inl rfl), fun c fd hc hfd => ?locked, fun len pos top free => ?go,
    fun len pos top busy => ?again, fun len bad => ?bad, fun free r l => ?nobody, fun held r l => ?answer, fun id => ?ack,
    fun off n ok => ?read, fun off n no => ?noRead, fun off l ok => ?write, fun off l no => ?noWrite, fun i tr tracked => ?track,
    fun i tr fixed => ?fixed, rfl, ?extest, fun none_ => ?idle, fun w rest d hw hd => ?logged,
    fun l key image r => ⟨fun room => RegionLog.program_of_room room key image r, fun full => RegionLog.program_of_full full key image r⟩⟩
  case lock =>
    refine (State.next_did_congr s (s.dev.busWrite_lockAll v)).trans (congrArg _ ?_)
    split
    · exact kept s.dev.out_lockAll
    · exact State.did_self_of_quiet hq
  case locked =>
    obtain ⟨a, rfl, away⟩ := lockField_eq_some hfd
    exact Dev.bit_lockAll away (.inr (Dev.lockBlocks_lock hfd (List.mem_range.mpr hc) s.dev))
  case go =>
    have small : len % 1024 = len := Nat.mod_eq_of_lt (by omega)
    have write := s.dev.busWrite_mboxGo (len := len) (by omega) (by omega)
    rw [small, Dev.mboxGo_of_free free] at write
    refine ⟨_, State.next_did_congr s ((congrArg (s.dev.busWrite 0x840008) (by rw [small])).trans write), ?_, ?_, rfl, ?_⟩
    · refine (Dev.get_set_of_addr _ (by decide) (by decide) (by decide) _).trans ((Dev.get_set_same _ _ _).trans ?_)
      exact Nat.mod_eq_of_lt (by show len < 2 ^ 10; omega)
    · exact congrArg (· != 0) (Dev.get_set_same _ Reg.MGC.MBOX_STS.BUSY 1)
    · exact congrArg (· ++ s.sent) hq
  case again =>
    have small : len % 1024 = len := Nat.mod_eq_of_lt (by omega)
    have write := s.dev.busWrite_mboxGo (len := len) (by omega) (by omega)
    rw [small, Dev.mboxGo_of_busy busy] at write
    exact (State.next_did_congr s ((congrArg (s.dev.busWrite 0x840008) (by rw [small])).trans write)).trans (congrArg _ (kept rfl))
  case bad => exact (State.next_did_congr s (s.dev.busWrite_mboxGo_of_bad (by omega))).trans (congrArg _ discards)
  case nobody => exact (State.next_did_congr s (if_pos (congrArg (!·) free))).trans (congrArg _ (State.did_self_of_quiet hq))
  case answer =>
    obtain ⟨regs, hw⟩ := Dev.setWords_regs (l.take 512).zipIdx { s.dev with island := { s.dev.island with mailbox := false } }
    have words : s.dev.mboxWords l = { s.dev with island := { s.dev.island with mailbox := false }, regs } := hw
    have step := exec_mboxAnswer held r l
    rw [words] at step
    refine ⟨_, step, ?_, ?_, ?_, ?_, rfl, ?_⟩
    · exact congrArg (· != 0) (Dev.get_set_after (f := Reg.MGC.MBOX_STS.DONE) (by decide) (by decide) (by decide) (Dev.get_set_same _ _ _))
    · exact congrArg (· != 0) (Dev.get_set_same _ Reg.MGC.MBOX_STS.DONE 1)
    · exact Dev.get_set_after (by decide) (by decide) (by decide)
        (Dev.get_set_after (by decide) (by decide) (by decide) (Dev.get_set_same _ _ _))
    · refine Dev.get_set_after (by decide) (by decide) (by decide) (Dev.get_set_after (by decide) (by decide) (by decide)
        (Dev.get_set_after (by decide) (by decide) (by decide) ((Dev.get_set_same _ _ _).trans ?_)))
      rw [List.length_take]
      exact Nat.mod_eq_of_lt (by show min 512 l.length < 2 ^ 10; omega)
    · exact congrArg (· ++ s.sent) hq
  case ack =>
    have step : exec (.irqAck id) s = .next (s.did (s.dev.irqAck id)) := rfl
    exact step.trans (congrArg _ (kept rfl))
  case read => exact State.next_did_congr s (if_pos ok)
  case noRead =>
    exact (State.next_did_congr s (if_neg (ne_true_of_eq_false no))).trans (congrArg _ (State.did_send_of_quiet hq _))
  case write => exact State.next_did_congr s (if_pos ok)
  case noWrite =>
    exact (State.next_did_congr s (if_neg (ne_true_of_eq_false no))).trans (congrArg _ (State.did_send_of_quiet hq _))
  case track =>
    obtain ⟨d, books, step⟩ := exec_calibrationTrackingUpdate tracked tr
    have cal : d.cal = s.dev.cal.putD i { s.dev.cal.getD i {} with track := tr, live := (s.dev.cal.getD i {}).user } {} := by
      obtain ⟨_, _, _, _, rfl⟩ := books
      rfl
    refine ⟨_, step, ?_, fun j hj => ?_, congrArg (· ++ s.sent) (books.keeps.1.trans hq)⟩
    · exact (congrArg (fun t : Tab CalItem => t.getD i {}) cal).trans (Tab.getD_putD_same _ _ _ _)
    · exact (congrArg (fun t : Tab CalItem => t.getD j {}) cal).trans (Tab.getD_putD_ne _ hj _ _ _)
  case fixed => exact (State.next_did_congr s (if_pos (congrArg (!·) fixed))).trans (congrArg _ (State.did_self_of_quiet hq))
  case extest =>
    have step : exec (.extestInstructionUpdate false) s = .next (s.did (s.dev.setPsq fun p => { p with extest := false })) := rfl
    exact step.trans (congrArg _ (kept rfl))
  case idle => exact (State.next_did_congr s (Dev.regionLogged_of_idle none_)).trans (congrArg _ (State.did_self_of_quiet hq))
  case logged =>
    have step : exec .regionLogRecordProgrammed s = .next (s.did (w.after.foldl Dev.afterLog d)) :=
      State.next_did_congr s ((Dev.regionLogged_of_cons hw).trans (by rw [hd]))
    have out : d.out = s.dev.out := by rw [hd]
    refine ⟨fun nothing => ?_, fun cmd who r0 r1 one => ?_, fun g op one => ?_, fun a cid psn one => ?_, fun who one => ?_⟩
    · rw [step, nothing]
      exact congrArg _ (kept out)
    · rw [step, one]
      rfl
    · rw [step, one]
      exact congrArg (fun t : State => Host.Outcome.next (sends t (.mailbox g op 0 []))) (kept out)
    · rw [step, one]
      rfl
    · rw [step, one]
      rfl

end Sys2Proof
end

section
/-! SUPPORT. The power sequencer, the resets and the clocks (R444–R464): the state that each input meets, and what a reset leaves. -/

namespace Sys2Proof.Machine

/-! ## The state of the sequencer -/

theorem Dev.psqState_setBit_pwron (s : Dev) (b : Bool) : (s.setBit Reg.PSQ.STS.PWRON b).psqState = s.psqState :=
  s.get_set_of_lo (by decide) (by decide) (by decide) _

theorem Dev.psqState_setBit_pfail (s : Dev) (b : Bool) : (s.setBit Reg.PSQ.STS.PFAIL b).psqState = s.psqState :=
  s.get_set_of_lo (by decide) (by decide) (by decide) _

theorem Dev.psqState_raise (s : Dev) (e : Ev) : (s.raise e).psqState = s.psqState :=
  s.get_raise_of_addr (by decide) (by decide) e

/-- A field that reads something else than 0 is set. -/
theorem Dev.bit_of_get {s : Dev} {f : Field} {v : Nat} (h : s.get f = v) (k : v ≠ 0) : s.bit f = true := bne_iff_ne.2 (h ▸ k)

/-! ## PWRON and PFAIL (R447, R448) -/

theorem Dev.pwronOn_eq (s : Dev) : s.pwronOn = let d := s.setBit Reg.PSQ.STS.PWRON true
    if s.psqState = 0 then (if d.mayPowerUp then d.startPreflight else d)
    else if s.psqState = 5 ∨ s.psqState = 6 ∨ s.psqState = 7 then d.pendingOn else d := by
  unfold Dev.pwronOn
  simp only [Dev.psqState_setBit_pwron]
  split
  · next h => simp [h]
  · next h => simp [h]
  · next h => simp [h]
  · next h => simp [h]
  · next h0 h5 h6 h7 =>
    have hno : ¬ (s.psqState = 5 ∨ s.psqState = 6 ∨ s.psqState = 7) := fun h => h.elim h5 fun h => h.elim h6 h7
    exact (if_neg h0 ▸ if_neg hno ▸ rfl)

theorem Dev.pwronOff_eq (s : Dev) : s.pwronOff = let d := s.setBit Reg.PSQ.STS.PWRON false
    if s.psqState = 2 then d.setPsqState 0 else if s.psqState = 3 then d.offInUp else if s.psqState = 4 then d.orderlyOff
    else if s.psqState = 8 then d.setPsqState 1 else d := by
  unfold Dev.pwronOff
  simp only [Dev.psqState_setBit_pwron]
  split
  · next h => simp [h]
  · next h => simp [h]
  · next h => simp [h]
  · next h => simp [h]
  · next h2 h3 h4 h8 => rw [if_neg h2, if_neg h3, if_neg h4, if_neg h8]

theorem Dev.pfailOn_eq (s : Dev) : s.pfailOn = let d := s.setBit Reg.PSQ.STS.PFAIL true
    if s.psqState = 2 then d.setPsqState 0 else if s.psqState = 3 then d.offInUp
    else if s.psqState = 4 then (d.rowPowerFail.abandonSigned).powerFlush .powerFail
    else if s.psqState = 5 then (if d.psq.flush = some .powerFail then d
      else (d.rowPowerFail.abandonSigned).setPsq fun p => { p with flush := p.flush.map fun _ => .powerFail })
    else d := by
  unfold Dev.pfailOn
  simp only [Dev.psqState_setBit_pfail]
  split
  · next h => simp [h]
  · next h => simp [h]
  · next h => simp [h]
  · next h => simp [h]
  · next h2 h3 h4 h5 => rw [if_neg h2, if_neg h3, if_neg h4, if_neg h5]

theorem Dev.pfailOff_of_off {s : Dev} (h : s.psqState = 0) : s.pfailOff =
    if (s.setBit Reg.PSQ.STS.PFAIL false).mayPowerUp then (s.setBit Reg.PSQ.STS.PFAIL false).startPreflight
    else s.setBit Reg.PSQ.STS.PFAIL false := by
  unfold Dev.pfailOff
  simp only [Dev.psqState_setBit_pfail, h, true_and]

theorem Dev.pfailOff_of_not_off {s : Dev} (h : s.psqState ≠ 0) : s.pfailOff = s.setBit Reg.PSQ.STS.PFAIL false := by
  unfold Dev.pfailOff
  simp only [Dev.psqState_setBit_pfail, h, false_and, if_false]

/-! ## What a reset leaves (R424, R459, R460) -/

theorem Dev.Books.ite {s t u : Dev} {c : Prop} [Decidable c] (h : Dev.Books s t) (k : Dev.Books s u) : Dev.Books s (if c then t else u) := by
  by_cases hc : c
  · rwa [if_pos hc]
  · rwa [if_neg hc]

theorem Dev.rowFull_books (s : Dev) : Dev.Books s s.rowFull := by
  unfold Dev.rowFull
  split
  · split
    · exact (s.set_books _ _).trans (Dev.raise_books _ _)
    · exact .refl s
  · split
    · exact s.set_books _ _
    · exact .refl s

theorem Dev.lostReport_books (s : Dev) : Dev.Books s s.lostReport :=
  .ite ((s.setRow_books _).trans (Dev.raiseMs_books _ _)) (.refl s)

theorem Dev.rowErase_books (s : Dev) : Dev.Books s s.rowErase := by
  unfold Dev.rowErase
  split
  · exact .refl s
  · dsimp only
    split
    · exact s.setRow_books _
    · exact .refl s

theorem Dev.rowProgram_books (s : Dev) (now : Bool) : Dev.Books s (s.rowProgram now) := .ite (s.setRow_books _) (.refl s)

theorem Dev.rowPump_books (s : Dev) : Dev.Books s s.rowPump :=
  ((s.rowFull_books.trans (Dev.lostReport_books _)).trans (Dev.rowErase_books _)).trans (Dev.rowProgram_books _ _)

theorem Dev.presentHeld_books (s : Dev) : Dev.Books s s.presentHeld := (s.setPsq_books _).trans (Dev.raiseAll_books _ _)

/-- What a chip reset keeps of a device that has committed its page (R488), before its registers say why. -/
def Dev.resetKept (s : Dev) : Dev :=
  { Dev.reset with
    clock := s.clock, fresh := s.fresh, regs := s.regs.filter fun k _ => keptReg k, media := s.media
    regionLog := s.regionLog, refLog := s.refLog, island := s.island.kept
    row := { s.row with pushed := 8 * s.row.holding.length % 2048, lvlPend := false }
    psq := { s.psq with reset := none, flush := none, linksDown := false, accepts := false, fuse := false }
    cks := { rtc := s.cks.rtc, rtcAt := s.cks.rtcAt, rewrite := s.cks.rewrite, calBase := rtcNs s.rtcNow, calAt := s.clock
             tnow0 := s.clock, kicked := s.clock }
    out := s.out }

/-- A chip reset keeps no line on chip, no frame, and nothing that waits (R488). -/
def Dev.Forgets (d : Dev) : Prop :=
  d.lc = .empty ∧ d.mdc = .empty ∧ d.fmc = .empty ∧ d.frames = .empty ∧ d.held = .empty ∧ d.rteWait = []

theorem Dev.Books.forgets {s t : Dev} (h : Dev.Books s t) (hs : s.Forgets) : t.Forgets := by
  obtain ⟨regs, row, fco, psq, rfl⟩ := h
  exact hs

theorem Dev.Books.sramInit_forgets {s t : Dev} (h : Dev.Books s t) (hs : s.Forgets) : t.sramInit.Forgets :=
  have ⟨_, _, _, hf, hh, hw⟩ := h.forgets hs
  ⟨rfl, rfl, rfl, hf, hh, hw⟩

theorem Dev.resetKept_forgets (s : Dev) : s.resetKept.Forgets := ⟨rfl, rfl, rfl, rfl, rfl, rfl⟩

theorem Dev.chipReset_eq (s : Dev) (cause : Nat) :
    ∃ u, Dev.Books s.rowDrain.holdInbox.resetKept u ∧ s.chipReset cause = u.sramInit.presentHeld := by
  refine ⟨_, ?_, rfl⟩
  exact (((Dev.set_books _ _ _).trans (Dev.setBit_books _ _ _)).trans (Dev.set_books _ _ _)).trans
    (.ite (.refl _) ((Dev.set_books _ _ _).trans (Dev.rowPump_books _)))

theorem Dev.chipReset_forgets (s : Dev) (cause : Nat) : (s.chipReset cause).Forgets := by
  obtain ⟨u, hu, he⟩ := s.chipReset_eq cause
  exact he ▸ (Dev.presentHeld_books _).forgets (hu.sramInit_forgets (Dev.resetKept_forgets _))

/-! ## The reset of the always-on domain (R459, R462) -/

/-- The step program is loaded into registers, and no more changes. -/
theorem Dev.foldl_set_books (field : Nat → Field) (value : Nat → Nat) (l : List Nat) (s : Dev) :
    Dev.Books s (l.foldl (fun s i => s.set (field i) (value i)) s) := by
  induction l generalizing s with
  | nil => exact .refl s
  | cons i l ih => exact (s.set_books _ _).trans (ih _)

theorem Dev.loadProgram_books (s : Dev) : Dev.Books s s.loadProgram := by
  unfold Dev.loadProgram
  dsimp only
  split
  · exact s.foldl_set_books _ _ _
  · exact ((s.set_books _ _).trans (Dev.set_books _ _ _)).trans (Dev.raise_books _ _)

/-- What the always-on reset leaves of a device `s`: all that is not volatile, and no frame and no line on chip. -/
def Dev.LeftBy (s t : Dev) : Prop :=
  t.media = s.media ∧ t.regionLog = s.regionLog ∧ t.refLog = s.refLog ∧ t.island = s.island.kept ∧ t.frames = .empty ∧ t.lc = .empty

theorem Dev.Books.leftBy {s t u : Dev} (h : Dev.Books t u) (hs : s.LeftBy t) : s.LeftBy u := by
  obtain ⟨regs, row, fco, psq, rfl⟩ := h
  exact hs

theorem Dev.LeftBy.ite {s t u : Dev} {c : Prop} [Decidable c] (h : s.LeftBy t) (k : s.LeftBy u) : s.LeftBy (if c then t else u) := by
  by_cases hc : c
  · rwa [if_pos hc]
  · rwa [if_neg hc]

theorem Dev.LeftBy.send {s t : Dev} (h : s.LeftBy t) (o : Output) : s.LeftBy (t.send o) := h

theorem Dev.LeftBy.raise {s t : Dev} (h : s.LeftBy t) (e : Ev) : s.LeftBy (t.raise e) := (t.raise_books e).leftBy h

theorem Dev.LeftBy.cks {s t : Dev} (h : s.LeftBy t) (cks : Cks) : s.LeftBy { t with cks } := h

theorem Dev.vaonReset_leftBy (s : Dev) (rtcKept fuseOk : Bool) : s.LeftBy (s.vaonReset rtcKept fuseOk) := by
  unfold Dev.vaonReset
  refine (Dev.loadProgram_books _).leftBy ?_
  have told {t : Dev} {b : Bool} {o : Output} (h : s.LeftBy t) : s.LeftBy (if b then t.send o else t) := .ite (h.send o) h
  have checked {t : Dev} {b : Bool} {f : Field} {e : Ev} (h : s.LeftBy t) : s.LeftBy (if b then t.setBit f true else t.raise e) :=
    .ite ((t.setBit_books f true).leftBy h) (h.raise e)
  have valid {t : Dev} {b : Bool} {e : Ev} (h : s.LeftBy t) : s.LeftBy (if b then t else t.raise e) := .ite h (h.raise e)
  refine told (checked (valid (.cks ((Dev.setBit_books _ _ _).leftBy ?_) _)))
  exact ⟨rfl, rfl, rfl, rfl, rfl, rfl⟩

/-! ## Rails and requests -/

theorem Dev.railLevel_books (s : Dev) (slot : Nat) (good : Bool) (mv : Nat) : Dev.Books s (s.railLevel slot good mv) :=
  .ite ((s.set_books _ _).trans (Dev.setPsq_books _ _)) (s.set_books _ _)

theorem Dev.setPsq_same_cycle (s : Dev) : (s.setPsq fun p => { p with cycle := p.cycle || false }) = s := by
  simp [Dev.setPsq]

theorem Dev.setPsq_cycle (s : Dev) : (s.setPsq fun p => { p with cycle := p.cycle || true }) = s.setPsq fun p => { p with cycle := true } := by
  simp [Dev.setPsq]

theorem Dev.Books.cks {s t : Dev} (h : Dev.Books s t) : t.cks = s.cks := by
  obtain ⟨regs, row, fco, psq, rfl⟩ := h
  rfl

/-! ## The clocks (R456–R461) -/

/-- An emergency reset, by the state it meets: its event leaves the state of the sequencer as it is. -/
theorem Dev.emergency_eq (s : Dev) : s.emergency = let u := s.raise (s.pwrEv 0x269 0 0 0 s.psqState 0xFF 8 0 0)
    if s.psqState = 4 then u.setPsq fun q => { q with reset := some 8, flush := none }
    else if s.psqState = 5 then (u.setPsq fun q => { q with flush := none }).startDown else u := by
  unfold Dev.emergency
  simp only [Dev.psqState_raise]

/-- In ON, with no flush and no reset under way, a request starts the flush before it. -/
theorem Dev.requestReset_of_on {s : Dev} (h4 : s.psqState = 4) (hf : s.psq.flush = none) (hr : s.psq.reset = none) (c : Nat) :
    s.requestReset c = ((s.setPsq fun p => { p with reset := some c }).raise (s.pwrEv 0x268 0 0 0 4 0xFF c 0 0)).startFlush .preReset :=
  if_neg (by simp [h4, hf, hr])

/-- The end of a flush reads its image, its event and its counts as they stood: only HLD.STATUS.STATE changes before. -/
theorem Dev.flushDone_eq (s : Dev) (k : FlushKind) : s.flushDone k =
    let d := (if s.get Reg.NVH.IMG_STS.STATE = 7 ∧ s.image.clean = true then
      (s.set Reg.HLD.STATUS.STATE 5).raise (s.hldPlain 0x1B6 4 5) else s.set Reg.HLD.STATUS.STATE 5).setPsq fun p => { p with flush := none }
    if k = .preReset then d else d.startDown := by
  have img : (s.set Reg.HLD.STATUS.STATE 5).get Reg.NVH.IMG_STS.STATE = s.get Reg.NVH.IMG_STS.STATE :=
    s.get_set_of_addr (by decide) (by decide) (by decide) _
  have ev : (s.set Reg.HLD.STATUS.STATE 5).hldPlain 0x1B6 4 5 = s.hldPlain 0x1B6 4 5 := by
    have field {f : Field} (h : f.addr ≠ Reg.HLD.STATUS.STATE.addr) (lo : f.lo < 32) :
        (s.set Reg.HLD.STATUS.STATE 5).get f = s.get f := s.get_set_of_addr h lo (by decide) _
    unfold Dev.hldPlain hldEv
    rw [field (f := Reg.HLD.LIMIT_EFF.SRC) (by decide) (by decide), field (f := Reg.HLD.DIRTY_COUNT.COUNT) (by decide) (by decide),
      field (f := Reg.HLD.HELD_CTR.COUNT) (by decide) (by decide)]
  unfold Dev.flushDone
  simp only [img, ev]
  rfl

end Sys2Proof.Machine

namespace Sys2Proof
open Machine

/-- Settles O58: each input's branch of the sequencer, the clocks and the resets by the state it meets. -/
theorem powerAndClocksTakeEffect : Obligations.PowerAndClocksTakeEffect := by
  intro s hq d
  have kept {d : Dev} (h : d.out = s.dev.out) : s.did d = withDev s d := s.did_eq_withDev (h.trans hq)
  have same {d : Dev} (h : d = s.dev) : (.next (s.did d) : Answer) = .next s := by rw [h, State.did_self_of_quiet hq]
  refine ⟨?on, ?pending, ?onElse, ?off, ?fail, ?good, ?goodElse, ?dropNot, ?drop, ?done, ?doneNot, ?reset, ?resetNot, ?chip, ?chipNot,
    ?noRail, ?rail, ?fault, ?faultNot, ?stepNot, ?offNot, ?preNot, ?ctlNot, ?graceNot, ?step, ?offWait, ?pre, ?ctlOn, ?ctlUp, ?grace,
    ?low, ?vaon, ?lossNot, ?relockNot, rfl, ?loss, ?emergency, ?relock, ?rtcx, ?vbat, ?href, ?eref, ?rtcSet, ?rtcNot, ?rewriteNot,
    ?rewrite, ?kick, ?expiryNot, ?expiry, ?thermal, rfl, rfl⟩
  case on =>
    rintro rfl h0 hup
    exact s.next_did_congr (s.dev.pwronOn_eq.trans ((if_pos h0).trans (if_pos hup)))
  case pending =>
    rintro rfl h
    exact s.next_did_congr (s.dev.pwronOn_eq.trans ((if_neg (by omega)).trans (if_pos h)))
  case onElse =>
    rintro rfl (⟨h0, hup⟩ | ⟨h0, h5, h6, h7⟩)
    · exact (s.next_did_congr (s.dev.pwronOn_eq.trans ((if_pos h0).trans (if_neg (ne_true_of_eq_false hup))))).trans (congrArg _ (kept rfl))
    · exact (s.next_did_congr (s.dev.pwronOn_eq.trans ((if_neg h0).trans (if_neg (by omega))))).trans (congrArg _ (kept rfl))
  case off =>
    rintro rfl
    have eq := s.dev.pwronOff_eq
    refine ⟨fun h => ?_, fun h => ?_, fun h => ?_, fun h => ?_, fun h2 h3 h4 h8 => ?_⟩
    · exact s.next_did_congr (eq.trans ((if_neg (by omega)).trans ((if_neg (by omega)).trans (if_pos h))))
    · exact s.next_did_congr (eq.trans ((if_neg (by omega)).trans (if_pos h)))
    · exact (s.next_did_congr (eq.trans (if_pos h))).trans (congrArg _ (kept rfl))
    · exact (s.next_did_congr (eq.trans ((if_neg (by omega)).trans ((if_neg (by omega)).trans ((if_neg (by omega)).trans (if_pos h)))))).trans
        (congrArg _ (kept rfl))
    · exact (s.next_did_congr (eq.trans ((if_neg h2).trans ((if_neg h3).trans ((if_neg h4).trans (if_neg h8)))))).trans
        (congrArg _ (kept rfl))
  case fail =>
    rintro rfl
    have eq := s.dev.pfailOn_eq
    refine ⟨fun h => ?_, fun h => ?_, fun h => ?_, fun h hf => ?_, fun h hf => ?_, fun h2 h3 h4 h5 => ?_⟩
    · exact s.next_did_congr (eq.trans ((if_neg (by omega)).trans ((if_neg (by omega)).trans (if_pos h))))
    · exact s.next_did_congr (eq.trans ((if_neg (by omega)).trans (if_pos h)))
    · exact (s.next_did_congr (eq.trans (if_pos h))).trans (congrArg _ (kept rfl))
    · exact (s.next_did_congr (eq.trans ((if_neg (by omega)).trans ((if_neg (by omega)).trans ((if_neg (by omega)).trans ((if_pos h).trans
        (if_pos hf))))))).trans (congrArg _ (kept rfl))
    · exact s.next_did_congr (eq.trans ((if_neg (by omega)).trans ((if_neg (by omega)).trans ((if_neg (by omega)).trans ((if_pos h).trans
        (if_neg hf))))))
    · exact (s.next_did_congr (eq.trans ((if_neg h2).trans ((if_neg h3).trans ((if_neg h4).trans (if_neg h5)))))).trans
        (congrArg _ (kept rfl))
  case good =>
    rintro rfl h
    exact s.next_did_congr (Dev.pfailOff_of_off h)
  case goodElse =>
    rintro rfl h
    exact (s.next_did_congr (Dev.pfailOff_of_not_off h)).trans (congrArg _ (kept rfl))
  case dropNot =>
    rintro (h | h)
    · exact same (by simp only [h])
    · cases hf : s.dev.psq.flush with
      | none => exact same (by simp only [hf])
      | some k => exact same (by simp only [hf, h, if_true])
  case drop =>
    intro k hk hl
    exact s.next_did_congr (by simp only [hk, hl, Bool.false_eq_true, if_false])
  case done =>
    rintro k hk he rfl
    refine s.next_did_congr ((?_ : _ = s.dev.flushDone k).trans (s.dev.flushDone_eq k))
    simp only [hk, he, if_true]
  case doneNot =>
    rintro (h | h)
    · exact same (by simp only [h])
    · cases hf : s.dev.psq.flush with
      | none => exact same (by simp only [hf])
      | some k => exact same (by simp only [hf, h, Bool.false_eq_true, if_false])
  case reset =>
    intro h4 hf hr c hd
    have asked : s.dev.requestReset c = d := (Dev.requestReset_of_on h4 hf hr c).trans hd.symm
    exact ⟨fun hc => s.next_did_congr (hc ▸ asked), fun hc => s.next_did_congr (hc ▸ asked)⟩
  case resetNot => exact fun h => ⟨same (if_pos h), same (if_pos h)⟩
  case chip =>
    intro c hr hf
    exact ⟨s.next_did_congr (by simp [hr, hf]), s.dev.chipReset_forgets c⟩
  case chipNot =>
    rintro (h | h)
    · exact same (by simp only [h])
    · cases hr : s.dev.psq.reset with
      | none => exact same (by simp only [hr])
      | some c => exact same (by simp only [hr, h, if_true])
  case noRail => exact fun slot good mv h => ⟨same (if_neg (by omega)), same (if_neg (by omega))⟩
  case rail => exact fun slot good mv h => s.next_did_congr (if_pos h)
  case fault =>
    rintro slot mv h rfl h4 hu he hg
    refine s.next_did_congr ((if_pos h).trans ((if_pos ?_).trans ?_))
    · exact ⟨.inl h4, hu, he, by rw [hg]; rfl⟩
    · rw [h4]
  case faultNot =>
    rintro slot mv h rfl hno
    refine (s.next_did_congr ((if_pos h).trans (if_neg ?_))).trans (congrArg _ (kept ?_))
    · rintro ⟨h45, hu, he, hg⟩
      rcases hno with hno | hno | hno | hno
      · omega
      · exact Bool.false_ne_true (hno.symm.trans hu)
      · exact Bool.false_ne_true (hno.symm.trans he)
      · simp [hno] at hg
    · exact (s.dev.railLevel_books slot false mv).keeps.1
  case stepNot => exact fun h3 h6 h7 => same (if_neg (by omega))
  case offNot => exact fun h => same (if_neg h)
  case preNot => exact fun h => same (if_neg h)
  case ctlNot => exact fun h3 h4 => ⟨same ((if_neg h4).trans (if_neg h3)), same ((if_neg h4).trans (if_neg h3))⟩
  case graceNot => exact fun slot h => same (by simp only [h])
  case step => exact fun h => s.next_did_congr (if_pos h)
  case offWait => exact fun h => s.next_did_congr (if_pos h)
  case pre => exact fun h => s.next_did_congr (if_pos h)
  case ctlOn =>
    refine fun h => ⟨s.next_did_congr ((if_pos h).trans ?_), s.next_did_congr ((if_pos h).trans ?_)⟩
    · rw [Dev.setPsq_same_cycle]
    · rw [Dev.setPsq_cycle]
  case ctlUp =>
    have h4 (h : s.dev.psqState = 3) : s.dev.psqState ≠ 4 := by omega
    refine fun h => ⟨s.next_did_congr ((if_neg (h4 h)).trans ((if_pos h).trans ?_)),
      s.next_did_congr ((if_neg (h4 h)).trans ((if_pos h).trans ?_))⟩
    · rw [Dev.setPsq_same_cycle]
    · rw [Dev.setPsq_cycle]
  case grace => exact fun slot t h => s.next_did_congr (by simp only [h])
  case low => exact ⟨_, rfl, rfl, rfl, congrArg Option.isSome (Tab.get?_put_same _ _ _)⟩
  case vaon => exact fun rk fo => ⟨rfl, s.dev.vaonReset_leftBy rk fo⟩
  case lossNot =>
    rintro p h
    refine same (if_pos ?_)
    simpa using h
  case relockNot => exact fun p h => same (if_neg (by omega))
  case loss =>
    rintro p h hl rfl
    refine s.next_did_congr (if_neg ?_)
    simp [hl]; omega
  case emergency =>
    refine ⟨fun h => s.dev.emergency_eq.trans (if_pos h), fun h => s.dev.emergency_eq.trans ((if_neg (by omega)).trans (if_pos h)),
      fun h4 h5 => s.dev.emergency_eq.trans ((if_neg h4).trans (if_neg h5))⟩
  case relock => exact fun p h => s.next_did_congr (if_pos h)
  case rtcx =>
    refine ⟨_, rfl, ?_, ?_⟩
    · exact (bne_eq_false_iff_eq).2 (((Dev.get_raise_of_addr _ (by decide) (by decide) _).trans (Dev.get_set_same _ _ _)))
    · exact (Dev.get_raise_of_addr _ (by decide) (by decide) _).trans
        ((Dev.get_set_of_addr _ (by decide) (by decide) (by decide) _).trans (Dev.get_set_same _ _ _))
  case vbat =>
    exact ⟨_, rfl, Dev.bit_of_get ((Dev.get_raise_of_addr _ (by decide) (by decide) _).trans (Dev.get_set_same _ _ _)) (by decide)⟩
  case href =>
    rintro rfl
    rfl
  case eref =>
    rintro rfl
    rfl
  case rtcSet =>
    intro h hi
    refine ⟨_, s.next_did_congr (if_pos h), ?_, ?_⟩
    · exact Dev.bit_of_get ((Dev.get_raise_of_addr _ (by decide) (by decide) _).trans (Dev.get_set_same _ _ _)) (by decide)
    · rw [State.did_cks, (Dev.raise_books _ _).cks, (Dev.setBit_books _ _ _).cks]
      exact ⟨rfl, rfl⟩
  case rtcNot =>
    intro h hi
    refine ⟨_, s.next_did_congr (if_neg h), ?_⟩
    exact (Dev.raise_books _ _).cks.trans (Dev.discard_books _ _ _).cks
  case rewriteNot =>
    intro h
    exact same (if_pos (by rw [h]; rfl))
  case rewrite =>
    intro h
    refine ⟨_, s.next_did_congr (if_neg (by rw [h]; decide)), rfl, rfl, rfl, rfl, ?_⟩
    exact congrArg (· ++ s.sent) hq
  case kick => exact congrArg Host.Outcome.next (kept (d := s.dev.kick) rfl)
  case expiryNot => exact fun h => same (if_pos h)
  case expiry =>
    rintro h rfl
    exact s.next_did_congr (if_neg h)
  case thermal => exact fun x => rfl

end Sys2Proof
end

section
/-! SUPPORT. Skein queue 0, FCO's latches and PULSE, and ROW's own steps (R408–R439). -/

namespace Sys2Proof.Machine

/-! ## Answers that leave the machine as it is, or send nothing -/

/-- An effect that leaves the device as it is leaves a machine with nothing to send as it is. -/
theorem State.next_same {s : State} (hq : quiet s) {d : Dev} (h : d = s.dev) : (Host.Outcome.next (s.did d) : Answer) = .next s := by
  rw [h, State.did_self_of_quiet hq]

/-- An effect that gives a known device, which sends nothing. -/
theorem State.next_kept {s : State} (hq : quiet s) {d d' : Dev} (h : d = d') (hout : d'.out = s.dev.out) :
    (Host.Outcome.next (s.did d) : Answer) = .next (withDev s d') := by
  rw [h, s.did_eq_withDev (hout.trans hq)]

/-! ## One-bit fields -/

theorem Dev.bit_setBit_same (s : Dev) {f : Field} (hf : f.width = 1) (b : Bool) : (s.setBit f b).bit f = b := by
  unfold Dev.bit Dev.setBit
  rw [Dev.get_set_same, hf]
  cases b <;> rfl

theorem Dev.bit_send (s : Dev) (o : Output) (f : Field) : (s.send o).bit f = s.bit f := rfl

theorem State.did_bit (s : State) (d : Dev) (f : Field) : (s.did d).dev.bit f = d.bit f := rfl

/-! ## Fields over a discarded write -/

theorem Dev.get_ite {c : Prop} [Decidable c] {s t : Dev} {f : Field} {v : Nat} (h : s.get f = v) (k : t.get f = v) :
    (if c then s else t).get f = v := by
  by_cases hc : c
  · rwa [if_pos hc]
  · rwa [if_neg hc]

theorem Dev.get_raiseFirst_of_addr (s : Dev) {f : Field} (h : f.addr ≠ 0x8c0024) (hf : f.lo < 32) (e : Ev) :
    (s.raiseFirst e).get f = s.get f := Dev.get_ite (Dev.get_raise_of_addr _ h hf e) rfl

/-- A discarded write changes WR_DISC, its counter and ROW.LOST at most. -/
theorem Dev.get_discard_of_addr (s : Dev) {f : Field} (hd : f.addr ≠ Reg.GLB.WR_DISC.OFFSET.addr) (hc : f.addr ≠ Reg.GLB.WR_DISC_CNT.COUNT.addr)
    (row : f.addr ≠ 0x8c0024) (hf : f.lo < 32) (off cause : Nat) : (s.discard off cause).get f = s.get f := by
  have noted : ((s.set Reg.GLB.WR_DISC.OFFSET off).set Reg.GLB.WR_DISC.CAUSE cause).get f = s.get f :=
    (Dev.get_set_of_addr _ (f := Reg.GLB.WR_DISC.CAUSE) hd hf (by decide) _).trans (s.get_set_of_addr hd hf (by decide) _)
  have counted := (Dev.get_countUp ((s.set Reg.GLB.WR_DISC.OFFSET off).set Reg.GLB.WR_DISC.CAUSE cause)
    (c := Reg.GLB.WR_DISC_CNT.COUNT) (f := Reg.GLB.WR_DISC_CNT.SAT)
    (Field.key_ne_of_addr hc hf (by decide)) (Field.key_ne_of_addr hc hf (by decide)) 1).trans noted
  exact Dev.get_ite ((Dev.get_raise_of_addr _ row hf _).trans ((Dev.get_raiseFirst_of_addr _ row hf _).trans counted))
    ((Dev.get_raiseFirst_of_addr _ row hf _).trans counted)

/-! ## Skein queue 0 (R408–R412) -/

theorem Dev.skqPop_of_hidden {s : Dev} (h : s.get Reg.SKQ.Q_SEL.QUEUE ≠ 0) :
    s.skqPop = ((s.set Reg.SKQ.POP_LO.ITEM (idleItem.toNat % 2 ^ 32)).set Reg.SKQ.POP_HI.ITEM (idleItem.toNat / 2 ^ 32), idleItem.toNat % 2 ^ 32) := by
  unfold Dev.skqPop
  simp [skeinSw, h]

theorem Dev.skqPop_of_shown {s d : Dev} {i : BitVec 64} (h : s.get Reg.SKQ.Q_SEL.QUEUE = 0) (hp : s.queuePop = (d, i)) :
    s.skqPop = ((d.set Reg.SKQ.POP_LO.ITEM (i.toNat % 2 ^ 32)).set Reg.SKQ.POP_HI.ITEM (i.toNat / 2 ^ 32), i.toNat % 2 ^ 32) := by
  unfold Dev.skqPop
  simp [skeinSw, h, hp]

theorem Dev.queuePop_of_empty {s : Dev} (h : (s.skein 0).items = []) (ok : skeinBad (s.skein 0) = none) : s.queuePop = (s, idleItem) := by
  unfold Dev.queuePop Dev.skeinPop
  simp [h, ok]

theorem Dev.queuePop_of_cons {s : Dev} {i : BitVec 64} {l : List (BitVec 64)} (h : (s.skein 0).items = i :: l)
    (ok : skeinBad (s.skein 0) = none) (clean : s.flips.get? (flipSkein * 2 ^ 44 + (s.skein 0).rd) = none) :
    s.queuePop = (s.setSkein 0 { s.skein 0 with items := l, rd := ((s.skein 0).rd + 1) % 2 ^ 12, rd2 := ((s.skein 0).rd + 1) % 2 ^ 12 }, i) := by
  have read : s.sramRead flipSkein (s.skein 0).rd 0 = (s, false) := by
    unfold Dev.sramRead
    rw [clean]
  unfold Dev.queuePop
  simp only [h, List.isEmpty_cons, Bool.false_eq_true, if_false, read]
  unfold Dev.skeinPop
  simp only [ok, h]
  rfl

theorem Dev.skeinDrop_of_packet {s : Dev} {l : List (BitVec 64)} (hd : (s.skein 0).dropping = false)
    (h : dropPacket (s.skein 0).items = some l) : s.skeinDrop 0 = s.setSkein 0 { s.skein 0 with
      items := l, rd := ((s.skein 0).rd + ((s.skein 0).items.length - l.length)) % 2 ^ 12
      rd2 := ((s.skein 0).rd + ((s.skein 0).items.length - l.length)) % 2 ^ 12 } := by
  unfold Dev.skeinDrop
  simp only [hd, h, Bool.false_eq_true, if_false]
  rfl

theorem Dev.skeinDrop_of_part {s : Dev} (hd : (s.skein 0).dropping = false) (h : dropPacket (s.skein 0).items = none) :
    s.skeinDrop 0 = s.setSkein 0 { s.skein 0 with items := [], dropping := true, rd := (s.skein 0).wr, rd2 := (s.skein 0).wr } := by
  unfold Dev.skeinDrop
  simp only [hd, h, Bool.false_eq_true, if_false]

theorem Dev.Books.skein {s t : Dev} (h : Dev.Books s t) (q : Nat) : t.skein q = s.skein q := by
  obtain ⟨regs, row, fco, psq, rfl⟩ := h
  rfl

/-- A queue's reset changes the queue, and registers and events besides. -/
theorem Dev.skeinReset_books (s : Dev) (q : Nat) :
    Dev.Books (s.setSkein q { s.skein q with
      items := [], rd := 0, wr := 0, rd2 := 0, wr2 := 0, dropping := false
      resets := (skeinCount (s.skein q).resets (s.skein q).resetsSat).1, resetsSat := (skeinCount (s.skein q).resets (s.skein q).resetsSat).2.1 })
      (s.skeinReset q none) :=
  .ite ((Dev.set_books _ _ _).trans (Dev.raise_books _ _)) (Dev.set_books _ _ _)

/-! ## First-fault latches (R425, R426) -/

theorem Dev.latch_of_valid {d : Dev} {c : Nat} (h : d.bit (Reg.FCO.LAT_ID.VALID c) = true) (e : Ev) :
    d.latch c e = d.setBit (Reg.FCO.LAT_ID.OVERFLOW c) true := if_pos h

/-- The words of a latch of class `c`: its first word is read over a write of the others. -/
theorem Dev.get_latchWords (d : Dev) (c : Nat) {f : Field} (addr : f.addr = 0x900100 + 0x10 * c) (hf : f.lo < 32) (a b : Nat) :
    ((d.set (Reg.FCO.LAT_SYND.SYND c) a).setWide (Reg.FCO.LAT_TIME_LO.TIME c) (Reg.FCO.LAT_TIME_HI.TIME c) b).get f = d.get f := by
  have other {g : Field} (h : g.addr = 0x900104 + 0x10 * c ∨ g.addr = 0x900108 + 0x10 * c ∨ g.addr = 0x90010c + 0x10 * c) : f.addr ≠ g.addr := by
    omega
  exact (Dev.get_set_of_addr _ (f := Reg.FCO.LAT_TIME_HI.TIME c) (other (.inr (.inr rfl))) hf (of_decide_eq_true rfl) _).trans
    ((Dev.get_set_of_addr _ (f := Reg.FCO.LAT_TIME_LO.TIME c) (other (.inr (.inl rfl))) hf (of_decide_eq_true rfl) _).trans
      (d.get_set_of_addr (f := Reg.FCO.LAT_SYND.SYND c) (other (.inl rfl)) hf (of_decide_eq_true rfl) _))

theorem Dev.get_synd_setWide (d : Dev) (c b : Nat) :
    (d.setWide (Reg.FCO.LAT_TIME_LO.TIME c) (Reg.FCO.LAT_TIME_HI.TIME c) b).get (Reg.FCO.LAT_SYND.SYND c) = d.get (Reg.FCO.LAT_SYND.SYND c) :=
  (Dev.get_set_of_addr _ (by show 0x900104 + 0x10 * c ≠ 0x90010c + 0x10 * c; omega) (of_decide_eq_true rfl) (of_decide_eq_true rfl) _).trans
    (d.get_set_of_addr (by show 0x900104 + 0x10 * c ≠ 0x900108 + 0x10 * c; omega) (of_decide_eq_true rfl) (of_decide_eq_true rfl) _)

theorem Dev.latch_of_clear {d : Dev} {c : Nat} (h : d.bit (Reg.FCO.LAT_ID.VALID c) = false) (e : Ev) :
    d.latch c e = (((d.set (Reg.FCO.LAT_ID.ID c) e.id).setBit (Reg.FCO.LAT_ID.VALID c) true).set (Reg.FCO.LAT_SYND.SYND c) e.synd.toNat).setWide
      (Reg.FCO.LAT_TIME_LO.TIME c) (Reg.FCO.LAT_TIME_HI.TIME c) d.calNow := if_neg (by simp [h])

/-- A free latch takes the event. -/
theorem Dev.latch_takes {d : Dev} {c : Nat} (h : d.bit (Reg.FCO.LAT_ID.VALID c) = false) (e : Ev) :
    (d.latch c e).bit (Reg.FCO.LAT_ID.VALID c) = true ∧ (d.latch c e).get (Reg.FCO.LAT_ID.ID c) = e.id % 2 ^ 10 ∧
      (d.latch c e).get (Reg.FCO.LAT_SYND.SYND c) = e.synd.toNat := by
  rw [Dev.latch_of_clear h]
  refine ⟨?_, ?_, ?_⟩
  · exact Dev.bit_of_get ((Dev.get_latchWords _ c rfl (of_decide_eq_true rfl) _ _).trans (Dev.get_set_same _ _ _)) (of_decide_eq_true rfl)
  · rw [Dev.get_latchWords _ c rfl (of_decide_eq_true rfl)]
    exact (Dev.get_set_of_lo _ (of_decide_eq_true rfl) (of_decide_eq_true rfl) (of_decide_eq_true rfl) _).trans (Dev.get_set_same _ _ _)
  · rw [Dev.get_synd_setWide]
    exact (Dev.get_set_same _ _ _).trans (Nat.mod_eq_of_lt e.synd.isLt)

/-- A latch is cleared word by word. -/
theorem Dev.latchClear_clears (d : Dev) (c : Nat) :
    (d.latchClear c).get (Reg.FCO.LAT_ID.ID c) = 0 ∧ (d.latchClear c).bit (Reg.FCO.LAT_ID.VALID c) = false ∧
      (d.latchClear c).bit (Reg.FCO.LAT_ID.OVERFLOW c) = false ∧ (d.latchClear c).get (Reg.FCO.LAT_SYND.SYND c) = 0 ∧
      (d.latchClear c).get (Reg.FCO.LAT_TIME_LO.TIME c) = 0 ∧ (d.latchClear c).get (Reg.FCO.LAT_TIME_HI.TIME c) = 0 := by
  have first {f : Field} (addr : f.addr = 0x900100 + 0x10 * c) (hf : f.lo < 32) : (d.latchClear c).get f =
      (((d.set (Reg.FCO.LAT_ID.ID c) 0).setBit (Reg.FCO.LAT_ID.VALID c) false).setBit (Reg.FCO.LAT_ID.OVERFLOW c) false).get f :=
    Dev.get_latchWords _ c addr hf 0 0
  refine ⟨?_, bne_eq_false_iff_eq.2 ?_, bne_eq_false_iff_eq.2 ?_, ?_, ?_, ?_⟩
  · exact (first rfl (of_decide_eq_true rfl)).trans
      ((Dev.get_set_of_lo _ (of_decide_eq_true rfl) (of_decide_eq_true rfl) (of_decide_eq_true rfl) _).trans
        ((Dev.get_set_of_lo _ (of_decide_eq_true rfl) (of_decide_eq_true rfl) (of_decide_eq_true rfl) _).trans (Dev.get_set_same _ _ _)))
  · exact (first rfl (of_decide_eq_true rfl)).trans
      ((Dev.get_set_of_lo _ (of_decide_eq_true rfl) (of_decide_eq_true rfl) (of_decide_eq_true rfl) _).trans (Dev.get_set_same _ _ _))
  · exact (first rfl (of_decide_eq_true rfl)).trans (Dev.get_set_same _ _ _)
  · exact (Dev.get_synd_setWide _ c 0).trans (Dev.get_set_same _ _ _)
  · exact (Dev.get_set_of_addr _ (by show 0x900108 + 0x10 * c ≠ 0x90010c + 0x10 * c; omega) (of_decide_eq_true rfl) (of_decide_eq_true rfl) _).trans
      (Dev.get_set_same _ _ _)
  · exact Dev.get_set_same _ _ _

/-! ## MSI-X vectors (R419) -/

/-- The messages `go` of a function leave, pending no longer. -/
def Dev.msixSent (s : Dev) (f : Nat) (m : Msix) (go : List Nat) : Dev :=
  go.foldl (fun d v => d.send (.msix f v)) (s.setMsix f { m with pba := m.pba.filter fun v _ => !go.contains v })

/-- What a change of a function's masks to `m` lets go. -/
theorem exec_msixVectorUnmask (s : State) (f : Nat) (v : Option Nat) (m : Msix)
    (hm : (match v with | some v => { s.dev.msix f with unmasked := (s.dev.msix f).unmasked.put v () } | none => { s.dev.msix f with fmask := false }) = m) :
    exec (.msixVectorUnmask f v) s = .next (s.did (s.dev.msixSent f m (if m.fmask then [] else m.pba.keys.filter m.unmasked.has))) := by
  subst hm
  rfl

/-! ## The log goes on (R433, R438) -/

theorem Dev.rowArrive_of_same {d : Dev} {h : HeldRec} {r : RowRec} (ho : d.row.open_ = some r)
    (hs : sameRecord h.ev.id h.ev.payload r = true) (hc : r.cnt < 65535) : d.rowArrive h =
      d.setRow fun x => { x with open_ := some { r with cnt := r.cnt + 1, lastUs := min 0xFFFFFFFF ((h.time - r.time) / 1000) } } := by
  unfold Dev.rowArrive
  simp only [ho]
  exact if_pos (by simp [hs, hc])

/-- A block's erase ends: its records are gone, and the first of all erases is told. -/
theorem exec_rowEraseDone {s : State} {b : Nat} (hb : s.dev.row.erasing = some b) :
    let d := s.dev.setRow fun r => { r with erasing := none, slots := r.slots.filter fun i _ => i / rowBlock != b }
    exec .rowEraseDone s = .next (s.did (if d.bit Reg.ROW.STS.WRAPPED then d else (d.setBit Reg.ROW.STS.WRAPPED true).raise (rowPlain 0x235)).rowPump) :=
  s.next_did_congr (by simp only [hb])

theorem Dev.rowScan_of_empty {s : Dev} (h : s.row.slots = .empty) : s.rowScan =
    ((((s.setRow fun r => { r with next := 0, seq := 0 }).set Reg.ROW.CLRGEN.GEN 0).set Reg.ROW.STS.STATE 1).raise (rowPlain 0x239)).rowPump := by
  unfold Dev.rowScan
  rw [h]
  rfl

end Sys2Proof.Machine

namespace Sys2Proof
open Machine

/-- Settles O57: what queue 0 holds, each latch and gap, PULSE, the vectors and the log decide each command's branch. -/
theorem queuesReactionsAndRowTakeEffect : Obligations.QueuesReactionsAndRowTakeEffect := by
  intro s hq
  refine ⟨⟨?hidden, ?shown⟩, ?react, ?noReact, ?latch, ?gap, ?noGap, ?blockReset, ?noClear, ?clear, ⟨?noToggle, ?toggle⟩, ?runNot, ?run,
    ?halt, ?halt, ?maskedF, ?unmaskV, ?unmaskF, ?noRecord, ?record, ?again, ?noPage, ?page, ?noProgram, ?program, ?noErase,
    ?erase, ?eraseFirst, ?noScan, ?scan, ?scanEmpty⟩
  case hidden =>
    intro h
    have sw : ¬ (skeinSw (s.dev.get Reg.SKQ.Q_SEL.QUEUE) = true) := by simpa [skeinSw] using h
    have step : exec .skqPopRead s = .next (s.did (s.dev.skqPop.1.send (.regData 0xA40014 s.dev.skqPop.2))) := rfl
    refine ⟨step.trans (s.next_did_congr ?_), ?_, ?_⟩
    · rw [Dev.skqPop_of_hidden h]; rfl
    · exact State.next_kept hq (if_neg sw) (s.dev.discard_books _ _).keeps.1
    · exact State.next_kept hq (if_neg sw) (s.dev.discard_books _ _).keeps.1
  case shown =>
    intro h
    have sw : skeinSw (s.dev.get Reg.SKQ.Q_SEL.QUEUE) = true := by simpa [skeinSw] using h
    have step : exec .skqPopRead s = .next (s.did (s.dev.skqPop.1.send (.regData 0xA40014 s.dev.skqPop.2))) := rfl
    refine ⟨fun he hr hw => step.trans (s.next_did_congr ?_), fun i l hi hr hw hf => step.trans (s.next_did_congr ?_), fun l hd hl => ?_,
      fun hd hl => ?_, ?_⟩
    · rw [Dev.skqPop_of_shown h (Dev.queuePop_of_empty he (skeinBad_eq_none_iff.mpr ⟨hr, hw⟩))]; rfl
    · rw [Dev.skqPop_of_shown h (Dev.queuePop_of_cons hi (skeinBad_eq_none_iff.mpr ⟨hr, hw⟩) hf)]
    · exact State.next_kept hq ((if_pos sw).trans (by rw [h]; exact Dev.skeinDrop_of_packet hd hl)) rfl
    · exact State.next_kept hq ((if_pos sw).trans (by rw [h]; exact Dev.skeinDrop_of_part hd hl)) rfl
    · refine ⟨_, s.next_did_congr ((if_pos sw).trans (by rw [h])), ?_⟩
      have emptied := (Dev.skeinReset_books s.dev 0).skein 0
      have held := Tab.getD_putD_same s.dev.skeins 0 { s.dev.skein 0 with
        items := [], rd := 0, wr := 0, rd2 := 0, wr2 := 0, dropping := false
        resets := (skeinCount (s.dev.skein 0).resets (s.dev.skein 0).resetsSat).1
        resetsSat := (skeinCount (s.dev.skein 0).resets (s.dev.skein 0).resetsSat).2.1 } {}
      have all := emptied.trans held
      exact ⟨congrArg Skein.items all, congrArg Skein.dropping all, congrArg Skein.rd all, congrArg Skein.rd2 all,
        congrArg Skein.wr all, congrArg Skein.wr2 all,
        congrArg (· ++ s.sent) ((Dev.skeinReset_books s.dev 0).keeps.1.trans hq)⟩
  case react => exact fun at_ e l h => s.next_did_congr (by simp only [h])
  case noReact => exact fun h => State.next_same hq (by simp only [h])
  case latch => exact fun d c e hc => ⟨fun h => Dev.latch_of_valid h e, fun h => Dev.latch_takes h e⟩
  case gap =>
    intro tg v g hg u
    refine ⟨fun hw => ?_, fun hw => ?_⟩
    · exact State.next_kept hq (by simp only [hg, hw, Bool.false_eq_true, if_false]; rfl) rfl
    · exact s.next_did_congr (by simp only [hg, hw, if_true]; rfl)
  case noGap => exact fun tg v h => State.next_same hq (by simp only [h])
  case blockReset => exact fun b => State.next_kept hq rfl rfl
  case noClear => exact fun c hc => State.next_same hq (if_neg (by omega))
  case clear =>
    intro c hc
    have step : exec (.firstFaultLatchClear c) s = .next (s.did (s.dev.latchClear c)) := s.next_did_congr (if_pos hc)
    have cleared := s.dev.latchClear_clears c
    have out : (s.dev.latchClear c).out = [] := hq
    generalize s.dev.latchClear c = d at step cleared out
    obtain ⟨hid, hvalid, hover, hsynd, hlo, hhi⟩ := cleared
    exact ⟨_, step, hid, hvalid, hover, hsynd, hlo, hhi, congrArg (· ++ s.sent) out⟩
  case noToggle =>
    intro h
    refine State.next_same hq (if_neg ?_)
    rcases h with h | h <;> simp [h]
  case toggle =>
    intro hr hs
    refine ⟨_, s.next_did_congr (if_pos (by simp [hr, hs])), rfl, ?_, congrArg (_ :: · ++ s.sent) hq⟩
    exact (s.did_bit _ _).trans ((Dev.bit_send _ _ _).trans (Dev.bit_setBit_same _ rfl _))
  case runNot =>
    intro h
    have field {f : Field} (hd : f.addr ≠ Reg.GLB.WR_DISC.OFFSET.addr) (hc : f.addr ≠ Reg.GLB.WR_DISC_CNT.COUNT.addr)
        (row : f.addr ≠ 0x8c0024) (hf : f.lo < 32) (e : Ev) : ((s.dev.discard 0x900008 0).raise e).get f = s.dev.get f :=
      (Dev.get_raise_of_addr _ row hf e).trans (s.dev.get_discard_of_addr hd hc row hf _ _)
    refine ⟨_, s.next_did_congr ((if_neg (by decide)).trans (if_pos h)), ?_, (s.did_get _ _).trans (field (by decide) (by decide) (by decide) (by decide) _),
      (s.did_get _ _).trans (field (by decide) (by decide) (by decide) (by decide) _)⟩
    exact congrArg (· ++ s.sent) ((((s.dev.discard_books _ _).trans (Dev.raise_books _ _)).keeps.1).trans hq)
  case run =>
    intro h
    refine ⟨_, s.next_did_congr ((if_neg (by decide)).trans (if_neg (ne_true_of_eq_false h))), ?_, Dev.bit_setBit_same _ rfl _, rfl,
      congrArg (· ++ s.sent) hq⟩
    exact Dev.bit_of_get ((Dev.get_set_of_addr _ (by decide) (by decide) (by decide) _).trans (Dev.get_set_same _ _ _)) (by decide)
  case halt => exact State.next_kept hq rfl rfl
  case maskedF => exact fun f v h => (exec_msixVectorUnmask s f (some v) _ rfl).trans (s.next_did_congr (congrArg _ (if_pos h)))
  case unmaskV =>
    exact fun f v h => (exec_msixVectorUnmask s f (some v) _ rfl).trans (s.next_did_congr (congrArg _ (if_neg (ne_true_of_eq_false h))))
  case unmaskF => exact fun f => rfl
  case noRecord => exact fun h => State.next_same hq (by simp only [h])
  case record =>
    intro h l hl
    refine ⟨fun hs => State.next_same hq ?_, fun h0 h2 => s.next_did_congr ?_⟩
    · simp only [hl]
      exact if_pos hs
    · simp only [hl]
      exact if_neg (by omega)
  case again => exact fun d h r ho hs hc => congrArg (fun d => d.row.open_) (Dev.rowArrive_of_same ho hs hc)
  case noPage =>
    intro h
    exact State.next_same hq (if_pos (by rw [h]; rfl))
  case page =>
    intro h
    exact s.next_did_congr (if_neg (by simpa using h))
  case noProgram =>
    intro g h
    exact State.next_same hq (if_pos (by rw [h]; rfl))
  case program =>
    intro g h l w
    have step : exec (.rowProgramDone g) s = .next (s.did (if g || !s.dev.bit Reg.ROW.CFG.MODE then (w.clearCheck l).rowPump else
      let t := w.count Reg.ROW.VERIFY_FAIL.COUNT Reg.ROW.VERIFY_FAIL.SAT 1 (rowPlain 0x237)
      if s.dev.row.second then ((t.setBit Reg.ROW.STS.NOR_ERR true).raise (rowPlain 0x233)).rowPump
        else (t.setRow fun r => { r with programming := l, second := true }).rowErase)) :=
      s.next_did_congr (if_neg (by simpa using h))
    refine ⟨fun hg => step.trans (s.next_did_congr (if_pos ?_)), fun hg hm => step.trans (s.next_did_congr (if_neg ?_))⟩
    · rcases hg with hg | hg <;> simp [hg]
    · simp [hg, hm]
  case noErase => exact fun h => State.next_same hq (by simp only [h])
  case erase => exact fun b hb hw => (exec_rowEraseDone hb).trans (s.next_did_congr (congrArg Dev.rowPump (if_pos hw)))
  case eraseFirst =>
    exact fun b hb hw => (exec_rowEraseDone hb).trans (s.next_did_congr (congrArg Dev.rowPump (if_neg (ne_true_of_eq_false hw))))
  case noScan => exact fun h => State.next_same hq (if_neg h)
  case scan => exact fun h => s.next_did_congr (if_pos h)
  case scanEmpty => exact fun h => Dev.rowScan_of_empty h

end Sys2Proof
end

section
/-! SUPPORT. SPDM (R367–R370): a request that comes before its turn, in its turn, and within a session. -/

namespace Sys2Proof.Machine

/-- On an instance that can be reached, a request before its phase is out of turn. -/
theorem Dev.spdmAsk_of_early {s : Dev} {n phase : Nat} (hr : s.spdmReachable n = true) (h : (s.spdmInst n).phase < phase) (f : SpdmInst → Dev) :
    s.spdmAsk n phase f = s.send (.message n spdmUnexpected []) := (if_neg (by simp [hr])).trans (if_pos h)

theorem Dev.spdmAsk_of_reached {s : Dev} {n phase : Nat} (hr : s.spdmReachable n = true) (h : phase ≤ (s.spdmInst n).phase)
    (f : SpdmInst → Dev) : s.spdmAsk n phase f = f (s.spdmInst n) := (if_neg (by simp [hr])).trans (if_neg (Nat.not_lt.mpr h))

/-- A request within a session in its phase, and one of no session. -/
theorem Dev.inSession_of_phase {s : Dev} {n k phase : Nat} {y : Session} (hr : s.spdmReachable n = true) (h : 3 ≤ (s.spdmInst n).phase)
    (hk : (s.spdmInst n).sessions.get? k = some y) (hy : y.phase = phase) (f : SpdmInst → Session → Dev) :
    s.inSession n k phase f = f (s.spdmInst n) y := by
  refine (Dev.spdmAsk_of_reached hr h _).trans ?_
  rw [hk]
  exact if_pos hy

theorem Dev.inSession_of_none {s : Dev} {n k : Nat} (hr : s.spdmReachable n = true) (h : 3 ≤ (s.spdmInst n).phase)
    (hk : (s.spdmInst n).sessions.get? k = none) (phase : Nat) (f : SpdmInst → Session → Dev) :
    s.inSession n k phase f = s.send (.message n spdmSessionRequired []) := by
  refine (Dev.spdmAsk_of_reached hr h _).trans ?_
  rw [hk]

end Sys2Proof.Machine

namespace Sys2Proof
open Machine

/-- Settles O55: the phase of the connection, and of the session a request names, decides its answer. -/
theorem spdmAnswers : Obligations.SpdmAnswers := by
  intro s n hr x replies put
  have early {phase : Nat} (h : x.phase < phase) (f : SpdmInst → Dev) : (.next (s.did (s.dev.spdmAsk n phase f)) : Answer) =
      replies s.dev spdmUnexpected [] := s.next_did_congr (Dev.spdmAsk_of_early hr h f)
  have turn {phase : Nat} (h : phase ≤ x.phase) (f : SpdmInst → Dev) {d : Dev} (hd : f x = d) :
      (.next (s.did (s.dev.spdmAsk n phase f)) : Answer) = .next (s.did d) :=
    s.next_did_congr ((Dev.spdmAsk_of_reached hr h f).trans hd)
  refine ⟨?version, ?caps, ?capsNot, ?algs, ?before, ?reached, ?chunks, ?open_, ?secured⟩
  case version => exact turn (Nat.zero_le _) _ rfl
  case caps => exact fun h => turn (Nat.le_of_eq h.symm) _ (if_neg (not_not_intro h))
  case capsNot =>
    intro h
    by_cases h0 : x.phase < 1
    · exact early h0 _
    · exact turn (Nat.not_lt.mp h0) _ (if_pos h)
  case algs =>
    intro h
    refine ⟨turn (Nat.le_of_eq h.symm) _ (if_neg (not_not_intro h)), fun a b c d hno => turn (Nat.le_of_eq h.symm) _ ?_⟩
    exact (if_neg (not_not_intro h)).trans (if_neg (ne_true_of_eq_false hno))
  case before =>
    exact fun h => ⟨early h _, fun i o l => early h _, fun i v => early h _, fun i v g => early h _, fun k => early h _, early h _⟩
  case reached =>
    intro h
    refine ⟨turn h _ rfl, turn h _ rfl, fun o l hl => turn h _ ?_, fun o l hl => turn h _ ?_, fun i o l hi => turn h _ (if_pos hi),
      fun v => turn h _ rfl, fun v => turn h _ rfl, fun v => turn h _ rfl, fun i v h1 h8 => ⟨turn h _ ?_, turn h _ ?_⟩,
      fun k hk => turn h _ (if_pos hk), fun k hk hn => turn h _ ?_, fun k y hy => ?_, fun k hk => ?_⟩
    · exact (if_neg (by decide)).trans (if_neg (Nat.not_lt.mpr hl))
    · exact (if_neg (by decide)).trans (if_pos hl)
    · simp only [if_neg (show i ≠ 0 by omega), if_neg (show i ≠ 0xFF by omega), if_pos h8]
      rfl
    · simp only [if_neg (show i ≠ 0 by omega), if_neg (show i ≠ 0xFF by omega), if_pos h8]
      rfl
    · exact (if_neg (Nat.not_le.mpr hk)).trans (if_neg (ne_true_of_eq_false hn))
    · have inside {phase : Nat} (hp : y.phase = phase) (f : SpdmInst → Session → Dev) : (.next (s.did (s.dev.inSession n k phase f)) : Answer) =
          .next (s.did (f x y)) := s.next_did_congr (Dev.inSession_of_phase hr h hy hp f)
      exact ⟨fun hp => ⟨inside hp _, inside hp _⟩, fun hp => ⟨inside hp _, inside hp _, inside hp _⟩⟩
    · exact ⟨s.next_did_congr (Dev.inSession_of_none hr h hk 1 _), s.next_did_congr (Dev.inSession_of_none hr h hk 0 _)⟩
  case chunks =>
    intro h
    refine ⟨fun a l hc => turn h _ ?_, fun a q l got hc => ⟨turn h _ ?_, turn h _ ?_⟩, fun a q left hc => turn h _ ?_,
      fun a q hc => turn h _ ?_⟩
    · simp only [hc, if_true, Bool.false_eq_true, if_false, Nat.zero_add]
      rfl
    · simp only [hc, and_self, if_true]
      rfl
    · simp only [hc, and_self, if_true]
      rfl
    · simp only [hc]
      exact if_neg (by simp)
    · simp only [hc]
  case open_ => exact fun h => s.next_did_congr ((if_neg (by simp [hr])).trans (if_pos (by simp [h])))
  case secured => exact fun h => s.next_did_congr ((if_neg (by simp [hr])).trans (if_neg (by simp [h])))

end Sys2Proof
end

section
/-! SUPPORT. Boot and excursions of the security island (R359–R365): the image that starts, and what an excursion halts. -/

namespace Sys2Proof.Machine

/-! ## Boot (R365) -/

theorem Dev.bootOther_of_ok {s : Dev} {fu : Fuses} {b : Bool} (h : fu.imageOk (s.island.image b) = true) (stuck : Bool) (ks : KsRead) :
    s.bootOther fu b stuck ks =
      ((s.set Reg.KSL.BOOT_STS.IMAGE (if b then 1 else 0)).setBit Reg.KSL.BOOT_STS.FALLBACK true).startImage fu (s.island.image b) stuck ks :=
  if_pos h

theorem Dev.bootOther_of_bad {s : Dev} {fu : Fuses} {b : Bool} (h : fu.imageOk (s.island.image b) = false) (stuck : Bool) (ks : KsRead) :
    s.bootOther fu b stuck ks = (s.setBit Reg.KSL.BOOT_STS.FAILED true).setIsland fun i => { i with phase := 0 } :=
  if_neg (ne_true_of_eq_false h)

/-- A boot given up leaves FAILED set and the island at rest. -/
theorem Dev.bootFailed (s : Dev) : ((s.setBit Reg.KSL.BOOT_STS.FAILED true).setIsland fun i => { i with phase := 0 }).bit
    Reg.KSL.BOOT_STS.FAILED = true := s.bit_setBit_same rfl true

/-! ## Excursions (R360) -/

theorem Dev.Books.clock_island {s t : Dev} (h : Dev.Books s t) : t.clock = s.clock ∧ t.island = s.island := by
  obtain ⟨regs, row, fco, psq, rfl⟩ := h
  exact ⟨rfl, rfl⟩

/-- The excursions of the last 10 s. -/
def Dev.recentExcursions (s : Dev) : List Nat := s.island.excursions.filter fun t => decide (s.clock ≤ t + 10 * fclkS)

/-- The device as an excursion leaves it, before a lockout. -/
def Dev.excursed (s : Dev) : Dev :=
  (((s.abandonSigned.raise (kslInner 0x08F)).set Reg.KSL.ISL_STS.EXCURSIONS (min 15 (s.get Reg.KSL.ISL_STS.EXCURSIONS + 1))).setIsland fun i =>
    { i with excursions := s.clock :: s.recentExcursions, reloading := true, mailbox := false, challenge := none }).setBit
    Reg.MGC.MBOX_STS.BUSY false

/-- The third excursion within 10 s locks the keys out. -/
theorem Dev.excursion_eq (s : Dev) : s.excursion =
    if 2 ≤ s.recentExcursions.length then (s.excursed.setBit Reg.KSL.ISL_STS.LOCKOUT true).settle else s.excursed := by
  have count : (s.abandonSigned.raise (kslInner 0x08F)).get Reg.KSL.ISL_STS.EXCURSIONS = s.get Reg.KSL.ISL_STS.EXCURSIONS :=
    Dev.get_raise_of_addr _ (by decide) (by decide) _
  obtain ⟨clock, island⟩ := (s.abandonSigned.raise_books (kslInner 0x08F)).clock_island
  unfold Dev.excursion Dev.excursed Dev.recentExcursions
  simp only [count, Dev.set_clock, Dev.set_island, clock, island, List.length_cons, Nat.reduceLeDiff]
  rfl

/-- What an excursion changes: registers and events, and the island. -/
theorem Dev.excursed_form (s : Dev) : ∃ regs row fco psq, s.excursed =
    { s with regs, row, fco, psq, island := { s.island with
      pending := none, queued := [], excursions := s.clock :: s.recentExcursions, reloading := true, mailbox := false, challenge := none } } := by
  unfold Dev.excursed
  obtain ⟨regs, row, fco, psq, he⟩ := s.abandonSigned.raise_books (kslInner 0x08F)
  rw [he]
  exact ⟨_, row, fco, psq, rfl⟩

theorem Dev.excursed_fields (s : Dev) : s.excursed.bit Reg.MGC.MBOX_STS.BUSY = false ∧
    s.excursed.get Reg.KSL.ISL_STS.EXCURSIONS = min 15 (s.get Reg.KSL.ISL_STS.EXCURSIONS + 1) ∧
    s.excursed.bit Reg.KSL.ISL_STS.LOCKOUT = s.bit Reg.KSL.ISL_STS.LOCKOUT := by
  have away {f : Field} (h : f.addr ≠ Reg.MGC.MBOX_STS.BUSY.addr) (hf : f.lo < 32) : s.excursed.get f =
      ((s.abandonSigned.raise (kslInner 0x08F)).set Reg.KSL.ISL_STS.EXCURSIONS (min 15 (s.get Reg.KSL.ISL_STS.EXCURSIONS + 1))).get f :=
    Dev.get_set_of_addr _ h hf (by decide) _
  refine ⟨Dev.bit_setBit_same _ rfl _, ?_, congrArg (· != 0) ?_⟩
  · rw [away (by decide) (by decide), Dev.get_set_same]
    exact Nat.mod_eq_of_lt (Nat.lt_succ_of_le (Nat.min_le_left _ _))
  · rw [away (by decide) (by decide), Dev.get_set_of_lo _ (by decide) (by decide) (by decide)]
    exact Dev.get_raise_of_addr _ (by decide) (by decide) _

theorem Dev.calm_excursed {s : Dev} (h : calm s) : calm s.excursed := by
  obtain ⟨regs, row, fco, psq, he⟩ := s.excursed_form
  rw [he]
  exact h

/-- Where nothing waits, or without a lockout, an excursion leaves nothing more to do. -/
theorem Dev.excursion_of_calm {s : Dev} (h : s.recentExcursions.length < 2 ∨ calm s) : s.excursion =
    if 2 ≤ s.recentExcursions.length then s.excursed.setBit Reg.KSL.ISL_STS.LOCKOUT true else s.excursed := by
  rw [Dev.excursion_eq]
  by_cases hl : 2 ≤ s.recentExcursions.length
  · have still : calm s := h.resolve_left (by omega)
    rw [if_pos hl, if_pos hl, settle_calm (calm_books (Dev.calm_excursed still) (Dev.setBit_books _ _ _))]
  · rw [if_neg hl, if_neg hl]

/-- What an excursion leaves of the island. -/
theorem Dev.excursed_island (s : Dev) : s.excursed.island.pending = none ∧ s.excursed.island.queued = [] ∧
    s.excursed.island.reloading = true ∧ s.excursed.island.challenge = none ∧ s.excursed.island.store = s.island.store ∧
    s.excursed.out = s.out := by
  obtain ⟨regs, row, fco, psq, he⟩ := s.excursed_form
  rw [he]
  exact ⟨rfl, rfl, rfl, rfl, rfl, rfl⟩

end Sys2Proof.Machine

namespace Sys2Proof
open Machine

/-- Settles O54: the phase of the island, FAILED and the images' checks decide the boot; an excursion halts in every state. -/
theorem theIslandBoots : Obligations.TheIslandBoots := by
  intro s hq
  refine ⟨?boot, ?start, ?timeout, ?recovery, ?commit, ?commitFallback, ?commitNot, ?bootNot, ?timeoutNot, ?recoveryNot, ?compactNot, ?compact,
    ?excursion, ?reloadNot, ?reload⟩
  case boot =>
    intro ks stuck h0 hf he b
    have go : ¬ (s.dev.island.phase ≠ 0 ∨ s.dev.bit Reg.KSL.BOOT_STS.FAILED = true ∨ s.dev.psq.extest = true) := by simp [h0, hf, he]
    have other (h : s.fuses.imageOk (s.dev.island.image b) = false) :
        exec (.boot ks stuck) s = .next (s.did (s.dev.bootOther s.fuses (!b) stuck ks)) :=
      s.next_did_congr ((if_neg go).trans (if_neg (ne_true_of_eq_false h)))
    refine ⟨fun h => s.next_did_congr ((if_neg go).trans (if_pos h)), fun h k => ?_, fun h k => ?_⟩
    · exact (other h).trans (s.next_did_congr (Dev.bootOther_of_ok k stuck ks))
    · exact ⟨_, (other h).trans (s.next_did_congr (Dev.bootOther_of_bad k stuck ks)), s.dev.bootFailed, rfl, congrArg (· ++ s.sent) hq⟩
  case start => exact fun d m ks => ⟨rfl, rfl, rfl, rfl⟩
  case timeout =>
    intro ks stuck h1 u
    refine ⟨fun h => ?_, fun h k => ?_⟩
    · exact ⟨_, s.next_did_congr ((if_neg (not_not_intro h1)).trans (if_pos (.inl h))), Dev.bootFailed _, rfl, congrArg (· ++ s.sent) hq⟩
    · exact s.next_did_congr ((if_neg (not_not_intro h1)).trans (if_neg (fun c =>
        c.elim (fun c => absurd (h.symm.trans c) (by decide)) fun c => absurd (k.symm.trans c) (by decide))))
  case recovery =>
    intro m ks stuck hf h0 hm
    exact s.next_did_congr ((if_neg (by simp [hf, h0])).trans (if_pos hm))
  case commit => exact fun h2 hf => State.next_kept hq ((if_neg (ne_true_of_eq_false hf)).trans (if_neg (not_not_intro h2))) rfl
  case commitFallback => exact fun hf => State.next_kept hq (if_pos hf) (s.dev.raise_books _).keeps.1
  case commitNot => exact fun hf h2 => State.next_same hq ((if_neg (ne_true_of_eq_false hf)).trans (if_pos h2))
  case bootNot => exact fun ks stuck h => State.next_same hq (if_pos h)
  case timeoutNot => exact fun ks stuck h => State.next_same hq (if_pos h)
  case recoveryNot =>
    intro m ks stuck h
    by_cases hno : (!s.dev.bit Reg.KSL.BOOT_STS.FAILED) = true ∨ s.dev.island.phase ≠ 0
    · exact State.next_same hq (if_pos hno)
    · refine State.next_same hq ((if_neg hno).trans (if_neg ?_))
      rcases h with h | h | h
      · exact absurd (.inl (by simp [h])) hno
      · exact absurd (.inr h) hno
      · exact ne_true_of_eq_false h
  case compactNot => exact fun h => State.next_same hq (if_neg h)
  case compact => exact fun h => State.next_kept hq (if_pos h) rfl
  case excursion =>
    refine ⟨s.dev.excursion, rfl, fun h => ?_⟩
    obtain ⟨hp, hqd, hr, hc, hst, ho⟩ := s.dev.excursed_island
    obtain ⟨hb, hx, hk⟩ := s.dev.excursed_fields
    rw [Dev.excursion_of_calm h]
    by_cases hl : 2 ≤ s.dev.recentExcursions.length
    · rw [if_pos hl]
      have busy : (s.dev.excursed.setBit Reg.KSL.ISL_STS.LOCKOUT true).bit Reg.MGC.MBOX_STS.BUSY = false :=
        (congrArg (· != 0) (Dev.get_set_of_addr _ (by decide) (by decide) (by decide) _)).trans hb
      have count := (Dev.get_set_of_lo s.dev.excursed (f := Reg.KSL.ISL_STS.LOCKOUT) (g := Reg.KSL.ISL_STS.EXCURSIONS) (by decide) (by decide)
        (by decide) 1).trans hx
      refine ⟨hp, hqd, hr, hc, busy, hst, count, ho, (Dev.bit_setBit_same _ rfl _).trans ?_⟩
      exact ((congrArg _ (decide_eq_true hl)).trans (Bool.or_true _)).symm
    · rw [if_neg hl]
      exact ⟨hp, hqd, hr, hc, hb, hst, hx, ho, hk.trans ((congrArg _ (decide_eq_false hl)).trans (Bool.or_false _)).symm⟩
  case reloadNot =>
    intro h
    exact State.next_same hq (if_pos (by rw [h]; rfl))
  case reload =>
    intro h u
    exact s.next_did_congr (if_neg (by simp [h]))

end Sys2Proof
end

section
/-! SUPPORT. Signed operations (R371–R386, R500, R501): how one comes to the warden, and what its programmed record makes of the device. -/

namespace Sys2Proof.Machine

/-! ## To the warden -/

/-- Every signed operation of the table is carried out by its header and its body. -/
theorem exec_of_signedOf {i : Instr} {h : SignedHdr} {b : SignedBody} (hi : signedOf i = some (h, b)) (s : State) :
    exec i s = .next (s.did (s.dev.signed s.fuses h b)) := by
  unfold signedOf at hi
  split at hi
  all_goals cases hi
  all_goals rfl

theorem Dev.signed_of_unreachable {s : Dev} {h : SignedHdr} {n : Nat} (hc : h.chan = .spdm n) (hr : s.spdmReachable n = false) (fu : Fuses)
    (b : SignedBody) : s.signed fu h b = s := by
  unfold Dev.signed
  simp [hc, hr]

theorem Dev.signed_of_unsecured {s : Dev} {h : SignedHdr} {n : Nat} (hc : h.chan = .spdm n) (hr : s.spdmReachable n = true)
    (hs : s.secured n = false) (fu : Fuses) (b : SignedBody) : s.signed fu h b = s.send (.message n spdmSessionRequired []) := by
  unfold Dev.signed
  simp [hc, hr, hs]

theorem Dev.signed_of_secured {s : Dev} {h : SignedHdr} {n : Nat} (hc : h.chan = .spdm n) (hr : s.spdmReachable n = true)
    (hs : s.secured n = true) (fu : Fuses) (b : SignedBody) : s.signed fu h b = s.submit fu (signedAs h b) := by
  unfold Dev.signed signedAs
  simp [hc, hr, hs]

theorem Dev.signed_of_not_taken {s : Dev} {h : SignedHdr} {i : Issuer} (hc : h.chan = .ring i) (ht : s.takenOf i = none) (fu : Fuses)
    (b : SignedBody) : s.signed fu h b = s := by
  unfold Dev.signed
  simp [hc, ht]

/-- A carrier whose buffer was read brings the operation that it may carry. -/
theorem Dev.carried_of_read {s : Dev} {h : SignedHdr} {op : Nat} {p : PendingOp} (hp : h.ptr % 4 = 0) (hd : h.dmaAt = none)
    (hl : h.lenOk = true) (hb : p.op.body.carrier = some op) (fu : Fuses) (i : Issuer) : s.carried fu h i op p = s.submit fu p := by
  unfold Dev.carried
  simp [hp, hd, hl, hb]

theorem SignedBody.carrier_mem {b : SignedBody} {op : Nat} (h : b.carrier = some op) : signedCarriers.contains op = true := by
  cases b <;> simp [SignedBody.carrier] at h <;> subst h <;> decide

theorem Dev.signed_of_taken {s : Dev} {h : SignedHdr} {b : SignedBody} {i : Issuer} {x : Taken} (hc : h.chan = .ring i)
    (ht : s.takenOf i = some x) (hb : b.carrier = some x.opcode) (may : s.mayStart i x.opcode b.names = true)
    (serves : x.opcode = 0x29 ∨ (s.start i 2 0xFFFF b.names).serves = true) (hp : h.ptr % 4 = 0) (hd : h.dmaAt = none)
    (hl : h.lenOk = true) (fu : Fuses) : s.signed fu h b = (s.start i 2 0xFFFF b.names).submit fu (signedAs h b) := by
  have same : signedAs h b = { op := (signedAs h b).op, chan := .ring i } := by rw [← hc]; rfl
  have submitted := (s.start i 2 0xFFFF b.names).carried_of_read (p := signedAs h b) hp hd hl hb fu i
  rw [same] at submitted ⊢
  unfold Dev.signed
  simp only [hc, ht, SignedBody.carrier_mem hb, Bool.not_true, Bool.false_eq_true, if_false]
  by_cases h29 : x.opcode = 0x29
  · rw [if_pos h29]
    rw [h29] at may submitted
    exact (Dev.ringCmd_of_mayStart may 2 0xFFFF _).trans submitted
  · rw [if_neg h29]
    exact (Dev.ringCmd_of_mayStart may 2 0xFFFF _).trans ((if_pos (serves.resolve_left h29)).trans submitted)

/-- An operation that comes to the warden is submitted, on the device as it comes. -/
theorem signed_of_reaches {s : State} {h : SignedHdr} {b : SignedBody} {d : Dev} (r : reaches s h b d) :
    s.dev.signed s.fuses h b = d.submit s.fuses (signedAs h b) := by
  rcases r with ⟨n, hc, hr, hs, rfl⟩ | ⟨i, x, hc, ht, hb, may, rfl, serves, hp, hd, hl⟩
  · exact Dev.signed_of_secured hc hr hs _ _
  · exact Dev.signed_of_taken hc ht hb may serves hp hd hl _

/-! ## At the warden -/

theorem Dev.submit_of_busy {d : Dev} (h : d.islandFree = false) (fu : Fuses) (p : PendingOp) :
    d.submit fu p = d.setIsland fun i => { i with queued := i.queued ++ [p] } := if_neg (ne_true_of_eq_false h)

theorem Dev.submit_of_free {d : Dev} (h : d.islandFree = true) (fu : Fuses) (p : PendingOp) : d.submit fu p = d.beginSigned fu p := if_pos h

theorem Dev.beginSigned_of_accepted {d : Dev} {fu : Fuses} {p : PendingOp} (h : d.verify fu p.op = 0) :
    d.beginSigned fu p = d.setIsland fun i => { i with pending := some p } := by
  unfold Dev.beginSigned
  split
  · rfl
  · next h0 => exact absurd h h0

theorem Dev.beginSigned_of_refused {d : Dev} {fu : Fuses} {p : PendingOp} (h : d.verify fu p.op ≠ 0) :
    d.beginSigned fu p = d.refuseSigned p (d.verify fu p.op) := by
  unfold Dev.beginSigned
  split
  · next h0 => exact absurd h0 h
  · rfl

/-! ## The record is programmed -/

/-- An operation other than LOG_CLEAR and a zeroisation of the device takes effect, then LAST_SEQ, its record and its completion. -/
theorem Dev.persistSigned_eq {s : Dev} {p : PendingOp} (hl : p.op.body ≠ .logClear) (hz : ∀ k t, p.op.body ≠ .zeroise 2 k t) :
    let u := s.setStore fun k => { k with records := k.records + 1 }
    s.persistSigned p = (((u.applySigned p.op).setSeq p.op.cred p.op.seq).raise (p.record p.op.body.event 0 p.op.body.object)).finishSigned p.chan
      (u.forwardSigned p.op) := by
  unfold Dev.persistSigned
  dsimp only
  split
  · next h => exact absurd h hl
  · next k t h => exact absurd h (hz k t)
  · rfl

/-! ## What operations make of the key store -/

theorem Dev.slot_setSlot_same (s : Dev) (k : Nat) (m : MemSlot) : (s.setSlot k m).slot k = m := Tab.getD_putD_same _ _ _ _

/-- A cleared slot holds no key. -/
theorem Dev.slot_clearSlot (s : Dev) (k : Nat) (st : SlotState) :
    (s.clearSlot k st).slot k = { s.slot k with st, cur := none, prev := none, next := none, check := 0 } := s.slot_setSlot_same k _

theorem Tab.get?_foldl_put {α : Type} (l : List Nat) (v : α) (t : Tab α) {g : Nat} (h : g ∈ l ∨ t.get? g = some v) :
    (l.foldl (fun t g => t.put g v) t).get? g = some v := by
  induction l generalizing t with
  | nil => simpa using h
  | cons a l ih =>
    refine ih _ ?_
    by_cases hg : g = a
    · exact .inr (hg ▸ Tab.get?_put_same _ _ _)
    · rw [Tab.get?_put_ne _ hg]
      exact h.imp (fun h => (List.mem_cons.mp h).resolve_left hg) id

end Sys2Proof.Machine

namespace Sys2Proof
open Machine

/-- Settles O53: how an operation comes to the warden, and what its body makes of the key store. -/
theorem signedOperationsTakeEffect : Obligations.SignedOperationsTakeEffect := by
  intro s
  refine ⟨fun d p => ⟨fun h => Dev.submit_of_busy h _ _, fun h => ⟨fun hv => ?_, fun hv => ?_⟩⟩, fun i h b hi => ?table, fun h d => ?warden,
    ?noRecord, fun p hp => ?record, fun d o => ?effect⟩
  · exact (Dev.submit_of_free h _ _).trans (Dev.beginSigned_of_accepted hv)
  · exact (Dev.submit_of_free h _ _).trans (Dev.beginSigned_of_refused hv)
  case table =>
    have step := exec_of_signedOf hi s
    refine ⟨step, fun hq => ⟨fun n hc hr => ?_, fun n hc hr hs => ?_, fun r hc ht => ?_⟩⟩
    · exact step.trans (State.next_same hq (Dev.signed_of_unreachable hc hr _ _))
    · exact step.trans ((s.next_did_congr (Dev.signed_of_unsecured hc hr hs _ _)).trans (congrArg _ (State.did_send_of_quiet hq _)))
    · exact step.trans (State.next_same hq (Dev.signed_of_not_taken hc ht _ _))
  case warden =>
    intro goes
    have warden {i : Instr} {b : SignedBody} (hi : signedOf i = some (h, b)) (r : reaches s h b d) : exec i s = goes b :=
      (exec_of_signedOf hi s).trans (s.next_did_congr (signed_of_reaches r))
    refine ⟨fun key r => warden rfl r, fun key r => warden rfl r, fun t key r => warden rfl r, fun l r => warden rfl r, fun t l hc r => warden ?_ r,
      fun t l hc r => warden ?_ r, fun t r => warden rfl r, fun n g t a r => warden rfl r, fun k e m p r => warden rfl r, fun k e m r => warden rfl r,
      fun k r => warden rfl r, fun c k t r => warden rfl r, fun k x r => warden rfl r, fun o m k r => warden rfl r, fun t r => warden rfl r, fun r => warden rfl r,
      fun c l r => warden rfl r⟩
    · show some (h, SignedBody.tenantUnbind (if h.cred = 0xFFFF then t else h.cred) l) = _
      rw [if_neg hc]
    · show some (h, SignedBody.tenantUnbind (if h.cred = 0xFFFF then t else h.cred) l) = _
      rw [if_pos hc]
  case noRecord => exact fun h hq => State.next_same hq (by simp only [h])
  case record =>
    intro v
    exact ⟨s.next_did_congr (by simp only [hp]; rfl), fun hl hz => Dev.persistSigned_eq hl hz⟩
  case effect =>
    obtain ⟨device, cred, seq, signer, body, hash8⟩ := o
    intro u
    refine ⟨?_, ?_, ?_, ?_, ?_, ?_, ?_, ?_, ?_, ?_⟩
    · rintro key (rfl | rfl) <;> rfl
    · rintro t key rfl
      exact Tab.get?_put_same _ _ _
    · intro g l h hg
      change body = .tenantBind cred l at h
      subst h
      exact Tab.get?_foldl_put l cred _ (.inl hg)
    · rintro k e m rfl
      exact d.slot_setSlot_same k _
    · rintro k rfl
      have empty : u.slot k = _ := d.slot_clearSlot k .empty
      exact ⟨congrArg MemSlot.st empty, congrArg MemSlot.cur empty, congrArg MemSlot.prev empty⟩
    · rintro k t rfl
      have zeroised : u.slot k = _ := d.slot_clearSlot k .zeroised
      exact ⟨congrArg MemSlot.st zeroised, congrArg MemSlot.cur zeroised, congrArg MemSlot.prev zeroised⟩
    · rintro x rfl
      rfl
    · rintro x rfl
      rfl
    · rintro t rfl ht
      exact congrArg (fun d : Dev => d.island.store.bootSel) (if_neg ht)
    · rintro c l rfl
      exact ⟨rfl, Dev.get_set_same _ _ _⟩

end Sys2Proof
end

section
/-! SUPPORT. Timers of the lease, the referee and the resync (R320–R323, R332): what is due, and what a grant leaves. -/

namespace Sys2Proof.Machine

/-! ## The referee (R321, R322) -/

/-- OCLK counts no less than the time that a timer waits for. -/
theorem Dev.le_oclk_at (s : Dev) (t : Nat) : t ≤ (s.at (t * fclkOclk)).oclk :=
  (Nat.le_div_iff_mul_le (by decide)).mpr (Nat.le_max_right _ _)

/-- A held ACQUIRE at the front whose time has come is granted. -/
theorem Dev.refTry_of_due {s : Dev} {k w t : Nat} {p : RefPair} {m : Nat × LeaseMsg} {rest : List (Nat × LeaseMsg)}
    (hk : s.refPairs.get? k = some p) (hh : p.held = m :: rest) (hw : p.twin m.1 = some w) (ht : p.when w m.2 = some t) (due : t ≤ s.oclk) :
    s.refTry k = s.refGrant k p w m.2 [] := by
  unfold Dev.refTry
  simp only [hk, hh, List.find?_cons, hw, ht, due, decide_true]

theorem Dev.Books.refPairs {s t : Dev} (h : Dev.Books s t) : t.refPairs = s.refPairs := by
  obtain ⟨regs, row, fco, psq, rfl⟩ := h
  rfl

/-- A grant: the next epoch, its holder, and one record more to program. -/
theorem Dev.refGrant_grants (d : Dev) (k : Nat) (p : RefPair) (w : Nat) (m : LeaseMsg) (also : List (Nat × LeaseMsg)) :
    ∃ q, (d.refGrant k p w m also).refPairs.get? k = some q ∧ q.epoch = p.epoch + 1 ∧ q.holder = w ∧ q.stbyOk = false ∧
      q.end_ = d.oclk + oLease ∧ q.en = p.en ∧ q.pairId = p.pairId ∧ (∀ x ∈ q.held, x.1 ≠ p.member w) ∧
      ∃ r l, q.waiting = p.waiting ++ [(r, l)] ∧ r.epoch = p.epoch + 1 ∧ r.holder = w := by
  unfold Dev.refGrant
  rw [(Dev.raise_books _ _).refPairs]
  refine ⟨_, Tab.get?_put_same _ _ _, rfl, rfl, rfl, rfl, rfl, rfl, fun x hx => ?_, _, _, rfl, rfl, rfl⟩
  have kept : x ∈ p.held.filter fun x => x.1 != p.member w := (List.mem_filter.mp hx).1
  exact bne_iff_ne.mp (List.mem_filter.mp kept).2

/-! ## Requests sent again, and loans returned (R320, R353) -/

/-- A request that may be sent again is; one that is a renewal is counted. -/
theorem Dev.leaseRetry_of_sent {s : Dev} {at_ : Nat} {m : LeaseMsg} {rest : List (Nat × LeaseMsg)} (h : s.mirror.requests = (at_, m) :: rest)
    (hr : m.running = false) : let u := s.at ((at_ + oRetry) * fclkOclk)
    s.leaseRetry = (if m.subtype = 1 then u.count Reg.MIR.RENEW_FAIL.COUNT Reg.MIR.RENEW_FAIL.SAT 1 (mirEv u 0x1FE false u.role none 0 0 none none)
      else u).leaseRequest m.subtype m := by
  unfold Dev.leaseRetry
  simp only [h, hr, Bool.false_eq_true, if_false]

/-- LOAN_IDLE_RETURN, by the entry and then by its time. -/
theorem exec_loanIdleReturn (s : State) (k : Nat) : exec (.loanIdleReturn k) s = .next (s.did
    (match s.dev.round.borrow.get? k with
    | some b => match b.idleSince with
      | some t => if s.dev.get Reg.RND.BORROW.IDLE_S ≠ 0 ∧ s.dev.loanIdle k then (s.dev.at (t + s.dev.get Reg.RND.BORROW.IDLE_S * fclkS)).returnLoan k
        else s.dev
      | none => s.dev
    | none => s.dev)) := by
  refine s.next_did_congr ?_
  dsimp only
  cases s.dev.round.borrow.get? k with
  | none => rfl
  | some b =>
    obtain ⟨loan, gen, idle⟩ := b
    cases idle <;> rfl

/-! ## Resync (R332, R333) -/

/-- Neither the clock nor a free choice stands in the way of a copy. -/
theorem Dev.copyNeed_at (s : Dev) (t g : Nat) : (s.at t).copyNeed g = s.copyNeed g := rfl

theorem Dev.copyNeed_choose (s : Dev) (n g : Nat) : (s.choose n).2.copyNeed g = s.copyNeed g := rfl

theorem Round.set_borrow_same {r : Round} {t : Tab Borrow} (h : t = r.borrow) : ({ r with borrow := t } : Round) = r := by
  subst h
  rfl

theorem Dev.set_div_same {s : Dev} {t : Tab Unit} (h : t = s.mirror.div) : ({ s with mirror := { s.mirror with div := t } } : Dev) = s := by
  subst h
  rfl

/-- The copy step, once it is due. -/
theorem Dev.copyStep_of_due {s : Dev} (hr : s.role = 1) (hp : s.pstate = 3) (hs : s.mirror.resyncStep = 4) (hn : s.get Reg.MIR.RESYNC.RATE ≠ 0) :
    ¬ (s.role ≠ 1 ∨ s.pstate ≠ 3 ∨ s.mirror.resyncStep ≠ 4 ∨ s.get Reg.MIR.RESYNC.RATE = 0) := by
  simp [hr, hp, hs, hn]

theorem Dev.copyStep_of_none {s : Dev} (due : ¬ (s.role ≠ 1 ∨ s.pstate ≠ 3 ∨ s.mirror.resyncStep ≠ 4 ∨ s.get Reg.MIR.RESYNC.RATE = 0))
    (hd : s.mirror.div = .empty) : s.copyStep = ((s.at s.mirror.copyAt).setBit Reg.MIR.RSYNC_STS.KEY_WAIT false).joinCheck := by
  unfold Dev.copyStep
  rw [if_neg due]
  dsimp only
  rw [Dev.set_div_same (s := s.at s.mirror.copyAt) (by simp only [Dev.at_mirror, hd]; rfl)]
  simp only [Dev.at_mirror, hd]
  rfl

/-- One granule diverges and nothing stands in its way: its copy is sent. -/
theorem Dev.copyStep_of_one {s : Dev} (due : ¬ (s.role ≠ 1 ∨ s.pstate ≠ 3 ∨ s.mirror.resyncStep ≠ 4 ∨ s.get Reg.MIR.RESYNC.RATE = 0)) {g : Nat}
    (hd : s.mirror.div = ⟨[(g, ())]⟩) (hc : s.mirror.copies = .empty) (ready : s.copyNeed g = .ready)
    (still : ((s.at s.mirror.copyAt).setBit Reg.MIR.RSYNC_STS.KEY_WAIT false).copyNeed g = .ready) :
    let w := (((s.at s.mirror.copyAt).setBit Reg.MIR.RSYNC_STS.KEY_WAIT false).choose 1).2
    s.copyStep = (({ w with mirror := { w.mirror with copyAt := w.clock + ceilDiv fclkMs (w.get Reg.MIR.RESYNC.RATE) } } : Dev).copyGran g) := by
  have need : (s.at s.mirror.copyAt).copyNeed g = .ready := ready
  unfold Dev.copyStep
  rw [if_neg due]
  dsimp only
  have left : ((s.at s.mirror.copyAt).mirror.div.keys.filter fun g => !(s.at s.mirror.copyAt).mirror.copies.vals.contains g) = [g] := by
    simp only [Dev.at_mirror, hd, hc]
    rfl
  have gone : ([g].filter fun g => (s.at s.mirror.copyAt).copyNeed g == .gone) = [] := by simp [need]
  have waits : ([g].filter fun g => (s.at s.mirror.copyAt).copyNeed g == .key) = [] := by simp [need]
  simp only [left, gone]
  rw [Dev.set_div_same (s := s.at s.mirror.copyAt) (by simp only [Dev.at_mirror, hd]; rfl)]
  simp only [waits]
  generalize hv : (s.at s.mirror.copyAt).setBit Reg.MIR.RSYNC_STS.KEY_WAIT false = v at still
  have able : ([g].filter fun g => v.copyNeed g == .ready || v.copyNeed g == .fill && !v.fills.has g) = [g] := by simp [still]
  have chosen : [g].getD (v.choose [g].length).1 0 = g := by simp [Dev.choose, Nat.mod_one]
  simp only [able, chosen]
  exact if_neg (by rw [Dev.copyNeed_choose, still]; decide)

end Sys2Proof.Machine

namespace Sys2Proof
open Machine

/-- Settles O52: role, state and what is held decide whether a timer does anything; the rest is the operation it names. -/
theorem leaseAndRoundTimersTakeEffect : Obligations.LeaseAndRoundTimersTakeEffect := by
  intro s hq
  refine ⟨?renew, ?retry, ?retryNot, ?fence, ?fenceNot, ?drain, ?drainNot, ?detach, ?detachNot, ?lapse, Dev.refGrant_grants, ?lapseNot,
    ?log, ?logNot, ?resync, ?resyncNot, ?copy, ?copyNot, ?token, ?tokenNot, ?forward, ?forwardNot, ?lost, ?lostNot, ?locked, ?enable,
    ?reclaim, ?reclaimNot, ?idle, ?idleNot, ?offer, ?offerNone, ?tick, ?tickNot⟩
  case renew =>
    intro v u
    refine ⟨fun h => s.next_did_congr (if_pos h), fun h => ?_⟩
    have on : ¬ (s.dev.bit Reg.CKS.PLL_STS.HOLDOVER = true) := ne_true_of_eq_false h
    refine ⟨fun hr => s.next_did_congr ((if_neg on).trans (if_pos hr)), fun hr => ?_, fun hr hi hs => ?_, fun hr => ?_⟩
    · exact s.next_did_congr ((if_neg on).trans ((if_neg (show ¬ (s.dev.role = 1 ∨ s.dev.role = 3) by omega)).trans (if_pos hr)))
    · exact s.next_did_congr ((if_neg on).trans ((if_neg (show ¬ (s.dev.role = 1 ∨ s.dev.role = 3) by omega)).trans
        ((if_neg (show ¬ s.dev.role = 2 by omega)).trans (if_pos ⟨hr, hi, hs⟩))))
    · have hr' : s.dev.role ∉ [1, 2, 3, 6] ∨ s.dev.role = 6 := hr.imp_right And.left
      simp only [List.mem_cons, List.not_mem_nil, or_false, not_or] at hr'
      refine s.next_did_congr ((if_neg on).trans ((if_neg (show ¬ (s.dev.role = 1 ∨ s.dev.role = 3) by omega)).trans
        ((if_neg (show ¬ s.dev.role = 2 by omega)).trans (if_neg ?_))))
      rintro ⟨h6, hi, hs⟩
      rcases hr with hr | ⟨-, hr | hr⟩
      · simp [show s.dev.role = 6 from h6] at hr
      · exact Bool.false_ne_true (hr.symm.trans hi)
      · exact absurd hs (Nat.not_lt.mpr hr)
  case retry =>
    intro at_ m rest hm hr u
    refine ⟨fun h => s.next_did_congr ?_, fun h => s.next_did_congr ?_⟩
    · exact (Dev.leaseRetry_of_sent hm hr).trans (congrArg (fun d : Dev => d.leaseRequest m.subtype m) (if_neg h))
    · refine (Dev.leaseRetry_of_sent hm hr).trans ?_
      rw [if_pos h, h]
  case retryNot =>
    rintro (h | ⟨at_, m, rest, h, hr⟩)
    · exact State.next_same hq (by unfold Dev.leaseRetry; simp only [h])
    · exact State.next_same hq (by unfold Dev.leaseRetry; simp only [h, hr, if_true])
  case fence =>
    intro e hr he
    exact s.next_did_congr (by unfold Dev.fencePoint; simp only [he, hr, if_true])
  case fenceNot =>
    intro h
    refine State.next_same hq ?_
    unfold Dev.fencePoint
    dsimp only
    split
    · next e he =>
      refine if_neg fun h1 => ?_
      rcases h with h | h
      · exact h h1
      · exact absurd (he.symm.trans h) (by simp)
    · rfl
  case drain => exact fun hr hd => s.next_did_congr (if_pos ⟨hr, hd⟩)
  case drainNot =>
    refine fun h => State.next_same hq (if_neg ?_)
    rintro ⟨h3, hd⟩
    rcases h with h | h
    · exact h h3
    · exact Bool.false_ne_true (h.symm.trans hd)
  case detach =>
    intro l hl h16 h
    refine s.next_did_congr (if_pos ?_)
    simpa [hl, h16, or_assoc] using h
  case detachNot =>
    intro l h
    refine State.next_same hq (if_neg ?_)
    rcases h with h | h | ⟨h1, h2, h3⟩
    · simp [h]
    · simp [Nat.not_lt.mpr h]
    · simp [h1, h2, h3]
  case lapse =>
    intro k p m w rest hk he hh hw
    have open_ : p.en = true ∧ (!p.held.isEmpty) = true := ⟨he, by rw [hh]; rfl⟩
    refine ⟨fun ht => s.next_did_congr ?_, fun ht => s.next_did_congr ?_⟩
    · simp only [hk, if_pos open_]
      exact Dev.refTry_of_due hk hh hw ht (s.dev.le_oclk_at _)
    · simp only [hk, if_pos open_]
      exact Dev.refTry_of_due hk hh hw ht (s.dev.le_oclk_at _)
  case lapseNot =>
    rintro k (h | ⟨p, hk, hp⟩)
    · exact ⟨State.next_same hq (by simp only [h]), State.next_same hq (by simp only [h])⟩
    · have shut : ¬ (p.en = true ∧ (!p.held.isEmpty) = true) := by rcases hp with hp | hp <;> simp [hp]
      exact ⟨State.next_same hq (by simp only [hk, if_neg shut]), State.next_same hq (by simp only [hk, if_neg shut])⟩
  case log => exact fun k p r answers rest hk hw => s.next_did_congr (by simp only [hk, hw])
  case logNot =>
    rintro k (h | ⟨p, hk, hp⟩)
    · exact State.next_same hq (by simp only [h])
    · exact State.next_same hq (by simp only [hk, hp])
  case resync => exact fun h1 h2 => s.next_did_congr (if_pos (by rw [h1, h2]; rfl))
  case resyncNot =>
    refine fun h => State.next_same hq (if_neg ?_)
    rcases h with h | h <;> simp [h]
  case copy =>
    intro hr hp hs hn u
    have due := Dev.copyStep_of_due hr hp hs hn
    exact ⟨fun hd => s.next_did_congr (Dev.copyStep_of_none due hd),
      fun g hd hc ready still => s.next_did_congr (Dev.copyStep_of_one due hd hc ready still)⟩
  case copyNot => exact fun h => State.next_same hq (if_pos h)
  case token => exact fun h1 h2 => s.next_did_congr (if_pos ⟨h1, h2⟩)
  case tokenNot =>
    refine fun h => State.next_same hq (if_neg ?_)
    rintro ⟨hs, hl⟩
    rcases h with h | h
    · omega
    · exact h hl
  case forward => exact fun m x y tok at_ h => s.next_did_congr (by simp only [h])
  case forwardNot => exact fun h => State.next_same hq (by simp only [h])
  case lost =>
    intro l hl hs hm hf u
    refine ⟨_, s.next_did_congr ?_, rfl⟩
    unfold Dev.leaderLost
    simp only [hl]
    exact if_pos ⟨hs, hm, hf⟩
  case lostNot =>
    intro h
    refine State.next_same hq ?_
    unfold Dev.leaderLost
    dsimp only
    split
    · rfl
    · next l hl =>
      refine if_neg ?_
      rintro ⟨hs, hm, hf⟩
      rcases h with h | h | h | h
      · exact absurd (hl.symm.trans h) (by simp)
      · exact hm (Option.some.inj (hl.symm.trans h))
      · omega
      · exact h hf
  case locked => exact fun h => State.next_kept hq (if_pos h) (s.dev.discard_books _ _).keeps.1
  case enable => exact fun h => s.next_did_congr (if_neg (ne_true_of_eq_false h))
  case reclaim => exact fun d h hd => s.next_did_congr ((if_pos h).trans (by simp only [hd]))
  case reclaimNot =>
    rintro (h | h)
    · exact State.next_same hq (if_neg (Nat.not_lt.mpr h))
    · by_cases hf : s.dev.freeFrames < s.dev.get Reg.RND.LEND.KEEP_FRAMES
      · exact State.next_same hq ((if_pos hf).trans (by simp only [h]))
      · exact State.next_same hq (if_neg hf)
  case idle => exact fun k b at_ hb hi hn hl => (exec_loanIdleReturn s k).trans (s.next_did_congr (by simp only [hb, hi, hn, hl, ne_eq, not_false_eq_true, and_self, if_true]))
  case idleNot =>
    intro k h
    refine (exec_loanIdleReturn s k).trans (State.next_same hq ?_)
    cases hb : s.dev.round.borrow.get? k with
    | none => rfl
    | some b =>
      cases hi : b.idleSince with
      | none => simp only [hi]
      | some at_ =>
        simp only [hi]
        refine if_neg ?_
        rintro ⟨hn, hl⟩
        rcases h with h | ⟨c, hc, h⟩ | h | h
        · exact absurd (hb.symm.trans h) (by simp)
        · exact absurd (hi.symm.trans ((Option.some.inj (hb.symm.trans hc)) ▸ h)) (by simp)
        · exact hn h
        · exact Bool.false_ne_true (h.symm.trans hl)
  case offer => exact fun x h => s.next_did_congr (by simp only [h])
  case offerNone => exact fun h => s.next_did_congr (by simp only [h])
  case tick => exact rfl
  case tickNot =>
    intro ha hb hn
    have bare : ({ s.dev.round with borrow := (s.dev.round.borrow.map fun k x =>
        { x with idleSince := if s.dev.loanIdle k then some (x.idleSince.getD s.dev.clock) else none }) } : Round) = s.dev.round := by
      have none : s.dev.round.borrow = ⟨[]⟩ := congrArg Tab.mk hb
      exact Round.set_borrow_same (by rw [none]; rfl)
    have rested : s.dev.wantLoan = s.dev := if_neg (by simp [hn])
    refine State.next_same hq ?_
    simp only [ha, List.foldl_nil, bare]
    exact rested

end Sys2Proof
end

section
/-! SUPPORT. A DRAM channel's enabling and training (R132–R134, R149–R152): its registers apart from one another, and what the survey of its
DIMMs changes. -/

namespace Sys2Proof.Machine

/-! ## Bits of a word -/

theorem testBit_withBit (x i : Nat) : (withBit x i).testBit i = true := by
  unfold withBit
  simp

theorem testBit_withoutBit (x i : Nat) : (withoutBit x i).testBit i = false := by
  unfold withoutBit
  by_cases h : x.testBit i = true
  · rw [if_pos h, Nat.testBit_eq_decide_div_mod_eq]
    rw [Nat.testBit_eq_decide_div_mod_eq, decide_eq_true_iff] at h
    have less : (x - 2 ^ i) / 2 ^ i = x / 2 ^ i - 1 := by
      have := Nat.sub_mul_div x (2 ^ i) 1
      rwa [Nat.mul_one] at this
    rw [less, decide_eq_false_iff_not]
    omega
  · rw [if_neg h]
    exact Bool.not_eq_true _ ▸ h

theorem testBit_mod_of_lt (x : Nat) {i w : Nat} (h : i < w) : (x % 2 ^ w).testBit i = x.testBit i := by
  simp [Nat.testBit_mod_two_pow, h]

/-! ## Fields of one register block -/

/-- Two words of a block at different offsets are different words. -/
theorem Field.addr_ne_of_offset {f g : Field} {a b base : Nat} (hf : f.addr = a + base) (hg : g.addr = b + base) (h : a ≠ b) : f.addr ≠ g.addr := by
  omega

/-! ## Registers, events and channels -/

/-- `t` is `s` with other channels, registers, ROW, FCO and PSQ state at most. -/
def Dev.OnChannels (s t : Dev) : Prop := ∃ channels regs row fco psq, t = { s with channels, regs, row, fco, psq }

theorem Dev.OnChannels.trans {s t u : Dev} (h : Dev.OnChannels s t) (k : Dev.OnChannels t u) : Dev.OnChannels s u := by
  obtain ⟨a, b, c, d, e, rfl⟩ := h
  obtain ⟨a', b', c', d', e', rfl⟩ := k
  exact ⟨a', b', c', d', e', rfl⟩

theorem Dev.Books.onChannels {s t : Dev} (h : Dev.Books s t) : Dev.OnChannels s t := by
  obtain ⟨regs, row, fco, psq, rfl⟩ := h
  exact ⟨s.channels, regs, row, fco, psq, rfl⟩

theorem Dev.OnChannels.refl (s : Dev) : Dev.OnChannels s s := (Dev.Books.refl s).onChannels

theorem Dev.setChannel_onChannels (s : Dev) (n : Nat) (c : Channel) : Dev.OnChannels s (s.setChannel n c) :=
  ⟨_, s.regs, s.row, s.fco, s.psq, rfl⟩

theorem Dev.OnChannels.frames_out {s t : Dev} (h : Dev.OnChannels s t) : t.frames = s.frames ∧ t.out = s.out := by
  obtain ⟨channels, regs, row, fco, psq, rfl⟩ := h
  exact ⟨rfl, rfl⟩

theorem Dev.Books.channel {s t : Dev} (h : Dev.Books s t) (n : Nat) : t.channel n = s.channel n := by
  obtain ⟨regs, row, fco, psq, rfl⟩ := h
  rfl

theorem Dev.channel_setChannel_same (s : Dev) (n : Nat) (c : Channel) : (s.setChannel n c).channel n = c := Tab.getD_putD_same _ _ _ _

theorem Dev.channel_setChannel_ne (s : Dev) {n m : Nat} (h : m ≠ n) (c : Channel) : (s.setChannel n c).channel m = s.channel m :=
  Tab.getD_putD_ne _ h _ _ _

@[simp] theorem Dev.get_setChannel (s : Dev) (n : Nat) (c : Channel) (f : Field) : (s.setChannel n c).get f = s.get f := rfl

/-! ## A channel's error, and its fill's end (R127–R129) -/

theorem Dev.get_chanErr (s : Dev) (n : Nat) {f : Field} (h : f.addr ≠ 0x580004) (row : f.addr ≠ 0x8c0024) (hf : f.lo < 32) :
    (s.chanErr n).get f = s.get f :=
  (Dev.get_raise_of_addr _ row hf _).trans ((Dev.get_set_of_addr _ (f := Reg.ECS.FILL_STS.ALL_DONE) h hf (by decide) _).trans
    (s.get_set_of_addr (f := Reg.ECS.FILL_STS.CH_ERR) h hf (by decide) _))

theorem Dev.chanErr_books (s : Dev) (n : Nat) : Dev.Books s (s.chanErr n) :=
  ((s.set_books _ _).trans (Dev.setBit_books _ _ _)).trans (Dev.raise_books _ _)

/-- A channel's error shows, and ALL_DONE no longer holds. -/
theorem Dev.chanErr_shows (s : Dev) {n : Nat} (hn : n < 12) :
    ((s.chanErr n).get Reg.ECS.FILL_STS.CH_ERR).testBit n = true ∧ (s.chanErr n).bit Reg.ECS.FILL_STS.ALL_DONE = false := by
  have shown {f : Field} (row : f.addr ≠ 0x8c0024) (hf : f.lo < 32) := Dev.get_raise_of_addr
    ((s.set Reg.ECS.FILL_STS.CH_ERR (withBit (s.get Reg.ECS.FILL_STS.CH_ERR) n)).setBit Reg.ECS.FILL_STS.ALL_DONE false) row hf
    (ecsEv 0x16C 7 n 0 15 0 0 0 (2 ^ 40 - 1) 0)
  refine ⟨?_, bne_eq_false_iff_eq.2 ((shown (f := Reg.ECS.FILL_STS.ALL_DONE) (by decide) (by decide)).trans (Dev.get_set_same _ _ _))⟩
  have err : (s.chanErr n).get Reg.ECS.FILL_STS.CH_ERR = withBit (s.get Reg.ECS.FILL_STS.CH_ERR) n % 2 ^ 12 :=
    (shown (f := Reg.ECS.FILL_STS.CH_ERR) (by decide) (by decide)).trans
      ((Dev.get_set_of_lo _ (by decide) (by decide) (by decide) _).trans (Dev.get_set_same _ _ _))
  rw [err, testBit_mod_of_lt _ hn, testBit_withBit]

theorem Dev.fillCheck_books (s : Dev) (n : Nat) : Dev.Books s (s.fillCheck n) :=
  .ite (((s.set_books _ _).trans (Dev.setBit_books _ _ _)).trans (Dev.raise_books _ _)) (s.set_books _ _)

/-! ## The survey of a channel's DIMMs (R132–R134, R139, R156) -/

/-- A channel among those set is in the mode set. -/
theorem Dev.i3c_foldl_setChannel (base n : Nat) (b : Bool) (l : List Nat) (s : Dev) (h : (s.channel n).i3c = b ∨ ∃ k ∈ l, base + k = n) :
    ((l.foldl (fun s k => s.setChannel (base + k) { s.channel (base + k) with i3c := b }) s).channel n).i3c = b := by
  induction l generalizing s with
  | nil => simpa using h
  | cons k l ih =>
    refine ih _ ?_
    by_cases hk : n = base + k
    · subst hk
      exact .inl (congrArg Channel.i3c (Dev.channel_setChannel_same _ _ _))
    · rw [Dev.channel_setChannel_ne _ hk]
      refine h.imp_right fun ⟨j, hj, e⟩ => ⟨j, (List.mem_cons.mp hj).resolve_left fun hjk => hk ?_, e⟩
      rw [← e, hjk]

theorem Dev.i3c_setBus (s : Dev) (n : Nat) (b : Bool) : ((s.setBus n b).channel n).i3c = b :=
  Dev.i3c_foldl_setChannel (n / 3 * 3) n b (List.range 3) s (.inr ⟨n % 3, List.mem_range.mpr (Nat.mod_lt _ (by decide)), by omega⟩)

theorem Dev.setBus_onChannels (s : Dev) (n : Nat) (b : Bool) : ∃ channels, s.setBus n b = { s with channels } := by
  unfold Dev.setBus
  generalize List.range 3 = l
  induction l generalizing s with
  | nil => exact ⟨s.channels, rfl⟩
  | cons k l ih => exact ih (s.setChannel _ _)

theorem Dev.setPop_books (s : Dev) (n : Nat) (d : Dimm) (count kind : Nat) : Dev.Books s (s.setPop n d count kind) :=
  (((((s.set_books _ _).trans (Dev.setBit_books _ _ _)).trans (Dev.setBit_books _ _ _)).trans (Dev.setBit_books _ _ _)).trans
    (Dev.set_books _ _ _)).trans (Dev.set_books _ _ _)

theorem Dev.get_setPop (s : Dev) (n : Nat) (d : Dimm) (count kind : Nat) {f : Field} (h : f.addr ≠ 0x280008 + 0x40000 * n) (hf : f.lo < 32) :
    (s.setPop n d count kind).get f = s.get f := by
  have step (s : Dev) {g : Field} (hg : g.addr = 0x280008 + 0x40000 * n) (lo : g.lo < 32) (v : Nat) : (s.set g v).get f = s.get f :=
    s.get_set_of_addr (hg ▸ h) hf lo v
  unfold Dev.setPop Dev.setBit
  rw [step _ rfl (of_decide_eq_true rfl), step _ rfl (of_decide_eq_true rfl), step _ rfl (of_decide_eq_true rfl),
    step _ rfl (of_decide_eq_true rfl), step _ rfl (of_decide_eq_true rfl), step _ rfl (of_decide_eq_true rfl)]

/-- Where a timing field lies: in TIM0, TIM1 or REF_CTL of its channel. -/
theorem timFields_place (n : Nat) : ∀ y ∈ timFields n,
    (y.1.addr = 0x280020 + 0x40000 * n ∨ y.1.addr = 0x280024 + 0x40000 * n ∨ y.1.addr = 0x280030 + 0x40000 * n) ∧ y.1.lo < 32 := by
  have first {f : Field} (h : f.addr = 0x280020 + 0x40000 * n) (lo : f.lo < 32) : (f.addr = 0x280020 + 0x40000 * n ∨
    f.addr = 0x280024 + 0x40000 * n ∨ f.addr = 0x280030 + 0x40000 * n) ∧ f.lo < 32 := ⟨.inl h, lo⟩
  have second {f : Field} (h : f.addr = 0x280024 + 0x40000 * n) (lo : f.lo < 32) : (f.addr = 0x280020 + 0x40000 * n ∨
    f.addr = 0x280024 + 0x40000 * n ∨ f.addr = 0x280030 + 0x40000 * n) ∧ f.lo < 32 := ⟨.inr (.inl h), lo⟩
  intro y hy
  rcases (by simpa only [timFields, List.mem_cons, List.not_mem_nil, or_false] using hy :
    y = _ ∨ y = _ ∨ y = _ ∨ y = _ ∨ y = _ ∨ y = _ ∨ y = _ ∨ y = _ ∨ y = _) with rfl | rfl | rfl | rfl | rfl | rfl | rfl | rfl | rfl
  · exact first rfl (of_decide_eq_true rfl)
  · exact first rfl (of_decide_eq_true rfl)
  · exact first rfl (of_decide_eq_true rfl)
  · exact first rfl (of_decide_eq_true rfl)
  · exact first rfl (of_decide_eq_true rfl)
  · exact second rfl (of_decide_eq_true rfl)
  · exact second rfl (of_decide_eq_true rfl)
  · exact second rfl (of_decide_eq_true rfl)
  · exact ⟨.inr (.inr rfl), of_decide_eq_true rfl⟩

/-- A sequence of register writes, each made under a condition, changes only the words it writes. -/
theorem Dev.foldl_set_frame {f : Field} (hf : f.lo < 32) (p : Dev → (Field × Nat) × Nat → Bool) (l : List ((Field × Nat) × Nat))
    (apart : ∀ x ∈ l, f.addr ≠ x.1.1.addr ∧ x.1.1.lo < 32) (s : Dev) :
    (l.foldl (fun s x => if p s x then s else s.set x.1.1 x.2) s).get f = s.get f := by
  induction l generalizing s with
  | nil => rfl
  | cons x l ih =>
    obtain ⟨⟨hx, lo⟩, hl⟩ := List.forall_mem_cons.mp apart
    refine (ih hl _).trans ?_
    dsimp only
    split
    · rfl
    · exact s.get_set_of_addr hx hf lo _

theorem Dev.defaultTimings_books (s : Dev) (n : Nat) : Dev.Books s (s.defaultTimings n) := by
  unfold Dev.defaultTimings
  generalize (timFields n).zip (timings (s.get (Reg.DC.CFG.RATE n)) (s.bit (Reg.DC.POP.D64 n))) = l
  induction l generalizing s with
  | nil => exact .refl s
  | cons x l ih => exact Dev.Books.trans (.ite (.refl s) (s.set_books _ _)) (ih _)

/-- The default timings touch the three timing words of the channel. -/
theorem Dev.get_defaultTimings (s : Dev) (n : Nat) {f : Field} (h0 : f.addr ≠ 0x280020 + 0x40000 * n) (h1 : f.addr ≠ 0x280024 + 0x40000 * n)
    (h2 : f.addr ≠ 0x280030 + 0x40000 * n) (hf : f.lo < 32) : (s.defaultTimings n).get f = s.get f := by
  refine Dev.foldl_set_frame hf (fun s x => (s.channel n).timWritten.has x.1.2) _ (fun x hx => ?_) s
  obtain ⟨place, lo⟩ := timFields_place n x.1 (List.of_mem_zip hx).1
  refine ⟨?_, lo⟩
  rcases place with e | e | e
  · exact e ▸ h0
  · exact e ▸ h1
  · exact e ▸ h2

/-! ## Enabling a channel (R134) -/

/-- The device once channel `n`'s DIMMs are surveyed: bus mode, POP and default timings. -/
def Dev.surveyed (s : Dev) (n : Nat) (d : Dimm) (count : Nat) (i3c : Bool) : Dev :=
  ((if i3c then s.setBus n i3c else (s.setBus n i3c).raise ((s.setBus n i3c).dcPlain n 13)).setPop n d count
    (if d.kind = 1 ∨ d.kind = 2 then d.kind else 3)).defaultTimings n

/-- The device once channel `n` is refused with a code. -/
def Dev.refuseChannel (s : Dev) (n code : Nat) : Dev :=
  let t := (s.set (Reg.DC.STS.STATE n) 0).set (Reg.DC.STS.REFUSE n) code
  (t.raise (t.dcPlain n 9)).chanErr n

/-- The device as channel `n` enters training, before its first step is shown. -/
def Dev.enterTraining (s : Dev) (n : Nat) : Dev :=
  (((s.set Reg.ECS.FILL_STS.CH_DONE (withoutBit (s.get Reg.ECS.FILL_STS.CH_DONE) n)).setBit Reg.ECS.FILL_STS.ALL_DONE false).set
    (Reg.DC.STS.STATE n) 2).set (Reg.DC.STS.REFUSE n) 0

/-- The first step of channel `n`'s training: T1, or T7 in fixed-delay mode with the delays loaded (R149, R152). -/
def Dev.firstStep (s : Dev) (n : Nat) : Dev :=
  if s.bit (Reg.DC.CFG.TRN_MODE n) then (s.legacyDelays n).set (Reg.DC.TRN_STS.STEP n) 7 else s.set (Reg.DC.TRN_STS.STEP n) 1

theorem Dev.chanEnable_of_none (s : Dev) (n : Nat) {bus : List (Nat × Dimm)} (h : slotDimms n bus = []) (i3c : Bool) :
    s.chanEnable n bus i3c = (s.setBit (Reg.DC.CFG.ENABLE n) true).fillCheck n := by
  unfold Dev.chanEnable
  simp only [h]

theorem Dev.chanEnable_of_dimms (s : Dev) (n : Nat) {bus : List (Nat × Dimm)} {d : Dimm} {r : List Dimm} (h : slotDimms n bus = d :: r)
    (i3c : Bool) : s.chanEnable n bus i3c = (let code := (s.setBit (Reg.DC.CFG.ENABLE n) true).refuseCode n (slotDimms n bus)
      let t := (s.setBit (Reg.DC.CFG.ENABLE n) true).surveyed n d (r.length + 1) i3c
      if code ≠ 0 then t.refuseChannel n code else (t.enterTraining n).firstStep n) := by
  unfold Dev.chanEnable
  simp only [h]
  rfl

theorem ite_lt_of_both {c : Prop} [Decidable c] {a b m : Nat} (ha : a < m) (hb : b < m) : (if c then a else b) < m := by
  by_cases h : c
  · rwa [if_pos h]
  · rwa [if_neg h]

theorem Dev.refuseCode_lt (s : Dev) (n : Nat) (l : List Dimm) : s.refuseCode n l < 16 := by
  cases l with
  | nil => exact of_decide_eq_true rfl
  | cons d r =>
    unfold Dev.refuseCode
    dsimp only
    repeat refine ite_lt_of_both (by decide) ?_
    decide

theorem Dev.get_surveyed (s : Dev) (n : Nat) (d : Dimm) (count : Nat) (i3c : Bool) {f : Field} (row : f.addr ≠ 0x8c0024)
    (h : f.addr ≠ 0x280008 + 0x40000 * n) (h0 : f.addr ≠ 0x280020 + 0x40000 * n) (h1 : f.addr ≠ 0x280024 + 0x40000 * n)
    (h2 : f.addr ≠ 0x280030 + 0x40000 * n) (hf : f.lo < 32) : (s.surveyed n d count i3c).get f = s.get f := by
  obtain ⟨channels, bus⟩ := s.setBus_onChannels n i3c
  refine (Dev.get_defaultTimings _ n h0 h1 h2 hf).trans ((Dev.get_setPop _ n d count _ h hf).trans ?_)
  have set : (s.setBus n i3c).get f = s.get f := by rw [bus]; rfl
  exact Dev.get_ite set ((Dev.get_raise_of_addr _ row hf _).trans set)

theorem Dev.surveyed_books (s : Dev) (n : Nat) (d : Dimm) (count : Nat) (i3c : Bool) :
    Dev.Books (s.setBus n i3c) (s.surveyed n d count i3c) :=
  ((Dev.Books.ite (.refl _) (Dev.raise_books _ _)).trans (Dev.setPop_books _ n d count _)).trans (Dev.defaultTimings_books _ n)

theorem Dev.surveyed_onChannels (s : Dev) (n : Nat) (d : Dimm) (count : Nat) (i3c : Bool) :
    Dev.OnChannels s (s.surveyed n d count i3c) := by
  obtain ⟨channels, bus⟩ := s.setBus_onChannels n i3c
  have first : Dev.OnChannels s (s.setBus n i3c) := ⟨channels, s.regs, s.row, s.fco, s.psq, bus⟩
  exact first.trans (s.surveyed_books n d count i3c).onChannels

theorem Dev.refuseChannel_books (s : Dev) (n code : Nat) : Dev.Books s (s.refuseChannel n code) :=
  (((s.set_books _ _).trans (Dev.set_books _ _ _)).trans (Dev.raise_books _ _)).trans (Dev.chanErr_books _ n)

theorem Dev.enterTraining_books (s : Dev) (n : Nat) : Dev.Books s (s.enterTraining n) :=
  (((s.set_books _ _).trans (Dev.setBit_books _ _ _)).trans (Dev.set_books _ _ _)).trans (Dev.set_books _ _ _)

theorem Dev.firstStep_onChannels (s : Dev) (n : Nat) : Dev.OnChannels s (s.firstStep n) := by
  unfold Dev.firstStep
  split
  · exact (s.setChannel_onChannels n _).trans (Dev.set_books _ _ _).onChannels
  · exact (s.set_books _ _).onChannels

theorem Dev.i3c_legacyDelays (s : Dev) (n : Nat) : ((s.legacyDelays n).channel n).i3c = (s.channel n).i3c := by
  unfold Dev.legacyDelays
  dsimp only
  rw [Dev.channel_setChannel_same]

theorem Dev.i3c_firstStep (s : Dev) (n : Nat) : ((s.firstStep n).channel n).i3c = (s.channel n).i3c := by
  unfold Dev.firstStep
  split
  · exact (congrArg Channel.i3c (((s.legacyDelays n).set_books _ _).channel n)).trans (s.i3c_legacyDelays n)
  · exact congrArg Channel.i3c ((s.set_books _ _).channel n)

/-- Of all words the first step changes TRN_STS alone. -/
theorem Dev.get_firstStep (s : Dev) (n : Nat) {f : Field} (h : f.addr ≠ 0x28004c + 0x40000 * n) (hf : f.lo < 32) :
    (s.firstStep n).get f = s.get f :=
  Dev.get_ite (Dev.get_set_of_addr (f := Reg.DC.TRN_STS.STEP n) _ h hf (of_decide_eq_true rfl) _)
    (Dev.get_set_of_addr (f := Reg.DC.TRN_STS.STEP n) _ h hf (of_decide_eq_true rfl) _)

theorem Dev.step_firstStep (s : Dev) (n : Nat) :
    (s.firstStep n).get (Reg.DC.TRN_STS.STEP n) = if s.bit (Reg.DC.CFG.TRN_MODE n) then 7 else 1 := by
  unfold Dev.firstStep
  split
  · exact Dev.get_set_same _ _ _
  · exact Dev.get_set_same _ _ _

/-- A refused channel is off, with its code and an error of the channel (R133, R134). -/
theorem Dev.refuseChannel_shows (s : Dev) {n code : Nat} (hn : n < 12) (small : code < 16) :
    (s.refuseChannel n code).get (Reg.DC.STS.STATE n) = 0 ∧ (s.refuseChannel n code).get (Reg.DC.STS.REFUSE n) = code ∧
      ((s.refuseChannel n code).get Reg.ECS.FILL_STS.CH_ERR).testBit n = true ∧ (s.refuseChannel n code).bit Reg.ECS.FILL_STS.ALL_DONE = false := by
  obtain ⟨err, all⟩ := Dev.chanErr_shows (((s.set (Reg.DC.STS.STATE n) 0).set (Reg.DC.STS.REFUSE n) code).raise
    (((s.set (Reg.DC.STS.STATE n) 0).set (Reg.DC.STS.REFUSE n) code).dcPlain n 9)) hn
  have shown {f : Field} (hf : f.addr = 0x28000c + 0x40000 * n) (lo : f.lo < 32) :
      (s.refuseChannel n code).get f = ((s.set (Reg.DC.STS.STATE n) 0).set (Reg.DC.STS.REFUSE n) code).get f :=
    (Dev.get_chanErr _ n (by omega) (by omega) lo).trans (Dev.get_raise_of_addr _ (by omega) lo _)
  refine ⟨(shown rfl (of_decide_eq_true rfl)).trans ((Dev.get_set_of_lo _ (f := Reg.DC.STS.REFUSE n) (of_decide_eq_true rfl)
    (of_decide_eq_true rfl) (of_decide_eq_true rfl) _).trans (Dev.get_set_same _ _ _)), ?_, err, all⟩
  exact (shown rfl (of_decide_eq_true rfl)).trans ((Dev.get_set_same _ _ _).trans (Nat.mod_eq_of_lt small))

/-- A channel in training is in STATE 2, not refused, and its fill no longer counts as done (R134, R127). -/
theorem Dev.enterTraining_shows (s : Dev) {n : Nat} (hn : n < 12) :
    (s.enterTraining n).get (Reg.DC.STS.STATE n) = 2 ∧ (s.enterTraining n).get (Reg.DC.STS.REFUSE n) = 0 ∧
      ((s.enterTraining n).get Reg.ECS.FILL_STS.CH_DONE).testBit n = false ∧ (s.enterTraining n).bit Reg.ECS.FILL_STS.ALL_DONE = false := by
  have ecs {f : Field} (hf : f.addr = 0x580004) (lo : f.lo < 32) : (s.enterTraining n).get f =
      ((s.set Reg.ECS.FILL_STS.CH_DONE (withoutBit (s.get Reg.ECS.FILL_STS.CH_DONE) n)).setBit Reg.ECS.FILL_STS.ALL_DONE false).get f := by
    have apart : f.addr ≠ 0x28000c + 0x40000 * n := by omega
    exact (Dev.get_set_of_addr _ (f := Reg.DC.STS.REFUSE n) apart lo (of_decide_eq_true rfl) _).trans
      (Dev.get_set_of_addr _ (f := Reg.DC.STS.STATE n) apart lo (of_decide_eq_true rfl) _)
  refine ⟨(Dev.get_set_of_lo _ (f := Reg.DC.STS.REFUSE n) (of_decide_eq_true rfl) (of_decide_eq_true rfl) (of_decide_eq_true rfl) _).trans
    (Dev.get_set_same _ _ _), Dev.get_set_same _ _ _, ?_, ?_⟩
  · have done : (s.enterTraining n).get Reg.ECS.FILL_STS.CH_DONE = withoutBit (s.get Reg.ECS.FILL_STS.CH_DONE) n % 2 ^ 12 :=
      (ecs rfl (by decide)).trans ((Dev.get_set_of_lo _ (by decide) (by decide) (by decide) _).trans (Dev.get_set_same _ _ _))
    rw [done, testBit_mod_of_lt _ hn, testBit_withoutBit]
  · exact bne_eq_false_iff_eq.2 ((ecs rfl (by decide)).trans (Dev.get_set_same _ _ _))

theorem Dev.get_enterTraining (s : Dev) {n : Nat} {f : Field} (sts : f.addr ≠ 0x28000c + 0x40000 * n) (ecs : f.addr ≠ 0x580004)
    (lo : f.lo < 32) : (s.enterTraining n).get f = s.get f :=
  (Dev.get_set_of_addr _ (f := Reg.DC.STS.REFUSE n) sts lo (of_decide_eq_true rfl) _).trans
    ((Dev.get_set_of_addr _ (f := Reg.DC.STS.STATE n) sts lo (of_decide_eq_true rfl) _).trans
      ((Dev.get_set_of_addr _ (f := Reg.ECS.FILL_STS.ALL_DONE) ecs lo (by decide) _).trans
        (s.get_set_of_addr (f := Reg.ECS.FILL_STS.CH_DONE) ecs lo (by decide) _)))

/-- Where every check passes, enabling a channel starts its training. -/
theorem Dev.chanEnable_starts (s : Dev) {n : Nat} (hn : n < 12) {bus : List (Nat × Dimm)} (dimms : slotDimms n bus ≠ [])
    (ok : (s.setBit (Reg.DC.CFG.ENABLE n) true).refuseCode n (slotDimms n bus) = 0) (i3c : Bool) :
    (s.chanEnable n bus i3c).get (Reg.DC.STS.STATE n) = 2 ∧
      (s.chanEnable n bus i3c).get (Reg.DC.TRN_STS.STEP n) = (if s.bit (Reg.DC.CFG.TRN_MODE n) then 7 else 1) ∧
      (s.chanEnable n bus i3c).get (Reg.DC.STS.REFUSE n) = 0 ∧ ((s.chanEnable n bus i3c).get Reg.ECS.FILL_STS.CH_DONE).testBit n = false ∧
      (s.chanEnable n bus i3c).bit Reg.ECS.FILL_STS.ALL_DONE = false ∧ ((s.chanEnable n bus i3c).channel n).i3c = i3c ∧
      Dev.OnChannels s (s.chanEnable n bus i3c) := by
  obtain ⟨d, r, hl⟩ := List.exists_cons_of_ne_nil dimms
  rw [(s.chanEnable_of_dimms n hl i3c).trans (if_neg (not_not_intro ok))]
  have survey := (s.setBit_books (Reg.DC.CFG.ENABLE n) true).onChannels.trans
    (Dev.surveyed_onChannels (s.setBit (Reg.DC.CFG.ENABLE n) true) n d (r.length + 1) i3c)
  have mode3 : (((s.setBit (Reg.DC.CFG.ENABLE n) true).surveyed n d (r.length + 1) i3c).channel n).i3c = i3c :=
    (congrArg Channel.i3c ((Dev.surveyed_books _ n d (r.length + 1) i3c).channel n)).trans (Dev.i3c_setBus _ n i3c)
  have cfg (a : Nat) (h : 0x280000 + 0x40000 * n ≠ a) : (Reg.DC.CFG.TRN_MODE n).addr ≠ a := h
  have mode : ((s.setBit (Reg.DC.CFG.ENABLE n) true).surveyed n d (r.length + 1) i3c).get (Reg.DC.CFG.TRN_MODE n) =
      s.get (Reg.DC.CFG.TRN_MODE n) :=
    (Dev.get_surveyed _ n d _ i3c (cfg 0x8c0024 (by omega)) (cfg _ (by omega)) (cfg _ (by omega)) (cfg _ (by omega)) (cfg _ (by omega))
      (of_decide_eq_true rfl)).trans (Dev.get_set_of_lo _ (f := Reg.DC.CFG.ENABLE n) (of_decide_eq_true rfl) (of_decide_eq_true rfl)
        (of_decide_eq_true rfl) _)
  generalize (s.setBit (Reg.DC.CFG.ENABLE n) true).surveyed n d (r.length + 1) i3c = u at survey mode3 mode
  obtain ⟨state, refuse, done, all⟩ := u.enterTraining_shows hn
  have fixed : (u.enterTraining n).bit (Reg.DC.CFG.TRN_MODE n) = s.bit (Reg.DC.CFG.TRN_MODE n) :=
    congrArg (· != 0) ((Dev.get_enterTraining u (cfg _ (by omega)) (cfg _ (by omega)) (of_decide_eq_true rfl)).trans mode)
  have kept := survey.trans (u.enterTraining_books n).onChannels
  have bus3 := (congrArg Channel.i3c ((u.enterTraining_books n).channel n)).trans mode3
  generalize u.enterTraining n = v at state refuse done all fixed kept bus3
  have sts {f : Field} (h : f.addr = 0x28000c + 0x40000 * n) (lo : f.lo < 32) : (v.firstStep n).get f = v.get f :=
    v.get_firstStep n (by omega) lo
  have ecs {f : Field} (h : f.addr = 0x580004) (lo : f.lo < 32) : (v.firstStep n).get f = v.get f := v.get_firstStep n (by omega) lo
  refine ⟨(sts rfl (of_decide_eq_true rfl)).trans state, ?_, (sts rfl (of_decide_eq_true rfl)).trans refuse, ?_, ?_,
    (v.i3c_firstStep n).trans bus3, kept.trans (v.firstStep_onChannels n)⟩
  · rw [← fixed]
    exact v.step_firstStep n
  · rw [ecs (f := Reg.ECS.FILL_STS.CH_DONE) rfl (by decide)]
    exact done
  · exact (congrArg (· != 0) (ecs (f := Reg.ECS.FILL_STS.ALL_DONE) rfl (by decide))).trans all

/-- Where a check fails, enabling a channel refuses it with the check's code. -/
theorem Dev.chanEnable_refuses (s : Dev) {n : Nat} (hn : n < 12) {bus : List (Nat × Dimm)} (dimms : slotDimms n bus ≠ [])
    (bad : (s.setBit (Reg.DC.CFG.ENABLE n) true).refuseCode n (slotDimms n bus) ≠ 0) (i3c : Bool) :
    (s.chanEnable n bus i3c).get (Reg.DC.STS.STATE n) = 0 ∧ (s.chanEnable n bus i3c).get (Reg.DC.STS.REFUSE n) =
        (s.setBit (Reg.DC.CFG.ENABLE n) true).refuseCode n (slotDimms n bus) ∧
      ((s.chanEnable n bus i3c).get Reg.ECS.FILL_STS.CH_ERR).testBit n = true ∧ (s.chanEnable n bus i3c).bit Reg.ECS.FILL_STS.ALL_DONE = false ∧
      Dev.OnChannels s (s.chanEnable n bus i3c) := by
  obtain ⟨d, r, hl⟩ := List.exists_cons_of_ne_nil dimms
  rw [(s.chanEnable_of_dimms n hl i3c).trans (if_pos bad)]
  have survey := (s.setBit_books (Reg.DC.CFG.ENABLE n) true).onChannels.trans
    (Dev.surveyed_onChannels (s.setBit (Reg.DC.CFG.ENABLE n) true) n d (r.length + 1) i3c)
  obtain ⟨state, refuse, err, all⟩ := ((s.setBit (Reg.DC.CFG.ENABLE n) true).surveyed n d (r.length + 1) i3c).refuseChannel_shows hn
    ((s.setBit (Reg.DC.CFG.ENABLE n) true).refuseCode_lt n (slotDimms n bus))
  exact ⟨state, refuse, err, all, survey.trans (Dev.refuseChannel_books _ n _).onChannels⟩

/-! ## The end of training (R149–R153) -/

/-- The ranks of channel `n` with their results, as training judges them. -/
def Dev.rankResults (s : Dev) (n : Nat) (results : List TrainRank) : List (Nat × TrainRank) :=
  (List.range (s.get (Reg.DC.POP.RANKS n) + 1)).map fun r => (r, results.getD r {})

/-- The device once channel `n` is trained, with its narrowest eye, before its state is shown. -/
def Dev.keepTraining (s : Dev) (n : Nat) (t1 : List (Option Nat)) (ranks : List (Nat × TrainRank)) : Dev :=
  let fixed := s.bit (Reg.DC.CFG.TRN_MODE n)
  let e := s.set (Reg.DC.TRN_STS.MIN_EYE n) (if fixed then 0 else minEye ranks)
  let v := if fixed then e else e.trainedValues n t1 ranks
  v.setChannel n { v.channel n with drift := .empty, driftPending := .empty, fillFrom := v.clock }

/-- Channel `n` shows that its training has passed, and goes on to its fill. -/
def Dev.passTraining (s : Dev) (n : Nat) : Dev :=
  let t := ((s.setBit (Reg.DC.TRN_STS.FAIL n) false).set (Reg.DC.TRN_STS.STEP n) 7).set (Reg.DC.STS.STATE n) 3
  t.raise (t.dcPlain n 0)

/-- Channel `n` shows where its training has failed, and is left off. -/
def Dev.failTraining (s : Dev) (n eye step lane rank run : Nat) : Dev :=
  let t := ((((s.setBit (Reg.DC.TRN_STS.FAIL n) true).set (Reg.DC.TRN_STS.STEP n) step).set (Reg.DC.TRN_STS.FAIL_LANE n) lane).set
    (Reg.DC.TRN_STS.FAIL_RANK n) rank).set (Reg.DC.STS.STATE n) 0
  (t.raise (t.dcEv n 1 true (t.dcWhere n rank (if lane < 80 then lane / 40 else 0)) step (lane % 128 + run * 2 ^ 16) eye)).chanErr n

theorem Dev.get_eyeMin_after_eye (s : Dev) (n v : Nat) :
    (s.set (Reg.DC.TRN_STS.MIN_EYE n) v).get (Reg.DC.TRN_SEL.EYE_MIN n) = s.get (Reg.DC.TRN_SEL.EYE_MIN n) :=
  s.get_set_of_addr (Field.addr_ne_of_offset rfl rfl (by decide)) (of_decide_eq_true rfl) (of_decide_eq_true rfl) _

theorem Dev.trained_of_pass (s : Dev) (n : Nat) (t1 : List (Option Nat)) (results : List TrainRank)
    (h : trainFault (s.get (Reg.DC.TRN_SEL.EYE_MIN n)) (s.bit (Reg.DC.CFG.TRN_MODE n)) t1 (s.rankResults n results) = none) :
    s.trained n t1 results = (s.keepTraining n t1 (s.rankResults n results)).passTraining n := by
  unfold Dev.trained
  unfold Dev.rankResults at h
  simp only [Dev.get_eyeMin_after_eye, h]
  rfl

theorem Dev.trained_of_fault (s : Dev) (n : Nat) (t1 : List (Option Nat)) (results : List TrainRank) {step lane rank run : Nat}
    (h : trainFault (s.get (Reg.DC.TRN_SEL.EYE_MIN n)) (s.bit (Reg.DC.CFG.TRN_MODE n)) t1 (s.rankResults n results) =
      some (step, lane, rank, run)) :
    s.trained n t1 results = (s.set (Reg.DC.TRN_STS.MIN_EYE n) (if s.bit (Reg.DC.CFG.TRN_MODE n) then 0 else minEye (s.rankResults n results))).failTraining
      n (if s.bit (Reg.DC.CFG.TRN_MODE n) then 0 else minEye (s.rankResults n results)) step lane rank run := by
  unfold Dev.trained
  unfold Dev.rankResults at h
  simp only [Dev.get_eyeMin_after_eye, h]
  rfl

theorem Dev.passTraining_books (s : Dev) (n : Nat) : Dev.Books s (s.passTraining n) :=
  (((s.setBit_books _ _).trans (Dev.set_books _ _ _)).trans (Dev.set_books _ _ _)).trans (Dev.raise_books _ _)

theorem Dev.failTraining_books (s : Dev) (n eye step lane rank run : Nat) : Dev.Books s (s.failTraining n eye step lane rank run) :=
  ((((((s.setBit_books _ _).trans (Dev.set_books _ _ _)).trans (Dev.set_books _ _ _)).trans (Dev.set_books _ _ _)).trans
    (Dev.set_books _ _ _)).trans (Dev.raise_books _ _)).trans (Dev.chanErr_books _ n)

/-- A channel that passes stands in STATE 3 after step 7, its eye shown. -/
theorem Dev.passTraining_shows (s : Dev) (n : Nat) :
    (s.passTraining n).get (Reg.DC.STS.STATE n) = 3 ∧ (s.passTraining n).get (Reg.DC.TRN_STS.STEP n) = 7 ∧
      (s.passTraining n).bit (Reg.DC.TRN_STS.FAIL n) = false ∧
      (s.passTraining n).get (Reg.DC.TRN_STS.MIN_EYE n) = s.get (Reg.DC.TRN_STS.MIN_EYE n) := by
  have last {f : Field} (row : f.addr ≠ 0x8c0024) (lo : f.lo < 32) : (s.passTraining n).get f =
      (((s.setBit (Reg.DC.TRN_STS.FAIL n) false).set (Reg.DC.TRN_STS.STEP n) 7).set (Reg.DC.STS.STATE n) 3).get f :=
    Dev.get_raise_of_addr _ row lo _
  have shown {f : Field} (hf : f.addr = 0x28004c + 0x40000 * n) (lo : f.lo < 32) : (s.passTraining n).get f =
      ((s.setBit (Reg.DC.TRN_STS.FAIL n) false).set (Reg.DC.TRN_STS.STEP n) 7).get f :=
    (last (by omega) lo).trans
      (Dev.get_set_of_addr _ (f := Reg.DC.STS.STATE n) (Field.addr_ne_of_offset hf rfl (by decide)) lo (of_decide_eq_true rfl) _)
  have after {f : Field} (hf : f.addr = 0x28004c + 0x40000 * n) (lo : f.lo < 32) (h : f.lo ≠ 0) : (s.passTraining n).get f =
      (s.setBit (Reg.DC.TRN_STS.FAIL n) false).get f :=
    (shown hf lo).trans (Dev.get_set_of_lo _ (f := Reg.DC.TRN_STS.STEP n) h lo (of_decide_eq_true rfl) _)
  refine ⟨(last (by show 0x28000c + 0x40000 * n ≠ 0x8c0024; omega) (of_decide_eq_true rfl)).trans (Dev.get_set_same _ _ _),
    (shown rfl (of_decide_eq_true rfl)).trans (Dev.get_set_same _ _ _), ?_, ?_⟩
  · exact bne_eq_false_iff_eq.2 ((after rfl (of_decide_eq_true rfl) (of_decide_eq_true rfl)).trans (Dev.get_set_same _ _ _))
  · exact (after rfl (of_decide_eq_true rfl) (of_decide_eq_true rfl)).trans
      (Dev.get_set_of_lo _ (f := Reg.DC.TRN_STS.FAIL n) (of_decide_eq_true rfl) (of_decide_eq_true rfl) (of_decide_eq_true rfl) _)

/-- A channel that fails is off, with the step and the lane at which it failed, and an error of the channel. -/
theorem Dev.failTraining_shows (s : Dev) {n : Nat} (hn : n < 12) (eye step lane rank run : Nat) :
    (s.failTraining n eye step lane rank run).get (Reg.DC.STS.STATE n) = 0 ∧
      (s.failTraining n eye step lane rank run).bit (Reg.DC.TRN_STS.FAIL n) = true ∧
      (s.failTraining n eye step lane rank run).get (Reg.DC.TRN_STS.STEP n) = step % 2 ^ (Reg.DC.TRN_STS.STEP n).width ∧
      (s.failTraining n eye step lane rank run).get (Reg.DC.TRN_STS.FAIL_LANE n) = lane % 2 ^ (Reg.DC.TRN_STS.FAIL_LANE n).width ∧
      ((s.failTraining n eye step lane rank run).get Reg.ECS.FILL_STS.CH_ERR).testBit n = true ∧
      (s.failTraining n eye step lane rank run).bit Reg.ECS.FILL_STS.ALL_DONE = false := by
  have last {f : Field} (ecs : f.addr ≠ 0x580004) (row : f.addr ≠ 0x8c0024) (lo : f.lo < 32) :
      (s.failTraining n eye step lane rank run).get f = (((((s.setBit (Reg.DC.TRN_STS.FAIL n) true).set (Reg.DC.TRN_STS.STEP n) step).set
        (Reg.DC.TRN_STS.FAIL_LANE n) lane).set (Reg.DC.TRN_STS.FAIL_RANK n) rank).set (Reg.DC.STS.STATE n) 0).get f :=
    (Dev.get_chanErr _ n ecs row lo).trans (Dev.get_raise_of_addr _ row lo _)
  have shown {f : Field} (hf : f.addr = 0x28004c + 0x40000 * n) (lo : f.lo < 32) (h : f.lo ≠ 11) :
      (s.failTraining n eye step lane rank run).get f = (((s.setBit (Reg.DC.TRN_STS.FAIL n) true).set (Reg.DC.TRN_STS.STEP n) step).set
        (Reg.DC.TRN_STS.FAIL_LANE n) lane).get f :=
    (last (by omega) (by omega) lo).trans
      ((Dev.get_set_of_addr _ (f := Reg.DC.STS.STATE n) (Field.addr_ne_of_offset hf rfl (by decide)) lo (of_decide_eq_true rfl) _).trans
        (Dev.get_set_of_lo _ (f := Reg.DC.TRN_STS.FAIL_RANK n) h lo (of_decide_eq_true rfl) _))
  have stepped : (s.failTraining n eye step lane rank run).get (Reg.DC.TRN_STS.STEP n) = _ :=
    (shown rfl (of_decide_eq_true rfl) (of_decide_eq_true rfl)).trans ((Dev.get_set_of_lo _ (f := Reg.DC.TRN_STS.FAIL_LANE n)
      (of_decide_eq_true rfl) (of_decide_eq_true rfl) (of_decide_eq_true rfl) _).trans (Dev.get_set_same _ _ _))
  have failed : (s.failTraining n eye step lane rank run).get (Reg.DC.TRN_STS.FAIL n) = 1 :=
    (shown rfl (of_decide_eq_true rfl) (of_decide_eq_true rfl)).trans ((Dev.get_set_of_lo _ (f := Reg.DC.TRN_STS.FAIL_LANE n)
      (of_decide_eq_true rfl) (of_decide_eq_true rfl) (of_decide_eq_true rfl) _).trans ((Dev.get_set_of_lo _ (f := Reg.DC.TRN_STS.STEP n)
        (of_decide_eq_true rfl) (of_decide_eq_true rfl) (of_decide_eq_true rfl) _).trans (Dev.get_set_same _ _ _)))
  have bit : (s.failTraining n eye step lane rank run).bit (Reg.DC.TRN_STS.FAIL n) = true := by
    unfold Dev.bit
    rw [failed]
    rfl
  have off : (s.failTraining n eye step lane rank run).get (Reg.DC.STS.STATE n) = 0 :=
    (last (by show 0x28000c + 0x40000 * n ≠ 0x580004; omega) (by show 0x28000c + 0x40000 * n ≠ 0x8c0024; omega)
      (of_decide_eq_true rfl)).trans (Dev.get_set_same _ _ _)
  exact ⟨off, bit, stepped, (shown rfl (of_decide_eq_true rfl) (of_decide_eq_true rfl)).trans (Dev.get_set_same _ _ _),
    Dev.chanErr_shows _ hn⟩

theorem Dev.keepTraining_eye (s : Dev) (n : Nat) (t1 : List (Option Nat)) (ranks : List (Nat × TrainRank)) :
    (s.keepTraining n t1 ranks).get (Reg.DC.TRN_STS.MIN_EYE n) =
      (if s.bit (Reg.DC.CFG.TRN_MODE n) then 0 else minEye ranks) % 2 ^ (Reg.DC.TRN_STS.MIN_EYE n).width :=
  (Dev.get_setChannel _ n _ _).trans (Dev.get_ite (Dev.get_set_same _ _ _) ((Dev.get_setChannel _ n _ _).trans (Dev.get_set_same _ _ _)))

theorem Dev.keepTraining_onChannels (s : Dev) (n : Nat) (t1 : List (Option Nat)) (ranks : List (Nat × TrainRank)) :
    Dev.OnChannels s (s.keepTraining n t1 ranks) := by
  have eye (v : Nat) := (s.set_books (Reg.DC.TRN_STS.MIN_EYE n) v).onChannels
  unfold Dev.keepTraining
  refine Dev.OnChannels.trans ?_ (Dev.setChannel_onChannels _ n _)
  split
  · exact eye _
  · exact (eye _).trans (Dev.setChannel_onChannels _ n _)

/-- A trained channel starts without drift, its fill at this clock; fixed-delay mode keeps the delays it had. -/
theorem Dev.keepTraining_channel (s : Dev) (n : Nat) (t1 : List (Option Nat)) (ranks : List (Nat × TrainRank)) :
    ((s.keepTraining n t1 ranks).channel n).drift = .empty ∧ ((s.keepTraining n t1 ranks).channel n).driftPending = .empty ∧
      ((s.keepTraining n t1 ranks).channel n).fillFrom = s.clock ∧
      (s.bit (Reg.DC.CFG.TRN_MODE n) = true → ((s.keepTraining n t1 ranks).channel n).lanes = (s.channel n).lanes ∧
        ((s.keepTraining n t1 ranks).channel n).groups = (s.channel n).groups) := by
  unfold Dev.keepTraining
  dsimp only
  rw [Dev.channel_setChannel_same]
  refine ⟨rfl, rfl, ?_, fun fixed => ?_⟩
  · split
    · rfl
    · rfl
  · rw [if_pos fixed]
    exact ⟨rfl, rfl⟩

/-- Training that fails nowhere takes its channel to the fill. -/
theorem Dev.trained_passes (s : Dev) (n : Nat) (t1 : List (Option Nat)) (results : List TrainRank)
    (h : trainFault (s.get (Reg.DC.TRN_SEL.EYE_MIN n)) (s.bit (Reg.DC.CFG.TRN_MODE n)) t1 (s.rankResults n results) = none) :
    (s.trained n t1 results).get (Reg.DC.STS.STATE n) = 3 ∧ (s.trained n t1 results).get (Reg.DC.TRN_STS.STEP n) = 7 ∧
      (s.trained n t1 results).bit (Reg.DC.TRN_STS.FAIL n) = false ∧ (s.trained n t1 results).get (Reg.DC.TRN_STS.MIN_EYE n) =
        (if s.bit (Reg.DC.CFG.TRN_MODE n) then 0 else minEye (s.rankResults n results)) % 2 ^ (Reg.DC.TRN_STS.MIN_EYE n).width ∧
      ((s.trained n t1 results).channel n).drift = .empty ∧ ((s.trained n t1 results).channel n).driftPending = .empty ∧
      ((s.trained n t1 results).channel n).fillFrom = s.clock ∧
      (s.bit (Reg.DC.CFG.TRN_MODE n) = true → ((s.trained n t1 results).channel n).lanes = (s.channel n).lanes ∧
        ((s.trained n t1 results).channel n).groups = (s.channel n).groups) ∧ Dev.OnChannels s (s.trained n t1 results) := by
  rw [s.trained_of_pass n t1 results h]
  have eye := s.keepTraining_eye n t1 (s.rankResults n results)
  have kept := s.keepTraining_onChannels n t1 (s.rankResults n results)
  have chan := s.keepTraining_channel n t1 (s.rankResults n results)
  generalize s.keepTraining n t1 (s.rankResults n results) = u at eye kept chan
  obtain ⟨state, step, fail, eye'⟩ := u.passTraining_shows n
  rw [(u.passTraining_books n).channel n]
  obtain ⟨drift, pending, fillFrom, delays⟩ := chan
  exact ⟨state, step, fail, eye'.trans eye, drift, pending, fillFrom, delays, kept.trans (u.passTraining_books n).onChannels⟩

/-- Training that fails leaves its channel off, with the place of the failure. -/
theorem Dev.trained_fails (s : Dev) {n : Nat} (hn : n < 12) (t1 : List (Option Nat)) (results : List TrainRank) {step lane rank run : Nat}
    (h : trainFault (s.get (Reg.DC.TRN_SEL.EYE_MIN n)) (s.bit (Reg.DC.CFG.TRN_MODE n)) t1 (s.rankResults n results) =
      some (step, lane, rank, run)) :
    (s.trained n t1 results).get (Reg.DC.STS.STATE n) = 0 ∧ (s.trained n t1 results).bit (Reg.DC.TRN_STS.FAIL n) = true ∧
      (s.trained n t1 results).get (Reg.DC.TRN_STS.STEP n) = step % 2 ^ (Reg.DC.TRN_STS.STEP n).width ∧
      (s.trained n t1 results).get (Reg.DC.TRN_STS.FAIL_LANE n) = lane % 2 ^ (Reg.DC.TRN_STS.FAIL_LANE n).width ∧
      ((s.trained n t1 results).get Reg.ECS.FILL_STS.CH_ERR).testBit n = true ∧ (s.trained n t1 results).bit Reg.ECS.FILL_STS.ALL_DONE = false ∧
      Dev.Books s (s.trained n t1 results) := by
  rw [s.trained_of_fault n t1 results h]
  obtain ⟨state, fail, stepped, laned, err, all⟩ := (s.set (Reg.DC.TRN_STS.MIN_EYE n)
    (if s.bit (Reg.DC.CFG.TRN_MODE n) then 0 else minEye (s.rankResults n results))).failTraining_shows hn
      (if s.bit (Reg.DC.CFG.TRN_MODE n) then 0 else minEye (s.rankResults n results)) step lane rank run
  exact ⟨state, fail, stepped, laned, err, all, (s.set_books _ _).trans (Dev.failTraining_books _ n _ step lane rank run)⟩

end Sys2Proof.Machine

namespace Sys2Proof
open Machine

/-- Settles O47: each branch of the enabling write and of the outcome of training, by what its registers show. -/
theorem channelsTrain : Obligations.ChannelsTrain := by
  unfold Obligations.ChannelsTrain
  intro s n hq hn
  have notBig : ¬ 12 ≤ n := by omega
  have sentSame {d : Dev} (h : Dev.OnChannels s.dev d) : (s.did d).sent = s.sent := congrArg (· ++ s.sent) (h.frames_out.2.trans hq)
  refine ⟨?enable, ?again, ?locked, ?offLine, ?training, ?notTraining⟩
  case enable =>
    intro bus i3c starts dimms code
    have enabled : exec (.channelEnableWrite n bus i3c) s = .next (s.did (s.dev.chanEnable n bus i3c)) := by
      refine s.next_did_congr ((if_neg notBig).trans ?_)
      rcases starts with ⟨on, testing⟩ | ⟨off, free, online⟩
      · exact if_pos (by rw [on, testing]; rfl)
      · exact (if_neg (by rw [off]; exact Bool.false_ne_true)).trans ((if_neg (by rw [free]; exact Bool.false_ne_true)).trans
          ((if_neg (by rw [off]; exact Bool.false_ne_true)).trans (if_neg online)))
    have setEnable := s.dev.setBit_books (Reg.DC.CFG.ENABLE n) true
    refine ⟨fun none => ?_, fun some ok => ?_, fun some bad => ?_⟩
    · rw [enabled]
      exact s.next_kept hq (s.dev.chanEnable_of_none n none i3c) (setEnable.trans (Dev.fillCheck_books _ n)).keeps.1
    · have started := s.dev.chanEnable_starts hn some ok i3c
      generalize s.dev.chanEnable n bus i3c = d at enabled started
      obtain ⟨state, step, refuse, done, all, mode, kept⟩ := started
      exact ⟨_, enabled, state, step, refuse, done, all, mode, kept.frames_out.1, sentSame kept⟩
    · have refused := s.dev.chanEnable_refuses hn some (Nat.ne_of_gt bad) i3c
      generalize s.dev.chanEnable n bus i3c = d at enabled refused
      obtain ⟨state, refuse, err, all, kept⟩ := refused
      exact ⟨_, enabled, state, refuse, err, all, kept.frames_out.1, sentSame kept⟩
  case again =>
    intro bus i3c on other
    refine (s.next_did_congr ((if_neg notBig).trans ((if_neg (by rw [on, beq_false_of_ne other]; exact Bool.false_ne_true)).trans ?_))).trans
      (s.next_kept hq (d := if s.dev.bit (Reg.DC.LOCK.LOCK n) then s.dev.discard (Reg.DC.CFG.ENABLE n).addr 1 else s.dev) rfl ?_)
    · exact congrArg (fun rest => if s.dev.bit (Reg.DC.LOCK.LOCK n) = true then s.dev.discard (Reg.DC.CFG.ENABLE n).addr 1 else rest) (if_pos on)
    · split
      · exact (s.dev.discard_books _ _).keeps.1
      · rfl
  case locked =>
    intro bus i3c off locked
    exact s.next_kept hq ((if_neg notBig).trans ((if_neg (by rw [off]; exact Bool.false_ne_true)).trans (if_pos locked)))
      (s.dev.discard_books _ _).keeps.1
  case offLine =>
    intro bus i3c off free offLine
    exact s.next_kept hq ((if_neg notBig).trans ((if_neg (by rw [off]; exact Bool.false_ne_true)).trans
      ((if_neg (by rw [free]; exact Bool.false_ne_true)).trans ((if_neg (by rw [off]; exact Bool.false_ne_true)).trans (if_pos offLine)))))
      (s.dev.setBit_books _ _).keeps.1
  case training =>
    intro t1 t2 t3 t4 t5 t6 t7 training fixed ranks fault
    have ended : exec (.trainingComplete n t1 t2 t3 t4 t5 t6 t7) s = .next (s.did (s.dev.trained n t1 (trainRanks t2 t3 t4 t5 t6 t7))) :=
      s.next_did_congr (if_pos ⟨hn, training⟩)
    refine ⟨fun pass => ?_, fun step lane rank run failed => ?_⟩
    · have passed := s.dev.trained_passes n t1 _ pass
      generalize s.dev.trained n t1 (trainRanks t2 t3 t4 t5 t6 t7) = d at ended passed
      obtain ⟨state, step, fail, eye, drift, pending, fillFrom, delays, kept⟩ := passed
      exact ⟨_, ended, state, step, fail, eye, drift, pending, fillFrom, delays, kept.frames_out.1, sentSame kept⟩
    · have stopped := s.dev.trained_fails hn t1 _ failed
      generalize s.dev.trained n t1 (trainRanks t2 t3 t4 t5 t6 t7) = d at ended stopped
      obtain ⟨state, fail, stepped, laned, err, all, kept⟩ := stopped
      exact ⟨_, ended, state, fail, stepped, laned, err, all, kept.onChannels.frames_out.1, sentSame kept.onChannels⟩
  case notTraining =>
    intro t1 t2 t3 t4 t5 t6 t7 other
    exact s.next_same hq (if_neg fun h => other h.2)

end Sys2Proof
end

section
/-! SUPPORT. A DRAM channel in service (R140–R157): what its refreshes, sensor polls and parity retries change, of its own state and of its
registers. -/

namespace Sys2Proof.Machine

/-! ## Refresh (R144, R145, R151) -/

/-- `t` is `s` with other channels at most. -/
def Dev.ChannelsOnly (s t : Dev) : Prop := ∃ channels, t = { s with channels }

theorem Dev.setChannel_only (s : Dev) (n : Nat) (c : Channel) : Dev.ChannelsOnly s (s.setChannel n c) := ⟨_, rfl⟩

theorem Dev.ChannelsOnly.refl (s : Dev) : Dev.ChannelsOnly s s := ⟨s.channels, rfl⟩

theorem Dev.ChannelsOnly.trans {s t u : Dev} (h : Dev.ChannelsOnly s t) (k : Dev.ChannelsOnly t u) : Dev.ChannelsOnly s u := by
  obtain ⟨a, rfl⟩ := h
  obtain ⟨b, rfl⟩ := k
  exact ⟨b, rfl⟩

theorem Dev.ChannelsOnly.onChannels {s t : Dev} (h : Dev.ChannelsOnly s t) : Dev.OnChannels s t := by
  obtain ⟨a, rfl⟩ := h
  exact ⟨a, s.regs, s.row, s.fco, s.psq, rfl⟩

theorem Dev.ChannelsOnly.get {s t : Dev} (h : Dev.ChannelsOnly s t) (f : Field) : t.get f = s.get f := by
  obtain ⟨a, rfl⟩ := h
  rfl

theorem Dev.applyDrift_only (s : Dev) (n rank : Nat) : Dev.ChannelsOnly s (s.applyDrift n rank) := by
  unfold Dev.applyDrift
  dsimp only
  split
  · exact Dev.ChannelsOnly.refl s
  · exact s.setChannel_only n _

/-- Drift applied to a rank leaves rows and refreshes owed alone. -/
theorem Dev.applyDrift_rows (s : Dev) (n rank : Nat) : ((s.applyDrift n rank).channel n).openRows = (s.channel n).openRows ∧
    ((s.applyDrift n rank).channel n).postponed = (s.channel n).postponed := by
  unfold Dev.applyDrift
  dsimp only
  split
  · exact ⟨rfl, rfl⟩
  · rw [Dev.channel_setChannel_same]
    exact ⟨rfl, rfl⟩

theorem Dev.rankCommand_channel (s : Dev) (n place d : Nat) : ((s.rankCommand n place d).channel n).openRows = (s.channel n).openRows ∧
    ((s.rankCommand n place d).channel n).postponed = (s.channel n).postponed ∧
    ((s.rankCommand n place d).channel n).powerDown = (s.channel n).powerDown ∧
    s.now + d ≤ ((s.rankCommand n place d).channel n).busy.getD place 0 := by
  unfold Dev.rankCommand
  dsimp only
  rw [Dev.channel_setChannel_same]
  refine ⟨rfl, rfl, rfl, ?_⟩
  dsimp only
  rw [Tab.getD_put_same]
  omega

theorem Dev.refresh_only (s : Dev) (n rank bank : Nat) : Dev.ChannelsOnly s (s.refresh n rank bank) :=
  ((s.setChannel_only n _).trans (Dev.setChannel_only _ n _)).trans (Dev.applyDrift_only _ n rank)

/-- The rows that a refresh leaves open: those of other ranks, and of other banks in REFsb mode. -/
theorem Dev.refresh_rows (s : Dev) (n rank bank k : Nat) : ((s.refresh n rank bank).channel n).openRows.get? k =
    if k / 64 != rank || (decide (s.get (Reg.DC.REF_CTL.MODE n) = 1) && k % 32 / 8 != bank) then (s.channel n).openRows.get? k else none := by
  unfold Dev.refresh
  dsimp only
  rw [(Dev.applyDrift_rows _ n rank).1, Dev.channel_setChannel_same]
  dsimp only
  rw [(Dev.rankCommand_channel s n _ _).1, Tab.get?_filter_key _ fun k => k / 64 != rank || (decide (s.get (Reg.DC.REF_CTL.MODE n) = 1) && k % 32 / 8 != bank)]

theorem Dev.refresh_postponed (s : Dev) (n rank bank : Nat) : ((s.refresh n rank bank).channel n).postponed = (s.channel n).postponed := by
  unfold Dev.refresh
  dsimp only
  rw [(Dev.applyDrift_rows _ n rank).2, Dev.channel_setChannel_same]
  exact (Dev.rankCommand_channel s n _ _).2.1

/-- A refresh closes the rows of its rank, in REFsb mode those of its bank index. -/
theorem Dev.refresh_closes (s : Dev) {n rank bank k : Nat} (bk : s.get (Reg.DC.REF_CTL.MODE n) ≠ 1 ∨ k % 32 / 8 = bank) (rk : k / 64 = rank) :
    ((s.refresh n rank bank).channel n).openRows.get? k = none := by
  rw [s.refresh_rows, if_neg]
  rcases bk with h | h
  · simp [rk, h]
  · simp [rk, h]

theorem Dev.refresh_opens_none (s : Dev) {n k : Nat} (rank bank : Nat) (h : (s.channel n).openRows.get? k = none) :
    ((s.refresh n rank bank).channel n).openRows.get? k = none := by
  rw [s.refresh_rows, h, ite_self]

theorem Dev.refresh_foldl (l : List Nat) (s : Dev) (n rank : Nat) :
    (∃ channels, l.foldl (fun s b => s.refresh n rank b) s = { s with channels }) ∧
    ((l.foldl (fun s b => s.refresh n rank b) s).channel n).postponed = (s.channel n).postponed ∧
    ∀ k, (s.channel n).openRows.get? k = none ∨ (k / 64 = rank ∧ ∃ b ∈ l, s.get (Reg.DC.REF_CTL.MODE n) ≠ 1 ∨ k % 32 / 8 = b) →
      ((l.foldl (fun s b => s.refresh n rank b) s).channel n).openRows.get? k = none := by
  induction l generalizing s with
  | nil => exact ⟨Dev.ChannelsOnly.refl s, rfl, fun k h => h.resolve_right (by simp)⟩
  | cons b l ih =>
    obtain ⟨form, postponed, closed⟩ := ih (s.refresh n rank b)
    have mode := (s.refresh_only n rank b).get (Reg.DC.REF_CTL.MODE n)
    refine ⟨(s.refresh_only n rank b).trans form, postponed.trans (s.refresh_postponed n rank b), fun k h => closed k ?_⟩
    rcases h with h | ⟨rk, b', hb, h⟩
    · exact .inl (s.refresh_opens_none rank b h)
    · rcases List.mem_cons.mp hb with rfl | hb
      · exact .inl (s.refresh_closes h rk)
      · exact .inr ⟨rk, b', hb, mode ▸ h⟩

/-- The refreshes a rank is owed, once issued, are owed no more, and their rows are closed. -/
theorem Dev.refreshOwed_does (s : Dev) (n rank : Nat) : Dev.ChannelsOnly s (s.refreshOwed n rank) ∧
    ((s.refreshOwed n rank).channel n).postponed.get? rank = none ∧
    ∀ k b, k / 64 = rank → b ∈ (s.channel n).postponed.getD rank [] → (s.get (Reg.DC.REF_CTL.MODE n) ≠ 1 ∨ k % 32 / 8 = b) →
      ((s.refreshOwed n rank).channel n).openRows.get? k = none := by
  obtain ⟨form, postponed, closed⟩ := Dev.refresh_foldl ((s.channel n).postponed.getD rank [])
    (s.setChannel n { s.channel n with postponed := (s.channel n).postponed.del rank }) n rank
  refine ⟨(s.setChannel_only n _).trans form, ?_, fun k b rk hb h => closed k (.inr ⟨rk, b, hb, h⟩)⟩
  unfold Dev.refreshOwed
  rw [postponed, Dev.channel_setChannel_same]
  exact Tab.get?_del_same _ _

theorem Dev.refreshForced_of_owed (s : Dev) {n rank b : Nat} {rest : List Nat} (h : (s.channel n).postponed.getD rank [] = b :: rest) :
    s.refreshForced n rank = ((s.setChannel n { s.channel n with postponed := (s.channel n).postponed.putD rank rest [] }).refresh n rank b).raise
      (s.dcPlain n 11) := by
  unfold Dev.refreshForced
  rw [h]
  rfl

theorem Dev.refreshForced_onChannels (s : Dev) (n rank : Nat) : Dev.OnChannels s (s.refreshForced n rank) := by
  unfold Dev.refreshForced
  split
  · exact .refl s
  · next b r _ =>
    exact ((s.setChannel_only n _).trans (Dev.refresh_only _ n rank b)).onChannels.trans (Dev.raise_books _ _).onChannels

/-! ## Sensors (R146, R157) -/

theorem Dev.channelsOnly_ite {c : Prop} [Decidable c] {s t u : Dev} (h : Dev.ChannelsOnly s t) (k : Dev.ChannelsOnly s u) :
    Dev.ChannelsOnly s (if c then t else u) := by
  split
  · exact h
  · exact k

theorem Dev.refreshRate_only (s : Dev) (n : Nat) (mr4 : Bool) (top : Option Int) (failed : Bool) :
    Dev.ChannelsOnly s (s.refreshRate n mr4 top failed) := s.setChannel_only n _

/-- While MR4 or FORCE_2X asks for it, the refresh interval is halved. -/
theorem Dev.refreshRate_halved (s : Dev) (n : Nat) (mr4 : Bool) (top : Option Int) (failed : Bool)
    (h : (mr4 || s.bit (Reg.DC.REF_CTL.FORCE_2X n)) = true) : ((s.refreshRate n mr4 top failed).channel n).halved = true := by
  unfold Dev.refreshRate
  dsimp only
  rw [h, Bool.true_or, if_pos rfl, Dev.channel_setChannel_same]

theorem Channel.sensorFail_ite {p : Prop} [Decidable p] {c x y : Channel} (hx : x.sensorFail = c.sensorFail)
    (hy : y.sensorFail = c.sensorFail) : (if p then x else y).sensorFail = c.sensorFail := by
  by_cases h : p
  · rwa [if_pos h]
  · rwa [if_neg h]

theorem Dev.refreshRate_sensorFail (s : Dev) (n : Nat) (mr4 : Bool) (top : Option Int) (failed : Bool) :
    ((s.refreshRate n mr4 top failed).channel n).sensorFail = (s.channel n).sensorFail := by
  unfold Dev.refreshRate
  dsimp only
  rw [Dev.channel_setChannel_same]
  exact Channel.sensorFail_ite rfl (Channel.sensorFail_ite rfl rfl)

/-- A thermal flag of channel `n` follows the temperature: set at the limit, cleared 2 °C below it. -/
def Dev.heatFlag (s : Dev) (n : Nat) (t : Int) (slot : Nat) (f : Field) (lim : Int) (i : Nat) : Dev :=
  if lim ≤ t then (if s.bit f then s else (s.setBit f true).raise (s.dcEv n i false (8 * slot) 0 (tempByte t) 0))
  else if t ≤ lim - 2 then s.setBit f false else s

theorem Dev.thermal_eq (s : Dev) (n : Nat) (t : Int) (slot : Nat) : s.thermal n t slot =
    (s.heatFlag n t slot (Reg.DC.STS.HOT n) (s.get (Reg.DC.THERM.TS_HIGH n)) 5).heatFlag n t slot (Reg.DC.STS.CRIT n)
      (s.get (Reg.DC.THERM.TS_CRIT n)) 6 := rfl

theorem Dev.heatFlag_books (s : Dev) (n : Nat) (t : Int) (slot : Nat) (f : Field) (lim : Int) (i : Nat) :
    Dev.Books s (s.heatFlag n t slot f lim i) :=
  .ite (.ite (.refl s) ((s.setBit_books f true).trans (Dev.raise_books _ _))) (.ite (s.setBit_books f false) (.refl s))

theorem Dev.thermal_books (s : Dev) (n : Nat) (t : Int) (slot : Nat) : Dev.Books s (s.thermal n t slot) :=
  (s.heatFlag_books n t slot _ _ _).trans (Dev.heatFlag_books _ n t slot _ _ _)

/-- Below its limit a thermal flag can only clear. -/
theorem Dev.get_heatFlag_of_cool (s : Dev) (n : Nat) {t lim : Int} (slot : Nat) (cool : t < lim) {f g : Field} (h : g.key ≠ f.key) (i : Nat) :
    (s.heatFlag n t slot f lim i).get g = s.get g :=
  (congrArg (Dev.get · g) (if_neg (Int.not_le.mpr cool))).trans (Dev.get_ite (s.get_set_ne h _) rfl)

/-- A cool sensor leaves every field but HOT and CRIT as it was. -/
theorem Dev.get_thermal_of_cool (s : Dev) (n : Nat) {t : Int} (slot : Nat) (high : t < s.get (Reg.DC.THERM.TS_HIGH n))
    (crit : t < s.get (Reg.DC.THERM.TS_CRIT n)) {f : Field} (hot : f.key ≠ (Reg.DC.STS.HOT n).key) (crt : f.key ≠ (Reg.DC.STS.CRIT n).key) :
    (s.thermal n t slot).get f = s.get f :=
  (Dev.get_heatFlag_of_cool _ n slot crit crt _).trans (s.get_heatFlag_of_cool n slot high hot _)

/-- A poll of one cool DIMM, its PMIC quiet. -/
theorem Dev.sensorPoll_of_cool (s : Dev) (n : Nat) (mr4 : Bool) (t0 : Int) : s.sensorPoll n [some t0] mr4 [] =
    (let a := s.set (Reg.DC.DIMM_TEMP.T0 n) (tempByte t0)
     let b := a.setChannel n { a.channel n with sensorFail := (a.channel n).sensorFail.putD 0 0 0, critBySensor := false }
     let c := (b.thermal n t0 0).refreshRate n mr4 (some t0) false
     (c.set (Reg.DC.PMIC_STS.D0 n) (c.get (Reg.DC.PMIC_STS.D0 n) ||| 0)).set (Reg.DC.PMIC_STS.D1 n) (c.get (Reg.DC.PMIC_STS.D1 n) ||| 0)) := by
  unfold Dev.sensorPoll
  dsimp only [List.getD_cons_zero]
  simp [highest]

theorem Dev.sensorPoll_of_cool_shows (s : Dev) (n : Nat) (mr4 : Bool) {t0 : Int} (high : t0 < s.get (Reg.DC.THERM.TS_HIGH n))
    (crit : t0 < s.get (Reg.DC.THERM.TS_CRIT n)) :
    (s.sensorPoll n [some t0] mr4 []).get (Reg.DC.DIMM_TEMP.T0 n) = tempByte t0 % 256 ∧
      ((s.sensorPoll n [some t0] mr4 []).channel n).sensorFail.getD 0 0 = 0 ∧
      ((mr4 || s.bit (Reg.DC.REF_CTL.FORCE_2X n)) = true → ((s.sensorPoll n [some t0] mr4 []).channel n).halved = true) ∧
      (s.sensorPoll n [some t0] mr4 []).get (Reg.DC.STS.STATE n) = s.get (Reg.DC.STS.STATE n) ∧
      Dev.OnChannels s (s.sensorPoll n [some t0] mr4 []) := by
  rw [s.sensorPoll_of_cool n mr4 t0]
  dsimp only
  have temp {f : Field} (h : f.addr ≠ 0x28003c + 0x40000 * n) (lo : f.lo < 32) :
      (s.set (Reg.DC.DIMM_TEMP.T0 n) (tempByte t0)).get f = s.get f := s.get_set_of_addr h lo (of_decide_eq_true rfl) _
  have shown : (s.set (Reg.DC.DIMM_TEMP.T0 n) (tempByte t0)).get (Reg.DC.DIMM_TEMP.T0 n) = tempByte t0 % 256 := Dev.get_set_same _ _ _
  have first := (s.set_books (Reg.DC.DIMM_TEMP.T0 n) (tempByte t0)).onChannels
  generalize s.set (Reg.DC.DIMM_TEMP.T0 n) (tempByte t0) = a at temp shown first
  have fail : ((a.setChannel n { a.channel n with sensorFail := (a.channel n).sensorFail.putD 0 0 0, critBySensor := false }).channel
      n).sensorFail.getD 0 0 = 0 := by
    rw [Dev.channel_setChannel_same]
    exact Tab.getD_putD_same _ _ _ _
  have second := a.setChannel_only n { a.channel n with sensorFail := (a.channel n).sensorFail.putD 0 0 0, critBySensor := false }
  generalize a.setChannel n { a.channel n with sensorFail := (a.channel n).sensorFail.putD 0 0 0, critBySensor := false } = b at fail second
  have kept {f : Field} (h : f.addr ≠ 0x28003c + 0x40000 * n) (lo : f.lo < 32) : b.get f = s.get f := (second.get f).trans (temp h lo)
  have limit {f : Field} (h : f.addr = 0x280038 + 0x40000 * n) (lo : f.lo < 32) : b.get f = s.get f := kept (by omega) lo
  have cool {f : Field} (hot : f.key ≠ (Reg.DC.STS.HOT n).key) (crt : f.key ≠ (Reg.DC.STS.CRIT n).key) : (b.thermal n t0 0).get f = b.get f :=
    b.get_thermal_of_cool n 0 (by rw [limit rfl (of_decide_eq_true rfl)]; exact high) (by rw [limit rfl (of_decide_eq_true rfl)]; exact crit)
      hot crt
  have third := b.thermal_books n t0 0
  generalize b.thermal n t0 0 = c at cool third
  have fourth := c.refreshRate_only n mr4 (some t0) false
  have halved := c.refreshRate_halved n mr4 (some t0) false
  have fail' := (congrArg (Tab.getD · 0 0) (c.refreshRate_sensorFail n mr4 (some t0) false)).trans
    ((congrArg (fun x => Tab.getD (Channel.sensorFail x) 0 0) (third.channel n)).trans fail)
  generalize c.refreshRate n mr4 (some t0) false = d at fourth halved fail'
  have fifth := (d.set_books (Reg.DC.PMIC_STS.D0 n) (d.get (Reg.DC.PMIC_STS.D0 n) ||| 0)).trans
    (Dev.set_books _ (Reg.DC.PMIC_STS.D1 n) (d.get (Reg.DC.PMIC_STS.D1 n) ||| 0))
  have last {f : Field} (h : f.addr ≠ 0x280040 + 0x40000 * n) (lo : f.lo < 32) (hot : f.key ≠ (Reg.DC.STS.HOT n).key)
      (crt : f.key ≠ (Reg.DC.STS.CRIT n).key) : ((d.set (Reg.DC.PMIC_STS.D0 n) (d.get (Reg.DC.PMIC_STS.D0 n) ||| 0)).set
        (Reg.DC.PMIC_STS.D1 n) (d.get (Reg.DC.PMIC_STS.D1 n) ||| 0)).get f = b.get f :=
    (Dev.get_set_of_addr _ (f := Reg.DC.PMIC_STS.D1 n) h lo (of_decide_eq_true rfl) _).trans
      ((Dev.get_set_of_addr _ (f := Reg.DC.PMIC_STS.D0 n) h lo (of_decide_eq_true rfl) _).trans ((fourth.get f).trans (cool hot crt)))
  refine ⟨?_, ?_, fun want => ?_, ?_, (((first.trans second.onChannels).trans third.onChannels).trans fourth.onChannels).trans fifth.onChannels⟩
  · refine (last (Field.addr_ne_of_offset (g := Reg.DC.PMIC_STS.D0 n) rfl rfl (by decide)) (of_decide_eq_true rfl) ?_ ?_).trans ((second.get _).trans shown)
    · exact Field.key_ne_of_addr (Field.addr_ne_of_offset rfl rfl (by decide)) (of_decide_eq_true rfl) (of_decide_eq_true rfl)
    · exact Field.key_ne_of_addr (Field.addr_ne_of_offset rfl rfl (by decide)) (of_decide_eq_true rfl) (of_decide_eq_true rfl)
  · rw [fifth.channel n]
    exact fail'
  · rw [fifth.channel n]
    refine halved ?_
    have force : c.bit (Reg.DC.REF_CTL.FORCE_2X n) = s.bit (Reg.DC.REF_CTL.FORCE_2X n) := congrArg (· != 0) ((cool
      (Field.key_ne_of_addr (Field.addr_ne_of_offset rfl rfl (by decide)) (of_decide_eq_true rfl) (of_decide_eq_true rfl))
      (Field.key_ne_of_addr (Field.addr_ne_of_offset rfl rfl (by decide)) (of_decide_eq_true rfl) (of_decide_eq_true rfl))).trans
      (kept (Field.addr_ne_of_offset (g := Reg.DC.DIMM_TEMP.T0 n) rfl rfl (by decide)) (of_decide_eq_true rfl)))
    rw [force]
    exact want
  · refine (last (Field.addr_ne_of_offset (g := Reg.DC.PMIC_STS.D0 n) rfl rfl (by decide)) (of_decide_eq_true rfl) ?_ ?_).trans
      (kept (Field.addr_ne_of_offset (g := Reg.DC.DIMM_TEMP.T0 n) rfl rfl (by decide)) (of_decide_eq_true rfl))
    · exact Field.key_ne_of_lo (of_decide_eq_true rfl) (of_decide_eq_true rfl) (of_decide_eq_true rfl)
    · exact Field.key_ne_of_lo (of_decide_eq_true rfl) (of_decide_eq_true rfl) (of_decide_eq_true rfl)

theorem Dev.slotCount_raise (s : Dev) (n : Nat) (e : Ev) : (s.raise e).slotCount n = s.slotCount n := by
  have two : (s.raise e).bit (Reg.DC.POP.DPC2 n) = s.bit (Reg.DC.POP.DPC2 n) :=
    congrArg (· != 0) (s.get_raise_of_addr (by show 0x280008 + 0x40000 * n ≠ 0x8c0024; omega) (of_decide_eq_true rfl) e)
  unfold Dev.slotCount
  rw [two]

/-! ## Parity retry (R154, R155) -/

theorem Dev.OnChannels.stays_calm {s t : Dev} (h : Dev.OnChannels s t) (c : calm s) : calm t := by
  obtain ⟨channels, regs, row, fco, psq, rfl⟩ := h
  exact c

theorem Dev.OnChannels.reads {s t : Dev} (h : Dev.OnChannels s t) : t.reads = s.reads := by
  obtain ⟨channels, regs, row, fco, psq, rfl⟩ := h
  rfl

/-- The device once a clean retry of a subchannel has ended, before the channel's state is settled. -/
def Dev.retryClean (s : Dev) (n sub : Nat) (v : List CmdLog × Nat) : Dev :=
  let t := s.count (Reg.DC.CAPAR_OK.COUNT n) (Reg.DC.CAPAR_OK.SAT n) 1 (s.dcPlain n 12)
  let t := t.raise (t.dcEv n 2 true (4 * sub) 0 (cmdSynd v.1) v.2)
  t.setChannel n { t.channel n with retry := (t.channel n).retry.del sub }

/-- The device once a retry of a subchannel has met a second alert. -/
def Dev.retryBad (s : Dev) (n sub : Nat) (v : List CmdLog × Nat) : Dev :=
  let t := s.count (Reg.DC.CAPAR_FAIL.COUNT n) (Reg.DC.CAPAR_FAIL.SAT n) 1 (s.dcPlain n 12)
  let t := t.raise (t.dcEv n 3 true (4 * sub) 0 (cmdSynd v.1) v.2)
  t.setChannel n { t.channel n with retry := (t.channel n).retry.del sub }

theorem Dev.retryDone_of_clean (s : Dev) {n sub : Nat} {v : List CmdLog × Nat} (h : (s.channel n).retry.get? sub = some v)
    (t1 : List (Option Nat)) : s.retryDone n sub true t1 = (s.retryClean n sub v).retryOver n := by
  unfold Dev.retryDone
  simp only [h]
  rfl

theorem Dev.retryDone_of_filling (s : Dev) {n sub : Nat} {v : List CmdLog × Nat} (h : (s.channel n).retry.get? sub = some v)
    (fill : s.filling n = true) (t1 : List (Option Nat)) : s.retryDone n sub false t1 =
      (((s.retryBad n sub v).setChannel n { (s.retryBad n sub v).channel n with retry := .empty }).set (Reg.DC.STS.STATE n) 0).chanErr n := by
  unfold Dev.retryDone
  simp only [h, fill]
  rfl

theorem Dev.retryDone_of_none (s : Dev) {n sub : Nat} (h : (s.channel n).retry.get? sub = none) (clean : Bool) (t1 : List (Option Nat)) :
    s.retryDone n sub clean t1 = s := by
  unfold Dev.retryDone
  simp only [h]

theorem Dev.retryClean_onChannels (s : Dev) (n sub : Nat) (v : List CmdLog × Nat) : Dev.OnChannels s (s.retryClean n sub v) :=
  ((s.count_books _ _ _ _).trans (Dev.raise_books _ _)).onChannels.trans (Dev.setChannel_onChannels _ n _)

theorem Dev.retryBad_onChannels (s : Dev) (n sub : Nat) (v : List CmdLog × Nat) : Dev.OnChannels s (s.retryBad n sub v) :=
  ((s.count_books _ _ _ _).trans (Dev.raise_books _ _)).onChannels.trans (Dev.setChannel_onChannels _ n _)

theorem Dev.retry_retryClean (s : Dev) (n sub : Nat) (v : List CmdLog × Nat) :
    ((s.retryClean n sub v).channel n).retry = (s.channel n).retry.del sub := by
  unfold Dev.retryClean
  dsimp only
  rw [Dev.channel_setChannel_same, (Dev.raise_books _ _).channel n, (Dev.count_books _ _ _ _ _).channel n]

theorem Dev.get_retryClean (s : Dev) (n sub : Nat) (v : List CmdLog × Nat) {f : Field} (h : f.addr ≠ 0x280044 + 0x40000 * n)
    (row : f.addr ≠ 0x8c0024) (lo : f.lo < 32) : (s.retryClean n sub v).get f = s.get f :=
  (Dev.get_raise_of_addr _ row lo _).trans (s.get_count_of_addr (c := Reg.DC.CAPAR_OK.COUNT n) (sat := Reg.DC.CAPAR_OK.SAT n) h h row lo
    (of_decide_eq_true rfl) (of_decide_eq_true rfl) 1 _)

theorem Dev.retryOver_books (s : Dev) (n : Nat) : Dev.Books s (s.retryOver n) := .ite (.refl s) (s.set_books _ _)

theorem Dev.retryOver_of_some (s : Dev) {n : Nat} (h : (s.channel n).retry.list ≠ []) : s.retryOver n = s :=
  if_pos (by simpa using h)

theorem Dev.state_retryOver (s : Dev) {n : Nat} (h : (s.channel n).retry.list = []) :
    (s.retryOver n).get (Reg.DC.STS.STATE n) = if (s.get Reg.ECS.FILL_STS.CH_DONE).testBit n then 4 else 3 := by
  unfold Dev.retryOver
  rw [if_neg (by simp [h]), Dev.get_set_same]
  split <;> rfl

/-- A retry of the fill that fails gives the channel's fill up: STATE 0, an error of the channel, no retry left. -/
theorem Dev.fillGivenUp (s : Dev) {n : Nat} (hn : n < 12) (sub : Nat) (v : List CmdLog × Nat) :
    let t := (((s.retryBad n sub v).setChannel n { (s.retryBad n sub v).channel n with retry := .empty }).set (Reg.DC.STS.STATE n) 0).chanErr n
    t.get (Reg.DC.STS.STATE n) = 0 ∧ (t.get Reg.ECS.FILL_STS.CH_ERR).testBit n = true ∧ t.bit Reg.ECS.FILL_STS.ALL_DONE = false ∧
      (t.channel n).retry = .empty ∧ Dev.OnChannels s t := by
  dsimp only
  have kept := s.retryBad_onChannels n sub v
  generalize s.retryBad n sub v = a at kept
  have empty : ((a.setChannel n { a.channel n with retry := .empty }).channel n).retry = .empty := by rw [Dev.channel_setChannel_same]
  have kept := kept.trans (a.setChannel_onChannels n { a.channel n with retry := .empty })
  generalize a.setChannel n { a.channel n with retry := .empty } = b at kept empty
  obtain ⟨err, all⟩ := (b.set (Reg.DC.STS.STATE n) 0).chanErr_shows hn
  have books := (b.set_books (Reg.DC.STS.STATE n) 0).trans (Dev.chanErr_books _ n)
  refine ⟨(Dev.get_chanErr _ n ?_ ?_ (of_decide_eq_true rfl)).trans (Dev.get_set_same _ _ _), err, all,
    (congrArg Channel.retry (books.channel n)).trans empty, kept.trans books.onChannels⟩
  · show 0x28000c + 0x40000 * n ≠ _
    omega
  · show 0x28000c + 0x40000 * n ≠ _
    omega

/-- The device once a parity alert has stopped a subchannel. -/
def Dev.parityStop (s : Dev) (n sub phase : Nat) : Dev :=
  (s.setChannel n { s.channel n with retry := (s.channel n).retry.put sub (s.replayLog n sub phase),
                                     openRows := (s.channel n).openRows.filter fun k _ => k / 32 % 2 != sub }).set (Reg.DC.STS.STATE n) 5

theorem Dev.parityStop_does (s : Dev) (n sub phase : Nat) : (s.parityStop n sub phase).get (Reg.DC.STS.STATE n) = 5 ∧
    ((s.parityStop n sub phase).channel n).retry.get? sub = some (s.replayLog n sub phase) ∧
    (∀ k, k / 32 % 2 = sub → ((s.parityStop n sub phase).channel n).openRows.get? k = none) ∧ Dev.OnChannels s (s.parityStop n sub phase) := by
  have here : (s.parityStop n sub phase).channel n = _ := ((Dev.set_books _ _ _).channel n).trans (s.channel_setChannel_same n _)
  refine ⟨Dev.get_set_same _ _ _, ?_, fun k hk => ?_, (s.setChannel_onChannels n _).trans (Dev.set_books _ _ _).onChannels⟩
  · rw [here]
    exact Tab.get?_put_same _ _ _
  · rw [here]
    exact (Tab.get?_filter_key _ (fun k => k / 32 % 2 != sub) k).trans (if_neg (by simp [hk]))

/-! ## Drift (R151) -/

/-- The device once the oscillator of a rank has told a drift. -/
def Dev.drifted (s : Dev) (n rank : Nat) (drift : Int) : Dev :=
  let t := s.setChannel n { s.channel n with drift := (s.channel n).drift.put rank ((s.channel n).drift.getD rank 0 + drift),
                                             driftPending := (s.channel n).driftPending.put rank ((s.channel n).driftPending.getD rank 0 + drift) }
  if ((s.channel n).drift.getD rank 0).natAbs < 32 ∧ 32 ≤ ((s.channel n).drift.getD rank 0 + drift).natAbs then
    t.raise (t.dcEv n 10 false (t.dcWhere n rank 0) 0 0 0) else t

theorem Dev.drifted_does (s : Dev) (n rank : Nat) (drift : Int) :
    ((s.drifted n rank drift).channel n).drift.getD rank 0 = (s.channel n).drift.getD rank 0 + drift ∧
      ((s.drifted n rank drift).channel n).driftPending.getD rank 0 = (s.channel n).driftPending.getD rank 0 + drift ∧
      ((s.drifted n rank drift).channel n).lanes = (s.channel n).lanes ∧ Dev.OnChannels s (s.drifted n rank drift) := by
  unfold Dev.drifted
  dsimp only
  have told (t : Dev) (e : Ev) (c : Prop) [Decidable c] : Dev.Books t (if c then t.raise e else t) := .ite (Dev.raise_books _ _) (.refl t)
  rw [(told _ _ _).channel n, Dev.channel_setChannel_same]
  exact ⟨Tab.getD_put_same _ _ _ _, Tab.getD_put_same _ _ _ _, rfl, (s.setChannel_onChannels n _).trans (told _ _ _).onChannels⟩

end Sys2Proof.Machine

namespace Sys2Proof
open Machine

/-- The end of a retry on a channel of the device. -/
theorem exec_retryDone {n : Nat} (hn : n < 12) (sub : Nat) (clean : Bool) (cs ca : List (Option Nat)) (inTime : Bool) (s : State) :
    exec (.caParityRetryDone n sub clean cs ca inTime) s = .next (s.did (s.dev.retryDone n sub clean (retryT1 cs ca inTime)).settle) :=
  s.next_did_congr (congrArg Dev.settle (if_neg (Nat.not_le.mpr hn)))

/-- A sensor poll of a channel whose controller runs. -/
theorem exec_sensorPoll {s : State} {n : Nat} (hn : n < 12) (runs : s.dev.chanRuns n = true) (temps : List (Option Int)) (mr4 : Bool)
    (pmic : List Nat) : exec (.dimmSensorPoll n temps mr4 pmic) s = .next (s.did (s.dev.sensorPoll n (temps.take (s.dev.slotCount n)) mr4 pmic)) :=
  s.next_did_congr (if_pos ⟨hn, runs⟩)

/-- An event line of such a channel: the slot that asserted it is told, and its sensors are polled. -/
theorem exec_dimmEvent {s : State} {n : Nat} (hn : n < 12) (runs : s.dev.chanRuns n = true) (source : Option Nat) (temps : List (Option Int))
    (mr4 : Bool) (pmic : List Nat) : exec (.dimmEventNAssert n source temps mr4 pmic) s = .next (s.did ((match source with
      | some k => s.dev.raise (s.dev.dcEv n 8 false (8 * (k % 2)) 0 0 0)
      | none => s.dev).sensorPoll n (temps.take (s.dev.slotCount n)) mr4 pmic)) := by
  refine s.next_did_congr ((if_pos ⟨hn, runs⟩).trans ?_)
  cases source with
  | none => rfl
  | some k => exact congrArg (Dev.sensorPoll _ n · mr4 pmic) (congrArg (List.take · temps) (Dev.slotCount_raise _ n _))

/-- Settles O46: the refreshes, idle closings and calibrations by their effect on the channel, the retries through the settled channel state. -/
theorem dramChannelsTakeEffect : Obligations.DramChannelsTakeEffect := by
  unfold Obligations.DramChannelsTakeEffect
  intro s n hq hn
  have notBig : ¬ 12 ≤ n := by omega
  have sentSame {d : Dev} (h : d.out = s.dev.out) : (s.did d).sent = s.sent := congrArg (· ++ s.sent) (h.trans hq)
  have sentOn {d : Dev} (h : Dev.OnChannels s.dev d) : (s.did d).sent = s.sent := sentSame h.frames_out.2
  refine ⟨fun up => ?up, ?agedRead, ?agedWrite, ?noAge, ?sensors, ?noSensors, ?cool, ?drift, ?noDrift, ?alert, ?noAlert, ?retry, ?retryBad, ?noRetry⟩
  case up =>
    have isUp : ¬ (!s.dev.chanUp n) = true := by rw [up]; exact Bool.false_ne_true
    refine ⟨?due, ?limit, ?early, ?rows, ?down, ?noDown, ?idle, ?noIdle, ?zq⟩
    case due =>
      intro rank bank hr due d owed u
      have runs : exec (.refreshDue n rank bank) s = .next (s.did (s.dev.refreshDue n rank bank)) :=
        s.next_did_congr (if_neg (by
            rintro (h | h | h)
            · exact notBig h
            · exact isUp h
            · exact Nat.not_lt.mpr hr h))
      have cases : s.dev.refreshDue n rank bank = if (!s.dev.rankQueued n rank) = true then u.refreshOwed n rank
          else if s.dev.get (Reg.DC.REF_CTL.POSTPONE n) < owed.length then u.refreshForced n rank else u := rfl
      refine ⟨fun queued few => ?_, fun queued many => ?_, fun free => ?_⟩
      · have waits : ¬ (!s.dev.rankQueued n rank) = true := by rw [queued]; exact Bool.false_ne_true
        exact runs.trans (s.next_kept hq (cases.trans ((if_neg waits).trans (if_neg (Nat.not_lt.mpr few)))) rfl)
      · have waits : ¬ (!s.dev.rankQueued n rank) = true := by rw [queued]; exact Bool.false_ne_true
        exact runs.trans (s.next_kept hq (cases.trans ((if_neg waits).trans (if_pos many))) (Dev.refreshForced_onChannels u n rank).frames_out.2)
      · have issued := runs.trans (s.next_did_congr (cases.trans (if_pos (by rw [free]; rfl))))
        have here : u.channel n = _ := Dev.channel_setChannel_same _ _ _
        have owes : (u.channel n).postponed.getD rank [] = owed := by
          rw [here]
          exact Tab.getD_put_same _ _ _ _
        obtain ⟨⟨channels, form⟩, done, closed⟩ := u.refreshOwed_does n rank
        have same : (u.refreshOwed n rank).frames = s.dev.frames ∧ (u.refreshOwed n rank).regs = s.dev.regs ∧ (u.refreshOwed n rank).out = s.dev.out := by
          rw [form]
          exact ⟨rfl, rfl, rfl⟩
        obtain ⟨frames, regs, out⟩ := same
        exact ⟨_, issued, done, frames, regs, sentSame out, fun k hk h => closed k bank hk
          (by rw [owes]; exact List.mem_append_right _ (List.mem_singleton_self bank)) h⟩
    case limit =>
      intro rank b rest owed many
      rw [← s.dev.refreshForced_of_owed owed]
      refine s.next_kept hq ((if_neg ?_).trans (if_pos ?_)) (Dev.refreshForced_onChannels _ n rank).frames_out.2
      · rintro (h | h | h)
        · exact notBig h
        · exact isUp h
        · exact h (by rw [owed]; rfl)
      · rw [owed]
        exact many
    case early =>
      intro rank bank h
      refine s.next_same hq ?_
      by_cases head : ((s.dev.channel n).postponed.getD rank []).head? = some bank
      · exact (if_neg (by
          rintro (h | h | h)
          · exact notBig h
          · exact isUp h
          · exact h head)).trans
          (if_neg (Nat.not_le.mpr (h.resolve_right (not_not_intro head))))
      · exact if_pos (.inr (.inr head))
    case rows => exact fun rank bank k h hk => s.dev.refresh_closes h hk
    case down =>
      intro pair en shut free small
      refine ⟨_, s.next_did_congr ((if_neg ?_).trans (if_neg ?_)), congrArg Channel.powerDown (Dev.channel_setChannel_same _ _ _), rfl, rfl,
        Nat.le_max_left _ _, sentSame rfl⟩
      · rintro (h | h | h)
        · exact notBig h
        · exact isUp h
        · rw [en] at h; exact Bool.false_ne_true h
      · rw [shut, free, decide_eq_false (Nat.not_le.mpr small)]
        exact Bool.false_ne_true
    case noDown =>
      intro pair h
      refine s.next_same hq ?_
      by_cases en : s.dev.bit (Reg.DC.PD_CTL.EN n) = true
      · refine (if_neg (by
          rintro (h | h | h)
          · exact notBig h
          · exact isUp h
          · rw [en] at h; exact Bool.false_ne_true h)).trans (if_pos ?_)
        rcases h with h | h | h | h
        · exact absurd (en.symm.trans h) (by decide)
        · rw [h, Bool.true_or, Bool.true_or]
        · rw [h, Bool.or_true, Bool.true_or]
        · rw [decide_eq_true h, Bool.or_true]
      · exact if_pos (.inr (.inr (by rw [eq_false_of_ne_true en]; rfl)))
    case idle =>
      intro bank free opened
      have rows : ∀ c : Channel, ∀ b, ((s.dev.setChannel n c).channel n).openRows.get? b = c.openRows.get? b := fun c b =>
        congrArg (fun c => Tab.get? (Channel.openRows c) b) (Dev.channel_setChannel_same _ _ _)
      refine ⟨_, s.next_did_congr (if_neg ?_), (rows _ _).trans (Tab.get?_del_same _ _),
        fun b hb => (rows _ _).trans (Tab.get?_del_ne _ hb), rfl, rfl, Nat.le_max_left _ _, sentSame rfl⟩
      rintro (h | h | h | h)
      · exact notBig h
      · exact isUp h
      · exact Bool.false_ne_true (free.symm.trans h)
      · rw [opened] at h; exact Bool.false_ne_true h
    case noIdle =>
      intro bank h
      refine s.next_same hq (if_pos ?_)
      rcases h with h | h
      · exact .inr (.inr (.inl h))
      · exact .inr (.inr (.inr (by rw [h]; rfl)))
    case zq =>
      intro rank hr
      obtain ⟨rows, _, down, busy⟩ := s.dev.rankCommand_channel n rank (30 * latNs)
      exact ⟨_, s.next_did_congr (if_pos ⟨hn, up, hr⟩), busy, rows, down, rfl, rfl, sentSame rfl⟩
  case agedRead =>
    intro no d read chan waits age
    refine s.next_kept hq ((if_neg (not_or_intro notBig age)).trans ?_) rfl
    simp only [read]
    exact if_pos ⟨chan, by rw [waits]; rfl⟩
  case agedWrite =>
    intro cl w write age
    refine s.next_kept hq ((if_neg (not_or_intro notBig age)).trans ?_) rfl
    simp only [write]
    rfl
  case noAge =>
    intro key age
    exact ⟨s.next_same hq (if_pos (.inr age)), s.next_same hq (if_pos (.inr age))⟩
  case sensors =>
    intro temps mr4 pmic runs
    have event (source : Option Nat) := exec_dimmEvent hn runs source temps mr4 pmic
    exact ⟨exec_sensorPoll hn runs temps mr4 pmic, (event none).trans (exec_sensorPoll hn runs temps mr4 pmic).symm, fun k => event (some k)⟩
  case noSensors =>
    intro temps mr4 pmic still
    have not : ¬ (n < 12 ∧ s.dev.chanRuns n = true) := fun h => Bool.false_ne_true (still.symm.trans h.2)
    exact ⟨s.next_same hq (if_neg not), fun source => s.next_same hq (if_neg not)⟩
  case cool =>
    rintro temps mr4 runs one t0 rfl high crit
    have polled : exec (.dimmSensorPoll n [some t0] mr4 []) s = .next (s.did (s.dev.sensorPoll n [some t0] mr4 [])) :=
      s.next_did_congr ((if_pos ⟨hn, runs⟩).trans (by rw [one]; rfl))
    obtain ⟨temp, fail, halved, state, kept⟩ := s.dev.sensorPoll_of_cool_shows n mr4 high crit
    generalize s.dev.sensorPoll n [some t0] mr4 [] = d at polled temp fail halved state kept
    exact ⟨_, polled, temp, fail, halved, kept.frames_out.1, state, sentOn kept⟩
  case drift =>
    intro rank drift trained track native hr big
    have polled : exec (.dqsOscillatorPoll n rank drift) s = .next (s.did (s.dev.drifted n rank drift)) := s.next_did_congr (if_neg (by
      rintro (h | h | h | h | h | h)
      · exact notBig h
      · rw [trained] at h; exact Bool.false_ne_true h
      · rw [track] at h; exact Bool.false_ne_true h
      · exact Bool.false_ne_true (native.symm.trans h)
      · exact Nat.not_lt.mpr hr h
      · exact Nat.not_lt.mpr big h))
    obtain ⟨moved, pending, lanes, kept⟩ := s.dev.drifted_does n rank drift
    exact ⟨_, polled, moved, pending, lanes, kept.frames_out.1, sentOn kept⟩
  case noDrift =>
    intro rank drift h
    refine s.next_same hq (if_pos ?_)
    rcases h with h | h | h | h | h
    · exact .inr (.inl (by rw [h]; rfl))
    · exact .inr (.inr (.inl (by rw [h]; rfl)))
    · exact .inr (.inr (.inr (.inl h)))
    · exact .inr (.inr (.inr (.inr (.inl h))))
    · exact .inr (.inr (.inr (.inr (.inr h))))
  case alert =>
    intro sub phase hs idle trained
    have alerted : exec (.caParityAlert n sub phase) s = .next (s.did (s.dev.parityStop n sub phase)) := s.next_did_congr (if_neg (by
      rintro (h | h | h | h)
      · exact notBig h
      · exact Nat.not_le.mpr hs h
      · exact Bool.false_ne_true (idle.symm.trans h)
      · rw [trained] at h; exact Bool.false_ne_true h))
    obtain ⟨state, retry, rows, kept⟩ := s.dev.parityStop_does n sub phase
    exact ⟨_, alerted, state, retry, rows, kept.frames_out.1, sentOn kept⟩
  case noAlert =>
    intro sub phase h
    refine s.next_same hq (if_pos ?_)
    rcases h with h | h | h
    · exact .inr (.inl h)
    · exact .inr (.inr (.inl h))
    · exact .inr (.inr (.inr (by rw [h]; rfl)))
  case retry =>
    intro sub v cs ca inTime still some
    have clean : exec (.caParityRetryDone n sub true cs ca inTime) s = .next (s.did ((s.dev.retryClean n sub v).retryOver n)) := by
      rw [exec_retryDone hn, s.dev.retryDone_of_clean some]
      exact s.next_did_congr (settle_calm (((s.dev.retryClean_onChannels n sub v).trans (Dev.retryOver_books _ n).onChannels).stays_calm still))
    have kept := (s.dev.retryClean_onChannels n sub v).trans (Dev.retryOver_books _ n).onChannels
    have left := s.dev.retry_retryClean n sub v
    have gone : (((s.dev.retryClean n sub v).retryOver n).channel n).retry.get? sub = none := by
      rw [(Dev.retryOver_books _ n).channel n, left]
      exact Tab.get?_del_same _ _
    have ecs : (s.dev.retryClean n sub v).get Reg.ECS.FILL_STS.CH_DONE = s.dev.get Reg.ECS.FILL_STS.CH_DONE :=
      s.dev.get_retryClean n sub v (by show 0x580004 ≠ _; omega) (by decide) (by decide)
    have sts : (s.dev.retryClean n sub v).get (Reg.DC.STS.STATE n) = s.dev.get (Reg.DC.STS.STATE n) :=
      s.dev.get_retryClean n sub v (by show 0x28000c + 0x40000 * n ≠ _; omega) (by show 0x28000c + 0x40000 * n ≠ _; omega) (of_decide_eq_true rfl)
    refine ⟨fun last => ?_, fun other => ?_, fun fill => ?_⟩
    · have state := (s.dev.retryClean n sub v).state_retryOver (n := n) (by rw [left]; exact last)
      rw [ecs] at state
      generalize (s.dev.retryClean n sub v).retryOver n = d at clean kept gone state
      exact ⟨_, clean, state, gone, kept.frames_out.1, kept.reads, sentOn kept⟩
    · have stays := (s.dev.retryClean n sub v).retryOver_of_some (n := n) (by rw [left]; exact other)
      rw [← stays] at sts
      generalize (s.dev.retryClean n sub v).retryOver n = d at clean kept gone sts
      exact ⟨_, clean, sts, gone, kept.frames_out.1, kept.reads, sentOn kept⟩
    · have given := s.dev.retryDone_of_filling some fill (retryT1 cs ca inTime)
      obtain ⟨state, err, all, retry, kept⟩ := s.dev.fillGivenUp hn sub v
      rw [← given] at state err all retry kept
      have ended := exec_retryDone hn sub false cs ca inTime s
      rw [settle_calm (kept.stays_calm still)] at ended
      generalize s.dev.retryDone n sub false (retryT1 cs ca inTime) = d at ended state err all retry kept
      exact ⟨_, ended, state, err, all, retry, kept.frames_out.1, sentOn kept⟩
  case retryBad => exact fun sub cs ca inTime => exec_retryDone hn sub false cs ca inTime s
  case noRetry =>
    intro sub clean cs ca inTime still none
    rw [exec_retryDone hn, s.dev.retryDone_of_none none, settle_calm still]
    exact s.next_same hq rfl

end Sys2Proof
end

section
/-! SUPPORT. Patrol scrub, SRAM start-up and injection, a channel's fill and the rekey sweep (R114, R117–R129, R171): what each leaves of
the registers, of the channel and of memory. -/

namespace Sys2Proof.Machine

/-! ## The channel's patrol (R118–R122) -/

theorem State.did_channel (s : State) (d : Dev) (n : Nat) : (s.did d).dev.channel n = d.channel n := rfl

theorem Dev.OnChannels.ite {c : Prop} [Decidable c] {s t u : Dev} (h : Dev.OnChannels s t) (k : Dev.OnChannels s u) :
    Dev.OnChannels s (if c then t else u) := by
  split
  · exact h
  · exact k

theorem Dev.OnChannels.keeps {s t : Dev} (h : Dev.OnChannels s t) : t.clock = s.clock ∧ t.frames = s.frames ∧ t.errors = s.errors ∧
    t.poison = s.poison := by
  obtain ⟨channels, regs, row, fco, psq, rfl⟩ := h
  exact ⟨rfl, rfl, rfl, rfl⟩

/-- The device when the patrol of channel `n` goes on to line `cl`. -/
def Dev.patrolNext (s : Dev) (n cl : Nat) : Dev :=
  ((s.setChannel n { s.channel n with patrol := cl, patrolPromoted := false }).set (Reg.ECSC.SCRUB_POS.GRANULE n) (cl / 64)).set
    (Reg.ECSC.SCRUB_STS.PASS_PCT n) (cl * 100 / s.chanLines n)

theorem Dev.patrolNext_does (s : Dev) (n cl : Nat) : ((s.patrolNext n cl).channel n).patrol = cl ∧
    ((s.patrolNext n cl).channel n).patrolPromoted = false ∧ (s.patrolNext n cl).get (Reg.ECSC.SCRUB_POS.GRANULE n) = cl / 64 % 2 ^ 27 ∧
    ((s.patrolNext n cl).channel n).hist = (s.channel n).hist ∧ Dev.OnChannels s (s.patrolNext n cl) := by
  have books := ((s.setChannel n { s.channel n with patrol := cl, patrolPromoted := false }).set_books (Reg.ECSC.SCRUB_POS.GRANULE n) (cl / 64)).trans
    (Dev.set_books _ (Reg.ECSC.SCRUB_STS.PASS_PCT n) (cl * 100 / s.chanLines n))
  have here : (s.patrolNext n cl).channel n = _ := (books.channel n).trans (s.channel_setChannel_same n _)
  rw [here]
  refine ⟨rfl, rfl, ?_, rfl, (s.setChannel_onChannels n _).trans books.onChannels⟩
  exact (Dev.get_set_of_addr _ (f := Reg.ECSC.SCRUB_STS.PASS_PCT n) (by show 0x581008 + 0x100 * n ≠ 0x581004 + 0x100 * n; omega)
    (of_decide_eq_true rfl) (of_decide_eq_true rfl) _).trans (Dev.get_set_same _ _ _)

theorem Dev.passBegin_onChannels (s : Dev) (n : Nat) : Dev.OnChannels s (s.passBegin n) :=
  (s.setChannel_onChannels n _).trans (Dev.set_books _ _ _).onChannels

theorem Dev.channel_passBegin (s : Dev) (n : Nat) : (s.passBegin n).channel n = { s.channel n with
    patrol := 0, passStart := s.clock, interval := s.get (Reg.ECSC.SCRUB_CFG.INTERVAL_H n), passFull := false, patrolPromoted := false } :=
  ((Dev.set_books _ _ _).channel n).trans (s.channel_setChannel_same n _)

/-- What the start of a pass sets. -/
theorem Dev.passBegin_starts (s : Dev) (n : Nat) : ((s.passBegin n).channel n).patrol = 0 ∧ ((s.passBegin n).channel n).passStart = s.clock ∧
    ((s.passBegin n).channel n).interval = s.get (Reg.ECSC.SCRUB_CFG.INTERVAL_H n) ∧ ((s.passBegin n).channel n).hist = (s.channel n).hist := by
  rw [s.channel_passBegin]
  exact ⟨rfl, rfl, rfl, rfl⟩

theorem Dev.get_passBegin (s : Dev) (n : Nat) {f : Field} (h : f.addr ≠ 0x581008 + 0x100 * n) (lo : f.lo < 32) :
    (s.passBegin n).get f = s.get f := Dev.get_set_of_addr _ (f := Reg.ECSC.SCRUB_POS.GRANULE n) h lo (of_decide_eq_true rfl) _

/-- The device when a pass has ended, before the next begins. -/
def Dev.passTold (s : Dev) (n : Nat) : Dev :=
  let t := (s.count (Reg.ECSC.SCRUB_STS.PASSES n) (Reg.ECSC.SCRUB_STS.SAT n) 1 (Ev.plain 0x16E)).raise (Ev.plain 0x168)
  let t := if decide (s.passSpan n + s.passSpan n / 100 < s.clock - (s.channel n).passStart) then
    (t.setBit (Reg.ECSC.SCRUB_STS.LATE n) true).raise (ecsEv 0x169 8 n 0 15 0 0 0 (2 ^ 40 - 1) 0) else t
  t.setChannel n { t.channel n with cleanPass := !(t.channel n).passFull && decide (t.poison.size < 65536) }

theorem Dev.passEnd_books (s : Dev) (n : Nat) : Dev.Books ((s.passTold n).passBegin n) (s.passEnd n) := .ite (Dev.setBit_books _ _ _) (.refl _)

theorem Dev.get_passEnd (s : Dev) (n : Nat) {f : Field} (h : f.addr ≠ 0x580028) (lo : f.lo < 32) :
    (s.passEnd n).get f = ((s.passTold n).passBegin n).get f :=
  Dev.get_ite (Dev.get_set_of_addr _ (f := Reg.ECS.POISON_IDX.OVF) h lo (by decide) _) rfl

theorem Dev.passTold_form (s : Dev) (n : Nat) : ∃ t clean, Dev.Books s t ∧ s.passTold n = t.setChannel n { t.channel n with cleanPass := clean } :=
  ⟨_, _, ((s.count_books _ _ _ _).trans (Dev.raise_books _ _)).trans (.ite ((Dev.setBit_books _ _ _).trans (Dev.raise_books _ _)) (.refl _)), rfl⟩

theorem Dev.passTold_onChannels (s : Dev) (n : Nat) : Dev.OnChannels s (s.passTold n) := by
  obtain ⟨t, clean, told, form⟩ := s.passTold_form n
  rw [form]
  exact told.onChannels.trans (t.setChannel_onChannels n _)

theorem Dev.hist_passTold (s : Dev) (n : Nat) : ((s.passTold n).channel n).hist = (s.channel n).hist := by
  obtain ⟨t, clean, told, form⟩ := s.passTold_form n
  rw [form, Dev.channel_setChannel_same, told.channel n]

/-- A pass that ends leaves the history and memory as they were, and the next starts from the present and the interval in force. -/
theorem Dev.passEnd_does (s : Dev) (n : Nat) : Dev.OnChannels s (s.passEnd n) ∧ ((s.passEnd n).channel n).patrol = 0 ∧
    ((s.passEnd n).channel n).passStart = s.clock ∧ ((s.passEnd n).channel n).hist = (s.channel n).hist ∧
    ((s.passEnd n).channel n).interval = (s.passEnd n).get (Reg.ECSC.SCRUB_CFG.INTERVAL_H n) := by
  have last := s.passEnd_books n
  have stays : (s.passEnd n).get (Reg.ECSC.SCRUB_CFG.INTERVAL_H n) = _ :=
    s.get_passEnd n (by show 0x581000 + 0x100 * n ≠ 0x580028; omega) (of_decide_eq_true rfl)
  have told := s.passTold_onChannels n
  have hist := s.hist_passTold n
  have interval := stays.trans ((s.passTold n).get_passBegin n (by show 0x581000 + 0x100 * n ≠ _; omega) (of_decide_eq_true rfl))
  obtain ⟨patrol, start, inForce, kept⟩ := (s.passTold n).passBegin_starts n
  rw [last.channel n]
  exact ⟨(told.trans ((s.passTold n).passBegin_onChannels n)).trans last.onChannels, patrol, start.trans told.keeps.1, kept.trans hist,
    inForce.trans interval.symm⟩

/-- The line a patrol read of the pass looks at, read when it is due. -/
def Dev.patrolLooked (s : Dev) (n : Nat) (noise : BitVec 640) : Dev :=
  (s.at (s.patrolDue n)).patrolLine n (s.channel n).patrol (s.patrolDue n) (s.channel n).patrolPromoted noise

theorem Dev.patrolRead_of_on (s : Dev) {n : Nat} (up : s.chanUp n = true) (on : s.bit Reg.ECS.CFG.SCRUB_EN = true) (noise : BitVec 640) :
    s.patrolRead n false noise = if (s.channel n).patrol + 1 < (s.patrolLooked n noise).chanLines n then
        (s.patrolLooked n noise).patrolNext n ((s.channel n).patrol + 1)
      else ((s.patrolLooked n noise).passEnd n).set (Reg.ECSC.SCRUB_STS.PASS_PCT n) 0 := by
  unfold Dev.patrolRead
  rw [if_neg (by rw [up]; decide), if_neg (by decide), if_neg (by rw [on]; decide)]
  rfl

/-- The end of a pass as the channel's registers show it. -/
theorem Dev.passEnd_shows (s : Dev) (n : Nat) : (((s.passEnd n).set (Reg.ECSC.SCRUB_STS.PASS_PCT n) 0).channel n).patrol = 0 ∧
    ((s.passEnd n).set (Reg.ECSC.SCRUB_STS.PASS_PCT n) 0).get (Reg.ECSC.SCRUB_STS.PASS_PCT n) = 0 ∧
    (((s.passEnd n).set (Reg.ECSC.SCRUB_STS.PASS_PCT n) 0).channel n).passStart = s.clock ∧
    (((s.passEnd n).set (Reg.ECSC.SCRUB_STS.PASS_PCT n) 0).channel n).interval =
      ((s.passEnd n).set (Reg.ECSC.SCRUB_STS.PASS_PCT n) 0).get (Reg.ECSC.SCRUB_CFG.INTERVAL_H n) ∧
    (((s.passEnd n).set (Reg.ECSC.SCRUB_STS.PASS_PCT n) 0).channel n).hist = (s.channel n).hist ∧
    Dev.OnChannels s ((s.passEnd n).set (Reg.ECSC.SCRUB_STS.PASS_PCT n) 0) := by
  obtain ⟨kept, patrol, start, hist, interval⟩ := s.passEnd_does n
  generalize s.passEnd n = t at kept patrol start hist interval
  have books := t.set_books (Reg.ECSC.SCRUB_STS.PASS_PCT n) 0
  rw [books.channel n]
  refine ⟨patrol, (Dev.get_set_same _ _ _).trans (Nat.zero_mod _), start, interval.trans ?_, hist, kept.trans books.onChannels⟩
  exact (t.get_set_of_addr (by show 0x581000 + 0x100 * n ≠ 0x581004 + 0x100 * n; omega) (of_decide_eq_true rfl) (of_decide_eq_true rfl) 0).symm

/-! ## A channel's fill (R127, R128) -/

theorem Dev.get_fillCheck (s : Dev) (n : Nat) {f : Field} (h : f.addr ≠ 0x580004) (row : f.addr ≠ 0x8c0024) (lo : f.lo < 32) :
    (s.fillCheck n).get f = s.get f := by
  have mark (v : Nat) : (s.set Reg.ECS.FILL_STS.CH_DONE v).get f = s.get f := s.get_set_of_addr h lo (by decide) v
  exact Dev.get_ite ((Dev.get_raise_of_addr _ row lo _).trans
    ((Dev.get_set_of_addr _ (f := Reg.ECS.FILL_STS.ALL_DONE) h lo (by decide) _).trans (mark _))) (mark _)

theorem Dev.fillCheck_shows (s : Dev) {n : Nat} (hn : n < 12) : ((s.fillCheck n).get Reg.ECS.FILL_STS.CH_DONE).testBit n = true := by
  have mark : (s.set Reg.ECS.FILL_STS.CH_DONE (withBit (s.get Reg.ECS.FILL_STS.CH_DONE) n)).get Reg.ECS.FILL_STS.CH_DONE =
      withBit (s.get Reg.ECS.FILL_STS.CH_DONE) n % 2 ^ 12 := Dev.get_set_same _ _ _
  have shown : (s.fillCheck n).get Reg.ECS.FILL_STS.CH_DONE = withBit (s.get Reg.ECS.FILL_STS.CH_DONE) n % 2 ^ 12 :=
    Dev.get_ite ((Dev.get_raise_of_addr _ (by decide) (by decide) _).trans
      ((Dev.get_set_of_lo _ (f := Reg.ECS.FILL_STS.ALL_DONE) (by decide) (by decide) (by decide) _).trans mark)) mark
  rw [shown, testBit_mod_of_lt _ hn, testBit_withBit]

theorem Dev.frames_fillZero (s : Dev) {n fn i : Nat} (h : fn % s.chanCount = s.populated.idxOf n) (hi : i < 64) :
    (s.fillZero n).frames.get? (fn * 64 + i) = none := by
  refine (Tab.get?_filter_key s.frames (fun k => k / 64 % s.chanCount != s.populated.idxOf n) _).trans (if_neg ?_)
  have frame : (fn * 64 + i) / 64 = fn := by omega
  rw [frame, h]
  simp

/-- A channel whose fill is complete is in service, its patrol at its start and its frames zero. -/
theorem Dev.fillDoneOf_does (s : Dev) {n : Nat} (hn : n < 12) : (s.fillDoneOf n).get (Reg.DC.STS.STATE n) = 4 ∧
    ((s.fillDoneOf n).get Reg.ECS.FILL_STS.CH_DONE).testBit n = true ∧ ((s.fillDoneOf n).channel n).patrol = 0 ∧
    ((s.fillDoneOf n).channel n).cleanPass = false ∧ ((s.fillDoneOf n).channel n).writes = .empty ∧
    (s.fillDoneOf n).frames = ((s.at ((s.channel n).fillFrom + s.fillTime n)).fillZero n).frames ∧ (s.fillDoneOf n).out = s.out := by
  unfold Dev.fillDoneOf
  dsimp only
  have writes : ((((s.at ((s.channel n).fillFrom + s.fillTime n)).fillZero n)).channel n).writes = .empty :=
    congrArg Channel.writes (Dev.channel_setChannel_same (s.at ((s.channel n).fillFrom + s.fillTime n)) n _)
  have out : ((s.at ((s.channel n).fillFrom + s.fillTime n)).fillZero n).out = s.out := rfl
  generalize (s.at ((s.channel n).fillFrom + s.fillTime n)).fillZero n = z at writes out
  have state : (z.set (Reg.DC.STS.STATE n) 4).get (Reg.DC.STS.STATE n) = 4 := Dev.get_set_same _ _ _
  have books := z.set_books (Reg.DC.STS.STATE n) 4
  generalize z.set (Reg.DC.STS.STATE n) 4 = u at state books
  have begun := (u.setChannel n { z.channel n with cleanPass := false }).channel_passBegin n
  rw [Dev.channel_setChannel_same] at begun
  have sts := ((u.setChannel n { z.channel n with cleanPass := false }).get_passBegin n (f := Reg.DC.STS.STATE n)
    (by show 0x28000c + 0x40000 * n ≠ _; omega) (of_decide_eq_true rfl)).trans state
  have kept := (books.onChannels.trans (u.setChannel_onChannels n { z.channel n with cleanPass := false })).trans (Dev.passBegin_onChannels _ n)
  generalize (u.setChannel n { z.channel n with cleanPass := false }).passBegin n = v at begun sts kept
  have last := (v.fillCheck_books n)
  refine ⟨(v.get_fillCheck n ?_ ?_ (of_decide_eq_true rfl)).trans sts, v.fillCheck_shows hn, ?_, ?_, ?_,
    (kept.trans last.onChannels).frames_out.1, (kept.trans last.onChannels).frames_out.2.trans out⟩
  · show 0x28000c + 0x40000 * n ≠ _
    omega
  · show 0x28000c + 0x40000 * n ≠ _
    omega
  · rw [last.channel n, begun]
  · rw [last.channel n, begun]
  · rw [last.channel n, begun]
    exact writes

/-! ## SRAM words (R125, R126) -/

theorem Tab.get?_map {α : Type} (t : Tab α) (f : Nat → α → α) (k : Nat) : (t.map f).get? k = (t.get? k).map (f k) := by
  obtain ⟨l⟩ := t
  show Tab.find k (l.map fun e => (e.1, f e.1 e.2)) = (Tab.find k l).map (f k)
  induction l with
  | nil => rfl
  | cons e l ih =>
    obtain ⟨j, v⟩ := e
    by_cases h : j = k
    · subst h
      simp [Tab.find]
    · simpa [Tab.find, h] using ih

/-- After start-up every pattern word of every engine is zero. -/
theorem Dev.pattern_sramInit (s : Dev) (e k : Nat) : (s.sramInit.engine e).pattern.getD k 0 = 0 := by
  have empty : (s.sramInit.engine e).pattern = .empty := by
    show ((Tab.get? (s.engines.map fun _ e => { e with pattern := .empty, fifo := [] }) e).getD {}).pattern = _
    rw [Tab.get?_map]
    cases s.engines.get? e with
    | none => rfl
    | some x => rfl
  rw [empty]
  rfl

/-- The device with an SRAM injection armed. -/
def Dev.sramArmed (s : Dev) (target a b : Nat) (two : Bool) : Dev :=
  ((((s.set Reg.ECS.SRAM_INJ.TARGET target).set Reg.ECS.SRAM_INJ.BIT_A a).set Reg.ECS.SRAM_INJ.BIT_B b).setBit
    Reg.ECS.SRAM_INJ.TWO two).setBit Reg.ECS.SRAM_INJ.ARM true

theorem Dev.sramArmed_books (s : Dev) (target a b : Nat) (two : Bool) : Dev.Books s (s.sramArmed target a b two) :=
  ((((s.set_books _ _).trans (Dev.set_books _ _ _)).trans (Dev.set_books _ _ _)).trans (Dev.setBit_books _ _ _)).trans (Dev.setBit_books _ _ _)

theorem Dev.sramArmed_reads (s : Dev) {target a b : Nat} (two : Bool) (ht : target ≤ 4) (ha : a ≤ 136) (hb : b ≤ 136) :
    (s.sramArmed target a b two).bit Reg.ECS.SRAM_INJ.ARM = true ∧ (s.sramArmed target a b two).get Reg.ECS.SRAM_INJ.TARGET = target ∧
      (s.sramArmed target a b two).get Reg.ECS.SRAM_INJ.BIT_A = a ∧ (s.sramArmed target a b two).get Reg.ECS.SRAM_INJ.BIT_B = b ∧
      (s.sramArmed target a b two).bit Reg.ECS.SRAM_INJ.TWO = two := by
  have apart (s : Dev) {f g : Field} (h : g.lo ≠ f.lo) (hg : g.lo < 32) (hf : f.lo < 32) (v : Nat) : (s.set f v).get g = s.get g :=
    s.get_set_of_lo h hg hf v
  have bits : (Reg.ECS.SRAM_INJ.TARGET.width = 3 ∧ Reg.ECS.SRAM_INJ.BIT_A.width = 8 ∧ Reg.ECS.SRAM_INJ.BIT_B.width = 8) := by decide
  obtain ⟨wt, wa, wb⟩ := bits
  refine ⟨Dev.bit_setBit_same _ rfl true, ?_, ?_, ?_, ?_⟩
  · refine (apart _ (by decide) (by decide) (by decide) _).trans ((apart _ (by decide) (by decide) (by decide) _).trans
      ((apart _ (by decide) (by decide) (by decide) _).trans ((apart _ (by decide) (by decide) (by decide) _).trans (Dev.get_set_same _ _ _))))
      |>.trans ?_
    rw [wt]
    omega
  · refine (apart _ (by decide) (by decide) (by decide) _).trans ((apart _ (by decide) (by decide) (by decide) _).trans
      ((apart _ (by decide) (by decide) (by decide) _).trans (Dev.get_set_same _ _ _))) |>.trans ?_
    rw [wa]
    omega
  · refine (apart _ (by decide) (by decide) (by decide) _).trans ((apart _ (by decide) (by decide) (by decide) _).trans
      (Dev.get_set_same _ _ _)) |>.trans ?_
    rw [wb]
    omega
  · exact (congrArg (· != 0) (apart _ (by decide) (by decide) (by decide) _)).trans (Dev.bit_setBit_same _ rfl two)

/-- The next word written to the target of an armed injection takes its flips, and the injection is spent. -/
theorem Dev.sramWrite_of_armed (s : Dev) (target place : Nat) (arm : s.bit Reg.ECS.SRAM_INJ.ARM = true)
    (aim : s.get Reg.ECS.SRAM_INJ.TARGET = target) : (s.sramWrite target place).bit Reg.ECS.SRAM_INJ.ARM = false ∧
      (s.sramWrite target place).flips.get? (target * 2 ^ 44 + place) =
        if s.bit Reg.ECS.SRAM_INJ.TWO = true ∧ s.get Reg.ECS.SRAM_INJ.BIT_A = s.get Reg.ECS.SRAM_INJ.BIT_B then none
        else some (s.get Reg.ECS.SRAM_INJ.BIT_A, if s.bit Reg.ECS.SRAM_INJ.TWO then some (s.get Reg.ECS.SRAM_INJ.BIT_B) else none) := by
  unfold Dev.sramWrite
  dsimp only
  have cleared : (if s.flips.has (target * 2 ^ 44 + place) then { s with flips := s.flips.del (target * 2 ^ 44 + place) } else s).flips.get?
      (target * 2 ^ 44 + place) = none := by
    split
    · exact Tab.get?_del_same _ _
    · next h => exact Option.not_isSome_iff_eq_none.mp h
  have kept (f : Field) : (if s.flips.has (target * 2 ^ 44 + place) then { s with flips := s.flips.del (target * 2 ^ 44 + place) } else s).get f =
      s.get f := Dev.get_ite rfl rfl
  generalize (if s.flips.has (target * 2 ^ 44 + place) then { s with flips := s.flips.del (target * 2 ^ 44 + place) } else s : Dev) = u at cleared kept ⊢
  have bits (f : Field) : u.bit f = s.bit f := congrArg (· != 0) (kept f)
  have armed : u.bit Reg.ECS.SRAM_INJ.ARM = true ∧ u.get Reg.ECS.SRAM_INJ.TARGET = target := ⟨(bits _).trans arm, (kept _).trans aim⟩
  have spent : (u.setBit Reg.ECS.SRAM_INJ.ARM false).bit Reg.ECS.SRAM_INJ.ARM = false := Dev.bit_setBit_same _ rfl false
  rw [if_pos armed, ← bits, ← kept, ← kept]
  by_cases same : u.bit Reg.ECS.SRAM_INJ.TWO = true ∧ u.get Reg.ECS.SRAM_INJ.BIT_A = u.get Reg.ECS.SRAM_INJ.BIT_B
  · rw [if_pos same, if_pos same]
    exact ⟨spent, cleared⟩
  · rw [if_neg same, if_neg same]
    exact ⟨spent, Tab.get?_put_same _ _ _⟩

/-! ## The rekey sweep (R171, R172) -/

/-- A sweep may go on: the rate is not 0, the device serves, the slot's key is usable and RNT takes the class. -/
def Dev.sweepGoes (s : Dev) (k : Nat) : Prop :=
  s.get Reg.RNT.REKEY.RATE ≠ 0 ∧ s.serves = true ∧ s.slotState k = .active ∧ s.rntShut 6 = false

theorem Dev.sweepGoes.not_stopped {s : Dev} {k : Nat} (h : s.sweepGoes k) :
    ¬ (s.get Reg.RNT.REKEY.RATE = 0 ∨ (!s.serves) = true ∨ s.slotState k ≠ .active ∨ s.rntShut 6 = true) := by
  obtain ⟨rate, serves, active, opened⟩ := h
  simp [rate, serves, active, opened]

theorem Dev.sweepStep_of_stopped (s : Dev) {k : Nat} (h : s.sweeps.get? k = none ∨ s.get Reg.RNT.REKEY.RATE = 0 ∨ s.serves = false ∨
    s.slotState k ≠ .active ∨ s.rntShut 6 = true) : s.sweepStep k = s := by
  unfold Dev.sweepStep
  cases w : s.sweeps.get? k with
  | none => rfl
  | some w' =>
    rcases h with h | h
    · simp [w] at h
    · exact if_pos (by simpa using h)

theorem Dev.sweepStep_of_end (s : Dev) {k : Nat} {w : Sweep} (sw : s.sweeps.get? k = some w) (go : s.sweepGoes k)
    (last : s.sweepNext k w.next = none) : s.sweepStep k = s.sweepDone k := by
  unfold Dev.sweepStep
  simp only [sw, last]
  exact if_neg go.not_stopped

/-- What a sweep does with the next granule. -/
theorem Dev.sweepStep_of_granule (s : Dev) {k g n : Nat} {w : Sweep} {r : Region} (sw : s.sweeps.get? k = some w) (go : s.sweepGoes k)
    (next : s.sweepNext k w.next = some g) (reg : s.regionAt g = some (n, r)) : s.sweepStep k =
      if (s.fme g).tier = .staged then s
      else if (s.fme g).tier ≠ .L ∧ (s.fme g).ew = true then (s.requestFill g .background [] []).1
      else if (s.fme g).tier = .L ∧ (s.fills.has g || ((s.fme g).ew && (List.range 64).any fun i => (s.frameLn (s.fme g).loc i).st == .absent)) = true then
        (s.requestFill g .background [] []).1
      else
        let t := (s.sweepLines k g).foldl (fun s x => if (s.holdReason r
          { head := copyHead, gld := 64, tag := 0, line := g * 64, write := some (BitVec.allOnes 64, 0) }).isSome || s.lineBusy x.1 || s.acceptFull x.1 then s else s.sweepLine n r x.1) s
        if (t.sweepLines k g).isEmpty && t.slotState k == .active then
          ({ t with sweeps := t.sweeps.put k { w with next := g + 1, visited := w.visited + 1 } } : Dev).sweepShow k (w.visited + 1)
        else t := by
  unfold Dev.sweepStep
  simp only [sw, next, reg]
  exact if_neg go.not_stopped

theorem Dev.sweepShow_books (s : Dev) (k visited : Nat) : Dev.Books s (s.sweepShow k visited) := (s.set_books _ _).trans (Dev.set_books _ _ _)

theorem Dev.slot_sweepShow (s : Dev) (k visited : Nat) : (s.sweepShow k visited).get Reg.RNT.REKEY_STS.SLOT = k % 2 ^ 12 :=
  (Dev.get_set_of_lo _ (f := Reg.RNT.REKEY_STS.PCT) (by decide) (by decide) (by decide) _).trans (Dev.get_set_same _ _ _)

/-- A sweep that goes on shows its progress and leaves memory alone. -/
theorem Dev.sweepOn_does (s : Dev) (k : Nat) (w : Sweep) (visited : Nat) :
    let t := ({ s with sweeps := s.sweeps.put k w } : Dev).sweepShow k visited
    t.sweeps.get? k = some w ∧ t.get Reg.RNT.REKEY_STS.SLOT = k % 2 ^ 12 ∧ t.frames = s.frames ∧ t.lc = s.lc ∧ t.out = s.out := by
  dsimp only
  have shown := Dev.slot_sweepShow ({ s with sweeps := s.sweeps.put k w } : Dev) k visited
  obtain ⟨regs, row, fco, psq, form⟩ := Dev.sweepShow_books ({ s with sweeps := s.sweeps.put k w } : Dev) k visited
  rw [form] at shown ⊢
  exact ⟨Tab.get?_put_same _ _ _, shown, rfl, rfl, rfl⟩

theorem Dev.forward_of_role (s : Dev) (h : s.role ≠ 1) (cmd : FwdCmd) (i : Option Issuer) (r0 r1 : Nat) : (s.forward cmd i r0 r1).1 = s :=
  congrArg Prod.fst (if_neg fun k => h k.1)

/-- A sweep that ends is gone, and with it the previous epoch of its slot; memory stays. -/
theorem Dev.sweepClear_does (s : Dev) (k : Nat) : (s.sweepClear k).sweeps.get? k = none ∧ ((s.sweepClear k).slot k).prev = none ∧
    (s.sweepClear k).frames = s.frames ∧ (s.sweepClear k).lc = s.lc ∧ (s.sweepClear k).out = s.out ∧ (s.sweepClear k).role = s.role := by
  have dropped (t : Dev) : (t.sweepDrop k).sweeps.get? k = none ∧ (t.sweepDrop k).slot k = t.slot k ∧ (t.sweepDrop k).frames = t.frames ∧
      (t.sweepDrop k).lc = t.lc ∧ (t.sweepDrop k).out = t.out ∧ (t.sweepDrop k).role = t.role :=
    ⟨Tab.get?_del_same _ _, rfl, rfl, rfl, rfl, Dev.get_set_of_addr _ (f := Reg.RNT.REKEY_STS.ACTIVE) (by decide) (by decide) (by decide) _⟩
  have prev (m : MemSlot) (h : m.prev = none) : (((s.setSlot k m).slotChanged k).slot k).prev = none :=
    (congrArg MemSlot.prev (s.slot_setSlot_same k m)).trans h
  obtain ⟨sweeps, slot, frames, lc, out, role⟩ := dropped ((s.setSlot k ({ s.slot k with prev := none } : MemSlot).checked).slotChanged k)
  obtain ⟨regs, row, fco, psq, raised⟩ := (((s.setSlot k ({ s.slot k with prev := none } : MemSlot).checked).slotChanged k).sweepDrop k).raise_books
    (rntEv 0x07A 6 0 0 k (s.slot k).epoch 0 (2 ^ 40 - 1) 0 true)
  have told : (s.sweepClear k).role = (((s.setSlot k ({ s.slot k with prev := none } : MemSlot).checked).slotChanged k).sweepDrop k).role :=
    Dev.get_raise_of_addr _ (by decide) (by decide) _
  have form : s.sweepClear k = _ := raised
  refine ⟨?_, ?_, ?_, ?_, ?_, told.trans role⟩
  · rw [form]
    exact sweeps
  · rw [form]
    exact (congrArg MemSlot.prev slot).trans (prev _ rfl)
  · rw [form]
    exact frames
  · rw [form]
    exact lc
  · rw [form]
    exact out

/-- On a device that does not forward, a sweep that is done is gone, and with it the previous epoch of its slot. -/
theorem Dev.sweepDone_does (s : Dev) (k : Nat) (alone : s.role ≠ 1) : (s.sweepDone k).sweeps.get? k = none ∧ ((s.sweepDone k).slot k).prev = none ∧
    (s.sweepDone k).frames = s.frames ∧ (s.sweepDone k).lc = s.lc ∧ (s.sweepDone k).out = s.out := by
  have role : (s.sweepShow k (2 ^ 64)).role = s.role := (Dev.get_set_of_addr _ (f := Reg.RNT.REKEY_STS.PCT) (by decide) (by decide) (by decide) _).trans
    (s.get_set_of_addr (f := Reg.RNT.REKEY_STS.SLOT) (by decide) (by decide) (by decide) _)
  have shown := s.sweepShow_books k (2 ^ 64)
  unfold Dev.sweepDone
  generalize s.sweepShow k (2 ^ 64) = u at role shown
  obtain ⟨sweeps, prev, frames, lc, out, role'⟩ := u.sweepClear_does k
  rw [Dev.forward_of_role _ (by rw [role', role]; exact alone)]
  obtain ⟨regs, row, fco, psq, rfl⟩ := shown
  exact ⟨sweeps, prev, frames, lc, out⟩

end Sys2Proof.Machine

namespace Sys2Proof
open Machine

theorem exec_patrolRead {s : State} {n : Nat} (hn : n < 12) (extra : Bool) (noise : BitVec 512) (parity : BitVec 128) :
    exec (.patrolScrubRead n extra noise parity) s = .next (s.did (s.dev.patrolRead n extra (lineNoise noise parity))) :=
  s.next_did_congr (if_pos hn)

/-- A patrol read within its pass goes on to the next line. -/
theorem exec_patrol_goes_on {s : State} {n : Nat} (hn : n < 12) (up : s.dev.chanUp n = true) (on : s.dev.bit Reg.ECS.CFG.SCRUB_EN = true)
    (noise : BitVec 512) (parity : BitVec 128)
    (more : (s.dev.channel n).patrol + 1 < (s.dev.patrolLooked n (lineNoise noise parity)).chanLines n) :
    ∃ t, exec (.patrolScrubRead n false noise parity) s = .next t ∧ (t.dev.channel n).patrol = (s.dev.channel n).patrol + 1 ∧
      (t.dev.channel n).patrolPromoted = false ∧
      t.dev.get (Reg.ECSC.SCRUB_POS.GRANULE n) = ((s.dev.channel n).patrol + 1) / 64 % 2 ^ 27 ∧
      (t.dev.channel n).hist = ((s.dev.patrolLooked n (lineNoise noise parity)).channel n).hist ∧
      t.dev.frames = (s.dev.patrolLooked n (lineNoise noise parity)).frames ∧
      t.dev.errors = (s.dev.patrolLooked n (lineNoise noise parity)).errors ∧
      t.dev.poison = (s.dev.patrolLooked n (lineNoise noise parity)).poison := by
  have went := exec_patrolRead (s := s) hn false noise parity
  rw [s.dev.patrolRead_of_on up on, if_pos more] at went
  generalize s.dev.patrolLooked n (lineNoise noise parity) = u at went ⊢
  obtain ⟨patrol, promoted, granule, hist, kept⟩ := u.patrolNext_does n ((s.dev.channel n).patrol + 1)
  obtain ⟨_, frames, errors, poison⟩ := kept.keeps
  have here := s.did_channel (u.patrolNext n ((s.dev.channel n).patrol + 1)) n
  exact ⟨_, went, (congrArg Channel.patrol here).trans patrol, (congrArg Channel.patrolPromoted here).trans promoted,
    (s.did_get _ _).trans granule, (congrArg Channel.hist here).trans hist, (s.did_frames _).trans frames, (s.did_errors _).trans errors,
    (s.did_poison _).trans poison⟩

/-- The last patrol read of a pass ends it, and the next pass begins. -/
theorem exec_patrol_ends {s : State} {n : Nat} (hn : n < 12) (up : s.dev.chanUp n = true) (on : s.dev.bit Reg.ECS.CFG.SCRUB_EN = true)
    (noise : BitVec 512) (parity : BitVec 128)
    (last : (s.dev.patrolLooked n (lineNoise noise parity)).chanLines n ≤ (s.dev.channel n).patrol + 1) :
    ∃ t, exec (.patrolScrubRead n false noise parity) s = .next t ∧ (t.dev.channel n).patrol = 0 ∧
      t.dev.get (Reg.ECSC.SCRUB_STS.PASS_PCT n) = 0 ∧ (t.dev.channel n).passStart = (s.dev.patrolLooked n (lineNoise noise parity)).clock ∧
      (t.dev.channel n).interval = t.dev.get (Reg.ECSC.SCRUB_CFG.INTERVAL_H n) ∧
      (t.dev.channel n).hist = ((s.dev.patrolLooked n (lineNoise noise parity)).channel n).hist ∧
      t.dev.frames = (s.dev.patrolLooked n (lineNoise noise parity)).frames ∧
      t.dev.errors = (s.dev.patrolLooked n (lineNoise noise parity)).errors ∧
      t.dev.poison = (s.dev.patrolLooked n (lineNoise noise parity)).poison := by
  have went := exec_patrolRead (s := s) hn false noise parity
  rw [s.dev.patrolRead_of_on up on, if_neg (Nat.not_lt.mpr last)] at went
  generalize s.dev.patrolLooked n (lineNoise noise parity) = u at went ⊢
  obtain ⟨patrol, pct, start, interval, hist, kept⟩ := u.passEnd_shows n
  obtain ⟨_, frames, errors, poison⟩ := kept.keeps
  have here := s.did_channel ((u.passEnd n).set (Reg.ECSC.SCRUB_STS.PASS_PCT n) 0) n
  exact ⟨_, went, (congrArg Channel.patrol here).trans patrol, (s.did_get _ _).trans pct, (congrArg Channel.passStart here).trans start,
    ((congrArg Channel.interval here).trans interval).trans (s.did_get _ _).symm, (congrArg Channel.hist here).trans hist,
    (s.did_frames _).trans frames, (s.did_errors _).trans errors, (s.did_poison _).trans poison⟩

/-- Settles O45: the patrol and the fill by what they leave of their channel, the injections by the words that take them, the sweep by its
next granule. -/
theorem scrubAndInjectionTakeEffect : Obligations.ScrubAndInjectionTakeEffect := by
  unfold Obligations.ScrubAndInjectionTakeEffect
  refine ⟨fun s n hq hn => ?chan, fun s hq => ?all⟩
  case chan =>
    refine ⟨?down, ?off, ?patrol, ?extra, ?noExtra, ?promote, ?noPromote, ?leak, ?noLeak, ?arm, ?full, ?fill, ?noFill⟩
    case down =>
      intro extra noise parity down
      rw [exec_patrolRead hn]
      exact s.next_same hq (if_pos (by rw [down]; rfl))
    case off =>
      intro noise parity up off
      rw [exec_patrolRead hn]
      exact s.next_same hq ((if_neg (by rw [up]; decide)).trans ((if_neg (by decide)).trans (if_pos (by rw [off]; rfl))))
    case patrol =>
      intro noise parity up on c u
      exact ⟨exec_patrol_goes_on hn up on noise parity, exec_patrol_ends hn up on noise parity⟩
    case extra =>
      intro noise parity x rest up some
      rw [exec_patrolRead hn]
      refine s.next_did_congr ((if_neg (by rw [up]; decide)).trans ((if_pos rfl).trans ?_))
      simp only [some]
    case noExtra =>
      intro noise parity none
      rw [exec_patrolRead hn]
      refine s.next_same hq ?_
      by_cases up : s.dev.chanUp n = true
      · refine (if_neg (by rw [up]; decide)).trans ((if_pos rfl).trans ?_)
        simp only [none]
      · exact if_pos (by rw [eq_false_of_ne_true up]; rfl)
    case promote =>
      intro up on
      refine ⟨_, s.next_did_congr (if_pos ⟨hn, up, on⟩), congrArg Channel.patrolPromoted (Dev.channel_setChannel_same _ _ _), rfl, rfl,
        congrArg (· ++ s.sent) hq, rfl⟩
    case noPromote =>
      intro h
      refine s.next_same hq (if_neg fun ⟨_, up, on⟩ => ?_)
      rcases h with h | h
      · exact Bool.false_ne_true (h.symm.trans up)
      · exact Bool.false_ne_true (h.symm.trans on)
    case leak =>
      intro some d down
      exact s.next_kept hq (if_neg (not_or_intro (Nat.not_le.mpr hn) some)) rfl
    case noLeak => exact fun none => s.next_same hq (if_pos (.inr none))
    case arm =>
      intro few
      exact s.next_kept hq ((if_pos hn).trans (if_neg (Nat.not_le.mpr few))) (s.dev.setBit_books _ _).keeps.1
    case full =>
      intro many
      exact s.next_kept hq ((if_pos hn).trans (if_pos many)) ((s.dev.setBit_books _ _).trans (Dev.setBit_books _ _ _)).keeps.1
    case fill =>
      intro filling
      have filled : exec (.channelFillComplete n) s = .next (s.did (s.dev.fillDoneOf n)) := s.next_did_congr (if_pos ⟨hn, filling⟩)
      obtain ⟨state, done, patrol, clean, writes, frames, out⟩ := s.dev.fillDoneOf_does hn
      have zero (fn : Nat) (h : fn % s.dev.chanCount = s.dev.populated.idxOf n) (i : Nat) (hi : i < 64) :=
        (congrArg (Tab.get? · (fn * 64 + i)) frames).trans
          ((s.dev.at ((s.dev.channel n).fillFrom + s.dev.fillTime n)).frames_fillZero (n := n) h hi)
      generalize s.dev.fillDoneOf n = d at filled state done patrol clean writes out zero
      exact ⟨_, filled, state, done, patrol, clean, writes, zero, congrArg (· ++ s.sent) (out.trans hq)⟩
    case noFill => exact fun other => s.next_same hq (if_neg fun h => other h.2)
  case all =>
    refine ⟨?enable, ?armed, ?refused, ?init, ?stopped, ?sweep⟩
    case enable => exact fun on => s.next_kept hq rfl (s.dev.setBit_books _ _).keeps.1
    case armed =>
      intro target a b two ht ha hb
      have armed : exec (.sramInjArm target a b two) s = .next (s.did (s.dev.sramArmed target a b two)) :=
        s.next_did_congr (if_neg (by omega))
      obtain ⟨arm, aim, bitA, bitB, pair⟩ := s.dev.sramArmed_reads two ht ha hb
      obtain ⟨frames, out⟩ := (s.dev.sramArmed_books target a b two).onChannels.frames_out
      generalize s.dev.sramArmed target a b two = d at armed arm aim bitA bitB pair frames out
      refine ⟨_, armed, arm, frames, congrArg (· ++ s.sent) (out.trans hq), fun place => ?_⟩
      obtain ⟨spent, flips⟩ := (s.did d).dev.sramWrite_of_armed target place arm aim
      simp only [State.did_get, State.did_bit, bitA, bitB, pair] at flips
      exact ⟨spent, flips⟩
    case refused =>
      intro target a b two bad
      exact s.next_kept hq (if_pos bad) (s.dev.discard_books _ _).keeps.1
    case init =>
      exact ⟨_, rfl, rfl, rfl, rfl, rfl, rfl, rfl, rfl, congrArg (· ++ s.sent) hq, s.dev.pattern_sramInit⟩
    case stopped => exact fun slot h => s.next_same hq (s.dev.sweepStep_of_stopped h)
    case sweep =>
      intro slot w sw rate serves active opened
      have go : s.dev.sweepGoes slot := ⟨rate, serves, active, opened⟩
      refine ⟨fun last => ?_, fun g n r next reg => ?_⟩
      · have ended : exec (.rekeySweepStep slot) s = .next (s.did (s.dev.sweepDone slot)) := s.next_did_congr (s.dev.sweepStep_of_end sw go last)
        refine ⟨ended, fun alone => ?_⟩
        obtain ⟨sweeps, prev, frames, lc, out⟩ := s.dev.sweepDone_does slot alone
        generalize s.dev.sweepDone slot = d at ended sweeps prev frames lc out
        exact ⟨_, ended, sweeps, prev, frames, lc, congrArg (· ++ s.sent) (out.trans hq)⟩
      · have went := s.next_did_congr (s.dev.sweepStep_of_granule sw go next reg)
        generalize hu : (s.dev.sweepLines slot g).foldl (fun s x => if (s.holdReason r
          { head := copyHead, gld := 64, tag := 0, line := g * 64, write := some (BitVec.allOnes 64, 0) }).isSome || s.lineBusy x.1 ||
            s.acceptFull x.1 then s else s.sweepLine n r x.1) s.dev = t at went
        refine ⟨fun staged => ?_, fun moved flash ew => ?_, fun here fills => ?_, fun moved ew fills done => ?_, fun here fills full u hu' => ?_⟩
        · rw [if_pos staged] at went
          exact went.trans (s.next_same hq rfl)
        · rw [if_neg moved, if_pos ⟨flash, ew⟩] at went
          exact went
        · rw [if_neg (by rw [here]; decide), if_neg (fun h => h.1 here), if_pos ⟨here, by rw [fills]; rfl⟩] at went
          exact went
        · have none : t = s.dev := by rw [← hu, done]; rfl
          rw [none, if_neg moved, if_neg (fun h => Bool.false_ne_true (ew.symm.trans h.2)), if_neg (by rw [fills, ew]; exact fun h => Bool.false_ne_true h.2),
            if_pos (by rw [done, active]; rfl)] at went
          obtain ⟨sweeps, shown, frames, lc, out⟩ := s.dev.sweepOn_does slot { w with next := g + 1, visited := w.visited + 1 } (w.visited + 1)
          exact ⟨_, went, sweeps, (s.did_get _ _).trans shown, (s.did_frames _).trans frames, (s.did_lc _).trans lc,
            (s.did_sent _).trans (congrArg (· ++ s.sent) (out.trans hq))⟩
        · have present : ((s.dev.fme g).ew && (List.range 64).any fun i => (s.dev.frameLn (s.dev.fme g).loc i).st == .absent) = false := by
            by_cases ew : (s.dev.fme g).ew = true
            · rw [ew, Bool.true_and, List.any_eq_false]
              exact fun i hi => by simpa using full ew i (List.mem_range.mp hi)
            · rw [eq_false_of_ne_true ew, Bool.false_and]
          rw [if_neg (by rw [here]; decide), if_neg (fun h => h.1 here), if_neg (by rw [fills, present]; exact fun h => Bool.false_ne_true h.2)] at went
          rw [hu']
          refine went.trans (s.next_did_congr ?_)
          have same : ((t.sweepLines slot g).isEmpty && t.slotState slot == .active) = true ↔ t.sweepLines slot g = [] ∧ t.slotState slot = .active := by
            rw [Bool.and_eq_true, List.isEmpty_iff, beq_iff_eq]
          dsimp only
          split
          · next h => rw [if_pos (same.mp h)]
          · next h => rw [if_neg fun k => h (same.mpr k)]

end Sys2Proof
end

section
/-! SUPPORT. Drives entering and leaving service (R187–R189, R200–R204): what a change of a drive's state writes, and where a failed read ends. -/

namespace Sys2Proof.Machine

theorem Dev.imageStatus_books (s : Dev) : Dev.Books s s.imageStatus := .ite (s.set_books _ _) (.refl s)

theorem Dev.get_imageStatus (s : Dev) {f : Field} (h : f.addr ≠ 0x680014) (lo : f.lo < 32) : s.imageStatus.get f = s.get f :=
  Dev.get_ite (s.get_set_of_addr (f := Reg.NVH.IMG_STS.STATE) h lo (by decide) _) rfl

/-- A drive's registers once its new state is shown: STATE, REASON, the image's status and, out of service, no queue pairs. -/
def Dev.drvShown (s : Dev) (p st reason : Nat) : Dev :=
  let t := ((s.set (Reg.NVH.DRV.STATE p) st).set (Reg.NVH.DRV.REASON p) reason).imageStatus
  if st = 2 ∨ st = 3 ∨ st = 1 then t else t.set (Reg.NVH.DRV.QPAIRS p) 0

theorem Dev.drvShown_books (s : Dev) (p st reason : Nat) : Dev.Books s (s.drvShown p st reason) := by
  have shown := ((s.set_books (Reg.NVH.DRV.STATE p) st).trans (Dev.set_books _ (Reg.NVH.DRV.REASON p) reason)).trans (Dev.imageStatus_books _)
  exact shown.trans (.ite (.refl _) (Dev.set_books _ _ _))

/-- Where the drive neither enters nor leaves service, only its event follows. -/
theorem Dev.setDrv_of_same_service (s : Dev) {p st : Nat} (h : inService (s.get (Reg.NVH.DRV.STATE p)) = inService st)
    (reason id status lba gran : Nat) : s.setDrv p st reason id status lba gran =
      if id = 0 then s.drvShown p st reason
      else (s.drvShown p st reason).raise ((s.drvShown p st reason).drvEv id p (s.get (Reg.NVH.DRV.STATE p)) status lba gran) := by
  unfold Dev.setDrv
  dsimp only
  rw [h, beq_self_eq_true, if_pos rfl]
  rfl

/-- What DRV shows of a drive's new state. -/
theorem Dev.drvShown_shows (s : Dev) {p st reason : Nat} (hp : p < 8) (hs : st < 8) (hr : reason < 16) :
    (s.drvShown p st reason).get (Reg.NVH.DRV.STATE p) = st ∧ (s.drvShown p st reason).get (Reg.NVH.DRV.REASON p) = reason ∧
      (¬ (1 ≤ st ∧ st ≤ 3) → (s.drvShown p st reason).get (Reg.NVH.DRV.QPAIRS p) = 0) := by
  have drv {f : Field} (hf : f.addr = 0x680020 + 0x4 * p) (lo : f.lo < 32) (h : f.lo ≠ 7) : (s.drvShown p st reason).get f =
      ((s.set (Reg.NVH.DRV.STATE p) st).set (Reg.NVH.DRV.REASON p) reason).get f := by
    have image := Dev.get_imageStatus ((s.set (Reg.NVH.DRV.STATE p) st).set (Reg.NVH.DRV.REASON p) reason) (f := f) (by omega) lo
    exact Dev.get_ite image ((Dev.get_set_of_lo _ (f := Reg.NVH.DRV.QPAIRS p) h lo (of_decide_eq_true rfl) _).trans image)
  refine ⟨?_, ?_, fun out => ?_⟩
  · exact (drv rfl (of_decide_eq_true rfl) (of_decide_eq_true rfl)).trans ((Dev.get_set_of_lo _ (f := Reg.NVH.DRV.REASON p)
      (of_decide_eq_true rfl) (of_decide_eq_true rfl) (of_decide_eq_true rfl) _).trans ((Dev.get_set_same _ _ _).trans (Nat.mod_eq_of_lt hs)))
  · exact (drv rfl (of_decide_eq_true rfl) (of_decide_eq_true rfl)).trans ((Dev.get_set_same _ _ _).trans (Nat.mod_eq_of_lt hr))
  · exact (congrArg (Dev.get · (Reg.NVH.DRV.QPAIRS p)) (if_neg (by omega))).trans ((Dev.get_set_same _ _ _).trans (Nat.zero_mod _))

theorem Dev.setDrv_shows (s : Dev) {p st reason : Nat} (hp : p < 8) (hs : st < 8) (hr : reason < 16)
    (h : inService (s.get (Reg.NVH.DRV.STATE p)) = inService st) (id status lba gran : Nat) :
    (s.setDrv p st reason id status lba gran).get (Reg.NVH.DRV.STATE p) = st ∧
      (s.setDrv p st reason id status lba gran).get (Reg.NVH.DRV.REASON p) = reason ∧
      (¬ (1 ≤ st ∧ st ≤ 3) → (s.setDrv p st reason id status lba gran).get (Reg.NVH.DRV.QPAIRS p) = 0) ∧
      Dev.Books s (s.setDrv p st reason id status lba gran) := by
  rw [s.setDrv_of_same_service h]
  obtain ⟨state, why, pairs⟩ := s.drvShown_shows hp hs hr
  have books := s.drvShown_books p st reason
  generalize s.drvShown p st reason = t at state why pairs books
  have told {f : Field} (hf : f.addr = 0x680020 + 0x4 * p) (lo : f.lo < 32) (e : Ev) : (if id = 0 then t else t.raise e).get f = t.get f :=
    Dev.get_ite rfl (t.get_raise_of_addr (by omega) lo e)
  exact ⟨(told rfl (of_decide_eq_true rfl) _).trans state, (told rfl (of_decide_eq_true rfl) _).trans why,
    fun out => (told rfl (of_decide_eq_true rfl) _).trans (pairs out), books.trans (.ite (.refl t) (t.raise_books _))⟩

theorem Dev.readFailed_books (s : Dev) (p before status lba gran : Nat) : Dev.Books s (s.readFailed p before status lba gran) :=
  (s.count_books _ _ _ _).trans (Dev.raise_books _ _)

theorem Tab.del_of_empty {α : Type} {t : Tab α} (h : t.list = []) (k : Nat) : t.del k = t := by
  obtain ⟨l⟩ := t
  obtain rfl : l = [] := h
  rfl

theorem Tab.get?_of_empty {α : Type} {t : Tab α} (h : t.list = []) (k : Nat) : t.get? k = none := by
  obtain ⟨l⟩ := t
  obtain rfl : l = [] := h
  rfl

theorem Dev.retryLearns_of_none (s : Dev) (h : s.destages.list = []) : s.retryLearns = s := by
  unfold Dev.retryLearns
  rw [h]
  rfl

/-- A drive error does nothing to a drive out of service. -/
theorem Dev.driveError_of_out (s : Dev) {d : Nat} (out : inService (s.driveSt d) = false) (other : s.driveSt d ≠ 1) (op gran : Nat) (ok : Bool)
    (status lba : Nat) : s.driveError d op gran ok status lba = s :=
  if_pos (by rw [out, beq_false_of_ne other]; rfl)

theorem Dev.driveError_of_in (s : Dev) {d : Nat} (inside : inService (s.driveSt d) = true) (op : Nat) :
    ¬ (!(inService (s.driveSt d) || (s.driveSt d == 1 && op == 3))) = true := by
  rw [inside]
  exact Bool.false_ne_true

/-- What waits for a granule's read once it has failed (R201 Case A, R202 Case A). -/
def Dev.afterReadFailed (s : Dev) (g : Nat) : Dev :=
  let fill : Bool := match s.fills.get? g with | some f => f.src == .F && f.frame.isSome && f.data.isNone | none => false
  let t := { s with learns := s.learns.del g }
  let t := if s.mergeReading g then t.mergeFailed g else t
  (if fill then t.flashFailed g else t).retryLearns.settle

theorem Dev.driveError_of_read (s : Dev) {d : Nat} (inside : inService (s.driveSt d) = true) (g status lba : Nat) :
    s.driveError d 0 g false status lba = (s.readFailed (s.portOfDrive d) (s.driveSt d) status lba g).afterReadFailed g :=
  (if_neg (s.driveError_of_in inside 0)).trans ((if_pos rfl).trans (if_neg Bool.false_ne_true))

/-- Where nothing waits for the read, nothing follows. -/
theorem Dev.afterReadFailed_of_idle (s : Dev) {g : Nat} (still : calm s) (learns : s.learns.list = []) (fills : s.fills.get? g = none)
    (destages : s.destages.list = []) : s.afterReadFailed g = s := by
  have idle : s.mergeReading g = false := by
    unfold Dev.mergeReading
    rw [Tab.get?_of_empty destages]
  have same : ({ s with learns := s.learns.del g } : Dev) = s := by rw [Tab.del_of_empty learns]
  unfold Dev.afterReadFailed
  simp only [idle, fills, same, Bool.false_eq_true, if_false]
  rw [s.retryLearns_of_none destages, settle_calm still]

theorem Dev.driveError_of_idle_read (s : Dev) {d g : Nat} (inside : inService (s.driveSt d) = true) (still : calm s) (learns : s.learns.list = [])
    (fills : s.fills.get? g = none) (destages : s.destages.list = []) (status lba : Nat) :
    s.driveError d 0 g false status lba = s.readFailed (s.portOfDrive d) (s.driveSt d) status lba g := by
  rw [s.driveError_of_read inside]
  have books := s.readFailed_books (s.portOfDrive d) (s.driveSt d) status lba g
  generalize s.readFailed (s.portOfDrive d) (s.driveSt d) status lba g = t at books
  have calmed := calm_books still books
  obtain ⟨regs, row, fco, psq, rfl⟩ := books
  exact Dev.afterReadFailed_of_idle _ calmed learns fills destages

theorem Dev.flushFinish_of_flushed (s : Dev) (hold : s.get Reg.HLD.STATUS.STATE = 4) (image : s.get Reg.NVH.IMG_STS.STATE = 6)
    (some : (List.range s.imageN).filter s.driveOk ≠ []) (all : ∀ x ∈ (List.range s.imageN).filter s.driveOk, (s.drive x).flushed = true) :
    s.flushFinish = s.flushHeaders.set Reg.NVH.IMG_STS.STATE 7 :=
  if_pos ⟨hold, image, by simpa using some, List.all_eq_true.mpr all⟩

theorem Dev.flushFinish_of_waiting (s : Dev) (h : (∃ x ∈ (List.range s.imageN).filter s.driveOk, (s.drive x).flushed = false) ∨
    s.get Reg.HLD.STATUS.STATE ≠ 4 ∨ s.get Reg.NVH.IMG_STS.STATE ≠ 6) : s.flushFinish = s := by
  refine if_neg fun ⟨hold, image, _, all⟩ => ?_
  rcases h with ⟨x, hx, open_⟩ | h | h
  · exact Bool.false_ne_true (open_.symm.trans (List.all_eq_true.mp all x hx))
  · exact h hold
  · exact h image

end Sys2Proof.Machine

namespace Sys2Proof
open Machine

/-- Settles O48: each branch of a port's, a link's and a command's outcome, and what a change of a drive's state writes. -/
theorem drivesTakeEffect : Obligations.DrivesTakeEffect := by
  unfold Obligations.DrivesTakeEffect
  intro s p hq hp
  have port : ¬ 8 ≤ p := by omega
  refine ⟨?locked, ?again, ?enable, ?up, ?noUp, ?noInit, ?badInit, ?init, ?down, ?noDown, ?state, ?commands, ?outside, ?noFlush, ?flush⟩
  case locked => exact fun link locked => s.next_kept hq ((if_neg port).trans (if_pos locked)) (s.dev.discard_books _ _).keeps.1
  case again =>
    exact fun link free on => s.next_same hq ((if_neg port).trans ((if_neg (fun h => Bool.false_ne_true (free.symm.trans h))).trans (if_pos on)))
  case enable =>
    intro link free off u
    refine ⟨s.next_did_congr ((if_neg port).trans ((if_neg (fun h => Bool.false_ne_true (free.symm.trans h))).trans
      (if_neg fun h => Bool.false_ne_true (off.symm.trans h)))), ?_⟩
    have shown : u.get Reg.NVH.CFG.PORT_EN = withBit (s.dev.get Reg.NVH.CFG.PORT_EN) p % 2 ^ 8 := Dev.get_set_same _ _ _
    rw [shown, testBit_mod_of_lt _ hp, testBit_withBit]
  case up => exact fun wide on out => s.next_did_congr ((if_pos ⟨hp, on⟩).trans (if_neg fun h => Bool.false_ne_true (out.symm.trans h)))
  case noUp =>
    intro wide h
    refine s.next_same hq ?_
    by_cases on : (s.dev.get Reg.NVH.CFG.PORT_EN).testBit p = true
    · exact (if_pos ⟨hp, on⟩).trans (if_pos (h.resolve_left fun off => Bool.false_ne_true (off.symm.trans on)))
    · exact if_neg fun k => on k.2
  case noInit => exact fun ok q c1 c2 other => s.next_same hq (if_pos (.inr other))
  case badInit =>
    intro ok q c1 c2 one bad
    refine s.next_did_congr ((if_neg (not_or_intro port (not_not_intro one))).trans (if_pos ?_))
    rcases bad with rfl | few
    · rfl
    · rw [decide_eq_true few, Bool.or_true]
  case init =>
    intro q c1 c2 one enough u
    exact s.next_did_congr ((if_neg (not_or_intro port (not_not_intro one))).trans (if_neg (by
      rw [decide_eq_false (Nat.not_lt.mpr enough)]
      decide)))
  case down => exact fun low high => s.next_did_congr ((if_neg port).trans (if_pos ⟨low, high⟩))
  case noDown =>
    refine fun h => s.next_same hq ((if_neg port).trans (if_neg ?_))
    omega
  case state =>
    intro st reason id status lba gran hs hr same u
    obtain ⟨state, why, pairs, books⟩ := s.dev.setDrv_shows hp hs hr same id status lba gran
    have out (h : s.dev.slotOfPort p = 255) : s.dev.driveOut p st reason id status lba gran = u := if_pos h
    change Dev.Books s.dev u at books
    obtain ⟨regs, row, fco, psq, form⟩ := books
    exact ⟨state, why, pairs, by rw [form], by rw [form], by rw [form], by rw [form], out⟩
  case commands =>
    intro d hd
    refine ⟨fun here => ?_, fun out other => ⟨?_, fun op g ok status lba => ?_⟩, fun inside g status lba => ?_⟩
    · exact s.next_did_congr (if_pos ⟨hd, here⟩)
    · exact s.next_same hq (if_neg fun h => h.2.elim (fun k => Bool.false_ne_true (out.symm.trans k)) other)
    · exact s.next_same hq ((if_pos hd).trans (s.dev.driveError_of_out out other op g ok status lba))
    · have goes (op : Nat) := s.dev.driveError_of_in inside op
      refine ⟨?_, ?_, ?_, ?_, ?_, fun ok => ?_, fun still learns fills destages => ?_⟩
      · exact s.next_kept hq ((if_pos hd).trans ((if_neg (goes 0)).trans ((if_pos rfl).trans (if_pos rfl))))
          ((s.dev.count_books _ _ _ _).trans (Dev.raise_books _ _)).keeps.1
      · exact s.next_same hq ((if_pos hd).trans ((if_neg (goes 1)).trans ((if_neg (by decide)).trans ((if_pos rfl).trans (if_pos rfl)))))
      · exact s.next_same hq ((if_pos hd).trans ((if_neg (goes 2)).trans ((if_neg (by decide)).trans ((if_neg (by decide)).trans
          ((if_pos rfl).trans (if_pos rfl))))))
      · exact s.next_did_congr ((if_pos hd).trans ((if_neg (goes 1)).trans ((if_neg (by decide)).trans ((if_pos rfl).trans (if_neg Bool.false_ne_true)))))
      · exact s.next_did_congr ((if_pos hd).trans ((if_neg (goes 2)).trans ((if_neg (by decide)).trans ((if_neg (by decide)).trans
          ((if_pos rfl).trans (if_neg Bool.false_ne_true))))))
      · exact s.next_did_congr ((if_pos hd).trans ((if_neg (goes 3)).trans ((if_neg (by decide)).trans ((if_neg (by decide)).trans
          (if_neg (by decide))))))
      · exact s.next_did_congr ((if_pos hd).trans (s.dev.driveError_of_idle_read inside still learns fills destages status lba))
  case outside =>
    exact fun d op g ok status lba far => ⟨s.next_same hq (if_neg (Nat.not_lt.mpr far)), s.next_same hq (if_neg fun h => Nat.not_lt.mpr far h.1)⟩
  case noFlush => exact fun d idle => s.next_same hq (if_pos (by rw [idle]; rfl))
  case flush =>
    intro d flushing u l
    have ended : exec (.driveFlushComplete d) s = .next (s.did u.flushFinish) := s.next_did_congr (if_neg (by rw [flushing]; decide))
    refine ⟨fun some all hold image => ?_, fun waits => ?_⟩
    · refine ⟨_, ended.trans (s.next_did_congr (u.flushFinish_of_flushed hold image some all)), rfl, ?_⟩
      exact (s.did_get _ _).trans (Dev.get_set_same _ _ _)
    · exact ended.trans (s.next_kept hq (u.flushFinish_of_waiting waits) rfl)

end Sys2Proof
end

section
/-! SUPPORT. The image and the churn engine (R194–R199, R205–R207, R218): what creating an image writes, the outcome of the system-area
check, and the steps of a destage and of a rebuild. -/

namespace Sys2Proof.Machine

/-! ## Creating an image (R195) -/

/-- `t` is `s` with other media and other commands sent at most. -/
def Dev.OnMedia (s t : Dev) : Prop := ∃ media out, t = { s with media, out }

theorem Dev.OnMedia.refl (s : Dev) : Dev.OnMedia s s := ⟨s.media, s.out, rfl⟩

theorem Dev.OnMedia.trans {s t u : Dev} (h : Dev.OnMedia s t) (k : Dev.OnMedia t u) : Dev.OnMedia s u := by
  obtain ⟨_, _, rfl⟩ := h
  obtain ⟨media, out, rfl⟩ := k
  exact ⟨media, out, rfl⟩

theorem Dev.setMedium_onMedia (s : Dev) (d : Nat) (m : Medium) : Dev.OnMedia s (s.setMedium d m) := by
  unfold Dev.setMedium
  split
  · exact ⟨_, s.out, rfl⟩
  · exact .refl s

theorem Dev.nvme_onMedia (s : Dev) (d : Nat) (op : NvmeOp) (nsid lba blocks : Nat) : Dev.OnMedia s (s.nvme d op nsid lba blocks) :=
  ⟨s.media, _, rfl⟩

theorem Dev.foldl_onMedia {α : Type} (f : Dev → α → Dev) (h : ∀ s x, Dev.OnMedia s (f s x)) (l : List α) (s : Dev) : Dev.OnMedia s (l.foldl f s) := by
  induction l generalizing s with
  | nil => exact .refl s
  | cons x l ih => exact (h s x).trans (ih _)

theorem Dev.OnMedia.keeps {s t : Dev} (h : Dev.OnMedia s t) : t.image = s.image ∧ t.imageMask = s.imageMask ∧ t.frames = s.frames ∧
    ∀ f, t.get f = s.get f := by
  obtain ⟨_, _, rfl⟩ := h
  exact ⟨rfl, rfl, rfl, fun _ => rfl⟩

/-- The device as an image's creation begins, before its header is drawn up. -/
def Dev.creating (s : Dev) : Dev := (s.random.2.setBit Reg.NVH.IMG_CTL.CREATE true).set Reg.NVH.IMG_STS.STATE 1

theorem Dev.get_creating (s : Dev) {f : Field} (h : f.addr ≠ 0x680008) (h' : f.addr ≠ 0x680014) (lo : f.lo < 32) : s.creating.get f = s.get f :=
  (Dev.get_set_of_addr _ (f := Reg.NVH.IMG_STS.STATE) h' lo (by decide) _).trans
    (Dev.get_set_of_addr s.random.2 (f := Reg.NVH.IMG_CTL.CREATE) h lo (by decide) _)

theorem Dev.state_creating (s : Dev) : s.creating.get Reg.NVH.IMG_STS.STATE = 1 := Dev.get_set_same _ _ _

theorem Dev.imageN_creating (s : Dev) : s.creating.imageN = s.imageN :=
  congrArg (fun mask => (setBits 8 (if s.imageMask = 0 then mask else s.imageMask)).length)
    (s.get_creating (f := Reg.NVH.IMG_CFG.DRIVE_MASK) (by decide) (by decide) (by decide))

/-- The header of the image being created. -/
def Dev.firstHeader (s : Dev) (id : Nat) : ImgHeader :=
  { imageId := id, devHash := s.island.deviceHash, seq := 1, n := s.imageN, g := s.newG, r := s.newR, clean := true
    inService := 2 ^ s.imageN - 1, dsc := s.get Reg.HLD.DSC.COUNT, time := s.calNow, cfgDigest := s.round.digest }

/-- Creation on healthy drives that hold no image: its header is drawn up, and only the media differ beside. -/
theorem Dev.imageCreate_of_good (s : Dev) (none : s.get Reg.NVH.IMG_STS.STATE = 0) (drives : s.imageDrives ≠ [])
    (healthy : (s.imageDrives.any fun p => s.get (Reg.NVH.DRV.STATE p) != 2) = false) (free : ∀ p ∈ s.imageDrives, s.createRefusal p = 0) :
    Dev.OnMedia { s.creating with image := s.creating.firstHeader (s.random.1 % 2 ^ 128), imageMask := s.creating.get Reg.NVH.IMG_CFG.DRIVE_MASK }
      s.imageCreate := by
  have fit : (s.imageDrives.filter fun p => s.get (Reg.NVH.DRV.STATE p) == 2 && s.createRefusal p != 0) = [] :=
    List.filter_eq_nil_iff.mpr fun p hp => by simp [free p hp]
  unfold Dev.imageCreate
  rw [if_neg (not_not_intro none)]
  dsimp only
  rw [fit, healthy, if_neg (by simpa using drives)]
  refine Dev.foldl_onMedia _ (fun t d => ?_) _ _
  exact (((t.setMedium_onMedia d _).trans (Dev.nvme_onMedia _ d _ _ _ _)).trans (Dev.nvme_onMedia _ d _ _ _ _)).trans (Dev.nvme_onMedia _ d _ _ _ _)

/-! ## The system area (R217, R218) -/

/-- The system area is shown as too short. -/
def Dev.saShort (s : Dev) : Dev := (s.setBit Reg.TMG.STS.SA_SHORT true).raise (tmgPlain 0x17B)

/-- The need and the room of the system area are shown. -/
def Dev.saShown (s : Dev) (need avail : Nat) : Dev := (s.set Reg.TMG.SA_NEED.MIB need).set Reg.TMG.SA_AVAIL.MIB avail

theorem Dev.saCheck_cases (s : Dev) : s.saCheck = (s.saShort, true) ∨
    ∃ a b, s.saCheck = ((s.saShown a b).saShort, true) ∨ s.saCheck = (s.saShown a b, false) := by
  unfold Dev.saCheck
  cases s.populated with
  | nil => exact .inl rfl
  | cons n l =>
    refine .inr ⟨ceilDiv (saNeed s.imageG s.chanCount (s.get (Reg.DC.MAP_FA.FA_TOP n))) (2 ^ 20), s.saAvail n / 2 ^ 20, ?_⟩
    by_cases h : s.saAvail n < saNeed s.imageG s.chanCount (s.get (Reg.DC.MAP_FA.FA_TOP n))
    · exact .inl (if_pos h)
    · exact .inr (if_neg h)

theorem Dev.saShort_books (s : Dev) : Dev.Books s s.saShort := (s.setBit_books _ _).trans (Dev.raise_books _ _)

theorem Dev.saShown_books (s : Dev) (a b : Nat) : Dev.Books s (s.saShown a b) := (s.set_books _ _).trans (Dev.set_books _ _ _)

theorem Dev.bit_saShort (s : Dev) : s.saShort.bit Reg.TMG.STS.SA_SHORT = true :=
  (congrArg (· != 0) (Dev.get_raise_of_addr _ (by decide) (by decide) _)).trans (Dev.bit_setBit_same s rfl true)

theorem Dev.get_saShort (s : Dev) {f : Field} (sts : f.addr ≠ 0x5c000c) (row : f.addr ≠ 0x8c0024) (lo : f.lo < 32) : s.saShort.get f = s.get f :=
  (Dev.get_raise_of_addr _ row lo _).trans (s.get_set_of_addr (f := Reg.TMG.STS.SA_SHORT) sts lo (by decide) _)

theorem Dev.get_saShown (s : Dev) (a b : Nat) {f : Field} (need : f.addr ≠ 0x5c0028) (avail : f.addr ≠ 0x5c002c) (lo : f.lo < 32) :
    (s.saShown a b).get f = s.get f :=
  (Dev.get_set_of_addr _ (f := Reg.TMG.SA_AVAIL.MIB) avail lo (by decide) _).trans
    (s.get_set_of_addr (f := Reg.TMG.SA_NEED.MIB) need lo (by decide) _)

theorem Dev.saCheck_books (s : Dev) : Dev.Books s s.saCheck.1 := by
  rcases s.saCheck_cases with e | ⟨a, b, e | e⟩
  · exact e ▸ s.saShort_books
  · exact e ▸ (s.saShown_books a b).trans (Dev.saShort_books _)
  · exact e ▸ s.saShown_books a b

/-- A system area that is too short shows. -/
theorem Dev.saCheck_short (s : Dev) (h : s.saCheck.2 = true) : s.saCheck.1.bit Reg.TMG.STS.SA_SHORT = true := by
  rcases s.saCheck_cases with e | ⟨a, b, e | e⟩
  · exact e ▸ s.bit_saShort
  · exact e ▸ Dev.bit_saShort _
  · exact absurd ((congrArg Prod.snd e).symm.trans h) Bool.false_ne_true

theorem Dev.get_saCheck (s : Dev) {f : Field} (sts : f.addr ≠ 0x5c000c) (need : f.addr ≠ 0x5c0028) (avail : f.addr ≠ 0x5c002c)
    (row : f.addr ≠ 0x8c0024) (lo : f.lo < 32) : s.saCheck.1.get f = s.get f := by
  rcases s.saCheck_cases with e | ⟨a, b, e | e⟩
  · exact e ▸ s.get_saShort sts row lo
  · exact e ▸ (Dev.get_saShort _ sts row lo).trans (s.get_saShown a b need avail lo)
  · exact e ▸ s.get_saShown a b need avail lo

/-- The device when the image just created does not fit: none again. -/
def Dev.creationDropped (s : Dev) : Dev :=
  ({ s.saCheck.1.setBit Reg.NVH.IMG_CTL.CREATE false with imageMask := 0, image := {} } : Dev).set Reg.NVH.IMG_STS.STATE 0

theorem Dev.creationDropped_shows (s : Dev) (h : s.saCheck.2 = true) : s.creationDropped.get Reg.NVH.IMG_STS.STATE = 0 ∧
    s.creationDropped.bit Reg.NVH.IMG_CTL.CREATE = false ∧ s.creationDropped.image = {} ∧ s.creationDropped.imageMask = 0 ∧
    s.creationDropped.bit Reg.TMG.STS.SA_SHORT = true ∧ s.creationDropped.frames = s.frames ∧ s.creationDropped.out = s.out := by
  have short := s.saCheck_short h
  have books := s.saCheck_books
  unfold Dev.creationDropped
  generalize s.saCheck.1 = t at short books
  have bit {f : Field} (a : f.addr ≠ 0x680014) (lo : f.lo < 32) :
      (({ t.setBit Reg.NVH.IMG_CTL.CREATE false with imageMask := 0, image := {} } : Dev).set Reg.NVH.IMG_STS.STATE 0).bit f =
        (t.setBit Reg.NVH.IMG_CTL.CREATE false).bit f :=
    congrArg (· != 0) (Dev.get_set_of_addr _ (f := Reg.NVH.IMG_STS.STATE) a lo (by decide) _)
  refine ⟨Dev.get_set_same _ _ _, (bit (by decide) (by decide)).trans (Dev.bit_setBit_same t rfl false), rfl, rfl, ?_, books.onChannels.frames_out.1,
    books.onChannels.frames_out.2⟩
  refine (bit (by decide) (by decide)).trans (Eq.trans ?_ short)
  exact congrArg (· != 0) (t.get_set_of_addr (f := Reg.NVH.IMG_CTL.CREATE) (by decide) (by decide) (by decide) _)

/-! ## A learning read's end (R199) -/

/-- A destage that stands at its learning read goes on with what the read has told. -/
def Dev.learnedGo (s : Dev) (g : Nat) : Dev :=
  match s.destages.get? g with
  | some x => if x.step = DestageStep.learn then s.destageGo g else s
  | none => s

theorem Dev.learnedGo_of_learn (s : Dev) {g : Nat} {x : Destage} (h : s.destages.get? g = some x) (learn : x.step = .learn) :
    s.learnedGo g = s.destageGo g := by
  unfold Dev.learnedGo
  rw [h]
  exact if_pos learn

theorem Dev.learnedGo_of_other (s : Dev) {g : Nat} (h : ∀ x, s.destages.get? g = some x → x.step ≠ .learn) : s.learnedGo g = s := by
  unfold Dev.learnedGo
  cases some : s.destages.get? g with
  | none => rfl
  | some x => exact if_neg (h x some)

/-! ## A rebuild's step (R205, R207) -/

/-- The rebuild of a drive slot goes past an index. -/
def Dev.rebuildPast (s : Dev) (d i total : Nat) (at_ : Nat × Nat) : Dev :=
  let u := [at_.1, at_.2].foldl Dev.freeRescue s
  let v := ({ u with rebuild := u.rebuild.upd d fun x => { x with cursor := i + 1 } } : Dev).set (Reg.NVH.DRV.REBUILD_PCT (u.portOfDrive d))
    (100 * (i + 1) / total)
  (if total ≤ i + 1 then v.rebuildDone d else v).settle

/-- An index that the rebuild finds nothing to fill at is passed. -/
theorem Dev.rebuildStep_of_idle (s : Dev) {d : Nat} {b : Rebuild} (h : s.rebuild.get? d = some b) (rate : s.get Reg.NVH.REBUILD.RATE ≠ 0)
    (more : b.cursor < imageD s.imageN s.imageG) (fresh : b.resumed = false)
    (none : ((s.rebuildWants d b.cursor).filter fun g => decide (g < s.imageG)) = []) :
    s.rebuildStep d = s.rebuildPast d b.cursor (imageD s.imageN s.imageG) (s.atIndex d b.cursor) := by
  unfold Dev.rebuildStep
  simp only [h]
  refine (if_neg rate).trans ((if_neg (Nat.not_le.mpr more)).trans ?_)
  simp only [fresh, Bool.false_eq_true, if_false, none, List.foldl_nil, List.isEmpty_nil, Bool.not_true]
  rfl

end Sys2Proof.Machine

namespace Sys2Proof
open Machine

/-- Settles O49: creation and restore by their checks, a destage and a rebuild by the step they stand at. -/
theorem theImageIsKept : Obligations.TheImageIsKept := by
  unfold Obligations.TheImageIsKept
  intro s hq
  refine ⟨?there, ?create, ?refuse, ?created, ?dropped, ?notCreating, ?noRestore, ?restore, ?restored, ?tooShort, ?notRestoring, ?noDestage, ?destage,
    ?steps, ?noTags, ?noData, ?learn, ?noLearn, ?tokens, ?noTokens, ?noRebuild, ?rebuilt, ?index⟩
  case there => exact fun h => s.next_same hq (if_pos h)
  case create =>
    intro none drives healthy free
    have made : exec .imageCreate s = .next (s.did s.dev.imageCreate) := rfl
    obtain ⟨image, mask, frames, kept⟩ := (s.dev.imageCreate_of_good none drives healthy free).keeps
    generalize s.dev.imageCreate = d at made image mask frames kept
    refine ⟨_, made, ?_, ?_, ?_, ?_, ?_, ?_, ?_, ?_⟩
    · exact (s.did_get _ _).trans ((kept _).trans s.dev.state_creating)
    · exact (congrArg ImgHeader.n image).trans s.dev.imageN_creating
    · exact (congrArg ImgHeader.g image).trans (congrArg (· * 512)
        (s.dev.get_creating (f := Reg.NVH.IMG_SIZE.EXTENTS) (by decide) (by decide) (by decide)))
    · exact (congrArg ImgHeader.r image).trans (congrArg (· * 65536)
        (s.dev.get_creating (f := Reg.NVH.IMG_CFG.RESCUE_64K) (by decide) (by decide) (by decide)))
    · exact congrArg ImgHeader.seq image
    · exact congrArg ImgHeader.clean image
    · exact mask.trans (s.dev.get_creating (f := Reg.NVH.IMG_CFG.DRIVE_MASK) (by decide) (by decide) (by decide))
    · exact frames
  case refuse =>
    intro none bad h
    refine s.next_did_congr ((if_neg (not_not_intro none)).trans (if_pos ?_))
    rcases h with h | h | h
    · simp [bad, h]
    · simp [h]
    · simp [h]
  case created =>
    intro one fits
    exact s.next_did_congr ((if_pos one).trans (if_neg (by rw [fits]; exact Bool.false_ne_true)))
  case dropped =>
    intro one short
    have dropped : exec .imageCreateComplete s = .next (s.did s.dev.creationDropped) := s.next_did_congr ((if_pos one).trans (if_pos short))
    obtain ⟨state, create, image, mask, shown, frames, out⟩ := s.dev.creationDropped_shows short
    generalize s.dev.creationDropped = d at dropped state create image mask shown frames out
    exact ⟨_, dropped, state, create, image, mask, shown, frames, congrArg (· ++ s.sent) (out.trans hq)⟩
  case notCreating => exact fun h => s.next_same hq (if_neg h)
  case noRestore => exact fun h => s.next_same hq (if_pos (h.imp_right fun k => by rw [k]; rfl))
  case restore =>
    intro none filled u
    have goes : ¬ (s.dev.get Reg.NVH.IMG_STS.STATE ≠ 0 ∨ (!s.dev.bit Reg.ECS.FILL_STS.ALL_DONE) = true) := by
      rw [filled]
      exact not_or_intro (not_not_intro none) (by decide)
    refine ⟨fun h some => ?_, fun no => ?_⟩
    · refine s.next_did_congr ((if_neg goes).trans ?_)
      dsimp only
      rw [some]
    · refine s.next_did_congr ((if_neg goes).trans ?_)
      dsimp only
      rw [no]
  case restored =>
    intro two fits
    exact s.next_did_congr ((if_neg (not_not_intro two)).trans (if_neg (by rw [fits]; exact Bool.false_ne_true)))
  case tooShort =>
    intro two short
    refine ⟨s.next_kept hq ((if_neg (not_not_intro two)).trans (if_pos short)) s.dev.saCheck_books.keeps.1, s.dev.saCheck_short short, ?_⟩
    exact (s.dev.get_saCheck (by decide) (by decide) (by decide) (by decide) (by decide)).trans two
  case notRestoring => exact fun h => s.next_same hq (if_pos h)
  case noDestage =>
    refine fun none => s.next_same hq ?_
    simp only [none]
  case destage =>
    refine fun g some => s.next_did_congr ?_
    simp only [some]
  case steps =>
    intro g x some free
    refine ⟨fun tags => s.next_did_congr ?_, fun data => s.next_did_congr ?_⟩
    · simp only [some]
      exact if_pos ⟨tags, by rw [free]; rfl⟩
    · simp only [some]
      exact if_pos ⟨data, by rw [free]; rfl⟩
  case noTags =>
    intro g h
    refine s.next_same hq ?_
    dsimp only
    cases some : s.dev.destages.get? g with
    | none => rfl
    | some x => exact if_neg fun k => (h x some).elim (fun no => no k.1) fun no => no (Option.isNone_iff_eq_none.mp k.2)
  case noData =>
    intro g h
    refine s.next_same hq ?_
    dsimp only
    cases some : s.dev.destages.get? g with
    | none => rfl
    | some x => exact if_neg fun k => (h x some).elim (fun no => no k.1) fun no => no (Option.isNone_iff_eq_none.mp k.2)
  case learn =>
    intro g waits slot u
    have told : u.fme g = { s.dev.fme g with tslot := slot, tslotKnown := true } := (Dev.setFme_fme _ g _ g).trans (if_pos rfl)
    have learned : exec (.learningReadComplete g) s = .next (s.did (u.learnedGo g).retryLearns.settle) := s.next_did_congr (if_pos waits)
    refine ⟨congrArg FmEntry.tslot told, congrArg FmEntry.tslotKnown told, fun x some learn => ?_, fun other => ?_⟩
    · rw [learned, u.learnedGo_of_learn some learn]
    · rw [learned, u.learnedGo_of_other other]
  case noLearn => exact fun g h => s.next_same hq (if_neg fun k => Bool.false_ne_true (h.symm.trans k))
  case tokens => exact fun d h => s.next_did_congr (if_pos h)
  case noTokens => exact fun d h => s.next_same hq (if_neg (Nat.not_lt.mpr h))
  case noRebuild =>
    intro d h
    refine s.next_same hq ?_
    dsimp only
    unfold Dev.rebuildStep
    cases some : s.dev.rebuild.get? d with
    | none => rfl
    | some b => exact if_pos (h.resolve_left (by simp [some]))
  case rebuilt =>
    intro d b some rate last
    refine s.next_did_congr ?_
    unfold Dev.rebuildStep
    simp only [some]
    exact (if_neg rate).trans (if_pos last)
  case index =>
    intro d b some rate more fresh none at_ u v
    exact s.next_did_congr (s.dev.rebuildStep_of_idle some rate more fresh none)

end Sys2Proof
end

section
/-! SUPPORT. Heads and their links (R65–R73, R81–R86): a link that goes down, a reset, and what they leave alone. -/

namespace Sys2Proof.Machine

/-! ## Where no fence and no flush waits -/

theorem gpfCheck_of_unfenced {s : Dev} (h : unfenced s) : s.gpfCheck = s := by
  obtain ⟨persist, gpf⟩ := h
  have checked : s.persistCheck = s := by
    unfold Dev.persistCheck
    dsimp only
    rw [persist]
    dsimp only [List.filter, List.foldl]
    rw [← persist]
  unfold Dev.gpfCheck
  dsimp only
  rw [checked, gpf]
  dsimp only [List.filter, List.foldl]
  rw [← gpf]

/-! ## What the events of a port change -/

/-- `t` is `s` with other heads, registers, requests on links, keys and sessions, rings and LD state at most. -/
def Dev.OnPorts (s t : Dev) : Prop := ∃ heads regs row fco psq held linkWait rteWait island rings does lds cal mgmt,
  t = { s with heads, regs, row, fco, psq, held, linkWait, rteWait, island, rings, does, lds, cal, mgmt }

theorem Dev.OnPorts.refl (s : Dev) : Dev.OnPorts s s :=
  ⟨s.heads, s.regs, s.row, s.fco, s.psq, s.held, s.linkWait, s.rteWait, s.island, s.rings, s.does, s.lds, s.cal, s.mgmt, rfl⟩

theorem Dev.OnPorts.trans {s t u : Dev} (h : Dev.OnPorts s t) (k : Dev.OnPorts t u) : Dev.OnPorts s u := by
  obtain ⟨_, _, _, _, _, _, _, _, _, _, _, _, _, _, rfl⟩ := h
  obtain ⟨a1, a2, a3, a4, a5, a6, a7, a8, a9, a10, a11, a12, a13, a14, rfl⟩ := k
  exact ⟨a1, a2, a3, a4, a5, a6, a7, a8, a9, a10, a11, a12, a13, a14, rfl⟩

theorem Dev.OnPorts.foldl {α : Type} {f : Dev → α → Dev} (h : ∀ s x, Dev.OnPorts s (f s x)) (l : List α) (s : Dev) : Dev.OnPorts s (l.foldl f s) := by
  induction l generalizing s with
  | nil => exact .refl s
  | cons x l ih => exact (h s x).trans (ih _)

theorem Dev.Books.onPorts {s t : Dev} (h : Dev.Books s t) : Dev.OnPorts s t := by
  obtain ⟨regs, row, fco, psq, rfl⟩ := h
  exact ⟨s.heads, regs, row, fco, psq, s.held, s.linkWait, s.rteWait, s.island, s.rings, s.does, s.lds, s.cal, s.mgmt, rfl⟩

theorem Dev.setHead_onPorts (s : Dev) (H : Nat) (x : Head) : Dev.OnPorts s (s.setHead H x) :=
  ⟨_, s.regs, s.row, s.fco, s.psq, s.held, s.linkWait, s.rteWait, s.island, s.rings, s.does, s.lds, s.cal, s.mgmt, rfl⟩

/-- What the events of a port leave as it was. -/
theorem Dev.OnPorts.keeps {s t : Dev} (h : Dev.OnPorts s t) : t.out = s.out ∧ t.mirror = s.mirror ∧ t.frames = s.frames ∧ t.fm = s.fm ∧
    t.rm = s.rm ∧ t.media = s.media ∧ t.regions = s.regions := by
  obtain ⟨_, _, _, _, _, _, _, _, _, _, _, _, _, _, rfl⟩ := h
  exact ⟨rfl, rfl, rfl, rfl, rfl, rfl, rfl⟩

theorem Dev.OnPorts.stays_unfenced {s t : Dev} (h : Dev.OnPorts s t) (u : unfenced s) : unfenced t := by
  unfold unfenced at u ⊢
  rw [h.keeps.2.1]
  exact u

theorem Dev.OnPorts.keptMemory {s : State} {d : Dev} (h : Dev.OnPorts s.dev d) : keptMemory s (s.did d) := by
  obtain ⟨_, _, frames, fm, rm, media, regions⟩ := h.keeps
  exact ⟨frames, fm, rm, media, regions⟩

/-! ## A link that goes down (R71, R89) -/

theorem Dev.head_setHead_same (s : Dev) (H : Nat) (x : Head) : (s.setHead H x).head H = x := Tab.getD_putD_same _ _ _ _

theorem Dev.head_setHead_ne (s : Dev) {H K : Nat} (h : K ≠ H) (x : Head) : (s.setHead H x).head K = s.head K := Tab.getD_putD_ne _ h _ _ _

theorem Dev.Books.head {s t : Dev} (h : Dev.Books s t) (H : Nat) : t.head H = s.head H := by
  obtain ⟨regs, row, fco, psq, rfl⟩ := h
  rfl

/-- The lanes' writes of a link that is cleared. -/
def Dev.lanesOff (s : Dev) (H : Nat) : Dev :=
  (List.range 16).foldl (fun s l => if l / (16 / s.headCount (H / 4)) = H % 4 then s.set (Reg.HP.LANE.ACTIVE (H / 4) l) 0 else s) s

theorem Dev.lanesOff_books (s : Dev) (H : Nat) : Dev.Books s (s.lanesOff H) := by
  unfold Dev.lanesOff
  generalize List.range 16 = l
  induction l generalizing s with
  | nil => exact .refl s
  | cons x l ih => exact Dev.Books.trans (.ite (s.set_books _ _) (.refl s)) (ih _)

theorem Dev.get_lanesOff (s : Dev) (H : Nat) {f : Field} (h : ∀ l, l < 16 → f.addr ≠ 0x40400 + 0x40000 * (H / 4) + 0x4 * l) (lo : f.lo < 32) :
    (s.lanesOff H).get f = s.get f := by
  unfold Dev.lanesOff
  have all : ∀ l ∈ List.range 16, f.addr ≠ 0x40400 + 0x40000 * (H / 4) + 0x4 * l := fun l hl => h l (List.mem_range.mp hl)
  generalize List.range 16 = l at all
  induction l generalizing s with
  | nil => rfl
  | cons x l ih =>
    obtain ⟨hx, hl⟩ := List.forall_mem_cons.mp all
    exact (ih _ hl).trans (Dev.get_ite (s.get_set_of_addr (f := Reg.HP.LANE.ACTIVE (H / 4) x) hx lo (of_decide_eq_true rfl) _) rfl)

/-- LINK_STS of a head that is cleared. -/
def Dev.linkZero (s : Dev) (H ide : Nat) : Dev :=
  let n := H / 4
  let h := H % 4
  ((((((s.set (Reg.HP.LINK_STS.RATE n h) 0).set (Reg.HP.LINK_STS.WIDTH n h) 0).set (Reg.HP.LINK_STS.FLIT n h) 0).set
    (Reg.HP.LINK_STS.MEM_EN n h) 0).set (Reg.HP.LINK_STS.MEM_ACTIVE n h) 0).set (Reg.HP.LINK_STS.IDE n h) ide).set (Reg.HP.LINK_STS.IDE_CONT n h) 0

theorem Dev.linkClear_eq (s : Dev) (H ide : Nat) : s.linkClear H ide = (s.linkZero H ide).lanesOff H := rfl

theorem Dev.linkZero_books (s : Dev) (H ide : Nat) : Dev.Books s (s.linkZero H ide) :=
  ((((((s.set_books _ _).trans (Dev.set_books _ _ _)).trans (Dev.set_books _ _ _)).trans (Dev.set_books _ _ _)).trans
    (Dev.set_books _ _ _)).trans (Dev.set_books _ _ _)).trans (Dev.set_books _ _ _)

theorem Dev.linkClear_books (s : Dev) (H ide : Nat) : Dev.Books s (s.linkClear H ide) := (s.linkZero_books H ide).trans (Dev.lanesOff_books _ H)

/-- A cleared link shows no rate, no width, no CXL.mem, and its IDE state. -/
theorem Dev.linkZero_shows (s : Dev) (H ide : Nat) : (s.linkZero H ide).get (Reg.HP.LINK_STS.RATE (H / 4) (H % 4)) = 0 ∧
    (s.linkZero H ide).get (Reg.HP.LINK_STS.WIDTH (H / 4) (H % 4)) = 0 ∧ (s.linkZero H ide).get (Reg.HP.LINK_STS.MEM_EN (H / 4) (H % 4)) = 0 ∧
    (s.linkZero H ide).get (Reg.HP.LINK_STS.IDE (H / 4) (H % 4)) = ide % 2 ^ 2 := by
  have past (s : Dev) {f g : Field} (h : g.lo ≠ f.lo) (hg : g.lo < 32) (hf : f.lo < 32) {v x : Nat} (k : s.get g = x) : (s.set f v).get g = x :=
    (s.get_set_of_lo h hg hf v).trans k
  have d {p : Prop} [Decidable p] (h : decide p = true) : p := of_decide_eq_true h
  refine ⟨past _ (d rfl) (d rfl) (d rfl) (past _ (d rfl) (d rfl) (d rfl) (past _ (d rfl) (d rfl) (d rfl) (past _ (d rfl) (d rfl) (d rfl)
    (past _ (d rfl) (d rfl) (d rfl) (past _ (d rfl) (d rfl) (d rfl) (Dev.get_set_same _ _ _)))))), ?_, ?_, ?_⟩
  · exact past _ (d rfl) (d rfl) (d rfl) (past _ (d rfl) (d rfl) (d rfl) (past _ (d rfl) (d rfl) (d rfl) (past _ (d rfl) (d rfl) (d rfl)
      (past _ (d rfl) (d rfl) (d rfl) (Dev.get_set_same _ _ _)))))
  · exact past _ (d rfl) (d rfl) (d rfl) (past _ (d rfl) (d rfl) (d rfl) (past _ (d rfl) (d rfl) (d rfl) (Dev.get_set_same _ _ _)))
  · exact past _ (d rfl) (d rfl) (d rfl) (Dev.get_set_same _ _ _)

theorem Dev.get_linkZero (s : Dev) (H ide : Nat) {f : Field} (h : f.addr ≠ 0x40020 + 0x40000 * (H / 4) + 0x4 * (H % 4)) (lo : f.lo < 32) :
    (s.linkZero H ide).get f = s.get f := by
  have past (s : Dev) {g : Field} (hg : g.addr = 0x40020 + 0x40000 * (H / 4) + 0x4 * (H % 4)) (hl : g.lo < 32) (v : Nat) :
      (s.set g v).get f = s.get f := s.get_set_of_addr (hg ▸ h) lo hl v
  have d {p : Prop} [Decidable p] (h : decide p = true) : p := of_decide_eq_true h
  exact (past _ rfl (d rfl) _).trans ((past _ rfl (d rfl) _).trans ((past _ rfl (d rfl) _).trans ((past _ rfl (d rfl) _).trans
    ((past _ rfl (d rfl) _).trans ((past _ rfl (d rfl) _).trans (past _ rfl (d rfl) _))))))

/-- A field of LINK_STS of head `H` lies apart from the lanes of its port. -/
theorem linkSts_ne_lane (H l : Nat) : 0x40020 + 0x40000 * (H / 4) + 0x4 * (H % 4) ≠ 0x40400 + 0x40000 * (H / 4) + 0x4 * l := by omega

theorem Dev.linkClear_shows (s : Dev) (H ide : Nat) : (s.linkClear H ide).get (Reg.HP.LINK_STS.RATE (H / 4) (H % 4)) = 0 ∧
    (s.linkClear H ide).get (Reg.HP.LINK_STS.WIDTH (H / 4) (H % 4)) = 0 ∧ (s.linkClear H ide).get (Reg.HP.LINK_STS.MEM_EN (H / 4) (H % 4)) = 0 ∧
    (s.linkClear H ide).get (Reg.HP.LINK_STS.IDE (H / 4) (H % 4)) = ide % 2 ^ 2 := by
  obtain ⟨rate, width, mem, secured⟩ := s.linkZero_shows H ide
  have lanes {f : Field} (hf : f.addr = 0x40020 + 0x40000 * (H / 4) + 0x4 * (H % 4)) (lo : f.lo < 32) :
      (s.linkClear H ide).get f = (s.linkZero H ide).get f := Dev.get_lanesOff _ H (fun l _ => hf ▸ linkSts_ne_lane H l) lo
  exact ⟨(lanes rfl (of_decide_eq_true rfl)).trans rate, (lanes rfl (of_decide_eq_true rfl)).trans width,
    (lanes rfl (of_decide_eq_true rfl)).trans mem, (lanes rfl (of_decide_eq_true rfl)).trans secured⟩

theorem Dev.get_linkClear (s : Dev) (H ide : Nat) {f : Field} (h : f.addr ≠ 0x40020 + 0x40000 * (H / 4) + 0x4 * (H % 4))
    (lanes : ∀ l, l < 16 → f.addr ≠ 0x40400 + 0x40000 * (H / 4) + 0x4 * l) (lo : f.lo < 32) : (s.linkClear H ide).get f = s.get f :=
  (Dev.get_lanesOff _ H lanes lo).trans (s.get_linkZero H ide h lo)

/-- What of a head's requests waits nowhere once its link is lost, and how its registers and reset count show it. -/
def Dev.linkGone (resets : Nat) (t : Dev) (H : Nat) : Prop :=
  t.linkUp H = false ∧ t.get (Reg.HP.LINK_STS.WIDTH (H / 4) (H % 4)) = 0 ∧ t.bit (Reg.HP.LINK_STS.MEM_EN (H / 4) (H % 4)) = false ∧
    resets < (t.head H).resets ∧ (∀ x ∈ t.heldAt (H / 4), x.req.head ≠ H) ∧ (∀ x ∈ t.linkWait, x.head ≠ H) ∧
    ∀ x ∈ t.rteWait, x.via = .host → x.head = H → x.admitted = true

/-- `t` shows of a link and of what waits for it what `s` shows, the head's reset count included. -/
def Dev.SameLink (H : Nat) (s t : Dev) : Prop :=
  (∀ {f : Field}, f.addr = 0x40020 + 0x40000 * (H / 4) + 0x4 * (H % 4) → f.lo < 32 → t.get f = s.get f) ∧
    (t.head H).resets = (s.head H).resets ∧ t.held = s.held ∧ t.linkWait = s.linkWait ∧ t.rteWait = s.rteWait

theorem Dev.SameLink.trans {H : Nat} {s t u : Dev} (h : Dev.SameLink H s t) (k : Dev.SameLink H t u) : Dev.SameLink H s u := by
  obtain ⟨a1, a2, a3, a4, a5⟩ := h
  obtain ⟨b1, b2, b3, b4, b5⟩ := k
  exact ⟨fun hf lo => (b1 hf lo).trans (a1 hf lo), b2.trans a2, b3.trans a3, b4.trans a4, b5.trans a5⟩

theorem Dev.SameLink.refl (H : Nat) (s : Dev) : Dev.SameLink H s s := ⟨fun _ _ => rfl, rfl, rfl, rfl, rfl⟩

theorem Dev.linkGone_of_same {resets H : Nat} {s t : Dev} (h : Dev.SameLink H s t) (gone : s.linkGone resets H) : t.linkGone resets H := by
  obtain ⟨fields, count, held, waits, routed⟩ := h
  obtain ⟨up, width, mem, more, queue, link, route⟩ := gone
  have rate := fields (f := Reg.HP.LINK_STS.RATE (H / 4) (H % 4)) rfl (of_decide_eq_true rfl)
  have wide := fields (f := Reg.HP.LINK_STS.WIDTH (H / 4) (H % 4)) rfl (of_decide_eq_true rfl)
  have enabled := fields (f := Reg.HP.LINK_STS.MEM_EN (H / 4) (H % 4)) rfl (of_decide_eq_true rfl)
  refine ⟨(congrArg (· != 0) rate).trans up, wide.trans width, (congrArg (· != 0) enabled).trans mem, by rw [count]; exact more, ?_, ?_, ?_⟩
  · unfold Dev.heldAt
    rw [held]
    exact queue
  · rw [waits]
    exact link
  · rw [routed]
    exact route

theorem Dev.dropHead_onPorts (s : Dev) (H : Nat) : Dev.OnPorts s (s.dropHead H) :=
  ⟨_, s.regs, s.row, s.fco, s.psq, _, _, _, s.island, s.rings, s.does, s.lds, s.cal, s.mgmt, rfl⟩

/-- Nothing that a head has asked waits on its link any more. -/
theorem Dev.dropHead_drops (s : Dev) (H : Nat) : ((s.dropHead H).head H).resets = (s.head H).resets + 1 ∧
    (∀ x ∈ (s.dropHead H).heldAt (H / 4), x.req.head ≠ H) ∧ (∀ x ∈ (s.dropHead H).linkWait, x.head ≠ H) ∧
    ∀ x ∈ (s.dropHead H).rteWait, x.via = .host → x.head = H → x.admitted = true := by
  refine ⟨congrArg Head.resets (s.head_setHead_same H _), fun x hx => ?_, fun x hx => ?_, fun x hx via head => ?_⟩
  · have left : (s.dropHead H).heldAt (H / 4) = (s.heldAt (H / 4)).filter fun x => x.req.head != H := by
      show Tab.getD (if ((s.heldAt (H / 4)).filter fun x => x.req.head != H).isEmpty then s.held.del (H / 4)
        else s.held.put (H / 4) ((s.heldAt (H / 4)).filter fun x => x.req.head != H)) (H / 4) [] = _
      split
      · next empty =>
        rw [List.isEmpty_iff.mp empty]
        exact congrArg (Option.getD · []) (Tab.get?_del_same _ _)
      · exact Tab.getD_put_same _ _ _ _
    rw [left] at hx
    simpa using (List.mem_filter.mp hx).2
  · simpa using (List.mem_filter.mp hx).2
  · have kept := (List.mem_filter.mp hx).2
    simpa [via, head] using kept

/-- A link that is cleared and whose requests are dropped is gone. -/
theorem Dev.cleared_gone (s : Dev) (H ide : Nat) : ((s.linkClear H ide).dropHead H).linkGone (s.head H).resets H := by
  obtain ⟨rate, width, mem, _⟩ := s.linkClear_shows H ide
  obtain ⟨count, queue, link, route⟩ := (s.linkClear H ide).dropHead_drops H
  rw [(s.linkClear_books H ide).head H] at count
  have get (f : Field) : ((s.linkClear H ide).dropHead H).get f = (s.linkClear H ide).get f := rfl
  exact ⟨bne_eq_false_iff_eq.mpr ((get _).trans rate), (get _).trans width, bne_eq_false_iff_eq.mpr ((get _).trans mem), by omega, queue, link, route⟩

theorem Dev.raise_sameLink (s : Dev) {H : Nat} (hH : H < 16) (e : Ev) : Dev.SameLink H s (s.raise e) := by
  have head := congrArg Head.resets ((s.raise_books e).head H)
  have fields {f : Field} (hf : f.addr = 0x40020 + 0x40000 * (H / 4) + 0x4 * (H % 4)) (lo : f.lo < 32) : (s.raise e).get f = s.get f :=
    s.get_raise_of_addr (by omega) lo e
  obtain ⟨regs, row, fco, psq, form⟩ := s.raise_books e
  exact ⟨fields, head, by rw [form], by rw [form], by rw [form]⟩

/-- A link that was up is gone once it goes down. -/
theorem Dev.linkDown_gone (s : Dev) {H : Nat} (hH : H < 16) (ide : Nat) (up : s.linkUp H = true) :
    (s.linkDown H ide).linkGone (s.head H).resets H := by
  have down : s.linkDown H ide = ((s.linkClear H ide).dropHead H).raise (hpEv (H / 4) 1) := if_pos up
  rw [down]
  exact Dev.linkGone_of_same (Dev.raise_sameLink _ hH _) (s.cleared_gone H ide)

theorem Dev.linkDown_onPorts (s : Dev) (H ide : Nat) : Dev.OnPorts s (s.linkDown H ide) := by
  unfold Dev.linkDown
  split
  · exact ((s.linkClear_books H ide).onPorts.trans (Dev.dropHead_onPorts _ H)).trans (Dev.raise_books _ _).onPorts
  · exact .refl s

/-- A link that goes down leaves the LDs and the keys alone. -/
theorem Dev.linkDown_leaves (s : Dev) (H ide : Nat) : (s.linkDown H ide).lds = s.lds ∧ (s.linkDown H ide).island = s.island := by
  unfold Dev.linkDown
  split
  · obtain ⟨regs, row, fco, psq, form⟩ := ((s.linkClear H ide).dropHead H).raise_books (hpEv (H / 4) 1)
    obtain ⟨regs', row', fco', psq', form'⟩ := s.linkClear_books H ide
    rw [form, form']
    exact ⟨rfl, rfl⟩
  · exact ⟨rfl, rfl⟩

theorem Dev.get_linkDown (s : Dev) (H ide : Nat) {f : Field} (h : f.addr ≠ 0x40020 + 0x40000 * (H / 4) + 0x4 * (H % 4))
    (lanes : ∀ l, l < 16 → f.addr ≠ 0x40400 + 0x40000 * (H / 4) + 0x4 * l) (row : f.addr ≠ 0x8c0024) (lo : f.lo < 32) :
    (s.linkDown H ide).get f = s.get f :=
  Dev.get_ite ((Dev.get_raise_of_addr _ row lo _).trans (s.get_linkClear H ide h lanes lo)) rfl

/-! ## IDE keys and resets (R71, R82, R83) -/

theorem Dev.dropIde_onPorts (s : Dev) (H : Nat) : Dev.OnPorts s (s.dropIde H) :=
  ⟨_, s.regs, s.row, s.fco, s.psq, s.held, s.linkWait, s.rteWait, _, s.rings, s.does, s.lds, s.cal, s.mgmt, rfl⟩

/-- A head that loses its IDE keys keeps its link's state. -/
theorem Dev.dropIde_does (s : Dev) (H : Nat) : ((s.dropIde H).head H).set0 = {} ∧ ((s.dropIde H).head H).set1 = {} ∧
    Dev.SameLink H s (s.dropIde H) := by
  have head : (s.dropIde H).head H = { s.head H with set0 := {}, set1 := {}, current := 0, epochLen := 1 } := s.head_setHead_same H _
  refine ⟨?_, ?_, fun _ _ => rfl, ?_, rfl, rfl, rfl⟩
  · rw [head]
  · rw [head]
  · rw [head]

/-- `t` is `s` with other rings, MSI-X tables, DOE objects, SPDM instances and LD state, the extents of every LD as they were. -/
def Dev.OnFuncs (s t : Dev) : Prop :=
  (∃ rings fco lds does island, t = { s with rings, fco, lds, does, island }) ∧ ∀ g, (t.ld g).extents = (s.ld g).extents

theorem Dev.OnFuncs.trans {s t u : Dev} (h : Dev.OnFuncs s t) (k : Dev.OnFuncs t u) : Dev.OnFuncs s u := by
  obtain ⟨⟨_, _, _, _, _, rfl⟩, a⟩ := h
  obtain ⟨⟨r, f, l, d, i, rfl⟩, b⟩ := k
  exact ⟨⟨r, f, l, d, i, rfl⟩, fun g => (b g).trans (a g)⟩

theorem Dev.resetLd_onFuncs (s : Dev) (f : Nat) : Dev.OnFuncs s (s.resetLd f) := by
  unfold Dev.resetLd
  dsimp only
  split
  · refine ⟨⟨_, _, _, _, s.island, rfl⟩, fun g => ?_⟩
    by_cases h : g = f
    · subst h
      rw [Dev.ld_setLd_same]
      rfl
    · rw [Dev.ld_setLd_ne _ h]
      rfl
  · exact ⟨⟨_, _, s.lds, _, s.island, rfl⟩, fun _ => rfl⟩

theorem Dev.resetLds_onFuncs (l : List Nat) (s : Dev) : Dev.OnFuncs s (l.foldl Dev.resetLd s) := by
  induction l generalizing s with
  | nil => exact ⟨⟨s.rings, s.fco, s.lds, s.does, s.island, rfl⟩, fun _ => rfl⟩
  | cons f l ih => exact (s.resetLd_onFuncs f).trans (ih _)

theorem Dev.dropSpdm_onFuncs (s : Dev) (H : Nat) : Dev.OnFuncs s (s.dropSpdm H) := ⟨⟨s.rings, s.fco, s.lds, _, _, rfl⟩, fun _ => rfl⟩

theorem Dev.OnFuncs.onPorts {s t : Dev} (h : Dev.OnFuncs s t) : Dev.OnPorts s t := by
  obtain ⟨⟨rings, fco, lds, does, island, rfl⟩, _⟩ := h
  exact ⟨s.heads, s.regs, s.row, fco, s.psq, s.held, s.linkWait, s.rteWait, island, rings, does, lds, s.cal, s.mgmt, rfl⟩

theorem Dev.OnFuncs.sameLink {s t : Dev} (h : Dev.OnFuncs s t) (H : Nat) : Dev.SameLink H s t := by
  obtain ⟨⟨rings, fco, lds, does, island, rfl⟩, _⟩ := h
  exact ⟨fun _ _ => rfl, rfl, rfl, rfl, rfl⟩

theorem Dev.OnFuncs.get {s t : Dev} (h : Dev.OnFuncs s t) (f : Field) : t.get f = s.get f := by
  obtain ⟨⟨rings, fco, lds, does, island, rfl⟩, _⟩ := h
  rfl

theorem Dev.linkGone.mono {a b H : Nat} {t : Dev} (h : t.linkGone a H) (le : b ≤ a) : t.linkGone b H := by
  obtain ⟨up, width, mem, more, rest⟩ := h
  exact ⟨up, width, mem, by omega, rest⟩

theorem Dev.resets_linkDown (s : Dev) (H ide : Nat) : (s.head H).resets ≤ ((s.linkDown H ide).head H).resets := by
  unfold Dev.linkDown
  split
  · rw [(Dev.raise_books _ _).head H, ((s.linkClear H ide).dropHead_drops H).1, (s.linkClear_books H ide).head H]
    omega
  · exact Nat.le_refl _

theorem Dev.resetEnds_does (s : Dev) (H : Nat) : Dev.SameLink H s (s.resetEnds H) ∧ Dev.OnPorts s (s.resetEnds H) ∧
    ((s.resetEnds H).head H).set0 = (s.head H).set0 ∧ ((s.resetEnds H).head H).set1 = (s.head H).set1 ∧ (s.resetEnds H).lds = s.lds ∧
    (4 ≤ s.get Reg.HLD.STATUS.STATE → ((s.resetEnds H).head H).detect = true) := by
  unfold Dev.resetEnds
  split
  · refine ⟨⟨fun _ _ => rfl, ?_, rfl, rfl, rfl⟩, s.setHead_onPorts H _, ?_, ?_, rfl, fun _ => ?_⟩
    · rw [Dev.head_setHead_same]
    · rw [Dev.head_setHead_same]
    · rw [Dev.head_setHead_same]
    · rw [Dev.head_setHead_same]
  · next low => exact ⟨.refl H s, .refl s, rfl, rfl, rfl, fun high => absurd high low⟩

theorem Dev.get_resetEnds (s : Dev) (H : Nat) (f : Field) : (s.resetEnds H).get f = s.get f := Dev.get_ite rfl rfl

/-- A head that is reset, by something else than PERST, before its record. -/
def Dev.resetQuiet (s : Dev) (H : Nat) : Dev :=
  let b := ((s.linkDown H 0).linkClear H 0).dropHead H
  ((((b.funcsOf H).foldl Dev.resetLd b).dropSpdm H).dropIde H).resetEnds H

theorem Dev.headReset_eq (s : Dev) (H : Nat) : s.headReset H false = (s.resetQuiet H).raise (hpRec (H / 4) 3 H) := rfl

/-- A head that is reset has lost its link and its keys; what its LDs hold of capacity stays. -/
theorem Dev.resetQuiet_does (s : Dev) {H : Nat} (hH : H < 16) : (s.resetQuiet H).linkGone (s.head H).resets H ∧
    Dev.OnPorts s (s.resetQuiet H) ∧ ((s.resetQuiet H).head H).set0 = {} ∧ ((s.resetQuiet H).head H).set1 = {} ∧
    (4 ≤ s.get Reg.HLD.STATUS.STATE → ((s.resetQuiet H).head H).detect = true) ∧ ∀ g, ((s.resetQuiet H).ld g).extents = (s.ld g).extents := by
  have hold : ((s.linkDown H 0).linkClear H 0).get Reg.HLD.STATUS.STATE = s.get Reg.HLD.STATUS.STATE :=
    (Dev.get_linkClear _ H 0 (by show 0x6c0024 ≠ _; omega) (fun l hl => by show 0x6c0024 ≠ _; omega) (by decide)).trans
      (s.get_linkDown H 0 (by show 0x6c0024 ≠ _; omega) (fun l hl => by show 0x6c0024 ≠ _; omega) (by decide) (by decide))
  have gone := ((s.linkDown H 0).cleared_gone H 0).mono (s.resets_linkDown H 0)
  have first := ((s.linkDown_onPorts H 0).trans ((s.linkDown H 0).linkClear_books H 0).onPorts).trans (Dev.dropHead_onPorts _ H)
  have lds : ((s.linkDown H 0).linkClear H 0).lds = s.lds := by
    obtain ⟨regs, row, fco, psq, form⟩ := (s.linkDown H 0).linkClear_books H 0
    rw [form]
    exact (s.linkDown_leaves H 0).1
  unfold Dev.resetQuiet
  dsimp only
  have held : (((s.linkDown H 0).linkClear H 0).dropHead H).get Reg.HLD.STATUS.STATE = s.get Reg.HLD.STATUS.STATE := hold
  have lds' : (((s.linkDown H 0).linkClear H 0).dropHead H).lds = s.lds := lds
  generalize ((s.linkDown H 0).linkClear H 0).dropHead H = b at gone first held lds'
  have funcs := (Dev.resetLds_onFuncs (b.funcsOf H) b).trans (Dev.dropSpdm_onFuncs _ H)
  generalize ((b.funcsOf H).foldl Dev.resetLd b).dropSpdm H = c at funcs
  obtain ⟨set0, set1, sameIde⟩ := c.dropIde_does H
  obtain ⟨sameEnd, ports, set0', set1', lds'', detect⟩ := (c.dropIde H).resetEnds_does H
  refine ⟨Dev.linkGone_of_same ((((funcs.sameLink H).trans sameIde)).trans sameEnd) gone,
    ((first.trans funcs.onPorts).trans (c.dropIde_onPorts H)).trans ports, set0'.trans set0, set1'.trans set1, fun high => detect ?_, fun g => ?_⟩
  · have get : (c.dropIde H).get Reg.HLD.STATUS.STATE = s.get Reg.HLD.STATUS.STATE := (funcs.get _).trans held
    rw [get]
    exact high
  · have here : ((c.dropIde H).resetEnds H).ld g = c.ld g := congrArg (fun t => Tab.getD t g ({} : Ld)) lds''
    rw [here, funcs.2 g]
    exact congrArg (fun t => Ld.extents (Tab.getD t g {})) lds'

theorem Dev.headReset_does (s : Dev) {H : Nat} (hH : H < 16) : (s.headReset H false).linkGone (s.head H).resets H ∧
    Dev.OnPorts s (s.headReset H false) ∧ ((s.headReset H false).head H).set0 = {} ∧ ((s.headReset H false).head H).set1 = {} ∧
    (4 ≤ s.get Reg.HLD.STATUS.STATE → ((s.headReset H false).head H).detect = true) ∧
    ∀ g, ((s.headReset H false).ld g).extents = (s.ld g).extents := by
  rw [s.headReset_eq]
  obtain ⟨gone, ports, set0, set1, detect, extents⟩ := s.resetQuiet_does hH
  generalize s.resetQuiet H = q at gone ports set0 set1 detect extents
  have told := (q.raise_books (hpRec (H / 4) 3 H)).head H
  have lds (g : Nat) : (q.raise (hpRec (H / 4) 3 H)).ld g = q.ld g := by
    obtain ⟨regs, row, fco, psq, form⟩ := q.raise_books (hpRec (H / 4) 3 H)
    rw [form]
    rfl
  refine ⟨Dev.linkGone_of_same (q.raise_sameLink hH _) gone, ports.trans (q.raise_books _).onPorts, ?_, ?_, fun high => ?_, fun g => ?_⟩
  · rw [told]
    exact set0
  · rw [told]
    exact set1
  · rw [told]
    exact detect high
  · rw [lds]
    exact extents g

/-- The end of PERST during a flush: every head of the port stays in Detect. -/
theorem Dev.resetsEnd_does (l : List Nat) (s : Dev) (high : 4 ≤ s.get Reg.HLD.STATUS.STATE) : Dev.OnPorts s (l.foldl Dev.resetEnds s) ∧
    ∀ H, (H ∈ l ∨ (s.head H).detect = true) → ((l.foldl Dev.resetEnds s).head H).detect = true := by
  induction l generalizing s with
  | nil => exact ⟨.refl s, fun H h => h.resolve_left (by simp)⟩
  | cons x l ih =>
    obtain ⟨_, ports, _, _, _, detect⟩ := s.resetEnds_does x
    obtain ⟨all, kept⟩ := ih (s.resetEnds x) ((s.get_resetEnds x _).symm ▸ high)
    refine ⟨ports.trans all, fun H h => kept H ?_⟩
    by_cases same : H = x
    · exact .inr (same ▸ detect high)
    · refine h.imp (fun m => (List.mem_cons.mp m).resolve_left same) fun was => ?_
      have other : (s.resetEnds x).head H = s.head H := by
        have ends : s.resetEnds x = s.setHead x { s.head x with detect := true } := if_pos high
        rw [ends]
        exact s.head_setHead_ne same _
      rw [other]
      exact was

theorem Dev.resetsEnd_of_low (l : List Nat) (s : Dev) (low : s.get Reg.HLD.STATUS.STATE < 4) : l.foldl Dev.resetEnds s = s := by
  induction l with
  | nil => rfl
  | cons x l ih =>
    have here : s.resetEnds x = s := if_neg (Nat.not_le.mpr low)
    rw [List.foldl_cons, here]
    exact ih

end Sys2Proof.Machine
end

section
/-! SUPPORT. Links that train, IDE key sets, link errors, port configuration and HDM decoders (R65–R73, R81–R86, R491). -/

namespace Sys2Proof.Machine

/-! ## A link that trains (R69, R84) -/

/-- `t` is `s` after writes that leave the link state of head `H` alone but for MEM_EN and MEM_ACTIVE, and the LDs alone. -/
def Dev.KeepsLink (H : Nat) (s t : Dev) : Prop :=
  Dev.OnPorts s t ∧ t.lds = s.lds ∧
    ∀ {f : Field}, f.addr = 0x40020 + 0x40000 * (H / 4) + 0x4 * (H % 4) → f.lo ≠ 10 → f.lo ≠ 11 → f.lo < 32 → t.get f = s.get f

theorem Dev.KeepsLink.refl (H : Nat) (s : Dev) : Dev.KeepsLink H s s := ⟨.refl s, rfl, fun _ _ _ _ => rfl⟩

theorem Dev.KeepsLink.trans {H : Nat} {s t u : Dev} (h : Dev.KeepsLink H s t) (k : Dev.KeepsLink H t u) : Dev.KeepsLink H s u := by
  obtain ⟨a1, a2, a3⟩ := h
  obtain ⟨b1, b2, b3⟩ := k
  exact ⟨a1.trans b1, b2.trans a2, fun hf h10 h11 lo => (b3 hf h10 h11 lo).trans (a3 hf h10 h11 lo)⟩

theorem Dev.KeepsLink.ite {H : Nat} {s t u : Dev} {c : Prop} [Decidable c] (h : Dev.KeepsLink H s t) (k : Dev.KeepsLink H s u) :
    Dev.KeepsLink H s (if c then t else u) := by
  by_cases hc : c
  · rwa [if_pos hc]
  · rwa [if_neg hc]

theorem Dev.Books.lds {s t : Dev} (h : Dev.Books s t) : t.lds = s.lds := by
  obtain ⟨regs, row, fco, psq, rfl⟩ := h
  rfl

theorem Dev.raise_keepsLink (s : Dev) {H : Nat} (hH : H < 16) (e : Ev) : Dev.KeepsLink H s (s.raise e) :=
  ⟨(s.raise_books e).onPorts, (s.raise_books e).lds, fun hf _ _ lo => s.get_raise_of_addr (by omega) lo e⟩

/-- A write to a lane's register. -/
theorem Dev.set_lane_keepsLink (s : Dev) (H l : Nat) {f : Field} (hf : f.addr = 0x40400 + 0x40000 * (H / 4) + 0x4 * l) (lo : f.lo < 32) (v : Nat) :
    Dev.KeepsLink H s (s.set f v) :=
  ⟨(s.set_books f v).onPorts, rfl, fun hg _ _ hl => s.get_set_of_addr (by omega) hl lo v⟩

/-- MEM_EN and MEM_ACTIVE follow the link; nothing else of it changes. -/
theorem Dev.memUpdate_keepsLink (s : Dev) (H : Nat) : Dev.KeepsLink H s (s.memUpdate H) := by
  refine .ite ⟨((s.setBit_books _ _).trans (Dev.setBit_books _ _ _)).onPorts, rfl, fun hf h10 h11 lo => ?_⟩ (.refl H s)
  exact (Dev.get_set_of_lo _ (f := Reg.HP.LINK_STS.MEM_ACTIVE (H / 4) (H % 4)) h11 lo (of_decide_eq_true rfl) _).trans
    (s.get_set_of_lo (f := Reg.HP.LINK_STS.MEM_EN (H / 4) (H % 4)) h10 lo (of_decide_eq_true rfl) _)

theorem Dev.setHead_keepsLink (s : Dev) (H K : Nat) (x : Head) : Dev.KeepsLink H s (s.setHead K x) :=
  ⟨s.setHead_onPorts K x, rfl, fun _ _ _ _ => rfl⟩

theorem Dev.calTrained_keepsLink (s : Dev) (H first n : Nat) : Dev.KeepsLink H s (s.calTrained first n) :=
  ⟨⟨s.heads, s.regs, s.row, s.fco, s.psq, s.held, s.linkWait, s.rteWait, s.island, s.rings, s.does, s.lds, _, s.mgmt, rfl⟩, rfl,
    fun _ _ _ _ => rfl⟩

/-- LINK_STS of a head that has trained, its IDE off. -/
def Dev.linkSet (s : Dev) (H rate width flits : Nat) : Dev :=
  ((((s.set (Reg.HP.LINK_STS.RATE (H / 4) (H % 4)) rate).set (Reg.HP.LINK_STS.WIDTH (H / 4) (H % 4)) width).set
    (Reg.HP.LINK_STS.FLIT (H / 4) (H % 4)) flits).set (Reg.HP.LINK_STS.IDE (H / 4) (H % 4)) 0).set (Reg.HP.LINK_STS.IDE_CONT (H / 4) (H % 4)) 0

theorem Dev.linkSet_books (s : Dev) (H rate width flits : Nat) : Dev.Books s (s.linkSet H rate width flits) :=
  ((((s.set_books _ _).trans (Dev.set_books _ _ _)).trans (Dev.set_books _ _ _)).trans (Dev.set_books _ _ _)).trans (Dev.set_books _ _ _)

theorem Dev.linkSet_shows (s : Dev) (H rate width flits : Nat) :
    (s.linkSet H rate width flits).get (Reg.HP.LINK_STS.RATE (H / 4) (H % 4)) = rate % 2 ^ 3 ∧
    (s.linkSet H rate width flits).get (Reg.HP.LINK_STS.WIDTH (H / 4) (H % 4)) = width % 2 ^ 5 ∧
    (s.linkSet H rate width flits).get (Reg.HP.LINK_STS.FLIT (H / 4) (H % 4)) = flits % 2 ^ 2 := by
  have past (s : Dev) {f g : Field} (h : g.lo ≠ f.lo) (hg : g.lo < 32) (hf : f.lo < 32) {v x : Nat} (k : s.get g = x) : (s.set f v).get g = x :=
    (s.get_set_of_lo h hg hf v).trans k
  have d {p : Prop} [Decidable p] (h : decide p = true) : p := of_decide_eq_true h
  refine ⟨?_, ?_, ?_⟩
  · exact past _ (d rfl) (d rfl) (d rfl) (past _ (d rfl) (d rfl) (d rfl) (past _ (d rfl) (d rfl) (d rfl)
      (past _ (d rfl) (d rfl) (d rfl) (Dev.get_set_same _ _ _))))
  · exact past _ (d rfl) (d rfl) (d rfl) (past _ (d rfl) (d rfl) (d rfl) (past _ (d rfl) (d rfl) (d rfl) (Dev.get_set_same _ _ _)))
  · exact past _ (d rfl) (d rfl) (d rfl) (past _ (d rfl) (d rfl) (d rfl) (Dev.get_set_same _ _ _))

/-- What a lane shows once its link has trained. -/
def Dev.laneSet (s : Dev) (H w width : Nat) (phy : List Nat) (k : Nat) : Dev :=
  (((s.set (Reg.HP.LANE.PRESET (H / 4) (H % 4 * w + k)) (phy.getD k 0 % 16)).set (Reg.HP.LANE.POL (H / 4) (H % 4 * w + k))
    (phy.getD k 0 / 16 % 2)).set (Reg.HP.LANE.LOGICAL (H / 4) (H % 4 * w + k)) (phy.getD k 0 / 32 % 16)).setBit
      (Reg.HP.LANE.ACTIVE (H / 4) (H % 4 * w + k)) (decide ((if lanesReversed phy then w - 1 - k else k) < width))

theorem Dev.laneSet_keepsLink (s : Dev) (H w width : Nat) (phy : List Nat) (k : Nat) : Dev.KeepsLink H s (s.laneSet H w width phy k) :=
  have lane (s : Dev) {f : Field} (hf : f.addr = 0x40400 + 0x40000 * (H / 4) + 0x4 * (H % 4 * w + k)) (lo : f.lo < 32) (v : Nat) :
      Dev.KeepsLink H s (s.set f v) := s.set_lane_keepsLink H (H % 4 * w + k) hf lo v
  (((lane s rfl (of_decide_eq_true rfl) _).trans (lane _ rfl (of_decide_eq_true rfl) _)).trans (lane _ rfl (of_decide_eq_true rfl) _)).trans
    (lane _ rfl (of_decide_eq_true rfl) _)

theorem Dev.lanesSet_keepsLink (s : Dev) (H w width : Nat) (phy : List Nat) (l : List Nat) :
    Dev.KeepsLink H s (l.foldl (fun s k => s.laneSet H w width phy k) s) := by
  induction l generalizing s with
  | nil => exact .refl H s
  | cons k l ih => exact (s.laneSet_keepsLink H w width phy k).trans (ih _)

/-- A head may train at a rate and a width over lanes as `phy` shows them. -/
def Dev.trains (s : Dev) (H rate width : Nat) (phy : List Nat) : Bool :=
  s.mayTrain H && !s.linkUp H && decide (1 ≤ rate) && decide (rate ≤ maxRate (s.get (Reg.HP.PORT_CFG.MAX_RATE (H / 4)))) &&
    [1, 2, 4, 8, 16].contains width && decide (width ≤ s.maxWidth (H / 4)) && (s.bit (Reg.HP.PORT_CFG.LANE_REV (H / 4)) || !lanesReversed phy)

theorem Dev.trains_iff (s : Dev) (H rate width : Nat) (phy : List Nat) : s.trains H rate width phy = true ↔
    s.mayTrain H = true ∧ s.linkUp H = false ∧ 1 ≤ rate ∧ rate ≤ maxRate (s.get (Reg.HP.PORT_CFG.MAX_RATE (H / 4))) ∧
      width ∈ [1, 2, 4, 8, 16] ∧ width ≤ s.maxWidth (H / 4) ∧ (s.bit (Reg.HP.PORT_CFG.LANE_REV (H / 4)) = true ∨ lanesReversed phy = false) := by
  unfold Dev.trains
  simp only [Bool.and_eq_true, Bool.not_eq_true', decide_eq_true_eq, List.contains_iff_mem, Bool.or_eq_true, and_assoc]

theorem Dev.headUp_of_not_trains {s : Dev} {H rate width : Nat} {phy : List Nat} (h : s.trains H rate width phy = false) (flit : Nat) :
    s.headUp H rate width flit phy = s := if_neg (by show ¬ s.trains H rate width phy = true; rw [h]; exact Bool.false_ne_true)

/-- A head's link opens: LINK_STS, its lanes, their calibration and CXL.mem. -/
def Dev.linkOpen (s : Dev) (H rate width flits : Nat) (phy : List Nat) : Dev :=
  let w := s.maxWidth (H / 4)
  (((List.range w).foldl (fun s k => s.laneSet H w width phy k) (s.linkSet H rate width flits)).calTrained
    (64 + 16 * (H / 4) + H % 4 * w) w).memUpdate H

/-- The events that a link raises that has trained: CXL.mem may run, and what the head reached is less than, or other than, before. -/
def Dev.linkTold (s : Dev) (H rate width w : Nat) (x : Head) : Dev :=
  let u := if s.bit (Reg.HP.LINK_STS.MEM_EN (H / 4) (H % 4)) then s.raise (hpEv (H / 4) 0) else s
  if decide (rate < maxRate (u.get (Reg.HP.PORT_CFG.MAX_RATE (H / 4)))) || decide (width < w) || !u.memAllowed H ||
    (x.rate != 0 && (x.rate != rate || x.width != width)) || x.cdatIde.isSome then u.raise (hpEv (H / 4) 2) else u

theorem Dev.linkTold_keepsLink (s : Dev) {H : Nat} (hH : H < 16) (rate width w : Nat) (x : Head) : Dev.KeepsLink H s (s.linkTold H rate width w x) := by
  unfold Dev.linkTold
  dsimp only
  have first : Dev.KeepsLink H s (if s.bit (Reg.HP.LINK_STS.MEM_EN (H / 4) (H % 4)) then s.raise (hpEv (H / 4) 0) else s) :=
    .ite (s.raise_keepsLink hH _) (.refl H s)
  generalize (if s.bit (Reg.HP.LINK_STS.MEM_EN (H / 4) (H % 4)) then s.raise (hpEv (H / 4) 0) else s) = u at first
  exact first.trans (.ite (u.raise_keepsLink hH _) (.refl H u))

theorem Dev.headUp_of_open {s : Dev} {H rate width : Nat} {phy : List Nat} (h : s.trains H rate width phy = true) (flit : Nat) :
    let u := s.linkOpen H rate width (if rate = 6 then (if flit = 2 then 2 else 3) else if 4 ≤ rate then 1 else 0) phy
    s.headUp H rate width flit phy =
      (u.setHead H { u.head H with rate, width, cdatIde := none }).linkTold H rate width (s.maxWidth (H / 4)) (u.head H) := if_pos h

/-- A link that has trained shows its rate, its width and its flit mode. -/
theorem Dev.headUp_of_trains {s : Dev} {H rate width : Nat} {phy : List Nat} (hH : H < 16) (h : s.trains H rate width phy = true) (flit : Nat) :
    Dev.KeepsLink H (s.linkSet H rate width (if rate = 6 then (if flit = 2 then 2 else 3) else if 4 ≤ rate then 1 else 0))
      (s.headUp H rate width flit phy) := by
  rw [Dev.headUp_of_open h flit]
  exact ((((Dev.lanesSet_keepsLink _ H _ width phy _).trans (Dev.calTrained_keepsLink _ H _ _)).trans (Dev.memUpdate_keepsLink _ H)).trans
    (Dev.setHead_keepsLink _ H H _)).trans (Dev.linkTold_keepsLink _ hH _ _ _ _)

theorem Dev.headUp_does {s : Dev} {H rate width : Nat} {phy : List Nat} (hH : H < 16) (h : s.trains H rate width phy = true) (flit : Nat)
    (small : rate < 8) : (s.headUp H rate width flit phy).get (Reg.HP.LINK_STS.RATE (H / 4) (H % 4)) = rate ∧
    (s.headUp H rate width flit phy).get (Reg.HP.LINK_STS.WIDTH (H / 4) (H % 4)) = width ∧
    (s.headUp H rate width flit phy).get (Reg.HP.LINK_STS.FLIT (H / 4) (H % 4)) =
      (if rate = 6 then (if flit = 2 then 2 else 3) else if 4 ≤ rate then 1 else 0) ∧
    Dev.OnPorts s (s.headUp H rate width flit phy) ∧ (s.headUp H rate width flit phy).lds = s.lds := by
  have some : (if rate = 6 then (if flit = 2 then 2 else 3) else if 4 ≤ rate then 1 else 0) < 4 := by
    split
    · split <;> omega
    · split <;> omega
  have wide : width < 2 ^ 5 := by
    have all := ((s.trains_iff H rate width phy).mp h).2.2.2.2.1
    simp only [List.mem_cons, List.not_mem_nil, or_false] at all
    omega
  obtain ⟨ports, lds, keeps⟩ := Dev.headUp_of_trains hH h flit
  obtain ⟨rates, widths, flits⟩ := s.linkSet_shows H rate width (if rate = 6 then (if flit = 2 then 2 else 3) else if 4 ≤ rate then 1 else 0)
  have d {p : Prop} [Decidable p] (h : decide p = true) : p := of_decide_eq_true h
  refine ⟨((keeps rfl (d rfl) (d rfl) (d rfl)).trans rates).trans (Nat.mod_eq_of_lt small),
    ((keeps rfl (d rfl) (d rfl) (d rfl)).trans widths).trans (Nat.mod_eq_of_lt wide),
    ((keeps rfl (d rfl) (d rfl) (d rfl)).trans flits).trans (Nat.mod_eq_of_lt some), (s.linkSet_books _ _ _ _).onPorts.trans ports,
    lds.trans (s.linkSet_books _ _ _ _).lds⟩

/-! ## IDE and link errors (R82, R83, R491) -/

theorem linkErr_books (s : Dev) (h k : Nat) : Dev.Books s (linkErr s h k) := s.countUp_books _ _ 1

/-- An error counter of a head lies apart from its link state. -/
theorem get_linkErr (s : Dev) (h k : Nat) {f : Field} (hf : f.addr = 0x40020 + 0x40000 * (h / 4) + 0x4 * (h % 4)) (lo : f.lo < 32) :
    (linkErr s h k).get f = s.get f := by
  have count : f.addr ≠ (Reg.HP.ERR.COUNT (h / 4) (h % 4) k).addr := by
    show f.addr ≠ 0x40100 + 0x40000 * (h / 4) + 0x20 * (h % 4) + 0x4 * k
    omega
  exact s.get_countUp (c := Reg.HP.ERR.COUNT (h / 4) (h % 4) k) (f := Reg.HP.ERR.SAT (h / 4) (h % 4) k) (Field.key_ne_of_addr count lo (of_decide_eq_true rfl))
    (Field.key_ne_of_addr count lo (of_decide_eq_true rfl)) 1

theorem linkUp_linkErr (s : Dev) (h k : Nat) : (linkErr s h k).linkUp h = s.linkUp h :=
  congrArg (· != 0) (get_linkErr s h k (f := Reg.HP.LINK_STS.RATE (h / 4) (h % 4)) rfl (of_decide_eq_true rfl))

/-- A link that goes down shows the IDE state it goes down with. -/
theorem Dev.linkDown_ide (s : Dev) {H : Nat} (hH : H < 16) (ide : Nat) (up : s.linkUp H = true) :
    (s.linkDown H ide).get (Reg.HP.LINK_STS.IDE (H / 4) (H % 4)) = ide % 2 ^ 2 := by
  have down : s.linkDown H ide = ((s.linkClear H ide).dropHead H).raise (hpEv (H / 4) 1) := if_pos up
  rw [down]
  exact (Dev.get_raise_of_addr _ (f := Reg.HP.LINK_STS.IDE (H / 4) (H % 4))
    (by show 0x40020 + 0x40000 * (H / 4) + 0x4 * (H % 4) ≠ 0x8c0024; omega) (of_decide_eq_true rfl) _).trans (s.linkClear_shows H ide).2.2.2

/-- A head whose IDE fails, before its flush check. -/
def Dev.ideFailed (s : Dev) (h keyset : Nat) : Dev := (((linkErr s h 5).raise (hpRec (h / 4) 4 keyset)).linkDown h 2).dropIde h

theorem Dev.ideFailed_does (s : Dev) {h : Nat} (hh : h < 16) (keyset : Nat) (up : s.linkUp h = true) :
    (s.ideFailed h keyset).linkGone (s.head h).resets h ∧ Dev.OnPorts s (s.ideFailed h keyset) ∧
    (s.ideFailed h keyset).get (Reg.HP.LINK_STS.IDE (h / 4) (h % 4)) = 2 ∧ ((s.ideFailed h keyset).head h).set0 = {} ∧
    ((s.ideFailed h keyset).head h).set1 = {} ∧ (s.ideFailed h keyset).lds = s.lds := by
  have told := (linkErr_books s h 5).trans ((linkErr s h 5).raise_books (hpRec (h / 4) 4 keyset))
  have still : ((linkErr s h 5).raise (hpRec (h / 4) 4 keyset)).linkUp h = true :=
    (congrArg (· != 0) (Dev.get_raise_of_addr _ (f := Reg.HP.LINK_STS.RATE (h / 4) (h % 4))
      (by show 0x40020 + 0x40000 * (h / 4) + 0x4 * (h % 4) ≠ 0x8c0024; omega) (of_decide_eq_true rfl) _)).trans ((linkUp_linkErr s h 5).trans up)
  unfold Dev.ideFailed
  generalize (linkErr s h 5).raise (hpRec (h / 4) 4 keyset) = c at told still
  have gone := c.linkDown_gone hh 2 still
  rw [told.head h] at gone
  obtain ⟨set0, set1, same⟩ := (c.linkDown h 2).dropIde_does h
  exact ⟨Dev.linkGone_of_same same gone, (told.onPorts.trans (c.linkDown_onPorts h 2)).trans (Dev.dropIde_onPorts _ h), c.linkDown_ide hh 2 still,
    set0, set1, (c.linkDown_leaves h 2).1.trans told.lds⟩

/-- What a head shows once it has switched to another key set; `changed` = the CDAT tells it. -/
def Dev.keyTold (s : Dev) (h : Nat) (changed : Bool) : Dev :=
  let was := s.bit (Reg.HP.LINK_STS.MEM_EN (h / 4) (h % 4))
  let u := s.memUpdate h
  let v := if !was ∧ u.bit (Reg.HP.LINK_STS.MEM_EN (h / 4) (h % 4)) then u.raise (hpEv (h / 4) 0) else u
  if changed then v.raise (hpEv (h / 4) 2) else v

theorem Dev.memUpdate_books (s : Dev) (H : Nat) : Dev.Books s (s.memUpdate H) :=
  .ite ((s.setBit_books _ _).trans (Dev.setBit_books _ _ _)) (.refl s)

theorem Dev.keyTold_keeps (s : Dev) {h : Nat} (hh : h < 16) (changed : Bool) : Dev.KeepsLink h s (s.keyTold h changed) ∧
    Dev.Books s (s.keyTold h changed) := by
  have tell (c : Prop) [Decidable c] (v : Dev) (e : Ev) : Dev.KeepsLink h v (if c then v.raise e else v) ∧ Dev.Books v (if c then v.raise e else v) :=
    ⟨.ite (v.raise_keepsLink hh e) (.refl h v), .ite (v.raise_books e) (.refl v)⟩
  unfold Dev.keyTold
  dsimp only
  have link := s.memUpdate_keepsLink h
  have books := s.memUpdate_books h
  generalize s.memUpdate h = u at link books
  have first := tell ((!s.bit (Reg.HP.LINK_STS.MEM_EN (h / 4) (h % 4))) = true ∧ u.bit (Reg.HP.LINK_STS.MEM_EN (h / 4) (h % 4)) = true) u (hpEv (h / 4) 0)
  generalize (if (!s.bit (Reg.HP.LINK_STS.MEM_EN (h / 4) (h % 4))) = true ∧ u.bit (Reg.HP.LINK_STS.MEM_EN (h / 4) (h % 4)) = true then
    u.raise (hpEv (h / 4) 0) else u) = v at first
  have last := tell (changed = true) v (hpEv (h / 4) 2)
  exact ⟨link.trans (first.1.trans last.1), books.trans (first.2.trans last.2)⟩

/-- A head that switches to a key set. -/
def Dev.keySetGo (s : Dev) (h set : Nat) (cont : Bool) (len : Nat) : Dev :=
  let u := s.setHead h { s.head h with current := set, epochLen := len, cdatIde := some (cont, len) }
  ((u.set (Reg.HP.LINK_STS.IDE (h / 4) (h % 4)) 1).setBit (Reg.HP.LINK_STS.IDE_CONT (h / 4) (h % 4)) cont).keyTold h
    (decide ((s.head h).cdatIde ≠ some (cont, len)))

theorem Dev.keySetGo_does (s : Dev) {h : Nat} (hh : h < 16) (set : Nat) (cont : Bool) (len : Nat) :
    ((s.keySetGo h set cont len).head h).current = set ∧ ((s.keySetGo h set cont len).head h).epochLen = len ∧
    (s.keySetGo h set cont len).get (Reg.HP.LINK_STS.IDE (h / 4) (h % 4)) = 1 ∧ Dev.OnPorts s (s.keySetGo h set cont len) ∧
    (s.keySetGo h set cont len).lds = s.lds := by
  unfold Dev.keySetGo
  dsimp only
  have head := s.head_setHead_same h { s.head h with current := set, epochLen := len, cdatIde := some (cont, len) }
  have ports := s.setHead_onPorts h { s.head h with current := set, epochLen := len, cdatIde := some (cont, len) }
  have lds : (s.setHead h { s.head h with current := set, epochLen := len, cdatIde := some (cont, len) }).lds = s.lds := rfl
  generalize s.setHead h { s.head h with current := set, epochLen := len, cdatIde := some (cont, len) } = a at head ports lds
  have marked := (a.set_books (Reg.HP.LINK_STS.IDE (h / 4) (h % 4)) 1).trans (Dev.setBit_books _ (Reg.HP.LINK_STS.IDE_CONT (h / 4) (h % 4)) cont)
  have shown : ((a.set (Reg.HP.LINK_STS.IDE (h / 4) (h % 4)) 1).setBit (Reg.HP.LINK_STS.IDE_CONT (h / 4) (h % 4)) cont).get
      (Reg.HP.LINK_STS.IDE (h / 4) (h % 4)) = 1 :=
    (Dev.get_set_of_lo _ (f := Reg.HP.LINK_STS.IDE_CONT (h / 4) (h % 4)) (of_decide_eq_true rfl) (of_decide_eq_true rfl) (of_decide_eq_true rfl) _).trans
      (a.get_set_same (Reg.HP.LINK_STS.IDE (h / 4) (h % 4)) 1)
  generalize (a.set (Reg.HP.LINK_STS.IDE (h / 4) (h % 4)) 1).setBit (Reg.HP.LINK_STS.IDE_CONT (h / 4) (h % 4)) cont = u at marked shown
  obtain ⟨⟨_, _, keeps⟩, told⟩ := u.keyTold_keeps hh (decide ((s.head h).cdatIde ≠ some (cont, len)))
  have ide := keeps (f := Reg.HP.LINK_STS.IDE (h / 4) (h % 4)) rfl (of_decide_eq_true rfl) (of_decide_eq_true rfl) (of_decide_eq_true rfl)
  have books := marked.trans told
  have shows := (books.head h).trans head
  exact ⟨congrArg Head.current shows, congrArg Head.epochLen shows, ide.trans shown, ports.trans books.onPorts, books.lds.trans lds⟩

end Sys2Proof.Machine
end

section
/-! SUPPORT. Enabling a port, committing an HDM decoder and programming an IDE key (R67, R68, R73, R82); what port and head commands do. -/

namespace Sys2Proof.Machine

/-! ## Enabling a port (R67, R68) -/

/-- The configuration of port n is consistent: no two LD ranges overlap or pass the last LD, and heads that BIFUR does not give have no LDs. -/
def Dev.portFits (s : Dev) (n : Nat) : Bool :=
  disjoint (s.ldRanges n) && (s.ldRanges n).all (fun r => decide (r.2 ≤ 64)) &&
    (List.range 4).all (fun h => decide (h < s.headCount n) || s.ldCnt (4 * n + h) == 0)

theorem Dev.portEnable_of_misfit {s : Dev} {n : Nat} (h : s.portFits n = false) :
    s.portEnable n = (s.setBit (Reg.HP.PORT_STS.CFG_ERR n) true).raise (hpEv n 13) :=
  if_pos (by show (!s.portFits n) = true; rw [h]; rfl)

/-- The management function goes to a head that asks for it, if no head has it. -/
def Dev.takeMgmt (s : Dev) (m : List Nat) : Dev := match s.mgmt, m with | none, H :: _ => { s with mgmt := some H } | _, _ => s

theorem Dev.takeMgmt_does (s : Dev) (m : List Nat) : (∃ mgmt, s.takeMgmt m = { s with mgmt }) ∧
    (∀ H, s.mgmt = some H → (s.takeMgmt m).mgmt = some H) ∧ (s.mgmt = none → (s.takeMgmt m).mgmt = m.head?) := by
  unfold Dev.takeMgmt
  cases free : s.mgmt with
  | some K => exact ⟨⟨s.mgmt, rfl⟩, fun H same => free.trans same, fun no => absurd no (by simp)⟩
  | none =>
    cases m with
    | nil => exact ⟨⟨s.mgmt, rfl⟩, fun H same => absurd same (by simp), fun _ => free⟩
    | cons H m => exact ⟨⟨_, rfl⟩, fun K same => absurd same (by simp), fun _ => rfl⟩

/-- The heads of a port that ask for the management function. -/
def Dev.askMgmt (s : Dev) (n : Nat) : List Nat := (s.headsOf n).filter fun H => s.bit (Reg.HP.HEAD_CFG.MGMT n (H % 4))

theorem Dev.portEnable_of_fit {s : Dev} {n : Nat} (h : s.portFits n = true) :
    let u := s.setBit (Reg.HP.PORT_CFG.ENABLE n) true
    let v := u.takeMgmt (u.askMgmt n)
    s.portEnable n = ((u.askMgmt n).filter fun H => v.mgmt != some H).foldl (fun s _ => s.raise (hpEv n 13)) v :=
  if_neg (by show ¬ (!s.portFits n) = true; rw [h]; decide)

/-- ENABLE changes nothing that says which heads a port has and which of them ask for the management function. -/
theorem Dev.askMgmt_enabled (s : Dev) (n : Nat) (b : Bool) : (s.setBit (Reg.HP.PORT_CFG.ENABLE n) b).askMgmt n = s.askMgmt n := by
  have bifur : (s.setBit (Reg.HP.PORT_CFG.ENABLE n) b).get (Reg.HP.PORT_CFG.BIFUR n) = s.get (Reg.HP.PORT_CFG.BIFUR n) :=
    s.get_set_of_lo (f := Reg.HP.PORT_CFG.ENABLE n) (of_decide_eq_true rfl) (of_decide_eq_true rfl) (of_decide_eq_true rfl) _
  have asks (i : Nat) : (s.setBit (Reg.HP.PORT_CFG.ENABLE n) b).bit (Reg.HP.HEAD_CFG.MGMT n i) = s.bit (Reg.HP.HEAD_CFG.MGMT n i) :=
    congrArg (· != 0) (s.get_set_of_addr (f := Reg.HP.PORT_CFG.ENABLE n)
      (by show 0x40010 + 0x40000 * n + 0x4 * i ≠ 0x40000 + 0x40000 * n; omega) (of_decide_eq_true rfl) (of_decide_eq_true rfl) _)
  unfold Dev.askMgmt Dev.headsOf Dev.headCount
  rw [bifur]
  simp only [asks]

theorem Dev.foldl_raise_books {α : Type} (l : List α) (e : Ev) (s : Dev) : Dev.Books s (l.foldl (fun s _ => s.raise e) s) := by
  induction l generalizing s with
  | nil => exact .refl s
  | cons x l ih => exact (s.raise_books e).trans (ih _)

theorem Dev.get_foldl_raise {α : Type} {f : Field} (h : f.addr ≠ 0x8c0024) (lo : f.lo < 32) (l : List α) (e : Ev) (s : Dev) :
    (l.foldl (fun s _ => s.raise e) s).get f = s.get f := by
  induction l generalizing s with
  | nil => rfl
  | cons x l ih => exact (ih _).trans (s.get_raise_of_addr h lo e)

theorem Dev.Books.heads_mgmt {s t : Dev} (h : Dev.Books s t) : t.heads = s.heads ∧ t.mgmt = s.mgmt := by
  obtain ⟨regs, row, fco, psq, rfl⟩ := h
  exact ⟨rfl, rfl⟩

/-- A port whose configuration is consistent is enabled, and the management function stays where it is or goes to the first head that asks. -/
theorem Dev.portEnable_does {s : Dev} {n : Nat} (hn : n < 4) (h : s.portFits n = true) : (s.portEnable n).bit (Reg.HP.PORT_CFG.ENABLE n) = true ∧
    Dev.OnPorts s (s.portEnable n) ∧ (s.portEnable n).lds = s.lds ∧ (s.portEnable n).heads = s.heads ∧
    (∀ H, s.mgmt = some H → (s.portEnable n).mgmt = some H) ∧ (s.mgmt = none → (s.portEnable n).mgmt = (s.askMgmt n).head?) := by
  rw [Dev.portEnable_of_fit h, s.askMgmt_enabled n true]
  have books := s.setBit_books (Reg.HP.PORT_CFG.ENABLE n) true
  have on : (s.setBit (Reg.HP.PORT_CFG.ENABLE n) true).get (Reg.HP.PORT_CFG.ENABLE n) = 1 := s.get_set_same _ _
  generalize s.setBit (Reg.HP.PORT_CFG.ENABLE n) true = u at books on
  obtain ⟨⟨mgmt, form⟩, keeps, takes⟩ := u.takeMgmt_does (s.askMgmt n)
  have ports : Dev.OnPorts u (u.takeMgmt (s.askMgmt n)) := by
    rw [form]
    exact ⟨u.heads, u.regs, u.row, u.fco, u.psq, u.held, u.linkWait, u.rteWait, u.island, u.rings, u.does, u.lds, u.cal, mgmt, rfl⟩
  have on' : (u.takeMgmt (s.askMgmt n)).get (Reg.HP.PORT_CFG.ENABLE n) = 1 := by
    rw [form]
    exact on
  have same : (u.takeMgmt (s.askMgmt n)).lds = u.lds ∧ (u.takeMgmt (s.askMgmt n)).heads = u.heads := by
    rw [form]
    exact ⟨rfl, rfl⟩
  generalize u.takeMgmt (s.askMgmt n) = v at form keeps takes ports on' same
  have told := Dev.foldl_raise_books ((s.askMgmt n).filter fun H => v.mgmt != some H) (hpEv n 13) v
  have shown := Dev.get_foldl_raise (f := Reg.HP.PORT_CFG.ENABLE n) (by show 0x40000 + 0x40000 * n ≠ 0x8c0024; omega) (of_decide_eq_true rfl)
    ((s.askMgmt n).filter fun H => v.mgmt != some H) (hpEv n 13) v
  refine ⟨bne_iff_ne.mpr (by rw [shown, on']; decide), (books.onPorts.trans ports).trans told.onPorts, (told.lds.trans same.1).trans books.lds,
    (told.heads_mgmt.1.trans same.2).trans books.heads_mgmt.1, fun H had => ?_, fun none => ?_⟩
  · exact told.heads_mgmt.2.trans (keeps H (books.heads_mgmt.2.trans had))
  · exact told.heads_mgmt.2.trans (takes (books.heads_mgmt.2.trans none))

/-! ## HDM decoders (R73) -/

section
variable {s : Dev} {g i base size ways gran skip : Nat} {lock : Bool}

theorem Dev.decoderCommit_of_taken (h : ((s.ld g).decoders.getD i {}).lock = true ∨ ((s.ld g).decoders.getD i {}).committed = true) :
    s.decoderCommit g i base size ways gran skip lock = s := if_pos h

/-- Where the range of decoder i of an LD begins: after the decoder before it and the skip. -/
def Dev.decoderStart (s : Dev) (g i skip : Nat) : Nat :=
  (if i = 0 then 0 else ((s.ld g).decoders.getD (i - 1) {}).dpaBase +
    ((s.ld g).decoders.getD (i - 1) {}).size / ((s.ld g).decoders.getD (i - 1) {}).ways) + skip

/-- The values of a decoder are allowed. -/
def Dev.decoderFits (s : Dev) (g i base size ways gran skip : Nat) : Bool :=
  decoderOk base size ways gran skip && (i == 0 || ((s.ld g).decoders.getD (i - 1) {}).committed) &&
    decide (s.decoderStart g i skip + size / ways ≤ 2 ^ 46)

theorem Dev.decoderFits_iff (s : Dev) (g i base size ways gran skip : Nat) : s.decoderFits g i base size ways gran skip = true ↔
    decoderOk base size ways gran skip = true ∧ (i = 0 ∨ ((s.ld g).decoders.getD (i - 1) {}).committed = true) ∧
      s.decoderStart g i skip + size / ways ≤ 2 ^ 46 := by
  unfold Dev.decoderFits
  simp only [Bool.and_eq_true, Bool.or_eq_true, beq_iff_eq, decide_eq_true_eq, and_assoc]

/-- A decoder that nothing holds is committed, or shows its error. -/
theorem Dev.decoderCommit_of_free (h : ((s.ld g).decoders.getD i {}).lock = false) (k : ((s.ld g).decoders.getD i {}).committed = false) :
    let ok := s.decoderFits g i base size ways gran skip
    let d : Decoder := { hpaBase := base, size, skip, ways, gran, lock := lock && ok, committed := ok, error := !ok, dpaBase := s.decoderStart g i skip }
    let u := s.setLd g { s.ld g with decoders := (s.ld g).decoders.put i d }
    s.decoderCommit g i base size ways gran skip lock =
      if ok then u else match u.headOfGld g with | some H => u.raise (hpEv (H / 4) 13) | none => u :=
  if_neg (by rw [h, k]; decide)

theorem Dev.decoderCommit_of_fit (h : ((s.ld g).decoders.getD i {}).lock = false) (k : ((s.ld g).decoders.getD i {}).committed = false)
    (ok : s.decoderFits g i base size ways gran skip = true) :
    let d : Decoder := { hpaBase := base, size, skip, ways, gran, dpaBase := s.decoderStart g i skip }
    s.decoderCommit g i base size ways gran skip lock =
      s.setLd g { s.ld g with decoders := (s.ld g).decoders.put i { d with lock, committed := true } } := by
  rw [Dev.decoderCommit_of_free h k, ok]
  simp only [if_true, Bool.and_true, Bool.not_true]

theorem Dev.decoderCommit_of_misfit {H : Nat} (h : ((s.ld g).decoders.getD i {}).lock = false) (k : ((s.ld g).decoders.getD i {}).committed = false)
    (ok : s.decoderFits g i base size ways gran skip = false) (head : s.headOfGld g = some H) :
    let d : Decoder := { hpaBase := base, size, skip, ways, gran, dpaBase := s.decoderStart g i skip }
    s.decoderCommit g i base size ways gran skip lock =
      (s.setLd g { s.ld g with decoders := (s.ld g).decoders.put i { d with error := true } }).raise (hpEv (H / 4) 13) := by
  have still (x : Ld) : (s.setLd g x).headOfGld g = some H := head
  rw [Dev.decoderCommit_of_free h k, ok]
  simp only [Bool.false_eq_true, if_false, Bool.and_false, Bool.not_false, still]

end

/-! ## IDE keys (R82) -/

/-- A key set with one more of its keys. -/
def KeySet.with (k : KeySet) (tx : Bool) : KeySet := if tx then { k with tx := true } else { k with rx := true }

/-- A key that goes into a head's key set and its link key slot. -/
def Dev.keyProg (s : Dev) (h set : Nat) (i : IdeKey) : Dev :=
  let x := s.head h
  let k := (if set = 0 then x.set0 else x.set1).with i.tx
  let u := s.setHead h (if set = 0 then { x with set0 := k } else { x with set1 := k })
  let key : LinkSlot := { key := i.key, salt := i.salt, dir := if i.tx then 1 else 0 }
  { u with island := { u.island with links := u.island.links.put (4 * h + (if i.tx then 2 else 0) + set) key } }

theorem KeySet.with_has (k : KeySet) (tx : Bool) : if tx then (k.with tx).tx = true else (k.with tx).rx = true := by
  cases tx
  · exact rfl
  · exact rfl

theorem Dev.keyProg_does (s : Dev) (h set : Nat) (i : IdeKey) :
    (s.keyProg h set i).island.links.get? (4 * h + (if i.tx then 2 else 0) + set) =
      some { key := i.key, salt := i.salt, dir := if i.tx then 1 else 0 } ∧
    (∀ k : KeySet, k = (if set = 0 then ((s.keyProg h set i).head h).set0 else ((s.keyProg h set i).head h).set1) →
      if i.tx then k.tx = true else k.rx = true) ∧
    (if set = 0 then ((s.keyProg h set i).head h).set1 = (s.head h).set1 else ((s.keyProg h set i).head h).set0 = (s.head h).set0) ∧
    Dev.OnPorts s (s.keyProg h set i) ∧ (s.keyProg h set i).regs = s.regs ∧ (s.keyProg h set i).lds = s.lds := by
  have head : (s.keyProg h set i).head h =
      if set = 0 then { s.head h with set0 := (if set = 0 then (s.head h).set0 else (s.head h).set1).with i.tx }
      else { s.head h with set1 := (if set = 0 then (s.head h).set0 else (s.head h).set1).with i.tx } := s.head_setHead_same h _
  rw [head]
  refine ⟨Tab.get?_put_same _ _ _, ?_, ?_, ⟨_, s.regs, s.row, s.fco, s.psq, s.held, s.linkWait, s.rteWait, _, s.rings, s.does, s.lds, s.cal,
    s.mgmt, rfl⟩, rfl, rfl⟩
  · rintro k rfl
    by_cases first : set = 0
    · rw [if_pos first, if_pos first]
      exact KeySet.with_has _ _
    · rw [if_neg first, if_neg first]
      exact KeySet.with_has _ _
  · by_cases first : set = 0
    · rw [if_pos first, if_pos first]
    · rw [if_neg first, if_neg first]

end Sys2Proof.Machine
end

section
/-! SUPPORT. What port and head commands do: O44. -/

namespace Sys2Proof.Machine

theorem State.did_ports {s : State} (hq : quiet s) {d : Dev} (h : Dev.OnPorts s.dev d) : keptMemory s (s.did d) ∧ (s.did d).sent = s.sent :=
  ⟨h.keptMemory, congrArg (· ++ s.sent) (h.keeps.1.trans hq)⟩

/-- A reset of a head that its port has. -/
theorem exec_headReset_of_head (s : State) {h kind : Nat} (hh : h < 16) (k0 : kind ≠ 0) (k3 : kind ≠ 3) (head : h % 4 < s.dev.headCount (h / 4)) :
    exec (.headReset h kind) s = .next (s.did (s.dev.headReset h false).gpfCheck) :=
  s.next_did_congr ((if_neg (Nat.not_le.mpr hh)).trans ((if_neg k3).trans ((if_neg k0).trans (if_pos head))))

theorem exec_headReset_of_perst (s : State) {h : Nat} (hh : h < 16) (on : s.dev.get (Reg.HP.PORT_STS.PERST (h / 4)) ≠ 0) :
    exec (.headReset h 3) s = .next (s.did (((s.dev.headsOf (h / 4)).foldl Dev.resetEnds s.dev).set (Reg.HP.PORT_STS.PERST (h / 4)) 0)) :=
  s.next_did_congr ((if_neg (Nat.not_le.mpr hh)).trans ((if_pos rfl).trans (if_neg on)))

theorem exec_ideIntegrityFailure_of_secure (s : State) {h : Nat} (hh : h < 16) (keyset : Nat)
    (secure : s.dev.get (Reg.HP.LINK_STS.IDE (h / 4) (h % 4)) = 1) :
    exec (.ideIntegrityFailure h keyset) s = .next (s.did (s.dev.ideFailed h keyset).gpfCheck) :=
  s.next_did_congr (if_neg (not_or_intro (Nat.not_le.mpr hh) (not_not_intro secure)))

/-- A link error of a kind that there is. -/
theorem exec_cxlLinkError_of_up (s : State) {h kind : Nat} (hh : h < 16) (up : s.dev.linkUp h = true) (k3 : kind ≠ 3) (k4 : kind ≤ 4) (replay : Bool) :
    exec (.cxlLinkError h kind replay) s = .next (s.did (
      let u := linkErr s.dev h kind
      let v := if replay ∧ kind ≠ 0 ∧ kind ≠ 2 then linkErr u h 3 else u
      if kind = 0 then
        (if v.get (Reg.HP.ERR.COUNT (h / 4) (h % 4) 0) = v.get (Reg.HP.CE_THRESH.THRESH (h / 4)) then v.raise (hpEv (h / 4) 9) else v)
      else if kind = 4 ∧ replay then v.raise (hpEv (h / 4) 14) else v)) :=
  s.next_did_congr (if_neg (by rw [up]; simp [k3]; omega))

theorem linkErr_out (s : Dev) (h k : Nat) : (linkErr s h k).out = s.out := (linkErr_books s h k).keeps.1

theorem exec_portEnableWrite_of_free (s : State) {n : Nat} (hn : n < 4) (lock : s.dev.bit (Reg.HP.LOCK.LOCK n) = false)
    (off : s.dev.bit (Reg.HP.PORT_CFG.ENABLE n) = false) : exec (.portEnableWrite n) s = .next (s.did (s.dev.portEnable n)) :=
  s.next_did_congr ((if_neg (Nat.not_le.mpr hn)).trans ((if_neg (by rw [lock]; exact Bool.false_ne_true)).trans
    (if_neg (by rw [off]; exact Bool.false_ne_true))))

section
variable {s : State} {h : Nat} (hq : quiet s) (hh : h < 16)
include hq hh

/-- What a link error does, by its kind. -/
theorem exec_cxlLinkError_kinds (up : s.dev.linkUp h = true) (replay : Bool) :
    let e := linkErr s.dev h
    (∀ u, u = e 0 →
      exec (.cxlLinkError h 0 replay) s = .next (withDev s (if u.get (Reg.HP.ERR.COUNT (h / 4) (h % 4) 0) = u.get (Reg.HP.CE_THRESH.THRESH (h / 4))
        then u.raise (hpEv (h / 4) 9) else u))) ∧
    exec (.cxlLinkError h 1 replay) s = .next (withDev s (if replay then linkErr (e 1) h 3 else e 1)) ∧
    exec (.cxlLinkError h 2 replay) s = .next (withDev s (e 2)) ∧
    exec (.cxlLinkError h 4 replay) s = .next (withDev s (if replay then (linkErr (e 4) h 3).raise (hpEv (h / 4) 14) else e 4)) := by
  have more (k : Nat) : Dev.Books s.dev (linkErr (linkErr s.dev h k) h 3) := (linkErr_books _ _ _).trans (linkErr_books _ _ _)
  have ran {kind : Nat} (k3 : kind ≠ 3) (k4 : kind ≤ 4) := exec_cxlLinkError_of_up s hh up k3 k4 replay
  refine ⟨?_, ?_, ?_, ?_⟩
  · rintro u rfl
    refine (ran (kind := 0) (by decide) (by decide)).trans (s.next_kept hq ?_ (Dev.Books.ite ((linkErr_books _ _ _).trans (Dev.raise_books _ _))
      (linkErr_books _ _ _)).keeps.1)
    dsimp only
    rw [if_pos (rfl : 0 = 0), if_neg (by simp : ¬ (replay = true ∧ 0 ≠ 0 ∧ 0 ≠ 2))]
  · refine (ran (kind := 1) (by decide) (by decide)).trans (s.next_kept hq ?_ (Dev.Books.ite (more 1) (linkErr_books _ _ _)).keeps.1)
    dsimp only
    rw [if_neg (by decide), if_neg (by simp)]
    exact ite_congr (by simp) (fun _ => rfl) fun _ => rfl
  · refine (ran (kind := 2) (by decide) (by decide)).trans (s.next_kept hq ?_ (linkErr_books _ _ _).keeps.1)
    dsimp only
    rw [if_neg (by decide), if_neg (by simp), if_neg (by simp)]
  · refine (ran (kind := 4) (by decide) (by decide)).trans (s.next_kept hq ?_ (Dev.Books.ite ((more 4).trans (Dev.raise_books _ _))
      (linkErr_books _ _ _)).keeps.1)
    dsimp only
    rw [if_neg (by decide)]
    cases replay
    · simp
    · simp

end

end Sys2Proof.Machine

namespace Sys2Proof
open Machine

/-- Settles O44: links, resets and keys leave the memory alone, and a link that is lost takes what waits on it with it. -/
theorem portsAndHeadsTakeEffect : Obligations.PortsAndHeadsTakeEffect := by
  unfold Obligations.PortsAndHeadsTakeEffect
  refine ⟨fun s h hq hh => ⟨?up, ?noTraining, ?downAlready, ?down, ?downIs, ?reset, ?noHead, ?perst, ?noPerst, ?perstEnds, ?perstStays, ?ideFails,
    ?noIde, ?linkErrors, ?noLinkError, ?noTlp⟩, fun s hq => ⟨?enable, ?locked, ?enabled, ?decoder, ?noDecoder, ?key, ?noKey, ?go, ?noGo, ?doe⟩⟩
  case up =>
    intro rate width flit phy reversed may down least most small shape wide
    have trains := (s.dev.trains_iff h rate width phy).mpr ⟨may, down, least, most, shape, wide, reversed⟩
    have ran : exec (.headLinkUp h rate width flit phy) s = .next (s.did (s.dev.headUp h rate width flit phy)) := s.next_did_congr (if_pos hh)
    obtain ⟨rates, widths, flits, ports, lds⟩ := Dev.headUp_does hh trains flit small
    generalize s.dev.headUp h rate width flit phy = d at ran rates widths flits ports lds
    obtain ⟨kept, sent⟩ := State.did_ports hq ports
    exact ⟨_, ran, (s.did_get _ _).trans rates, (s.did_get _ _).trans widths, (s.did_get _ _).trans flits, kept, lds, sent⟩
  case noTraining =>
    intro rate width flit phy h'
    have fails : s.dev.trains h rate width phy = false := by
      refine Bool.eq_false_iff.mpr fun trains => ?_
      obtain ⟨may, down, least, most, shape, wide, reversed⟩ := (s.dev.trains_iff h rate width phy).mp trains
      rcases h' with no | no | no | no | no | no | ⟨no, no'⟩
      · exact Bool.false_ne_true (no.symm.trans may)
      · exact Bool.false_ne_true (down.symm.trans no)
      · omega
      · omega
      · exact no shape
      · omega
      · rcases reversed with yes | yes
        · exact Bool.false_ne_true (no.symm.trans yes)
        · exact Bool.false_ne_true (yes.symm.trans no')
    exact s.next_same hq ((if_pos hh).trans (Dev.headUp_of_not_trains fails flit))
  case downIs => exact s.next_did_congr (if_pos hh)
  case downAlready =>
    intro calm down
    have same : s.dev.linkDown h 0 = s.dev := if_neg (by rw [down]; exact Bool.false_ne_true)
    exact s.next_same hq ((if_pos hh).trans ((congrArg Dev.gpfCheck same).trans (gpfCheck_of_unfenced calm)))
  case down =>
    intro calm up
    have ports := s.dev.linkDown_onPorts h 0
    have ran : exec (.headLinkDown h) s = .next (s.did (s.dev.linkDown h 0)) :=
      s.next_did_congr ((if_pos hh).trans (gpfCheck_of_unfenced (ports.stays_unfenced calm)))
    have gone := s.dev.linkDown_gone hh 0 up
    have lds := (s.dev.linkDown_leaves h 0).1
    generalize s.dev.linkDown h 0 = d at ports ran gone lds
    obtain ⟨kept, sent⟩ := State.did_ports hq ports
    exact ⟨_, ran, gone, kept, lds, sent⟩
  case reset =>
    intro kind k0 k3 head
    have ran := exec_headReset_of_head s hh k0 k3 head
    refine ⟨ran, fun calm => ?_⟩
    obtain ⟨gone, ports, set0, set1, detect, extents⟩ := s.dev.headReset_does hh
    rw [gpfCheck_of_unfenced (ports.stays_unfenced calm)] at ran
    generalize s.dev.headReset h false = d at ran gone ports set0 set1 detect extents
    obtain ⟨kept, sent⟩ := State.did_ports hq ports
    exact ⟨_, ran, gone, kept, set0, set1, detect, sent, extents⟩
  case noHead =>
    exact fun kind k0 k3 none => s.next_same hq ((if_neg (Nat.not_le.mpr hh)).trans ((if_neg k3).trans ((if_neg k0).trans
      (if_neg (Nat.not_lt.mpr none)))))
  case perst => exact s.next_did_congr ((if_neg (Nat.not_le.mpr hh)).trans ((if_neg (by decide)).trans (if_pos rfl)))
  case noPerst => exact fun off => s.next_same hq ((if_neg (Nat.not_le.mpr hh)).trans ((if_pos rfl).trans (if_pos off)))
  case perstEnds =>
    intro on low
    refine (exec_headReset_of_perst s hh on).trans ?_
    rw [Dev.resetsEnd_of_low _ s.dev low]
    exact s.next_kept hq rfl rfl
  case perstStays =>
    intro on high
    have ran := exec_headReset_of_perst s hh on
    obtain ⟨ports, detect⟩ := Dev.resetsEnd_does (s.dev.headsOf (h / 4)) s.dev high
    generalize (s.dev.headsOf (h / 4)).foldl Dev.resetEnds s.dev = u at ran ports detect
    have books := u.set_books (Reg.HP.PORT_STS.PERST (h / 4)) 0
    have cleared : (u.set (Reg.HP.PORT_STS.PERST (h / 4)) 0).get (Reg.HP.PORT_STS.PERST (h / 4)) = 0 := u.get_set_same _ 0
    generalize u.set (Reg.HP.PORT_STS.PERST (h / 4)) 0 = d at ran books cleared
    obtain ⟨kept, sent⟩ := State.did_ports hq (ports.trans books.onPorts)
    exact ⟨_, ran, (s.did_get _ _).trans cleared, kept, sent, fun H mem => (congrArg Head.detect (books.head H)).trans (detect H (.inl mem))⟩
  case ideFails =>
    intro keyset secure
    have ran := exec_ideIntegrityFailure_of_secure s hh keyset secure
    refine ⟨ran, fun calm up => ?_⟩
    obtain ⟨gone, ports, ide, set0, set1, lds⟩ := s.dev.ideFailed_does hh keyset up
    rw [gpfCheck_of_unfenced (ports.stays_unfenced calm)] at ran
    generalize s.dev.ideFailed h keyset = d at ran gone ports ide set0 set1 lds
    obtain ⟨kept, sent⟩ := State.did_ports hq ports
    exact ⟨_, ran, gone, kept, (s.did_get _ _).trans ide, set0, set1, lds, sent⟩
  case noIde => exact fun keyset none => s.next_same hq (if_pos (.inr none))
  case linkErrors =>
    intro up replay
    obtain ⟨correctable, crc, fec, uncorrectable⟩ := exec_cxlLinkError_kinds hq hh up replay
    refine ⟨correctable, crc, fec, uncorrectable, s.next_kept hq (if_neg (by rw [up]; simp; omega)) ?_⟩
    exact ((Dev.setHead_onPorts _ _ _).trans (Dev.raise_books _ _).onPorts).keeps.1
  case noLinkError =>
    intro kind replay h'
    refine s.next_same hq (if_pos (.inr ?_))
    rcases h' with down | three | more
    · exact .inl (by rw [down]; rfl)
    · exact .inr (.inl three)
    · exact .inr (.inr more)
  case noTlp => exact fun down => s.next_same hq (if_pos (.inr (by rw [down]; rfl)))
  case enable =>
    intro n hn free off ok
    have ran := exec_portEnableWrite_of_free s hn free off
    refine ⟨fun bad => ?_, fun good => ?_⟩
    · rw [Dev.portEnable_of_misfit bad] at ran
      exact ran.trans (s.next_kept hq rfl ((s.dev.setBit_books _ _).trans (Dev.raise_books _ _)).keeps.1)
    · obtain ⟨on, ports, lds, heads, stays, goes⟩ := Dev.portEnable_does hn good
      generalize s.dev.portEnable n = d at ran on ports lds heads stays goes
      obtain ⟨kept, sent⟩ := State.did_ports hq ports
      exact ⟨_, ran, (s.did_bit _ _).trans on, kept, lds, heads, sent, stays, goes⟩
  case locked =>
    exact fun n hn lock => s.next_kept hq ((if_neg (Nat.not_le.mpr hn)).trans (if_pos lock)) (s.dev.discard_books _ _).keeps.1
  case enabled =>
    exact fun n hn lock on => s.next_same hq ((if_neg (Nat.not_le.mpr hn)).trans ((if_neg (by rw [lock]; exact Bool.false_ne_true)).trans (if_pos on)))
  case decoder =>
    intro g i H base size ways gran skip lock hg hi head l prev start ok d
    have inside : ¬ (64 ≤ g ∨ 8 ≤ i ∨ (s.dev.headOfGld g).isNone = true) := by
      rw [head]
      simp
      omega
    have commit : exec (.hdmDecoderCommit g i true base size ways gran skip lock) s =
        .next (s.did (s.dev.decoderCommit g i base size ways gran skip lock)) := s.next_did_congr ((if_neg inside).trans (if_pos rfl))
    refine ⟨fun free fresh => ⟨fun fits => ?_, fun no => ?_⟩, fun taken => ?_, fun free => ?_, fun held => ?_⟩
    · refine commit.trans (s.next_kept hq (Dev.decoderCommit_of_fit free fresh ((s.dev.decoderFits_iff g i base size ways gran skip).mpr fits)) rfl)
    · have misfit := Bool.eq_false_iff.mpr fun k => no ((s.dev.decoderFits_iff g i base size ways gran skip).mp k)
      exact commit.trans (s.next_kept hq (Dev.decoderCommit_of_misfit free fresh misfit head) (Dev.raise_books _ _).keeps.1)
    · exact commit.trans (s.next_same hq (Dev.decoderCommit_of_taken taken))
    · exact s.next_kept hq ((if_neg inside).trans ((if_neg Bool.false_ne_true).trans (if_neg (by rw [free]; exact Bool.false_ne_true)))) rfl
    · exact s.next_same hq ((if_neg inside).trans ((if_neg Bool.false_ne_true).trans (if_pos held)))
  case noDecoder => exact fun g i commit base size ways gran skip lock none => s.next_same hq (if_pos (.inr (.inr (by rw [none]; rfl))))
  case key =>
    intro h set tx key salt hh two on secure
    have ran : exec (.ideKmKeyProg h set ⟨tx, key, salt⟩) s =
        .next (s.did ((s.dev.keyProg h set ⟨tx, key, salt⟩).send (.message (s.dev.ideInst h) 0 [set, if tx then 1 else 0]))) := by
      have inside : ¬ (16 ≤ h ∨ 2 ≤ set ∨ (!s.dev.headOn h) = true ∨ (!s.dev.secured (s.dev.ideInst h)) = true) := by
        rw [on, secure]
        simp
        omega
      exact s.next_did_congr (if_neg inside)
    obtain ⟨link, has, other, ports, regs, lds⟩ := s.dev.keyProg_does h set ⟨tx, key, salt⟩
    have out := ports.keeps.1.trans hq
    generalize s.dev.keyProg h set ⟨tx, key, salt⟩ = d at ran link has other ports regs lds out
    rw [State.did_send_withDev out] at ran
    exact ⟨_, ran, rfl, link, has, other, (ports.keptMemory : keptMemory s (s.did d)), regs, lds⟩
  case noKey =>
    intro h set k h'
    refine s.next_same hq (if_pos ?_)
    rcases h' with high | many | off | open_
    · exact .inl high
    · exact .inr (.inl many)
    · exact .inr (.inr (.inl (by rw [off]; rfl)))
    · exact .inr (.inr (.inr (by rw [open_]; rfl)))
  case go =>
    intro h set cont len hh two up k may
    have inside : ¬ (16 ≤ h ∨ 2 ≤ set ∨ (!s.dev.linkUp h) = true) := by
      rw [up]
      simp
      omega
    refine ⟨fun rx tx allowed some short => ?_, fun missing => ?_, fun rx tx no => ?_⟩
    · have both : ¬ (!(k.rx && k.tx)) = true := by simp [rx, tx]
      have fits : ¬ ((!may) = true ∨ len = 0 ∨ 5 < len) := by
        rw [allowed]
        simp
        omega
      have ran : exec (.kSetGo h set cont len) s = .next (s.did (s.dev.keySetGo h set cont len)) := by
        refine s.next_did_congr ((if_neg inside).trans ((if_neg both).trans ((if_neg fits).trans ?_)))
        unfold Dev.keySetGo Dev.keyTold
        simp only [decide_eq_true_eq]
      obtain ⟨current, length, ide, ports, lds⟩ := s.dev.keySetGo_does hh set cont len
      generalize s.dev.keySetGo h set cont len = d at ran current length ide ports lds
      obtain ⟨kept, sent⟩ := State.did_ports hq ports
      exact ⟨_, ran, current, length, (s.did_get _ _).trans ide, kept, lds, sent⟩
    · refine s.next_kept hq ((if_neg inside).trans (if_pos ?_)) (Dev.raise_books _ _).keeps.1
      rcases missing with no | no
      · show (!(k.rx && k.tx)) = true
        rw [no]
        rfl
      · show (!(k.rx && k.tx)) = true
        rw [no, Bool.and_false]
        rfl
    · have both : ¬ (!(k.rx && k.tx)) = true := by simp [rx, tx]
      refine s.next_same hq ((if_neg inside).trans ((if_neg both).trans (if_pos (no.imp_left fun off => ?_))))
      show (!may) = true
      rw [off]
      rfl
  case noGo => exact fun h set cont len down => s.next_same hq (if_pos (.inr (.inr (by rw [down]; rfl))))
  case doe =>
    intro inst
    have ran : exec (.doeAbort inst) s = .next (s.did (s.dev.doeAbort inst)) := rfl
    unfold Dev.doeAbort at ran
    refine ⟨fun H some => ?_, fun none => ?_⟩
    · simp only [some] at ran
      exact ran.trans (s.next_kept hq rfl (Dev.raise_books _ _).keeps.1)
    · simp only [none] at ran
      exact ran.trans (s.next_same hq rfl)

end Sys2Proof
end

section
/-! SUPPORT. Packets received (R266–R296): the job that opens one, the cases of `receive`, and a packet whose turn has come. -/

namespace Sys2Proof.Machine

/-! ## The engine's jobs change its own state and registers only (R173–R178) -/

/-- `t` is `s` with another state of RNT's engine, other registers, ROW, FCO and PSQ at most. -/
def Dev.OnRnt (s t : Dev) : Prop := ∃ rnt regs row fco psq, t = { s with rnt, regs, row, fco, psq }

theorem Dev.OnRnt.refl (s : Dev) : Dev.OnRnt s s := ⟨s.rnt, s.regs, s.row, s.fco, s.psq, rfl⟩

theorem Dev.OnRnt.trans {s t u : Dev} (h : Dev.OnRnt s t) (k : Dev.OnRnt t u) : Dev.OnRnt s u := by
  obtain ⟨_, _, _, _, _, rfl⟩ := h
  obtain ⟨rnt, regs, row, fco, psq, rfl⟩ := k
  exact ⟨rnt, regs, row, fco, psq, rfl⟩

theorem Dev.Books.onRnt {s t : Dev} (h : Dev.Books s t) : Dev.OnRnt s t := by
  obtain ⟨regs, row, fco, psq, rfl⟩ := h
  exact ⟨s.rnt, regs, row, fco, psq, rfl⟩

theorem Dev.OnRnt.ite {s t u : Dev} {c : Prop} [Decidable c] (h : Dev.OnRnt s t) (k : Dev.OnRnt s u) : Dev.OnRnt s (if c then t else u) := by
  by_cases hc : c
  · rwa [if_pos hc]
  · rwa [if_neg hc]

theorem Dev.OnRnt.clock {s t : Dev} (h : Dev.OnRnt s t) : t.clock = s.clock := by
  obtain ⟨rnt, regs, row, fco, psq, rfl⟩ := h
  rfl

theorem Dev.setRnt_onRnt (s : Dev) (f : Rnt → Rnt) : Dev.OnRnt s (s.setRnt f) := ⟨_, s.regs, s.row, s.fco, s.psq, rfl⟩

theorem Dev.rntEnter_onRnt (s : Dev) : Dev.OnRnt s s.rntEnter := by
  unfold Dev.rntEnter
  refine Dev.OnRnt.trans (s.setRnt_onRnt fun r => { r with waiting := [] }) ?_
  generalize s.rnt.waiting = l
  generalize s.setRnt (fun r => { r with waiting := [] }) = t
  induction l generalizing t with
  | nil => exact .refl t
  | cons j l ih => exact Dev.OnRnt.trans (.ite (t.setRnt_onRnt _) (t.setRnt_onRnt _)) (ih _)

theorem Dev.dispatch_onRnt (s : Dev) (t : Nat) (j : RntJob) (turn taken : Nat) : Dev.OnRnt s (s.dispatch t j turn taken) :=
  (s.setRnt_onRnt _).trans (Dev.rntEnter_onRnt _)

theorem Dev.rntRun_onRnt (s : Dev) (now n : Nat) : Dev.OnRnt s (s.rntRun now n) := by
  induction n generalizing s with
  | zero => exact .refl s
  | succ n ih =>
    unfold Dev.rntRun
    refine .ite (.refl s) ?_
    split
    · exact .refl s
    · split
      · exact .refl s
      · exact .ite (.refl s) ((s.dispatch_onRnt _ _ _ _).trans (ih _))

theorem Dev.rntCatchUp_onRnt (s : Dev) : Dev.OnRnt s s.rntCatchUp :=
  (s.rntRun_onRnt _ _).trans (.ite (Dev.setRnt_onRnt _ _) (.refl _))

theorem Dev.rntAsk_onRnt (s : Dev) (c : Nat) (k : SlotRef) (sweep : Bool) (blocks : Nat) : Dev.OnRnt s (s.rntAsk c k sweep blocks).1 := by
  unfold Dev.rntAsk
  split
  · exact (s.raise_books _).onRnt
  · have counted := (s.count48_books (Reg.RNT.JOBS_LO.COUNT c) (Reg.RNT.JOBS_HI.COUNT c) 1 (Ev.plain 0x07C)).onRnt.trans (Dev.rntCatchUp_onRnt _)
    dsimp only
    generalize (s.count48 (Reg.RNT.JOBS_LO.COUNT c) (Reg.RNT.JOBS_HI.COUNT c) 1 (Ev.plain 0x07C)).rntCatchUp = u at counted
    split
    · exact counted.trans ((u.setRnt_onRnt _).trans (.ite (Dev.raise_books _ _).onRnt (.refl _)))
    · exact counted.trans ((u.setRnt_onRnt _).trans (Dev.rntCatchUp_onRnt _))

theorem Dev.takeCheck_onRnt (s : Dev) : Dev.OnRnt s s.takeCheck.1 := by
  unfold Dev.takeCheck
  split
  · exact .refl s
  · next l _ => exact s.setRnt_onRnt fun r => { r with checks := l }

theorem Dev.katSend_onRnt (s : Dev) (unit : Nat) : Dev.OnRnt s (s.katSend unit) := s.setRnt_onRnt _

theorem Dev.laneCheck_onRnt (s : Dev) (c : Check) (cls : Nat) (encrypts : Bool) (slot : Nat) (epoch : BitVec 5) (tier line : Nat) (tag : BitVec 56) :
    Dev.OnRnt s (s.laneCheck c cls encrypts slot epoch tier line tag).1 := by
  unfold Dev.laneCheck
  split
  · exact .refl s
  · split
    · exact ((s.count_books _ _ _ _).trans (Dev.raise_books _ _)).onRnt
    · exact (s.katSend_onRnt _).trans (Dev.katSend_onRnt _ _)

theorem Dev.gcmJob_onRnt (s : Dev) (c slot bytes : Nat) : Dev.OnRnt s (s.gcmJob c slot bytes).1 := by
  have asked := s.rntAsk_onRnt c (.link slot) false (ceilDiv bytes 16 + 1)
  unfold Dev.gcmJob
  dsimp only
  split
  · exact asked
  · exact asked.trans ((Dev.takeCheck_onRnt _).trans (Dev.laneCheck_onRnt _ _ _ _ _ _ _ _ _))

/-! ## What a packet meets before it is carried out (R266, R269, R276) -/

theorem Dev.pfcSend_form (s : Dev) (h : RxHdr) : ∃ out, s.pfcSend h = { s with out } := by
  unfold Dev.pfcSend
  split
  · exact ⟨_, rfl⟩
  · exact ⟨s.out, rfl⟩

theorem Dev.assoc_pfcSend (s : Dev) (h : RxHdr) (a : Nat) : (s.pfcSend h).assoc a = s.assoc a := by
  obtain ⟨out, form⟩ := s.pfcSend_form h
  rw [form]
  rfl

theorem Dev.filters_pfcSend (s : Dev) (h : RxHdr) (p : Payload) : (s.pfcSend h).filters h p = s.filters h p := by
  obtain ⟨out, form⟩ := s.pfcSend_form h
  rw [form]
  rfl

theorem opened_clock (s : State) (h : RxHdr) (a : Nat) (p : Payload) : (opened s h a p).1.clock = s.dev.clock := by
  obtain ⟨out, form⟩ := s.dev.pfcSend_form h
  have sent : (s.dev.pfcSend h).clock = s.dev.clock := by rw [form]
  exact ((Dev.setRnt_onRnt _ _).trans (Dev.gcmJob_onRnt _ _ _ _)).clock.trans sent

section
variable {s : State} {h : RxHdr} {a : Nat} {p : Payload}

theorem receive_of_no_peer (d : Dev) (h : RxHdr) (p : Payload) (none : d.rxAssoc h.src = .none) : d.receive h p = d.rxDrop := by
  unfold Dev.receive
  simp only [none]

section
variable (known : s.dev.rxAssoc h.src = some a)
include known

/-- A packet from a known peer that the filters or the epoch turn away. -/
theorem receive_of_dropped (turned : (s.dev.pfcSend h).filters h p = true ∨ ((s.dev.assoc a).state ≠ 0 ∧ h.aepoch ≠ (s.dev.assoc a).aepoch)) :
    s.dev.receive h p = (s.dev.pfcSend h).rxDrop := by
  unfold Dev.receive
  simp only [known]
  by_cases filtered : (s.dev.pfcSend h).filters h p = true
  · exact if_pos filtered
  · refine (if_neg filtered).trans (if_pos ?_)
    rw [Dev.assoc_pfcSend]
    exact turned.resolve_left filtered

variable (passes : (s.dev.pfcSend h).filters h p = false)
include passes

/-- No key of the packet's phase is held. -/
theorem receive_of_no_key (closed : (s.dev.assoc a).state = 0 ∨
      (h.aepoch = (s.dev.assoc a).aepoch ∧ (if h.kph then (s.dev.assoc a).phase1 else (s.dev.assoc a).phase0) = false)) :
    let u := s.dev.pfcSend h
    s.dev.receive h p = ((u.count Reg.TWT.ICV_FAIL.COUNT Reg.TWT.ICV_FAIL.SAT 1 (Ev.plain 0x1DC)).raise
      (twRec u 0x1D2 true (some a) h.port h.cid 0 p.opcode h.psn noPlace 0 false)).icvFallback a h p := by
  have epoch : ¬ ((s.dev.assoc a).state ≠ 0 ∧ h.aepoch ≠ (s.dev.assoc a).aepoch) := by
    rintro ⟨up, other⟩
    exact closed.elim up fun k => other k.1
  have unheld : (decide ((s.dev.assoc a).state ≠ 0) && (if h.kph then (s.dev.assoc a).phase1 else (s.dev.assoc a).phase0)) = false := by
    rcases closed with down | ⟨_, none⟩
    · simp [down]
    · rw [none, Bool.and_false]
  unfold Dev.receive
  simp only [known, Dev.assoc_pfcSend, passes, unheld]
  exact (if_neg Bool.false_ne_true).trans ((if_neg epoch).trans (if_pos (.inl rfl)))

variable (up : (s.dev.assoc a).state ≠ 0) (epoch : h.aepoch = (s.dev.assoc a).aepoch)
  (held : (if h.kph then (s.dev.assoc a).phase1 else (s.dev.assoc a).phase0) = true)
include up epoch held

/-- The checks' job fails, or the ICV is not that of the packet's bytes. -/
theorem receive_of_bad_icv (bad : (opened s h a p).2 = false ∨ h.icv ≠ (opened s h a p).1.rxIcv a h p) :
    let u := opened s h a p
    s.dev.receive h p = ((u.1.count Reg.TWT.ICV_FAIL.COUNT Reg.TWT.ICV_FAIL.SAT 1 (Ev.plain 0x1DC)).raise
      (twRec u.1 0x1D2 true (some a) h.port h.cid 0 p.opcode h.psn noPlace 0 (!u.2))).icvFallback a h p := by
  have both : (decide ((s.dev.assoc a).state ≠ 0) && (if h.kph then (s.dev.assoc a).phase1 else (s.dev.assoc a).phase0)) = true := by simp [up, held]
  unfold Dev.receive
  simp only [known, Dev.assoc_pfcSend, passes, both]
  refine (if_neg Bool.false_ne_true).trans ((if_neg (fun k => k.2 epoch)).trans (if_pos ?_))
  exact .inr (bad.imp_left fun fails => by show (!(opened s h a p).2) = true; rw [fails]; rfl)

/-- The TXSEQ is old, or has been seen. -/
theorem receive_of_replay (good : (opened s h a p).2 = true) (icv : h.icv = (opened s h a p).1.rxIcv a h p) (seen : (s.dev.assoc a).fresh h = false) :
    let u := opened s h a p
    s.dev.receive h p = (u.1.count Reg.TWT.REPLAY.COUNT Reg.TWT.REPLAY.SAT 1 (Ev.plain 0x1DC)).raise (twRx u.1 0x1D3 a h p 0 0) := by
  have both : (decide ((s.dev.assoc a).state ≠ 0) && (if h.kph then (s.dev.assoc a).phase1 else (s.dev.assoc a).phase0)) = true := by simp [up, held]
  have agrees : ¬ ((!true) = true ∨ (!(opened s h a p).2) = true ∨ h.icv ≠ (opened s h a p).1.rxIcv a h p) := by
    rw [good]
    simp [← icv]
  unfold Dev.receive
  simp only [known, Dev.assoc_pfcSend, passes, both]
  exact (if_neg Bool.false_ne_true).trans ((if_neg (fun k => k.2 epoch)).trans ((if_neg agrees).trans (if_pos (by rw [seen]; rfl))))

end

/-- A packet that verifies is noted and brings what its opcode says. -/
theorem receive_of_verifies (v : verifies s h a p) : s.dev.receive h p = ((heard s h a p).rxVerified a h p).revokeAll := by
  obtain ⟨known, passes, up, epoch, held, good, icv, fresh⟩ := v
  have both : (decide ((s.dev.assoc a).state ≠ 0) && (if h.kph then (s.dev.assoc a).phase1 else (s.dev.assoc a).phase0)) = true := by simp [up, held]
  have agrees : ¬ ((!true) = true ∨ (!(opened s h a p).2) = true ∨ h.icv ≠ (opened s h a p).1.rxIcv a h p) := by
    rw [good]
    simp [← icv]
  unfold Dev.receive
  simp only [known, Dev.assoc_pfcSend, Dev.filters_pfcSend, passes, both]
  refine (if_neg Bool.false_ne_true).trans ((if_neg (fun k => k.2 epoch)).trans ((if_neg agrees).trans ((if_neg (by rw [fresh]; decide)).trans ?_)))
  unfold heard
  rw [← opened_clock s h a p]
  rfl

/-- A packet of the sequence goes to its connection. -/
theorem rxVerified_of_sequenced (d : Dev) (seq : sequenced p = true) : d.rxVerified a h p = d.rxSequenced a h p := by
  unfold Dev.rxVerified
  split
  case h_7 => rfl
  all_goals exact absurd seq Bool.false_ne_true

/-- Every packet of the table is sealed. -/
theorem sealed_of_packetOf {i : Instr} (row : packetOf i = some (h, p)) : p.sealed = true := by
  unfold packetOf at row
  split at row
  all_goals cases row <;> rfl

/-- A packet outside the sequence with a reserved bit set or a wrong length. -/
theorem rxVerified_of_badOp (d : Dev) {i : Instr} (row : packetOf i = some (h, p)) (seq : sequenced p = false) (bad : h.badOp = true) :
    d.rxVerified a h p = d.refuseNak a h p 0x0A 0 := by
  cases p with
  | keepalive => exact if_pos bad
  | ack psn sack ce pkt ts => exact if_pos bad
  | nak psn code rnr target gen ts => exact if_pos bad
  | readResp => exact if_pos bad
  | hello => exact absurd (sealed_of_packetOf row) Bool.false_ne_true
  | helloRsp => exact absurd (sealed_of_packetOf row) Bool.false_ne_true
  | _ => exact absurd seq.symm Bool.false_ne_true

/-! ## A packet whose turn has come (R278, R284–R292) -/

theorem Dev.assoc_setAssoc_same (s : Dev) (a : Nat) (x : Assoc) : (s.setAssoc a x).assoc a = x := Tab.getD_putD_same _ _ _ _

theorem Dev.conn_setConn_same (s : Dev) (a cid : Nat) (c : Conn) : (s.setConn a cid c).conn a cid = some c := by
  unfold Dev.conn Dev.setConn
  rw [Dev.assoc_setAssoc_same]
  exact Tab.get?_put_same _ _ _

theorem Dev.Books.assoc {s t : Dev} (h : Dev.Books s t) (a : Nat) : t.assoc a = s.assoc a := by
  obtain ⟨regs, row, fco, psq, rfl⟩ := h
  rfl

/-- A closed connection answers that it is. -/
theorem rxSequenced_of_closed {d : Dev} (closed : d.conn a h.cid = none ∨ ∃ c, d.conn a h.cid = some c ∧ c.state = 2) :
    d.rxSequenced a h p = d.refuseNak a h p 0x0B 0 := by
  unfold Dev.rxSequenced
  rcases closed with none | ⟨c, some, two⟩
  · simp only [none]
  · simp only [some]
    exact if_pos two

variable {c : Conn}

theorem started_keeps (c : Conn) (h : RxHdr) : (started c h).window = c.window ∧ (started c h).relaxed = c.relaxed ∧
    (started c h).executed = c.executed := by
  unfold started
  split
  · exact ⟨rfl, rfl, rfl⟩
  · exact ⟨rfl, rfl, rfl⟩

/-- A connection that notes a packet as it is executed (R268, R288, R298). -/
def Conn.noted (k : Conn) (h : RxHdr) (now : Nat) (marked : Bool) : Conn :=
  let c : Conn := { k with used := now, pktCnt := k.pktCnt + 1, lastTs := h.ts,
                           refusals := k.refusals.filter fun q _ => !(q != h.una && decide (psnDist q h.una < 2 ^ 31)) }
  if marked then { c with ceCnt := c.ceCnt + 1 } else c

theorem Conn.noted_keeps (k : Conn) (h : RxHdr) (now : Nat) (marked : Bool) : (k.noted h now marked).window = k.window ∧
    (k.noted h now marked).relaxed = k.relaxed ∧ (k.noted h now marked).exp = k.exp ∧ (k.noted h now marked).executed = k.executed ∧
    (k.noted h now marked).fenceHeld = k.fenceHeld := by
  cases marked
  · exact ⟨rfl, rfl, rfl, rfl, rfl⟩
  · exact ⟨rfl, rfl, rfl, rfl, rfl⟩

/-- The packet carries a congestion mark, or finds the receive buffer filled (R298). -/
def Dev.rxMarked (d : Dev) (h : RxHdr) : Bool :=
  h.ce || (d.bit Reg.CCC.CFG.RX_MARK && decide (d.get Reg.CCC.RX_KMIN.KIB < h.buffer))

/-- The device as the packet is executed. -/
def Dev.noting (d : Dev) (a : Nat) (h : RxHdr) (k : Conn) : Dev :=
  let u := d.setConn a h.cid (k.noted h d.clock (d.rxMarked h))
  if d.rxMarked h then u.count Reg.CCC.CE_RX.COUNT Reg.CCC.CE_RX.SAT 1 (Ev.plain 0x1E4) else u

theorem taken_eq (s : State) (h : RxHdr) (a : Nat) (c : Conn) (p : Payload) : taken s h a c p = (heard s h a p).noting a h (started c h) := by
  unfold taken Dev.noting Conn.noted Dev.rxMarked
  generalize heard s h a p = d
  dsimp only
  cases marked : (h.ce || (d.bit Reg.CCC.CFG.RX_MARK && decide (d.get Reg.CCC.RX_KMIN.KIB < h.buffer)))
  · rfl
  · rfl

theorem Dev.conn_noting (d : Dev) (a : Nat) (h : RxHdr) (k : Conn) : (d.noting a h k).conn a h.cid = some (k.noted h d.clock (d.rxMarked h)) := by
  unfold Dev.noting Dev.conn
  dsimp only
  split
  · rw [(Dev.count_books _ _ _ _ _).assoc a]
    exact Dev.conn_setConn_same d a h.cid _
  · exact Dev.conn_setConn_same d a h.cid _

/-- What is done on an open connection with a packet whose turn has come. -/
def Dev.runTurn (d : Dev) (a : Nat) (h : RxHdr) (p : Payload) (relaxed : Bool) : Dev :=
  if relaxed then (d.runPacket a h.cid h p).runHeld a h.cid 65 else d.runPacket a h.cid h p

theorem rxOpenConn_of_turn (turn : inTurn s h a c p) : (heard s h a p).rxOpenConn a h.cid h p c = (taken s h a c p).runTurn a h p c.relaxed := by
  obtain ⟨_, _, _, _, _, near, mine⟩ := turn
  rw [taken_eq]
  generalize heard s h a p = d
  obtain ⟨sameWindow, sameMode, _⟩ := started_keeps c h
  obtain ⟨window, mode, exp, executed, fences⟩ := (started c h).noted_keeps h d.clock (d.rxMarked h)
  have near' : psnDist ((started c h).noted h d.clock (d.rxMarked h)).exp h.psn < ((started c h).noted h d.clock (d.rxMarked h)).window := by
    rw [exp, window, sameWindow]
    exact near
  unfold Dev.rxOpenConn
  refine (if_pos near').trans ?_
  unfold Dev.runTurn
  have mode' := mode.trans sameMode
  by_cases relaxed : c.relaxed = true
  · rw [if_pos relaxed] at mine
    refine Eq.trans ?_ (if_pos relaxed).symm
    obtain ⟨fresh, first, free⟩ := mine
    refine (if_pos (mode'.trans relaxed)).trans ((if_neg ?_).trans (if_neg ?_))
    · show ¬ ((started c h).noted h d.clock (d.rxMarked h)).executed.has h.psn = true
      rw [executed, fresh]
      exact Bool.false_ne_true
    · show ¬ ((h.fence && psnDist ((started c h).noted h d.clock (d.rxMarked h)).exp h.psn != 0) ||
        ((started c h).noted h d.clock (d.rxMarked h)).fenceBefore h.psn) = true
      have free' : ((started c h).noted h d.clock (d.rxMarked h)).fenceBefore h.psn = false := by
        unfold Conn.fenceBefore
        rw [fences]
        exact free
      rw [exp, first, free']
      exact Bool.false_ne_true
  · rw [if_neg relaxed] at mine
    refine Eq.trans ?_ (if_neg relaxed).symm
    have strict : ¬ ((started c h).noted h d.clock (d.rxMarked h)).relaxed = true := fun k => relaxed (mode'.symm.trans k)
    have next : psnDist ((started c h).noted h d.clock (d.rxMarked h)).exp h.psn = 0 := by
      rw [exp]
      exact mine
    exact (if_neg strict).trans (if_pos next)

/-- A packet of the sequence whose turn has come. -/
theorem receive_of_turn (turn : inTurn s h a c p) (seq : sequenced p = true) :
    s.dev.receive h p = ((taken s h a c p).runTurn a h p c.relaxed).revokeAll := by
  rw [receive_of_verifies turn.1, rxVerified_of_sequenced _ seq, ← rxOpenConn_of_turn turn]
  obtain ⟨_, found, open_, cached, _⟩ := turn
  unfold Dev.rxSequenced
  simp only [found]
  rw [if_neg open_, if_pos cached]

/-- A device with a packet executed: its PSN passed, and acknowledged where it is due. -/
def Dev.passed (d v : Dev) (a : Nat) (h : RxHdr) (gap fence : Bool) (r : RxResult) : Dev :=
  match v.conn a h.cid with
  | none => v
  | some k =>
    let m := k.mark h.psn (r == RxResult.later)
    let ok : Conn := { m with unacked := m.unacked + 1, unackedSince := if m.unacked = 0 then d.clock else m.unackedSince }
    let u := v.setConn a h.cid (if r = RxResult.ok then ok else m)
    let due := match r with
      | .ok => h.ar || fence || gap || decide (v.get Reg.TWT.ACK.COAL_PKTS ≤ m.unacked + 1)
      | .answered => h.ar
      | _ => false
    if due then u.sendAck a h.cid else u

theorem passedWith_eq (d v : Dev) (h : RxHdr) (a : Nat) (c : Conn) (r : RxResult) (fence : Bool) :
    passedWith d v h a c r fence =
      let w := d.passed v a h (c.relaxed && (started c h).exp == h.psn && !c.executed.list.isEmpty) fence r
      (if c.relaxed then w.runHeld a h.cid 65 else w).revokeAll := rfl

theorem Dev.sendAck_of_no_conn {v : Dev} {a cid : Nat} (h : v.conn a cid = none) : v.sendAck a cid = v := by
  unfold Dev.sendAck
  simp only [h]

/-- A packet that is executed passes its PSN. -/
theorem Dev.runPacket_of_executed {d v : Dev} {k : Conn} {r : RxResult} (found : d.conn a h.cid = some k) (run : d.execute a h.cid h p = (v, r))
    (good : r = .ok ∨ r = .later ∨ r = .answered) :
    d.runPacket a h.cid h p = d.passed v a h (k.relaxed && k.exp == h.psn && !k.executed.list.isEmpty) (p == .fence) r := by
  unfold Dev.runPacket Dev.passed
  simp only [found, run]
  cases there : v.conn a h.cid with
  | none =>
    rcases good with rfl | rfl | rfl
    · simp only [Dev.sendAck_of_no_conn there, ite_self]
    · simp only
    · simp only [Dev.sendAck_of_no_conn there, ite_self]
  | some k =>
    rcases good with rfl | rfl | rfl
    · simp only [Dev.conn_setConn_same]
      rfl
    · rfl
    · rfl

/-- A packet whose turn has come and that is executed. -/
theorem receive_of_executed {v : Dev} {r : RxResult} {fence : Bool} (turn : inTurn s h a c p) (seq : sequenced p = true)
    (isFence : (p == .fence) = fence) (run : (taken s h a c p).execute a h.cid h p = (v, r)) (good : r = .ok ∨ r = .later ∨ r = .answered) :
    s.dev.receive h p = passedWith (taken s h a c p) v h a c r fence := by
  obtain ⟨_, sameMode, sameExecuted⟩ := started_keeps c h
  obtain ⟨_, mode, exp, executed, _⟩ := (started c h).noted_keeps h (heard s h a p).clock ((heard s h a p).rxMarked h)
  have found : (taken s h a c p).conn a h.cid = _ := (congrArg (Dev.conn · a h.cid) (taken_eq s h a c p)).trans (Dev.conn_noting _ a h _)
  have ran := Dev.runPacket_of_executed found run good
  rw [mode, exp, executed, sameMode, sameExecuted, isFence] at ran
  rw [receive_of_turn turn seq, passedWith_eq, Dev.runTurn, ran]

/-- A packet whose turn has come and that is refused. -/
theorem receive_of_refused {u : Dev} {code gen : Nat} (turn : inTurn s h a c p) (seq : sequenced p = true)
    (run : (taken s h a c p).execute a h.cid h p = (u, .refuse code gen))
    (room : ∀ k, (taken s h a c p).conn a h.cid = some k → k.refusals.size < 64) :
    let v := match u.conn a h.cid with
      | some k => u.setConn a h.cid { k.mark h.psn false with refusals := (k.mark h.psn false).refusals.put h.psn code }
      | none => u
    let w := v.refuseNak a h p code gen
    s.dev.receive h p = (if c.relaxed then w.runHeld a h.cid 65 else w).revokeAll := by
  have found : (taken s h a c p).conn a h.cid = _ := (congrArg (Dev.conn · a h.cid) (taken_eq s h a c p)).trans (Dev.conn_noting _ a h _)
  have few := room _ found
  rw [receive_of_turn turn seq]
  unfold Dev.runTurn
  generalize (started c h).noted h (heard s h a p).clock ((heard s h a p).rxMarked h) = k at found few
  have ran : (taken s h a c p).runPacket a h.cid h p = (match u.conn a h.cid with
      | some k => u.setConn a h.cid { k.mark h.psn false with refusals := (k.mark h.psn false).refusals.put h.psn code }
      | none => u).refuseNak a h p code gen := by
    unfold Dev.runPacket
    simp only [found, run]
    exact if_neg (by simp; omega)
  rw [ran]

/-- A packet whose turn has come and whose target is not ready. -/
theorem receive_of_not_ready {u : Dev} (turn : inTurn s h a c p) (seq : sequenced p = true)
    (run : (taken s h a c p).execute a h.cid h p = (u, .rnr)) :
    let w := u.sendNak a h h.psn 0x02 10 p.place.1 0
    s.dev.receive h p = (if c.relaxed then w.runHeld a h.cid 65 else w).revokeAll := by
  have found : (taken s h a c p).conn a h.cid = _ := (congrArg (Dev.conn · a h.cid) (taken_eq s h a c p)).trans (Dev.conn_noting _ a h _)
  have ran : (taken s h a c p).runPacket a h.cid h p = u.sendNak a h h.psn 0x02 10 p.place.1 0 := by
    unfold Dev.runPacket
    simp only [found, run]
  rw [receive_of_turn turn seq]
  unfold Dev.runTurn
  rw [ran]

end

end Sys2Proof.Machine
end

section
/-! SUPPORT. What each opcode of a received packet does in its turn (R271, R285): O51. -/

namespace Sys2Proof.Machine

section
variable {s : State} {h : RxHdr} {a : Nat} {c : Conn} {p : Payload}

theorem good_of_turn (turn : inTurn s h a c p) : ¬ h.badOp = true := by
  obtain ⟨_, _, _, _, good, _⟩ := turn
  rw [good]
  exact Bool.false_ne_true

/-- A packet of the sequence that is executed at once. -/
theorem receive_of_ok {v : Dev} (turn : inTurn s h a c p) (seq : sequenced p = true) (other : (p == .fence) = false)
    (run : (taken s h a c p).execute a h.cid h p = (v, .ok)) : s.dev.receive h p = passedWith (taken s h a c p) v h a c .ok false :=
  receive_of_executed turn seq other run (.inl rfl)

/-- A packet whose execution answers by itself what became of it. -/
theorem receive_of_run {q : Dev × RxResult} (turn : inTurn s h a c p) (seq : sequenced p = true) (other : (p == .fence) = false)
    (run : (taken s h a c p).execute a h.cid h p = q) (good : q.2 = .ok ∨ q.2 = .later ∨ q.2 = .answered) :
    s.dev.receive h p = passedWith (taken s h a c p) q.1 h a c q.2 false :=
  receive_of_executed turn seq other run good

theorem receive_of_run_ok {q : Dev × RxResult} (turn : inTurn s h a c p) (seq : sequenced p = true) (other : (p == .fence) = false)
    (run : (taken s h a c p).execute a h.cid h p = q) (good : q.2 = .ok) :
    s.dev.receive h p = passedWith (taken s h a c p) q.1 h a c .ok false := by
  rw [receive_of_run turn seq other run (.inl good), good]

/-- A lease message carried out: a request to the referee, or an answer from it. -/
theorem receive_lease {k : Nat} {m : LeaseMsg} (turn : inTurn s h a c (.lease { m with subtype := k })) :
    (k ≤ 5 → s.dev.receive h (.lease { m with subtype := k }) = passedWith (taken s h a c (.lease { m with subtype := k }))
      ((taken s h a c (.lease { m with subtype := k })).referee ((taken s h a c (.lease { m with subtype := k })).assoc a).member { m with subtype := k })
      h a c .ok false) ∧
    (5 < k → (taken s h a c (.lease { m with subtype := k })).bit Reg.MIR.CFG.REF_HOST = false →
      ((taken s h a c (.lease { m with subtype := k })).assoc a).member = (taken s h a c (.lease { m with subtype := k })).get Reg.MIR.CFG.REF_MEMBER →
      s.dev.receive h (.lease { m with subtype := k }) = passedWith (taken s h a c (.lease { m with subtype := k }))
        ((taken s h a c (.lease { m with subtype := k })).leaseAnswer { m with subtype := k }) h a c .ok false) ∧
    (5 < k → (taken s h a c (.lease { m with subtype := k })).bit Reg.MIR.CFG.REF_HOST = true ∨
        ((taken s h a c (.lease { m with subtype := k })).assoc a).member ≠ (taken s h a c (.lease { m with subtype := k })).get Reg.MIR.CFG.REF_MEMBER →
      s.dev.receive h (.lease { m with subtype := k }) = passedWith (taken s h a c (.lease { m with subtype := k }))
        (taken s h a c (.lease { m with subtype := k })) h a c .ok false) := by
  have good := good_of_turn turn
  have ran {v : Dev} := receive_of_ok (v := v) turn rfl rfl
  generalize taken s h a c (.lease { m with subtype := k }) = d at ran
  refine ⟨fun few => ran ((if_neg good).trans (if_pos few)), fun many host from_ => ran ((if_neg good).trans ((if_neg (Nat.not_le.mpr many)).trans
    (if_pos ?_))), fun many other => ran ((if_neg good).trans ((if_neg (Nat.not_le.mpr many)).trans (if_neg ?_)))⟩
  · rw [host, from_, BEq.rfl]
    rfl
  · rcases other with host | other
    · rw [host]
      exact Bool.false_ne_true
    · rw [Bool.and_eq_true]
      exact fun k => other (eq_of_beq k.2)

end

end Sys2Proof.Machine

namespace Sys2Proof
open Machine

/-- Settles O51: by the cases of `receive`, and for a packet in its turn by its opcode. -/
theorem packetsAreCarriedOut : Obligations.PacketsAreCarriedOut := by
  unfold Obligations.PacketsAreCarriedOut
  intro s a
  refine ⟨?received, ?noPeer, ?dropped, ?noKey, ?unverified, ?badOp, ?closed, ?outside, ?refused, ?notReady, ?turn, ?fence⟩
  case received =>
    intro i h p row
    unfold packetOf at row
    split at row
    all_goals cases row <;> rfl
  case noPeer => exact fun h p none => receive_of_no_peer s.dev h p none
  case dropped => exact fun h p known turned => receive_of_dropped known turned
  case noKey => exact fun h p known passes closed => receive_of_no_key known passes closed
  case unverified =>
    intro h p known passes up epoch held u
    exact ⟨receive_of_bad_icv known passes up epoch held, receive_of_replay known passes up epoch held⟩
  case badOp =>
    intro i h p row v seq bad
    rw [receive_of_verifies v, rxVerified_of_badOp _ row seq bad]
  case closed =>
    intro h p v seq closed
    rw [receive_of_verifies v, rxVerified_of_sequenced _ seq, rxSequenced_of_closed closed]
  case outside =>
    intro h good
    have go : ¬ h.badOp = true := by
      rw [good]
      exact Bool.false_ne_true
    have ran {p : Payload} {d : Dev} (v : verifies s h a p) (does : (heard s h a p).rxVerified a h p = d) :
        (Host.Outcome.next (s.did (s.dev.receive h p)) : Answer) = .next (s.did d.revokeAll) := by
      rw [receive_of_verifies v, does]
    refine ⟨fun v => ran v (if_neg go), fun psn sack ce pkt ts v => ran v (if_neg go), fun psn code rnr target gen ts v => ran v (if_neg go), ?_⟩
    intro loan target gen granule count addr tag dup poison valid service tgtGen lines p v
    exact ran v (if_neg go)
  case refused => exact fun h p c u code gen turn seq run room => receive_of_refused turn seq run room
  case notReady => exact fun h p c u turn seq run => receive_of_not_ready turn seq run
  case fence =>
    intro h c g d turn applies
    exact s.next_did_congr (receive_of_executed turn rfl rfl ((if_neg (good_of_turn turn)).trans (if_pos applies)) (.inl rfl))
  case turn =>
    intro h c d ok
    refine ⟨fun zero => ⟨?_, ?_, ?_, ?_⟩, ?_, ?_, ?_, ?_, ?_, ?_, ?_, ?_, ?_, ?_, ?_, ?_⟩
    · intro cid relaxed purpose window lane prio psn p turn wide narrow
      refine s.next_did_congr (receive_of_ok turn rfl rfl ((if_neg (good_of_turn turn)).trans (if_neg ?_)))
      omega
    · intro cid relaxed purpose window lane prio psn status p turn
      exact s.next_did_congr (receive_of_ok turn rfl rfl ((if_neg (good_of_turn turn)).trans (if_neg (not_not_intro zero))))
    · intro cid turn
      exact s.next_did_congr (receive_of_ok turn rfl rfl ((if_neg (good_of_turn turn)).trans (if_neg (not_not_intro zero))))
    · intro nonce turn
      exact s.next_did_congr (receive_of_ok turn rfl rfl ((if_neg (good_of_turn turn)).trans (if_neg (not_not_intro zero))))
    · intro lane recs p turn good
      exact s.next_did_congr (receive_of_run_ok turn rfl rfl (if_neg (good_of_turn turn)) good)
    · intro frag last cmd p q turn good
      exact s.next_did_congr (receive_of_run turn rfl rfl (if_neg (good_of_turn turn))
        (good.imp_right .inl))
    · intro loan target gen granule count addr tag p q turn good
      have ran := receive_of_run turn rfl rfl (if_neg (good_of_turn turn)) (q := q) (.inr good.symm)
      exact s.next_did_congr (congrArg Dev.settle ran)
    · intro loan target gen granule count addr tag lines p q turn good
      exact s.next_did_congr (receive_of_run_ok turn rfl rfl (if_neg (good_of_turn turn)) good)
    · intro m p goes
      have asks (k : Nat) (few : k ≤ 5) (turn : inTurn s h a c (p k)) : (Host.Outcome.next (s.did (s.dev.receive h (p k))) : Answer) = goes k :=
        s.next_did_congr ((receive_lease turn).1 few)
      refine ⟨asks 1 (by decide), asks 2 (by decide), asks 3 (by decide), asks 4 (by decide), asks 5 (by decide), ?_⟩
      rintro k (rfl | rfl) turn
      · obtain ⟨_, heeded, ignored⟩ := receive_lease turn
        exact ⟨fun host from_ => s.next_did_congr (heeded (by decide) host from_), fun other => s.next_did_congr (ignored (by decide) other)⟩
      · obtain ⟨_, heeded, ignored⟩ := receive_lease turn
        exact ⟨fun host from_ => s.next_did_congr (heeded (by decide) host from_), fun other => s.next_did_congr (ignored (by decide) other)⟩
    · intro entries last joined p q turn good
      exact s.next_did_congr (receive_of_run turn rfl rfl (if_neg (good_of_turn turn))
        (good.imp_right .inl))
    · intro runs last p turn good
      exact s.next_did_congr (receive_of_run_ok turn rfl rfl (if_neg (good_of_turn turn)) good)
    · intro runs last region p turn good
      exact s.next_did_congr (receive_of_run_ok turn rfl rfl (if_neg (good_of_turn turn)) good)
    · intro t turn
      exact s.next_did_congr (receive_of_ok turn rfl rfl (if_neg (good_of_turn turn)))
    · intro j turn
      exact s.next_did_congr (receive_of_ok turn rfl rfl (if_neg (good_of_turn turn)))
    · intro member reason p turn
      exact s.next_did_congr (receive_of_ok turn rfl rfl (if_neg (good_of_turn turn)))
    · intro m p turn t
      have ran : (Host.Outcome.next (s.did (s.dev.receive h p)) : Answer) = t :=
        s.next_did_congr (receive_of_ok turn rfl rfl (if_neg (good_of_turn turn)))
      have said {i : Instr} {l : LoanMsg} (same : m = l) (does : exec i s = .next (s.did (s.dev.receive h (.loanMsg l)))) : exec i s = t := by
        rw [does, ← same]
        exact ran
      exact ⟨fun same => said same rfl, fun same => said same rfl, fun same => said same rfl, fun same => said same rfl, fun same => said same rfl,
        fun same => said same rfl⟩

end Sys2Proof
end

section
/-! SUPPORT. Associations of the Twinset transport (R275–R277, R282, R291, R299): opening, keying, going down, and what is sent again. -/

namespace Sys2Proof.Machine

/-! ## Associations, connections and ports -/

theorem Dev.assoc_setAssoc_ne (s : Dev) {a b : Nat} (h : b ≠ a) (x : Assoc) : (s.setAssoc a x).assoc b = s.assoc b := Tab.getD_putD_ne _ h _ _ _

theorem Dev.Books.fields {s t : Dev} (h : Dev.Books s t) : t.paused = s.paused ∧ t.txHeld = s.txHeld ∧ t.round = s.round ∧ t.out = s.out ∧
    t.frames = s.frames ∧ t.assocs = s.assocs ∧ t.island = s.island := by
  obtain ⟨regs, row, fco, psq, rfl⟩ := h
  exact ⟨rfl, rfl, rfl, rfl, rfl, rfl, rfl⟩

theorem mem_setBits_lt {n x i : Nat} (h : i ∈ setBits n x) : i < n := List.mem_range.mp (List.mem_filter.mp h).1

/-- The port of a connection hangs on its association's port mask and on the ports' speeds. -/
theorem Dev.portOf_congr {s t : Dev} {a : Nat} (mask : (t.assoc a).portMask = (s.assoc a).portMask)
    (speed : ∀ p, p < 4 → t.get (Reg.TWL.PORT_STS.SPEED p) = s.get (Reg.TWL.PORT_STS.SPEED p)) (cid : Nat) : t.portOf a cid = s.portOf a cid := by
  have same : t.portsOf a = s.portsOf a := by
    unfold Dev.portsOf
    rw [mask]
    exact List.filter_congr fun p hp => congrArg (· != 0) (speed p (mem_setBits_lt hp))
  unfold Dev.portOf
  rw [same]

/-! ## Opening and keying (R275, R276) -/

/-- An association that opens, before its HELLO leaves. -/
def Dev.opening (s : Dev) (a : Nat) : Dev :=
  let x := s.assoc a
  s.random.2.setAssoc a { x with state := 1, nonce := some s.random.1, aepoch := (x.storedEpoch + 1) % 65536, phase0 := false, phase1 := false,
                                 lastRx := s.clock }

theorem Dev.assocOpen_of_down {s : Dev} {a : Nat} (ha : a < 48) (down : (s.assoc a).state = 0) :
    let e := ((s.assoc a).storedEpoch + 1) % 65536
    let k := if (s.assoc a).secret then 1 else 0
    let u := s.opening a
    s.assocOpen a = u.sendHello a (.hello s.random.1 u.island.deviceHash k e (u.helloMacTx a e k (.hello s.random.1 u.island.deviceHash k e 0))) :=
  if_neg (by rw [down]; omega)

theorem Dev.assoc_opening (s : Dev) (a : Nat) : (s.opening a).assoc a =
    { s.assoc a with state := 1, nonce := some s.random.1, aepoch := ((s.assoc a).storedEpoch + 1) % 65536, phase0 := false, phase1 := false,
                     lastRx := s.clock } := Dev.assoc_setAssoc_same _ _ _

/-- An opening association sends HELLO in clear, on the port it transmits on if it has one. -/
theorem Dev.sendHello_cases (s : Dev) (a : Nat) (p : Payload) : (s.portOf a 0 = none → s.sendHello a p = s) ∧
    ∀ port, s.portOf a 0 = some port → s.sendHello a p =
      s.send (.packet a 0 0 (s.txHdr { assoc := a, cid := 0, psn := 0, payload := p, flags := {}, prio := 2 } port) p) := by
  unfold Dev.sendHello
  refine ⟨fun none => ?_, fun port some => ?_⟩
  · simp only [none]
  · simp only [some]

/-- What keying phase 0 leaves of an association (R276). -/
def Assoc.keyed (x : Assoc) (now aepoch : Nat) (first byRound : Bool) : Assoc :=
  { x with state := 1, kph := false, aepoch, storedEpoch := aepoch, phase0 := true, phase1 := false, initiator := first, byRound, nonce := none
           rekeySent := none, rekeyGot := none, retire := none, txSeq := 0, rxHigh := .empty, rxSeen := .empty, lastRx := now, lastTx := now }

theorem Dev.assoc_keyed0 (s : Dev) (a aepoch : Nat) (first byRound : Bool) (own peer : Nat) :
    (s.keyed0 a aepoch first byRound own peer).assoc a = (s.assoc a).keyed s.clock aepoch first byRound ∧
    ∀ b, b ≠ a → (s.keyed0 a aepoch first byRound own peer).assoc b = s.assoc b :=
  ⟨s.assoc_setAssoc_same a _, fun _ h => s.assoc_setAssoc_ne h _⟩

/-! ## Going down, changing keys (R277) -/

/-- With no loan of any lender there is none to drop. -/
theorem Dev.dropLender_of_none (s : Dev) (h : s.round.borrow.list = []) (m : Nat) (lost : Bool) : s.dropLender m lost = s := by
  unfold Dev.dropLender Tab.keys
  rw [h]
  exact if_neg (by simp)

theorem Dev.assoc_dropKeys (s : Dev) (a : Nat) (phase : Bool) (b : Nat) : (s.dropKeys a phase).assoc b = s.assoc b := rfl

/-- An association that is DOWN, its keys dropped. -/
def Dev.silenced (s : Dev) (a : Nat) : Dev :=
  ((s.setAssoc a { s.assoc a with state := 0, phase0 := false, phase1 := false, nonce := none, rekeySent := none, rekeyGot := none
                                  retire := none }).dropKeys a false).dropKeys a true

theorem Dev.silenced_form (s : Dev) (a : Nat) : ∃ assocs island, s.silenced a = { s with assocs, island } := ⟨_, _, rfl⟩

theorem Dev.silenced_does (s : Dev) (a : Nat) : (s.silenced a).assoc a =
      { s.assoc a with state := 0, phase0 := false, phase1 := false, nonce := none, rekeySent := none, rekeyGot := none, retire := none } ∧
    (∀ b, b ≠ a → (s.silenced a).assoc b = s.assoc b) ∧ (s.silenced a).regs = s.regs ∧ (s.silenced a).frames = s.frames ∧
    (s.silenced a).out = s.out ∧ (s.silenced a).round = s.round := by
  have same : (s.silenced a).regs = s.regs ∧ (s.silenced a).frames = s.frames ∧ (s.silenced a).out = s.out ∧ (s.silenced a).round = s.round := by
    obtain ⟨assocs, island, form⟩ := s.silenced_form a
    rw [form]
    exact ⟨rfl, rfl, rfl, rfl⟩
  refine ⟨?_, fun b h => ?_, same⟩
  all_goals unfold Dev.silenced
  · rw [Dev.assoc_dropKeys, Dev.assoc_dropKeys, Dev.assoc_setAssoc_same]
  · rw [Dev.assoc_dropKeys, Dev.assoc_dropKeys, Dev.assoc_setAssoc_ne _ h]

/-- An association that goes down, with no connection, no pair and no loan. -/
theorem Dev.assocDown_of_alone {s : Dev} {a : Nat} (alone : (s.assoc a).conns.list = []) (single : s.bit Reg.MIR.CFG.PAIRED = false)
    (free : s.round.borrow.list = []) :
    s.assocDown a = (s.silenced a).raise (twEv (s.silenced a) 0x1D1 true (some a) 0 0 0 0 noPlace 0 false) := by
  obtain ⟨_, _, regs, _, _, round⟩ := s.silenced_does a
  have keys : (s.assoc a).conns.keys = [] := by
    unfold Tab.keys
    rw [alone]
    rfl
  have down : s.assocDown a =
      let d := (s.silenced a).raise (twEv (s.silenced a) 0x1D1 true (some a) 0 0 0 0 noPlace 0 false)
      (if d.bit Reg.MIR.CFG.PAIRED = true ∧ a = d.twin then d.startDetach else d).dropLender (s.assoc a).member true := by
    unfold Dev.assocDown
    dsimp only
    rw [keys]
    rfl
  rw [down]
  generalize (s.silenced a) = u at regs round
  generalize twEv u 0x1D1 true (some a) 0 0 0 0 noPlace 0 false = e
  have pair : ¬ ((u.raise e).bit Reg.MIR.CFG.PAIRED = true ∧ a = (u.raise e).twin) := by
    rintro ⟨paired, _⟩
    have get : (u.raise e).get Reg.MIR.CFG.PAIRED = u.get Reg.MIR.CFG.PAIRED := u.get_raise_of_addr (by decide) (by decide) e
    have same : (u.raise e).bit Reg.MIR.CFG.PAIRED = s.bit Reg.MIR.CFG.PAIRED := by
      unfold Dev.bit
      rw [get]
      unfold Dev.get
      rw [regs]
    rw [same, single] at paired
    exact Bool.false_ne_true paired
  have loans : (u.raise e).round.borrow.list = [] := by
    rw [(u.raise_books e).fields.2.2.1, round]
    exact free
  dsimp only
  rw [if_neg pair]
  exact Dev.dropLender_of_none _ loans _ _

theorem Dev.rekeyAsk_of_up {s : Dev} {a : Nat} {c : Conn} (found : s.conn a 0 = some c) (up : (s.assoc a).state = 2) (fresh : (s.assoc a).rekeySent = none) :
    s.rekeyAsk a = s.random.2.setAssoc a { s.assoc a with
      state := 3, rekeySent := some s.random.1
      conns := (s.assoc a).conns.put 0 { c with nextPsn := psnNext c.nextPsn,
                                                sent := c.sent.put c.nextPsn { payload := .rekey s.random.1, at_ := s.clock, unsent := true } } } := by
  unfold Dev.conn at found
  unfold Dev.rekeyAsk
  simp only [found]
  exact if_neg (by rw [up, fresh]; decide)

/-- The old key phase is given up. -/
def Dev.retired (s : Dev) (a : Nat) : Dev :=
  let x := s.assoc a
  (s.setAssoc a { x with retire := none, state := 2, phase0 := x.phase0 && !x.kph, phase1 := x.phase1 && x.kph }).dropKeys a (!x.kph)

theorem linkSlot_dirs (a : Nat) (phase : Bool) : linkSlot a phase true ≠ linkSlot a phase false := by
  unfold linkSlot
  simp

theorem Dev.retired_does (s : Dev) (a : Nat) : (s.retired a).assoc a =
      { s.assoc a with retire := none, state := 2, phase0 := (s.assoc a).phase0 && !(s.assoc a).kph, phase1 := (s.assoc a).phase1 && (s.assoc a).kph } ∧
    (∀ b, b ≠ a → (s.retired a).assoc b = s.assoc b) ∧ (s.retired a).island.links.get? (linkSlot a (!(s.assoc a).kph) true) = none ∧
    (s.retired a).island.links.get? (linkSlot a (!(s.assoc a).kph) false) = none ∧ (s.retired a).out = s.out :=
  ⟨s.assoc_setAssoc_same a _, fun _ h => s.assoc_setAssoc_ne h _, (Tab.get?_del_ne _ (linkSlot_dirs a _)).trans (Tab.get?_del_same _ _),
    Tab.get?_del_same _ _, rfl⟩

/-! ## A request sent again (R283, R291) -/

/-- A packet of a paused priority is held. -/
theorem Dev.transmit_of_paused {s : Dev} {h : TxHeld} {p : Nat} (port : s.portOf h.assoc h.cid = some p)
    (paused : s.paused.has (p * 8 + s.pcp h.prio) = true) : s.transmit h = { s with txHeld := s.txHeld ++ [h] } := by
  unfold Dev.transmit
  simp only [port]
  exact if_pos paused

/-- A request that is sent again while its priority is paused is held, with AR and RETX. -/
theorem Dev.resend_of_paused {s : Dev} {a cid psn p : Nat} {c : Conn} {e : Sent} (found : s.conn a cid = some c) (sent : c.sent.get? psn = some e)
    (port : s.portOf a cid = some p) (paused : s.paused.has (p * 8 + s.pcp c.prio) = true) :
    (s.resend a cid psn).txHeld = s.txHeld ++
      [{ assoc := a, cid, psn, payload := e.payload, flags := { ar := true, fence := e.fence, retx := true }, prio := c.prio }] ∧
    (s.resend a cid psn).out = s.out := by
  let v := s.setConn a cid { c with sent := c.sent.put psn { e with at_ := s.clock, ar := true, rnr := none } }
  let u := v.count Reg.TWT.RETX_CTR.COUNT Reg.TWT.RETX_CTR.SAT 1 (Ev.plain 0x1DC)
  have again : s.resend a cid psn =
      u.transmit { assoc := a, cid, psn, payload := e.payload, flags := { ar := true, fence := e.fence, retx := true }, prio := c.prio } := by
    unfold Dev.resend
    simp only [found, sent]
    rfl
  have books : Dev.Books v u := v.count_books _ _ _ _
  obtain ⟨pausedSame, heldSame, _, outSame, _⟩ := books.fields
  have get {f : Field} (h1 : f.addr ≠ 0x740090) (h2 : f.addr ≠ 0x8c0024) (lo : f.lo < 32) : u.get f = s.get f :=
    v.get_count_of_addr (c := Reg.TWT.RETX_CTR.COUNT) (sat := Reg.TWT.RETX_CTR.SAT) h1 h1 h2 lo (by decide) (by decide) 1 _
  have mask : (u.assoc a).portMask = (s.assoc a).portMask := by
    rw [books.assoc a]
    exact (congrArg Assoc.portMask (s.assoc_setAssoc_same a _)).trans rfl
  have port' : u.portOf a cid = some p := by
    refine (Dev.portOf_congr mask (fun q hq => get ?_ ?_ (of_decide_eq_true rfl)) cid).trans port
    · show 0x700010 + 0x4 * q ≠ 0x740090
      omega
    · show 0x700010 + 0x4 * q ≠ 0x8c0024
      omega
  have class_ : u.pcp c.prio = s.pcp c.prio := by
    unfold Dev.pcp
    rw [get (f := Reg.TWT.TAG.PCP_DATA) (by decide) (by decide) (by decide), get (f := Reg.TWT.TAG.PCP_LANE) (by decide) (by decide) (by decide),
      get (f := Reg.TWT.TAG.PCP_CTRL) (by decide) (by decide) (by decide)]
  have paused' : u.paused.has (p * 8 + u.pcp c.prio) = true := by
    rw [class_, pausedSame]
    exact paused
  rw [again, Dev.transmit_of_paused (h := { assoc := a, cid, psn, payload := e.payload, flags := { ar := true, fence := e.fence, retx := true },
                                            prio := c.prio }) port' paused']
  exact ⟨congrArg (· ++ _) heldSame, outSame⟩

/-! ## Timeouts, rates and contexts (R282, R289, R291, R299) -/

section
variable {s : Dev} {a cid psn : Nat} {c : Conn} {e : Sent} (found : s.conn a cid = some c)
include found

section
variable (sent : c.sent.get? psn = some e)
include sent

theorem Dev.rtoExpired_of_idle (idle : c.state ≠ 1 ∨ e.unsent = true ∨ e.rnr ≠ none ∨ (c.relaxed = true ∧ e.sacked = true)) :
    s.rtoExpired a cid psn = s := by
  unfold Dev.rtoExpired
  simp only [found, sent]
  exact if_pos (idle.imp_right fun h => h.imp_right fun h => h.imp_left Option.isSome_iff_ne_none.mpr)

/-- A request that waits for its acknowledgement times out. -/
theorem Dev.rtoExpired_of_waiting (open_ : c.state = 1) (out : e.unsent = false) (ready : e.rnr = none) (missing : c.relaxed = true → e.sacked = false) :
    let u := s.at (e.at_ + s.get Reg.TWT.RETX.RTO_US * 2 ^ min e.timeouts (s.get Reg.TWT.RETX.BACKOFF) * fclkUs)
    s.rtoExpired a cid psn =
      if s.get Reg.TWT.RETX.RETRY_MAX ≤ e.timeouts + 1 then u.connError a cid 0 psn
      else
        let v := u.setConn a cid { c with sent := c.sent.put psn { e with timeouts := e.timeouts + 1 } }
        if c.relaxed then v.resend a cid psn else v.goBack a cid c.una := by
  have waits : ¬ (c.state ≠ 1 ∨ e.unsent = true ∨ e.rnr.isSome = true ∨ (c.relaxed = true ∧ e.sacked = true)) := by
    rw [out, ready]
    rintro (h | h | h | ⟨h, k⟩)
    · exact h open_
    · exact Bool.false_ne_true h
    · exact Bool.false_ne_true h
    · exact Bool.false_ne_true ((missing h).symm.trans k)
  unfold Dev.rtoExpired
  simp only [found, sent]
  exact if_neg waits

end

theorem Dev.refillDone_of_idle (idle : c.refill = false) (lost : Bool) : s.refillDone a cid lost = s := by
  unfold Dev.refillDone
  simp only [found]
  exact if_pos (by rw [idle]; rfl)

variable (refill : c.refill = true)
include refill

/-- A context that cannot be read back closes its connection. -/
theorem Dev.refillDone_of_lost {lost : Bool}
    (gone : ((s.at (c.refillAt + refillFclk)).xptReadAll c.context).2 = false ∨
      (lost = true ∧ ((s.at (c.refillAt + refillFclk)).xptReadAll c.context).1.chanCount < 2)) :
    let v := ((s.at (c.refillAt + refillFclk)).xptReadAll c.context).1.setConn a cid { c with refill := false, cached := true, refillHeld := [] }
    s.refillDone a cid lost = (v.connError a cid 0 0).raise (twEv v 0x1E2 true (some a) cid 0 0 0 noPlace 0 false) := by
  unfold Dev.refillDone
  simp only [found]
  exact (if_neg (by rw [refill]; decide)).trans (if_pos (gone.imp_left fun h => by rw [h]; rfl))

/-- A context that comes back on chip, with nothing held for it and no rate control. -/
theorem Dev.refillDone_of_read {lost : Bool} (read : ((s.at (c.refillAt + refillFclk)).xptReadAll c.context).2 = true)
    (kept : lost = false ∨ 2 ≤ ((s.at (c.refillAt + refillFclk)).xptReadAll c.context).1.chanCount) (none : c.refillHeld = [])
    (free : ((s.at (c.refillAt + refillFclk)).xptReadAll c.context).1.bit Reg.CCC.CFG.CC_EN = false) :
    let u := ((s.at (c.refillAt + refillFclk)).xptReadAll c.context).1
    s.refillDone a cid lost =
      (((u.setConn a cid { c with refill := false, cached := true, refillHeld := [], used := u.clock }).pump a cid).retryContexts).settle := by
  unfold Dev.refillDone
  simp only [found]
  refine (if_neg (by rw [refill]; decide)).trans ?_
  generalize (s.at (c.refillAt + refillFclk)).xptReadAll c.context = r at read kept free
  refine (if_neg ?_).trans ?_
  · rw [read]
    rintro (h | ⟨h, k⟩)
    · exact Bool.false_ne_true h
    · rcases kept with no | two
      · exact Bool.false_ne_true (no.symm.trans h)
      · omega
  · rw [none, if_neg (by rw [free]; simp)]
    simp only [Nat.zero_mul, Nat.add_zero, List.foldl_nil]
    rfl

end

end Sys2Proof.Machine
end

section
/-! SUPPORT. Links, associations and timers of the Twinset transport: O50. -/

namespace Sys2Proof.Machine

theorem Dev.rxDrop_books (s : Dev) : Dev.Books s s.rxDrop := s.count_books _ _ 1 _

section
variable {a : Nat}

/-- HELLO that fails a check. -/
theorem rxHello_of_bad {d : Dev} {h : RxHdr} {nonce idHash secret e mac : Nat} (known : d.rxAssoc h.src = some a)
    (passes : d.filters h (.hello nonce idHash secret e mac) = false)
    (bad : d.secretHeld secret = false ∨ d.helloOk h secret mac (.hello nonce idHash secret e mac) = false ∨ d.permittedId h.src idHash = false ∨
      (e + 65536 - (d.assoc a).storedEpoch % 65536) % 65536 = 0 ∨ 2 ^ 15 ≤ (e + 65536 - (d.assoc a).storedEpoch % 65536) % 65536) :
    d.rxHello h nonce idHash secret e mac = d.raise (twRec d 0x1D9 true (some a) h.port 0 0 0x01 0 noPlace 0 false) := by
  unfold Dev.rxHello
  simp only [known]
  refine (if_neg (by rw [passes]; exact Bool.false_ne_true)).trans (if_pos ?_)
  rcases bad with h | h | h | h | h
  · exact .inl (by rw [h]; rfl)
  · exact .inr (.inl (by rw [h]; rfl))
  · exact .inr (.inr (.inl (by rw [h]; rfl)))
  · exact .inr (.inr (.inr (by rw [h]; simp)))
  · exact .inr (.inr (.inr fun k => absurd k.2 (Nat.not_lt.mpr h)))

/-- HELLO that passes its checks, on an association that is not up. -/
theorem rxHello_of_good {d : Dev} {h : RxHdr} {nonce idHash secret e mac : Nat} (known : d.rxAssoc h.src = some a)
    (passes : d.filters h (.hello nonce idHash secret e mac) = false) (has : d.secretHeld secret = true)
    (ok : d.helloOk h secret mac (.hello nonce idHash secret e mac) = true) (member : d.permittedId h.src idHash = true)
    (newer : (e + 65536 - (d.assoc a).storedEpoch % 65536) % 65536 ≠ 0) (near : (e + 65536 - (d.assoc a).storedEpoch % 65536) % 65536 < 2 ^ 15)
    (down : (d.assoc a).state < 2) :
    let n := d.random.1
    let k := d.random.2.keyed0 a e false (secret == 1) n nonce
    d.rxHello h nonce idHash secret e mac =
      k.sendHello a (.helloRsp n k.island.deviceHash secret e (k.helloMacTx a e secret (.helloRsp n k.island.deviceHash secret e 0))) := by
  unfold Dev.rxHello
  simp only [known]
  refine (if_neg (by rw [passes]; exact Bool.false_ne_true)).trans ((if_neg ?_).trans ?_)
  · rw [has, ok, member]
    rintro (h | h | h | h)
    · exact absurd h (by decide)
    · exact absurd h (by decide)
    · exact absurd h (by decide)
    · exact h ⟨newer, near⟩
  · rw [if_neg (Nat.not_le.mpr down)]

/-- HELLO_RSP that fails a check, or for which nothing waits. -/
theorem rxHelloRsp_of_bad {d : Dev} {h : RxHdr} {nonce idHash secret e mac : Nat} (known : d.rxAssoc h.src = some a)
    (bad : d.filters h (.helloRsp nonce idHash secret e mac) = true ∨ (d.assoc a).state ≠ 1 ∨ (d.assoc a).nonce = none ∨
      d.helloOk h secret mac (.helloRsp nonce idHash secret e mac) = false ∨ e ≠ (d.assoc a).aepoch ∨
      secret ≠ (if (d.assoc a).secret then 1 else 0) ∨ d.permittedId h.src idHash = false) :
    d.rxHelloRsp h nonce idHash secret e mac = d.rxDrop := by
  unfold Dev.rxHelloRsp
  simp only [known]
  refine if_pos ?_
  rcases bad with h | h | h | h | h | h | h
  · exact .inl h
  · exact .inr (.inl h)
  · exact .inr (.inr (.inl (by rw [h]; rfl)))
  · exact .inr (.inr (.inr (.inl (by rw [h]; rfl))))
  · exact .inr (.inr (.inr (.inr (.inl h))))
  · exact .inr (.inr (.inr (.inr (.inr (.inl h)))))
  · exact .inr (.inr (.inr (.inr (.inr (.inr (by rw [h]; rfl))))))

theorem rxHelloRsp_of_good {d : Dev} {h : RxHdr} {nonce idHash secret e mac n : Nat} (known : d.rxAssoc h.src = some a)
    (passes : d.filters h (.helloRsp nonce idHash secret e mac) = false) (waits : (d.assoc a).state = 1) (own : (d.assoc a).nonce = some n)
    (ok : d.helloOk h secret mac (.helloRsp nonce idHash secret e mac) = true) (epoch : e = (d.assoc a).aepoch)
    (same : secret = (if (d.assoc a).secret then 1 else 0)) (member : d.permittedId h.src idHash = true) :
    d.rxHelloRsp h nonce idHash secret e mac = (d.keyed0 a e true (d.assoc a).secret n nonce).transmit
      { assoc := a, cid := 0, psn := 0, payload := .keepalive, flags := {}, prio := 2 } := by
  unfold Dev.rxHelloRsp
  simp only [known]
  refine (if_neg ?_).trans ?_
  · rw [passes, own, ok, member]
    rintro (h | h | h | h | h | h | h)
    · exact Bool.false_ne_true h
    · exact h waits
    · exact Bool.false_ne_true h
    · exact absurd h (by decide)
    · exact h epoch
    · exact h same
    · exact absurd h (by decide)
  · rw [own]
    rfl

end

/-- An association that opens sends HELLO where it has a port. -/
theorem Dev.assocOpen_does {s : Dev} {a : Nat} (ha : a < 48) (down : (s.assoc a).state = 0) :
    let e := ((s.assoc a).storedEpoch + 1) % 65536
    let k := if (s.assoc a).secret then 1 else 0
    ((s.assocOpen a).assoc a).state = 1 ∧ ((s.assocOpen a).assoc a).nonce = some s.random.1 ∧ ((s.assocOpen a).assoc a).aepoch = e ∧
    ((s.assocOpen a).assoc a).phase0 = false ∧ ((s.assocOpen a).assoc a).phase1 = false ∧ (s.assocOpen a).regs = s.regs ∧
    (s.portOf a 0 = none → (s.assocOpen a).out = s.out) ∧
    ∀ port, s.portOf a 0 = some port → ∃ (h : TxHdr) (mac : Nat),
      (s.assocOpen a).out = Output.packet a 0 0 h (.hello s.random.1 s.island.deviceHash k e mac) :: s.out ∧
      h.port = port ∧ h.prio = 2 ∧ h.kph = false ∧ h.txSeq = 0 ∧ h.aepoch = e ∧ h.src = s.get Reg.RND.CFG.MEMBER ∧ h.dst = (s.assoc a).member := by
  intro e k
  have opens := Dev.assocOpen_of_down ha down
  have now := s.assoc_opening a
  have regs : (s.opening a).regs = s.regs := rfl
  have out : (s.opening a).out = s.out := rfl
  have own : (s.opening a).island = s.island := rfl
  have port : (s.opening a).portOf a 0 = s.portOf a 0 := Dev.portOf_congr (s := s) (t := s.opening a) ((congrArg Assoc.portMask now).trans rfl) (fun _ _ => rfl) 0
  have me : (s.opening a).get Reg.RND.CFG.MEMBER = s.get Reg.RND.CFG.MEMBER := rfl
  dsimp only at opens
  generalize (s.opening a).helloMacTx a _ _ _ = mac at opens
  rw [own] at opens
  generalize s.opening a = u at opens now regs out port me
  obtain ⟨unsent, sent⟩ := u.sendHello_cases a (.hello s.random.1 s.island.deviceHash k e mac)
  rw [opens]
  have same : (u.sendHello a (.hello s.random.1 s.island.deviceHash k e mac)).assoc a = u.assoc a ∧
      (u.sendHello a (.hello s.random.1 s.island.deviceHash k e mac)).regs = u.regs := by
    cases to_ : u.portOf a 0 with
    | none =>
      rw [unsent to_]
      exact ⟨rfl, rfl⟩
    | some p =>
      rw [sent p to_]
      exact ⟨rfl, rfl⟩
  obtain ⟨assocs, regs'⟩ := same
  rw [assocs, now]
  refine ⟨rfl, rfl, rfl, rfl, rfl, regs'.trans regs, fun none => ?_, fun p some => ?_⟩
  · rw [unsent (port.trans none)]
    exact out
  · rw [sent p (port.trans some)]
    refine ⟨_, mac, congrArg (_ :: ·) out, rfl, rfl, rfl, rfl, ?_, me, ?_⟩
    · exact (congrArg Assoc.aepoch now).trans rfl
    · exact (congrArg Assoc.member now).trans rfl

end Sys2Proof.Machine

namespace Sys2Proof
open Machine

/-- Settles O50: what each event of a link, an association or a connection does, by the checks that it meets. -/
theorem linkEventsTakeEffect : Obligations.LinkEventsTakeEffect := by
  unfold Obligations.LinkEventsTakeEffect
  intro s a hq
  have drop {d : Dev} (h : d = s.dev.rxDrop) : (Host.Outcome.next (s.did d) : Answer) = .next (withDev s s.dev.rxDrop) :=
    s.next_kept hq h s.dev.rxDrop_books.keeps.1
  refine ⟨?opened, ?opens, ?hello, ?helloRsp, ?keepalive, ?idle, ?down, ?goesDown, ?noRekey, ?rekey, ?noRetire, ?retire, ?portUp, ?noPortUp,
    ?portDown, ?noPortDown, ?pause, ?noPause, ?limit, ?noLimit, ?fec, ?noFec, ?again, ?leaves, ?noRequest, ?conns, ?noConn⟩
  case opened => exact fun h => s.next_same hq (if_pos h)
  case opens =>
    intro ha down e k
    have ran : exec (.associationOpen a) s = .next (s.did (s.dev.assocOpen a)) := rfl
    obtain ⟨state, nonce, epoch, phase0, phase1, regs, unsent, sent⟩ := Dev.assocOpen_does ha down
    generalize s.dev.assocOpen a = d at ran state nonce epoch phase0 phase1 regs unsent sent
    refine ⟨_, s.dev.random.1, ran, state, nonce, epoch, phase0, phase1, regs, fun none => congrArg (· ++ s.sent) ((unsent none).trans hq), ?_⟩
    intro port some
    obtain ⟨h, mac, out, rest⟩ := sent port some
    refine ⟨h, mac, ?_, rest⟩
    show d.out ++ s.sent = _
    rw [out, hq]
    rfl
  case hello =>
    intro h nonce idHash secret e mac p d
    have ran : exec (.hello h nonce idHash secret e mac) s = .next (s.did (s.dev.rxHello h nonce idHash secret e mac)) := rfl
    refine ⟨fun none => ran.trans (drop ?_), fun known => ⟨fun filtered => ran.trans (drop ?_), fun passes bad => ?_, ?_⟩⟩
    · unfold Dev.rxHello
      simp only [none]
    · unfold Dev.rxHello
      simp only [known]
      exact if_pos filtered
    · exact ran.trans (s.next_kept hq (rxHello_of_bad known passes bad) (Dev.raise_books _ _).keeps.1)
    · intro passes has ok member newer near down n k
      obtain ⟨mine, others⟩ := s.dev.random.2.assoc_keyed0 a e false (secret == 1) n nonce
      refine ⟨ran.trans (s.next_did_congr (rxHello_of_good known passes has ok member newer near down)), ?_⟩
      have keyed : k.assoc a = _ := mine
      rw [keyed]
      exact ⟨rfl, rfl, rfl, rfl, rfl, rfl, rfl, others⟩
  case helloRsp =>
    intro h nonce idHash secret e mac p
    have ran : exec (.helloRsp h nonce idHash secret e mac) s = .next (s.did (s.dev.rxHelloRsp h nonce idHash secret e mac)) := rfl
    refine ⟨fun none => ran.trans (drop ?_), fun known => ⟨fun bad => ran.trans (drop (rxHelloRsp_of_bad known bad)), ?_⟩⟩
    · unfold Dev.rxHelloRsp
      simp only [none]
    · intro n passes waits own ok epoch same member k
      obtain ⟨mine, others⟩ := s.dev.assoc_keyed0 a e true (s.dev.assoc a).secret n nonce
      refine ⟨ran.trans (s.next_did_congr (rxHelloRsp_of_good known passes waits own ok epoch same member)), ?_⟩
      have keyed : k.assoc a = _ := mine
      rw [keyed]
      exact ⟨rfl, rfl, rfl, rfl, rfl, rfl, rfl, others⟩
  case keepalive => exact fun h => s.next_did_congr (if_pos (Bool.or_eq_true _ _ ▸ h))
  case idle => exact fun h k => s.next_same hq (if_neg (by rw [h, k]; exact Bool.false_ne_true))
  case down => exact fun h => s.next_same hq (if_pos h)
  case goesDown =>
    intro up u
    refine ⟨s.next_did_congr (if_neg up), ?_⟩
    intro alone single free v
    have down : v = _ := Dev.assocDown_of_alone (s := u) alone single free
    obtain ⟨mine, others, _, frames, out, _⟩ := u.silenced_does a
    have books := Dev.raise_books (u.silenced a) (twEv (u.silenced a) 0x1D1 true (some a) 0 0 0 0 noPlace 0 false)
    rw [← down] at books
    rw [books.assoc a, mine]
    exact ⟨rfl, rfl, rfl, rfl, fun b h => (books.assoc b).trans (others b h), books.keeps.2.1.trans frames, books.keeps.1.trans out⟩
  case noRekey => exact fun h => s.next_same hq (if_neg h)
  case rekey =>
    intro up
    refine ⟨s.next_did_congr (if_pos up), ?_⟩
    intro c found fresh u
    have asked : u = _ := Dev.rekeyAsk_of_up found up fresh
    have mine := Dev.assoc_setAssoc_same s.dev.random.2 a
    have conn : u.conn a 0 = some { c with nextPsn := psnNext c.nextPsn,
                                           sent := c.sent.put c.nextPsn { payload := .rekey s.dev.random.1, at_ := s.dev.clock, unsent := true } } := by
      unfold Dev.conn
      rw [asked, mine]
      exact Tab.get?_put_same _ _ _
    have assoc := congrArg (Dev.assoc · a) asked
    have now := assoc.trans (mine _)
    exact ⟨congrArg Assoc.state now, s.dev.random.1, congrArg Assoc.rekeySent now, _, conn, rfl, _, Tab.get?_put_same _ _ _, rfl, rfl⟩
  case noRetire =>
    intro none
    refine s.next_same hq ?_
    simp only [none]
  case retire =>
    intro at_ ends
    let u := (s.dev.at at_).retired a
    have ran : exec (.oldKeyPhaseRetire a) s = .next (s.did (u.raise (twEv u 0x1DA true (some a) 0 0 0 0 noPlace 0 false))) := by
      refine s.next_did_congr ?_
      simp only [ends]
      rfl
    obtain ⟨mine, others, tx, rx, out⟩ := (s.dev.at at_).retired_does a
    have books := u.raise_books (twEv u 0x1DA true (some a) 0 0 0 0 noPlace 0 false)
    generalize u.raise (twEv u 0x1DA true (some a) 0 0 0 0 noPlace 0 false) = d at ran books
    have now := (books.assoc a).trans mine
    have island := books.fields.2.2.2.2.2.2
    refine ⟨_, ran, congrArg Assoc.state now, congrArg Assoc.retire now, congrArg Assoc.phase0 now, congrArg Assoc.phase1 now, ?_, ?_,
      fun b h => (books.assoc b).trans (others b h), congrArg (· ++ s.sent) ((books.keeps.1.trans out).trans hq)⟩
    · exact (congrArg (fun i : Island => i.links.get? _) island).trans tx
    · exact (congrArg (fun i : Island => i.links.get? _) island).trans rx
  case portUp =>
    intro p on inside off
    refine s.next_kept hq (if_pos (by rw [on, off]; simp [inside])) (Dev.raise_books _ _).keeps.1
  case noPortUp =>
    intro p h
    refine s.next_same hq (if_neg ?_)
    rcases h with h | h | h
    · rw [h]
      exact Bool.false_ne_true
    · simp [Nat.not_lt.mpr h]
    · simp [h]
  case portDown =>
    intro p lanes inside up
    refine s.next_kept hq (if_pos ⟨inside, up⟩) (Dev.Books.ite ?_ ?_).keeps.1
    · exact ((s.dev.set_books _ _).trans (Dev.set_books _ _ _)).trans (Dev.raise_books _ _)
    · exact ((s.dev.set_books _ _).trans (Dev.set_books _ _ _)).trans (Dev.raise_books _ _)
  case noPortDown =>
    exact fun p lanes h => s.next_same hq (if_neg fun k => h.elim (fun few => Nat.not_lt.mpr few k.1) fun off => k.2 off)
  case pause =>
    intro p prio on mine
    have goes : ¬ (!s.dev.bit Reg.TWL.CFG.PFC_EN || !(s.dev.get Reg.TWL.PFC.PRI).testBit prio) = true := by
      rw [on, mine]
      exact Bool.false_ne_true
    exact ⟨s.next_kept hq ((if_neg goes).trans (if_pos rfl)) rfl, s.next_did_congr ((if_neg goes).trans (if_neg Bool.false_ne_true))⟩
  case noPause =>
    intro p prio b h
    refine s.next_same hq (if_pos ?_)
    rcases h with h | h
    · rw [h]
      rfl
    · rw [h, Bool.not_false, Bool.or_true]
  case limit =>
    intro p prio at_ some
    refine s.next_kept hq ?_ (Dev.raise_books _ _).keeps.1
    simp only [some]
  case noLimit =>
    intro p prio none
    refine s.next_same hq ?_
    simp only [none]
  case fec => exact fun p hp => s.next_kept hq (if_pos hp) ((s.dev.count_books _ _ _ _).trans (Dev.raise_books _ _)).keeps.1
  case noFec => exact fun p hp => s.next_same hq (if_neg (Nat.not_lt.mpr hp))
  case again =>
    intro cid psn c e found sent
    refine ⟨?_, fun idle calm => ?_, fun none => ?_, ?_⟩
    · intro open_ out ready missing u
      have waits := Dev.rtoExpired_of_waiting found sent open_ out ready missing
      refine ⟨fun last => s.next_did_congr (congrArg Dev.settle (waits.trans (if_pos last))), ?_⟩
      intro more v
      exact s.next_did_congr (congrArg Dev.settle (waits.trans (if_neg (Nat.not_le.mpr more))))
    · exact s.next_same hq ((congrArg Dev.settle (Dev.rtoExpired_of_idle found sent idle)).trans (settle_calm calm))
    · refine s.next_same hq ?_
      simp only [found, sent, none]
    · intro at_ waits v
      refine s.next_did_congr ?_
      simp only [found, sent, waits]
      rfl
  case leaves =>
    intro cid psn c e p found sent port paused u
    obtain ⟨held, out⟩ := Dev.resend_of_paused found sent port paused
    exact ⟨_, held, rfl, rfl, rfl, rfl, rfl, rfl, rfl, out⟩
  case noRequest =>
    intro cid psn h
    refine ⟨s.next_same hq ?_, fun calm => s.next_same hq ((congrArg Dev.settle ?_).trans (settle_calm calm))⟩
    · rcases h with none | ⟨c, some, none⟩
      · simp only [none]
      · simp only [some, none]
    · unfold Dev.rtoExpired
      rcases h with none | ⟨c, some, none⟩
      · simp only [none]
      · simp only [some, none]
  case conns =>
    intro cid c found
    refine ⟨fun none => ?_, ?_, ?_, fun h => ?_, fun lost idle => ?_, ?_⟩
    · refine s.next_same hq ?_
      simp only [found]
      exact if_pos none
    · intro owed u
      refine s.next_did_congr ?_
      simp only [found]
      exact if_neg (by omega)
    · intro cached on u
      refine ⟨s.next_did_congr ?_, rfl, rfl, rfl⟩
      simp only [found]
      exact if_neg (by rw [cached, on]; decide)
    · refine s.next_same hq ?_
      simp only [found]
      exact if_pos (h.imp (fun h => by rw [h]; rfl) fun h => by rw [h]; rfl)
    · exact s.next_same hq (Dev.refillDone_of_idle found idle lost)
    · intro lost refill u
      exact ⟨fun gone => s.next_did_congr (Dev.refillDone_of_lost found refill gone),
        fun read kept none free => s.next_did_congr (Dev.refillDone_of_read found refill read kept none free)⟩
  case noConn =>
    intro cid lost none
    refine ⟨s.next_same hq ?_, s.next_same hq ?_, s.next_same hq ?_⟩
    · simp only [none]
    · simp only [none]
    · show s.dev.refillDone a cid lost = s.dev
      unfold Dev.refillDone
      simp only [none]

end Sys2Proof
end

section
/-! SUPPORT. Held writes that may pass, and DRAM reads that come back (R41 rows 2 and 3, R55, R140, R154). -/

namespace Sys2Proof.Machine

/-! ## Answers to a request whose head has not been reset -/

/-- Where nothing waits behind the memory, an answer sent leaves nothing waiting. -/
theorem Dev.settle_send {d : Dev} (h : calm d) (o : Output) : (d.send o).settle = d.send o :=
  settle_calm (calm_congr h rfl rfl rfl rfl rfl rfl rfl rfl rfl rfl rfl)

theorem Dev.refuse_read {d : Dev} {q : HostReq} (via : q.via = .host) (live : d.live q = true) (hw : q.write = none) :
    ∃ x y, d.refuse q = d.send (.readData q.head q.gld q.tag none x y) := by
  have told : q.refusal (d.devLoad q.head) = .readData q.head q.gld q.tag none (d.devLoad q.head) (q.lat + 0) := by
    unfold HostReq.refusal
    rw [hw]
    rfl
  exact ⟨_, _, (Dev.refuse_of_asked via live).trans (congrArg d.send told)⟩

theorem Dev.refuse_write {d : Dev} {q : HostReq} (via : q.via = .host) (live : d.live q = true) (hw : q.write.isSome = true) :
    ∃ x y, d.refuse q = d.send (.writeDone q.head q.gld q.tag x y) := by
  obtain ⟨w, hw⟩ := Option.isSome_iff_exists.mp hw
  have told : q.refusal (d.devLoad q.head) = .writeDone q.head q.gld q.tag (d.devLoad q.head) (q.lat + 0) := by
    unfold HostReq.refusal
    rw [hw]
    rfl
  exact ⟨_, _, (Dev.refuse_of_asked via live).trans (congrArg d.send told)⟩

theorem Dev.serve_of_noRegion {d : Dev} {q : HostReq} (h : d.regionAt (granOf q.line) = none) : d.serve q = d.refuse q := by
  unfold Dev.serve
  rw [h]

/-! ## Held writes -/

/-- A port's held writes with the ones left after one of them has passed. -/
def Dev.heldLeft (s : Dev) (p : Nat) (rest : List Held) : Dev :=
  { s with held := if rest.isEmpty then s.held.del p else s.held.put p rest }

theorem Dev.release_of_none {s : Dev} {p : Nat} (h : takeFirst (fun h => s.mayPass h.req) (s.heldAt p) = none) : s.release p = s := by
  unfold Dev.release
  rw [h]

theorem Dev.release_of_some {s : Dev} {p : Nat} {x : Held} {rest : List Held}
    (h : takeFirst (fun h => s.mayPass h.req) (s.heldAt p) = some (x, rest)) :
    s.release p = ((s.heldLeft p rest).serve x.req).settle := by
  unfold Dev.release
  rw [h]
  rfl

/-! ## A DRAM read that comes back -/

/-- A scheduler that may stop at once issues nothing. -/
theorem Dev.dramRun_of_stop {s : Dev} {stop : Dev → Bool} (h : stop s = true) (n sub : Nat) (lim : Option Nat) (k : Nat) :
    s.dramRun n sub lim stop (k + 1) = s := by
  unfold Dev.dramRun
  exact if_pos h

theorem Dev.issueRead_of_issued {s : Dev} {no n : Nat} {d : DramRead} (hd : s.reads.get? no = some d) (issued : d.issued = some n) :
    s.issueRead no d = s.at (fclkAt n) := by
  have stops : (!(match s.reads.get? no with | some e => e.issued.isNone | none => false)) = true := by simp [hd, issued]
  unfold Dev.issueRead
  dsimp only
  rw [show s.dramFuel d.chan = (3 * ((s.channel d.chan).writes.size + s.reads.size) + 3) + 1 from rfl,
    Dev.dramRun_of_stop stops, hd]
  simp only [Option.bind_some, issued]

/-- The device with a read taken out of its channel's front end, at the time of its issue. -/
def Dev.readGone (s : Dev) (no n : Nat) : Dev := { s.at (fclkAt n) with reads := s.reads.del no }

/-- A host's read that has come back: refused without its channel or its region, else looked at. -/
def Dev.hostReadBack (s : Dev) (d : DramRead) (q : HostReq) (noise : BitVec 640) : Dev :=
  match s.regionAt (granOf q.line) with
  | none => s.refuse q
  | some (n, reg) => if !s.chanUp d.chan then s.refuse q else s.readBack d q n reg noise

theorem Dev.hostReadBack_of_lost {s : Dev} {d : DramRead} {q : HostReq}
    (lost : s.regionAt (granOf q.line) = none ∨ s.chanUp d.chan = false) (noise : BitVec 640) : s.hostReadBack d q noise = s.refuse q := by
  unfold Dev.hostReadBack
  split
  · rfl
  · next k r hr =>
    have down : s.chanUp d.chan = false := lost.resolve_left fun h => by rw [h] at hr; exact absurd hr (by simp)
    exact if_pos (by rw [down]; rfl)

theorem Dev.readDone_of_none {s : Dev} {no : Nat} (h : s.reads.get? no = none) (noise : BitVec 640) : s.readDone no noise = s := by
  unfold Dev.readDone
  rw [h]

/-- An issued read of a subchannel in parity retry waits for its end (R154). -/
theorem Dev.readDone_of_retry {s : Dev} {no n : Nat} {d : DramRead} (hd : s.reads.get? no = some d) (issued : d.issued = some n)
    (retry : (s.channel d.chan).retry.has (subOf d.cl) = true) (noise : BitVec 640) : s.readDone no noise = s.at (fclkAt n) := by
  have waits : (d.issued.isNone || ((s.at (fclkAt n)).channel d.chan).retry.has (subOf d.cl)) = true :=
    (congrArg (d.issued.isNone || ·) retry).trans (Bool.or_true _)
  unfold Dev.readDone
  rw [hd]
  dsimp only
  rw [Dev.issueRead_of_issued hd issued, Dev.at_reads, hd]
  exact if_pos waits

theorem Dev.readDone_of_issued {s : Dev} {no n : Nat} {d : DramRead} (hd : s.reads.get? no = some d) (issued : d.issued = some n)
    (quiet : (s.channel d.chan).retry.has (subOf d.cl) = false) (noise : BitVec 640) :
    s.readDone no noise = match d.what with
      | .background => s.readGone no n
      | .host q => (s.readGone no n).hostReadBack d q noise := by
  have comes : ¬ (d.issued.isNone || ((s.at (fclkAt n)).channel d.chan).retry.has (subOf d.cl)) = true := by
    rw [issued, show ((s.at (fclkAt n)).channel d.chan).retry.has (subOf d.cl) = false from quiet]
    exact Bool.false_ne_true
  unfold Dev.readDone
  rw [hd]
  dsimp only
  rw [Dev.issueRead_of_issued hd issued, Dev.at_reads, hd]
  dsimp only
  rw [if_neg comes]
  rfl

theorem Dev.sramWrite_of_unarmed {s : Dev} {t p : Nat} (sound : s.flips.list = []) (unarmed : s.bit Reg.ECS.SRAM_INJ.ARM = false) :
    s.sramWrite t p = s := by
  have whole : s.flips.has (t * 2 ^ 44 + p) = false := by
    unfold Tab.has Tab.get?
    rw [sound]
    rfl
  unfold Dev.sramWrite
  rw [whole]
  dsimp only
  rw [if_neg (by decide : ¬ false = true), if_neg (fun h => by rw [unarmed] at h; exact absurd h.1 (by decide))]

theorem Dev.pathWord_of_unarmed {s : Dev} (sound : s.flips.list = []) (unarmed : s.bit Reg.ECS.SRAM_INJ.ARM = false) :
    s.pathWord = (s, false) := by
  unfold Dev.pathWord
  rw [Dev.sramWrite_of_unarmed sound unarmed, Dev.sramRead_none s sound]

/-- A plaintext line answers its read as it stands. -/
theorem Dev.readLine_of_plain {s : Dev} {reg : Region} {q : HostReq} {l : Ln} (slot : reg.slot = none) (enc : reg.enc = false)
    (good : l.st ≠ .poison) (plain : l.tagged = false) (sound : s.flips.list = []) (unarmed : s.bit Reg.ECS.SRAM_INJ.ARM = false)
    (n tier lat : Nat) : s.readLine n reg q l tier lat = s.answerRead q (some l.data) lat := by
  have opened : s.openLine reg q.line l = .data l.data := by
    unfold Dev.openLine
    simp only [slot, plain, Bool.false_eq_true, if_false]
  have job : s.openJob (q.cipherClass 0) false tier reg q.line l = (s, .data l.data, 0) := by
    unfold Dev.openJob
    rw [opened]
    simp only [slot]
  have runs : ¬ s.rntWaits reg (q.cipherClass 0) = true := by
    unfold Dev.rntWaits
    rw [enc]
    exact Bool.false_ne_true
  unfold Dev.readLine
  dsimp only
  rw [if_neg good, if_neg runs, job]
  dsimp only
  rw [Dev.pathWord_of_unarmed sound unarmed]
  rfl

/-- A read whose four codewords decode with nothing corrected answers with the line and what the decoder left of the noise. -/
theorem Dev.readBack_of_plain {s : Dev} {d : DramRead} {q : HostReq} {reg : Region} {noise : BitVec 640} {e : EccResult}
    (read : q.write = none) (slot : reg.slot = none) (enc : reg.enc = false) (decoded : s.eccRead d.chan d.cl (d.noise noise) = (s, e))
    (ok : e.ok = true) (clean : e.corrected = false) (alloc : s.bit Reg.LC.CFG.RD_ALLOC = false) (good : d.ln.st ≠ .poison)
    (plain : d.ln.tagged = false) (sound : s.flips.list = []) (unarmed : s.bit Reg.ECS.SRAM_INJ.ARM = false) (n : Nat) :
    s.readBack d q n reg noise = s.answerRead (q.add (s.latRead d reg.enc)) (some (d.ln.data ^^^ e.left)) 0 := by
  have same : (q.add (s.latRead d reg.enc)).write = none := read
  unfold Dev.readBack
  dsimp only
  rw [decoded]
  simp only [ok, clean, same, alloc, Bool.not_true, Bool.false_eq_true, if_false, Bool.not_false, if_true, Bool.false_and]
  exact Dev.readLine_of_plain (l := { d.ln with data := d.ln.data ^^^ e.left }) slot enc good plain sound unarmed n 1 0

end Sys2Proof.Machine

namespace Sys2Proof
open Machine

/-! ## The clauses of O43 on held writes and DRAM reads -/

/-- ADMISSION_HOLD_RELEASE: the oldest held write that may pass is served; one of no region is done, with nothing stored. -/
theorem heldWritePasses {s : State} (hq : quiet s) (p : Nat) :
    (takeFirst (fun h => s.dev.mayPass h.req) (s.dev.heldAt p) = none → exec (.admissionHoldRelease p) s = .next s) ∧
      ∀ h rest, takeFirst (fun h => s.dev.mayPass h.req) (s.dev.heldAt p) = some (h, rest) →
        exec (.admissionHoldRelease p) s = .next (s.did ((s.dev.heldLeft p rest).serve h.req).settle) ∧
        (calm s.dev → asked s h.req → h.req.write.isSome = true → s.dev.regionAt (granOf h.req.line) = none →
          ∃ x y, exec (.admissionHoldRelease p) s =
            .next (sends (withDev s (s.dev.heldLeft p rest)) (.writeDone h.req.head h.req.gld h.req.tag x y))) := by
  have ran : exec (.admissionHoldRelease p) s = .next (s.did (s.dev.release p)) := rfl
  refine ⟨fun h => ran.trans (State.next_same hq (Dev.release_of_none h)), ?_⟩
  intro h rest taken
  have served : exec (.admissionHoldRelease p) s = .next (s.did ((s.dev.heldLeft p rest).serve h.req).settle) :=
    ran.trans (State.next_did_congr s (Dev.release_of_some taken))
  refine ⟨served, ?_⟩
  intro still ⟨via, live⟩ hw noRegion
  obtain ⟨x, y, refused⟩ := Dev.refuse_write (d := s.dev.heldLeft p rest) via (beq_iff_eq.2 live) hw
  have answered : ((s.dev.heldLeft p rest).serve h.req).settle =
      (s.dev.heldLeft p rest).send (.writeDone h.req.head h.req.gld h.req.tag x y) := by
    rw [Dev.serve_of_noRegion (d := s.dev.heldLeft p rest) noRegion, refused]
    exact Dev.settle_send (d := s.dev.heldLeft p rest) still _
  refine ⟨x, y, served.trans ?_⟩
  rw [answered]
  exact congrArg Host.Outcome.next (State.did_send_withDev (d := s.dev.heldLeft p rest) hq _)

theorem exec_dramReadComplete (s : State) (no : Nat) (noise : BitVec 640) :
    exec (.dramReadComplete no noise []) s = .next (s.did ((s.dev.readDone no noise).settle)) := by
  have none_ : s.dev.report [] = s.dev := by
    have same : s.dev.rnt.checks ++ [] = s.dev.rnt.checks := List.append_nil _
    exact congrArg (fun x => ({ s.dev with rnt := { s.dev.rnt with checks := x } } : Dev)) same
  have ran : exec (.dramReadComplete no noise []) s = .next (s.did (((s.dev.report []).readDone no noise).settle)) := rfl
  rw [ran, none_]

/-- DRAM_READ_COMPLETE of a read issued at `n` in a subchannel that runs: the read leaves the front end, and its answer goes out. -/
theorem issuedReadComesBack {s : State} (hq : quiet s) (still : calm s.dev) {no n : Nat} (noise : BitVec 640) {d : DramRead}
    (hd : s.dev.reads.get? no = some d) (issued : d.issued = some n)
    (runs : (s.dev.channel d.chan).retry.has (subOf d.cl) = false) :
    (d.what = .background → exec (.dramReadComplete no noise []) s = .next (withDev s (s.dev.readGone no n))) ∧
      ∀ q, d.what = .host q → asked s q → q.write = none →
        (s.dev.regionAt (granOf q.line) = none ∨ s.dev.chanUp d.chan = false →
          ∃ x y, exec (.dramReadComplete no noise []) s =
            .next (sends (withDev s (s.dev.readGone no n)) (.readData q.head q.gld q.tag none x y))) ∧
        ∀ k r e, s.dev.regionAt (granOf q.line) = some (k, r) → s.dev.chanUp d.chan = true → r.slot = none → r.enc = false →
          (s.dev.readGone no n).eccRead d.chan d.cl (d.noise noise) = (s.dev.readGone no n, e) → e.ok = true → e.corrected = false →
          s.dev.bit Reg.LC.CFG.RD_ALLOC = false → d.ln.st ≠ .poison → d.ln.tagged = false → s.dev.flips.list = [] →
          s.dev.bit Reg.ECS.SRAM_INJ.ARM = false →
          ∃ x y, exec (.dramReadComplete no noise []) s =
            .next (sends (withDev s (s.dev.readGone no n)) (.readData q.head q.gld q.tag (some (d.ln.data ^^^ e.left)) x y)) := by
  have done := Dev.readDone_of_issued hd issued runs noise
  have out : (s.dev.readGone no n).out = [] := hq
  have calm' : calm (s.dev.readGone no n) := still
  have answers {o : Output} (h : s.dev.readDone no noise = (s.dev.readGone no n).send o) :
      exec (.dramReadComplete no noise []) s = .next (sends (withDev s (s.dev.readGone no n)) o) := by
    rw [exec_dramReadComplete, h, Dev.settle_send calm']
    exact congrArg Host.Outcome.next (State.did_send_withDev out o)
  constructor
  · intro background
    rw [background] at done
    rw [exec_dramReadComplete, done]
    exact State.next_kept hq (settle_calm calm') rfl
  · intro q hw ⟨via, live⟩ read
    have live' : (s.dev.readGone no n).live q = true := beq_iff_eq.2 live
    rw [hw] at done
    constructor
    · intro lost
      obtain ⟨x, y, refused⟩ := Dev.refuse_read via live' read
      exact ⟨x, y, answers (done.trans ((Dev.hostReadBack_of_lost (s := s.dev.readGone no n) lost noise).trans refused))⟩
    · intro k r e region up slot enc decoded ok clean alloc good plain sound unarmed
      have looked : (s.dev.readGone no n).hostReadBack d q noise = (s.dev.readGone no n).readBack d q k r noise := by
        have region' : (s.dev.readGone no n).regionAt (granOf q.line) = some (k, r) := region
        unfold Dev.hostReadBack
        rw [region']
        exact if_neg (not_not_of_true up)
      have back := Dev.readBack_of_plain (s := s.dev.readGone no n) read slot enc decoded ok clean alloc good plain sound unarmed k
      have answered := Dev.answerRead_of_asked (q := q.add ((s.dev.readGone no n).latRead d r.enc)) via live'
        (some (d.ln.data ^^^ e.left)) 0
      exact ⟨_, _, answers (done.trans (looked.trans (back.trans answered)))⟩

/-- DRAM_READ_COMPLETE of an issued read whose subchannel is in parity retry: the read waits (R154). -/
theorem retriedReadWaits {s : State} (hq : quiet s) (still : calm s.dev) {no : Nat} (noise : BitVec 640) {d : DramRead}
    (hd : s.dev.reads.get? no = some d) (retry : (s.dev.channel d.chan).retry.has (subOf d.cl) = true) (issued : d.issued.isSome = true) :
    ∃ t, exec (.dramReadComplete no noise []) s = .next t ∧ t.dev.reads = s.dev.reads ∧ t.sent = s.sent := by
  obtain ⟨n, issued⟩ := Option.isSome_iff_exists.mp issued
  have waits : ((s.dev.readDone no noise).settle) = s.dev.at (fclkAt n) := by
    rw [Dev.readDone_of_retry hd issued retry]
    exact settle_calm (d := s.dev.at (fclkAt n)) still
  exact ⟨_, (exec_dramReadComplete s no noise).trans (State.next_did_congr s waits), rfl,
    congrArg (· ++ s.sent) (hq : (s.dev.at (fclkAt n)).out = [])⟩

theorem noReadComesBack {s : State} (hq : quiet s) (still : calm s.dev) {no : Nat} (noise : BitVec 640)
    (h : s.dev.reads.get? no = none) : exec (.dramReadComplete no noise []) s = .next s := by
  rw [exec_dramReadComplete, Dev.readDone_of_none h, settle_calm still]
  exact State.next_same hq rfl

end Sys2Proof
end

section
/-! SUPPORT. Reads of flash that bring the lines of their fill (R26). -/

namespace Sys2Proof.Machine

/-- What an update of the frame map can change: the map, its cache, and what the channel of its line takes part in. -/
def Dev.OnMap (s t : Dev) : Prop :=
  ∃ fresh uses regs errors fm flips fmc reads channels, t = { s with fresh, uses, regs, errors, fm, flips, fmc, reads, channels }

theorem Dev.OnMap.refl (s : Dev) : Dev.OnMap s s := ⟨_, _, _, _, _, _, _, _, _, rfl⟩

theorem Dev.OnMap.trans {s t u : Dev} (h : Dev.OnMap s t) (k : Dev.OnMap t u) : Dev.OnMap s u := by
  obtain ⟨_, _, _, _, _, _, _, _, _, rfl⟩ := h
  obtain ⟨a, b, c, d, e, f, g, i, j, rfl⟩ := k
  exact ⟨a, b, c, d, e, f, g, i, j, rfl⟩

theorem Dev.setFme_onMap (s : Dev) (g : Nat) (e : FmEntry) : Dev.OnMap s (s.setFme g e) := Dev.setFme_form s g e

theorem Dev.stamp_onMap (s : Dev) (g back : Nat) : Dev.OnMap s (s.stamp g back) := Dev.stamp_form s g back

theorem Dev.OnMap.calm {s t : Dev} (h : Dev.OnMap s t) (still : calm s) : calm t := by
  obtain ⟨_, _, _, _, _, _, _, _, _, rfl⟩ := h
  exact still

/-- A fill that has its frame may be entered where nothing waits. -/
theorem calm_putFill {d : Dev} (h : calm d) (g : Nat) {f : Fill} (placed : f.frame.isSome = true) :
    calm { d with fills := d.fills.put g f } := by
  obtain ⟨alloc, rte, link, copies, hints, waits, serving, persist, gpf, wab, fills, dirty, lc⟩ := h
  refine ⟨alloc, rte, link, copies, hints, waits, serving, persist, gpf, wab, fun z hz => ?_, dirty, lc⟩
  rcases mem_insert hz with rfl | hz
  · exact placed
  · exact fills z hz

theorem Tab.upd_of_some {α : Type} {t : Tab α} {k : Nat} {v : α} (h : t.get? k = some v) (f : α → α) : t.upd k f = t.put k (f v) := by
  unfold Tab.upd
  rw [h]

/-- The lines that a read of flash brings, bit errors and all. -/
def flashLinesOf (flips : List (Nat × LineData)) (t : Tab Ln) : Tab Ln :=
  flips.foldl (fun (t : Tab Ln) x => t.upd x.1 fun l => { l with data := l.data ^^^ x.2 }) t

/-- A read of flash for which no fill waits and no destage merges brings nothing. -/
theorem Dev.flashArrived_of_none {s : Dev} {g : Nat} (unmerged : s.mergeReading g = false)
    (h : ∀ f, s.fills.get? g = some f → f.src ≠ .F ∨ f.frame = none ∨ f.data.isSome = true) (flips : List (Nat × LineData)) (ns : Nat) :
    s.flashArrived g flips ns = s := by
  unfold Dev.flashArrived
  dsimp only
  refine if_pos ?_
  rw [unmerged]
  cases hf : s.fills.get? g with
  | none => rfl
  | some f =>
    rcases h f hf with h | h | h
    · simp [h]
    · simp [h]
    · cases hd : f.data with
      | none => rw [hd] at h; exact absurd h (by decide)
      | some l => simp [hd]

theorem Dev.flashArrived_of_fill {s : Dev} {g : Nat} (unmerged : s.mergeReading g = false) {f : Fill} (hf : s.fills.get? g = some f)
    (src : f.src = .F) (placed : f.frame.isSome = true) (awaits : f.data = none) {d lba : Nat} {rescue : Bool}
    (place : s.flashPlace g = some (d, lba, rescue)) (flips : List (Nat × LineData)) (ns : Nat) :
    s.flashArrived g flips ns =
      ((s.setFme g { s.fme g with tslot := (s.flashRead g d lba rescue).2, tslotKnown := true }).fillData g .F
        (flashLinesOf flips (s.flashRead g d lba rescue).1) (some (s.flashRead g d lba rescue).2) (latFlash + ns * latNs)).settle := by
  have mapped : (s.setFme g { s.fme g with tslot := (s.flashRead g d lba rescue).2, tslotKnown := true }).mergeReading g = false := by
    obtain ⟨_, _, _, _, _, _, _, _, _, e⟩ := s.setFme_onMap g { s.fme g with tslot := (s.flashRead g d lba rescue).2, tslotKnown := true }
    rw [e]
    exact unmerged
  have fills : (f.src == .F && f.frame.isSome && f.data.isNone) = true := by simp [src, placed, awaits]
  unfold Dev.flashArrived
  rw [hf, place]
  dsimp only
  refine (if_neg (by simp [fills])).trans (congrArg Dev.settle ((if_pos fills).trans ?_))
  rw [if_neg (by rw [mapped]; exact Bool.false_ne_true)]
  rfl

/-- The data of a fill that no request waits for: it stands in the fill. -/
theorem Dev.fillData_of_noWaiters {s : Dev} {g : Nat} {f : Fill} (hf : s.fills.get? g = some f) (region : s.regionAt g ≠ none)
    (src : f.src = .F) (alone : f.waiters = []) (l : Tab Ln) (t : Bool) (lat : Nat) :
    ∃ u, Dev.OnMap s u ∧ s.fillData g .F l (some t) lat = { u with fills := s.fills.put g { f with data := some l } } := by
  obtain ⟨⟨n, reg⟩, hr⟩ := Option.ne_none_iff_exists'.1 region
  have mapped := s.setFme_onMap g { s.fme g with tslot := t, tslotKnown := true }
  have entered : s.fillData g .F l (some t) lat = (s.setFme g { s.fme g with tslot := t, tslotKnown := true }).updFill g
      fun f => { f with src := .F, waiters := [], data := some l } := by
    unfold Dev.fillData
    rw [hf, hr]
    dsimp only
    rw [alone]
    exact if_pos rfl
  generalize s.setFme g { s.fme g with tslot := t, tslotKnown := true } = v at mapped entered
  have fills : v.fills = s.fills := by
    obtain ⟨_, _, _, _, _, _, _, _, _, rfl⟩ := mapped
    rfl
  have same : ({ f with src := .F, waiters := [], data := some l } : Fill) = { f with data := some l } := by rw [← src, ← alone]
  refine ⟨v, mapped, entered.trans ?_⟩
  unfold Dev.updFill
  rw [fills, Tab.upd_of_some hf, same]

end Sys2Proof.Machine

namespace Sys2Proof
open Machine

/-! ## The clause of O43 on reads of flash -/

theorem flashReadBringsLines {s : State} (hq : quiet s) (g : Nat) (flips : List (Nat × LineData)) (ns : Nat)
    (unmerged : s.dev.mergeReading g = false) :
    ((∀ f, s.dev.fills.get? g = some f → f.src ≠ .F ∨ f.frame = none ∨ f.data.isSome = true) →
        exec (.flashReadComplete g flips ns) s = .next s) ∧
      ∀ f d lba rescue, s.dev.fills.get? g = some f → f.src = .F → f.frame.isSome = true → f.data = none →
        s.dev.flashPlace g = some (d, lba, rescue) → ∀ r l, r = s.dev.flashRead g d lba rescue → l = flashLinesOf flips r.1 →
        exec (.flashReadComplete g flips ns) s = .next (s.did ((s.dev.setFme g { s.dev.fme g with tslot := r.2, tslotKnown := true }).fillData
          g .F l (some r.2) (latFlash + ns * latNs)).settle) ∧
        (calm s.dev → f.waiters = [] → s.dev.regionAt g ≠ none →
          ∃ t, exec (.flashReadComplete g flips ns) s = .next t ∧ t.dev.fills = s.dev.fills.put g { f with data := some l } ∧
            t.dev.frames = s.dev.frames ∧ t.dev.media = s.dev.media ∧ t.sent = s.sent) := by
  have ran : exec (.flashReadComplete g flips ns) s = .next (s.did (s.dev.flashArrived g flips ns)) := rfl
  refine ⟨fun h => ran.trans (State.next_same hq (Dev.flashArrived_of_none unmerged h flips ns)), ?_⟩
  intro f d lba rescue hf src placed awaits place r l hr hl
  subst hr
  subst hl
  have came := Dev.flashArrived_of_fill unmerged hf src placed awaits place flips ns
  refine ⟨ran.trans (State.next_did_congr s came), ?_⟩
  intro still alone region
  have mapped := s.dev.setFme_onMap g { s.dev.fme g with tslot := (s.dev.flashRead g d lba rescue).2, tslotKnown := true }
  have ran' := ran.trans (State.next_did_congr s came)
  generalize s.dev.setFme g { s.dev.fme g with tslot := (s.dev.flashRead g d lba rescue).2, tslotKnown := true } = v at mapped ran'
  have kept : v.fills = s.dev.fills ∧ v.regions = s.dev.regions := by
    obtain ⟨_, _, _, _, _, _, _, _, _, rfl⟩ := mapped
    exact ⟨rfl, rfl⟩
  obtain ⟨fills, regions⟩ := kept
  have region' : v.regionAt g ≠ none := by
    unfold Dev.regionAt
    rw [regions]
    exact region
  obtain ⟨u, held, data⟩ := Dev.fillData_of_noWaiters (fills ▸ hf) region' src alone (flashLinesOf flips (s.dev.flashRead g d lba rescue).1)
    (s.dev.flashRead g d lba rescue).2 (latFlash + ns * latNs)
  obtain ⟨_, _, _, _, _, _, _, _, _, rfl⟩ := mapped.trans held
  rw [data, settle_calm] at ran'
  · exact ⟨_, ran', congrArg (fun t : Tab Fill => t.put g _) fills, rfl, rfl, congrArg (· ++ s.sent) hq⟩
  · rw [fills]
    exact calm_putFill (d := s.dev) still g placed

end Sys2Proof
end

section
/-! SUPPORT. A fill that completes stands in its frame (R224). -/

namespace Sys2Proof.Machine

/-- What a fill installs in one line of its frame. -/
def Dev.installLine (g loc : Nat) (lines : Tab Ln) (st : LineState) (s : Dev) (k : Nat) : Dev :=
  let line := g * 64 + k
  if (s.frameLn loc k).st ≠ .absent || (match s.lc.get? line with | some c => c.ln.st == .dirty | none => false) then s
  else
    let l := lines.getD k { st := .clean }
    if s.poison.has line then s.metaWrite loc k { st := .poison }
    else if l.st = .poison then (s.metaWrite loc k { st := .poison }).poisonAdd line 12 false
    else
      let s := s.dramWrite loc k { l with st }
      if st = .dirty then s.dirtied g k else s

theorem Dev.fillInstall_of_state {s : Dev} {g : Nat} {f : Fill} {st : LineState} (h : s.installState f = some st)
    (here : (s.fme g).tier = .L) (lines : Tab Ln) :
    s.fillInstall g f lines = (List.range 64).foldl (Dev.installLine g (s.fme g).loc lines st) s := by
  unfold Dev.fillInstall
  dsimp only
  rw [h]
  exact if_neg (not_not_intro here)

/-- A sound line of a clean fill goes where the frame's line is ABSENT. -/
theorem Dev.installLine_of_clean {s : Dev} {g loc k : Nat} {lines : Tab Ln} (sound : s.poison.list = [])
    (good : (lines.getD k { st := .clean }).st ≠ .poison) (clean : ∀ c, s.lc.get? (g * 64 + k) = some c → c.ln.st ≠ .dirty) :
    Dev.installLine g loc lines .clean s k =
      if (s.frameLn loc k).st = .absent then s.dramWrite loc k { lines.getD k { st := .clean } with st := .clean } else s := by
  have undirty : (match s.lc.get? (g * 64 + k) with | some c => c.ln.st == .dirty | none => false) = false := by
    cases hc : s.lc.get? (g * 64 + k) with
    | none => rfl
    | some c => exact beq_false_of_ne (clean c hc)
  have unpoisoned : ¬ s.poison.has (g * 64 + k) = true := by
    unfold Tab.has
    rw [Tab.get?_of_empty sound]
    exact Bool.false_ne_true
  unfold Dev.installLine
  dsimp only
  by_cases absent : (s.frameLn loc k).st = .absent
  · rw [if_neg (by simp [absent, undirty]), if_neg unpoisoned, if_neg good, if_pos absent]
    exact if_neg (by decide)
  · rw [if_pos (by simp [absent]), if_neg absent]

/-- The first `n` lines of the frame `loc` have been installed, and nothing else is changed. -/
def Dev.Installed (d : Dev) (loc : Nat) (lines : Tab Ln) (n : Nat) (u : Dev) : Prop :=
  Dev.Wrote d u ∧
  (∀ k, k < 64 → u.frameLn loc k = if k < n ∧ (d.frameLn loc k).st = .absent then { lines.getD k { st := .clean } with st := .clean }
    else d.frameLn loc k) ∧
  ∀ fn k, k < 64 → fn ≠ loc → u.frameLn fn k = d.frameLn fn k

theorem Dev.Installed.zero (d : Dev) (loc : Nat) (lines : Tab Ln) : Dev.Installed d loc lines 0 d :=
  ⟨.refl d, fun _ _ => (if_neg fun h => absurd h.1 (Nat.not_lt_zero _)).symm, fun _ _ _ _ => rfl⟩

theorem Dev.Installed.succ {d u : Dev} {g loc n : Nat} {lines : Tab Ln} (h : Dev.Installed d loc lines n u) (hn : n < 64)
    (sound : d.poison.list = []) (cached : d.mdc.has ((loc * 64 + n) / 2) = true)
    (good : (lines.getD n { st := .clean }).st ≠ .poison) (clean : ∀ c, d.lc.get? (g * 64 + n) = some c → c.ln.st ≠ .dirty) :
    Dev.Installed d loc lines (n + 1) (Dev.installLine g loc lines .clean u n) := by
  obtain ⟨wrote, these, others⟩ := h
  have kept : u.poison = d.poison ∧ u.lc = d.lc := by
    obtain ⟨⟨_, _, _, _, _, _, _, _, rfl⟩, _⟩ := wrote
    exact ⟨rfl, rfl⟩
  obtain ⟨poison, lc⟩ := kept
  have here : u.frameLn loc n = d.frameLn loc n := (these n hn).trans (if_neg fun h => absurd h.1 (Nat.lt_irrefl n))
  rw [Dev.installLine_of_clean (by rw [poison]; exact sound) good (by rw [lc]; exact clean), here]
  by_cases absent : (d.frameLn loc n).st = .absent
  · rw [if_pos absent]
    obtain ⟨wrote', frames⟩ := u.dramWrite_wrote loc n { lines.getD n { st := .clean } with st := .clean } (wrote.2 _ cached)
    refine ⟨wrote.trans wrote', fun k hk => ?_, fun fn k hk hfn => ?_⟩
    · rw [Dev.frameLn_congr frames]
      by_cases hkn : k = n
      · subst hkn
        rw [Dev.frameLn_setFrameLn_same, if_pos ⟨Nat.lt_succ_self k, absent⟩]
      · rw [Dev.frameLn_setFrameLn_ne _ hn hk (fun e => hkn (Prod.mk.inj e).2), these k hk]
        simp only [Nat.lt_succ_iff_lt_or_eq, hkn, or_false]
    · rw [Dev.frameLn_congr frames, Dev.frameLn_setFrameLn_ne _ hn hk (fun e => hfn (Prod.mk.inj e).1)]
      exact others fn k hk hfn
  · rw [if_neg absent]
    refine ⟨wrote, fun k hk => ?_, others⟩
    by_cases hkn : k = n
    · subst hkn
      rw [here, if_neg fun h => absent h.2]
    · simp only [Nat.lt_succ_iff_lt_or_eq, hkn, or_false]
      exact these k hk

/-- A clean fill of a granule in DRAM installs its lines where the frame's are ABSENT. -/
theorem Dev.fillInstall_installs {d : Dev} {g : Nat} {f : Fill} {lines : Tab Ln} (state : d.installState f = some .clean)
    (here : (d.fme g).tier = .L) (sound : d.poison.list = [])
    (cached : ∀ k, k < 64 → d.mdc.has (((d.fme g).loc * 64 + k) / 2) = true)
    (good : ∀ k, k < 64 → (lines.getD k { st := .clean }).st ≠ .poison ∧ ∀ c, d.lc.get? (g * 64 + k) = some c → c.ln.st ≠ .dirty) :
    Dev.Installed d (d.fme g).loc lines 64 (d.fillInstall g f lines) := by
  have upTo (n : Nat) (hn : n ≤ 64) :
      Dev.Installed d (d.fme g).loc lines n ((List.range n).foldl (Dev.installLine g (d.fme g).loc lines .clean) d) := by
    induction n with
    | zero => exact .zero d _ _
    | succ n ih =>
      rw [List.range_succ, List.foldl_append]
      exact (ih (Nat.le_of_succ_le hn)).succ hn sound (cached n hn) (good n hn).1 (good n hn).2
  rw [Dev.fillInstall_of_state state here]
  exact upTo 64 (Nat.le_refl 64)

/-- What follows the installing of a fill from flash: its slot is free, PEND falls, its stamp is left and its count taken. -/
def Dev.fillOver (s : Dev) (g : Nat) (f : Fill) : Dev :=
  let s := { s with fills := s.fills.del g }
  let s := (s.setFme g { s.fme g with pend := false }).fillStamp g f
  let s := match f.loan with | some i => { s with lbm := s.lbm.del i } | none => s
  s.count48 Reg.TMG.PROMO_F_LO.COUNT Reg.TMG.PROMO_F_HI.COUNT 1 (tmgPlain 0x17C)

theorem Dev.fillDone_of_flash {s : Dev} {g : Nat} {f : Fill} {l : Tab Ln} (hf : s.fills.get? g = some f) (data : f.data = some l)
    (src : f.src = .F) : s.fillDone g = (s.fillInstall g f l).fillOver g f := by
  have state (u : Dev) : ¬ (u.installState f).isNone = true := by
    unfold Dev.installState
    rw [src]
    exact Bool.false_ne_true
  unfold Dev.fillDone Dev.fillOver
  rw [hf]
  dsimp only
  rw [data]
  dsimp only
  rw [if_neg (state _), src] <;> rfl

/-- What the end of a fill keeps: memory, LC, revokes, and nothing sent. -/
def Dev.AfterFill (s t : Dev) : Prop :=
  ∃ fresh uses regs errors fm flips fmc reads channels lbm row fco psq,
    t = { s with fresh, uses, regs, errors, fm, flips, fmc, reads, channels, lbm, row, fco, psq }

theorem Dev.fillOver_after (s : Dev) (g : Nat) {f : Fill} (alone : f.sti = []) :
    Dev.AfterFill { s with fills := s.fills.del g } (s.fillOver g f) := by
  have stamped (u : Dev) : Dev.OnMap u (u.fillStamp g f) := by
    unfold Dev.fillStamp
    rw [alone]
    exact u.stamp_onMap g _
  unfold Dev.fillOver
  dsimp only
  generalize ({ s with fills := s.fills.del g } : Dev) = v
  have mapped := (v.setFme_onMap g { v.fme g with pend := false }).trans (stamped _)
  generalize (v.setFme g { v.fme g with pend := false }).fillStamp g f = w at mapped ⊢
  obtain ⟨_, _, _, _, _, _, _, _, _, rfl⟩ := mapped
  split
  · obtain ⟨_, _, _, _, e⟩ := Dev.count48_books _ Reg.TMG.PROMO_F_LO.COUNT Reg.TMG.PROMO_F_HI.COUNT 1 (tmgPlain 0x17C)
    rw [e]
    exact ⟨_, _, _, _, _, _, _, _, _, _, _, _, _, rfl⟩
  · obtain ⟨_, _, _, _, e⟩ := Dev.count48_books _ Reg.TMG.PROMO_F_LO.COUNT Reg.TMG.PROMO_F_HI.COUNT 1 (tmgPlain 0x17C)
    rw [e]
    exact ⟨_, _, _, _, _, _, _, _, _, _, _, _, _, rfl⟩

theorem Dev.revokeAll_of_none {s : Dev} (h : s.revokes.list = []) : s.revokeAll = s := by
  unfold Dev.revokeAll Tab.keys
  rw [h]
  rfl

end Sys2Proof.Machine

namespace Sys2Proof
open Machine

/-! ## The clause of O43 on fills that complete -/

theorem fillStandsInItsFrame {s : State} (hq : quiet s) {g : Nat} {f : Fill} (hf : s.dev.fills.get? g = some f) :
    (f.data = none → exec (.fillComplete g) s = .next s) ∧
      (f.data.isSome = true → exec (.fillComplete g) s =
        .next (s.did (f.sti.foldl (fun d x => d.accountGran g f x) (s.dev.fillDone g)).settle.revokeAll)) ∧
      ∀ l, calm s.dev → s.dev.revokes.list = [] → f.data = some l → f.sti = [] → f.src = .F → (s.dev.fme g).tier = .L →
        s.dev.poison.list = [] → (∀ k, k < 64 → s.dev.mdc.has (((s.dev.fme g).loc * 64 + k) / 2) = true) → (∀ k, k < 64 → (l.getD k { st := .clean }).st ≠ .poison ∧
          ∀ c, s.dev.lc.get? (g * 64 + k) = some c → c.ln.st ≠ .dirty) →
        ∃ t, exec (.fillComplete g) s = .next t ∧ t.dev.fills = s.dev.fills.del g ∧ t.sent = s.sent ∧ t.dev.lc = s.dev.lc ∧
          (∀ k, k < 64 → t.dev.frameLn (s.dev.fme g).loc k = if (s.dev.frameLn (s.dev.fme g).loc k).st = .absent then
            { l.getD k { st := .clean } with st := .clean } else s.dev.frameLn (s.dev.fme g).loc k) ∧
          ∀ fn k, k < 64 → fn ≠ (s.dev.fme g).loc → t.dev.frameLn fn k = s.dev.frameLn fn k := by
  have ran : exec (.fillComplete g) s = .next (s.did (s.dev.fillComplete g)) := rfl
  have ends (h : f.data.isSome = true) : s.dev.fillComplete g =
      (f.sti.foldl (fun d x => d.accountGran g f x) (s.dev.fillDone g)).settle.revokeAll := by
    unfold Dev.fillComplete
    rw [hf]
    exact if_neg (by obtain ⟨l, hl⟩ := Option.isSome_iff_exists.mp h; rw [hl]; exact Bool.false_ne_true)
  refine ⟨fun h => ran.trans (State.next_same hq ?_), fun h => ran.trans (State.next_did_congr s (ends h)), ?_⟩
  · unfold Dev.fillComplete
    rw [hf]
    exact if_pos (by rw [h]; rfl)
  · intro l still unrevoked data alone src here sound cached good
    have state : s.dev.installState f = some .clean := by
      unfold Dev.installState
      rw [src]
      rfl
    obtain ⟨wrote, these, others⟩ := Dev.fillInstall_installs state here sound cached good
    have after := (s.dev.fillInstall g f l).fillOver_after g alone
    have done := ends (by rw [data]; rfl)
    rw [alone, Dev.fillDone_of_flash hf data src] at done
    dsimp only [List.foldl] at done
    generalize s.dev.fillInstall g f l = v at wrote these others after done
    generalize v.fillOver g f = w at after done
    have calm' : calm { v with fills := v.fills.del g } := calm_del (calm_wrote still wrote) g
    have frames : w.frames = v.frames := by
      obtain ⟨_, _, _, _, _, _, _, _, _, _, _, _, _, rfl⟩ := after
      rfl
    have kept : calm w ∧ w.revokes.list = [] ∧ w.fills = s.dev.fills.del g ∧ w.out = [] ∧ w.lc = s.dev.lc := by
      obtain ⟨_, _, _, _, _, _, _, _, _, _, _, _, _, rfl⟩ := after
      obtain ⟨⟨_, _, _, _, _, _, _, _, rfl⟩, _⟩ := wrote
      exact ⟨calm', unrevoked, rfl, hq, rfl⟩
    obtain ⟨calm', revokes, fills, out, lc⟩ := kept
    rw [settle_calm calm', Dev.revokeAll_of_none revokes] at done
    refine ⟨_, ran.trans (State.next_did_congr s done), fills, congrArg (· ++ s.sent) out, lc, fun k hk => ?_, fun fn k hk hfn => ?_⟩
    · have same : (s.did w).dev.frameLn (s.dev.fme g).loc k = v.frameLn (s.dev.fme g).loc k :=
        Dev.frameLn_congr (d := v) (u := (s.did w).dev) frames _ k
      rw [same, these k hk]
      have bounded : (k < 64 ∧ (s.dev.frameLn (s.dev.fme g).loc k).st = .absent) = ((s.dev.frameLn (s.dev.fme g).loc k).st = .absent) :=
        propext ⟨fun h => h.2, fun h => ⟨hk, h⟩⟩
      simp only [bounded]
    · exact (Dev.frameLn_congr (d := v) (u := (s.did w).dev) frames fn k).trans (others fn k hk hfn)

end Sys2Proof
end

section
/-! SUPPORT. Known-answer tests that end, and lines of an eviction buffer that go to their frame (R94, R178, R184). -/

namespace Sys2Proof.Machine

/-! ## A request of RNT leaves the registers alone but for its counts -/

/-- `t` is `s` with another state of RNT's engine at most. -/
def Dev.RntOnly (s t : Dev) : Prop := ∃ rnt, t = { s with rnt }

theorem Dev.RntOnly.refl (s : Dev) : Dev.RntOnly s s := ⟨s.rnt, rfl⟩

theorem Dev.RntOnly.trans {s t u : Dev} (h : Dev.RntOnly s t) (k : Dev.RntOnly t u) : Dev.RntOnly s u := by
  obtain ⟨_, rfl⟩ := h
  obtain ⟨rnt, rfl⟩ := k
  exact ⟨rnt, rfl⟩

theorem Dev.RntOnly.ite {s t u : Dev} {c : Prop} [Decidable c] (h : Dev.RntOnly s t) (k : Dev.RntOnly s u) :
    Dev.RntOnly s (if c then t else u) := by
  by_cases hc : c
  · rwa [if_pos hc]
  · rwa [if_neg hc]

theorem Dev.RntOnly.get {s t : Dev} (h : Dev.RntOnly s t) (f : Field) : t.get f = s.get f := by
  obtain ⟨rnt, rfl⟩ := h
  rfl

theorem Dev.setRnt_rntOnly (s : Dev) (f : Rnt → Rnt) : Dev.RntOnly s (s.setRnt f) := ⟨_, rfl⟩

theorem Dev.rntEnter_rntOnly (s : Dev) : Dev.RntOnly s s.rntEnter := by
  unfold Dev.rntEnter
  refine Dev.RntOnly.trans (s.setRnt_rntOnly fun r => { r with waiting := [] }) ?_
  generalize s.rnt.waiting = l
  generalize s.setRnt (fun r => { r with waiting := [] }) = t
  induction l generalizing t with
  | nil => exact .refl t
  | cons j l ih => exact Dev.RntOnly.trans (.ite (t.setRnt_rntOnly _) (t.setRnt_rntOnly _)) (ih _)

theorem Dev.rntRun_rntOnly (s : Dev) (now n : Nat) : Dev.RntOnly s (s.rntRun now n) := by
  induction n generalizing s with
  | zero => exact .refl s
  | succ n ih =>
    unfold Dev.rntRun
    refine .ite (.refl s) ?_
    split
    · exact .refl s
    · split
      · exact .refl s
      · exact .ite (.refl s) (((s.setRnt_rntOnly _).trans (Dev.rntEnter_rntOnly _)).trans (ih _))

theorem Dev.rntCatchUp_rntOnly (s : Dev) : Dev.RntOnly s s.rntCatchUp :=
  (s.rntRun_rntOnly _ _).trans (.ite (Dev.setRnt_rntOnly _ _) (.refl _))

/-- A request of a known-answer test changes no field that stands neither in its class's counts nor in ROW.LOST. -/
theorem Dev.get_rntAsk_vectors (s : Dev) {f : Field} (addr : f.addr < 0x1c0080) (lo : f.lo < 32) (sweep : Bool) (blocks : Nat) :
    (s.rntAsk 7 .vectors sweep blocks).1.get f = s.get f := by
  have row : f.addr ≠ 0x8c0024 := by omega
  have hl : f.addr ≠ (Reg.RNT.JOBS_LO.COUNT 7).addr := by show f.addr ≠ 0x1c00b8; omega
  have hh : f.addr ≠ (Reg.RNT.JOBS_HI.COUNT 7).addr := by show f.addr ≠ 0x1c00bc; omega
  have counted := (Dev.rntCatchUp_rntOnly (s.count48 (Reg.RNT.JOBS_LO.COUNT 7) (Reg.RNT.JOBS_HI.COUNT 7) 1 (Ev.plain 0x07C))).get f |>.trans
    (s.get_count48_of_addr hl hh row lo (by decide) (by decide) 1 (Ev.plain 0x07C))
  unfold Dev.rntAsk
  rw [if_neg (by decide)]
  dsimp only
  generalize (s.count48 (Reg.RNT.JOBS_LO.COUNT 7) (Reg.RNT.JOBS_HI.COUNT 7) 1 (Ev.plain 0x07C)).rntCatchUp = u at counted
  split
  · exact Dev.get_ite ((Dev.get_raise_of_addr _ row lo _).trans counted) counted
  · exact ((u.setRnt_rntOnly _).trans (Dev.rntCatchUp_rntOnly _)).get f |>.trans counted

/-! ## The end of a known-answer test -/

/-- The field of a lane or core among the failed ones, and the count of those that serve. -/
def katFailed (core : Bool) (unit : Nat) : Field :=
  if core then Reg.RNT.KECCAK_FAIL.CORES else if unit < 32 then Reg.RNT.LANE_FAIL_LO.LANES else Reg.RNT.LANE_FAIL_HI.LANES
def katServing (core : Bool) : Field := if core then Reg.RNT.STS.KECCAK_OK else Reg.RNT.STS.LANES_OK

theorem katFailed_placed (core : Bool) (unit : Nat) :
    0x1c0010 ≤ (katFailed core unit).addr ∧ (katFailed core unit).addr < 0x1c0080 ∧ (katFailed core unit).lo < 32 := by
  unfold katFailed
  cases core
  · rw [if_neg Bool.false_ne_true]
    split <;> decide
  · rw [if_pos rfl]
    decide

theorem katServing_placed (core : Bool) : (katServing core).addr = 0x1c0008 ∧ (katServing core).lo < 11 := by
  cases core <;> decide

/-- The test is over: RNT no longer waits for it. -/
def Dev.katTaken (s : Dev) (no : Nat) : Dev := (s.rntAsk 7 .vectors false 0).1.setRnt fun r => { r with kats := r.kats.del no }

/-- A unit that failed its test leaves service (R178). -/
def Dev.katFails (s : Dev) (f c : Field) (b no : Nat) (powerOn : Bool) : Dev :=
  let s := s.set f (withBit (s.get f) b)
  let s := s.set c (s.get c - 1)
  let s := s.raise (rntEv 0x075 7 0 no 0 0 0 (2 ^ 40 - 1) 0 true)
  if powerOn then s.raise (rntEv 0x078 7 0 no 0 0 0 (2 ^ 40 - 1) 0 true) else s

/-- The last of the power-on tests has passed (R184). -/
def Dev.katLast (s : Dev) (powerOn last : Bool) : Dev :=
  if powerOn && last && s.get Reg.RNT.STS.LANES_OK == 48 && s.get Reg.RNT.STS.KECCAK_OK == 24
  then s.setBit Reg.RNT.STS.KAT_DONE true else s

/-- The unit's number and its bit among the failed ones. -/
def katNo (core : Bool) (unit : Nat) : Nat := if core then coreUnit unit else unit
def katBit (core : Bool) (unit : Nat) : Nat := if core then unit else unit % 32

theorem Dev.kat_eq (s : Dev) (core : Bool) (unit : Nat) (pass powerOn last : Bool) :
    s.kat core unit pass powerOn last =
      (if pass then s.katTaken (katNo core unit)
        else if ((s.katTaken (katNo core unit)).get (katFailed core unit)).testBit (katBit core unit) then s.katTaken (katNo core unit)
        else (s.katTaken (katNo core unit)).katFails (katFailed core unit) (katServing core) (katBit core unit) (katNo core unit) powerOn).katLast
        powerOn last := rfl

theorem Dev.katTaken_onRnt (s : Dev) (no : Nat) : Dev.OnRnt s (s.katTaken no) :=
  (s.rntAsk_onRnt 7 .vectors false 0).trans (Dev.setRnt_onRnt _ _)

theorem Dev.get_katTaken (s : Dev) (no : Nat) {f : Field} (addr : f.addr < 0x1c0080) (lo : f.lo < 32) : (s.katTaken no).get f = s.get f :=
  ((Dev.setRnt_rntOnly _ _).get f).trans (s.get_rntAsk_vectors addr lo false 0)

theorem Dev.katFails_books (s : Dev) (f c : Field) (b no : Nat) (on : Bool) : Dev.Books s (s.katFails f c b no on) :=
  (((s.set_books f _).trans (Dev.set_books _ c _)).trans (Dev.raise_books _ _)).trans (Dev.Books.ite (Dev.raise_books _ _) (.refl _))

theorem Dev.katLast_books (s : Dev) (on last : Bool) : Dev.Books s (s.katLast on last) := Dev.Books.ite (s.setBit_books _ _) (.refl s)

theorem Dev.get_katLast (s : Dev) (on last : Bool) {f : Field} (h : f.key ≠ Reg.RNT.STS.KAT_DONE.key) :
    (s.katLast on last).get f = s.get f := Dev.get_ite (s.get_set_ne h _) rfl

theorem Dev.get_katFails (s : Dev) {f c : Field} (b no : Nat) (on : Bool) (apart : f.addr ≠ c.addr) (hf : f.lo < 32) (hc : c.lo < 32)
    (rf : f.addr ≠ 0x8c0024) (rc : c.addr ≠ 0x8c0024) :
    (s.katFails f c b no on).get f = withBit (s.get f) b % 2 ^ f.width ∧ (s.katFails f c b no on).get c = (s.get c - 1) % 2 ^ c.width := by
  have told (u : Dev) {x : Field} (rx : x.addr ≠ 0x8c0024) (hx : x.lo < 32) :
      (if on then (u.raise (rntEv 0x075 7 0 no 0 0 0 (2 ^ 40 - 1) 0 true)).raise (rntEv 0x078 7 0 no 0 0 0 (2 ^ 40 - 1) 0 true)
        else u.raise (rntEv 0x075 7 0 no 0 0 0 (2 ^ 40 - 1) 0 true)).get x = u.get x :=
    Dev.get_ite ((Dev.get_raise_of_addr _ rx hx _).trans (Dev.get_raise_of_addr _ rx hx _)) (Dev.get_raise_of_addr _ rx hx _)
  constructor
  · exact (told _ rf hf).trans ((Dev.get_set_of_addr _ apart hf hc _).trans (s.get_set_same f _))
  · refine (told _ rc hc).trans ((Dev.get_set_same _ c _).trans ?_)
    rw [Dev.get_set_of_addr _ apart.symm hc hf]

end Sys2Proof.Machine

namespace Sys2Proof
open Machine

/-! ## The clause of O43 on known-answer tests -/

theorem selfTestEnds {s : State} (hq : quiet s) (core : Bool) (u : Nat) (on last : Bool) (hu : u < (if core then 24 else 48)) (pass : Bool) :
    ∃ t, exec (.katComplete core u pass on last) s = .next t ∧
      t.dev.frames = s.dev.frames ∧ t.dev.island = s.dev.island ∧ t.sent = s.sent ∧
      (pass = true ∨ (s.dev.get (katFailed core u)).testBit (u % 32) = true →
        t.dev.get (katFailed core u) = s.dev.get (katFailed core u) ∧ t.dev.get (katServing core) = s.dev.get (katServing core)) ∧
      (pass = false → (s.dev.get (katFailed core u)).testBit (u % 32) = false →
        t.dev.get (katFailed core u) = withBit (s.dev.get (katFailed core u)) (u % 32) % 2 ^ (katFailed core u).width ∧
          t.dev.get (katServing core) = (s.dev.get (katServing core) - 1) % 2 ^ (katServing core).width) ∧
      (pass = true → on = true → last = true → s.dev.get Reg.RNT.STS.LANES_OK = 48 → s.dev.get Reg.RNT.STS.KECCAK_OK = 24 →
        t.dev.bit Reg.RNT.STS.KAT_DONE = true) := by
  obtain ⟨flo, fhi, fbit⟩ := katFailed_placed core u
  obtain ⟨caddr, clo⟩ := katServing_placed core
  have ran : exec (.katComplete core u pass on last) s = .next (s.did (s.dev.kat core u pass on last)) := by
    refine State.next_did_congr s (if_pos ?_)
    cases core
    · exact decide_eq_true hu
    · exact (Bool.or_false _).trans (decide_eq_true hu)
  have bit : katBit core u = u % 32 := by
    cases core
    · rfl
    · exact (Nat.mod_eq_of_lt (Nat.lt_trans hu (by decide))).symm
  have eq := s.dev.kat_eq core u pass on last
  rw [bit] at eq
  have taken := s.dev.katTaken_onRnt (katNo core u)
  have gets {f : Field} (a : f.addr < 0x1c0080) (l : f.lo < 32) := s.dev.get_katTaken (katNo core u) a l
  generalize s.dev.katTaken (katNo core u) = v at eq taken gets
  have getf := gets fhi fbit
  have getc := gets (f := katServing core) (by omega) (by omega)
  have apartf : (katFailed core u).key ≠ Reg.RNT.STS.KAT_DONE.key :=
    Field.key_ne_of_addr (show (katFailed core u).addr ≠ 0x1c0008 by omega) fbit (by decide)
  have apartc : (katServing core).key ≠ Reg.RNT.STS.KAT_DONE.key :=
    Field.key_ne_of_lo (show (katServing core).lo ≠ 11 by omega) (by omega) (by decide)
  have all : Dev.OnRnt s.dev (s.dev.kat core u pass on last) := by
    rw [eq]
    exact taken.trans ((Dev.OnRnt.ite (.refl v) (.ite (.refl v) (v.katFails_books _ _ _ _ _).onRnt)).trans (Dev.katLast_books _ _ _).onRnt)
  have kept : (s.dev.kat core u pass on last).frames = s.dev.frames ∧ (s.dev.kat core u pass on last).island = s.dev.island ∧
      (s.dev.kat core u pass on last).out = [] := by
    obtain ⟨_, _, _, _, _, e⟩ := all
    rw [e]
    exact ⟨rfl, rfl, hq⟩
  obtain ⟨frames, island, out⟩ := kept
  refine ⟨_, ran, frames, island, congrArg (· ++ s.sent) out, fun h => ?_, fun fails serves => ?_, fun passes hon hlast lanes cores => ?_⟩
  · have stays : s.dev.kat core u pass on last = v.katLast on last := by
      rw [eq]
      refine congrArg (fun d : Dev => d.katLast on last) ?_
      rcases h with h | h
      · exact if_pos h
      · by_cases hp : pass = true
        · exact if_pos hp
        · exact (if_neg hp).trans (if_pos (by rw [getf]; exact h))
    exact ⟨((s.did_get _ _).trans (by rw [stays]; exact v.get_katLast on last apartf)).trans getf,
      ((s.did_get _ _).trans (by rw [stays]; exact v.get_katLast on last apartc)).trans getc⟩
  · have left : s.dev.kat core u pass on last =
        (v.katFails (katFailed core u) (katServing core) (u % 32) (katNo core u) on).katLast on last := by
      rw [eq]
      refine congrArg (fun d : Dev => d.katLast on last) ((if_neg ?_).trans (if_neg ?_))
      · rw [fails]; exact Bool.false_ne_true
      · rw [getf, serves]; exact Bool.false_ne_true
    obtain ⟨wf, wc⟩ := v.get_katFails (f := katFailed core u) (c := katServing core) (u % 32) (katNo core u) on (by omega) fbit (by omega)
      (by omega) (by omega)
    rw [getf] at wf
    rw [getc] at wc
    exact ⟨((s.did_get _ _).trans (by rw [left]; exact Dev.get_katLast _ on last apartf)).trans wf,
      ((s.did_get _ _).trans (by rw [left]; exact Dev.get_katLast _ on last apartc)).trans wc⟩
  · have lanes' : v.get Reg.RNT.STS.LANES_OK = 48 := (gets (by decide) (by decide)).trans lanes
    have cores' : v.get Reg.RNT.STS.KECCAK_OK = 24 := (gets (by decide) (by decide)).trans cores
    have marked : s.dev.kat core u pass on last = v.setBit Reg.RNT.STS.KAT_DONE true := by
      rw [eq, if_pos passes]
      refine if_pos ?_
      rw [hon, hlast, lanes', cores']
      rfl
    rw [marked]
    exact Dev.bit_setBit_same v rfl true

end Sys2Proof
end

section
/-! SUPPORT. Write-back of evicted lines, persistent flushes, the age clock, background eviction and quotas (R48, R94, R219–R222, R228). -/

namespace Sys2Proof.Machine

/-! ## Lines of an eviction buffer -/

theorem calm_delLine {d : Dev} (h : calm d) (line : Nat) : calm { d with lc := d.lc.del line } := by
  obtain ⟨alloc, rte, link, copies, hints, waits, serving, persist, gpf, wab, fills, dirty, lc⟩ := h
  exact ⟨alloc, rte, link, copies, hints, waits, serving, persist, gpf, wab, fills, dirty, fun z hz => lc z (mem_erase hz)⟩

theorem Dev.lcWriteback_of_dirty {d : Dev} {line : Nat} {c : CacheLn} (hc : d.lc.get? line = some c) (dirty : c.ln.st = .dirty)
    (here : (d.fme (granOf line)).tier = .L) (room : d.queueFull (d.fme (granOf line)).loc (line % 64) = false) (sound : d.flips.list = []) :
    d.lcWriteback line = ({ d with lc := d.lc.del line } : Dev).dramWrite (d.fme (granOf line)).loc (line % 64) c.ln := by
  unfold Dev.lcWriteback
  rw [hc]
  dsimp only
  rw [if_pos dirty, room, if_neg Bool.false_ne_true, Dev.sramRead_none d sound]
  dsimp only
  rw [if_neg Bool.false_ne_true]
  exact if_pos here

/-! ## Persistent flushes -/

/-- The flushes that wait, with one more. -/
def Dev.flushAsked (s : Dev) (h : Nat) : Dev := { s with mirror := { s.mirror with gpf := s.mirror.gpf ++ [(h, s.openWrites)] } }

theorem persistCheck_of_unfenced {d : Dev} (h : d.mirror.persist = []) : d.persistCheck = d := by
  unfold Dev.persistCheck
  dsimp only
  rw [h]
  dsimp only [List.filter, List.foldl]
  rw [← h]

theorem Dev.mirror_self {d : Dev} {m : Mirror} (h : m = d.mirror) : ({ d with mirror := m } : Dev) = d := by rw [h]

/-- A flush with no write before it, and no twin, ends at once. -/
theorem Dev.gpfCheck_of_open {d : Dev} {h : Nat} (persist : d.mirror.persist = []) (gpf : d.mirror.gpf = []) (writes : d.openWrites = [])
    (alone : d.lockstep = false) : (d.flushAsked h).gpfCheck = d.gpfPhase2 h := by
  have queued : (d.flushAsked h).mirror.gpf = [(h, [])] := by
    show d.mirror.gpf ++ [(h, d.openWrites)] = _
    rw [gpf, writes]
    rfl
  have alone' : (d.flushAsked h).lockstep = false := alone
  have back : ({ d.flushAsked h with mirror := { (d.flushAsked h).mirror with gpf := [] } } : Dev) = d :=
    Dev.mirror_self (d := d) (by rw [← gpf]; rfl)
  unfold Dev.gpfCheck
  dsimp only
  rw [persistCheck_of_unfenced (d := d.flushAsked h) persist, queued, alone']
  exact congrArg (fun d : Dev => d.gpfPhase2 h) back

/-- A flush waits for the writes before it. -/
theorem Dev.gpfCheck_of_writes {d : Dev} {h : Nat} (persist : d.mirror.persist = []) (gpf : d.mirror.gpf = []) (writes : d.openWrites ≠ []) :
    (d.flushAsked h).gpfCheck = { d with mirror := { d.mirror with gpf := [(h, d.openWrites)] } } := by
  have queued : (d.flushAsked h).mirror.gpf = [(h, d.openWrites)] := by
    show d.mirror.gpf ++ [(h, d.openWrites)] = _
    rw [gpf]
    rfl
  have same (q : HostReq) : sameReq q q = true := by simp [sameReq]
  have left : (d.openWrites.any fun a => (d.flushAsked h).openWrites.any (sameReq a)) = true := by
    obtain ⟨a, l, hl⟩ := List.exists_cons_of_ne_nil writes
    have mem : a ∈ d.openWrites := by rw [hl]; exact List.mem_cons_self
    exact List.any_eq_true.2 ⟨a, mem, List.any_eq_true.2 ⟨a, mem, same a⟩⟩
  unfold Dev.gpfCheck
  dsimp only
  rw [persistCheck_of_unfenced (d := d.flushAsked h) persist, queued]
  dsimp only [List.filter]
  rw [left]
  rfl

theorem Dev.gpfPhase2_of_alone {d : Dev} (alone : d.lockstep = false) (h : Nat) :
    ∃ u, Dev.Books d u ∧ d.gpfPhase2 h = u.send (.gpfDone h) := by
  unfold Dev.gpfPhase2
  rw [alone, if_neg Bool.false_ne_true]
  exact ⟨_, d.raise_books _, rfl⟩

/-! ## The age clock -/

theorem Dev.get_ageTick (d : Dev) : d.ageTick.get Reg.TMG.AGE_NOW.NOW = (d.ageNow + 1) % 65536 :=
  (d.get_set_same Reg.TMG.AGE_NOW.NOW _).trans (Nat.mod_mod _ _)

/-- The stamp of an entry after a tick: one too old to tell is capped (R220). -/
theorem Dev.fm_ageTick {d : Dev} {g : Nat} {e : FmEntry} (h : d.fm.get? g = some e) :
    d.ageTick.fm.get? g = some { e with age :=
      if e.tier ≠ .F ∧ 32767 < ((d.ageNow + 1) % 65536 + 65536 - e.age) % 65536 then ((d.ageNow + 1) % 65536 + 32769) % 65536 else e.age } := by
  refine (Tab.get?_map _ _ g).trans ?_
  show (d.fm.get? g).map _ = _
  rw [h]
  refine congrArg some ?_
  by_cases old : e.tier ≠ .F ∧ 32767 < ((d.ageNow + 1) % 65536 + 65536 - e.age) % 65536
  · have old' : (e.tier != .F && decide (32767 < ((d.ageNow + 1) % 65536 + 65536 - e.age) % 65536)) = true := by
      rw [decide_eq_true old.2, Bool.and_true]
      exact bne_iff_ne.2 old.1
    have cap : (d.ageNow + 1) % 65536 + 65536 - 32767 = (d.ageNow + 1) % 65536 + 32769 := by omega
    exact (if_pos old').trans (by rw [if_pos old, cap])
  · have young : ¬ (e.tier != .F && decide (32767 < ((d.ageNow + 1) % 65536 + 65536 - e.age) % 65536)) = true := fun h => by
      obtain ⟨a, b⟩ := (Bool.and_eq_true _ _).mp h
      exact old ⟨bne_iff_ne.1 a, of_decide_eq_true b⟩
    exact (if_neg young).trans (by rw [if_neg old])

theorem Dev.lc_ageTick {d : Dev} {l : Nat} {c : CacheLn} (h : d.lc.get? l = some c) : d.ageTick.lc.get? l = some { c with touch := false } := by
  refine (Tab.get?_map _ _ l).trans ?_
  show (d.lc.get? l).map _ = _
  rw [h]
  rfl

/-! ## Background eviction -/

theorem Dev.evictBelow_of_free {d : Dev} (h : d.get Reg.TMG.FREE_MIN.FRAMES ≤ d.freeFrames) (n : Nat) : d.evictBelow n = d := by
  cases n with
  | zero => rfl
  | succ n => exact if_pos h

theorem Dev.evictBelow_of_short {d u : Dev} {n : Nat} {v : Nat × RmEntry} (h : d.freeFrames < d.get Reg.TMG.FREE_MIN.FRAMES)
    (oldest : d.oldest (fun t => decide ((d.quota t).lQuota < d.useL t)) = (u, some v)) :
    d.evictBelow (n + 1) = (u.evictFrame v.1 v.2).evictBelow n := by
  refine (if_neg (Nat.not_le.2 h)).trans ?_
  rw [oldest]

/-! ## Quotas -/

/-- A quota that may not be: more reserved than there is, or its parts out of order (R228). -/
def Dev.quotaBad (d : Dev) (old new : TenantQuota) : Prop :=
  old.lQuota < new.lQuota ∧ d.lFrames < d.qsumL - old.lQuota + new.lQuota + 4096 ∨ new.lQuota < new.pinQuota ∨ new.lMax < new.lQuota

/-- A tenant's quotas stand, and are told of. -/
def Dev.quotaSet (d : Dev) (x which : Nat) (old new : TenantQuota) : Dev :=
  (({ d with quotas := d.quotas.putD x new {} } : Dev).raise (tmgEv 0x17E 255 x 0 (2 ^ 40 - 1) (old.read which) (new.read which) true)).overcommit
    false

theorem Dev.quotaSet_books (d : Dev) (x which : Nat) (old new : TenantQuota) :
    Dev.Books { d with quotas := d.quotas.putD x new {} } (d.quotaSet x which old new) :=
  (Dev.raise_books _ _).trans (Dev.overcommit_books _ _)

theorem Dev.quotaWrite_of_good {d : Dev} {which v : Nat}
    (h : ¬ d.quotaBad (d.quota (d.get Reg.TMG.TEN_SEL.TENANT)) ((d.quota (d.get Reg.TMG.TEN_SEL.TENANT)).write which v)) :
    d.quotaWrite which v = (d.quotaSet (d.get Reg.TMG.TEN_SEL.TENANT) which (d.quota (d.get Reg.TMG.TEN_SEL.TENANT))
      ((d.quota (d.get Reg.TMG.TEN_SEL.TENANT)).write which v)).settle := if_neg h

theorem Dev.quotaWrite_of_bad {d : Dev} {which v : Nat}
    (h : d.quotaBad (d.quota (d.get Reg.TMG.TEN_SEL.TENANT)) ((d.quota (d.get Reg.TMG.TEN_SEL.TENANT)).write which v)) :
    Dev.Books d (d.quotaWrite which v) := by
  have refused : ∃ off, d.quotaWrite which v = d.discard off 2 := ⟨_, if_pos h⟩
  obtain ⟨off, refused⟩ := refused
  rw [refused]
  exact d.discard_books off 2

end Sys2Proof.Machine

namespace Sys2Proof
open Machine

/-! ## The clauses of O43 on write-backs, flushes, ages, evictions, retries and quotas -/

theorem evictedLineIsWrittenBack {s : State} (hq : quiet s) (slice : Nat) :
    (lruWay (s.dev.lcBuffer slice) = none → exec (.lcEvictionWriteback slice) s = .next s) ∧
      ∀ line c, lruWay (s.dev.lcBuffer slice) = some (line, c) →
        exec (.lcEvictionWriteback slice) s = .next (s.did (s.dev.lcWriteback line).settle) ∧
        (calm s.dev → s.dev.lc.get? line = some c → c.ln.st = .dirty → (s.dev.fme (granOf line)).tier = .L →
          s.dev.queueFull (s.dev.fme (granOf line)).loc (line % 64) = false → s.dev.flips.list = [] →
          s.dev.mdc.has (((s.dev.fme (granOf line)).loc * 64 + line % 64) / 2) = true →
          ∃ t, exec (.lcEvictionWriteback slice) s = .next t ∧ t.dev.lc = s.dev.lc.del line ∧ t.sent = s.sent ∧
            t.dev.frameLn (s.dev.fme (granOf line)).loc (line % 64) = c.ln ∧
            ∀ fn k, k < 64 → (fn, k) ≠ ((s.dev.fme (granOf line)).loc, line % 64) → t.dev.frameLn fn k = s.dev.frameLn fn k) := by
  have ran : exec (.lcEvictionWriteback slice) s =
      .next (s.did (match lruWay (s.dev.lcBuffer slice) with | some v => (s.dev.lcWriteback v.1).settle | none => s.dev)) := rfl
  refine ⟨fun h => ran.trans ?_, fun line c h => ?_⟩
  · rw [h]
    exact State.next_same hq rfl
  · rw [h] at ran
    refine ⟨ran, ?_⟩
    intro still hc dirty here room sound cached
    have back := Dev.lcWriteback_of_dirty hc dirty here room sound
    obtain ⟨wrote, frames⟩ := Dev.dramWrite_wrote { s.dev with lc := s.dev.lc.del line } (s.dev.fme (granOf line)).loc (line % 64) c.ln cached
    dsimp only at ran
    rw [back, settle_calm (calm_wrote (calm_delLine still line) wrote)] at ran
    generalize ({ s.dev with lc := s.dev.lc.del line } : Dev).dramWrite (s.dev.fme (granOf line)).loc (line % 64) c.ln = d at ran wrote frames
    have kept : d.lc = s.dev.lc.del line ∧ d.out = [] := by
      obtain ⟨⟨_, _, _, _, _, _, _, _, rfl⟩, _⟩ := wrote
      exact ⟨rfl, hq⟩
    have reads (fn k : Nat) : (s.did d).dev.frameLn fn k = (s.dev.setFrameLn (s.dev.fme (granOf line)).loc (line % 64) c.ln).frameLn fn k :=
      Dev.frameLn_congr (d := s.dev.setFrameLn (s.dev.fme (granOf line)).loc (line % 64) c.ln) (u := (s.did d).dev) frames fn k
    refine ⟨_, ran, kept.1, congrArg (· ++ s.sent) kept.2, ?_, fun fn k hk apart => ?_⟩
    · exact (reads _ _).trans (Dev.frameLn_setFrameLn_same _ _ _ _)
    · exact (reads _ _).trans (Dev.frameLn_setFrameLn_ne _ (Nat.mod_lt _ (by decide)) hk apart _)

theorem flushWaitsForWrites {s : State} (hq : quiet s) (h : Nat) :
    (s.dev.memOpen h = false → exec (.globalPersistentFlush h) s = .next s) ∧
      (s.dev.memOpen h = true → exec (.globalPersistentFlush h) s = .next (s.did (s.dev.flushAsked h).gpfCheck)) ∧
      (calm s.dev → s.dev.memOpen h = true → s.dev.openWrites = [] → s.dev.lockstep = false →
        ∃ t, exec (.globalPersistentFlush h) s = .next t ∧ t.sent = .gpfDone h :: s.sent ∧ t.dev.frames = s.dev.frames ∧
          t.dev.mirror = s.dev.mirror) ∧
      (calm s.dev → s.dev.memOpen h = true → s.dev.openWrites ≠ [] →
        exec (.globalPersistentFlush h) s = .next (withDev s { s.dev with mirror := { s.dev.mirror with gpf := [(h, s.dev.openWrites)] } })) := by
  have ran : exec (.globalPersistentFlush h) s = .next (s.did (if s.dev.memOpen h then (s.dev.flushAsked h).gpfCheck else s.dev)) := rfl
  have asked (on : s.dev.memOpen h = true) : exec (.globalPersistentFlush h) s = .next (s.did (s.dev.flushAsked h).gpfCheck) :=
    ran.trans (State.next_did_congr s (if_pos on))
  refine ⟨fun off => ran.trans (State.next_same hq (if_neg (by rw [off]; exact Bool.false_ne_true))), asked, ?_, ?_⟩
  · intro still on writes alone
    obtain ⟨-, -, -, -, -, -, -, persist, gpf, -⟩ := still
    obtain ⟨u, books, ends⟩ := Dev.gpfPhase2_of_alone alone h
    obtain ⟨out, frames, -⟩ := Dev.Books.keeps books
    have mirror : u.mirror = s.dev.mirror := by
      obtain ⟨_, _, _, _, rfl⟩ := books
      rfl
    exact ⟨_, (asked on).trans (State.next_did_congr s ((Dev.gpfCheck_of_open persist gpf writes alone).trans ends)),
      congrArg (fun l => (.gpfDone h :: l) ++ s.sent) (out.trans hq), frames, mirror⟩
  · intro still on writes
    obtain ⟨-, -, -, -, -, -, -, persist, gpf, -⟩ := still
    exact (asked on).trans (State.next_kept hq (Dev.gpfCheck_of_writes persist gpf writes) rfl)

theorem ageClockAdvances {s : State} (hq : quiet s) :
    ∃ t, exec .ageTick s = .next t ∧ t.dev.get Reg.TMG.AGE_NOW.NOW = (s.dev.ageNow + 1) % 65536 ∧ t.dev.frames = s.dev.frames ∧
      t.dev.rm = s.dev.rm ∧ t.sent = s.sent ∧ (∀ l c, s.dev.lc.get? l = some c → t.dev.lc.get? l = some { c with touch := false }) ∧
      ∀ g e, s.dev.fm.get? g = some e → t.dev.fm.get? g = some { e with age :=
        if e.tier ≠ .F ∧ 32767 < ((s.dev.ageNow + 1) % 65536 + 65536 - e.age) % 65536 then ((s.dev.ageNow + 1) % 65536 + 32769) % 65536 else e.age } :=
  ⟨s.did s.dev.ageTick, rfl, (s.did_get _ _).trans s.dev.get_ageTick, rfl, rfl, congrArg (· ++ s.sent) hq, fun _ _ h => Dev.lc_ageTick h,
    fun _ _ h => Dev.fm_ageTick h⟩

theorem framesAreFreed {s : State} (hq : quiet s) :
    (calm s.dev → s.dev.get Reg.TMG.FREE_MIN.FRAMES ≤ s.dev.freeFrames → exec .backgroundEviction s = .next s) ∧
    (∀ u v n, s.dev.freeFrames < s.dev.get Reg.TMG.FREE_MIN.FRAMES → s.dev.rm.size = n + 1 →
      s.dev.oldest (fun t => decide ((s.dev.quota t).lQuota < s.dev.useL t)) = (u, some v) →
      exec .backgroundEviction s = .next (s.did ((u.evictFrame v.1 v.2).evictBelow n).settle)) := by
  have ran : exec .backgroundEviction s = .next (s.did (s.dev.evictBelow s.dev.rm.size).settle) := rfl
  constructor
  · intro still free
    rw [ran, Dev.evictBelow_of_free free, settle_calm still]
    exact State.next_same hq rfl
  · intro u v n short size oldest
    rw [ran, size, Dev.evictBelow_of_short short oldest]

theorem waitingIsTriedAgain {s : State} (hq : quiet s) :
    exec .allocationRetry s = .next (s.did s.dev.settle) ∧ (calm s.dev → exec .allocationRetry s = .next s) :=
  ⟨rfl, fun still => State.next_same hq (settle_calm still)⟩

theorem quotaIsSet {s : State} (hq : quiet s) (which v : Nat) (hw : which < 4) :
    let x := s.dev.get Reg.TMG.TEN_SEL.TENANT
    let old := s.dev.quota x
    let new := old.write which v
    (¬ s.dev.quotaBad old new → exec (.quotaWrite which v) s = .next (s.did (s.dev.quotaSet x which old new).settle)) ∧
      (calm s.dev → ¬ s.dev.quotaBad old new → ∃ t, exec (.quotaWrite which v) s = .next t ∧ t.dev.quota x = new ∧
        (∀ y, y ≠ x → t.dev.quota y = s.dev.quota y) ∧ t.dev.frames = s.dev.frames ∧ t.dev.fm = s.dev.fm ∧ t.sent = s.sent) ∧
      (s.dev.quotaBad old new → ∃ t, exec (.quotaWrite which v) s = .next t ∧ t.dev.quotas = s.dev.quotas ∧ t.dev.frames = s.dev.frames ∧
        t.sent = s.sent) := by
  intro x old new
  have ran : exec (.quotaWrite which v) s = .next (s.did (s.dev.quotaWrite which v)) := State.next_did_congr s (if_pos hw)
  have stands (good : ¬ s.dev.quotaBad old new) : s.dev.quotaWrite which v = (s.dev.quotaSet x which old new).settle :=
    Dev.quotaWrite_of_good good
  refine ⟨fun good => ran.trans (State.next_did_congr s (stands good)), fun still good => ?_, fun bad => ?_⟩
  · have books := s.dev.quotaSet_books x which old new
    have done := stands good
    rw [settle_calm (calm_books (calm_congr (e := { s.dev with quotas := s.dev.quotas.putD x new {} }) still rfl rfl rfl rfl rfl rfl rfl rfl
      rfl rfl rfl) books)] at done
    generalize s.dev.quotaSet x which old new = d at books done
    have kept : d.quotas = s.dev.quotas.putD x new {} ∧ d.frames = s.dev.frames ∧ d.fm = s.dev.fm ∧ d.out = [] := by
      obtain ⟨_, _, _, _, rfl⟩ := books
      exact ⟨rfl, rfl, rfl, hq⟩
    obtain ⟨quotas, frames, fm, out⟩ := kept
    refine ⟨_, ran.trans (State.next_did_congr s done), ?_, fun y hy => ?_, frames, fm, congrArg (· ++ s.sent) out⟩
    · exact (congrArg (fun t : Tab TenantQuota => t.getD x {}) quotas).trans (Tab.getD_putD_same _ _ _ _)
    · exact (congrArg (fun t : Tab TenantQuota => t.getD y {}) quotas).trans (Tab.getD_putD_ne _ hy _ _ _)
  · have books : Dev.Books s.dev (s.dev.quotaWrite which v) := Dev.quotaWrite_of_bad bad
    obtain ⟨out, frames, -⟩ := Dev.Books.keeps books
    have quotas : (s.dev.quotaWrite which v).quotas = s.dev.quotas := by
      obtain ⟨_, _, _, _, e⟩ := books
      rw [e]
    exact ⟨_, ran, quotas, frames, congrArg (· ++ s.sent) (out.trans hq)⟩

end Sys2Proof
end

section
/-! SUPPORT. Lost lines of the frame map, and lost channels (R217, R234, R236). -/

namespace Sys2Proof.Machine

/-! ## What the reading of the image rests on -/

theorem Dev.driveSt_congr {s t : Dev} (drives : t.imageDrives = s.imageDrives)
    (states : ∀ p, p < 8 → t.get (Reg.NVH.DRV.STATE p) = s.get (Reg.NVH.DRV.STATE p)) (d : Nat) : t.driveSt d = s.driveSt d := by
  unfold Dev.driveSt
  rw [drives]
  split
  · next p hp => exact states p (setBits_lt hp)
  · rfl

theorem Dev.driveOk_congr {s t : Dev} (h : ∀ d, t.driveSt d = s.driveSt d) (d : Nat) : t.driveOk d = s.driveOk d := by
  unfold Dev.driveOk
  rw [h]

theorem Dev.medium_congr {s t : Dev} (drives : t.imageDrives = s.imageDrives) (media : t.media = s.media) (d : Nat) :
    t.medium d = s.medium d := by
  unfold Dev.medium
  rw [drives, media]

theorem driveMask_steady : Reg.NVH.IMG_CFG.DRIVE_MASK.steady := ⟨by decide, by decide⟩
theorem driveState_steady (p : Nat) : (Reg.NVH.DRV.STATE p).steady :=
  ⟨(by decide : 0 < 32), .inr (show 0x582000 ≤ 0x680020 + 0x4 * p by omega)⟩
theorem ageNow_steady : Reg.TMG.AGE_NOW.NOW.steady := ⟨by decide, by decide⟩

/-! ## The entry of a granule, rebuilt -/

/-- The entry of a granule as the image's map and the reverse maps give it (R234). -/
def Dev.rebuilt (s : Dev) (g : Nat) : FmEntry :=
  let d := homeSlot s.imageN g
  let ew := if s.driveOk d then (s.medium d).map.has (homeIndex s.imageN g) else (s.fme g).ew
  match s.rm.list.find? fun x => x.2.fstate == .inUse && x.2.owned && x.2.gran == g with
  | some x => { ew, pin := x.2.pin, cnt := x.2.cnt, tier := .L, loc := x.1, age := s.ageNow }
  | none => match s.lbm.list.find? fun x => x.2.valid && x.2.gran == g with
    | some x => { ew, tier := .N, loc := x.1, age := s.ageNow }
    | none => { ew, age := s.ageNow }

theorem Dev.fmRebuild_eq (s : Dev) (g : Nat) : s.fmRebuild g = s.setFme g (s.rebuilt g) := rfl

theorem Dev.ew_rebuilt (s : Dev) (g : Nat) : (s.rebuilt g).ew =
    (if s.driveOk (homeSlot s.imageN g) then (s.medium (homeSlot s.imageN g)).map.has (homeIndex s.imageN g) else (s.fme g).ew) := by
  unfold Dev.rebuilt
  dsimp only
  split
  · rfl
  · split <;> rfl

/-- A rebuilt granule lies in DRAM just where a frame in use is its own. -/
theorem Dev.tier_rebuilt (s : Dev) (g : Nat) : (s.rebuilt g).tier = .L ↔
    ∃ x ∈ s.rm.list, x.2.fstate = .inUse ∧ x.2.owned = true ∧ x.2.gran = g := by
  unfold Dev.rebuilt
  dsimp only
  split
  · next x hx =>
    have mem := List.mem_of_find?_eq_some hx
    have held := List.find?_some hx
    simp only [Bool.and_eq_true, beq_iff_eq] at held
    exact ⟨fun _ => ⟨x, mem, held.1.1, held.1.2, held.2⟩, fun _ => rfl⟩
  · next none_ =>
    have nowhere : ¬ ∃ x ∈ s.rm.list, x.2.fstate = .inUse ∧ x.2.owned = true ∧ x.2.gran = g := by
      rintro ⟨x, hx, inUse, owned, gran⟩
      have free := List.find?_eq_none.1 none_ x hx
      rw [inUse, owned, gran] at free
      simp at free
    refine ⟨fun h => ?_, fun h => absurd h nowhere⟩
    split at h
    · cases h
    · cases h

theorem Dev.rebuilt_congr {s t : Dev} (drives : t.imageDrives = s.imageDrives) (states : ∀ d, t.driveSt d = s.driveSt d)
    (media : t.media = s.media) (rm : t.rm = s.rm) (lbm : t.lbm = s.lbm) (age : t.ageNow = s.ageNow) {g : Nat} (h : t.fme g = s.fme g) :
    t.rebuilt g = s.rebuilt g := by
  have number : t.imageN = s.imageN := congrArg List.length drives
  unfold Dev.rebuilt
  dsimp only
  rw [number, Dev.driveOk_congr states, Dev.medium_congr drives media, rm, lbm, age, h]

/-! ## A frame-map line, rebuilt -/

/-- The first `n` entries of a frame-map line are rebuilt, and nothing else of the map is changed. -/
def Dev.Remapped (d : Dev) (line n : Nat) (u : Dev) : Prop :=
  Dev.OnMap d u ∧ (∀ f : Field, f.steady → u.get f = d.get f) ∧ u.imageDrives = d.imageDrives ∧
    (∀ g, (g / 8 = line ∧ g % 8 < n → u.fme g = d.rebuilt g) ∧ (¬ (g / 8 = line ∧ g % 8 < n) → u.fme g = d.fme g))

theorem Dev.Remapped.zero (d : Dev) (line : Nat) : Dev.Remapped d line 0 d :=
  ⟨.refl d, fun _ _ => rfl, rfl, fun _ => ⟨fun h => absurd h.2 (Nat.not_lt_zero _), fun _ => rfl⟩⟩

theorem Dev.Remapped.succ {d u : Dev} {line n : Nat} (h : Dev.Remapped d line n u) (hn : n < 8) :
    Dev.Remapped d line (n + 1) (u.fmRebuild (8 * line + n)) := by
  obtain ⟨mapped, steady, drives, entries⟩ := h
  have kept : u.media = d.media ∧ u.rm = d.rm ∧ u.lbm = d.lbm := by
    obtain ⟨_, _, _, _, _, _, _, _, _, rfl⟩ := mapped
    exact ⟨rfl, rfl, rfl⟩
  obtain ⟨media, rm, lbm⟩ := kept
  have states := Dev.driveSt_congr drives fun p _ => steady _ (driveState_steady p)
  have entry : u.rebuilt (8 * line + n) = d.rebuilt (8 * line + n) :=
    Dev.rebuilt_congr drives states media rm lbm (steady _ ageNow_steady) ((entries _).2 fun h => by omega)
  rw [Dev.fmRebuild_eq, entry]
  refine ⟨mapped.trans (u.setFme_onMap _ _), fun f hf => (u.setFme_get _ _ hf).trans (steady f hf), (u.setFme_drives _ _).trans drives,
    fun g => ⟨fun hg => ?_, fun hg => ?_⟩⟩
  · rw [Dev.setFme_fme]
    by_cases last : g = 8 * line + n
    · rw [if_pos last, last]
    · rw [if_neg last]
      exact (entries g).1 ⟨hg.1, by omega⟩
  · rw [Dev.setFme_fme, if_neg (fun e => hg (by omega))]
    exact (entries g).2 fun h => hg ⟨h.1, by omega⟩

theorem Dev.remapped (d : Dev) (line : Nat) :
    Dev.Remapped d line 8 ((List.range 8).foldl (fun s i => s.fmRebuild (8 * line + i)) d) := by
  have upTo (n : Nat) (hn : n ≤ 8) : Dev.Remapped d line n ((List.range n).foldl (fun s i => s.fmRebuild (8 * line + i)) d) := by
    induction n with
    | zero => exact .zero d line
    | succ n ih =>
      rw [List.range_succ, List.foldl_append]
      exact (ih (Nat.le_of_succ_le hn)).succ hn
  exact upTo 8 (Nat.le_refl 8)

/-- A rebuilt line is written to its channel, no longer lost, and told of. -/
def Dev.lineTouched (s : Dev) (line : Nat) : Dev := match s.fmPlace line with | some x => s.dramTouch x.1 x.2 | none => s
def Dev.lineTold (s : Dev) (n line : Nat) : Dev :=
  ({ s with mapLost := s.mapLost.del line } : Dev).raise (tmgEv 0x170 n 65535 n (8 * line) 0 0 true)

theorem Dev.fmLineRebuild_eq (s : Dev) (line : Nat) : s.fmLineRebuild line =
    (((if s.fmc.has line then s else (List.range 8).foldl (fun s i => s.fmRebuild (8 * line + i)) s).lineTouched line).lineTold
      (s.populated.getD (line % s.chanCount) 15) line).settle := rfl

theorem Dev.lineTouched_dram (s : Dev) (line : Nat) : Dev.DramOnly s (s.lineTouched line) := by
  unfold Dev.lineTouched
  split
  · exact s.dramTouch_dram _ _
  · exact .refl s

theorem Dev.get_lineTouched (s : Dev) (line : Nat) {f : Field} (h : f.steady) : (s.lineTouched line).get f = s.get f := by
  unfold Dev.lineTouched
  split
  · next x hx => exact s.dramTouch_get (Dev.fmPlace_lt (n := x.1) (cl := x.2) hx) _ h
  · rfl

/-- What the end of a line's rebuild keeps of what its entries were given by. -/
theorem Dev.lineEnds {d v : Dev} (mapped : Dev.OnMap d v) (n line : Nat) :
    ((v.lineTouched line).lineTold n line).mapLost = d.mapLost.del line ∧ ((v.lineTouched line).lineTold n line).fm = v.fm ∧
    ((v.lineTouched line).lineTold n line).frames = d.frames ∧ ((v.lineTouched line).lineTold n line).rm = d.rm ∧
    ((v.lineTouched line).lineTold n line).out = d.out ∧ (calm d → calm ((v.lineTouched line).lineTold n line)) ∧
    ∀ g, ((v.lineTouched line).lineTold n line).fme g = v.fme g := by
  have mask : ((v.lineTouched line).lineTold n line).get Reg.NVH.IMG_CFG.DRIVE_MASK = v.get Reg.NVH.IMG_CFG.DRIVE_MASK :=
    (Dev.get_raise_of_addr _ (by decide) (by decide) _).trans (v.get_lineTouched line driveMask_steady)
  have touched := v.lineTouched_dram line
  have told : Dev.Books { v.lineTouched line with mapLost := (v.lineTouched line).mapLost.del line } ((v.lineTouched line).lineTold n line) :=
    Dev.raise_books _ _
  generalize (v.lineTouched line).lineTold n line = w at mask told
  generalize v.lineTouched line = x at touched told
  have kept : w.fm = v.fm ∧ w.lostMaps = v.lostMaps ∧ w.regions = v.regions ∧ w.imageMask = v.imageMask := by
    obtain ⟨_, _, _, _, _, rfl⟩ := touched
    obtain ⟨_, _, _, _, rfl⟩ := told
    exact ⟨rfl, rfl, rfl, rfl⟩
  obtain ⟨fm, lost, regions, images⟩ := kept
  have entries := Dev.fme_congr v w fm lost regions (Dev.imageDrives_congr images mask)
  obtain ⟨_, _, _, _, _, _, _, _, _, rfl⟩ := mapped
  obtain ⟨_, _, _, _, _, rfl⟩ := touched
  obtain ⟨_, _, _, _, rfl⟩ := told
  exact ⟨rfl, fm, rfl, rfl, rfl, id, entries⟩

/-! ## A lost channel, with nothing left to rebuild -/

/-- The rebuild of a lost channel is over. -/
def Dev.lossOver (s : Dev) : Dev :=
  ((s.setBit Reg.TMG.STS.REBUILD false).raise (tmgEv 0x173 (s.get Reg.TMG.STS.LOST_CH) 65535 (s.get Reg.TMG.STS.LOST_CH) (2 ^ 40 - 1) 0 0
    true)).overcommit false

theorem Dev.lossOver_books (s : Dev) : Dev.Books s s.lossOver :=
  ((s.setBit_books _ _).trans (Dev.raise_books _ _)).trans (Dev.overcommit_books _ _)

theorem Dev.rebuild_lossOver (s : Dev) : s.lossOver.bit Reg.TMG.STS.REBUILD = false := by
  have cleared : ((s.setBit Reg.TMG.STS.REBUILD false).raise (tmgEv 0x173 (s.get Reg.TMG.STS.LOST_CH) 65535 (s.get Reg.TMG.STS.LOST_CH)
      (2 ^ 40 - 1) 0 0 true)).get Reg.TMG.STS.REBUILD = 0 :=
    (Dev.get_raise_of_addr _ (by decide) (by decide) _).trans (s.get_set_same _ _)
  have kept (u : Dev) : (u.overcommit false).get Reg.TMG.STS.REBUILD = u.get Reg.TMG.STS.REBUILD := by
    have marked (b : Bool) : (u.setBit Reg.TMG.STS.OVERCOMMIT b).get Reg.TMG.STS.REBUILD = u.get Reg.TMG.STS.REBUILD :=
      u.get_set_of_lo (f := Reg.TMG.STS.OVERCOMMIT) (by decide) (by decide) (by decide) _
    exact Dev.get_ite ((Dev.get_raise_of_addr _ (by decide) (by decide) _).trans (marked _)) (marked _)
  unfold Dev.bit
  rw [show s.lossOver.get Reg.TMG.STS.REBUILD = 0 from (kept _).trans cleared]
  rfl

theorem Dev.lossRebuild_of_closed {s : Dev} (h : s.bit Reg.TMG.STS.REBUILD = false) : s.lossRebuild = s := by
  unfold Dev.lossRebuild
  rw [h]
  exact if_pos rfl

theorem Dev.lossRebuild_of_none {s : Dev} (open_ : s.bit Reg.TMG.STS.REBUILD = true) (done : s.fmsDone = true) (found : s.mapLost.list = [])
    (empty : s.rm.list = []) : s.lossRebuild = s.lossOver.settle := by
  have same (p : Nat → Unit → Bool) : ({ s with fmsDone := true, mapLost := s.mapLost.filter p } : Dev) = s := by
    have kept : s.mapLost.filter p = s.mapLost := by
      unfold Tab.filter
      rw [found]
      exact congrArg Tab.mk found.symm
    rw [kept, ← done]
  unfold Dev.lossRebuild
  rw [if_neg (not_not_of_true open_)]
  dsimp only
  rw [if_pos done]
  simp only [List.foldl_nil, same, empty, List.filter_nil, List.map_nil, if_true]
  rfl

end Sys2Proof.Machine

namespace Sys2Proof
open Machine

/-! ## The clauses of O43 on lost frame-map lines and lost channels -/

theorem exec_frameMapLineRebuild {s : State} {n k line : Nat} (there : s.dev.populated.contains n = true) (hl : s.dev.fmLineOf n k = line) :
    exec (.frameMapLineRebuild n k) s = .next (s.did (s.dev.fmLineRebuild line)) :=
  State.next_did_congr s ((if_pos there).trans (congrArg s.dev.fmLineRebuild hl))

theorem lineOfNoChannel {s : State} (hq : quiet s) {n k : Nat} (gone : s.dev.populated.contains n = false) :
    exec (.frameMapLineRebuild n k) s = .next s :=
  State.next_same (d := if s.dev.populated.contains n then s.dev.fmLineRebuild (s.dev.fmLineOf n k) else s.dev) hq
    (if_neg (by rw [gone]; exact Bool.false_ne_true))

theorem cachedLineIsRewritten {s : State} (hq : quiet s) {n k line : Nat} (there : s.dev.populated.contains n = true)
    (hl : s.dev.fmLineOf n k = line) (cached : s.dev.fmc.has line = true) (still : calm s.dev) :
    ∃ t, exec (.frameMapLineRebuild n k) s = .next t ∧ t.dev.mapLost = s.dev.mapLost.del line ∧ t.dev.fm = s.dev.fm ∧ t.sent = s.sent := by
  have ran := exec_frameMapLineRebuild there hl
  rw [Dev.fmLineRebuild_eq, if_pos cached] at ran
  obtain ⟨lost, fm, -, -, out, calm', -⟩ :=
    Dev.lineEnds (.refl s.dev) (s.dev.populated.getD (line % s.dev.chanCount) 15) line
  rw [settle_calm (calm' still)] at ran
  generalize Dev.lineTold _ _ line = d at ran lost fm out
  exact ⟨_, ran, lost, fm, congrArg (· ++ s.sent) (out.trans hq)⟩

theorem lostLineIsRebuilt {s : State} (hq : quiet s) {n k line : Nat} (there : s.dev.populated.contains n = true)
    (hl : s.dev.fmLineOf n k = line) (uncached : s.dev.fmc.has line = false) (still : calm s.dev) :
    ∃ t, exec (.frameMapLineRebuild n k) s = .next t ∧ t.dev.mapLost = s.dev.mapLost.del line ∧ t.dev.frames = s.dev.frames ∧
      t.dev.rm = s.dev.rm ∧ t.sent = s.sent ∧ (∀ g, g / 8 ≠ line → t.dev.fme g = s.dev.fme g) ∧
      ∀ g, g / 8 = line → (t.dev.fme g).ew = (if s.dev.driveOk (homeSlot s.dev.imageN g) then
          (s.dev.medium (homeSlot s.dev.imageN g)).map.has (homeIndex s.dev.imageN g) else (s.dev.fme g).ew) ∧
        ((t.dev.fme g).tier = .L ↔ ∃ x ∈ s.dev.rm.list, x.2.fstate = .inUse ∧ x.2.owned = true ∧ x.2.gran = g) := by
  have ran := exec_frameMapLineRebuild there hl
  rw [Dev.fmLineRebuild_eq, if_neg (by rw [uncached]; exact Bool.false_ne_true)] at ran
  obtain ⟨mapped, -, -, entries⟩ := s.dev.remapped line
  obtain ⟨lost, -, frames, rm, out, calm', fme⟩ := Dev.lineEnds mapped (s.dev.populated.getD (line % s.dev.chanCount) 15) line
  rw [settle_calm (calm' still)] at ran
  generalize Dev.lineTold _ _ line = d at ran lost frames rm out fme
  refine ⟨_, ran, lost, frames, rm, congrArg (· ++ s.sent) (out.trans hq), fun g hg => ?_, fun g hg => ?_⟩
  · exact (fme g).trans ((entries g).2 fun h => hg h.1)
  · have entry := (fme g).trans ((entries g).1 ⟨hg, Nat.mod_lt g (by decide)⟩)
    exact ⟨(congrArg FmEntry.ew entry).trans (s.dev.ew_rebuilt g), (iff_of_eq (congrArg (fun e : FmEntry => e.tier = .L) entry)).trans (s.dev.tier_rebuilt g)⟩

theorem lostChannelIsRebuilt {s : State} (hq : quiet s) :
    (s.dev.bit Reg.TMG.STS.REBUILD = false → exec .channelLossRebuild s = .next s) ∧
    (s.dev.bit Reg.TMG.STS.REBUILD = true → exec .channelLossRebuild s = .next (s.did s.dev.lossRebuild)) ∧
    (calm s.dev → s.dev.bit Reg.TMG.STS.REBUILD = true → s.dev.fmsDone = true → s.dev.mapLost.list = [] → s.dev.rm.list = [] →
      ∃ t, exec .channelLossRebuild s = .next t ∧ t.dev.bit Reg.TMG.STS.REBUILD = false ∧ t.dev.frames = s.dev.frames ∧ t.dev.fm = s.dev.fm ∧
        t.sent = s.sent) := by
  have ran : exec .channelLossRebuild s = .next (s.did s.dev.lossRebuild) := rfl
  refine ⟨fun off => ran.trans (State.next_same hq (Dev.lossRebuild_of_closed off)), fun _ => ran, ?_⟩
  intro still on done found empty
  have books := s.dev.lossOver_books
  have over' := Dev.lossRebuild_of_none on done found empty
  have off := s.dev.rebuild_lossOver
  rw [settle_calm (calm_books still books)] at over'
  generalize s.dev.lossOver = d at books off over'
  obtain ⟨out, frames, -⟩ := books.keeps
  exact ⟨_, ran.trans (State.next_did_congr s over'), off, frames, books.fm, congrArg (· ++ s.sent) (out.trans hq)⟩

end Sys2Proof
end

section
/-! SUPPORT. A lender that does not answer gives way to flash (R355). -/

namespace Sys2Proof.Machine

/-- Where flash holds a granule rests on the image, its drives and their media, the rebuild, and the regions. -/
theorem Dev.flashPlace_congr {s t : Dev} (drives : t.imageDrives = s.imageDrives) (states : ∀ d, t.driveSt d = s.driveSt d)
    (media : t.media = s.media) (slots : t.drives = s.drives) (rebuild : t.rebuild = s.rebuild) (regions : t.regions = s.regions)
    (image : t.image = s.image) (g : Nat) : t.flashPlace g = s.flashPlace g := by
  have number : t.imageN = s.imageN := congrArg List.length drives
  have size : t.imageG = s.imageG := congrArg (fun i => i.g) image
  have oks : t.driveOk = s.driveOk := funext (Dev.driveOk_congr states)
  have mediums : t.medium = s.medium := funext (Dev.medium_congr drives media)
  have sealed_ : t.encrypted g = s.encrypted g := by
    unfold Dev.encrypted Dev.regionAt
    rw [regions]
  have gran : t.homeGran g = s.homeGran g := by
    unfold Dev.homeGran
    rw [number, mediums]
  have data : t.dataOfRebuild g = s.dataOfRebuild g := by
    unfold Dev.dataOfRebuild
    rw [number, mediums, rebuild, gran]
  have tag : t.tagLba g = s.tagLba g := funext fun b => by
    unfold Dev.tagLba
    rw [number]
  have tags : t.tagsOfRebuild g = s.tagsOfRebuild g := by
    unfold Dev.tagsOfRebuild
    rw [number, mediums, rebuild, gran, tag]
  have filled : t.filled = s.filled := funext fun d => funext fun i => funext fun w => by
    unfold Dev.filled
    rw [rebuild, states]
  have home : t.homeOk g = s.homeOk g := by
    unfold Dev.homeOk
    rw [number, oks, sealed_]
  have lba : t.dataLba g = s.dataLba g := by
    unfold Dev.dataLba
    rw [number, size]
  have rescue : t.rescueOf g = s.rescueOf g := by
    unfold Dev.rescueOf
    rw [slots]
  have rlba : t.rescueLba = s.rescueLba := funext fun j => by
    unfold Dev.rescueLba
    rw [number, size]
  unfold Dev.flashPlace
  rw [number, home, data, filled, sealed_, tags, lba, rescue, oks, mediums, rlba]

/-- What a read of flash sends: the granule's own read among it, and nothing else of the device changes. -/
theorem Dev.readGran_sends (s : Dev) (g : Nat) (p : Nat × Nat × Bool) :
    ∃ out, s.readGran g p = { s with out } ∧ .nvme p.1 .read 1 p.2.1 1 ∈ out := by
  unfold Dev.readGran
  dsimp only
  split
  · exact ⟨_, rfl, List.mem_cons_self⟩
  · split
    · exact ⟨_, rfl, List.mem_cons_of_mem _ List.mem_cons_self⟩
    · exact ⟨_, rfl, List.mem_cons_of_mem _ List.mem_cons_self⟩

/-- The device with a fill from a lender turned to flash, and its loan given up. -/
def Dev.turned (s : Dev) (g : Nat) (f : Fill) : Dev :=
  let s := match f.loan with | some i => { s with lbm := s.lbm.del i } | none => s
  s.updFill g fun f => { f with src := .F, loan := none }

theorem Dev.nFallback_of_waiting {s : Dev} {g : Nat} {f : Fill} (hf : s.fills.get? g = some f) (src : f.src = .N) (awaits : f.data = none) :
    s.nFallback g = ((s.turned g f).fillRead g).settle := by
  unfold Dev.nFallback
  rw [hf]
  dsimp only
  rw [if_neg (by rw [src, awaits]; decide)]
  rfl

theorem Dev.turned_form {s : Dev} {g : Nat} {f : Fill} (hf : s.fills.get? g = some f) :
    ∃ lbm, s.turned g f = { s with lbm, fills := s.fills.put g { f with src := .F, loan := none } } ∧
      ∀ i, f.loan = some i → lbm = s.lbm.del i := by
  unfold Dev.turned Dev.updFill
  dsimp only
  cases hl : f.loan with
  | none =>
    dsimp only
    rw [Tab.upd_of_some hf]
    exact ⟨s.lbm, rfl, fun i h => absurd h (by simp)⟩
  | some i =>
    dsimp only
    rw [Tab.upd_of_some hf]
    exact ⟨s.lbm.del i, rfl, fun j h => by rw [Option.some.inj h]⟩

/-- A fill from flash whose granule no destage merges is read from its place. -/
theorem Dev.fillRead_of_flash {s : Dev} {g : Nat} {f : Fill} (hf : s.fills.get? g = some f) (src : f.src = .F)
    (unmerging : s.mergeReading g = false) (unmerged : s.mergedLines g = none) {p : Nat × Nat × Bool} (place : s.flashPlace g = some p) :
    s.fillRead g = s.readGran g p := by
  unfold Dev.fillRead
  rw [hf]
  dsimp only
  rw [if_neg (by rw [unmerging]; exact Bool.false_ne_true), if_neg (by rw [unmerged]; simp), src, place]

/-- The count and the word of a lender that has not answered. -/
def Dev.lateCounted (s : Dev) (f : Fill) : Dev :=
  let u := s.at (f.readAt + s.get Reg.RND.N_TMO.N_TIMEOUT_US * fclkUs)
  u.count Reg.RND.N_TIMEOUT.COUNT Reg.RND.N_TIMEOUT.SAT 1 (u.rndPlain 0x20E 255)
def Dev.lateTold (s : Dev) (f : Fill) : Dev := (s.lateCounted f).raiseFirst ((s.lateCounted f).rndPlain 0x20D 255)

theorem Dev.lateTold_books (s : Dev) (f : Fill) :
    Dev.Books (s.at (f.readAt + s.get Reg.RND.N_TMO.N_TIMEOUT_US * fclkUs)) (s.lateTold f) :=
  (Dev.count_books _ _ _ _ _).trans (Dev.raiseFirst_books _ _)

theorem Dev.get_lateTold (s : Dev) (f : Fill) {x : Field} (h : x.addr ≠ 0x80008c) (row : x.addr ≠ 0x8c0024) (lo : x.lo < 32) :
    (s.lateTold f).get x = s.get x :=
  (Dev.get_raiseFirst_of_addr _ row lo _).trans
    (Dev.get_count_of_addr _ (c := Reg.RND.N_TIMEOUT.COUNT) (sat := Reg.RND.N_TIMEOUT.SAT) h h row lo (by decide) (by decide) _ _)

theorem Dev.flashPlace_lateTold (s : Dev) (f : Fill) (g : Nat) : (s.lateTold f).flashPlace g = s.flashPlace g := by
  have mask : (s.lateTold f).get Reg.NVH.IMG_CFG.DRIVE_MASK = s.get Reg.NVH.IMG_CFG.DRIVE_MASK :=
    s.get_lateTold f (by decide) (by decide) (by decide)
  have states (p : Nat) (hp : p < 8) : (s.lateTold f).get (Reg.NVH.DRV.STATE p) = s.get (Reg.NVH.DRV.STATE p) :=
    s.get_lateTold f (show 0x680020 + 0x4 * p ≠ 0x80008c by omega) (show 0x680020 + 0x4 * p ≠ 0x8c0024 by omega) (by decide : 0 < 32)
  have books := s.lateTold_books f
  generalize s.lateTold f = t at mask states books
  have kept : t.imageMask = s.imageMask ∧ t.media = s.media ∧ t.drives = s.drives ∧ t.rebuild = s.rebuild ∧ t.regions = s.regions ∧
      t.image = s.image := by
    obtain ⟨_, _, _, _, rfl⟩ := books
    exact ⟨rfl, rfl, rfl, rfl, rfl, rfl⟩
  obtain ⟨images, media, drives, rebuild, regions, image⟩ := kept
  have members := Dev.imageDrives_congr images mask
  exact Dev.flashPlace_congr members (Dev.driveSt_congr members states) media drives rebuild regions image g

end Sys2Proof.Machine

namespace Sys2Proof
open Machine

/-! ## The clause of O43 on a lender that does not answer -/

theorem noFillTimesOut {s : State} (hq : quiet s) {g : Nat}
    (h : ∀ f, s.dev.fills.get? g = some f → f.src ≠ .N ∨ f.data.isSome = true ∨ f.frame = none) :
    exec (.nFillTimeout g) s = .next s := by
  have ran : exec (.nFillTimeout g) s = .next (s.did (match s.dev.fills.get? g with
    | none => s.dev
    | some f => if f.src = .N ∧ f.data.isNone ∧ f.frame.isSome then (s.dev.lateTold f).nFallback g else s.dev)) := rfl
  refine ran.trans (State.next_same hq ?_)
  split
  · rfl
  · next f hf =>
    refine if_neg fun waits => ?_
    obtain ⟨src, data, frame⟩ := waits
    rcases h f hf with h | h | h
    · exact h src
    · rw [Option.isNone_iff_eq_none.1 data] at h
      exact absurd h (by decide)
    · rw [h] at frame
      exact absurd frame (by decide)

theorem exec_nFillTimeout {s : State} {g : Nat} {f : Fill} (hf : s.dev.fills.get? g = some f) (src : f.src = .N) (awaits : f.data = none)
    (placed : f.frame.isSome = true) : exec (.nFillTimeout g) s = .next (s.did ((s.dev.lateTold f).nFallback g)) := by
  have ran : exec (.nFillTimeout g) s = .next (s.did (match s.dev.fills.get? g with
    | none => s.dev
    | some f => if f.src = .N ∧ f.data.isNone ∧ f.frame.isSome then (s.dev.lateTold f).nFallback g else s.dev)) := rfl
  refine ran.trans (State.next_did_congr s ?_)
  rw [hf]
  exact if_pos ⟨src, Option.isNone_iff_eq_none.2 awaits, placed⟩

/-- The fill of a lender that does not answer is read from flash instead, and its loan is given up. -/
theorem lateFillTurnsToFlash {s : State} {g : Nat} {f : Fill} (hf : s.dev.fills.get? g = some f) (src : f.src = .N)
    (awaits : f.data = none) (placed : f.frame.isSome = true) (still : calm s.dev) (unmerging : s.dev.mergeReading g = false)
    (unmerged : s.dev.mergedLines g = none) {p : Nat × Nat × Bool} (place : s.dev.flashPlace g = some p) :
    ∃ t, exec (.nFillTimeout g) s = .next t ∧ t.dev.fills = s.dev.fills.put g { f with src := .F, loan := none } ∧
      t.dev.frames = s.dev.frames ∧ (∀ i, f.loan = some i → t.dev.lbm = s.dev.lbm.del i) ∧ .nvme p.1 .read 1 p.2.1 1 ∈ t.sent := by
  have ran := exec_nFillTimeout hf src awaits placed
  have place' := (s.dev.flashPlace_lateTold f g).trans place
  have books := s.dev.lateTold_books f
  generalize s.dev.lateTold f = v at ran place' books
  have kept : v.fills = s.dev.fills ∧ v.lbm = s.dev.lbm ∧ v.destages = s.dev.destages ∧ v.frames = s.dev.frames ∧ calm v := by
    obtain ⟨_, _, _, _, rfl⟩ := books
    exact ⟨rfl, rfl, rfl, rfl, still⟩
  obtain ⟨fills, lbm, destages, frames, still'⟩ := kept
  have hf' : v.fills.get? g = some f := by rw [fills]; exact hf
  rw [Dev.nFallback_of_waiting hf' src awaits] at ran
  obtain ⟨lbm', form, given⟩ := Dev.turned_form hf'
  rw [form] at ran
  have unmerging' : v.mergeReading g = false := by
    unfold Dev.mergeReading
    rw [destages]
    exact unmerging
  have unmerged' : v.mergedLines g = none := by
    unfold Dev.mergedLines
    rw [destages]
    exact unmerged
  have read := Dev.fillRead_of_flash (s := { v with lbm := lbm', fills := v.fills.put g { f with src := .F, loan := none } })
    (Tab.get?_put_same _ g _) rfl unmerging' unmerged' (p := p) ((Dev.flashPlace_congr rfl (fun _ => rfl) rfl rfl rfl rfl rfl g).trans place')
  obtain ⟨out, sent, mem⟩ := Dev.readGran_sends { v with lbm := lbm', fills := v.fills.put g { f with src := .F, loan := none } } g p
  rw [read, sent, settle_calm] at ran
  · refine ⟨_, ran, congrArg (fun t : Tab Fill => t.put g _) fills, frames, fun i hi => ?_, List.mem_append_left _ mem⟩
    exact (given i hi).trans (congrArg (fun t : Tab _ => t.del i) lbm)
  · exact calm_putFill (d := { v with lbm := lbm', out := out }) still' g (f := { f with src := .F, loan := none }) placed

/-- Settles O43: a clause for each thing that goes on behind a request. -/
theorem memoryGoesOn : Obligations.MemoryGoesOn := by
  unfold Obligations.MemoryGoesOn
  intro s hq
  refine ⟨fun p => heldWritePasses hq p, ?reads, fun still no noise h => noReadComesBack hq still noise h, ?flash, ?fills, ?tests,
    fun slice => evictedLineIsWrittenBack hq slice, fun h => flushWaitsForWrites hq h, ageClockAdvances hq, (framesAreFreed hq).1,
    (framesAreFreed hq).2, waitingIsTriedAgain hq, fun which v hw => quotaIsSet hq which v hw,
    fun n k gone => lineOfNoChannel hq gone, fun n k line there hl cached still => cachedLineIsRewritten hq there hl cached still,
    fun n k line there hl uncached still => lostLineIsRebuilt hq there hl uncached still, (lostChannelIsRebuilt hq).1,
    (lostChannelIsRebuilt hq).2.1, (lostChannelIsRebuilt hq).2.2, fun g h => noFillTimesOut hq h, ?lender⟩
  case reads =>
    intro still no noise d hd
    exact ⟨fun n issued runs => issuedReadComesBack hq still noise hd issued runs,
      fun retry issued => retriedReadWaits hq still noise hd retry issued⟩
  case flash =>
    intro g flips ns unmerged
    exact flashReadBringsLines hq g flips ns unmerged
  case fills =>
    intro g f hf
    exact fillStandsInItsFrame hq hf
  case tests =>
    intro core u on last hu f c hf hc pass
    subst hf
    subst hc
    exact selfTestEnds hq core u on last hu pass
  case lender =>
    intro g f hf src awaits placed u v hu hv
    subst hu
    subst hv
    exact ⟨exec_nFillTimeout hf src awaits placed, fun still alone unmerging unmerged p place =>
      lateFillTurnsToFlash hf src awaits placed still unmerging unmerged place⟩

end Sys2Proof
end
